-- ==== Sys2Proof/Word.lean ====
section
/-! DEFINITION. The word types of the DGX-512: 32-bit registers (R8), bytes, the 48-bit stroke number (R13)
and the numeric types of the Jikin engines (R242). -/

namespace Sys2Proof

/-- A register word: every register is 32 bits wide (R8). -/
abbrev Word := BitVec 32

/-- A byte of a memory of the module. -/
abbrev Byte := BitVec 8

/-- A stroke number: 48 bits, wrapping silently (R11, R13). -/
abbrev Stroke := BitVec 48

/-- One lane of an engine's vector register: 20 bits (R242). -/
abbrev Lane := BitVec 20

/-- One lane of an engine's accumulator: 48 bits (R242). -/
abbrev Acc := BitVec 48

/-- A queue descriptor or an event record: 128 bits (R463). -/
abbrev Rec := BitVec 128

end Sys2Proof
end

