-- ==== Sys2Proof/Syntax.lean ====
section
/-! DEFINITION. The commands of the DGX-512: one constructor of `Instr` for each row of the command table, with its operands. What
reaches the device from outside (measurements, received packets, data read) is an operand. -/

namespace Sys2Proof

/-- The masters of the quay (R445): PCIe endpoint, QSPI target, I²C target, management pairs, DMA channels, chart loader,
event writer. -/
inductive Master where
  | pcie | qspi | i2c | mc (n : Fin 2) | dma (n : Fin 8) | loader | evtWriter
deriving DecidableEq, Repr

/-- The number of a master (R445). -/
def Master.num : Master → Nat
  | .pcie => 0 | .qspi => 1 | .i2c => 2 | .mc n => 3 + n | .dma n => 5 + n | .loader => 13 | .evtWriter => 14

/-- A host interface: PCIe, QSPI or I²C (R487). -/
def Master.isHost : Master → Bool
  | .pcie | .qspi | .i2c => true
  | _ => false

/-- What the phase measurement of the Cox finds for a reference (R64): how far the device's own boundary lies after the
reference's edge or marker, in ps; and, for a link reference, the far end's stroke period in ps. -/
structure RefPhase where
  ref   : Fin 8
  phase : Int
  farPs : Nat
deriving DecidableEq, Repr

/-- What a 1 s gate measures (R57, R68, R70): the mean offset in ppt of each reference it could measure, the loop phase error in
50 ps units, the loop's frequency offset from its reference in ppt and the loop control value in ppt. -/
structure GateIn where
  offsets  : List (Fin 8 × Int)
  phaseErr : Int
  freqErr  : Int
  ctrl     : Int
deriving DecidableEq, Repr

/-- What a segment says of a port beside its registers (R104, R113): the features the port requires and its narrow modes, by width,
each stream kept whole (`none`) or replaced by a substitute stream. -/
structure PortPlan where
  port   : Nat
  needs  : Nat
  narrow : List (Nat × List (Nat × Option Nat))
deriving DecidableEq, Repr

/-- A kernel image of the `KERNELS` segment (R217, R264): its kernel ID, the instruction-set version that it needs, the engines that
receive it, its address in their code regions. -/
structure KernelImage where
  kernel  : Nat
  major   : Nat
  minor   : Nat
  engines : List (Fin 256)
  addr    : Nat
  bytes   : List (BitVec 8)
deriving DecidableEq, Repr

/-- What the `LIGHT` segment carries beside registers (R351, R356 to R368): strings with unit and bin entry; the trim table;
the start level; zone floors; heads with local dimming; `LUM_MAX`; neighbouring pins. -/
structure LightPlan where
  strings     : List (Nat × Option Nat × Nat)
  trims       : List (Nat × Nat)
  trimNominal : Nat
  startLevel  : Nat
  zoneFloors  : List (Nat × Nat)
  dimHeads    : List Nat
  lumMax      : List (Nat × Nat)
  neighbours  : List (Nat × Nat)
deriving DecidableEq, Repr

/-- The records of a segment, as the owning chapters define them: values for registers and table words, crossings as entry and four
words, port plans, the destinations with a transform stage, the read-back receivers that `FIRST_LIGHT` assigns, kernel images, the
lighting plan, slip preload images as slip and lines of words, chime clips by slot. -/
structure SegContent where
  regs      : List (Nat × Word)
  crossings : List (Nat × Word × Word × Word × Word)
  ports     : List PortPlan
  stages    : List Nat
  rbLocked  : List Nat
  kernels   : List KernelImage
  light     : Option LightPlan
  preloads  : List (Nat × List (List Lane))
  clips     : List (Nat × List Lane)
deriving DecidableEq, Repr

/-- What a port receives between K27.7 or K28.2 and the end symbol (R97, R127, R139): a packet or a message, its bytes with the
CRC-32, the symbols in it that are counted as code errors, and whether it ended with K30.7. -/
structure RxIn where
  port    : Fin 512
  isMsg   : Bool
  bytes   : List Byte
  errs    : Nat
  aborted : Bool
deriving DecidableEq, Repr

/-- The fields of an engine instruction beside its operation code (R244). -/
structure EngFields where
  d   : BitVec 5
  a   : BitVec 5
  b   : BitVec 5
  c   : BitVec 5
  sgn : Bool
  sat : Bool
  hlf : Bool
  msk : Bool
  var : BitVec 2
  imm : BitVec 32
deriving DecidableEq, Repr

/-- What a PWM period measures of one string (R357, R365): the voltage across its sink in mV at the end of its on-time, and
whether its current stayed below 10 % of its amplitude. -/
structure StringMeas where
  str      : Fin 528
  headroom : Nat
  low      : Bool
deriving DecidableEq, Repr

/-- What a PWM period measures: the strings, and the lamp-board NTC inputs in 0.1 °C, `none` for open or shorted (R364). -/
structure PwmIn where
  strings : List StringMeas
  ntc     : List (Fin 4 × Option Int)
deriving DecidableEq, Repr

/-- Where a page write is when the light die stops (R389). -/
inductive PageCut where
  | merging | erasing | group (g : Fin 16)
deriving DecidableEq, Repr

/-- One reading of a sensor: its code (R407; 52 and 53 are the light die's diodes) and the sensed temperature in 0.01 °C, trimmed
and before group offsets. -/
structure Sensed where
  code : Fin 54
  temp : Int
deriving DecidableEq, Repr

/-- The three thresholds of R411. -/
inductive Threshold where
  | warn | throt | shdn
deriving DecidableEq, Repr

/-- The commands: one constructor per row of the command table. -/
inductive Instr where
  /-- STROKE_BOUNDARY (R14): The stroke period expires and the device runs the ordered steps of the stroke boundary. -/
  | strokeBoundary (ps : List RefPhase)
  /-- DEADLINE (R234): The manifest deadline passes and every unfinished job is cancelled and reported. -/
  | deadline
  /-- MANIFEST_RECORD_START (R231): A record's START offset arrives and the dispatcher skips it, reports NO_INPUT, claims a
  slot or pushes its JOB. -/
  | manifestRecordStart (r : Fin 1024)
  /-- ENGINE_TAKE_JOB (R243): An idle engine takes the oldest JOB from its job queue, clears its registers and starts the
  kernel. -/
  | engineTakeJob (e : Fin 256)
  /-- CREW_TAKE_JOB (R227): A crew takes a JOB and divides its line range among its members by weight. -/
  | crewTakeJob (c : Fin 128)
  /-- CREW_LINE_ROUTE (R228): A crew routes a LINE descriptor to every member whose widened range contains it. -/
  | crewLineRoute (c : Fin 128)
  /-- ENG_HELD_WRITE (R218): A held host or DMA write to an engine's data region is performed once the engine is between jobs.
  -/
  | engHeldWrite (e : Fin 256)
  /-- NOP (R251): The engine does nothing for one cycle. -/
  | nop (e : Fin 256) (f : EngFields)
  /-- BR (R258): The engine branches conditionally on a scalar against an immediate. -/
  | br (e : Fin 256) (f : EngFields)
  /-- LOOP (R259): The engine starts a hardware loop over the following instructions. -/
  | loop (e : Fin 256) (f : EngFields)
  /-- JEND (R260): The job waits for posted writes and ends with status OK and its result. -/
  | jend (e : Fin 256) (f : EngFields)
  /-- JFLD (R261): A scalar receives the selected job field. -/
  | jfld (e : Fin 256) (f : EngFields)
  /-- TSIG (R251): The engine pushes a CTRL descriptor tagged with the job to a queue. -/
  | tsig (e : Fin 256) (f : EngFields)
  /-- VLD (R252): A vector register is loaded with 32 words from local memory. -/
  | vld (e : Fin 256) (f : EngFields)
  /-- VST (R252): A vector register is stored as 32 words to local memory. -/
  | vst (e : Fin 256) (f : EngFields)
  /-- VLDS (R251): A vector register is loaded with strided words from local memory. -/
  | vlds (e : Fin 256) (f : EngFields)
  /-- SLD (R252): A scalar is loaded from local memory. -/
  | sld (e : Fin 256) (f : EngFields)
  /-- SST (R252): A scalar is stored to local memory. -/
  | sst (e : Fin 256) (f : EngFields)
  /-- QIN (R254): The engine takes LINE descriptors from its data input queue and copies their data into local memory. -/
  | qin (e : Fin 256) (f : EngFields)
  /-- QOUT (R255): The engine writes words into its output slot and optionally pushes LINE descriptors. -/
  | qout (e : Fin 256) (f : EngFields)
  /-- QWAIT (R256): The engine waits until every QOUT of the job has landed. -/
  | qwait (e : Fin 256) (f : EngFields)
  /-- LDP (R257): A scalar receives a word of the job parameter block. -/
  | ldp (e : Fin 256) (f : EngFields)
  /-- VADD (R251): Lane-wise addition. -/
  | vadd (e : Fin 256) (f : EngFields)
  /-- VSUB (R251): Lane-wise subtraction. -/
  | vsub (e : Fin 256) (f : EngFields)
  /-- VMIN (R251): Lane-wise minimum. -/
  | vmin (e : Fin 256) (f : EngFields)
  /-- VMAX (R251): Lane-wise maximum. -/
  | vmax (e : Fin 256) (f : EngFields)
  /-- VABSD (R251): Lane-wise absolute difference. -/
  | vabsd (e : Fin 256) (f : EngFields)
  /-- VSH (R251): Lane-wise shift with rounding. -/
  | vsh (e : Fin 256) (f : EngFields)
  /-- VLOG (R251): Lane-wise logical operation. -/
  | vlog (e : Fin 256) (f : EngFields)
  /-- VMOV (R251): Vector move of the B operand. -/
  | vmov (e : Fin 256) (f : EngFields)
  /-- VMUL (R251): Lane-wise multiply with shift and rounding. -/
  | vmul (e : Fin 256) (f : EngFields)
  /-- SADD (R251): Scalar addition. -/
  | sadd (e : Fin 256) (f : EngFields)
  /-- SSUB (R251): Scalar subtraction. -/
  | ssub (e : Fin 256) (f : EngFields)
  /-- SMUL (R251): Scalar multiplication, low 32 bits. -/
  | smul (e : Fin 256) (f : EngFields)
  /-- SAND (R251): Scalar bitwise AND. -/
  | sand (e : Fin 256) (f : EngFields)
  /-- SOR (R251): Scalar bitwise OR. -/
  | sor (e : Fin 256) (f : EngFields)
  /-- SSH (R251): Scalar shift. -/
  | ssh (e : Fin 256) (f : EngFields)
  /-- SMOV (R251): Scalar load of a 32-bit immediate. -/
  | smov (e : Fin 256) (f : EngFields)
  /-- MAC (R251): Multiply and accumulate into an accumulator. -/
  | mac (e : Fin 256) (f : EngFields)
  /-- MSU (R251): Multiply and subtract from an accumulator. -/
  | msu (e : Fin 256) (f : EngFields)
  /-- ASET (R251): Set an accumulator from the B operand. -/
  | aset (e : Fin 256) (f : EngFields)
  /-- ARD (R251): Read an accumulator into a vector with shift, rounding and saturation. -/
  | ard (e : Fin 256) (f : EngFields)
  /-- ASUM (R251): Sum the lanes of an accumulator into a scalar. -/
  | asum (e : Fin 256) (f : EngFields)
  /-- VPERM (R251): Permute lanes of a vector. -/
  | vperm (e : Fin 256) (f : EngFields)
  /-- VSLD (R251): Slide lanes across two concatenated vectors. -/
  | vsld (e : Fin 256) (f : EngFields)
  /-- VILV (R251): Interleave or deinterleave lanes of two vectors. -/
  | vilv (e : Fin 256) (f : EngFields)
  /-- VEXT (R251): Extract one lane into a scalar. -/
  | vext (e : Fin 256) (f : EngFields)
  /-- VLUT (R253): Table lookup per lane. -/
  | vlut (e : Fin 256) (f : EngFields)
  /-- VLUTI (R253): Interpolated table lookup per lane. -/
  | vluti (e : Fin 256) (f : EngFields)
  /-- VCMP (R251): Lane-wise comparison into a scalar mask. -/
  | vcmp (e : Fin 256) (f : EngFields)
  /-- VSEL (R251): Lane-wise select between two vectors by a mask. -/
  | vsel (e : Fin 256) (f : EngFields)
  /-- UNDEFINED_ENCODING (R245): The engine meets an undefined encoding and ends the job with fault code 1. -/
  | undefinedEncoding (e : Fin 256)
  /-- QIN_DATA_ARRIVE (R254): A waiting QIN receives its descriptor and completed copy and resumes. -/
  | qinDataArrive (e : Fin 256)
  /-- LDP_WORD_ARRIVE (R257): The parameter word a waiting LDP asked for arrives. -/
  | ldpWordArrive (e : Fin 256)
  /-- POSTED_WRITES_LANDED (R256): A job's posted slot writes and descriptor pushes land, releasing a waiting QWAIT or JEND.
  -/
  | postedWritesLanded (e : Fin 256)
  /-- QUEUE_XON_RELEASE (R182): A queue's fill falls to XON and releases held producers. -/
  | queueXonRelease (q : Fin 4096)
  /-- HEAD_FRAME_START (R269): A head's scheduled frame start arrives, the head reports phase error and trims its divider. -/
  | headFrameStart (h : Fin 64) (err : Int)
  /-- HEAD_LINE_START (R292): A head starts an output line, fetching rows and detecting crabs and line events. -/
  | headLineStart (h : Fin 64) (fetch : List (Fin 8 × Nat)) (broken : List (Fin 256 × BitVec 19 × Word))
  /-- GATE_LINE (R298): A head reaches its gate line and compares signatures, closes zone statistics, releases pins, takes
  commits and prefetches. -/
  | gateLine (h : Fin 64) (rb : List (Fin 16 × Option Word)) (sym : List (Fin 32 × Nat × Nat))
  /-- HEAD_COMMIT (R281): A write of GO to HEAD_nn_COMMIT asks the head to take its shadowed registers at a gate line. -/
  | headCommit (m : Master) (h : Fin 64) (w : Word)
  /-- HED_SYNC_COMMIT (R284): A synchronised commit asks a mask of heads to take their shadows at one shared gate line. -/
  | hedSyncCommit (m : Master) (w : Word)
  /-- GANGWAY_WRITE (R286): A host write gives a layer's gangway a new value. -/
  | gangwayWrite (m : Master) (h : Fin 64) (k : Fin 8) (w : Word)
  /-- TT_PIN_ACCEPT (R307): A tell-tale pin's sampled value has held for the filter time and becomes its accepted value. -/
  | ttPinAccept (p : Fin 32)
  /-- WATCH_TIMING (R89): A watch head's pixel synthesizer has been out of its phase window for longer than two strokes. -/
  | watchTiming (h : Fin 64)
  /-- RESET_RELEASE (R427): The reset hold ends, the matrix die leaves reset, samples straps and starts the loader and boot
  synthesizers. -/
  | resetRelease (straps : BitVec 4) (sris : Bool)
  /-- HEADER_READ (R30): The loader has read a chart header and directory and runs checks 1 to 7. -/
  | headerRead (got : Option (List Byte))
  /-- SEGMENT_READ (R30): The loader has read a segment and checks its CRC, digest and content, re-reading once on a CRC
  failure. -/
  | segmentRead (got : Option (List Byte)) (c : Option SegContent)
  /-- SEGMENT_PLACED (R41): Placement of a segment completes and the loader moves state or reads the next segment. -/
  | segmentPlaced
  /-- PULL_GO (R35): A write of CHT_CTRL.PULL_GO starts a PCIe pull of a full chart. -/
  | pullGo (m : Master)
  /-- CHT_PUSH_DATA (R36): A host word written to the push window appends 4 bytes to the push buffer. -/
  | chtPushData (m : Master) (k : Fin 1024) (w : Word)
  /-- OTP_KEY_FIRST (R34): The first write of the OTP key sequence opens a 1 ms window. -/
  | otpKeyFirst (m : Master)
  /-- OTP_BURN (R34): The second OTP key write with BURN programs the chart key hash. -/
  | otpBurn (m : Master)
  /-- OTP_TEST_ALLOW (R34): The second OTP key write with TEST_ALLOW also burns TEST_KEY_OK. -/
  | otpTestAllow (m : Master)
  /-- CHT_OTP_DATA (R49): A write appends one word of the key hash in sequence. -/
  | chtOtpData (m : Master) (w : Word)
  /-- FLASH_KEY_FIRST (R39): The first write of the GOLDEN flash key sequence opens a 1 ms window. -/
  | flashKeyFirst (m : Master)
  /-- FLASH_ERASE (R39): A flash erase clears a 4 KiB sector of the selected slot. -/
  | flashErase (m : Master) (golden : Bool)
  /-- FLASH_PROGRAM (R39): A flash program writes the selected slot. -/
  | flashProgram (m : Master) (golden : Bool)
  /-- AMD_GO (R46): A write of GO starts staging an amendment by the selected path and latches its take-stroke. -/
  | amdGo (m : Master) (path : Bool)
  /-- AMD_ABORT (R47): A write of ABORT discards a staging or staged amendment silently. -/
  | amdAbort (m : Master)
  /-- AMD_STAGED (R47): Staging completes and the amendment is checked, discarded as late or held for its take-stroke. -/
  | amdStaged (got : Option (List Byte)) (guard mtags : Nat)
  /-- COX_GATE (R57): A 1 s frequency gate ends and the Cox updates alarms, qualification, selection and lock. -/
  | coxGate (g : GateIn)
  /-- REF_ACTIVITY_LOSS (R53): A reference's activity monitor declares loss and the reference is disqualified. -/
  | refActivityLoss (n : Fin 8)
  /-- QL_MESSAGE (R55): A QL byte received on a QL_IN pin is validated and may change the QL in force. -/
  | qlMessage (n : Fin 8) (byte : BitVec 8) (framed : Bool)
  /-- QL_TIMEOUT (R55): No valid QL message for 5 s returns the reference to its register QL. -/
  | qlTimeout (n : Fin 8)
  /-- COX_SEL_WRITE (R63): A write of COX_SEL names the manual choice and may start a switch. -/
  | coxSelWrite (m : Master) (w : Word)
  /-- COX_MANUAL (R61): COX_CTRL.MODE set to MANUAL runs the selection rules. -/
  | coxManual (m : Master) (w : Word)
  /-- COX_FORCE_HOLD (R61): COX_CTRL.MODE set to FORCE_HOLD enters HOLDOVER or FREE_RUN. -/
  | coxForceHold (m : Master) (w : Word)
  /-- COX_FORCE_FREE (R61): COX_CTRL.MODE set to FORCE_FREE enters FREE_RUN. -/
  | coxForceFree (m : Master) (w : Word)
  /-- WTR_EXPIRY (R63): A wait-to-restore timer expires and a switch to the restored winner follows. -/
  | wtrExpiry (n : Fin 8)
  /-- SLEW_GO (R65): A write of GO starts a phase slew or adds to the one in progress. -/
  | slewGo (m : Master) (w : Word)
  /-- SLEW_DONE (R65): The slew has applied its whole change and clears BUSY. -/
  | slewDone
  /-- HOLD_VALID (R69): The Cox has been LOCKED for 10 s in total and a holdover value becomes available. -/
  | holdValid
  /-- TCOMP_UPDATE (R72): The Cox recomputes temperature compensation at 10 Hz. -/
  | tcompUpdate
  /-- COX_STEER_WRITE (R71): A write of COX_STEER sets the signed steering, clipped to its limit. -/
  | coxSteerWrite (m : Master) (w : Word)
  /-- MARKER_RECEIVED (R132): A stroke marker arrives, is timestamped and checked, and drives phase pull, link references and
  stroke-number adoption. -/
  | markerReceived (p : Fin 512) (bs : List Byte) (errs : Nat)
  /-- MARKER_MISSING (R53): An expected stroke marker fails to arrive and counts as missing. -/
  | markerMissing (p : Fin 512)
  /-- SYN_LOCK (R85): A synthesizer declares lock and unmutes its output or relocks from coast. -/
  | synLock (k : Fin 136)
  /-- SYN_LOCK_LOSS (R87): A locked synthesizer loses lock or reference and coasts. -/
  | synLockLoss (k : Fin 136) (refLost : Bool)
  /-- SYN_FERR_MEASURE (R87): A coasting synthesizer measures its output error every 1,024 reference cycles. -/
  | synFerrMeasure (k : Fin 136) (err : Int)
  /-- SYN_RELOCK (R90): A write of RELOCK stops the domains, re-chooses the band and re-acquires. -/
  | synRelock (m : Master) (k : Fin 136)
  /-- DETECT_DONE (R104): Signal energy and 16 aligned commas move a port from DETECT to TRAIN. -/
  | detectDone (p : Fin 512)
  /-- TRAIN_DONE (R104): A lane or group completes training and moves to NEGOTIATE. -/
  | trainDone (p : Fin 512) (inverted : Bool)
  /-- TRAIN_TIMEOUT (R107): TRAIN has not completed in 100 ms and the port or group returns to DETECT or falls to width 1. -/
  | trainTimeout (p : Fin 512) (aligned : Bool)
  /-- NEG_TRANSMIT (R123): Each end sends a NEG message every 10 µs in NEGOTIATE. -/
  | negTransmit (p : Fin 512)
  /-- NEGOTIATE_DONE (R124): Negotiation completes and the port enables features and enters RUN or steps. -/
  | negotiateDone (p : Fin 512)
  /-- NEGOTIATE_TIMEOUT (R104): NEGOTIATE has not completed in 50 ms and the port returns to DETECT. -/
  | negotiateTimeout (p : Fin 512)
  /-- STEP_DONE (R105): Training at the new rate completes and the eye is checked against the margin. -/
  | stepDone (p : Fin 512) (eye : Nat)
  /-- STEP_TIMEOUT (R105): Training at the new rate has not completed in 50 ms and the port falls back one step. -/
  | stepTimeout (p : Fin 512)
  /-- RATE_AGREE_TIMEOUT (R148): No rate offer has been answered in 50 ms and the step fails without a rate change. -/
  | rateAgreeTimeout (p : Fin 512)
  /-- STEP_RETRY (R106): Ten seconds after a failed step the port attempts it again or defers it. -/
  | stepRetry (p : Fin 512)
  /-- LANE_LOCK_LOSS (R100): A lane in RUN loses lock, and an unbonded port retrains or a group stops packets. -/
  | laneLockLoss (p : Fin 512)
  /-- RETRAIN_TIMEOUT (R101): An unbonded port has not retrained in 100 ms and falls back one rate step. -/
  | retrainTimeout (p : Fin 512)
  /-- LANE_RELOCK (R112): A lost lane of a group relocks. -/
  | laneRelock (p : Fin 512)
  /-- BUOY_RECEIVED (R110): A buoy arrives and the group deskews and realigns its lanes. -/
  | buoyReceived (p : Fin 512) (skew : Nat) (index : Fin 8) (count : BitVec 16)
  /-- GROUP_NARROW (R113): At the eighth boundary after a lane loss the group narrows to its good lanes. -/
  | groupNarrow (p : Fin 512)
  /-- WIDEN (R114): A write of PRT_nnn_CTRL.WIDEN widens a narrowed group from the next boundary. -/
  | widen (m : Master) (p : Fin 512)
  /-- RETRAIN (R104): A write of RETRAIN returns the port or group to DETECT. -/
  | retrain (m : Master) (p : Fin 512)
  /-- RESTEP (R106): A write of RESTEP clears step attempts and schedules the step 10 s later. -/
  | restep (m : Master) (p : Fin 512)
  /-- IDLE_ENTER (R102): A write of IDLE_ENTER sends K23.7 and puts the transmitter into electrical idle. -/
  | idleEnter (m : Master) (p : Fin 512)
  /-- IDLE_EXIT (R103): A write of IDLE_EXIT sends the fast-exit burst and resumes traffic. -/
  | idleExit (m : Master) (p : Fin 512)
  /-- RX_IDLE_ENTRY (R102): A receiver decodes K23.7, squelches its input and freezes its adaptation. -/
  | rxIdleEntry (p : Fin 512)
  /-- RX_IDLE_EXIT (R103): Signal energy returns and the receiver aligns commas from the fast-exit burst. -/
  | rxIdleExit (p : Fin 512)
  /-- IDLE_EXIT_TIMEOUT (R103): No comma alignment 100 µs after energy returns sends the port back to TRAIN. -/
  | idleExitTimeout (p : Fin 512)
  /-- PRBS_CTRL_WRITE (R115): A write of PRBS control enables a generator or checker, or is refused. -/
  | prbsCtrlWrite (m : Master) (p : Fin 512) (w : Word)
  /-- EYE_SCAN (R116): A write of GO starts an eye scan of the selected lane. -/
  | eyeScan (m : Master) (o : Fin 64) (w : Word)
  /-- EYE_SCAN_DONE (R116): An eye scan completes and reports height and width. -/
  | eyeScanDone (o : Fin 64) (height : Nat) (width : Nat)
  /-- RB_CFG_WRITE (R118): A write assigns a read-back receiver to a port, or is ignored when locked. -/
  | rbCfgWrite (m : Master) (k : Fin 32) (w : Word)
  /-- EXTEST (R119): An IEEE 1149.6 EXTEST instruction gives the TAP control of the port pads. -/
  | extest (on : Bool)
  /-- PACKET_RECEIVED (R136): A whole packet or message arrives and is checked, classified and placed. -/
  | packetReceived (r : RxIn)
  /-- XACT_TIMEOUT (R143): A transaction without a response is retried or fails. -/
  | xactTimeout (p : Fin 512) (tag : Fin 256)
  /-- HX_READ (R152): A host transaction command issues a READ at the far end. -/
  | hxRead (m : Master) (p : Fin 512) (len : BitVec 5)
  /-- HX_WRITE (R152): A host transaction command issues a WRITE at the far end, refused on watch ports. -/
  | hxWrite (m : Master) (p : Fin 512) (len : BitVec 5)
  /-- HX_READ_ID (R152): A host transaction command issues a READ_ID at the far end. -/
  | hxReadId (m : Master) (p : Fin 512) (len : BitVec 5)
  /-- HX_WRITE_ID (R152): A host transaction command issues a WRITE_ID at the far end, refused on watch ports. -/
  | hxWriteId (m : Master) (p : Fin 512) (len : BitVec 5)
  /-- PULL_CFG_WRITE (R133): A write of PULL_CFG sets phase pull at the far end from the next boundary. -/
  | pullCfgWrite (m : Master) (p : Fin 512) (w : Word)
  /-- RW_KEY (R149): A write of the rough-water key arms the port when every condition holds. -/
  | rwKey (m : Master) (p : Fin 512) (w : Word)
  /-- RW_CTRL_WRITE (R150): A write of rough-water control selects injected faults or disarms the port. -/
  | rwCtrlWrite (m : Master) (p : Fin 512) (w : Word)
  /-- RW_LOSS_GO (R150): A write of LOSS_GO forces one lane loss on an armed port. -/
  | rwLossGo (m : Master) (p : Fin 512) (w : Word)
  /-- XTB_WORD3_WRITE (R163): A write of word 3 of a Crossing Table entry checks and arms, cancels or refuses it. -/
  | xtbWord3Write (m : Master) (k : Fin 32768) (w : Word)
  /-- XTB_ARM (R164): A write of XTB_ARM_CTRL.GO arms a crossing group after checking its count. -/
  | xtbArm (m : Master) (w : Word)
  /-- XTB_CANCEL (R164): A write of XTB_ARM_CTRL.CANCEL cancels an armed or held group. -/
  | xtbCancel (m : Master) (w : Word)
  /-- XFORM_WRITE (R204): A host write to a transform descriptor's rate-conversion region takes effect at the next boundary or
  is refused. -/
  | xformWrite (m : Master) (x : Fin 4096) (j : Fin 64) (w : Word)
  /-- QUE_PUSH (R184): A host write of PUSH_3 appends a descriptor or is held while the queue is full. -/
  | quePush (m : Master) (q : Fin 4096) (w : Word)
  /-- QUE_PUSH_RELEASE (R184): Space frees in a full queue and a held host push completes. -/
  | quePushRelease (q : Fin 4096)
  /-- QUE_POP (R184): A host read of POP_3 removes the oldest descriptor. -/
  | quePop (m : Master) (q : Fin 4096)
  /-- HWM_CLR (R191): A write of HWM_CLR clears a queue's high-water mark. -/
  | hwmClr (m : Master) (q : Fin 4096)
  /-- SLIP_COMMIT (R198): A write of GO asks a slip to take its compression shadow at the next boundary. -/
  | slipCommit (m : Master) (k : Fin 1024)
  /-- AUD_BLOCK_CLOSE (R331): A locked input block closes after the input window and its missing frames are zeroed. -/
  | audBlockClose (tdm : List (Fin 8 × List (List (Bool × Bool))))
  /-- AUD_BLOCK_SEND (R329): At boundary plus the output offset each transmit audio stream sends its block. -/
  | audBlockSend
  /-- AUD_COMMIT (R336): A write of GO makes every audio shadow take effect at the next boundary with gain ramps. -/
  | audCommit (m : Master) (w : Word)
  /-- TDM_FRAME_ERROR (R339): An FS edge at the wrong bit-clock count is counted and the port realigns. -/
  | tdmFrameError (n : Fin 8)
  /-- LIGHT_MESSAGE (R355): The light die receives the per-stroke message of zone levels, icon states and lighting shadows. -/
  | lightMessage
  /-- LIGHT_MSG_TIMEOUT (R355): No message for 100 ms turns off every sink and the boost. -/
  | lightMsgTimeout
  /-- PWM_PERIOD (R352): A PWM period begins and the light die applies levels, scans lines, tracks the boost and diagnoses
  strings. -/
  | pwmPeriod (x : PwmIn)
  /-- BOOST_OVERVOLTAGE (R358): BST_FB above VMAX plus 2 V turns the gate off. -/
  | boostOvervoltage
  /-- BOOST_RESTART (R358): Ten milliseconds after an overvoltage the boost restarts. -/
  | boostRestart
  /-- NEIGHBOUR_TEST (R368): The periodic neighbour test checks one pin for shorts to its neighbours. -/
  | neighbourTest (high : List Nat)
  /-- RETEST (R365): A write of RETEST returns an OPEN string to tracking for a fresh measurement. -/
  | retest (m : Master) (n : Fin 48)
  /-- LAMP_BOARD_POLL (R372): Every 10 s the lamp board serial is re-read and a change triggers a full record read. -/
  | lampBoardPoll (n : Fin 8) (serial : Option Nat)
  /-- IDENT_RECORD_READ (R375): A unit's identity record read completes and is classified and keyed into the ledger table. -/
  | identRecordRead (u : Fin 520) (board : Option (List Byte))
  /-- LEDGER_ADVANCE (R377): Once per second the light die advances each trusted unit's ledger and life compensation. -/
  | ledgerAdvance
  /-- NVS_READ (R402): The READ command copies bytes from storage into NVS_BUF. -/
  | nvsRead (m : Master)
  /-- NVS_WRITE (R402): The WRITE command writes bytes from NVS_BUF page by page. -/
  | nvsWrite (m : Master)
  /-- NVS_REC_READ (R402): The REC_READ command chooses a record's winning slot and copies its data. -/
  | nvsRecRead (m : Master)
  /-- NVS_REC_WRITE (R402): The REC_WRITE command writes a record into the slot that did not win. -/
  | nvsRecWrite (m : Master)
  /-- NVS_BAD_OP (R402): A GO with an undefined OP ends at once with BAD_OP. -/
  | nvsBadOp (m : Master) (op : BitVec 4)
  /-- NVS_PAGE_DONE (R387): A page write completes and the next page of the write starts or the command ends. -/
  | nvsPageDone (low : Bool)
  /-- LEDGERS_WRITE (R397): The device writes the LEDGERS record once all units are read or 10 s after RUNNING. -/
  | ledgersWrite
  /-- PFI_FALL (R399): PFI_N low for 20 µs signals power-down and the light die snapshots and flushes keep RAM. -/
  | pfiFall
  /-- PFI_RISE (R432): PFI_N returns high. -/
  | pfiRise
  /-- VDD_LD_LOW (R399): The VDD_LD monitor sees VDD_LD below 3.15 V and signals power-down. -/
  | vddLdLow
  /-- VDD_LD_COLLAPSE (R390): VDD_LD falls below 2.80 V and the light die stops, tearing any page in progress. -/
  | vddLdCollapse (cut : PageCut)
  /-- VDD_LD_RISE (R425): VDD_LD rises above 3.20 V and the light die starts and fills keep RAM from storage. -/
  | vddLdRise
  /-- KEEP_FLUSH_DONE (R400): The keep-RAM flush completes its KEEP record. -/
  | keepFlushDone
  /-- POWER_FAIL_RESTART (R432): With the flush done, 100 ms passed and supplies good, the light die powers up or stays
  asleep. -/
  | powerFailRestart
  /-- THM_SAMPLE (R412): The monitor samples every sensor and counts threshold assertion and release. -/
  | thmSample (temps : List Sensed)
  /-- THM_OFFSET_UPDATE (R408): Once per second each group offset moves towards its anchor. -/
  | thmOffsetUpdate
  /-- LD_THM_SAMPLE (R416): The light die samples the anchor and its own diodes and judges shutdown and overtemperature. -/
  | ldThmSample (temps : List Sensed)
  /-- THERMAL_RESTART (R417): After cooling for at least 1 s the light die restarts the matrix die or stays off. -/
  | thermalRestart
  /-- LIGHT_DIE_RESUME (R419): The comparator reads below 125 °C for 1 s and the light die restarts. -/
  | lightDieResume
  /-- THRESHOLD_WRITE (R411): A write of a thermal threshold is accepted or ignored whole. -/
  | thresholdWrite (m : Master) (t : Threshold) (w : Word)
  /-- WAKE_ACTIVE (R427): An accepted active WAKE powers up the matrix die and clears any lockout. -/
  | wakeActive
  /-- WAKE_INACTIVE (R429): An accepted inactive WAKE starts the sleep delay. -/
  | wakeInactive
  /-- SLEEP_DELAY_EXPIRY (R429): The sleep delay ends and the device sends K23.7, resets and powers down the matrix die. -/
  | sleepDelayExpiry
  /-- SLEEP_STAY_LIMIT (R429): Sixty seconds after WAKE went inactive a sleep held by STAY starts. -/
  | sleepStayLimit
  /-- PG_GOOD (R427): A PG_IN reads good and the next enable rises 0.5 ms later. -/
  | pgGood (n : Fin 4)
  /-- PWR_EN_RISE (R427): The next PWR_EN output rises after its delay. -/
  | pwrEnRise
  /-- PG_TIMEOUT (R428): A PG_IN has not read good 20 ms after its enable and the matrix die powers down. -/
  | pgTimeout (n : Fin 4)
  /-- PG_RETRY (R428): One second after a power-good failure the light die tries the power-up again. -/
  | pgRetry
  /-- SUPPLY_FAULT (R431): A PG_IN reads low after having read good and the light die resets and powers down. -/
  | supplyFault (n : Fin 4)
  /-- SUPPLY_RESTART (R431): One hundred milliseconds after a supply-fault power-down the light die powers up or stays asleep.
  -/
  | supplyRestart
  /-- POWERDOWN_STEP (R430): In an ordered power-down the next enable drops when the previous PG_IN reads low or 5 ms pass. -/
  | powerdownStep
  /-- RESET_PIN_ASSERT (R437): RESET_N low for at least 10 µs puts the powered matrix die into reset. -/
  | resetPinAssert
  /-- RESET_PIN_RELEASE (R437): RESET_N returns high and the reset exit delay starts. -/
  | resetPinRelease
  /-- RESET_EXIT (R437): One millisecond after a reset ends the matrix die leaves reset. -/
  | resetExit (straps : BitVec 4) (sris : Bool)
  /-- WARM_RESET_KEY_FIRST (R439): The first write of the warm-reset key opens a 1 ms window. -/
  | warmResetKeyFirst (m : Master)
  /-- WARM_RESET (R439): The second warm-reset key write starts a host warm reset. -/
  | warmReset (m : Master)
  /-- WDT_ENABLE (R440): A write of 1 to PWR_WDT_CFG.EN enables the watchdog with the timeout in force. -/
  | wdtEnable (m : Master) (w : Word)
  /-- WDT_KICK (R440): A write of 0xC0A5 to PWR_WDT_KICK restarts the count. -/
  | wdtKick (m : Master)
  /-- WDT_BAD_KICK (R440): A write of any other value to an enabled watchdog's kick expires it at once. -/
  | wdtBadKick (m : Master) (v : BitVec 16)
  /-- WDT_WARN (R440): Half the watchdog timeout passes without a kick. -/
  | wdtWarn
  /-- WDT_EXPIRY (R440): The watchdog expires and resets the matrix die. -/
  | wdtExpiry
  /-- LOCKSTEP_MISMATCH (R436): A lockstep mismatch in a management pair causes a watchdog reset. -/
  | lockstepMismatch
  /-- PCIE_MEM_WRITE (R447): A host memory write TLP is issued to the quay with ID 0. -/
  | pcieMemWrite (bar2 : Bool) (o : BitVec 32) (bs : List Byte) (late : Bool)
  /-- PCIE_MEM_READ (R447): A host memory read TLP is issued to the quay with ID 0 and completed. -/
  | pcieMemRead (bar2 : Bool) (o : BitVec 32) (n : Nat) (late : Bool)
  /-- PCIE_LINK_UP (R472): The PCIe link enters L0 from down. -/
  | pcieLinkUp (lanes : Fin 8) (speed : Fin 8)
  /-- PCIE_LINK_DOWN (R453): The PCIe link goes down and the endpoint master resets mid-burst. -/
  | pcieLinkDown (bar2 : Bool) (o : BitVec 32) (accepted : List Byte)
  /-- PCIE_COMPLETION_TIMEOUT (R458): A request to host memory waits 10 ms without completion and returns an error to its
  master. -/
  | pcieCompletionTimeout (m : Master) (ring : Fin 4)
  /-- QSPI_WRITE (R459): QSPI opcode 0x02 writes words to the first BAR's layout. -/
  | qspiWrite (o : BitVec 32) (bs : List Byte) (late : Bool)
  /-- QSPI_READ (R459): QSPI opcode 0x0B reads words from the first BAR's layout. -/
  | qspiRead (o : BitVec 32) (n : Nat) (ready : Bool)
  /-- QSPI_WRITE_BAR2 (R459): QSPI opcode 0x12 writes words to the second BAR's layout. -/
  | qspiWriteBar2 (o : BitVec 32) (bs : List Byte) (late : Bool)
  /-- QSPI_READ_BAR2 (R459): QSPI opcode 0x1B reads words from the second BAR's layout. -/
  | qspiReadBar2 (o : BitVec 32) (n : Nat) (ready : Bool)
  /-- QSPI_READ_STATUS (R459): QSPI opcode 0x05 returns the status byte. -/
  | qspiReadStatus
  /-- QSPI_CS_RELEASE (R453): QSPI_CS_N released during a transaction resets the QSPI master. -/
  | qspiCsRelease (bar2 : Bool) (o : BitVec 32) (accepted : List Byte)
  /-- I2C_WRITE (R460): An I²C write transfer sets the offset and writes data words. -/
  | i2cWrite (o : BitVec 32) (bs : List Byte) (late : Bool)
  /-- I2C_READ (R460): An I²C read after a repeated START returns data bytes. -/
  | i2cRead (n : Nat) (late : Bool)
  /-- I2C_ABORT (R453): A STOP or 25 ms bus timeout during a transaction resets the I²C master. -/
  | i2cAbort (o : BitVec 32) (accepted : List Byte)
  /-- HELD_REQUEST_ISSUE (R448): A quay request held back is issued once its condition clears. -/
  | heldRequestIssue (m : Master) (late : Bool)
  /-- QUAY_WWIN_WRITE (R456): A write of QUAY_WWIN moves the BAR2 working window. -/
  | quayWwinWrite (m : Master) (w : Word)
  /-- DMA_GO (R462): A write of GO starts a DMA chain at its head descriptor. -/
  | dmaGo (m : Master) (n : Fin 8)
  /-- DMA_ABORT (R453): A write of ABORT resets a DMA channel mid-burst. -/
  | dmaAbort (m : Master) (n : Fin 8) (o : BitVec 64) (accepted : List Byte)
  /-- DMA_DESCRIPTOR (R462): A DMA channel copies a descriptor's lines, reads NEXT and raises DMA_DONE or stops on error. -/
  | dmaDescriptor (n : Fin 8) (host : List (Nat × Byte)) (fails : Bool)
  /-- EVENT_RECORD_WRITTEN (R467): The event writer's record write gets its response and WP advances. -/
  | eventRecordWritten (r : Fin 4)
  /-- RING_RP_WRITE (R467): A write of a ring's RP frees slots, releases its pin and may emit an overflow record. -/
  | ringRpWrite (m : Master) (r : Fin 4) (w : Word)
  /-- RING_ENABLE (R468): Enabling a ring first drains the boot buffer's records routed to it. -/
  | ringEnable (m : Master) (r : Fin 4) (w : Word)
  /-- MSI_COALESCE_TIMER (R469): The coalescing time after the first unsignalled record expires and the ring sends its vector.
  -/
  | msiCoalesceTimer (r : Fin 4)
  /-- CNT_CLEAR (R483): A write of GLB_CNT_CLEAR.GO requests a counter clear at the next boundary. -/
  | cntClear (m : Master) (w : Word)
  /-- IF_DECLARE (R486): A write of GLB_IF_HOST declares the host's interface version or is refused. -/
  | ifDeclare (m : Master) (w : Word)
  /-- LO_READ (R477): A read of a _LO register fills the reading master's latch with the high half. -/
  | loRead (m : Master) (a : BitVec 26)
  /-- REGISTER_WRITE (R476): A write to a register without a row of its own sets its fields or is discarded under the
  interface, early-write and lock rules. -/
  | registerWrite (m : Master) (a : BitVec 26) (w : Word)
  /-- TT_PIN_CHANGE (R307): The 10 µs sample of a TT_REQ pin differs from its previous sample, updating TT_PIN_RAW and
  restarting the pin's filter time. -/
  | ttPinChange (p : Fin 32) (level : Bool)
  /-- REF_ACTIVITY_RETURN (R53): An edge or marker arrives on a reference whose activity monitor had declared loss, so its
  activity bit sets again. -/
  | refActivityReturn (n : Fin 8)
  /-- SYNC_OUT_PULSE_END (R74): WIDTH µs after a stroke boundary an active SYNC_OUT pulse ends and the pin returns to its
  inactive level. -/
  | syncOutPulseEnd (n : Fin 2)
  /-- INVALID_SYMBOL (R97): A receive lane decodes a symbol outside any packet or marker that is not a valid code word, breaks
  disparity or is K28.4 or K28.6, and counts it in CODE_ERR. -/
  | invalidSymbol (p : Fin 512)
  /-- PRBS_CHECKER_SYNC (R115): An enabled PRBS checker synchronises to the incoming pattern within 64 bits and sets SYNC
  before counting bit errors. -/
  | prbsCheckerSync (p : Fin 512) (bits : Nat) (errs : Nat)
  /-- RB_SYNC_LOST (R117): A read-back receiver's own CDR loses sync on the transmit pad it watches, which removes level B for
  the frame. -/
  | rbSyncLost (k : Fin 32)
  /-- RB_SYNC_GAINED (R118): A read-back receiver acquires sync on its assigned transmit lane, within 10 µs typ. of assignment
  or after a loss. -/
  | rbSyncGained (k : Fin 32)
  /-- EGRESS_PACKET_SEND (R201): An egress port sends the next packet of an outgoing stream read from a slip or from LINE
  descriptors, discarding stale lines, and releases the frame's pin after its last packet. -/
  | egressPacketSend (k : Fin 2048)
  /-- ASRC_LOCK_CHANGE (R332): A rate converter's measured input rate enters or leaves ±1,000 ppm of nominal, so it locks or
  delivers zeros and raises AUD_ASRC_UNLOCK. -/
  | asrcLockChange (u : Fin 64) (rate : BitVec 24)
  /-- ASRC_SLIP (R332): A rate converter's fill leaves 0.25 to 6.0 ms, so it resets to 2 ms, counts a slip and raises
  AUD_ASRC_UNLOCK. -/
  | asrcSlip (u : Fin 64)
  /-- LAMP_BOARD_WRITE_DONE (R381): A write-back page written over the lamp-board I²C bus completes its polled programming or
  fails, raising FLD_WRITEBACK_FAIL. -/
  | lampBoardWriteDone (n : Fin 8) (ok : Bool)
  /-- POWERDOWN_WAKE_RESTART (R434): WAKE returned during an ordered power-down, and 100 ms after PWR_EN_0 dropped the light
  die powers up under R427. -/
  | powerdownWakeRestart
deriving DecidableEq, Repr
end Sys2Proof
end

