-- ==== Sys2Proof/Decode.lean ====
section
/-! DEFINITION. The command that a word spells by the bits of the command table. The table gives no row any bits. -/

namespace Sys2Proof

/-- No word spells a command: every row of the table has an empty list of fields. -/
def decodeTableWord (_nbits _w : Nat) : Option Instr := none

end Sys2Proof
end

