-- ==== Sys2Proof/Machine/Ev.lean ====
section
/-! DEFINITION. The events of the device: every row of the event tables, its source code and its place in the table,
which is its event code (R464). -/

namespace Sys2Proof.Machine

/-- An event of one of the event tables (R464). -/
inductive Ev where
  /-- `CNT_SAT` (R489). -/
  | cntSat
  /-- `GLB_IF_REFUSED` (R489). -/
  | glbIfRefused
  /-- `CHT_FIRST_LIGHT` (R50). -/
  | chtFirstLight
  /-- `CHT_RUNNING` (R50). -/
  | chtRunning
  /-- `CHT_FALLBACK` (R50). -/
  | chtFallback
  /-- `CHT_FAILED` (R50). -/
  | chtFailed
  /-- `CHT_EARLY_WRITE` (R50). -/
  | chtEarlyWrite
  /-- `CHT_AMD_APPLIED` (R50). -/
  | chtAmdApplied
  /-- `CHT_AMD_REFUSED` (R50). -/
  | chtAmdRefused
  /-- `CHT_FLASH_BUSY` (R50). -/
  | chtFlashBusy
  /-- `COX_LOCKED` (R78). -/
  | coxLocked
  /-- `COX_LOCK_LOST` (R78). -/
  | coxLockLost
  /-- `COX_HOLDOVER` (R78). -/
  | coxHoldover
  /-- `COX_FREE_RUN` (R78). -/
  | coxFreeRun
  /-- `COX_SOFT_ALARM` (R78). -/
  | coxSoftAlarm
  /-- `COX_DISQUALIFIED` (R78). -/
  | coxDisqualified
  /-- `COX_QUALIFIED` (R78). -/
  | coxQualified
  /-- `COX_SWITCH` (R78). -/
  | coxSwitch
  /-- `COX_QL_CHANGE` (R78). -/
  | coxQlChange
  /-- `COX_QL_TIMEOUT` (R78). -/
  | coxQlTimeout
  /-- `COX_STEER_LIMIT` (R78). -/
  | coxSteerLimit
  /-- `COX_TCOMP_LOST` (R78). -/
  | coxTcompLost
  /-- `COX_NUM_MISMATCH` (R78). -/
  | coxNumMismatch
  /-- `COX_STEP` (R78). -/
  | coxStep
  /-- `SYN_LOCK_LOST` (R93). -/
  | synLockLost
  /-- `SYN_COAST_LIMIT` (R93). -/
  | synCoastLimit
  /-- `SYN_RELOCKED` (R93). -/
  | synRelocked
  /-- `SYN_NO_BAND` (R93). -/
  | synNoBand
  /-- `SYN_BAND_STALE` (R93). -/
  | synBandStale
  /-- `THM_WARNING` (R421). -/
  | thmWarning
  /-- `THM_WARNING_CLR` (R421). -/
  | thmWarningClr
  /-- `THM_THROTTLE` (R421). -/
  | thmThrottle
  /-- `THM_THROTTLE_CLR` (R421). -/
  | thmThrottleClr
  /-- `THM_SENSOR_FAIL` (R421). -/
  | thmSensorFail
  /-- `THM_RESTARTED` (R421). -/
  | thmRestarted
  /-- `THM_LOCKOUT` (R421). -/
  | thmLockout
  /-- `PWR_SLEEP_PENDING` (R444). -/
  | pwrSleepPending
  /-- `PWR_SLEEP_CANCEL` (R444). -/
  | pwrSleepCancel
  /-- `PWR_RESTARTED` (R444). -/
  | pwrRestarted
  /-- `PWR_PG_TIMEOUT` (R444). -/
  | pwrPgTimeout
  /-- `PWR_SUPPLY_FAULT` (R444). -/
  | pwrSupplyFault
  /-- `PWR_WDT_WARN` (R444). -/
  | pwrWdtWarn
  /-- `QUAY_WRITE_DENIED` (R472). -/
  | quayWriteDenied
  /-- `QUAY_DECODE_ERR` (R472). -/
  | quayDecodeErr
  /-- `QUAY_MASTER_RESET` (R472). -/
  | quayMasterReset
  /-- `PCIE_LINK_UP` (R472). -/
  | pcieLinkUp
  /-- `PCIE_LINK_DOWN` (R472). -/
  | pcieLinkDown
  /-- `DMA_DONE` (R472). -/
  | dmaDone
  /-- `DMA_ERROR` (R472). -/
  | dmaError
  /-- `EVT_OVERFLOW` (R464). -/
  | evtOverflow
  /-- `AUD_INPUT_LOST` (R349). -/
  | audInputLost
  /-- `AUD_INPUT_BACK` (R349). -/
  | audInputBack
  /-- `AUD_PATH` (R349). -/
  | audPath
  /-- `AUD_LATE` (R349). -/
  | audLate
  /-- `AUD_ASRC_UNLOCK` (R349). -/
  | audAsrcUnlock
  /-- `AUD_TDM_FRAME` (R349). -/
  | audTdmFrame
  /-- `LAMP_FAULT` (R371). -/
  | lampFault
  /-- `LAMP_INFERRED` (R371). -/
  | lampInferred
  /-- `LGT_HEADROOM_LOW` (R371). -/
  | lgtHeadroomLow
  /-- `LGT_BOOST_FAULT` (R371). -/
  | lgtBoostFault
  /-- `LGT_NTC_FAIL` (R371). -/
  | lgtNtcFail
  /-- `LGT_DERATE` (R371). -/
  | lgtDerate
  /-- `NV_RECORD_CONFLICT` (R406). -/
  | nvRecordConflict
  /-- `NV_RECORD_DEFAULT` (R406). -/
  | nvRecordDefault
  /-- `NVS_SLOT_TORN` (R406). -/
  | nvsSlotTorn
  /-- `NVS_CMD_DONE` (R406). -/
  | nvsCmdDone
  /-- `NVS_POWER_FAIL` (R406). -/
  | nvsPowerFail
  /-- `FLD_UNIT_NEW` (R384). -/
  | fldUnitNew
  /-- `FLD_UNTRUSTED` (R384). -/
  | fldUntrusted
  /-- `FLD_TABLE_FULL` (R384). -/
  | fldTableFull
  /-- `FLD_WRITEBACK_FAIL` (R384). -/
  | fldWritebackFail
  /-- `LIFE_90` (R384). -/
  | life90
  /-- `LIFE_SAT` (R384). -/
  | lifeSat
  /-- `PORT_LANE_LOSS` (R121). -/
  | portLaneLoss
  /-- `PORT_LANE_BACK` (R121). -/
  | portLaneBack
  /-- `PORT_NARROWED` (R121). -/
  | portNarrowed
  /-- `PORT_WIDENED` (R121). -/
  | portWidened
  /-- `PORT_TRAIN_FAIL` (R121). -/
  | portTrainFail
  /-- `PORT_STEP_FAIL` (R121). -/
  | portStepFail
  /-- `PORT_SKEW` (R121). -/
  | portSkew
  /-- `PORT_RB_MISMATCH` (R121). -/
  | portRbMismatch
  /-- `PORT_VERSION` (R153). -/
  | portVersion
  /-- `PORT_PULL_LOCK` (R153). -/
  | portPullLock
  /-- `PORT_PULL_LOST` (R153). -/
  | portPullLost
  /-- `PORT_XACT_FAIL` (R153). -/
  | portXactFail
  /-- `PORT_RW_ARMED` (R153). -/
  | portRwArmed
  /-- `CROSSING_TAKEN` (R192). -/
  | crossingTaken
  /-- `CROSSING_HELD` (R192). -/
  | crossingHeld
  /-- `CROSSING_REFUSED` (R192). -/
  | crossingRefused
  /-- `CROSSING_DROPPED` (R192). -/
  | crossingDropped
  /-- `CROSSING_LATE` (R192). -/
  | crossingLate
  /-- `CROSSING_PATH` (R192). -/
  | crossingPath
  /-- `CROSSING_DEGRADED` (R192). -/
  | crossingDegraded
  /-- `CROSSING_SET_SPLIT` (R192). -/
  | crossingSetSplit
  /-- `QUEUE_XOFF` (R192). -/
  | queueXoff
  /-- `QUEUE_DROP` (R192). -/
  | queueDrop
  /-- `FST_WRITE_SKIP` (R215). -/
  | fstWriteSkip
  /-- `FST_COMMIT_REFUSED` (R215). -/
  | fstCommitRefused
  /-- `FST_MOTION_FALLBACK` (R215). -/
  | fstMotionFallback
  /-- `HEAD_BLANK_START` (R301). -/
  | headBlankStart
  /-- `HEAD_LINE_MATCH` (R301). -/
  | headLineMatch
  /-- `HEAD_FRAME_DONE` (R301). -/
  | headFrameDone
  /-- `HEAD_UNDERRUN` (R301). -/
  | headUnderrun
  /-- `HEAD_MODE_REFUSED` (R301). -/
  | headModeRefused
  /-- `GEOMETRY_REFUSED` (R301). -/
  | geometryRefused
  /-- `LAYER_HELD` (R301). -/
  | layerHeld
  /-- `LOOKOUT_BAD` (R326). -/
  | lookoutBad
  /-- `WATCH_MISMATCH` (R326). -/
  | watchMismatch
  /-- `PROOF_REDUCED` (R326). -/
  | proofReduced
  /-- `PROOF_RESTORED` (R326). -/
  | proofRestored
  /-- `WATCH_TIMING` (R326). -/
  | watchTiming
  /-- `WATCH_STORE_ERR` (R326). -/
  | watchStoreErr
  /-- `BUDGET_OVERRUN` (R241). -/
  | budgetOverrun
  /-- `ENG_FAULT` (R241). -/
  | engFault
  /-- `ENG_NO_INPUT` (R241). -/
  | engNoInput
  /-- `ENG_TAG_BUSY` (R241). -/
  | engTagBusy
deriving DecidableEq, Repr

/-- The source code and the event code of an event (R464). -/
def Ev.srcCode : Ev → Nat × Nat
  | .cntSat => (0x00, 1)
  | .glbIfRefused => (0x00, 2)
  | .chtFirstLight => (0x01, 1)
  | .chtRunning => (0x01, 2)
  | .chtFallback => (0x01, 3)
  | .chtFailed => (0x01, 4)
  | .chtEarlyWrite => (0x01, 5)
  | .chtAmdApplied => (0x01, 6)
  | .chtAmdRefused => (0x01, 7)
  | .chtFlashBusy => (0x01, 8)
  | .coxLocked => (0x02, 1)
  | .coxLockLost => (0x02, 2)
  | .coxHoldover => (0x02, 3)
  | .coxFreeRun => (0x02, 4)
  | .coxSoftAlarm => (0x02, 5)
  | .coxDisqualified => (0x02, 6)
  | .coxQualified => (0x02, 7)
  | .coxSwitch => (0x02, 8)
  | .coxQlChange => (0x02, 9)
  | .coxQlTimeout => (0x02, 10)
  | .coxSteerLimit => (0x02, 11)
  | .coxTcompLost => (0x02, 12)
  | .coxNumMismatch => (0x02, 13)
  | .coxStep => (0x02, 14)
  | .synLockLost => (0x03, 1)
  | .synCoastLimit => (0x03, 2)
  | .synRelocked => (0x03, 3)
  | .synNoBand => (0x03, 4)
  | .synBandStale => (0x03, 5)
  | .thmWarning => (0x04, 1)
  | .thmWarningClr => (0x04, 2)
  | .thmThrottle => (0x04, 3)
  | .thmThrottleClr => (0x04, 4)
  | .thmSensorFail => (0x04, 5)
  | .thmRestarted => (0x04, 6)
  | .thmLockout => (0x04, 7)
  | .pwrSleepPending => (0x05, 1)
  | .pwrSleepCancel => (0x05, 2)
  | .pwrRestarted => (0x05, 3)
  | .pwrPgTimeout => (0x05, 4)
  | .pwrSupplyFault => (0x05, 5)
  | .pwrWdtWarn => (0x05, 6)
  | .quayWriteDenied => (0x06, 1)
  | .quayDecodeErr => (0x06, 2)
  | .quayMasterReset => (0x06, 3)
  | .pcieLinkUp => (0x06, 4)
  | .pcieLinkDown => (0x06, 5)
  | .dmaDone => (0x06, 6)
  | .dmaError => (0x06, 7)
  | .evtOverflow => (0x07, 1)
  | .audInputLost => (0x08, 1)
  | .audInputBack => (0x08, 2)
  | .audPath => (0x08, 3)
  | .audLate => (0x08, 4)
  | .audAsrcUnlock => (0x08, 5)
  | .audTdmFrame => (0x08, 6)
  | .lampFault => (0x09, 1)
  | .lampInferred => (0x09, 2)
  | .lgtHeadroomLow => (0x09, 3)
  | .lgtBoostFault => (0x09, 4)
  | .lgtNtcFail => (0x09, 5)
  | .lgtDerate => (0x09, 6)
  | .nvRecordConflict => (0x0A, 1)
  | .nvRecordDefault => (0x0A, 2)
  | .nvsSlotTorn => (0x0A, 3)
  | .nvsCmdDone => (0x0A, 4)
  | .nvsPowerFail => (0x0A, 5)
  | .fldUnitNew => (0x0B, 1)
  | .fldUntrusted => (0x0B, 2)
  | .fldTableFull => (0x0B, 3)
  | .fldWritebackFail => (0x0B, 4)
  | .life90 => (0x0B, 5)
  | .lifeSat => (0x0B, 6)
  | .portLaneLoss => (0x10, 1)
  | .portLaneBack => (0x10, 2)
  | .portNarrowed => (0x10, 3)
  | .portWidened => (0x10, 4)
  | .portTrainFail => (0x10, 5)
  | .portStepFail => (0x10, 6)
  | .portSkew => (0x10, 7)
  | .portRbMismatch => (0x10, 8)
  | .portVersion => (0x10, 9)
  | .portPullLock => (0x10, 10)
  | .portPullLost => (0x10, 11)
  | .portXactFail => (0x10, 12)
  | .portRwArmed => (0x10, 13)
  | .crossingTaken => (0x11, 1)
  | .crossingHeld => (0x11, 2)
  | .crossingRefused => (0x11, 3)
  | .crossingDropped => (0x11, 4)
  | .crossingLate => (0x11, 5)
  | .crossingPath => (0x11, 6)
  | .crossingDegraded => (0x11, 7)
  | .crossingSetSplit => (0x11, 8)
  | .queueXoff => (0x11, 9)
  | .queueDrop => (0x11, 10)
  | .fstWriteSkip => (0x13, 1)
  | .fstCommitRefused => (0x13, 2)
  | .fstMotionFallback => (0x13, 3)
  | .headBlankStart => (0x20, 1)
  | .headLineMatch => (0x20, 2)
  | .headFrameDone => (0x20, 3)
  | .headUnderrun => (0x20, 4)
  | .headModeRefused => (0x20, 5)
  | .geometryRefused => (0x20, 6)
  | .layerHeld => (0x20, 7)
  | .lookoutBad => (0x20, 8)
  | .watchMismatch => (0x20, 9)
  | .proofReduced => (0x20, 10)
  | .proofRestored => (0x20, 11)
  | .watchTiming => (0x20, 12)
  | .watchStoreErr => (0x20, 13)
  | .budgetOverrun => (0x30, 1)
  | .engFault => (0x30, 2)
  | .engNoInput => (0x30, 3)
  | .engTagBusy => (0x30, 4)

/-- The `SRC` of an event (R464). -/
def Ev.src (e : Ev) : Nat := e.srcCode.1

/-- The `CODE` of an event (R464). -/
def Ev.code (e : Ev) : Nat := e.srcCode.2

end Sys2Proof.Machine
end

