-- ==== Sys2Proof/Machine/Operands.lean ====
section
/-! DEFINITION. The operand forms of the register space: bit fields of a word (R5), 64-bit pairs (R12), two's-complement
fields and the byte order of memory (R5, little-endian). -/

namespace Sys2Proof.Machine

/-- The bits [hi:lo] of a word, as a number (R5). -/
def bf (w : Word) (hi lo : Nat) : Nat := (w.extractLsb' lo (hi + 1 - lo)).toNat

/-- Bit `i` of a word. -/
def bit (w : Word) (i : Nat) : Bool := w.getLsbD i

/-- The word with 1 in the bits [hi:lo]. -/
def fmask (hi lo : Nat) : Word := BitVec.ofNat 32 ((2 ^ (hi + 1 - lo) - 1) * 2 ^ lo)

/-- The word with `v` in the bits [hi:lo], its other bits as they were. -/
def setFld (w : Word) (hi lo v : Nat) : Word :=
  (w &&& ~~~(fmask hi lo)) ||| (BitVec.ofNat 32 (v * 2 ^ lo) &&& fmask hi lo)

/-- The word with bit `i` set or cleared. -/
def setBit (w : Word) (i : Nat) (b : Bool) : Word := setFld w i i b.toNat

/-- A number's low `n` bits read as two's complement. -/
def signed (n : Nat) (v : Nat) : Int := if v % 2 ^ n < 2 ^ (n - 1) then (v % 2 ^ n : Nat) else (v % 2 ^ n : Nat) - (2 ^ n : Nat)

/-- A signed number as the low `n` bits of its two's complement. -/
def encode (n : Nat) (v : Int) : Nat := (v % (2 ^ n : Nat)).toNat

/-- A signed number held to [lo, hi]. -/
def clampI (lo hi v : Int) : Int := max lo (min hi v)

/-- The word `new` in the bits of `mask`, `old` elsewhere: a masked write (R8). -/
def mergeMask (mask old new : Word) : Word := (old &&& ~~~mask) ||| (new &&& mask)

/-- The 64-bit value of a `_LO` and `_HI` pair (R477). -/
def pair64 (lo hi : Word) : Nat := lo.toNat + hi.toNat * 2 ^ 32

/-- Bytes, the lowest address first, as a number (R5: little-endian). -/
def leNat : List Byte → Nat
  | [] => 0
  | b :: bs => b.toNat + 256 * leNat bs

/-- A number as `n` bytes, the lowest first (R5). -/
def leBytes : Nat → Nat → List Byte
  | 0, _ => []
  | n + 1, v => BitVec.ofNat 8 v :: leBytes n (v / 256)

/-- Bytes, the most significant first, as a number (the keys and signatures of R33). -/
def beNat (bs : List Byte) : Nat := bs.foldl (fun a b => a * 256 + b.toNat) 0

/-- A number as `n` bytes, the most significant first. -/
def beBytes (n v : Nat) : List Byte := (leBytes n v).reverse

/-- The numbers from 0 to n - 1. -/
abbrev upto (n : Nat) : List Nat := List.range n

end Sys2Proof.Machine
end

