-- ==== Sys2Proof/Machine/Flags.lean ====
section
/-! DEFINITION. The flag computations of counters at their limits (R11): saturation with `SAT`, wrapping with `OVF`. -/

namespace Sys2Proof.Machine

/-- An error counter of `n` bits with `SAT` in bit 31, after `k` more counts; the second part says that it saturates now
(R11, R484: `CNT_SAT` is raised when `SAT` sets). -/
def satAdd (n k : Nat) (w : Word) : Word × Bool :=
  let c := bf w (n - 1) 0 + k
  if c < 2 ^ n - 1 then (setFld w (n - 1) 0 c, false)
  else (setBit (setFld w (n - 1) 0 (2 ^ n - 1)) 31 true, !bit w 31)

/-- A performance counter of `n` bits with `OVF` in bit 31, after `k` more counts (R11). -/
def ovfAdd (n k : Nat) (w : Word) : Word :=
  let c := bf w (n - 1) 0 + k
  if c < 2 ^ n then setFld w (n - 1) 0 c
  else setBit (setFld w (n - 1) 0 (c % 2 ^ n)) 31 true

/-- Whether serial number `a` is newer than `b` among `n`-bit serial numbers (RFC 1982 arithmetic, R11). -/
def serialNewer (n a b : Nat) : Bool :=
  let d := (a + 2 ^ n - b % 2 ^ n) % 2 ^ n
  decide (0 < d ∧ d < 2 ^ (n - 1))

end Sys2Proof.Machine
end

