-- ==== Sys2Proof/Machine/NMap.lean ====
section
/-! DEFINITION. Sparse maps with natural-number keys, in one canonical form: keys strictly rising, and, where the map
has a default, no entry equal to the default of its key. Every memory, register file and table of the model is one. -/

namespace Sys2Proof.Machine

/-- A sparse map: key and value pairs. -/
abbrev NMap (α : Type) := List (Nat × α)

/-- The value listed under a key. -/
def nfind {α : Type} (k : Nat) : NMap α → Option α
  | [] => none
  | (i, v) :: m => if i = k then some v else nfind k m

/-- List `v` under key `k`, keeping the keys strictly rising. -/
def nput {α : Type} (k : Nat) (v : α) : NMap α → NMap α
  | [] => [(k, v)]
  | (i, w) :: m =>
    if k < i then (k, v) :: (i, w) :: m
    else if k = i then (k, v) :: m
    else (i, w) :: nput k v m

/-- Take the key `k` off the list. -/
def ndel {α : Type} (k : Nat) : NMap α → NMap α
  | [] => []
  | (i, w) :: m => if i = k then ndel k m else (i, w) :: ndel k m

/-- The value of key `k`, an unlisted key reading as its default. -/
def nget {α : Type} (d : Nat → α) (m : NMap α) (k : Nat) : α := (nfind k m).getD (d k)

/-- Give key `k` the value `v`; a default is not listed. -/
def nset {α : Type} [DecidableEq α] (d : Nat → α) (m : NMap α) (k : Nat) (v : α) : NMap α :=
  if v = d k then ndel k m else nput k v m

/-- Put `a` before the first element that `le` does not place ahead of it. -/
def insertBy {α : Type} (le : α → α → Bool) (a : α) : List α → List α
  | [] => [a]
  | b :: l => if le a b then a :: b :: l else b :: insertBy le a l

/-- A list in the order of `le`, equals in their old order. -/
def sortBy {α : Type} (le : α → α → Bool) (l : List α) : List α := l.foldr (insertBy le) []

/-- Every key of `m` lies above `b`. -/
def nabove {α : Type} (b : Nat) (m : NMap α) : Bool := m.all fun p => decide (b < p.1)

/-- The keys are strictly rising. -/
def nsorted {α : Type} : NMap α → Bool
  | [] => true
  | (i, _) :: m => nabove i m && nsorted m

/-- The canonical form of a map with defaults. -/
def nwf {α : Type} [DecidableEq α] (d : Nat → α) (m : NMap α) : Bool :=
  nsorted m && m.all fun p => decide (p.2 ≠ d p.1)

end Sys2Proof.Machine
end

