-- ==== Sys2Proof/Config.lean ====
section
/-! DEFINITION. What production or the implementation fixes and the spec gives no value for. Every constant here is opaque:
no proof can see its value, so a claim holds whatever the module in hand holds. -/

namespace Sys2Proof.Config

/-- The module serial of `GLB_SERIAL_LO` and `GLB_SERIAL_HI`, programmed in production (R485). -/
opaque serial : BitVec 64

/-- `COX_TC_Cn`: the temperature-compensation coefficients measured in production (R72, R77). -/
opaque tcCoef (n : Nat) : Word

/-- The free values: the bits a command leaves when the spec states none. The argument is the state's counter `free`, which
every use advances, so two uses are not known equal. -/
opaque freeBits (w : Nat) (n : Nat) : BitVec w

/-- The vendor code this device gives in `ID` as a far end (R145). -/
opaque vendor : BitVec 16

/-- The identity record this device offers as a far end, by offset (R145). -/
opaque ownIdent (offset : Nat) : BitVec 8

/-- The lowest entry of the boot ROM that qualifies for synthesizer `i` at a target and a temperature in 0.1 °C, with the VCO band
and the temperature range in °C of an entry (R79, R82). -/
opaque bootEntry (i target : Nat) (t : Int) : BitVec 4
opaque bootBand (i k : Nat) : BitVec 6
opaque bootRange (i k : Nat) : Int × Int

/-- The slip codec (R197): the words that a block of words decodes to at coding 1 to 3, before the bound of R197, and the bytes
of the coded block. -/
opaque codecWords (comp : Nat) (block : List (BitVec 20)) : List (BitVec 20)
opaque codecByte (comp : Nat) (block : List (BitVec 20)) (i : Nat) : BitVec 8

/-- A value that depends on an operand and that the spec does not state: `point` numbers the place in the model, `x` is the
operand. -/
opaque unstated (point : Nat) (x : Nat) : Nat

/-- The coefficients of the built-in cubic filter, as those of a set (R274), in 1/4,096. -/
opaque cubic (i : Nat) : Int

/-- Where a scaler from `n` to `m` samples takes output `x` (R272, R274): the phase, and the sample under tap `t`. -/
opaque scalePhase (n m x : Nat) : BitVec 6
opaque scaleTap (n m x t : Nat) : Nat

/-- The 4 × 4 ordered pattern in its four phases (R279). -/
opaque ditherAt (phase x y : Nat) : BitVec 2

end Sys2Proof.Config
end

