-- ==== Sys2Proof/Machine/RegMap.lean ====
section
/-! DEFINITION. The register map of the first memory BAR (R473 to R475): the address of every register of the register
tables (R49, R77, R92, R120, R152, R189, R191, R213, R214, R240, R264, R299, R300, R322 to R325, R348, R370, R383, R405,
R420, R443, R470, R471, R485) and of every region of the tables window, with access type (R8), writable and
write-one-to-clear bits and reset value (R10). -/

namespace Sys2Proof.Machine

/-- The access types of R8; `wo` registers read 0, `sh` registers are written through a shadow (R481). -/
inductive Access where
  | ro | rw | wo | w1c | sh | rws
deriving DecidableEq, Repr

/-- One row of a register table: its name, access, first address, repeats as (count, stride) from the widest stride down, the bits
that a write sets (of a read-only register, the bits it defines, which a chart may place), the bits a written 1 clears, and
the reset value. -/
structure RegRow where
  name  : String
  acc   : Access
  base  : Nat
  dims  : List (Nat × Nat)
  rw    : Nat
  w1c   : Nat
  reset : Nat
deriving DecidableEq, Repr

/-- `GLB_ID` (R485). -/
abbrev Reg.glbId : Nat := 0x0
/-- `GLB_IF_VERSION` (R485). -/
abbrev Reg.glbIfVersion : Nat := 0x4
/-- `GLB_IF_HOST` (R485). -/
abbrev Reg.glbIfHost : Nat := 0x8
/-- `GLB_IF_STAT` (R485). -/
abbrev Reg.glbIfStat : Nat := 0xC
/-- `GLB_SERIAL_LO` (R485). -/
abbrev Reg.glbSerialLo : Nat := 0x10
/-- `GLB_SERIAL_HI` (R485). -/
abbrev Reg.glbSerialHi : Nat := 0x14
/-- `STROKE_LO` (R485). -/
abbrev Reg.strokeLo : Nat := 0x18
/-- `STROKE_HI` (R485). -/
abbrev Reg.strokeHi : Nat := 0x1C
/-- `GLB_STROKE_POS` (R485). -/
abbrev Reg.glbStrokePos : Nat := 0x20
/-- `GLB_FAULT` (R485). -/
abbrev Reg.glbFault : Nat := 0x24
/-- `GLB_CNT_CLEAR` (R485). -/
abbrev Reg.glbCntClear : Nat := 0x28
/-- `GLB_CNT_STAT` (R485). -/
abbrev Reg.glbCntStat : Nat := 0x2C
/-- `GLB_SCRATCH_n` (R485). -/
abbrev Reg.glbScratch (i : Nat) : Nat := 0x30 + i * 0x4
/-- `GLB_CAP_COUNT` (R485). -/
abbrev Reg.glbCapCount : Nat := 0x40
/-- `GLB_CAP_k` (R485). -/
abbrev Reg.glbCap (i : Nat) : Nat := 0x100 + i * 0x4
/-- `CHT_STATE` (R49). -/
abbrev Reg.chtState : Nat := 0x10000
/-- `CHT_REASON` (R49). -/
abbrev Reg.chtReason : Nat := 0x10004
/-- `CHT_CTRL` (R49). -/
abbrev Reg.chtCtrl : Nat := 0x10008
/-- `CHT_RUN_ID_LO` (R49). -/
abbrev Reg.chtRunIdLo : Nat := 0x10010
/-- `CHT_RUN_ID_HI` (R49). -/
abbrev Reg.chtRunIdHi : Nat := 0x10014
/-- `CHT_RUN_VER` (R49). -/
abbrev Reg.chtRunVer : Nat := 0x10018
/-- `CHT_STRAP` (R49). -/
abbrev Reg.chtStrap : Nat := 0x1001C
/-- `CHT_HOST_ADDR_LO` (R49). -/
abbrev Reg.chtHostAddrLo : Nat := 0x10020
/-- `CHT_HOST_ADDR_HI` (R49). -/
abbrev Reg.chtHostAddrHi : Nat := 0x10024
/-- `CHT_HOST_LEN` (R49). -/
abbrev Reg.chtHostLen : Nat := 0x10028
/-- `CHT_PUSH_SPACE` (R49). -/
abbrev Reg.chtPushSpace : Nat := 0x10030
/-- `CHT_RETRY_CNT` (R49). -/
abbrev Reg.chtRetryCnt : Nat := 0x10034
/-- `CHT_AMD_CTRL` (R49). -/
abbrev Reg.chtAmdCtrl : Nat := 0x10040
/-- `CHT_AMD_STATUS` (R49). -/
abbrev Reg.chtAmdStatus : Nat := 0x10044
/-- `CHT_AMD_TAKE_LO` (R49). -/
abbrev Reg.chtAmdTakeLo : Nat := 0x10048
/-- `CHT_AMD_TAKE_HI` (R49). -/
abbrev Reg.chtAmdTakeHi : Nat := 0x1004C
/-- `CHT_AMD_ID_LO` (R49). -/
abbrev Reg.chtAmdIdLo : Nat := 0x10050
/-- `CHT_AMD_ID_HI` (R49). -/
abbrev Reg.chtAmdIdHi : Nat := 0x10054
/-- `CHT_AMD_SHADOW` (R49). -/
abbrev Reg.chtAmdShadow : Nat := 0x10058
/-- `CHT_POLICY` (R49). -/
abbrev Reg.chtPolicy : Nat := 0x10060
/-- `CHT_OTP_CTRL` (R49). -/
abbrev Reg.chtOtpCtrl : Nat := 0x10064
/-- `CHT_OTP_DATA` (R49). -/
abbrev Reg.chtOtpData : Nat := 0x10068
/-- `CHT_FLASH_CTRL` (R49). -/
abbrev Reg.chtFlashCtrl : Nat := 0x10070
/-- `CHT_FLASH_ADDR` (R49). -/
abbrev Reg.chtFlashAddr : Nat := 0x10074
/-- `CHT_PUSH_DATA` (R49). -/
abbrev Reg.chtPushData (i : Nat) : Nat := 0x11000 + i * 0x4
/-- `COX_STATE` (R77). -/
abbrev Reg.coxState : Nat := 0x20000
/-- `COX_CTRL` (R77). -/
abbrev Reg.coxCtrl : Nat := 0x20004
/-- `COX_SEL` (R77). -/
abbrev Reg.coxSel : Nat := 0x20008
/-- `COX_WTR` (R77). -/
abbrev Reg.coxWtr : Nat := 0x2000C
/-- `COX_SOFT_WIN` (R77). -/
abbrev Reg.coxSoftWin : Nat := 0x20010
/-- `COX_OUT_QL` (R77). -/
abbrev Reg.coxOutQl : Nat := 0x20014
/-- `COX_QUAL` (R77). -/
abbrev Reg.coxQual : Nat := 0x20018
/-- `COX_STEER` (R77). -/
abbrev Reg.coxSteer : Nat := 0x2001C
/-- `COX_BUILDOUT` (R77). -/
abbrev Reg.coxBuildout : Nat := 0x20020
/-- `COX_SLEW_TARGET` (R77). -/
abbrev Reg.coxSlewTarget : Nat := 0x20024
/-- `COX_SLEW_CTRL` (R77). -/
abbrev Reg.coxSlewCtrl : Nat := 0x20028
/-- `COX_PHASE_ERR` (R77). -/
abbrev Reg.coxPhaseErr : Nat := 0x2002C
/-- `COX_HIST` (R77). -/
abbrev Reg.coxHist : Nat := 0x20030
/-- `COX_HIST_EN` (R77). -/
abbrev Reg.coxHistEn : Nat := 0x20034
/-- `COX_SWITCH_CNT` (R77). -/
abbrev Reg.coxSwitchCnt : Nat := 0x20038
/-- `COX_CTRL_VAL` (R77). -/
abbrev Reg.coxCtrlVal : Nat := 0x20040
/-- `COX_HOLD_VAL` (R77). -/
abbrev Reg.coxHoldVal : Nat := 0x20044
/-- `COX_TCOMP` (R77). -/
abbrev Reg.coxTcomp : Nat := 0x20048
/-- `COX_SYNC_OUT_n` (R77). -/
abbrev Reg.coxSyncOut (i : Nat) : Nat := 0x20060 + i * 0x4
/-- `COX_TC_Cn` (R77). -/
abbrev Reg.coxTcC (i : Nat) : Nat := 0x20070 + i * 0x4
/-- `COX_TC_SITES` (R77). -/
abbrev Reg.coxTcSites : Nat := 0x20080
/-- `COX_REF_n_CFG` (R77). -/
abbrev Reg.coxRefCfg (i : Nat) : Nat := 0x20100 + i * 0x20
/-- `COX_REF_n_QL` (R77). -/
abbrev Reg.coxRefQl (i : Nat) : Nat := 0x20104 + i * 0x20
/-- `COX_REF_n_STAT` (R77). -/
abbrev Reg.coxRefStat (i : Nat) : Nat := 0x20108 + i * 0x20
/-- `COX_REF_n_FOFS` (R77). -/
abbrev Reg.coxRefFofs (i : Nat) : Nat := 0x2010C + i * 0x20
/-- `COX_REF_n_OFFSET` (R77). -/
abbrev Reg.coxRefOffset (i : Nat) : Nat := 0x20110 + i * 0x20
/-- `COX_REF_n_FREQ` (R77). -/
abbrev Reg.coxRefFreq (i : Nat) : Nat := 0x20114 + i * 0x20
/-- `SYN_LOCK_SUM_w` (R92). -/
abbrev Reg.synLockSum (i : Nat) : Nat := 0x30000 + i * 0x4
/-- `SYN_COAST_SUM_w` (R92). -/
abbrev Reg.synCoastSum (i : Nat) : Nat := 0x30020 + i * 0x4
/-- `SYN_x_CFG` (R92). -/
abbrev Reg.synCfg (i : Nat) : Nat := 0x30100 + i * 0x40
/-- `SYN_x_TARGET` (R92). -/
abbrev Reg.synTarget (i : Nat) : Nat := 0x30104 + i * 0x40
/-- `SYN_x_CTRL` (R92). -/
abbrev Reg.synCtrl (i : Nat) : Nat := 0x30108 + i * 0x40
/-- `SYN_x_STAT` (R92). -/
abbrev Reg.synStat (i : Nat) : Nat := 0x3010C + i * 0x40
/-- `SYN_x_FERR` (R92). -/
abbrev Reg.synFerr (i : Nat) : Nat := 0x30110 + i * 0x40
/-- `SYN_x_LOSS_CNT` (R92). -/
abbrev Reg.synLossCnt (i : Nat) : Nat := 0x30114 + i * 0x40
/-- `SYN_x_BAND_k_LO` (R92). -/
abbrev Reg.synBandLo (i j : Nat) : Nat := 0x34000 + i * 0x80 + j * 0x8
/-- `SYN_x_BAND_k_HI` (R92). -/
abbrev Reg.synBandHi (i j : Nat) : Nat := 0x34004 + i * 0x80 + j * 0x8
/-- `THM_STAT` (R420). -/
abbrev Reg.thmStat : Nat := 0x40000
/-- `THM_TMAX` (R420). -/
abbrev Reg.thmTmax : Nat := 0x40004
/-- `THM_WARN` (R420). -/
abbrev Reg.thmWarn : Nat := 0x40008
/-- `THM_THROT` (R420). -/
abbrev Reg.thmThrot : Nat := 0x4000C
/-- `THM_SHDN` (R420). -/
abbrev Reg.thmShdn : Nat := 0x40010
/-- `THM_HIST` (R420). -/
abbrev Reg.thmHist : Nat := 0x40014
/-- `THM_BROKEN_LO` (R420). -/
abbrev Reg.thmBrokenLo : Nat := 0x40018
/-- `THM_BROKEN_HI` (R420). -/
abbrev Reg.thmBrokenHi : Nat := 0x4001C
/-- `THM_RESTARTS` (R420). -/
abbrev Reg.thmRestarts : Nat := 0x40020
/-- `THM_THR_MS` (R420). -/
abbrev Reg.thmThrMs : Nat := 0x40024
/-- `THM_TS_ss` (R420). -/
abbrev Reg.thmTs (i : Nat) : Nat := 0x40100 + i * 0x4
/-- `THM_AN_k` (R420). -/
abbrev Reg.thmAn (i : Nat) : Nat := 0x401C0 + i * 0x4
/-- `THM_LD_k` (R420). -/
abbrev Reg.thmLd (i : Nat) : Nat := 0x401D0 + i * 0x4
/-- `THM_OFS_k` (R420). -/
abbrev Reg.thmOfs (i : Nat) : Nat := 0x401E0 + i * 0x4
/-- `PWR_STATE` (R443). -/
abbrev Reg.pwrState : Nat := 0x50000
/-- `PWR_RST_CAUSE` (R443). -/
abbrev Reg.pwrRstCause : Nat := 0x50004
/-- `PWR_RESET` (R443). -/
abbrev Reg.pwrReset : Nat := 0x50008
/-- `PWR_SLEEP_CFG` (R443). -/
abbrev Reg.pwrSleepCfg : Nat := 0x5000C
/-- `PWR_WDT_CFG` (R443). -/
abbrev Reg.pwrWdtCfg : Nat := 0x50010
/-- `PWR_WDT_KICK` (R443). -/
abbrev Reg.pwrWdtKick : Nat := 0x50014
/-- `PWR_HIST` (R443). -/
abbrev Reg.pwrHist : Nat := 0x50018
/-- `PWR_PG_FAIL_CNT` (R443). -/
abbrev Reg.pwrPgFailCnt : Nat := 0x5001C
/-- `PWR_WAKE_TIME` (R443). -/
abbrev Reg.pwrWakeTime : Nat := 0x50020
/-- `QUAY_STAT` (R470). -/
abbrev Reg.quayStat : Nat := 0x60000
/-- `QUAY_WWIN` (R470). -/
abbrev Reg.quayWwin : Nat := 0x60004
/-- `QUAY_PCIE_STAT` (R470). -/
abbrev Reg.quayPcieStat : Nat := 0x60008
/-- `QUAY_HOLD_CNT` (R470). -/
abbrev Reg.quayHoldCnt : Nat := 0x6000C
/-- `QUAY_DENIED_CNT` (R470). -/
abbrev Reg.quayDeniedCnt : Nat := 0x60010
/-- `QUAY_DECERR_CNT` (R470). -/
abbrev Reg.quayDecerrCnt : Nat := 0x60014
/-- `QUAY_DECERR_ADDR` (R470). -/
abbrev Reg.quayDecerrAddr : Nat := 0x60018
/-- `QSPI_CFG` (R470). -/
abbrev Reg.qspiCfg : Nat := 0x60020
/-- `QUAY_PATH_m_t` (R470). -/
abbrev Reg.quayPath (i j : Nat) : Nat := 0x60100 + i * 0x20 + j * 0x4
/-- `DMA_n_CTRL` (R470). -/
abbrev Reg.dmaCtrl (i : Nat) : Nat := 0x60400 + i * 0x40
/-- `DMA_n_CFG` (R470). -/
abbrev Reg.dmaCfg (i : Nat) : Nat := 0x60404 + i * 0x40
/-- `DMA_n_HEAD_LO` (R470). -/
abbrev Reg.dmaHeadLo (i : Nat) : Nat := 0x60408 + i * 0x40
/-- `DMA_n_HEAD_HI` (R470). -/
abbrev Reg.dmaHeadHi (i : Nat) : Nat := 0x6040C + i * 0x40
/-- `DMA_n_CUR_LO` (R470). -/
abbrev Reg.dmaCurLo (i : Nat) : Nat := 0x60410 + i * 0x40
/-- `DMA_n_CUR_HI` (R470). -/
abbrev Reg.dmaCurHi (i : Nat) : Nat := 0x60414 + i * 0x40
/-- `DMA_n_STAT` (R470). -/
abbrev Reg.dmaStat (i : Nat) : Nat := 0x60418 + i * 0x40
/-- `DMA_n_BYTES` (R470). -/
abbrev Reg.dmaBytes (i : Nat) : Nat := 0x6041C + i * 0x40
/-- `EVT_STAT` (R471). -/
abbrev Reg.evtStat : Nat := 0x70000
/-- `EVT_BOOT_DROP` (R471). -/
abbrev Reg.evtBootDrop : Nat := 0x70004
/-- `EVT_ROUTE_bb` (R471). -/
abbrev Reg.evtRoute (i : Nat) : Nat := 0x70100 + i * 0x4
/-- `EVT_ROUTE_X_k` (R471). -/
abbrev Reg.evtRouteX (i : Nat) : Nat := 0x70200 + i * 0x4
/-- `EVT_RING_r_BASE_LO` (R471). -/
abbrev Reg.evtRingBaseLo (i : Nat) : Nat := 0x71000 + i * 0x40
/-- `EVT_RING_r_BASE_HI` (R471). -/
abbrev Reg.evtRingBaseHi (i : Nat) : Nat := 0x71004 + i * 0x40
/-- `EVT_RING_r_CFG` (R471). -/
abbrev Reg.evtRingCfg (i : Nat) : Nat := 0x71008 + i * 0x40
/-- `EVT_RING_r_WP` (R471). -/
abbrev Reg.evtRingWp (i : Nat) : Nat := 0x7100C + i * 0x40
/-- `EVT_RING_r_RP` (R471). -/
abbrev Reg.evtRingRp (i : Nat) : Nat := 0x71010 + i * 0x40
/-- `EVT_RING_r_DROP` (R471). -/
abbrev Reg.evtRingDrop (i : Nat) : Nat := 0x71014 + i * 0x40
/-- `EVT_RING_r_WPADDR_LO` (R471). -/
abbrev Reg.evtRingWpaddrLo (i : Nat) : Nat := 0x71018 + i * 0x40
/-- `EVT_RING_r_WPADDR_HI` (R471). -/
abbrev Reg.evtRingWpaddrHi (i : Nat) : Nat := 0x7101C + i * 0x40
/-- `AUD_CTRL` (R348). -/
abbrev Reg.audCtrl : Nat := 0x80000
/-- `AUD_STAT` (R348). -/
abbrev Reg.audStat : Nat := 0x80004
/-- `AUD_COMMIT` (R348). -/
abbrev Reg.audCommit : Nat := 0x80008
/-- `AUD_COMMIT_STAT` (R348). -/
abbrev Reg.audCommitStat : Nat := 0x8000C
/-- `AUD_COMMIT_STROKE` (R348). -/
abbrev Reg.audCommitStroke : Nat := 0x80010
/-- `AUD_BLOCKS` (R348). -/
abbrev Reg.audBlocks : Nat := 0x80014
/-- `AUD_ZERO_CNT` (R348). -/
abbrev Reg.audZeroCnt : Nat := 0x80018
/-- `AUD_IN_iiii_SRC` (R348). -/
abbrev Reg.audInSrc (i : Nat) : Nat := 0x81000 + i * 0x4
/-- `AUD_OUT_ooo_SRC_k` (R348). -/
abbrev Reg.audOutSrc (i j : Nat) : Nat := 0x82000 + i * 0x40 + j * 0x4
/-- `AUD_OUT_ooo_DST` (R348). -/
abbrev Reg.audOutDst (i : Nat) : Nat := 0x82020 + i * 0x40
/-- `AUD_OUT_ooo_DUCK` (R348). -/
abbrev Reg.audOutDuck (i : Nat) : Nat := 0x82024 + i * 0x40
/-- `AUD_OUT_ooo_STAT` (R348). -/
abbrev Reg.audOutStat (i : Nat) : Nat := 0x82028 + i * 0x40
/-- `AUD_OUT_ooo_CLIPS` (R348). -/
abbrev Reg.audOutClips (i : Nat) : Nat := 0x8202C + i * 0x40
/-- `AUD_ASRC_uu_CFG` (R348). -/
abbrev Reg.audAsrcCfg (i : Nat) : Nat := 0x8A000 + i * 0x10
/-- `AUD_ASRC_uu_STAT` (R348). -/
abbrev Reg.audAsrcStat (i : Nat) : Nat := 0x8A004 + i * 0x10
/-- `AUD_ASRC_uu_RATE` (R348). -/
abbrev Reg.audAsrcRate (i : Nat) : Nat := 0x8A008 + i * 0x10
/-- `AUD_ASRC_uu_SLIPS` (R348). -/
abbrev Reg.audAsrcSlips (i : Nat) : Nat := 0x8A00C + i * 0x10
/-- `AUD_TDM_n_CFG` (R348). -/
abbrev Reg.audTdmCfg (i : Nat) : Nat := 0x8B000 + i * 0x20
/-- `AUD_TDM_n_STAT` (R348). -/
abbrev Reg.audTdmStat (i : Nat) : Nat := 0x8B004 + i * 0x20
/-- `AUD_TDM_n_FRAME_ERR` (R348). -/
abbrev Reg.audTdmFrameErr (i : Nat) : Nat := 0x8B008 + i * 0x20
/-- `AUD_TDM_n_CLIPS` (R348). -/
abbrev Reg.audTdmClips (i : Nat) : Nat := 0x8B00C + i * 0x20
/-- `AUD_CHIME_cc_CFG` (R348). -/
abbrev Reg.audChimeCfg (i : Nat) : Nat := 0x8C000 + i * 0x20
/-- `AUD_CHIME_cc_CLIP` (R348). -/
abbrev Reg.audChimeClip (i : Nat) : Nat := 0x8C004 + i * 0x20
/-- `AUD_CHIME_cc_PERIOD` (R348). -/
abbrev Reg.audChimePeriod (i : Nat) : Nat := 0x8C008 + i * 0x20
/-- `AUD_CHIME_cc_GAIN` (R348). -/
abbrev Reg.audChimeGain (i : Nat) : Nat := 0x8C00C + i * 0x20
/-- `AUD_CHIME_cc_STAT` (R348). -/
abbrev Reg.audChimeStat (i : Nat) : Nat := 0x8C010 + i * 0x20
/-- `AUD_CHIME_cc_PLAYS` (R348). -/
abbrev Reg.audChimePlays (i : Nat) : Nat := 0x8C014 + i * 0x20
/-- `LGT_STATE` (R370). -/
abbrev Reg.lgtState : Nat := 0x90000
/-- `LGT_PWM_CFG` (R370). -/
abbrev Reg.lgtPwmCfg : Nat := 0x90004
/-- `LGT_BST_CFG` (R370). -/
abbrev Reg.lgtBstCfg : Nat := 0x90008
/-- `LGT_BST_STAT` (R370). -/
abbrev Reg.lgtBstStat : Nat := 0x9000C
/-- `LGT_DERATE_CFG` (R370). -/
abbrev Reg.lgtDerateCfg : Nat := 0x90010
/-- `LGT_ZONE_CFG` (R370). -/
abbrev Reg.lgtZoneCfg : Nat := 0x90014
/-- `LGT_HIST` (R370). -/
abbrev Reg.lgtHist : Nat := 0x90018
/-- `LGT_NTC_n` (R370). -/
abbrev Reg.lgtNtc (i : Nat) : Nat := 0x90020 + i * 0x4
/-- `LGT_FAULT_LO` (R370). -/
abbrev Reg.lgtFaultLo : Nat := 0x90030
/-- `LGT_FAULT_HI` (R370). -/
abbrev Reg.lgtFaultHi : Nat := 0x90034
/-- `LGT_LINE_FAULT` (R370). -/
abbrev Reg.lgtLineFault : Nat := 0x90038
/-- `LGT_TESTS` (R370). -/
abbrev Reg.lgtTests : Nat := 0x9003C
/-- `LGT_CH_nn_CFG` (R370). -/
abbrev Reg.lgtChCfg (i : Nat) : Nat := 0x90100 + i * 0x20
/-- `LGT_CH_nn_AMP` (R370). -/
abbrev Reg.lgtChAmp (i : Nat) : Nat := 0x90104 + i * 0x20
/-- `LGT_CH_nn_DUTY` (R370). -/
abbrev Reg.lgtChDuty (i : Nat) : Nat := 0x90108 + i * 0x20
/-- `LGT_CH_nn_STAT` (R370). -/
abbrev Reg.lgtChStat (i : Nat) : Nat := 0x9010C + i * 0x20
/-- `LGT_CH_nn_CTRL` (R370). -/
abbrev Reg.lgtChCtrl (i : Nat) : Nat := 0x90110 + i * 0x20
/-- `LGT_CH_nn_FAULT_CNT` (R370). -/
abbrev Reg.lgtChFaultCnt (i : Nat) : Nat := 0x90114 + i * 0x20
/-- `LGT_LAMP_ll_CFG` (R370). -/
abbrev Reg.lgtLampCfg (i : Nat) : Nat := 0x90800 + i * 0x20
/-- `LGT_LAMP_ll_LEVEL` (R370). -/
abbrev Reg.lgtLampLevel (i : Nat) : Nat := 0x90804 + i * 0x20
/-- `LGT_LAMP_ll_COLOUR` (R370). -/
abbrev Reg.lgtLampColour (i : Nat) : Nat := 0x90808 + i * 0x20
/-- `LGT_LAMP_ll_FLOOR` (R370). -/
abbrev Reg.lgtLampFloor (i : Nat) : Nat := 0x9080C + i * 0x20
/-- `LGT_LAMP_ll_STAT` (R370). -/
abbrev Reg.lgtLampStat (i : Nat) : Nat := 0x90810 + i * 0x20
/-- `LGT_MAT_x_CFG` (R370). -/
abbrev Reg.lgtMatCfg (i : Nat) : Nat := 0x90A00 + i * 0x10
/-- `LGT_STR_ccc` (R370). -/
abbrev Reg.lgtStr (i : Nat) : Nat := 0x91000 + i * 0x4
/-- `NVS_STATUS` (R405). -/
abbrev Reg.nvsStatus : Nat := 0xA0000
/-- `NVS_CMD` (R405). -/
abbrev Reg.nvsCmd : Nat := 0xA0004
/-- `NVS_ADDR` (R405). -/
abbrev Reg.nvsAddr : Nat := 0xA0008
/-- `NVS_ADDR_B` (R405). -/
abbrev Reg.nvsAddrB : Nat := 0xA000C
/-- `NVS_LEN` (R405). -/
abbrev Reg.nvsLen : Nat := 0xA0010
/-- `NVS_REC_CFG` (R405). -/
abbrev Reg.nvsRecCfg : Nat := 0xA0014
/-- `NVS_RESULT` (R405). -/
abbrev Reg.nvsResult : Nat := 0xA0018
/-- `NVS_REC_SEQ` (R405). -/
abbrev Reg.nvsRecSeq : Nat := 0xA001C
/-- `NVS_POH` (R405). -/
abbrev Reg.nvsPoh : Nat := 0xA0020
/-- `NVS_WAKES` (R405). -/
abbrev Reg.nvsWakes : Nat := 0xA0024
/-- `NVS_PAGE_WRITES` (R405). -/
abbrev Reg.nvsPageWrites : Nat := 0xA0028
/-- `NVS_TORN_CNT` (R405). -/
abbrev Reg.nvsTornCnt : Nat := 0xA002C
/-- `NVS_CONFLICT_CNT` (R405). -/
abbrev Reg.nvsConflictCnt : Nat := 0xA0030
/-- `NVS_BUF` (R405). -/
abbrev Reg.nvsBuf (i : Nat) : Nat := 0xA1000 + i * 0x4
/-- `FLD_STAT` (R383). -/
abbrev Reg.fldStat : Nat := 0xB0000
/-- `FLD_REC_SEL` (R383). -/
abbrev Reg.fldRecSel : Nat := 0xB0004
/-- `FLD_REC` (R383). -/
abbrev Reg.fldRec (i : Nat) : Nat := 0xB0100 + i * 0x4
/-- `FLD_LED_kkk_SER_LO` (R383). -/
abbrev Reg.fldLedSerLo (i : Nat) : Nat := 0xB1000 + i * 0x20
/-- `FLD_LED_kkk_SER_HI` (R383). -/
abbrev Reg.fldLedSerHi (i : Nat) : Nat := 0xB1004 + i * 0x20
/-- `FLD_LED_kkk_HOURS` (R383). -/
abbrev Reg.fldLedHours (i : Nat) : Nat := 0xB1008 + i * 0x20
/-- `FLD_LED_kkk_RATED` (R383). -/
abbrev Reg.fldLedRated (i : Nat) : Nat := 0xB100C + i * 0x20
/-- `FLD_LED_kkk_COMP` (R383). -/
abbrev Reg.fldLedComp (i : Nat) : Nat := 0xB1010 + i * 0x20
/-- `FLD_LED_kkk_WSEQ` (R383). -/
abbrev Reg.fldLedWseq (i : Nat) : Nat := 0xB1014 + i * 0x20
/-- `FLD_UNIT_u_STAT` (R383). -/
abbrev Reg.fldUnitStat (i : Nat) : Nat := 0xB4000 + i * 0x10
/-- `FLD_UNIT_u_LEDGER` (R383). -/
abbrev Reg.fldUnitLedger (i : Nat) : Nat := 0xB4004 + i * 0x10
/-- `PRT_nnn_CFG` (R120). -/
abbrev Reg.prtCfg (i : Nat) : Nat := 0x100000 + i * 0x800
/-- `PRT_nnn_CTRL` (R120). -/
abbrev Reg.prtCtrl (i : Nat) : Nat := 0x100004 + i * 0x800
/-- `PRT_nnn_STAT` (R120). -/
abbrev Reg.prtStat (i : Nat) : Nat := 0x100008 + i * 0x800
/-- `PRT_nnn_EQ_CTRL` (R120). -/
abbrev Reg.prtEqCtrl (i : Nat) : Nat := 0x10000C + i * 0x800
/-- `PRT_nnn_CTLE` (R120). -/
abbrev Reg.prtCtle (i : Nat) : Nat := 0x100010 + i * 0x800
/-- `PRT_nnn_DFE` (R120). -/
abbrev Reg.prtDfe (i : Nat) : Nat := 0x100014 + i * 0x800
/-- `PRT_nnn_CODE_ERR` (R120). -/
abbrev Reg.prtCodeErr (i : Nat) : Nat := 0x100018 + i * 0x800
/-- `PRT_nnn_LOCK_CNT` (R120). -/
abbrev Reg.prtLockCnt (i : Nat) : Nat := 0x10001C + i * 0x800
/-- `PRT_nnn_PRBS_CTRL` (R120). -/
abbrev Reg.prtPrbsCtrl (i : Nat) : Nat := 0x100020 + i * 0x800
/-- `PRT_nnn_PRBS_ERR` (R120). -/
abbrev Reg.prtPrbsErr (i : Nat) : Nat := 0x100024 + i * 0x800
/-- `PRT_nnn_PRBS_BITS_LO` (R120). -/
abbrev Reg.prtPrbsBitsLo (i : Nat) : Nat := 0x100028 + i * 0x800
/-- `PRT_nnn_PRBS_BITS_HI` (R120). -/
abbrev Reg.prtPrbsBitsHi (i : Nat) : Nat := 0x10002C + i * 0x800
/-- `PRT_nnn_GRP_STAT` (R120). -/
abbrev Reg.prtGrpStat (i : Nat) : Nat := 0x100040 + i * 0x800
/-- `PRT_OCT_oo_EYE_CTRL` (R120). -/
abbrev Reg.prtOctEyeCtrl (i : Nat) : Nat := 0x100400 + i * 0x4000
/-- `PRT_OCT_oo_EYE_RES` (R120). -/
abbrev Reg.prtOctEyeRes (i : Nat) : Nat := 0x100404 + i * 0x4000
/-- `PRT_RB_kk_CFG` (R120). -/
abbrev Reg.prtRbCfg (i : Nat) : Nat := 0x100700 + i * 0x800
/-- `PRT_RB_kk_STAT` (R120). -/
abbrev Reg.prtRbStat (i : Nat) : Nat := 0x100704 + i * 0x800
/-- `PRT_RB_kk_MISMATCH` (R120). -/
abbrev Reg.prtRbMismatch (i : Nat) : Nat := 0x100708 + i * 0x800
/-- `PRT_RB_kk_CODE_ERR` (R120). -/
abbrev Reg.prtRbCodeErr (i : Nat) : Nat := 0x10070C + i * 0x800
/-- `PRT_nnn_LINK_STAT` (R152). -/
abbrev Reg.prtLinkStat (i : Nat) : Nat := 0x100080 + i * 0x800
/-- `PRT_nnn_PULL_CFG` (R152). -/
abbrev Reg.prtPullCfg (i : Nat) : Nat := 0x100084 + i * 0x800
/-- `PRT_nnn_PULL_ERR` (R152). -/
abbrev Reg.prtPullErr (i : Nat) : Nat := 0x100088 + i * 0x800
/-- `PRT_nnn_MARKER_MISS` (R152). -/
abbrev Reg.prtMarkerMiss (i : Nat) : Nat := 0x10008C + i * 0x800
/-- `PRT_nnn_RX_CRC_ERR` (R152). -/
abbrev Reg.prtRxCrcErr (i : Nat) : Nat := 0x100090 + i * 0x800
/-- `PRT_nnn_RX_LOST` (R152). -/
abbrev Reg.prtRxLost (i : Nat) : Nat := 0x100094 + i * 0x800
/-- `PRT_nnn_RX_DUP` (R152). -/
abbrev Reg.prtRxDup (i : Nat) : Nat := 0x100098 + i * 0x800
/-- `PRT_nnn_RX_TYPE_ERR` (R152). -/
abbrev Reg.prtRxTypeErr (i : Nat) : Nat := 0x10009C + i * 0x800
/-- `PRT_nnn_XACT_CFG` (R152). -/
abbrev Reg.prtXactCfg (i : Nat) : Nat := 0x1000A0 + i * 0x800
/-- `PRT_nnn_XACT_REPLAY` (R152). -/
abbrev Reg.prtXactReplay (i : Nat) : Nat := 0x1000A4 + i * 0x800
/-- `PRT_nnn_XACT_FAIL` (R152). -/
abbrev Reg.prtXactFail (i : Nat) : Nat := 0x1000A8 + i * 0x800
/-- `PRT_nnn_GLASS_LATE` (R152). -/
abbrev Reg.prtGlassLate (i : Nat) : Nat := 0x1000AC + i * 0x800
/-- `PRT_nnn_HX_ADDR` (R152). -/
abbrev Reg.prtHxAddr (i : Nat) : Nat := 0x1000C0 + i * 0x800
/-- `PRT_nnn_HX_CMD` (R152). -/
abbrev Reg.prtHxCmd (i : Nat) : Nat := 0x1000C4 + i * 0x800
/-- `PRT_nnn_HX_STAT` (R152). -/
abbrev Reg.prtHxStat (i : Nat) : Nat := 0x1000C8 + i * 0x800
/-- `PRT_nnn_RW_KEY` (R152). -/
abbrev Reg.prtRwKey (i : Nat) : Nat := 0x100100 + i * 0x800
/-- `PRT_nnn_RW_CTRL` (R152). -/
abbrev Reg.prtRwCtrl (i : Nat) : Nat := 0x100104 + i * 0x800
/-- `PRT_nnn_RW_STAT` (R152). -/
abbrev Reg.prtRwStat (i : Nat) : Nat := 0x100108 + i * 0x800
/-- `PRT_nnn_HX_DATA` (R152). -/
abbrev Reg.prtHxData (i j : Nat) : Nat := 0x100200 + i * 0x800 + j * 0x4
/-- `HEAD_nn_CFG` (R299). -/
abbrev Reg.headCfg (i : Nat) : Nat := 0x200000 + i * 0x4000
/-- `HEAD_nn_CTRL` (R299). -/
abbrev Reg.headCtrl (i : Nat) : Nat := 0x200004 + i * 0x4000
/-- `HEAD_nn_COMMIT` (R299). -/
abbrev Reg.headCommit (i : Nat) : Nat := 0x200008 + i * 0x4000
/-- `HEAD_nn_COMMIT_STATUS` (R299). -/
abbrev Reg.headCommitStatus (i : Nat) : Nat := 0x20000C + i * 0x4000
/-- `HEAD_nn_COMMIT_STROKE_LO` (R299). -/
abbrev Reg.headCommitStrokeLo (i : Nat) : Nat := 0x200010 + i * 0x4000
/-- `HEAD_nn_COMMIT_STROKE_HI` (R299). -/
abbrev Reg.headCommitStrokeHi (i : Nat) : Nat := 0x200014 + i * 0x4000
/-- `HEAD_nn_H_TIMING` (R299). -/
abbrev Reg.headHTiming (i : Nat) : Nat := 0x200020 + i * 0x4000
/-- `HEAD_nn_V_TIMING` (R299). -/
abbrev Reg.headVTiming (i : Nat) : Nat := 0x200024 + i * 0x4000
/-- `HEAD_nn_RATIO` (R299). -/
abbrev Reg.headRatio (i : Nat) : Nat := 0x200028 + i * 0x4000
/-- `HEAD_nn_OFFSET` (R299). -/
abbrev Reg.headOffset (i : Nat) : Nat := 0x20002C + i * 0x4000
/-- `HEAD_nn_GATE` (R299). -/
abbrev Reg.headGate (i : Nat) : Nat := 0x200030 + i * 0x4000
/-- `HEAD_nn_OUT_CFG` (R299). -/
abbrev Reg.headOutCfg (i : Nat) : Nat := 0x200034 + i * 0x4000
/-- `HEAD_nn_PIXCLK` (R299). -/
abbrev Reg.headPixclk (i : Nat) : Nat := 0x200050 + i * 0x4000
/-- `HEAD_nn_PHASE_ERR` (R299). -/
abbrev Reg.headPhaseErr (i : Nat) : Nat := 0x200054 + i * 0x4000
/-- `HEAD_nn_POS` (R299). -/
abbrev Reg.headPos (i : Nat) : Nat := 0x200058 + i * 0x4000
/-- `HEAD_nn_LINE_MATCH` (R299). -/
abbrev Reg.headLineMatch (i : Nat) : Nat := 0x20005C + i * 0x4000
/-- `HEAD_nn_EVT_EN` (R299). -/
abbrev Reg.headEvtEn (i : Nat) : Nat := 0x200060 + i * 0x4000
/-- `HEAD_nn_ZONE_CFG` (R299). -/
abbrev Reg.headZoneCfg (i : Nat) : Nat := 0x200064 + i * 0x4000
/-- `HEAD_nn_FRAMES` (R299). -/
abbrev Reg.headFrames (i : Nat) : Nat := 0x200068 + i * 0x4000
/-- `HEAD_nn_UNDERRUN_CNT` (R299). -/
abbrev Reg.headUnderrunCnt (i : Nat) : Nat := 0x20006C + i * 0x4000
/-- `HEAD_nn_GAIN_c` (R299). -/
abbrev Reg.headGain (i j : Nat) : Nat := 0x200038 + i * 0x4000 + j * 0x4
/-- `HEAD_nn_ZONE_z` (R299). -/
abbrev Reg.headZone (i j : Nat) : Nat := 0x202000 + i * 0x4000 + j * 0x4
/-- `HED_SYNC_MASK_LO` (R299). -/
abbrev Reg.hedSyncMaskLo : Nat := 0x203F00
/-- `HED_SYNC_MASK_HI` (R299). -/
abbrev Reg.hedSyncMaskHi : Nat := 0x203F04
/-- `HED_SYNC_COMMIT` (R299). -/
abbrev Reg.hedSyncCommit : Nat := 0x203F08
/-- `HED_SYNC_STAT` (R299). -/
abbrev Reg.hedSyncStat : Nat := 0x203F0C
/-- `HEAD_nn_LAY_s_ID` (R300). -/
abbrev Reg.headLayId (i j : Nat) : Nat := 0x201000 + i * 0x4000 + j * 0x80
/-- `HEAD_nn_LAY_s_CFG` (R300). -/
abbrev Reg.headLayCfg (i j : Nat) : Nat := 0x201004 + i * 0x4000 + j * 0x80
/-- `HEAD_nn_LAY_s_POS` (R300). -/
abbrev Reg.headLayPos (i j : Nat) : Nat := 0x201008 + i * 0x4000 + j * 0x80
/-- `HEAD_nn_LAY_s_SIZE` (R300). -/
abbrev Reg.headLaySize (i j : Nat) : Nat := 0x20100C + i * 0x4000 + j * 0x80
/-- `HEAD_nn_LAY_s_FILT` (R300). -/
abbrev Reg.headLayFilt (i j : Nat) : Nat := 0x201010 + i * 0x4000 + j * 0x80
/-- `HEAD_nn_LAY_s_CSC` (R300). -/
abbrev Reg.headLayCsc (i j : Nat) : Nat := 0x201014 + i * 0x4000 + j * 0x80
/-- `HEAD_nn_LAY_s_TIDE` (R300). -/
abbrev Reg.headLayTide (i j : Nat) : Nat := 0x201018 + i * 0x4000 + j * 0x80
/-- `HEAD_nn_LAY_s_GANGWAY` (R300). -/
abbrev Reg.headLayGangway (i j : Nat) : Nat := 0x20101C + i * 0x4000 + j * 0x80
/-- `HEAD_nn_LAY_s_STAT` (R300). -/
abbrev Reg.headLayStat (i j : Nat) : Nat := 0x201020 + i * 0x4000 + j * 0x80
/-- `HEAD_nn_LAY_s_HOLD` (R300). -/
abbrev Reg.headLayHold (i j : Nat) : Nat := 0x201024 + i * 0x4000 + j * 0x80
/-- `HEAD_nn_LAY_s_HELD_CNT` (R300). -/
abbrev Reg.headLayHeldCnt (i j : Nat) : Nat := 0x201028 + i * 0x4000 + j * 0x80
/-- `HEAD_nn_LAY_s_CRAB_CNT` (R300). -/
abbrev Reg.headLayCrabCnt (i j : Nat) : Nat := 0x20102C + i * 0x4000 + j * 0x80
/-- `HEAD_nn_LAY_s_MAT_i` (R300). -/
abbrev Reg.headLayMat (i j k : Nat) : Nat := 0x201040 + i * 0x4000 + j * 0x80 + k * 0x4
/-- `HEAD_nn_LAY_s_MAT_o` (R300). -/
abbrev Reg.headLayMatOff (i j k : Nat) : Nat := 0x201064 + i * 0x4000 + j * 0x80 + k * 0x4
/-- `HEAD_nn_WATCH` (R322). -/
abbrev Reg.headWatch (i : Nat) : Nat := 0x200080 + i * 0x4000
/-- `HEAD_nn_WATCH_STAT` (R322). -/
abbrev Reg.headWatchStat (i : Nat) : Nat := 0x200084 + i * 0x4000
/-- `HEAD_nn_WATCH_AVAIL` (R322). -/
abbrev Reg.headWatchAvail (i : Nat) : Nat := 0x200088 + i * 0x4000
/-- `HEAD_nn_WATCH_BAD_CNT` (R322). -/
abbrev Reg.headWatchBadCnt (i : Nat) : Nat := 0x20008C + i * 0x4000
/-- `HEAD_nn_WATCH_LAST` (R322). -/
abbrev Reg.headWatchLast (i : Nat) : Nat := 0x200090 + i * 0x4000
/-- `HEAD_nn_WATCH_LAST_MASK` (R322). -/
abbrev Reg.headWatchLastMask (i : Nat) : Nat := 0x200094 + i * 0x4000
/-- `HEAD_nn_WATCH_CELL_LO` (R322). -/
abbrev Reg.headWatchCellLo (i : Nat) : Nat := 0x200098 + i * 0x4000
/-- `HEAD_nn_WATCH_CELL_HI` (R322). -/
abbrev Reg.headWatchCellHi (i : Nat) : Nat := 0x20009C + i * 0x4000
/-- `HEAD_nn_TT_REQ_w` (R322). -/
abbrev Reg.headTtReq (i j : Nat) : Nat := 0x2000A0 + i * 0x4000 + j * 0x4
/-- `HEAD_nn_WATCH_ZONES_w` (R322). -/
abbrev Reg.headWatchZones (i j : Nat) : Nat := 0x2000B0 + i * 0x4000 + j * 0x4
/-- `HEAD_nn_LK_rr_POS` (R323). -/
abbrev Reg.headLkPos (i j : Nat) : Nat := 0x203000 + i * 0x4000 + j * 0x20
/-- `HEAD_nn_LK_rr_SIZE` (R323). -/
abbrev Reg.headLkSize (i j : Nat) : Nat := 0x203004 + i * 0x4000 + j * 0x20
/-- `HEAD_nn_LK_rr_CFG` (R323). -/
abbrev Reg.headLkCfg (i j : Nat) : Nat := 0x203008 + i * 0x4000 + j * 0x20
/-- `HEAD_nn_LK_rr_EXPECT` (R323). -/
abbrev Reg.headLkExpect (i j : Nat) : Nat := 0x20300C + i * 0x4000 + j * 0x20
/-- `HEAD_nn_LK_rr_SIG` (R323). -/
abbrev Reg.headLkSig (i j : Nat) : Nat := 0x203010 + i * 0x4000 + j * 0x20
/-- `HEAD_nn_LK_rr_RB_SIG` (R323). -/
abbrev Reg.headLkRbSig (i j : Nat) : Nat := 0x203014 + i * 0x4000 + j * 0x20
/-- `HEAD_nn_LK_rr_GLASS_SIG` (R323). -/
abbrev Reg.headLkGlassSig (i j : Nat) : Nat := 0x203018 + i * 0x4000 + j * 0x20
/-- `HEAD_nn_LK_rr_MISS_CNT` (R323). -/
abbrev Reg.headLkMissCnt (i j : Nat) : Nat := 0x20301C + i * 0x4000 + j * 0x20
/-- `HEAD_nn_TT_ii_CELL` (R324). -/
abbrev Reg.headTtCell (i j : Nat) : Nat := 0x203200 + i * 0x4000 + j * 0x20
/-- `HEAD_nn_TT_ii_CFG` (R324). -/
abbrev Reg.headTtCfg (i j : Nat) : Nat := 0x203204 + i * 0x4000 + j * 0x20
/-- `HEAD_nn_TT_ii_STATE` (R324). -/
abbrev Reg.headTtState (i j : Nat) : Nat := 0x203208 + i * 0x4000 + j * 0x20
/-- `HEAD_nn_TT_ii_SIG` (R324). -/
abbrev Reg.headTtSig (i j : Nat) : Nat := 0x20320C + i * 0x4000 + j * 0x20
/-- `HEAD_nn_TT_ii_EXP_ON` (R324). -/
abbrev Reg.headTtExpOn (i j : Nat) : Nat := 0x203210 + i * 0x4000 + j * 0x20
/-- `HEAD_nn_TT_ii_EXP_OFF` (R324). -/
abbrev Reg.headTtExpOff (i j : Nat) : Nat := 0x203214 + i * 0x4000 + j * 0x20
/-- `TT_PIN_RAW` (R325). -/
abbrev Reg.ttPinRaw : Nat := 0x203F40
/-- `TT_PIN_ACC` (R325). -/
abbrev Reg.ttPinAcc : Nat := 0x203F44
/-- `TT_PIN_POL` (R325). -/
abbrev Reg.ttPinPol : Nat := 0x203F48
/-- `TT_FILTER` (R325). -/
abbrev Reg.ttFilter : Nat := 0x203F4C
/-- `ENG_STATUS` (R240). -/
abbrev Reg.engStatus : Nat := 0x300800
/-- `ENG_GUARD` (R240). -/
abbrev Reg.engGuard : Nat := 0x300804
/-- `ENG_TAG_CFG` (R240). -/
abbrev Reg.engTagCfg : Nat := 0x300808
/-- `ENG_DEADLINE` (R240). -/
abbrev Reg.engDeadline : Nat := 0x30080C
/-- `ENG_OVERRUN_CNT` (R240). -/
abbrev Reg.engOverrunCnt : Nat := 0x300810
/-- `ENG_OVR_THR_CNT` (R240). -/
abbrev Reg.engOvrThrCnt : Nat := 0x300814
/-- `ENG_FAULT_CNT` (R240). -/
abbrev Reg.engFaultCnt : Nat := 0x300818
/-- `ENG_NOINPUT_CNT` (R240). -/
abbrev Reg.engNoinputCnt : Nat := 0x30081C
/-- `ENG_SKIP_CNT` (R240). -/
abbrev Reg.engSkipCnt : Nat := 0x300820
/-- `ENG_LATE_CNT` (R240). -/
abbrev Reg.engLateCnt : Nat := 0x300824
/-- `ENG_OVER_BUDGET_CNT` (R240). -/
abbrev Reg.engOverBudgetCnt : Nat := 0x300828
/-- `ENG_LAST_STROKE` (R240). -/
abbrev Reg.engLastStroke : Nat := 0x30082C
/-- `ENG_ISA` (R264). -/
abbrev Reg.engIsa : Nat := 0x300830
/-- `ENG_eee_CFG` (R240). -/
abbrev Reg.engCfg (i : Nat) : Nat := 0x300000 + i * 0x1000
/-- `ENG_eee_QCFG` (R240). -/
abbrev Reg.engQcfg (i : Nat) : Nat := 0x300004 + i * 0x1000
/-- `ENG_eee_STAT` (R240). -/
abbrev Reg.engStat (i : Nat) : Nat := 0x300008 + i * 0x1000
/-- `ENG_eee_FAULT` (R240). -/
abbrev Reg.engFault (i : Nat) : Nat := 0x30000C + i * 0x1000
/-- `ENG_eee_BUSY_LO` (R240). -/
abbrev Reg.engBusyLo (i : Nat) : Nat := 0x300010 + i * 0x1000
/-- `ENG_eee_BUSY_HI` (R240). -/
abbrev Reg.engBusyHi (i : Nat) : Nat := 0x300014 + i * 0x1000
/-- `ENG_eee_JOBS` (R240). -/
abbrev Reg.engJobs (i : Nat) : Nat := 0x300018 + i * 0x1000
/-- `CRW_ccc_CFG` (R240). -/
abbrev Reg.crwCfg (i : Nat) : Nat := 0x301800 + i * 0x1000
/-- `CRW_ccc_QCFG` (R240). -/
abbrev Reg.crwQcfg (i : Nat) : Nat := 0x301804 + i * 0x1000
/-- `CRW_ccc_HOSTQ` (R240). -/
abbrev Reg.crwHostq (i : Nat) : Nat := 0x301808 + i * 0x1000
/-- `CRW_ccc_STAT` (R240). -/
abbrev Reg.crwStat (i : Nat) : Nat := 0x30180C + i * 0x1000
/-- `CRW_ccc_JOBS` (R240). -/
abbrev Reg.crwJobs (i : Nat) : Nat := 0x301810 + i * 0x1000
/-- `CRW_ccc_MEMBER_m` (R240). -/
abbrev Reg.crwMember (i j : Nat) : Nat := 0x301840 + i * 0x1000 + j * 0x4
/-- `QUE_qqqq_CFG` (R191). -/
abbrev Reg.queCfg (i : Nat) : Nat := 0x400000 + i * 0x100
/-- `QUE_qqqq_BASE` (R191). -/
abbrev Reg.queBase (i : Nat) : Nat := 0x400004 + i * 0x100
/-- `QUE_qqqq_SIZE` (R191). -/
abbrev Reg.queSize (i : Nat) : Nat := 0x400008 + i * 0x100
/-- `QUE_qqqq_FILL` (R191). -/
abbrev Reg.queFill (i : Nat) : Nat := 0x40000C + i * 0x100
/-- `QUE_qqqq_HWM` (R191). -/
abbrev Reg.queHwm (i : Nat) : Nat := 0x400010 + i * 0x100
/-- `QUE_qqqq_XOFF` (R191). -/
abbrev Reg.queXoff (i : Nat) : Nat := 0x400014 + i * 0x100
/-- `QUE_qqqq_XON` (R191). -/
abbrev Reg.queXon (i : Nat) : Nat := 0x400018 + i * 0x100
/-- `QUE_qqqq_CTRL` (R191). -/
abbrev Reg.queCtrl (i : Nat) : Nat := 0x40001C + i * 0x100
/-- `QUE_qqqq_DROP` (R191). -/
abbrev Reg.queDrop (i : Nat) : Nat := 0x400020 + i * 0x100
/-- `QUE_qqqq_STALE` (R191). -/
abbrev Reg.queStale (i : Nat) : Nat := 0x400024 + i * 0x100
/-- `QUE_qqqq_PUSHES` (R191). -/
abbrev Reg.quePushes (i : Nat) : Nat := 0x400028 + i * 0x100
/-- `QUE_qqqq_PUSH_w` (R191). -/
abbrev Reg.quePush (i j : Nat) : Nat := 0x400040 + i * 0x100 + j * 0x4
/-- `QUE_qqqq_POP_w` (R191). -/
abbrev Reg.quePop (i j : Nat) : Nat := 0x400050 + i * 0x100 + j * 0x4
/-- `XTB_ENTRY_WORD` (R156). -/
abbrev Reg.xtbEntryWord (i j : Nat) : Nat := 0x800000 + i * 0x10 + j * 0x4
/-- `STREAM_ENTRY_WORD` (R154). -/
abbrev Reg.streamEntryWord (i j : Nat) : Nat := 0x880000 + i * 0x8 + j * 0x4
/-- `XTB_STATUS_WORD` (R162). -/
abbrev Reg.xtbStatusWord (i : Nat) : Nat := 0x884000 + i * 0x4
/-- `XFORM_WORD` (R160). -/
abbrev Reg.xformWord (i j : Nat) : Nat := 0x900000 + i * 0x100 + j * 0x4
/-- `FST_SLIP_nnnn_CFG` (R213). -/
abbrev Reg.fstSlipCfg (i : Nat) : Nat := 0xA00000 + i * 0x40
/-- `FST_SLIP_nnnn_ROWS` (R213). -/
abbrev Reg.fstSlipRows (i : Nat) : Nat := 0xA00004 + i * 0x40
/-- `FST_SLIP_nnnn_GEOM` (R213). -/
abbrev Reg.fstSlipGeom (i : Nat) : Nat := 0xA00008 + i * 0x40
/-- `FST_SLIP_nnnn_PITCH` (R213). -/
abbrev Reg.fstSlipPitch (i : Nat) : Nat := 0xA0000C + i * 0x40
/-- `FST_SLIP_nnnn_COMP` (R213). -/
abbrev Reg.fstSlipComp (i : Nat) : Nat := 0xA00010 + i * 0x40
/-- `FST_SLIP_nnnn_COMMIT` (R213). -/
abbrev Reg.fstSlipCommit (i : Nat) : Nat := 0xA00014 + i * 0x40
/-- `FST_SLIP_nnnn_STAT` (R213). -/
abbrev Reg.fstSlipStat (i : Nat) : Nat := 0xA00018 + i * 0x40
/-- `FST_SLIP_nnnn_PERIOD` (R213). -/
abbrev Reg.fstSlipPeriod (i : Nat) : Nat := 0xA0001C + i * 0x40
/-- `FST_SLIP_nnnn_FILL` (R213). -/
abbrev Reg.fstSlipFill (i : Nat) : Nat := 0xA00020 + i * 0x40
/-- `FST_SLIP_nnnn_CAP_STROKE` (R213). -/
abbrev Reg.fstSlipCapStroke (i : Nat) : Nat := 0xA00024 + i * 0x40
/-- `FST_SLIP_nnnn_CAP_OFS` (R213). -/
abbrev Reg.fstSlipCapOfs (i : Nat) : Nat := 0xA00028 + i * 0x40
/-- `FST_SLIP_nnnn_SKIP` (R213). -/
abbrev Reg.fstSlipSkip (i : Nat) : Nat := 0xA0002C + i * 0x40
/-- `FST_SLIP_nnnn_INCOMPLETE` (R213). -/
abbrev Reg.fstSlipIncomplete (i : Nat) : Nat := 0xA00030 + i * 0x40
/-- `FST_SLIP_nnnn_REPEAT` (R213). -/
abbrev Reg.fstSlipRepeat (i : Nat) : Nat := 0xA00034 + i * 0x40
/-- `FST_SLIP_nnnn_UNUSED` (R213). -/
abbrev Reg.fstSlipUnused (i : Nat) : Nat := 0xA00038 + i * 0x40
/-- `FST_SLIP_nnnn_MOTION_FB` (R213). -/
abbrev Reg.fstSlipMotionFb (i : Nat) : Nat := 0xA0003C + i * 0x40
/-- `MANIFEST_WORD` (R230). -/
abbrev Reg.manifestWord (i j : Nat) : Nat := 0xA10000 + i * 0x20 + j * 0x4
/-- `ICON_DIR_WORD` (R304). -/
abbrev Reg.iconDirWord (i j : Nat) : Nat := 0xA20000 + i * 0x10 + j * 0x4
/-- `COEF_WORD` (R475). -/
abbrev Reg.coefWord (i j : Nat) : Nat := 0xA30000 + i * 0x800 + j * 0x4
/-- `LGT_T_WORD` (R475). -/
abbrev Reg.lgtTWord (i : Nat) : Nat := 0xA40000 + i * 0x4
/-- `ICON_STORE_WORD` (R304). -/
abbrev Reg.iconStoreWord (i : Nat) : Nat := 0xC00000 + i * 0x4
/-- `XTB_CTRL` (R189). -/
abbrev Reg.xtbCtrl : Nat := 0xFE0000
/-- `XTB_ARM_GROUP` (R189). -/
abbrev Reg.xtbArmGroup : Nat := 0xFE0004
/-- `XTB_ARM_CTRL` (R189). -/
abbrev Reg.xtbArmCtrl : Nat := 0xFE0008
/-- `XTB_ARM_STAT` (R189). -/
abbrev Reg.xtbArmStat : Nat := 0xFE000C
/-- `XTB_QUERY_IDX` (R189). -/
abbrev Reg.xtbQueryIdx : Nat := 0xFE0010
/-- `XTB_QUERY_STAT` (R189). -/
abbrev Reg.xtbQueryStat : Nat := 0xFE0014
/-- `XTB_GROUP_IDX` (R189). -/
abbrev Reg.xtbGroupIdx : Nat := 0xFE0018
/-- `XTB_GROUP_STAT` (R189). -/
abbrev Reg.xtbGroupStat : Nat := 0xFE001C
/-- `XTB_JOIN` (R189). -/
abbrev Reg.xtbJoin : Nat := 0xFE0020
/-- `XTB_TAKE_CNT` (R189). -/
abbrev Reg.xtbTakeCnt : Nat := 0xFE0024
/-- `XTB_REFUSE_CNT` (R189). -/
abbrev Reg.xtbRefuseCnt : Nat := 0xFE0028
/-- `FST_BUDGET` (R214). -/
abbrev Reg.fstBudget : Nat := 0xFE1000
/-- `FST_FREE` (R214). -/
abbrev Reg.fstFree : Nat := 0xFE1004
/-- `FST_SLIPS` (R214). -/
abbrev Reg.fstSlips : Nat := 0xFE1008
/-- `FST_BANK_bbb_BEATS` (R214). -/
abbrev Reg.fstBankBeats (i : Nat) : Nat := 0xFE2000 + i * 0x8
/-- `FST_BANK_bbb_WAIT` (R214). -/
abbrev Reg.fstBankWait (i : Nat) : Nat := 0xFE2004 + i * 0x8
/-- `MSIX_TABLE_WORD` (R455). -/
abbrev Reg.msixTableWord (i j : Nat) : Nat := 0x3000000 + i * 0x10 + j * 0x4
/-- `MSIX_PBA_WORD` (R455). -/
abbrev Reg.msixPbaWord (i : Nat) : Nat := 0x3001000 + i * 0x4

/-- Rows of the `GLB` space (R473). -/
def glbRows : List RegRow := [
  ⟨"GLB_ID", .ro, 0x0, [], 0xFFFFFFFF, 0x0, 0xD51200B0⟩,
  ⟨"GLB_IF_VERSION", .ro, 0x4, [], 0xFFFFFFFF, 0x0, 0x10000⟩,
  ⟨"GLB_IF_HOST", .rws, 0x8, [], 0xFFFFFFFF, 0x0, 0x0⟩,
  ⟨"GLB_IF_STAT", .ro, 0xC, [], 0xC000FFFF, 0x0, 0x100⟩,
  ⟨"GLB_SERIAL_LO", .ro, 0x10, [], 0xFFFFFFFF, 0x0, 0x0⟩,
  ⟨"GLB_SERIAL_HI", .ro, 0x14, [], 0xFFFFFFFF, 0x0, 0x0⟩,
  ⟨"STROKE_LO", .ro, 0x18, [], 0xFFFFFFFF, 0x0, 0x0⟩,
  ⟨"STROKE_HI", .ro, 0x1C, [], 0xFFFF, 0x0, 0x0⟩,
  ⟨"GLB_STROKE_POS", .ro, 0x20, [], 0x3FFFFFF, 0x0, 0x0⟩,
  ⟨"GLB_FAULT", .ro, 0x24, [], 0x8000000F, 0x0, 0x0⟩,
  ⟨"GLB_CNT_CLEAR", .wo, 0x28, [], 0x0, 0x0, 0x0⟩,
  ⟨"GLB_CNT_STAT", .ro, 0x2C, [], 0x8000FFFF, 0x0, 0x0⟩,
  ⟨"GLB_SCRATCH_n", .rws, 0x30, [(4, 0x4)], 0xFFFFFFFF, 0x0, 0x0⟩,
  ⟨"GLB_CAP_COUNT", .ro, 0x40, [], 0xFF, 0x0, 0x24⟩,
  ⟨"GLB_CAP_k", .ro, 0x100, [(36, 0x4)], 0xFFFFFFFF, 0x0, 0x0⟩]

/-- Rows of the `CHT` space (R473). -/
def chtRows : List RegRow := [
  ⟨"CHT_STATE", .ro, 0x10000, [], 0xFFF7, 0x0, 0x0⟩,
  ⟨"CHT_REASON", .ro, 0x10004, [], 0x80FFFFFF, 0x0, 0x0⟩,
  ⟨"CHT_CTRL", .wo, 0x10008, [], 0x0, 0x0, 0x0⟩,
  ⟨"CHT_RUN_ID_LO", .ro, 0x10010, [], 0xFFFFFFFF, 0x0, 0x0⟩,
  ⟨"CHT_RUN_ID_HI", .ro, 0x10014, [], 0xFFFFFFFF, 0x0, 0x0⟩,
  ⟨"CHT_RUN_VER", .ro, 0x10018, [], 0xFFFFFFFF, 0x0, 0x0⟩,
  ⟨"CHT_STRAP", .ro, 0x1001C, [], 0x3, 0x0, 0x0⟩,
  ⟨"CHT_HOST_ADDR_LO", .rw, 0x10020, [], 0xFFFFF000, 0x0, 0x0⟩,
  ⟨"CHT_HOST_ADDR_HI", .rw, 0x10024, [], 0xFFFFFFFF, 0x0, 0x0⟩,
  ⟨"CHT_HOST_LEN", .rw, 0x10028, [], 0xFFFFFFFF, 0x0, 0x0⟩,
  ⟨"CHT_PUSH_SPACE", .ro, 0x10030, [], 0xFFFFFFFF, 0x0, 0x4000⟩,
  ⟨"CHT_RETRY_CNT", .ro, 0x10034, [], 0x8000FFFF, 0x0, 0x0⟩,
  ⟨"CHT_AMD_CTRL", .wo, 0x10040, [], 0x0, 0x0, 0x0⟩,
  ⟨"CHT_AMD_STATUS", .ro, 0x10044, [], 0xFF0007, 0x0, 0x0⟩,
  ⟨"CHT_AMD_TAKE_LO", .rw, 0x10048, [], 0xFFFFFFFF, 0x0, 0x0⟩,
  ⟨"CHT_AMD_TAKE_HI", .rw, 0x1004C, [], 0xFFFF, 0x0, 0x0⟩,
  ⟨"CHT_AMD_ID_LO", .ro, 0x10050, [], 0xFFFFFFFF, 0x0, 0x0⟩,
  ⟨"CHT_AMD_ID_HI", .ro, 0x10054, [], 0xFFFFFFFF, 0x0, 0x0⟩,
  ⟨"CHT_AMD_SHADOW", .ro, 0x10058, [], 0xFFF, 0x0, 0x0⟩,
  ⟨"CHT_POLICY", .ro, 0x10060, [], 0x3, 0x0, 0x0⟩,
  ⟨"CHT_OTP_CTRL", .wo, 0x10064, [], 0x0, 0x0, 0x0⟩,
  ⟨"CHT_OTP_DATA", .wo, 0x10068, [], 0x0, 0x0, 0x0⟩,
  ⟨"CHT_FLASH_CTRL", .wo, 0x10070, [], 0x0, 0x0, 0x0⟩,
  ⟨"CHT_FLASH_ADDR", .rw, 0x10074, [], 0xFFFFF000, 0x0, 0x0⟩,
  ⟨"CHT_PUSH_DATA", .wo, 0x11000, [(1024, 0x4)], 0x0, 0x0, 0x0⟩]

/-- Rows of the `COX` space (R473). -/
def coxRows : List RegRow := [
  ⟨"COX_STATE", .ro, 0x20000, [], 0xF73, 0x0, 0x0⟩,
  ⟨"COX_CTRL", .rw, 0x20004, [], 0x33, 0x0, 0x0⟩,
  ⟨"COX_SEL", .rw, 0x20008, [], 0x7, 0x0, 0x0⟩,
  ⟨"COX_WTR", .rw, 0x2000C, [], 0xFF, 0x0, 0xC⟩,
  ⟨"COX_SOFT_WIN", .rw, 0x20010, [], 0x3FF, 0x0, 0xC8⟩,
  ⟨"COX_OUT_QL", .rw, 0x20014, [], 0xFF, 0x0, 0x13⟩,
  ⟨"COX_QUAL", .ro, 0x20018, [], 0xFFFFFF, 0x0, 0x0⟩,
  ⟨"COX_STEER", .rw, 0x2001C, [], 0xFFFFFFFF, 0x0, 0x0⟩,
  ⟨"COX_BUILDOUT", .ro, 0x20020, [], 0xFFFFFFFF, 0x0, 0x0⟩,
  ⟨"COX_SLEW_TARGET", .rw, 0x20024, [], 0xFFFFFFFF, 0x0, 0x0⟩,
  ⟨"COX_SLEW_CTRL", .rw, 0x20028, [], 0x3FF, 0x0, 0x3E8⟩,
  ⟨"COX_PHASE_ERR", .ro, 0x2002C, [], 0xFFFFFFFF, 0x0, 0x0⟩,
  ⟨"COX_HIST", .w1c, 0x20030, [], 0x0, 0x1FFF, 0x0⟩,
  ⟨"COX_HIST_EN", .rw, 0x20034, [], 0x1FFF, 0x0, 0xFFF⟩,
  ⟨"COX_SWITCH_CNT", .ro, 0x20038, [], 0x8000FFFF, 0x0, 0x0⟩,
  ⟨"COX_CTRL_VAL", .ro, 0x20040, [], 0xFFFFFFFF, 0x0, 0x0⟩,
  ⟨"COX_HOLD_VAL", .ro, 0x20044, [], 0xFFFFFFFF, 0x0, 0x0⟩,
  ⟨"COX_TCOMP", .ro, 0x20048, [], 0xFFFFFFFF, 0x0, 0x0⟩,
  ⟨"COX_SYNC_OUT_n", .rw, 0x20060, [(2, 0x4)], 0xC00003FF, 0x0, 0xA⟩,
  ⟨"COX_TC_Cn", .ro, 0x20070, [(4, 0x4)], 0xFFFFFFFF, 0x0, 0x0⟩,
  ⟨"COX_TC_SITES", .ro, 0x20080, [], 0xFFFFFFFF, 0x0, 0xFFFFFFFF⟩,
  ⟨"COX_REF_n_CFG", .rw, 0x20100, [(8, 0x20)], 0x9FFC7772, 0x0, 0x0⟩,
  ⟨"COX_REF_n_QL", .rw, 0x20104, [(8, 0x20)], 0xF, 0x0, 0x0⟩,
  ⟨"COX_REF_n_STAT", .ro, 0x20108, [(8, 0x20)], 0xFFFF1F, 0x0, 0x0⟩,
  ⟨"COX_REF_n_FOFS", .ro, 0x2010C, [(8, 0x20)], 0xFFFFFFFF, 0x0, 0x0⟩,
  ⟨"COX_REF_n_OFFSET", .rw, 0x20110, [(8, 0x20)], 0xFFFFFFFF, 0x0, 0x0⟩,
  ⟨"COX_REF_n_FREQ", .rw, 0x20114, [(8, 0x20)], 0x8FFFFFFF, 0x0, 0x0⟩]

/-- Rows of the `SYN` space (R473). -/
def synRows : List RegRow := [
  ⟨"SYN_LOCK_SUM_w", .ro, 0x30000, [(5, 0x4)], 0xFFFFFFFF, 0x0, 0x0⟩,
  ⟨"SYN_COAST_SUM_w", .ro, 0x30020, [(5, 0x4)], 0xFFFFFFFF, 0x0, 0x0⟩,
  ⟨"SYN_x_CFG", .rw, 0x30100, [(136, 0x40)], 0x3001FFF, 0x0, 0x100⟩,
  ⟨"SYN_x_TARGET", .rw, 0x30104, [(136, 0x40)], 0xFFFFFFFF, 0x0, 0x0⟩,
  ⟨"SYN_x_CTRL", .wo, 0x30108, [(136, 0x40)], 0x0, 0x0, 0x0⟩,
  ⟨"SYN_x_STAT", .ro, 0x3010C, [(136, 0x40)], 0x3F3F07, 0x0, 0x0⟩,
  ⟨"SYN_x_FERR", .ro, 0x30110, [(136, 0x40)], 0xFFFFFFFF, 0x0, 0x0⟩,
  ⟨"SYN_x_LOSS_CNT", .ro, 0x30114, [(136, 0x40)], 0x8000FFFF, 0x0, 0x0⟩,
  ⟨"SYN_x_BAND_k_LO", .rw, 0x34000, [(136, 0x80), (16, 0x8)], 0xFFFFFF, 0x0, 0x0⟩,
  ⟨"SYN_x_BAND_k_HI", .rw, 0x34004, [(136, 0x80), (16, 0x8)], 0x803FFFFF, 0x0, 0x0⟩]

/-- Rows of the `THM` space (R473). -/
def thmRows : List RegRow := [
  ⟨"THM_STAT", .ro, 0x40000, [], 0xFF010F, 0x0, 0x0⟩,
  ⟨"THM_TMAX", .ro, 0x40004, [], 0x3FFFFF, 0x0, 0x0⟩,
  ⟨"THM_WARN", .rw, 0x40008, [], 0xFFF, 0x0, 0x56E⟩,
  ⟨"THM_THROT", .rw, 0x4000C, [], 0xFFF, 0x0, 0x576⟩,
  ⟨"THM_SHDN", .rw, 0x40010, [], 0x1FFF, 0x0, 0xF82⟩,
  ⟨"THM_HIST", .w1c, 0x40014, [], 0x0, 0x7F, 0x0⟩,
  ⟨"THM_BROKEN_LO", .ro, 0x40018, [], 0xFFFFFFFF, 0x0, 0x0⟩,
  ⟨"THM_BROKEN_HI", .ro, 0x4001C, [], 0x2FFFFF, 0x0, 0x0⟩,
  ⟨"THM_RESTARTS", .ro, 0x40020, [], 0x8000FFFF, 0x0, 0x0⟩,
  ⟨"THM_THR_MS", .ro, 0x40024, [], 0xFFFFFFFF, 0x0, 0x0⟩,
  ⟨"THM_TS_ss", .ro, 0x40100, [(48, 0x4)], 0x8000FFFF, 0x0, 0x0⟩,
  ⟨"THM_AN_k", .ro, 0x401C0, [(4, 0x4)], 0x8000FFFF, 0x0, 0x0⟩,
  ⟨"THM_LD_k", .ro, 0x401D0, [(2, 0x4)], 0x8000FFFF, 0x0, 0x0⟩,
  ⟨"THM_OFS_k", .ro, 0x401E0, [(4, 0x4)], 0xFFFF, 0x0, 0x0⟩]

/-- Rows of the `PWR` space (R473). -/
def pwrRows : List RegRow := [
  ⟨"PWR_STATE", .ro, 0x50000, [], 0xFF0F0000, 0x0, 0x0⟩,
  ⟨"PWR_RST_CAUSE", .ro, 0x50004, [], 0x1FF, 0x0, 0x0⟩,
  ⟨"PWR_RESET", .wo, 0x50008, [], 0x0, 0x0, 0x0⟩,
  ⟨"PWR_SLEEP_CFG", .rw, 0x5000C, [], 0x800000FF, 0x0, 0xA⟩,
  ⟨"PWR_WDT_CFG", .rw, 0x50010, [], 0x8000FFFF, 0x0, 0x3E8⟩,
  ⟨"PWR_WDT_KICK", .wo, 0x50014, [], 0x0, 0x0, 0x0⟩,
  ⟨"PWR_HIST", .w1c, 0x50018, [], 0x0, 0x3F, 0x0⟩,
  ⟨"PWR_PG_FAIL_CNT", .ro, 0x5001C, [], 0x8000FFFF, 0x0, 0x0⟩,
  ⟨"PWR_WAKE_TIME", .ro, 0x50020, [], 0xFFFF, 0x0, 0x0⟩]

/-- Rows of the `QUAY` space (R473). -/
def quayRows : List RegRow := [
  ⟨"QUAY_STAT", .ro, 0x60000, [], 0x7FFF, 0x0, 0x0⟩,
  ⟨"QUAY_WWIN", .rw, 0x60004, [], 0xF, 0x0, 0x0⟩,
  ⟨"QUAY_PCIE_STAT", .ro, 0x60008, [], 0xC0070007, 0x0, 0x0⟩,
  ⟨"QUAY_HOLD_CNT", .ro, 0x6000C, [], 0xFFFFFFFF, 0x0, 0x0⟩,
  ⟨"QUAY_DENIED_CNT", .ro, 0x60010, [], 0x80FFFFFF, 0x0, 0x0⟩,
  ⟨"QUAY_DECERR_CNT", .ro, 0x60014, [], 0x80FFFFFF, 0x0, 0x0⟩,
  ⟨"QUAY_DECERR_ADDR", .ro, 0x60018, [], 0xFFFFFFFF, 0x0, 0x0⟩,
  ⟨"QSPI_CFG", .rw, 0x60020, [], 0x3F, 0x0, 0x20⟩,
  ⟨"QUAY_PATH_m_t", .ro, 0x60100, [(15, 0x20), (6, 0x4)], 0x37F, 0x0, 0x108⟩,
  ⟨"DMA_n_CTRL", .wo, 0x60400, [(8, 0x40)], 0x0, 0x0, 0x0⟩,
  ⟨"DMA_n_CFG", .rw, 0x60404, [(8, 0x40)], 0x13F, 0x0, 0x0⟩,
  ⟨"DMA_n_HEAD_LO", .rw, 0x60408, [(8, 0x40)], 0xFFFFFFF0, 0x0, 0x0⟩,
  ⟨"DMA_n_HEAD_HI", .rw, 0x6040C, [(8, 0x40)], 0xFFFFFFFF, 0x0, 0x0⟩,
  ⟨"DMA_n_CUR_LO", .ro, 0x60410, [(8, 0x40)], 0xFFFFFFFF, 0x0, 0x0⟩,
  ⟨"DMA_n_CUR_HI", .ro, 0x60414, [(8, 0x40)], 0xFFFFFFFF, 0x0, 0x0⟩,
  ⟨"DMA_n_STAT", .ro, 0x60418, [(8, 0x40)], 0xE00000FF, 0x0, 0x0⟩,
  ⟨"DMA_n_BYTES", .ro, 0x6041C, [(8, 0x40)], 0xFFFFFFFF, 0x0, 0x0⟩]

/-- Rows of the `EVT` space (R473). -/
def evtRows : List RegRow := [
  ⟨"EVT_STAT", .ro, 0x70000, [], 0x7F, 0x0, 0x0⟩,
  ⟨"EVT_BOOT_DROP", .ro, 0x70004, [], 0x8000FFFF, 0x0, 0x0⟩,
  ⟨"EVT_ROUTE_bb", .rw, 0x70100, [(64, 0x4)], 0x80000003, 0x0, 0x80000000⟩,
  ⟨"EVT_ROUTE_X_k", .rw, 0x70200, [(8, 0x4)], 0x803F3FF3, 0x0, 0x0⟩,
  ⟨"EVT_RING_r_BASE_LO", .rw, 0x71000, [(4, 0x40)], 0xFFFFFFFF, 0x0, 0x0⟩,
  ⟨"EVT_RING_r_BASE_HI", .rw, 0x71004, [(4, 0x40)], 0xFFFFFFFF, 0x0, 0x0⟩,
  ⟨"EVT_RING_r_CFG", .rw, 0x71008, [(4, 0x40)], 0xEF3FFFFF, 0x0, 0x0⟩,
  ⟨"EVT_RING_r_WP", .ro, 0x7100C, [(4, 0x40)], 0xFFFF, 0x0, 0x0⟩,
  ⟨"EVT_RING_r_RP", .rw, 0x71010, [(4, 0x40)], 0xFFFF, 0x0, 0x0⟩,
  ⟨"EVT_RING_r_DROP", .ro, 0x71014, [(4, 0x40)], 0x80FFFFFF, 0x0, 0x0⟩,
  ⟨"EVT_RING_r_WPADDR_LO", .rw, 0x71018, [(4, 0x40)], 0xFFFFFFFC, 0x0, 0x0⟩,
  ⟨"EVT_RING_r_WPADDR_HI", .rw, 0x7101C, [(4, 0x40)], 0xFFFFFFFF, 0x0, 0x0⟩]

/-- Rows of the `AUD` space (R473). -/
def audRows : List RegRow := [
  ⟨"AUD_CTRL", .ro, 0x80000, [], 0x1F, 0x0, 0x5⟩,
  ⟨"AUD_STAT", .ro, 0x80004, [], 0x800007FF, 0x0, 0x0⟩,
  ⟨"AUD_COMMIT", .wo, 0x80008, [], 0x0, 0x0, 0x0⟩,
  ⟨"AUD_COMMIT_STAT", .ro, 0x8000C, [], 0x8000FFFF, 0x0, 0x0⟩,
  ⟨"AUD_COMMIT_STROKE", .ro, 0x80010, [], 0xFFFF, 0x0, 0x0⟩,
  ⟨"AUD_BLOCKS", .ro, 0x80014, [], 0xFFFFFFFF, 0x0, 0x0⟩,
  ⟨"AUD_ZERO_CNT", .ro, 0x80018, [], 0x80FFFFFF, 0x0, 0x0⟩,
  ⟨"AUD_IN_iiii_SRC", .ro, 0x81000, [(1024, 0x4)], 0xE7FF000F, 0x0, 0x0⟩,
  ⟨"AUD_OUT_ooo_SRC_k", .sh, 0x82000, [(512, 0x40), (8, 0x4)], 0x83FFFFFF, 0x0, 0x0⟩,
  ⟨"AUD_OUT_ooo_DST", .ro, 0x82020, [(512, 0x40)], 0xE7FF000F, 0x0, 0x0⟩,
  ⟨"AUD_OUT_ooo_DUCK", .sh, 0x82024, [(512, 0x40)], 0xFFFF, 0x0, 0x1000⟩,
  ⟨"AUD_OUT_ooo_STAT", .ro, 0x82028, [(512, 0x40)], 0xE00000FF, 0x0, 0x0⟩,
  ⟨"AUD_OUT_ooo_CLIPS", .ro, 0x8202C, [(512, 0x40)], 0xFFFFFFFF, 0x0, 0x0⟩,
  ⟨"AUD_ASRC_uu_CFG", .ro, 0x8A000, [(64, 0x10)], 0xE7FF001F, 0x0, 0x0⟩,
  ⟨"AUD_ASRC_uu_STAT", .ro, 0x8A004, [(64, 0x10)], 0xC0000007, 0x0, 0x0⟩,
  ⟨"AUD_ASRC_uu_RATE", .ro, 0x8A008, [(64, 0x10)], 0xFFFFFF, 0x0, 0x0⟩,
  ⟨"AUD_ASRC_uu_SLIPS", .ro, 0x8A00C, [(64, 0x10)], 0x8000FFFF, 0x0, 0x0⟩,
  ⟨"AUD_TDM_n_CFG", .ro, 0x8B000, [(8, 0x20)], 0xFFDF0003, 0x0, 0x0⟩,
  ⟨"AUD_TDM_n_STAT", .ro, 0x8B004, [(8, 0x20)], 0xC0000000, 0x0, 0x0⟩,
  ⟨"AUD_TDM_n_FRAME_ERR", .ro, 0x8B008, [(8, 0x20)], 0x80FFFFFF, 0x0, 0x0⟩,
  ⟨"AUD_TDM_n_CLIPS", .ro, 0x8B00C, [(8, 0x20)], 0xFFFFFFFF, 0x0, 0x0⟩,
  ⟨"AUD_CHIME_cc_CFG", .ro, 0x8C000, [(32, 0x20)], 0xFFFF83FF, 0x0, 0x0⟩,
  ⟨"AUD_CHIME_cc_CLIP", .ro, 0x8C004, [(32, 0x20)], 0xFFFFF, 0x0, 0x0⟩,
  ⟨"AUD_CHIME_cc_PERIOD", .ro, 0x8C008, [(32, 0x20)], 0xFFF, 0x0, 0x0⟩,
  ⟨"AUD_CHIME_cc_GAIN", .sh, 0x8C00C, [(32, 0x20)], 0xFFFF, 0x0, 0x1000⟩,
  ⟨"AUD_CHIME_cc_STAT", .ro, 0x8C010, [(32, 0x20)], 0x800FFFFF, 0x0, 0x0⟩,
  ⟨"AUD_CHIME_cc_PLAYS", .ro, 0x8C014, [(32, 0x20)], 0xFFFFFFFF, 0x0, 0x0⟩]

/-- Rows of the `LGT` space (R473). -/
def lgtRows : List RegRow := [
  ⟨"LGT_STATE", .ro, 0x90000, [], 0xE0000000, 0x0, 0x0⟩,
  ⟨"LGT_PWM_CFG", .ro, 0x90004, [], 0x7, 0x0, 0x5⟩,
  ⟨"LGT_BST_CFG", .ro, 0x90008, [], 0x3FFFF7F, 0x0, 0x1432⟩,
  ⟨"LGT_BST_STAT", .ro, 0x9000C, [], 0xFFFFF0FF, 0x0, 0x0⟩,
  ⟨"LGT_DERATE_CFG", .ro, 0x90010, [], 0xFF00FFFF, 0x0, 0xC0006E55⟩,
  ⟨"LGT_ZONE_CFG", .ro, 0x90014, [], 0x3FF00FF, 0x0, 0x80⟩,
  ⟨"LGT_HIST", .w1c, 0x90018, [], 0x0, 0xF, 0x0⟩,
  ⟨"LGT_NTC_n", .ro, 0x90020, [(4, 0x4)], 0xFFFFFFFF, 0x0, 0x0⟩,
  ⟨"LGT_FAULT_LO", .ro, 0x90030, [], 0xFFFFFFFF, 0x0, 0x0⟩,
  ⟨"LGT_FAULT_HI", .ro, 0x90034, [], 0xFFFFFFFF, 0x0, 0x0⟩,
  ⟨"LGT_LINE_FAULT", .ro, 0x90038, [], 0xFFFFFFFF, 0x0, 0x0⟩,
  ⟨"LGT_TESTS", .ro, 0x9003C, [], 0xFFFFFFFF, 0x0, 0x0⟩,
  ⟨"LGT_CH_nn_CFG", .ro, 0x90100, [(48, 0x20)], 0xFC000FFF, 0x0, 0x0⟩,
  ⟨"LGT_CH_nn_AMP", .ro, 0x90104, [(48, 0x20)], 0x1FFF0FFF, 0x0, 0x0⟩,
  ⟨"LGT_CH_nn_DUTY", .ro, 0x90108, [(48, 0x20)], 0xFFFF, 0x0, 0x0⟩,
  ⟨"LGT_CH_nn_STAT", .ro, 0x9010C, [(48, 0x20)], 0xF00000FF, 0x0, 0x0⟩,
  ⟨"LGT_CH_nn_CTRL", .wo, 0x90110, [(48, 0x20)], 0x0, 0x0, 0x0⟩,
  ⟨"LGT_CH_nn_FAULT_CNT", .ro, 0x90114, [(48, 0x20)], 0x8000FFFF, 0x0, 0x0⟩,
  ⟨"LGT_LAMP_ll_CFG", .ro, 0x90800, [(16, 0x20)], 0xFFFF03FF, 0x0, 0x0⟩,
  ⟨"LGT_LAMP_ll_LEVEL", .sh, 0x90804, [(16, 0x20)], 0xFFFF, 0x0, 0x0⟩,
  ⟨"LGT_LAMP_ll_COLOUR", .sh, 0x90808, [(16, 0x20)], 0xFFFFFFFF, 0x0, 0x0⟩,
  ⟨"LGT_LAMP_ll_FLOOR", .ro, 0x9080C, [(16, 0x20)], 0xFFFF, 0x0, 0x0⟩,
  ⟨"LGT_LAMP_ll_STAT", .ro, 0x90810, [(16, 0x20)], 0xFE00FFFF, 0x0, 0x0⟩,
  ⟨"LGT_MAT_x_CFG", .ro, 0x90A00, [(2, 0x10)], 0x1F3F007F, 0x0, 0x0⟩,
  ⟨"LGT_STR_ccc", .ro, 0x91000, [(528, 0x4)], 0xFF3F01FF, 0x0, 0x0⟩]

/-- Rows of the `NVS` space (R473). -/
def nvsRows : List RegRow := [
  ⟨"NVS_STATUS", .ro, 0xA0000, [], 0xF0FF0000, 0x0, 0x10000⟩,
  ⟨"NVS_CMD", .wo, 0xA0004, [], 0x0, 0x0, 0x0⟩,
  ⟨"NVS_ADDR", .rw, 0xA0008, [], 0x7FFFF, 0x0, 0x0⟩,
  ⟨"NVS_ADDR_B", .rw, 0xA000C, [], 0x7FFFF, 0x0, 0x0⟩,
  ⟨"NVS_LEN", .rw, 0xA0010, [], 0x1FFF, 0x0, 0x0⟩,
  ⟨"NVS_REC_CFG", .rw, 0xA0014, [], 0x1F00FFFF, 0x0, 0x0⟩,
  ⟨"NVS_RESULT", .ro, 0xA0018, [], 0xC1FF00FF, 0x0, 0x0⟩,
  ⟨"NVS_REC_SEQ", .ro, 0xA001C, [], 0xFFFFFFFF, 0x0, 0x0⟩,
  ⟨"NVS_POH", .ro, 0xA0020, [], 0xFFFFFFFF, 0x0, 0x0⟩,
  ⟨"NVS_WAKES", .ro, 0xA0024, [], 0xFFFFFFFF, 0x0, 0x0⟩,
  ⟨"NVS_PAGE_WRITES", .ro, 0xA0028, [], 0xFFFFFFFF, 0x0, 0x0⟩,
  ⟨"NVS_TORN_CNT", .ro, 0xA002C, [], 0x8000FFFF, 0x0, 0x0⟩,
  ⟨"NVS_CONFLICT_CNT", .ro, 0xA0030, [], 0x8000FFFF, 0x0, 0x0⟩,
  ⟨"NVS_BUF", .rw, 0xA1000, [(1024, 0x4)], 0xFFFFFFFF, 0x0, 0x0⟩]

/-- Rows of the `FLD` space (R473). -/
def fldRows : List RegRow := [
  ⟨"FLD_STAT", .ro, 0xB0000, [], 0xFF00FF, 0x0, 0x0⟩,
  ⟨"FLD_REC_SEL", .rw, 0xB0004, [], 0x3FF, 0x0, 0x0⟩,
  ⟨"FLD_REC", .ro, 0xB0100, [(64, 0x4)], 0xFFFFFFFF, 0x0, 0x0⟩,
  ⟨"FLD_LED_kkk_SER_LO", .ro, 0xB1000, [(128, 0x20)], 0xFFFFFFFF, 0x0, 0x0⟩,
  ⟨"FLD_LED_kkk_SER_HI", .ro, 0xB1004, [(128, 0x20)], 0xFFFFFFFF, 0x0, 0x0⟩,
  ⟨"FLD_LED_kkk_HOURS", .ro, 0xB1008, [(128, 0x20)], 0xFFFFFFFF, 0x0, 0x0⟩,
  ⟨"FLD_LED_kkk_RATED", .ro, 0xB100C, [(128, 0x20)], 0xFFFFFFFF, 0x0, 0x0⟩,
  ⟨"FLD_LED_kkk_COMP", .ro, 0xB1010, [(128, 0x20)], 0x1FFF, 0x0, 0x1000⟩,
  ⟨"FLD_LED_kkk_WSEQ", .ro, 0xB1014, [(128, 0x20)], 0xFFFFFFFF, 0x0, 0x0⟩,
  ⟨"FLD_UNIT_u_STAT", .ro, 0xB4000, [(520, 0x10)], 0xFFFC0000, 0x0, 0x0⟩,
  ⟨"FLD_UNIT_u_LEDGER", .ro, 0xB4004, [(520, 0x10)], 0xFF, 0x0, 0x0⟩]

/-- Rows of the `PRT` space (R473). -/
def prtRows0 : List RegRow := [
  ⟨"PRT_nnn_CFG", .ro, 0x100000, [(512, 0x800)], 0x7FFCFF00, 0x0, 0x0⟩,
  ⟨"PRT_nnn_CTRL", .wo, 0x100004, [(512, 0x800)], 0x0, 0x0, 0x0⟩,
  ⟨"PRT_nnn_STAT", .ro, 0x100008, [(512, 0x800)], 0xFF337, 0x0, 0x0⟩,
  ⟨"PRT_nnn_EQ_CTRL", .rw, 0x10000C, [(512, 0x800)], 0x1, 0x0, 0x0⟩,
  ⟨"PRT_nnn_CTLE", .ro, 0x100010, [(512, 0x800)], 0x1F1F, 0x0, 0x0⟩,
  ⟨"PRT_nnn_DFE", .ro, 0x100014, [(512, 0x800)], 0x3FFFFFFF, 0x0, 0x0⟩,
  ⟨"PRT_nnn_CODE_ERR", .ro, 0x100018, [(512, 0x800)], 0x80FFFFFF, 0x0, 0x0⟩,
  ⟨"PRT_nnn_LOCK_CNT", .ro, 0x10001C, [(512, 0x800)], 0x8000FFFF, 0x0, 0x0⟩,
  ⟨"PRT_nnn_PRBS_CTRL", .rw, 0x100020, [(512, 0x800)], 0x77, 0x0, 0x0⟩,
  ⟨"PRT_nnn_PRBS_ERR", .ro, 0x100024, [(512, 0x800)], 0xFFFFFFFF, 0x0, 0x0⟩,
  ⟨"PRT_nnn_PRBS_BITS_LO", .ro, 0x100028, [(512, 0x800)], 0xFFFFFFFF, 0x0, 0x0⟩,
  ⟨"PRT_nnn_PRBS_BITS_HI", .ro, 0x10002C, [(512, 0x800)], 0xFFFFFFFF, 0x0, 0x0⟩,
  ⟨"PRT_nnn_GRP_STAT", .ro, 0x100040, [(512, 0x800)], 0xFFFFFF7F, 0x0, 0x0⟩,
  ⟨"PRT_OCT_oo_EYE_CTRL", .rw, 0x100400, [(64, 0x4000)], 0x70000, 0x0, 0x0⟩,
  ⟨"PRT_OCT_oo_EYE_RES", .ro, 0x100404, [(64, 0x4000)], 0x803F03FF, 0x0, 0x0⟩,
  ⟨"PRT_RB_kk_CFG", .rw, 0x100700, [(32, 0x800)], 0x800001FF, 0x0, 0x0⟩,
  ⟨"PRT_RB_kk_STAT", .ro, 0x100704, [(32, 0x800)], 0xC0000000, 0x0, 0x0⟩,
  ⟨"PRT_RB_kk_MISMATCH", .ro, 0x100708, [(32, 0x800)], 0x80FFFFFF, 0x0, 0x0⟩,
  ⟨"PRT_RB_kk_CODE_ERR", .ro, 0x10070C, [(32, 0x800)], 0x80FFFFFF, 0x0, 0x0⟩,
  ⟨"PRT_nnn_LINK_STAT", .ro, 0x100080, [(512, 0x800)], 0xFFFFEF1F, 0x0, 0x0⟩,
  ⟨"PRT_nnn_PULL_CFG", .rw, 0x100084, [(512, 0x800)], 0xF7FFFFFF, 0x0, 0x0⟩,
  ⟨"PRT_nnn_PULL_ERR", .ro, 0x100088, [(512, 0x800)], 0xFFFFFFFF, 0x0, 0x0⟩,
  ⟨"PRT_nnn_MARKER_MISS", .ro, 0x10008C, [(512, 0x800)], 0x8000FFFF, 0x0, 0x0⟩,
  ⟨"PRT_nnn_RX_CRC_ERR", .ro, 0x100090, [(512, 0x800)], 0x80FFFFFF, 0x0, 0x0⟩,
  ⟨"PRT_nnn_RX_LOST", .ro, 0x100094, [(512, 0x800)], 0x80FFFFFF, 0x0, 0x0⟩,
  ⟨"PRT_nnn_RX_DUP", .ro, 0x100098, [(512, 0x800)], 0x80FFFFFF, 0x0, 0x0⟩,
  ⟨"PRT_nnn_RX_TYPE_ERR", .ro, 0x10009C, [(512, 0x800)], 0x8000FFFF, 0x0, 0x0⟩,
  ⟨"PRT_nnn_XACT_CFG", .rw, 0x1000A0, [(512, 0x800)], 0x7FF, 0x0, 0x30A⟩,
  ⟨"PRT_nnn_XACT_REPLAY", .ro, 0x1000A4, [(512, 0x800)], 0x80FFFFFF, 0x0, 0x0⟩,
  ⟨"PRT_nnn_XACT_FAIL", .ro, 0x1000A8, [(512, 0x800)], 0x8000FFFF, 0x0, 0x0⟩]

/-- Rows of the `PRT` space (R473). -/
def prtRows1 : List RegRow := [
  ⟨"PRT_nnn_GLASS_LATE", .ro, 0x1000AC, [(512, 0x800)], 0x8000FFFF, 0x0, 0x0⟩,
  ⟨"PRT_nnn_HX_ADDR", .rw, 0x1000C0, [(512, 0x800)], 0xFFFFFFFF, 0x0, 0x0⟩,
  ⟨"PRT_nnn_HX_CMD", .wo, 0x1000C4, [(512, 0x800)], 0x0, 0x0, 0x0⟩,
  ⟨"PRT_nnn_HX_STAT", .ro, 0x1000C8, [(512, 0x800)], 0x800007FF, 0x0, 0x0⟩,
  ⟨"PRT_nnn_RW_KEY", .wo, 0x100100, [(512, 0x800)], 0x0, 0x0, 0x0⟩,
  ⟨"PRT_nnn_RW_CTRL", .rw, 0x100104, [(512, 0x800)], 0xE73FFFFE, 0x0, 0x0⟩,
  ⟨"PRT_nnn_RW_STAT", .ro, 0x100108, [(512, 0x800)], 0xE0FFFFFF, 0x0, 0x0⟩,
  ⟨"PRT_nnn_HX_DATA", .rw, 0x100200, [(512, 0x800), (16, 0x4)], 0xFFFFFFFF, 0x0, 0x0⟩]

/-- Rows of the `PRT` space (R473). -/
def prtRows : List RegRow := prtRows0 ++ prtRows1

/-- Rows of the `HED` space (R473). -/
def hedRows0 : List RegRow := [
  ⟨"HEAD_nn_CFG", .ro, 0x200000, [(64, 0x4000)], 0xFF0007FF, 0x0, 0x0⟩,
  ⟨"HEAD_nn_CTRL", .sh, 0x200004, [(64, 0x4000)], 0x1, 0x0, 0x0⟩,
  ⟨"HEAD_nn_COMMIT", .wo, 0x200008, [(64, 0x4000)], 0x0, 0x0, 0x0⟩,
  ⟨"HEAD_nn_COMMIT_STATUS", .ro, 0x20000C, [(64, 0x4000)], 0xE0FFFFFF, 0x0, 0x0⟩,
  ⟨"HEAD_nn_COMMIT_STROKE_LO", .ro, 0x200010, [(64, 0x4000)], 0xFFFFFFFF, 0x0, 0x0⟩,
  ⟨"HEAD_nn_COMMIT_STROKE_HI", .ro, 0x200014, [(64, 0x4000)], 0xFFFF, 0x0, 0x0⟩,
  ⟨"HEAD_nn_H_TIMING", .sh, 0x200020, [(64, 0x4000)], 0x1FFF1FFF, 0x0, 0x0⟩,
  ⟨"HEAD_nn_V_TIMING", .sh, 0x200024, [(64, 0x4000)], 0x1FFF1FFF, 0x0, 0x0⟩,
  ⟨"HEAD_nn_RATIO", .sh, 0x200028, [(64, 0x4000)], 0x77, 0x0, 0x11⟩,
  ⟨"HEAD_nn_OFFSET", .sh, 0x20002C, [(64, 0x4000)], 0x7FFFFFF, 0x0, 0x0⟩,
  ⟨"HEAD_nn_GATE", .sh, 0x200030, [(64, 0x4000)], 0x1FFF, 0x0, 0x0⟩,
  ⟨"HEAD_nn_OUT_CFG", .sh, 0x200034, [(64, 0x4000)], 0x1B1, 0x0, 0x0⟩,
  ⟨"HEAD_nn_PIXCLK", .ro, 0x200050, [(64, 0x4000)], 0xFFFFF, 0x0, 0x0⟩,
  ⟨"HEAD_nn_PHASE_ERR", .ro, 0x200054, [(64, 0x4000)], 0xFFFFFFFF, 0x0, 0x0⟩,
  ⟨"HEAD_nn_POS", .ro, 0x200058, [(64, 0x4000)], 0x1FFFFFFF, 0x0, 0x0⟩,
  ⟨"HEAD_nn_LINE_MATCH", .rw, 0x20005C, [(64, 0x4000)], 0x1FFF, 0x0, 0x0⟩,
  ⟨"HEAD_nn_EVT_EN", .rw, 0x200060, [(64, 0x4000)], 0xF, 0x0, 0x8⟩,
  ⟨"HEAD_nn_ZONE_CFG", .ro, 0x200064, [(64, 0x4000)], 0x3F001F, 0x0, 0x0⟩,
  ⟨"HEAD_nn_FRAMES", .ro, 0x200068, [(64, 0x4000)], 0xFFFFFFFF, 0x0, 0x0⟩,
  ⟨"HEAD_nn_UNDERRUN_CNT", .ro, 0x20006C, [(64, 0x4000)], 0x80FFFFFF, 0x0, 0x0⟩,
  ⟨"HEAD_nn_GAIN_c", .sh, 0x200038, [(64, 0x4000), (3, 0x4)], 0xFFF07FF, 0x0, 0x4000000⟩,
  ⟨"HEAD_nn_ZONE_z", .ro, 0x202000, [(64, 0x4000), (512, 0x4)], 0x3FF03FF, 0x0, 0x0⟩,
  ⟨"HED_SYNC_MASK_LO", .rw, 0x203F00, [], 0xFFFFFFFF, 0x0, 0x0⟩,
  ⟨"HED_SYNC_MASK_HI", .rw, 0x203F04, [], 0xFFFFFFFF, 0x0, 0x0⟩,
  ⟨"HED_SYNC_COMMIT", .wo, 0x203F08, [], 0x0, 0x0, 0x0⟩,
  ⟨"HED_SYNC_STAT", .ro, 0x203F0C, [], 0xE000FFFF, 0x0, 0x0⟩,
  ⟨"HEAD_nn_LAY_s_ID", .ro, 0x201000, [(64, 0x4000), (8, 0x80)], 0x800001FF, 0x0, 0x0⟩,
  ⟨"HEAD_nn_LAY_s_CFG", .sh, 0x201004, [(64, 0x4000), (8, 0x80)], 0xF40703FF, 0x0, 0x3FF⟩,
  ⟨"HEAD_nn_LAY_s_POS", .sh, 0x201008, [(64, 0x4000), (8, 0x80)], 0x1FFF1FFF, 0x0, 0x0⟩,
  ⟨"HEAD_nn_LAY_s_SIZE", .sh, 0x20100C, [(64, 0x4000), (8, 0x80)], 0x1FFF1FFF, 0x0, 0x0⟩]

/-- Rows of the `HED` space (R473). -/
def hedRows1 : List RegRow := [
  ⟨"HEAD_nn_LAY_s_FILT", .sh, 0x201010, [(64, 0x4000), (8, 0x80)], 0xFF, 0x0, 0x0⟩,
  ⟨"HEAD_nn_LAY_s_CSC", .sh, 0x201014, [(64, 0x4000), (8, 0x80)], 0x111, 0x0, 0x0⟩,
  ⟨"HEAD_nn_LAY_s_TIDE", .sh, 0x201018, [(64, 0x4000), (8, 0x80)], 0x3F, 0x0, 0x8⟩,
  ⟨"HEAD_nn_LAY_s_GANGWAY", .rw, 0x20101C, [(64, 0x4000), (8, 0x80)], 0xFFFFF, 0x0, 0x0⟩,
  ⟨"HEAD_nn_LAY_s_STAT", .ro, 0x201020, [(64, 0x4000), (8, 0x80)], 0xFC0700FF, 0x0, 0x0⟩,
  ⟨"HEAD_nn_LAY_s_HOLD", .ro, 0x201024, [(64, 0x4000), (8, 0x80)], 0x7FF, 0x0, 0x0⟩,
  ⟨"HEAD_nn_LAY_s_HELD_CNT", .ro, 0x201028, [(64, 0x4000), (8, 0x80)], 0x80FFFFFF, 0x0, 0x0⟩,
  ⟨"HEAD_nn_LAY_s_CRAB_CNT", .ro, 0x20102C, [(64, 0x4000), (8, 0x80)], 0x80FFFFFF, 0x0, 0x0⟩,
  ⟨"HEAD_nn_LAY_s_MAT_i", .sh, 0x201040, [(64, 0x4000), (8, 0x80), (9, 0x4)], 0xFFFF, 0x0, 0x0⟩,
  ⟨"HEAD_nn_LAY_s_MAT_o", .sh, 0x201064, [(64, 0x4000), (8, 0x80), (3, 0x4)], 0xFFF, 0x0, 0x0⟩,
  ⟨"HEAD_nn_WATCH", .ro, 0x200080, [(64, 0x4000)], 0xFF7F1F00, 0x0, 0x0⟩,
  ⟨"HEAD_nn_WATCH_STAT", .w1c, 0x200084, [(64, 0x4000)], 0x0, 0xF, 0x0⟩,
  ⟨"HEAD_nn_WATCH_AVAIL", .ro, 0x200088, [(64, 0x4000)], 0x1F07, 0x0, 0x0⟩,
  ⟨"HEAD_nn_WATCH_BAD_CNT", .ro, 0x20008C, [(64, 0x4000)], 0x8000FFFF, 0x0, 0x0⟩,
  ⟨"HEAD_nn_WATCH_LAST", .ro, 0x200090, [(64, 0x4000)], 0xF000FFFF, 0x0, 0x0⟩,
  ⟨"HEAD_nn_WATCH_LAST_MASK", .ro, 0x200094, [(64, 0x4000)], 0xFFFF, 0x0, 0x0⟩,
  ⟨"HEAD_nn_WATCH_CELL_LO", .ro, 0x200098, [(64, 0x4000)], 0xFFFFFFFF, 0x0, 0x0⟩,
  ⟨"HEAD_nn_WATCH_CELL_HI", .ro, 0x20009C, [(64, 0x4000)], 0xFFFFFFFF, 0x0, 0x0⟩,
  ⟨"HEAD_nn_TT_REQ_w", .rw, 0x2000A0, [(64, 0x4000), (4, 0x4)], 0xFFFFFFFF, 0x0, 0x0⟩,
  ⟨"HEAD_nn_WATCH_ZONES_w", .ro, 0x2000B0, [(64, 0x4000), (16, 0x4)], 0xFFFFFFFF, 0x0, 0x0⟩,
  ⟨"HEAD_nn_LK_rr_POS", .sh, 0x203000, [(64, 0x4000), (16, 0x20)], 0x1FFF1FFF, 0x0, 0x0⟩,
  ⟨"HEAD_nn_LK_rr_SIZE", .sh, 0x203004, [(64, 0x4000), (16, 0x20)], 0x1FFF1FFF, 0x0, 0x0⟩,
  ⟨"HEAD_nn_LK_rr_CFG", .sh, 0x203008, [(64, 0x4000), (16, 0x20)], 0xF0000000, 0x0, 0x0⟩,
  ⟨"HEAD_nn_LK_rr_EXPECT", .sh, 0x20300C, [(64, 0x4000), (16, 0x20)], 0xFFFFFFFF, 0x0, 0x0⟩,
  ⟨"HEAD_nn_LK_rr_SIG", .ro, 0x203010, [(64, 0x4000), (16, 0x20)], 0xFFFFFFFF, 0x0, 0x0⟩,
  ⟨"HEAD_nn_LK_rr_RB_SIG", .ro, 0x203014, [(64, 0x4000), (16, 0x20)], 0xFFFFFFFF, 0x0, 0x0⟩,
  ⟨"HEAD_nn_LK_rr_GLASS_SIG", .ro, 0x203018, [(64, 0x4000), (16, 0x20)], 0xFFFFFFFF, 0x0, 0x0⟩,
  ⟨"HEAD_nn_LK_rr_MISS_CNT", .ro, 0x20301C, [(64, 0x4000), (16, 0x20)], 0x8000FFFF, 0x0, 0x0⟩,
  ⟨"HEAD_nn_TT_ii_CELL", .ro, 0x203200, [(64, 0x4000), (64, 0x20)], 0x1FFF1FFF, 0x0, 0x0⟩,
  ⟨"HEAD_nn_TT_ii_CFG", .ro, 0x203204, [(64, 0x4000), (64, 0x20)], 0xFBE0FFFF, 0x0, 0x0⟩]

/-- Rows of the `HED` space (R473). -/
def hedRows2 : List RegRow := [
  ⟨"HEAD_nn_TT_ii_STATE", .ro, 0x203208, [(64, 0x4000), (64, 0x20)], 0xC0030000, 0x0, 0x0⟩,
  ⟨"HEAD_nn_TT_ii_SIG", .ro, 0x20320C, [(64, 0x4000), (64, 0x20)], 0xFFFFFFFF, 0x0, 0x0⟩,
  ⟨"HEAD_nn_TT_ii_EXP_ON", .ro, 0x203210, [(64, 0x4000), (64, 0x20)], 0xFFFFFFFF, 0x0, 0x0⟩,
  ⟨"HEAD_nn_TT_ii_EXP_OFF", .ro, 0x203214, [(64, 0x4000), (64, 0x20)], 0xFFFFFFFF, 0x0, 0x0⟩,
  ⟨"TT_PIN_RAW", .ro, 0x203F40, [], 0xFFFFFFFF, 0x0, 0x0⟩,
  ⟨"TT_PIN_ACC", .ro, 0x203F44, [], 0xFFFFFFFF, 0x0, 0x0⟩,
  ⟨"TT_PIN_POL", .ro, 0x203F48, [], 0xFFFFFFFF, 0x0, 0x0⟩,
  ⟨"TT_FILTER", .ro, 0x203F4C, [], 0xF, 0x0, 0x2⟩]

/-- Rows of the `HED` space (R473). -/
def hedRows : List RegRow := hedRows0 ++ hedRows1 ++ hedRows2

/-- Rows of the `ENG` space (R473). -/
def engRows : List RegRow := [
  ⟨"ENG_STATUS", .ro, 0x300800, [], 0xC00007FF, 0x0, 0x0⟩,
  ⟨"ENG_GUARD", .ro, 0x300804, [], 0xFF, 0x0, 0x1E⟩,
  ⟨"ENG_TAG_CFG", .ro, 0x300808, [], 0x7FF07FF, 0x0, 0x0⟩,
  ⟨"ENG_DEADLINE", .ro, 0x30080C, [], 0x3FFFFFF, 0x0, 0x0⟩,
  ⟨"ENG_OVERRUN_CNT", .ro, 0x300810, [], 0x80FFFFFF, 0x0, 0x0⟩,
  ⟨"ENG_OVR_THR_CNT", .ro, 0x300814, [], 0x80FFFFFF, 0x0, 0x0⟩,
  ⟨"ENG_FAULT_CNT", .ro, 0x300818, [], 0x80FFFFFF, 0x0, 0x0⟩,
  ⟨"ENG_NOINPUT_CNT", .ro, 0x30081C, [], 0x80FFFFFF, 0x0, 0x0⟩,
  ⟨"ENG_SKIP_CNT", .ro, 0x300820, [], 0xFFFFFFFF, 0x0, 0x0⟩,
  ⟨"ENG_LATE_CNT", .ro, 0x300824, [], 0xFFFFFFFF, 0x0, 0x0⟩,
  ⟨"ENG_OVER_BUDGET_CNT", .ro, 0x300828, [], 0xFFFFFFFF, 0x0, 0x0⟩,
  ⟨"ENG_LAST_STROKE", .ro, 0x30082C, [], 0x7FF07FF, 0x0, 0x0⟩,
  ⟨"ENG_ISA", .ro, 0x300830, [], 0xFFFFFFFF, 0x0, 0x100⟩,
  ⟨"ENG_eee_CFG", .ro, 0x300000, [(256, 0x1000)], 0x8FFF1FFF, 0x0, 0x0⟩,
  ⟨"ENG_eee_QCFG", .ro, 0x300004, [(256, 0x1000)], 0xFFF0FFF, 0x0, 0x0⟩,
  ⟨"ENG_eee_STAT", .ro, 0x300008, [(256, 0x1000)], 0xC3FF0FFF, 0x0, 0x0⟩,
  ⟨"ENG_eee_FAULT", .ro, 0x30000C, [(256, 0x1000)], 0xF3FF1FFF, 0x0, 0x0⟩,
  ⟨"ENG_eee_BUSY_LO", .ro, 0x300010, [(256, 0x1000)], 0xFFFFFFFF, 0x0, 0x0⟩,
  ⟨"ENG_eee_BUSY_HI", .ro, 0x300014, [(256, 0x1000)], 0xFFFFFFFF, 0x0, 0x0⟩,
  ⟨"ENG_eee_JOBS", .ro, 0x300018, [(256, 0x1000)], 0xFFFFFFFF, 0x0, 0x0⟩,
  ⟨"CRW_ccc_CFG", .ro, 0x301800, [(128, 0x1000)], 0x9FF1FFFF, 0x0, 0x0⟩,
  ⟨"CRW_ccc_QCFG", .ro, 0x301804, [(128, 0x1000)], 0xFFF0FFF, 0x0, 0x0⟩,
  ⟨"CRW_ccc_HOSTQ", .ro, 0x301808, [(128, 0x1000)], 0xFFF, 0x0, 0x0⟩,
  ⟨"CRW_ccc_STAT", .ro, 0x30180C, [(128, 0x1000)], 0x801F03FF, 0x0, 0x0⟩,
  ⟨"CRW_ccc_JOBS", .ro, 0x301810, [(128, 0x1000)], 0xFFFFFFFF, 0x0, 0x0⟩,
  ⟨"CRW_ccc_MEMBER_m", .ro, 0x301840, [(128, 0x1000), (16, 0x4)], 0x8000FFFF, 0x0, 0x0⟩]

/-- Rows of the `QUE` space (R473). -/
def queRows : List RegRow := [
  ⟨"QUE_qqqq_CFG", .ro, 0x400000, [(4096, 0x100)], 0xFFFFFFFF, 0x0, 0x0⟩,
  ⟨"QUE_qqqq_BASE", .ro, 0x400004, [(4096, 0x100)], 0x1FFFF, 0x0, 0x0⟩,
  ⟨"QUE_qqqq_SIZE", .ro, 0x400008, [(4096, 0x100)], 0x3FFFF, 0x0, 0x0⟩,
  ⟨"QUE_qqqq_FILL", .ro, 0x40000C, [(4096, 0x100)], 0x8003FFFF, 0x0, 0x0⟩,
  ⟨"QUE_qqqq_HWM", .ro, 0x400010, [(4096, 0x100)], 0x3FFFF, 0x0, 0x0⟩,
  ⟨"QUE_qqqq_XOFF", .rw, 0x400014, [(4096, 0x100)], 0x3FFFF, 0x0, 0x0⟩,
  ⟨"QUE_qqqq_XON", .rw, 0x400018, [(4096, 0x100)], 0x3FFFF, 0x0, 0x0⟩,
  ⟨"QUE_qqqq_CTRL", .wo, 0x40001C, [(4096, 0x100)], 0x0, 0x0, 0x0⟩,
  ⟨"QUE_qqqq_DROP", .ro, 0x400020, [(4096, 0x100)], 0x80FFFFFF, 0x0, 0x0⟩,
  ⟨"QUE_qqqq_STALE", .ro, 0x400024, [(4096, 0x100)], 0x80FFFFFF, 0x0, 0x0⟩,
  ⟨"QUE_qqqq_PUSHES", .ro, 0x400028, [(4096, 0x100)], 0xFFFFFFFF, 0x0, 0x0⟩,
  ⟨"QUE_qqqq_PUSH_w", .wo, 0x400040, [(4096, 0x100), (4, 0x4)], 0x0, 0x0, 0x0⟩,
  ⟨"QUE_qqqq_POP_w", .ro, 0x400050, [(4096, 0x100), (4, 0x4)], 0xFFFFFFFF, 0x0, 0x0⟩]

/-- Rows of the `TAB` space (R473). -/
def tabRows0 : List RegRow := [
  ⟨"XTB_ENTRY_WORD", .rw, 0x800000, [(32768, 0x10), (4, 0x4)], 0xFFFFFFFF, 0x0, 0x0⟩,
  ⟨"STREAM_ENTRY_WORD", .ro, 0x880000, [(2048, 0x8), (2, 0x4)], 0xFFFFFFFF, 0x0, 0x0⟩,
  ⟨"XTB_STATUS_WORD", .ro, 0x884000, [(2048, 0x4)], 0xFFFFFFFF, 0x0, 0x0⟩,
  ⟨"XFORM_WORD", .rw, 0x900000, [(4096, 0x100), (64, 0x4)], 0xFFFFFFFF, 0x0, 0x0⟩,
  ⟨"FST_SLIP_nnnn_CFG", .ro, 0xA00000, [(1024, 0x40)], 0xFFFFF000, 0x0, 0x0⟩,
  ⟨"FST_SLIP_nnnn_ROWS", .ro, 0xA00004, [(1024, 0x40)], 0x1FFF1FFF, 0x0, 0x0⟩,
  ⟨"FST_SLIP_nnnn_GEOM", .ro, 0xA00008, [(1024, 0x40)], 0x73FFFFFF, 0x0, 0x0⟩,
  ⟨"FST_SLIP_nnnn_PITCH", .ro, 0xA0000C, [(1024, 0x40)], 0x3FF, 0x0, 0x0⟩,
  ⟨"FST_SLIP_nnnn_COMP", .sh, 0xA00010, [(1024, 0x40)], 0x3, 0x0, 0x0⟩,
  ⟨"FST_SLIP_nnnn_COMMIT", .wo, 0xA00014, [(1024, 0x40)], 0x0, 0x0, 0x0⟩,
  ⟨"FST_SLIP_nnnn_STAT", .ro, 0xA00018, [(1024, 0x40)], 0xF7FFFF87, 0x0, 0x0⟩,
  ⟨"FST_SLIP_nnnn_PERIOD", .ro, 0xA0001C, [(1024, 0x40)], 0xFFFFFFFF, 0x0, 0x0⟩,
  ⟨"FST_SLIP_nnnn_FILL", .ro, 0xA00020, [(1024, 0x40)], 0xFFFFFFFF, 0x0, 0x0⟩,
  ⟨"FST_SLIP_nnnn_CAP_STROKE", .ro, 0xA00024, [(1024, 0x40)], 0xFFFF, 0x0, 0x0⟩,
  ⟨"FST_SLIP_nnnn_CAP_OFS", .ro, 0xA00028, [(1024, 0x40)], 0x3FFFFFF, 0x0, 0x0⟩,
  ⟨"FST_SLIP_nnnn_SKIP", .ro, 0xA0002C, [(1024, 0x40)], 0x80FFFFFF, 0x0, 0x0⟩,
  ⟨"FST_SLIP_nnnn_INCOMPLETE", .ro, 0xA00030, [(1024, 0x40)], 0x80FFFFFF, 0x0, 0x0⟩,
  ⟨"FST_SLIP_nnnn_REPEAT", .ro, 0xA00034, [(1024, 0x40)], 0xFFFFFFFF, 0x0, 0x0⟩,
  ⟨"FST_SLIP_nnnn_UNUSED", .ro, 0xA00038, [(1024, 0x40)], 0xFFFFFFFF, 0x0, 0x0⟩,
  ⟨"FST_SLIP_nnnn_MOTION_FB", .ro, 0xA0003C, [(1024, 0x40)], 0xFFFFFFFF, 0x0, 0x0⟩,
  ⟨"MANIFEST_WORD", .ro, 0xA10000, [(1024, 0x20), (8, 0x4)], 0xFFFFFFFF, 0x0, 0x0⟩,
  ⟨"ICON_DIR_WORD", .ro, 0xA20000, [(256, 0x10), (4, 0x4)], 0xFFFFFFFF, 0x0, 0x0⟩,
  ⟨"COEF_WORD", .ro, 0xA30000, [(16, 0x800), (512, 0x4)], 0xFFFFFFFF, 0x0, 0x0⟩,
  ⟨"LGT_T_WORD", .ro, 0xA40000, [(1025, 0x4)], 0x1FFFF, 0x0, 0x0⟩,
  ⟨"ICON_STORE_WORD", .ro, 0xC00000, [(524288, 0x4)], 0xFFFFFFFF, 0x0, 0x0⟩,
  ⟨"XTB_CTRL", .rw, 0xFE0000, [], 0xFFFF, 0x0, 0x0⟩,
  ⟨"XTB_ARM_GROUP", .rw, 0xFE0004, [], 0xFFF, 0x0, 0x0⟩,
  ⟨"XTB_ARM_CTRL", .wo, 0xFE0008, [], 0x0, 0x0, 0x0⟩,
  ⟨"XTB_ARM_STAT", .ro, 0xFE000C, [], 0xC0FF0FFF, 0x0, 0x0⟩,
  ⟨"XTB_QUERY_IDX", .rw, 0xFE0010, [], 0x7FFF, 0x0, 0x0⟩]

/-- Rows of the `TAB` space (R473). -/
def tabRows1 : List RegRow := [
  ⟨"XTB_QUERY_STAT", .ro, 0xFE0014, [], 0xF8FFFFFF, 0x0, 0x0⟩,
  ⟨"XTB_GROUP_IDX", .rw, 0xFE0018, [], 0xFFF, 0x0, 0x0⟩,
  ⟨"XTB_GROUP_STAT", .ro, 0xFE001C, [], 0xE0FFFFFF, 0x0, 0x0⟩,
  ⟨"XTB_JOIN", .ro, 0xFE0020, [], 0xF00F, 0x0, 0x0⟩,
  ⟨"XTB_TAKE_CNT", .ro, 0xFE0024, [], 0xFFFFFFFF, 0x0, 0x0⟩,
  ⟨"XTB_REFUSE_CNT", .ro, 0xFE0028, [], 0x80FFFFFF, 0x0, 0x0⟩,
  ⟨"FST_BUDGET", .ro, 0xFE1000, [], 0x7F, 0x0, 0x46⟩,
  ⟨"FST_FREE", .ro, 0xFE1004, [], 0x1FFFFF, 0x0, 0x180000⟩,
  ⟨"FST_SLIPS", .ro, 0xFE1008, [], 0x7FF, 0x0, 0x0⟩,
  ⟨"FST_BANK_bbb_BEATS", .ro, 0xFE2000, [(256, 0x8)], 0xFFFFFFFF, 0x0, 0x0⟩,
  ⟨"FST_BANK_bbb_WAIT", .ro, 0xFE2004, [(256, 0x8)], 0xFFFFFFFF, 0x0, 0x0⟩]

/-- Rows of the `TAB` space (R473). -/
def tabRows : List RegRow := tabRows0 ++ tabRows1

/-- Rows of the `MSIX` space (R473). -/
def msixRows : List RegRow := [
  ⟨"MSIX_TABLE_WORD", .rw, 0x3000000, [(64, 0x10), (4, 0x4)], 0xFFFFFFFF, 0x0, 0x0⟩,
  ⟨"MSIX_PBA_WORD", .ro, 0x3001000, [(2, 0x4)], 0xFFFFFFFF, 0x0, 0x0⟩]

/-- The blocks of the first memory BAR: first address, last address, rows (R473, R475). -/
def regBlocks : List (Nat × Nat × List RegRow) := [
  (0x0, 0xFFFF, glbRows),
  (0x10000, 0x1FFFF, chtRows),
  (0x20000, 0x2FFFF, coxRows),
  (0x30000, 0x3FFFF, synRows),
  (0x40000, 0x4FFFF, thmRows),
  (0x50000, 0x5FFFF, pwrRows),
  (0x60000, 0x6FFFF, quayRows),
  (0x70000, 0x7FFFF, evtRows),
  (0x80000, 0x8FFFF, audRows),
  (0x90000, 0x9FFFF, lgtRows),
  (0xA0000, 0xAFFFF, nvsRows),
  (0xB0000, 0xBFFFF, fldRows),
  (0x100000, 0x1FFFFF, prtRows),
  (0x200000, 0x2FFFFF, hedRows),
  (0x300000, 0x3FFFFF, engRows),
  (0x400000, 0x4FFFFF, queRows),
  (0x800000, 0xFFFFFF, tabRows),
  (0x3000000, 0x3FFFFFF, msixRows)]

/-- The repeat numbers of an offset into a row, when the offset names a register of it. -/
def rowIndex : List (Nat × Nat) → Nat → Option (List Nat)
  | [], rel => if rel = 0 then some [] else none
  | (count, stride) :: ds, rel =>
    if rel / stride < count then (rowIndex ds (rel % stride)).map (rel / stride :: ·) else none

/-- The indices of address `a` in row `r`. -/
def RegRow.at? (r : RegRow) (a : Nat) : Option (List Nat) :=
  if r.base ≤ a then rowIndex r.dims (a - r.base) else none

/-- The first row of a list that holds address `a`, with the indices. -/
def findRow (a : Nat) : List RegRow → Option (RegRow × List Nat)
  | [] => none
  | r :: rs => match r.at? a with
    | some is => some (r, is)
    | none => findRow a rs

/-- The rows of the block that holds address `a`. -/
def rowsOf (a : Nat) : List (Nat × Nat × List RegRow) → List RegRow
  | [] => []
  | (b, e, rs) :: bs => if b ≤ a ∧ a ≤ e then rs else rowsOf a bs

/-- The addresses that the registers and band entries of the unused synthesizer index 7 would have (R79, R92). -/
def unusedSyn (a : Nat) : Bool := (0x302C0 ≤ a && a < 0x30300) || (0x34380 ≤ a && a < 0x34400)

/-- The register at an address, `none` at a reserved address (R9, R473). -/
def regRow? (a : Nat) : Option (RegRow × List Nat) := if unusedSyn a then none else findRow a (rowsOf a regBlocks)

/-- The capability list of R488: entry k has `ID` k + 1. -/
def capValues : List Nat := [
  512, 64, 7, 3, 32, 2048, 32768, 4096, 4096, 131072, 256, 128, 1024, 0x100, 64, 16, 256, 64,
  24000, 1024, 1572864, 1024, 512, 8, 64, 8, 48, 16, 2048, 1, 128, 6, 0x302, 4, 8, 8]

/-- `GLB_CAP_k` (R488). -/
def capReset (k : Nat) : Nat := (k + 1) * 0x1000000 + capValues.getD k 0

/-- The greatest x below 2^n with x^k at most `v`. -/
def rootBelow (k : Nat) : Nat → Nat → Nat
  | 0, _ => 0
  | n + 1, v =>
    let hi := rootBelow k n (v / 2 ^ k)
    if (2 * hi + 1) ^ k ≤ v then 2 * hi + 1 else 2 * hi

/-- Entry `i` of the default lighting transfer table (R359): (`i` / 1,024)^2.4 in 1/65,536. To which of the two nearest integers a
power between them goes the spec does not state. -/
def transferDefault (i : Nat) : Nat :=
  let x := rootBelow 5 17 (i ^ 12 / 2 ^ 40)
  if x ^ 5 * 2 ^ 40 = i ^ 12 then x else x + Config.unstated 29 i % 2

/-- What a register of the map holds after a reset that gives every field its reset value (R10); the values production
gives (`GLB_SERIAL`, `COX_TC_C`) are the module's own. PRESUMED (PCI Express Base 4.0): every MSI-X vector starts masked. -/
def regReset (a : Nat) : Word :=
  match regRow? a with
  | none => 0
  | some (r, is) =>
    if r.base = Reg.glbCap 0 then BitVec.ofNat 32 (capReset (is.headD 0))
    else if r.base = Reg.glbSerialLo then Config.serial.setWidth 32
    else if r.base = Reg.glbSerialHi then (Config.serial >>> 32).setWidth 32
    else if r.base = Reg.coxTcC 0 then Config.tcCoef (is.headD 0)
    else if r.base = Reg.msixTableWord 0 0 then if is.getD 1 0 = 3 then 1 else 0
    else if r.base = Reg.lgtTWord 0 then BitVec.ofNat 32 (transferDefault (is.headD 0))
    else BitVec.ofNat 32 r.reset

/-- Counters that `GLB_CNT_CLEAR` clears (R483): the first address of the row, and the bits of the count with `SAT` or `OVF`. -/
def counters0 : List (Nat × Nat) := [
  (0x20038, 0x8000FFFF),
  (0x30114, 0x8000FFFF),
  (0x10034, 0x8000FFFF),
  (0x100018, 0x80FFFFFF),
  (0x10001C, 0x8000FFFF),
  (0x100024, 0xBFFFFFFF),
  (0x100028, 0xFFFFFFFF),
  (0x10002C, 0xFFFFFFFF),
  (0x100708, 0x80FFFFFF),
  (0x10070C, 0x80FFFFFF),
  (0x10008C, 0x8000FFFF),
  (0x100090, 0x80FFFFFF),
  (0x100094, 0x80FFFFFF),
  (0x100098, 0x80FFFFFF),
  (0x10009C, 0x8000FFFF),
  (0x1000A4, 0x80FFFFFF),
  (0x1000A8, 0x8000FFFF),
  (0x1000AC, 0x8000FFFF),
  (0x100108, 0xFFFFFF),
  (0xFE0024, 0xFFFFFFFF),
  (0xFE0028, 0x80FFFFFF),
  (0x400020, 0x80FFFFFF)]

/-- Counters that `GLB_CNT_CLEAR` clears (R483): the first address of the row, and the bits of the count with `SAT` or `OVF`. -/
def counters1 : List (Nat × Nat) := [
  (0x400024, 0x80FFFFFF),
  (0x400028, 0xFFFFFFFF),
  (0xA0002C, 0x80FFFFFF),
  (0xA00030, 0x80FFFFFF),
  (0xA00034, 0xFFFFFFFF),
  (0xA00038, 0xFFFFFFFF),
  (0xA0003C, 0xFFFFFFFF),
  (0xFE2000, 0xFFFFFFFF),
  (0xFE2004, 0xFFFFFFFF),
  (0x300810, 0x80FFFFFF),
  (0x300814, 0x80FFFFFF),
  (0x300818, 0x80FFFFFF),
  (0x30081C, 0x80FFFFFF),
  (0x300820, 0xFFFFFFFF),
  (0x300824, 0xFFFFFFFF),
  (0x300828, 0xFFFFFFFF),
  (0x300010, 0xFFFFFFFF),
  (0x300014, 0xFFFFFFFF),
  (0x300018, 0xFFFFFFFF),
  (0x301810, 0xFFFFFFFF),
  (0x200068, 0xFFFFFFFF),
  (0x20006C, 0x80FFFFFF)]

/-- Counters that `GLB_CNT_CLEAR` clears (R483): the first address of the row, and the bits of the count with `SAT` or `OVF`. -/
def counters2 : List (Nat × Nat) := [
  (0x201028, 0x80FFFFFF),
  (0x20102C, 0x80FFFFFF),
  (0x20008C, 0x8000FFFF),
  (0x20301C, 0x8000FFFF),
  (0x80014, 0xFFFFFFFF),
  (0x80018, 0x80FFFFFF),
  (0x8202C, 0xFFFFFFFF),
  (0x8A00C, 0x8000FFFF),
  (0x8B008, 0x80FFFFFF),
  (0x8B00C, 0xFFFFFFFF),
  (0x8C014, 0xFFFFFFFF),
  (0x9003C, 0xFFFFFFFF),
  (0x90114, 0x8000FFFF),
  (0x40024, 0xFFFFFFFF),
  (0x6000C, 0xFFFFFFFF),
  (0x60010, 0x80FFFFFF),
  (0x60014, 0x80FFFFFF),
  (0x6041C, 0xFFFFFFFF),
  (0x70004, 0x8000FFFF),
  (0x71014, 0x80FFFFFF),
  (0x20108, 0xFF0000)]

/-- Every such counter but those of the light die (R483). -/
def counters : List (Nat × Nat) := counters0 ++ counters1 ++ counters2

/-- First addresses of the rows whose names end in `_LO` beside a `_HI` at the address plus 4 (R477). -/
def loBases : List Nat := [0x10, 0x18, 0x10010, 0x10020, 0x10048, 0x10050, 0x34000, 0x40018, 0x60408, 0x60410, 0x71000, 0x71018, 0x90030, 0xB1000, 0x100028, 0x200010, 0x203F00, 0x200098, 0x300010]

/-- The register at `a` is the `_LO` half of a 64-bit register (R477). -/
def isLo (a : Nat) : Bool := match regRow? a with | some (r, _) => loBases.contains r.base | none => false

end Sys2Proof.Machine
end

