-- ==== Sys2Proof/Machine/State.lean ====
section
/-! DEFINITION. The state of the DGX-512 as plain data: the register file of the first memory BAR (R473 to R475), the
memories of the quay's address space (R446), and, block by block, the state the spec gives the device beside its
registers; the queue of waiting commands; the reasons a step stops; the state right after power-on. -/

namespace Sys2Proof.Machine

/-- The device's clock: the model's time, the stroke and the rate in force (R13, R73, R522). Times are in units of 50 ps, the
resolution at which a boundary is placed (R73). -/
structure Clock where
  /-- time since `VDD_LD` rose, the model's own time base -/
  time     : Nat
  /-- the time at which the last stroke boundary fell (R523) -/
  boundary : Nat
  /-- the 48-bit stroke number of `STROKE_LO` and `STROKE_HI` (R13) -/
  stroke   : Stroke
  /-- the stroke rate in force, numerator in Hz and denominator (R522) -/
  rateNum  : Nat
  rateDen  : Nat
  /-- the chart's design rate, numerator and denominator, that takes effect at the next boundary (R522) -/
  rateNext : Option (Nat × Nat)
  /-- the length of the stroke in progress, stepped and slewed as R65 and R68 say -/
  len      : Nat
  /-- the fractional accumulator: what the boundaries placed so far owe the exact rate, in 1 / `rateNum` of a unit (R73) -/
  acc      : Nat
  /-- the counter of the free values (the model's own field, no state of the device) -/
  free     : Nat
deriving DecidableEq, Repr

/-- The output pins that no register reports whole (R74, R75, R316, R369, R469, R441). -/
structure Pins where
  coxLock  : Bool
  coxHold  : Bool
  coxAlarm : Bool
  coxSel   : Nat
  syncOut0 : Bool
  syncOut1 : Bool
  /-- the `PWR_EN_n` outputs that are high (R427) -/
  pwrEn    : List Nat
  /-- input levels: the `PG_IN_n` that read good, `WAKE` accepted active, `RESET_N` high, `PFI_N` high -/
  pgIn     : List Nat
  wake     : Bool
  resetN   : Bool
  pfiN     : Bool
  /-- the TAP controls the pads of the ports (R119); a reset of the matrix die leaves the TAP as it is (R441) -/
  extest   : Bool
  /-- the straps `CHT_SRC` [1:0] and `MG_ADDR` [3:2] as sampled at the last reset release (R35, R442) -/
  straps   : Nat
deriving DecidableEq, Repr

/-- One entry of the segment directory (R27). -/
structure DirEntry where
  typ    : Nat
  order  : Nat
  offset : Nat
  length : Nat
  crc    : Nat
deriving DecidableEq, Repr

/-- The chart header fields the device keeps (R25). -/
structure Header where
  minor     : Nat
  major     : Nat
  deviceId  : Nat
  flags     : Nat
  chartId   : Nat
  baseId    : Nat
  strokeNum : Nat
  strokeDen : Nat
  segCount  : Nat
  totalLen  : Nat
  dirCrc    : Nat
deriving DecidableEq, Repr

/-- What the loader is doing (R36, R41): nothing, waiting for a push or a pull, reading the header, reading the segment with
an `ORDER`, placing it, waiting for the boundary that enters RUNNING, or ended. -/
inductive LoadPhase where
  | idle | waiting | header | reading (order : Nat) | placing (order : Nat) | lastPlaced | ended
deriving DecidableEq, Repr

/-- An amendment from the write of `GO` on (R46, R47): the path, the latched take-stroke, segments read once more under R32,
and, once staged, its image. -/
structure Amendment where
  path  : Nat
  take  : Nat
  image : List Byte
  staged : Bool
  /-- the types of the segments that have been read once more -/
  reread : List Nat
  /-- the guard in 0.1 % and `MTAGS` of a replacement manifest (R223, R232) -/
  guard  : Nat
  mtags  : Nat
deriving DecidableEq, Repr

/-- The chart loader beside its registers (R24 to R49). -/
structure LoaderSt where
  phase     : LoadPhase
  hdr       : Option Header
  /-- the header and directory as they were read (R33) -/
  head      : List Byte
  dir       : List DirEntry
  /-- the segment in progress has been read once more under R32 -/
  reread    : Bool
  /-- the records of the segment read last, from its checks to its placement (R30) -/
  content   : Option SegContent
  /-- memory that segments have filled: segment type, in the frame store or in working memory, address, bytes (R38, R43) -/
  filled    : List (Nat × Bool × Nat × Nat)
  /-- the transform stages that `FIRST_LIGHT` allots (R38) -/
  flStages  : List Nat
  /-- the bytes of the push buffer, oldest first (R36) -/
  push      : List Byte
  /-- bytes the loader has taken from the push buffer for the part it reads -/
  rx        : List Byte
  /-- the per-segment digests of `TRUST`, in directory order of the other segments (R33) -/
  digests   : List (List Byte)
  /-- the field-unit trust anchors of the running chart (R33) -/
  anchors   : List (List Byte)
  /-- the SHA-256 of the running `FIRST_LIGHT` segment (R38) -/
  flDigest  : Option (List Byte)
  /-- the state that GOLDEN's `FIRST_LIGHT` puts in place at the next boundary (R38) -/
  flNext    : Option SegContent
  /-- crossings of GOLDEN's later segments whose entries PRIMARY's first-light state still holds (R38): entry and words -/
  crossWait : List (Nat × Word × Word × Word × Word)
  /-- the SHA-256 of the `FIRST_LIGHT` segment last read (R38) -/
  flRead    : Option (List Byte)
  /-- what segments have placed, as segment type, address and word (R38: at the turn to GOLDEN it is as if never placed) -/
  placed    : List (Nat × Nat × Word)
  /-- `CHT_EARLY_WRITE` has been raised in this load (R42) -/
  early     : Bool
  /-- the one-time-programmable chart key hash and `TEST_KEY_OK` (R34) -/
  otpHash   : Option (List Byte)
  otpTest   : Bool
  /-- the words written to `CHT_OTP_DATA`, oldest first (R49) -/
  otpData   : List Word
  /-- the time of the first write of the OTP and of the GOLDEN key sequence (R34, R39) -/
  otpKeyAt  : Option Nat
  flashKeyAt : Option Nat
  /-- the chart-flash address of the sector that a program operation has opened (R39) -/
  flashOpen : Option Nat
  /-- the amendment being staged or staged (R46, R47) -/
  amd       : Option Amendment
deriving DecidableEq, Repr

/-- A reference beside its registers (R53 to R60). -/
structure RefSt where
  /-- the last valid QL message and how many valid messages in a row carried it (R55) -/
  lastQl   : Nat
  qlRun    : Nat
  /-- a pin QL is in force, or was until `COX_QL_TIMEOUT` (R55) -/
  pinQl    : Option Nat
  /-- consecutive clean gates while disqualified (R60) and gates inside the soft window while in soft alarm (R58) -/
  clean    : Nat
  softOk   : Nat
  /-- activity was present throughout the gate in progress (R60) -/
  gateOk   : Bool
deriving DecidableEq, Repr

/-- A reference switch in progress: its target, the stroke of R64 it is in (1 or 2), the measured offset, and whether the
target is still fit to close on (R66). -/
structure Switch where
  target : Nat
  phase  : Nat
  offset : Int
  fit    : Bool
deriving DecidableEq, Repr

/-- The Cox beside its registers (R51 to R76). -/
structure CoxSt where
  refs      : NMap RefSt
  switch    : Option Switch
  /-- the reference to which a switch, or a move of the acquisition, starts at the next boundary (R63) -/
  due       : Option Nat
  /-- a `COX_SEL` write waits for the switch to end (R66); a `MODE` change waits in its register -/
  storedSel : Bool
  /-- the references whose QL fell while the switch in progress ran (R66) -/
  storedFall : List Nat
  /-- a switch ended without closing: the loop stays held at the old control value (R66) -/
  held      : Bool
  /-- the reference whose wait-to-restore timer runs (R63) -/
  wtr       : Option Nat
  /-- consecutive gates that met the lock condition (R68) -/
  lockGates : Nat
  /-- the time spent in LOCKED since the last reset, up to the last boundary, in 50 ps units (R69) -/
  lockedTime : Nat
  /-- the control value of each gate spent in LOCKED, newest first (R70) -/
  history   : List Int
  /-- the loop's control value in ppt -/
  ctrl      : Int
  /-- the part of a slew not yet applied, in 50 ps units (R65) -/
  slewLeft  : Int
  /-- the part of a 50 ps unit that the slew has earned and not applied, in 10^-9 of it -/
  slewAcc   : Nat
  /-- the time up to which the slew has been applied -/
  slewAt    : Nat
  /-- an entry into LOCKED asks for the leader's number at the next boundary; the number that the markers give that boundary (R76) -/
  adopt     : Bool
  adoptNum  : Option Stroke
  /-- the last compared marker mismatched (R76) -/
  mismatch  : Bool
  /-- the device entered FAILED: FREE_RUN at the next boundary (R69) -/
  failDue   : Bool
  /-- the last steering sum was clipped (R71) -/
  clipped   : Bool
  /-- every sensor of the compensation was broken at the last update (R72) -/
  tcLost    : Bool
deriving DecidableEq, Repr

/-- A synthesizer beside its registers (R79 to R91): the `REFMOD` taken at its last acquisition, whether `SYN_BAND_STALE` was
raised since, the throttle's divider, the temperature range of the entry it acquired on in °C, chart entries in place of the
boot ROM's, an acquisition that `RELOCK` started, its domains stopped at their safe points, and a lock since they stopped. -/
structure SynSt where
  refmod : Nat
  stale  : Bool
  half   : Bool
  range  : Int × Int
  chart  : Bool
  relock : Bool
  halted : Bool
  again  : Bool
deriving DecidableEq, Repr

/-- What the `STRUCTURE` and `FIRST_LIGHT` segments say of a port beside its register (R104, R113, R126): the features required,
whether `FIRST_LIGHT` names it, and the narrow modes by width: each stream kept, or replaced by a substitute. -/
structure PortCfg where
  needs      : Nat
  firstLight : Bool
  narrow     : NMap (List (Nat × Option Nat))
deriving DecidableEq, Repr

/-- A restriping that a lead port has sent (R113, R114, R148): `NARROW` or `WIDEN`, the new width and active lanes, the boundary
from which it applies, and whether the far end's echo has come. -/
structure Offer where
  widen  : Bool
  width  : Nat
  mask   : Nat
  stroke : Nat
  echoed : Bool
deriving DecidableEq, Repr

/-- A rate step in progress (R105, R148): the rate code, the boundary offered, whether both ends have agreed on it, and whether
both ends have changed rate. -/
structure StepSt where
  rate    : Nat
  stroke  : Nat
  agreed  : Bool
  changed : Bool
deriving DecidableEq, Repr

/-- What a transaction serves (R133, R146, R149, R152, R186, R381). -/
inductive XactUse where
  | host | pull | roughWater | ident (part : Nat) | writeBack (part : Nat) | joinHold | glass
deriving DecidableEq, Repr

/-- A transaction the device has issued and holds outstanding (R141, R143): the request repeats bit for bit. -/
structure Xact where
  tag   : Nat
  use   : XactUse
  msg   : List Byte
  retries : Nat
deriving DecidableEq, Repr

/-- A transaction that waits until the rules of R141 let it be issued: its use, operation, address, length in bytes and data. -/
structure XactWait where
  use  : XactUse
  op   : Nat
  addr : Nat
  len  : Nat
  data : List Byte
deriving DecidableEq, Repr

/-- An entry of the replay cache (R142): tag, CRC-32 of the request, and the response once it is done. -/
structure CacheEnt where
  tag  : Nat
  crc  : Nat
  resp : Option (List Byte)
deriving DecidableEq, Repr

/-- The reorder window of a stream (R136): the highest `SEQ` accepted, bit i for the arrival of H - i, and how far H has moved
since the packet that set it, up to 31 (R138: what came before that packet is not known lost). -/
structure Window where
  high : Nat
  seen : Nat
  age  : Nat
deriving DecidableEq, Repr

/-- The rough water of one direction of a port (R150): packets counted towards `DROP_N`, packets of each stream counted towards
the 64 of `DELAY`, packets held back with the count of packets of the stream still to pass and their mark as bad or poisoned, markers left to drop. -/
structure RoughSt where
  count   : Nat
  streams : NMap Nat
  held    : List (Nat × Nat × Bool × List Byte)
  markers : Nat
deriving DecidableEq, Repr

/-- A port beside its registers (R94 to R153); what concerns a bonded group stands at its lead port. -/
structure PortSt where
  cfg      : PortCfg
  /-- this lane has completed the rung that its group is on (R107) -/
  laneDone : Bool
  /-- the running disparity of the transmit lane is positive (R96) -/
  disp     : Bool
  /-- the buoys that the group has sent, modulo 2^16, and the symbols sent since the last (R98, R110) -/
  buoys    : Nat
  buoyAcc  : Nat
  /-- the lane index that the last buoy on this lane carried, and its count (R98, R110); none: no buoy since DETECT -/
  place    : Option Nat
  farBuoy  : Nat
  /-- the lane index whose opposite lane carries the back channel (R95) -/
  back     : Nat
  /-- a buoy has arrived in this TRAIN (R110, R125), and the group has aligned on buoys since a lane was lost (R112) -/
  buoy     : Bool
  /-- the climb began in DETECT, so the identity record is read on entry into RUN (R146) -/
  climb    : Bool
  /-- training leads back to RUN (R101, R103, R105), and it followed a loss of lock in RUN (R101) -/
  retrain  : Bool
  relock   : Bool
  /-- the port resumes at the next boundary (R101, R112) -/
  resumeDue : Bool
  /-- boundaries since the first lane loss (R113, R114) -/
  lossAge  : Option Nat
  /-- the group has widened at the last boundary and repeats one frame (R114) -/
  widening : Bool
  /-- the restriping that this lead port has sent, and the one of the far end that it has echoed (R113, R114, R148) -/
  offer    : Option Offer
  farOffer : Option Offer
  /-- lane index 0 runs alone (R125) -/
  alone    : Bool
  /-- the far end's last valid `NEG`, one with `ACK` received, one with `ACK` sent (R123) -/
  neg      : Option (List Byte)
  rxAck    : Bool
  txAck    : Bool
  /-- the rate step in progress (R105, R148) -/
  step     : Option StepSt
  /-- the rate at which a step failed and is tried again (R106) -/
  failRate : Option Nat
  /-- the attempts at the step to each rate that have failed since the count was cleared (R106) -/
  tries    : NMap Nat
  /-- the synthesizer B of its octet feeds it, or A; none: no segment has said so yet (R80) -/
  synB     : Option Bool
  /-- the transmitter is in electrical idle, the port's receive direction idles, this lane's receiver is squelched (R102, R103) -/
  txIdle   : Bool
  rxIdle   : Bool
  rxQuiet  : Bool
  /-- its synthesizer stopped it (R88) -/
  halted   : Bool
  /-- the reorder window of each receive stream (R136) -/
  windows  : NMap Window
  /-- the tag of the next transaction (R141) -/
  nextTag  : Nat
  /-- the transactions outstanding, oldest first (R143) -/
  xacts    : List Xact
  /-- the transactions that wait to be issued, oldest first (R141) -/
  waits    : List XactWait
  /-- the replay cache, oldest entry first (R142) -/
  cache    : List CacheEnt
  /-- phase pull: the setting in force, a change of it due at the next boundary, strokes in and out of the windows, the error
  reported in this stroke (R133, R134) -/
  pull     : Word
  pullDue  : Bool
  pullGood : Nat
  pullBad  : Nat
  pullNow  : Option Int
  /-- rough water: the time of the first key word, receive and transmit faults (R149, R150) -/
  keyAt    : Option Nat
  roughRx  : RoughSt
  roughTx  : RoughSt
  /-- `SEQ` of the next packet of each transmit stream (R128) -/
  txSeq    : NMap Nat
  /-- streams from which a packet came in this stroke, and in the stroke before (R175) -/
  heard    : List Nat
  /-- markers missing in a row (R53, R132) -/
  missRun  : Nat
  /-- the far-end address space this port offers, by address (R145) -/
  far      : NMap Byte
  /-- the parts of the far end's identity record read so far (R146) -/
  ident    : NMap (List Byte)
deriving DecidableEq, Repr

/-- The eye monitor of an octet (R116): a host scan in progress; it stands suspended while a STEP of the octet needs the
monitor. -/
structure EyeSt where
  scan : Bool
deriving DecidableEq, Repr

/-- The ports of the device. -/
structure PrtSt where
  ports : NMap PortSt
  eyes  : NMap EyeSt
  /-- read-back receivers whose counts have risen in this stroke, and those that `FIRST_LIGHT` assigned (R117, R118) -/
  rbRise   : List Nat
  rbLocked : List Nat
deriving DecidableEq, Repr

/-- The state of a crossing entry (R162). -/
inductive EntState where
  | empty | pending | taken | held
deriving DecidableEq, Repr

/-- A crossing entry beside its words (R162, R189). -/
structure EntSt where
  state     : EntState
  reason    : Nat
  stroke    : Nat
  degraded  : Bool
  /-- the reason of the degradation last reported -/
  lack      : Nat
  slipPath  : Bool
  suspended : Bool
  /-- waits to be taken: ungrouped and armed by its own word 3, or written by the chart (R164, R166) -/
  armed     : Bool
  chart     : Bool
  /-- a boundary has considered it since it was armed (R167); strokes held (R170) -/
  seen      : Bool
  heldFor   : Nat
deriving DecidableEq, Repr

/-- The state of a group (R189). -/
inductive GrpState where
  | none | pending | armed | held | taken | refused
deriving DecidableEq, Repr

/-- A group (R164, R167 to R170, R186). -/
structure GrpSt where
  state   : GrpState
  reason  : Nat
  stroke  : Nat
  seen    : Bool
  heldFor : Nat
  /-- the take-strokes of the `JOIN_HOLD` received or sent for it, and of the one forwarded (R186) -/
  joinHold : Option Nat
  forwarded : Option Nat
  /-- its part passed its check two strokes before the take-stroke; the take-stroke of the part taken (R187) -/
  passed   : Bool
  took     : Nat
deriving DecidableEq, Repr

/-- The Crossing Table beside its words (R154 to R178). -/
structure XtbSt where
  ents   : NMap EntSt
  grps   : NMap GrpSt
  /-- words 0 to 2 of an entry as they arrived (R163), by register address -/
  words  : NMap Word
  /-- the source streams that stand stopped (R175) -/
  stopped : List Nat
  /-- outgoing streams without a crossing that do not fit their port (R178) -/
  shut    : List Nat
  /-- destinations, as kind × 2,048 + number, to which `STRUCTURE` allots a transform stage (R277) -/
  stages  : List Nat
  /-- the last five lines of the window of a live crossing through a transform stage, or of part of its source's width, by entry × 8 +
  line modulo 5, each with its line and words (R277) -/
  rows    : NMap (Nat × List Lane)
  /-- by entry: the frame count of such a crossing's source, and the lines of its window still to be delivered, each with the parts
  that have come (R130, R136) -/
  open_   : NMap (Nat × List (Nat × Nat))
  /-- by entry: the lines of the frame's window that have gone on through a transform stage, as 1 + the last (R137) -/
  passed  : NMap Nat
  /-- layers, by number, that turn off while no crossing feeds them: `BLANK_ON_LOSS` of the last (R171, R175) -/
  blanks  : List Nat
deriving DecidableEq, Repr

/-- Where a descriptor that waits at a queue's input comes from: the dispatcher, a crew that divides its job, an engine or crew whose
job is over, held with its `DONE`, or any other producer, the host among them. -/
inductive PushFrom where
  | outside | dispatcher | crew
  | ended (crew : Bool) (target : Nat)
deriving DecidableEq, Repr

/-- A descriptor that waits at the input of a queue (R182, R184, R220), with its place in the order of all pushes. -/
structure Push where
  desc  : Rec
  order : Nat
  by_   : PushFrom
deriving DecidableEq, Repr

/-- A queue beside its registers (R179 to R184): the descriptors held, oldest first; back-pressure asserted; a drop already
reported in this stroke; the host's push words 0 to 2; and the pushes held back, oldest first. -/
structure QueSt where
  held   : List Rec
  xoff   : Bool
  told   : Bool
  words  : NMap Word
  waits  : List Push
deriving DecidableEq, Repr

/-- What a frame slot holds (R199). -/
inductive SlotState where
  | empty | filling | complete
deriving DecidableEq, Repr

/-- A frame slot of a slip (R199 to R202): its state, the coding its lines were written with, the capture phase as a stroke
number and an offset in 50 ps, whether it is known yet, the frame sequence, the `FRAME` count, the time of its last packet, the readers that pin it, whether a
reader has ever selected it, and, for a coded frame, the words its lines decode to, by line × 32 + block. -/
structure SlotSt where
  state    : SlotState
  comp     : Nat
  capStroke : Nat
  capOfs   : Nat
  capTime  : Nat
  phased   : Bool
  seq      : Nat
  frame    : Nat
  lastAt   : Nat
  pins     : List Nat
  selected : Bool
  coded    : NMap (List Lane)
deriving DecidableEq, Repr

/-- A slip beside its registers (R194 to R209). -/
structure SlipSt where
  slots    : NMap SlotSt
  nextSeq  : Nat
  /-- the last eight intervals between capture phases and times from capture to COMPLETE, newest first, in 50 ps (R206) -/
  periods  : List Nat
  fills    : List Nat
  lastCap  : Option Nat
  /-- the `FRAME` count of an incoming frame that is being discarded whole (R200) -/
  skipping : Option Nat
  /-- the `FRAME` count of the frame completed last, while the writer has followed the source since (R199) -/
  lastFrame : Option Nat
  /-- `FST_WRITE_SKIP` and `FST_MOTION_FALLBACK` have been raised in this stroke -/
  skipTold : Bool
  motionTold : Bool
  /-- a boundary from which a frame's capture phase must fall for it to be written (R199) -/
  writeFrom : Nat
deriving DecidableEq, Repr

/-- A frame, or a pair with its weight in 1/1,024, that a reader has selected (R205, R207, R208). -/
structure Pick where
  slip   : Nat
  newer  : Nat
  older  : Nat
  weight : Nat
  /-- the sequence number of the newer frame, by which a repeat is known (R205) -/
  seq    : Nat
  motion : Bool
  /-- under `MOTION`, the byte address of the vector record and the lowest confidence used (R208) -/
  vecs   : Nat
  conf   : Nat
deriving DecidableEq, Repr

/-- What a Jikin engine waits for in the middle of an instruction (R254 to R257, R260, R263): a `QIN` with the line it gathers, a
`LDP`, a `QWAIT`, a `JEND`, or a `QOUT` or `TSIG` held by back-pressure; with the instruction's fields as a word. The last stands for a
job that is over, held until its `DONE` finds room (R182). -/
inductive EngWait where
  | qin (word : BitVec 64) (words : Nat) (started : Bool) (status : Word)
  | ldp (word : BitVec 64)
  | qwait
  | jend (result : Nat)
  | qout (word : BitVec 64)
  | tsig (word : BitVec 64)
  | done
deriving DecidableEq, Repr

/-- A hardware loop (R259): the addresses of its body's first instruction and of the one after its last, and the runs left. -/
structure LoopSt where
  start : Nat
  stop  : Nat
  left  : Nat
deriving DecidableEq, Repr

/-- A `QOUT` issued and not yet landed (R256): slip, slot, line, word offset, words, and the queue for its descriptors. -/
structure Posted where
  slip  : Nat
  slot  : Nat
  line  : Nat
  off   : Nat
  words : List Lane
  /-- the queue of its `LINE` descriptors, and those still to be pushed -/
  queue : Nat
  descs : List Rec
deriving DecidableEq, Repr

/-- An engine (R216, R242, R243): the job it holds, the architectural registers, the loop stack, innermost first, what it waits
for, and what it has posted. -/
structure EngSt where
  job     : Option Rec
  v       : NMap (List Lane)
  a       : NMap (List Acc)
  s       : NMap Word
  pc      : Nat
  loops   : List LoopSt
  wait    : Option EngWait
  posted  : List Posted
  takenAt : Nat
  /-- the job has been stopped (R219, R239) -/
  stopped : Bool
  /-- a stopped engine has instructions of its bundle left to retire (R219) -/
  mid     : Bool
  /-- the job has been cancelled while its last bundle retires (R219, R234), with the output slot it held -/
  cut     : Option (Option (Nat × Nat))
  /-- entry addresses of the kernels loaded on it, by kernel (R217) -/
  kernels : NMap Nat
  /-- host and DMA writes to its data region that wait for it (R218), oldest first -/
  held    : List (Nat × List Byte)
deriving DecidableEq, Repr

/-- A crew (R227 to R229): the job it holds, the members still at work as `IS_CREW` and number, with the range each was given,
what the others reported, as status, throttled and result, and whether its job is over and held until
its `DONE` finds room (R182). -/
structure CrwSt where
  job   : Option Rec
  parts : List (Bool × Nat × Nat × Nat)
  left  : List (Bool × Nat)
  done  : List (Nat × Bool × Nat)
  due   : Bool
deriving DecidableEq, Repr

/-- A job in flight (R223): the target as crew or engine, its `JOB`, its manifest record, the output slot it claimed, throttle
seen, whether its target was busy when it was dispatched, and whether it has started (R233). -/
structure Flight where
  crew   : Bool
  target : Nat
  desc   : Rec
  record : Option Nat
  out    : Option (Nat × Nat)
  throttled : Bool
  behind : Bool
  ran    : Bool
deriving DecidableEq, Repr

/-- The engines, crews and the dispatcher beside their registers (R216 to R241). -/
structure JikSt where
  engs   : NMap EngSt
  crews  : NMap CrwSt
  /-- jobs in flight, by tag -/
  flight : NMap Flight
  /-- the guard interval runs (R232) -/
  guard  : Bool
  /-- output slots of faulted jobs, emptied at the deadline (R234) -/
  void   : List (Nat × Nat)
  /-- jobs that ended `OK` and jobs cancelled in this stroke (R240) -/
  okNow  : Nat
  cutNow : Nat
  /-- `ENG_NO_INPUT` has been raised in this stroke (R231) -/
  noInput : Bool
  /-- the records whose `START` has come in this stroke (R231) -/
  ran    : List Nat
  /-- pushes held back so far (R220) -/
  pushes : Nat
deriving DecidableEq, Repr

/-- The format of a source and the window of it that a layer shows. -/
structure View where
  fmt : Nat
  x   : Nat
  y   : Nat
  w   : Nat
  h   : Nat
deriving DecidableEq, Repr

/-- What a layer shows of its source (R285, R287): nothing, the lines as they arrive, or a frame it has selected, through the window it
was selected for. -/
inductive LayShow where
  | nothing | live | frame (p : Pick) (v : View)
deriving DecidableEq, Repr

/-- A line by planes: Y, Cb and Cr; with `half`, chroma at half the width, sited with the even pixels (R273). -/
structure Planes where
  y    : List Nat
  cb   : List Nat
  cr   : List Nat
  half : Bool
deriving DecidableEq, Repr

/-- A row of a layer's line buffer (R275, R276): the window line it holds, whether that line is complete in it, the source's words as
they stand in it, and the line converted and scaled to the layer's width. -/
structure RowSt where
  line  : Nat
  full  : Bool
  words : List Lane
  px    : Planes
deriving DecidableEq, Repr

/-- A layer slot of a head beside its registers (R276, R285 to R292): what the last flip decided and what the frame in progress
shows; the gangway value at the last flip; whether `LAYER_HELD` has been raised since; a path moved to a landing slip that has
not shown a frame since; the five rows of its line buffer by number; the `FRAME` of the live source's frame that is arriving, with the
first line of its window that is not complete; crabbed in this frame; under the tide mark (R291); it has contributed to this frame; the
window through which it last showed a live source; a flip point has come since the frame in progress started (R201); the last boundary
at which its source stood stopped, before which no frame counts (R175). -/
structure LaySt where
  next  : LayShow
  now   : LayShow
  gwy   : Nat
  told  : Bool
  moved : Bool
  rows  : NMap RowSt
  frame : Option (Nat × Nat)
  crab  : Bool
  tide  : Bool
  shown : Bool
  view  : View
  flipped : Bool
  back  : Nat
deriving DecidableEq, Repr

/-- A compared frame whose verdict is not final (R312 to R315): its stroke, the regions and cells that failed, the timing fault, a
`GLASS` message awaited, the level of its checks, the bits of `WATCH_AVAIL`, and the signatures of its regions. -/
structure WFrame where
  stroke : Nat
  bad    : Nat
  cells  : Nat
  timing : Bool
  waitC  : Bool
  level  : Nat
  avail  : Nat
  sigs   : NMap Nat
deriving DecidableEq, Repr

/-- A composition head beside its registers (R265 to R326). -/
structure HeadSt where
  /-- a frame is in progress, its first line has started, its gate line has passed -/
  scan    : Bool
  started : Bool
  gated   : Bool
  /-- the frame in progress is mute; the next one is (R293, R38) -/
  mute     : Bool
  muteNext : Bool
  /-- the frames of its schedule that have not started: the time of the boundary from which each counts, and its place in the group
  (R269, R523) -/
  due     : List (Nat × Nat)
  /-- the stroke at which the frame started, its `V_TOTAL`, and the time at which it ends as its timing has it (R296) -/
  stroke  : Nat
  lines   : Nat
  endAt   : Nat
  /-- a crab has been reported in this frame (R292) -/
  crabTold : Bool
  /-- `SEQ` of a commit that waits (R281) -/
  pend    : Option Nat
  /-- the trim of the divider's fraction, in ppm (R269) -/
  trim    : Int
  /-- the layers by slot (R285) -/
  lays    : NMap LaySt
  /-- CRC-32 in progress, of region r under r and of icon i under 16 + i (R311) -/
  sigs    : NMap Word
  /-- maximum, sum and count of Y in each zone so far (R280) -/
  zones   : NMap (Nat × Nat × Nat)
  /-- icons that the frame shows with their ON image; the stroke from which each blinks; blinks that start with the next frame -/
  onIcons : List Nat
  blink   : NMap Nat
  blinkNew : List Nat
  /-- the compensation gains of its zones that the frame in progress uses, in 1/1,024 (R360) -/
  gains   : NMap Nat
  /-- a read-back receiver lacked `SYNC` in this frame (R313); the packets of the frame, by line and part, whose words the receivers
  have not decoded (R312); `WATCH_TIMING` was in force in it (R315) -/
  rbOut   : Bool
  rbMiss  : List (Nat × Nat)
  late    : Bool
  /-- a `GLASS` message of the frame in progress that came before its gate line: its mask and its signatures by region (R312) -/
  glass   : Option (Nat × NMap Nat)
  /-- the low bits of the stroke of the last compared frame (R323) -/
  seen    : Option Nat
  /-- the clean frames in a row (R316) and the frames in a row at the target (R314) -/
  clean   : Nat
  atTarget : Nat
  /-- the compared frames whose verdict is not final, oldest first (R315, R316) -/
  frames  : List WFrame
deriving DecidableEq, Repr

/-- The heads, the synchronised commit in progress with the heads whose shared gate line has come (R284), and the icon-store
images known to hold an uncorrectable error (R304). -/
structure HedSt where
  heads : NMap HeadSt
  sync  : Option (List Nat)
  ready : List Nat
deriving DecidableEq, Repr
/-- An outgoing stream that is read from a slip (R155, R178, R201): the frame selected for it, the next line and packet of that
frame to send, and its frame count. -/
structure EgrSt where
  show_ : Option Pick
  /-- the frame selected while the one before is still being sent; the frame sent last; the boundary at which the source stood stopped,
  before which no frame counts (R175, R201, R205) -/
  next_ : Option Pick
  last  : Option Pick
  back  : Nat
  line  : Nat
  part  : Nat
  frame : Nat
deriving DecidableEq, Repr
/-- An audio source stream beside its registers (R328 to R333): the frames its packets have placed, by `BLK` × 8,192 + frame; by
`BLK`, the frames its packets say the block carries and whether the last packet came; every packet of the stroke carried `FS` 0
and one came; on the locked path; blocks in a row that meet R330 and that do not; a change of path due from the block of a
stroke; its source stands stopped or not, from the block of a stroke on. -/
structure AudIn where
  frames : NMap (List Lane)
  total  : NMap (Nat × Bool)
  fsOk   : Bool
  got    : Bool
  locked : Bool
  goods  : Nat
  bads   : Nat
  due    : Option Nat
  lost   : Bool
  lostAt : Option Nat
deriving DecidableEq, Repr

/-- What happens to a chime slot at a boundary, from the block of the stroke that starts there (R343): play or cut. -/
inductive ChimeAct where
  | play | cut
deriving DecidableEq, Repr

/-- A chime slot beside its registers (R342 to R344): the icon's state at the last boundary, strokes out of OFF, the acts due by stroke,
the sample from which the clip goes on in the next block, if it plays. -/
structure ChimeSt where
  icon  : Nat
  since : Nat
  acts  : List (Nat × ChimeAct)
  pos   : Option Nat
deriving DecidableEq, Repr

/-- The audio block beside its registers (R327 to R349). -/
structure AudSt where
  /-- the sources: streams by number, the TDM inputs from 2,048 on -/
  ins    : NMap AudIn
  /-- the last block that has been closed, as a stroke number -/
  closed : Option Nat
  /-- the gains that ended the last block mixed: `AUD_OUT_ooo_SRC_k` and chime gains by register address, duck factors by output -/
  gains  : NMap Int
  ducks  : NMap Int
  /-- the last block of each output, by output (R337), which the next send takes -/
  mixed  : NMap (List Int)
  /-- the block of each transmit stream to be sent, by stream: frames of channels; it has yet to be sent -/
  ready  : NMap (List (List Int))
  toSend : Bool
  /-- by stroke, the streams that crossings displace: stream, source, first channel, channels (R338) -/
  displaced : List (Nat × List (Nat × Nat × Nat × Nat))
  /-- the stroke of the first block (R346) -/
  start  : Nat
  /-- the chime slots (R343) -/
  chimes : NMap ChimeSt
  /-- the clips, by chime slot (R342) -/
  clips  : NMap (List Lane)
  /-- the 32-bit dither generator of each TDM port, which reset seeds with the port number plus 1 (R340) -/
  noise  : NMap Word
  /-- `SEQ` of a commit that waits (R336) -/
  pend   : Option Nat
  /-- `AUD_LATE`, and `AUD_TDM_FRAME` by port, raised in this stroke -/
  lateTold : Bool
  tdmTold  : List Nat
deriving DecidableEq, Repr
/-- What the `LIGHT` segment says of one string beside its registers (R351, R362, R364, R374): the unit whose record gives its
bins and its ledger, and the `BINS` entry. -/
structure StringCfg where
  unit  : Option Nat
  bins  : Nat
deriving DecidableEq, Repr

/-- What the `LIGHT` segment places beside the registers (R356 to R368). -/
structure LightCfg where
  strings    : NMap StringCfg
  /-- T_BIN by flux bin, and the nominal entry, in 1/4,096 (R362) -/
  trims      : NMap Nat
  trimNominal : Nat
  /-- the duty of every backlight string before RUNNING (R356) -/
  startLevel : Nat
  /-- `WATCH_FLOOR` by head × 512 + zone, in 1/65,536 (R359) -/
  zoneFloors : NMap Nat
  /-- the heads whose local dimming is on (R359) -/
  dimHeads   : List Nat
  /-- `LUM_MAX` of RGB lamps, in 1/65,536 (R363) -/
  lumMax     : NMap Nat
  /-- neighbouring pins, LED pins 0 to 47 and line pins 48 to 79 (R368) -/
  neighbours : List (Nat × Nat)
deriving DecidableEq, Repr

/-- One string beside its status registers (R365 to R367). -/
structure StringSt where
  /-- consecutive low measurements, and whether the boost was at `VMAX` at the last -/
  lows    : Nat
  /-- consecutive measurements with and without the excess of R366 -/
  highs   : Nat
  goods   : Nat
  /-- PWM periods (or line slots) since the last diagnostic pulse -/
  periods : Nat
  /-- the latest headroom sample in mV -/
  headroom : Option Nat
  /-- the states of diagnosis: OPEN, SHORT, NEIGHBOUR, UNTESTED, and a state that is inferred (R365 to R368) -/
  open_   : Bool
  short   : Bool
  neighbour : Bool
  untested : Bool
  inferred : Bool
deriving DecidableEq, Repr

/-- The pre-charge of a matrix at a line change (R353), in counts from the period boundary: the old line pin and every column are off from
the boundary on; the columns are pulled to `pull` mV below the boost output to `until_`; the new line pin is on from `fetOn`, halfway. -/
structure PreCharge where
  old    : Nat
  new    : Nat
  pull   : Nat
  fetOn  : Nat
  until_ : Nat
deriving DecidableEq, Repr

/-- A fade of a lamp in progress (R361): start and target relative luminance in 1/65,536, elapsed and total PWM counts. -/
structure Fade where
  start   : Nat
  target  : Nat
  elapsed : Nat
  total   : Nat
deriving DecidableEq, Repr

/-- The message of step 7 of R14 (R355): zone levels by head × 512 + zone in 1/65,536, the icons that show ON by
head × 64 + icon, and the lamp levels and colours in force. -/
structure LightMsg where
  zones  : NMap Nat
  icons  : List Nat
  levels : NMap Nat
  colours : NMap Nat
deriving DecidableEq, Repr

/-- The light die's lighting half beside its registers (R350 to R369). -/
structure LgtSt where
  cfg      : LightCfg
  placed   : Bool
  /-- the message on its way from the matrix die, the one waiting for the next PWM period, the one applied -/
  inFlight : Option LightMsg
  waiting  : Option LightMsg
  msg      : Option LightMsg
  /-- no message came for 100 ms (R355) -/
  lost     : Bool
  /-- the index of the PWM period in its cycle, and the line each matrix drives (R352, R353) -/
  period   : Nat
  lineA    : Nat
  lineB    : Nat
  /-- the pre-charge with which the period in progress began, by matrix (R353) -/
  pre      : NMap PreCharge
  /-- the strings by number (R365) -/
  strings  : NMap StringSt
  /-- lamp fades in progress (R361) -/
  fades    : NMap Fade
  /-- the relative luminance each lamp runs at, in 1/65,536 -/
  lampNow  : NMap Nat
  /-- the boost: running, output in mV, periods with spare headroom, waiting for its restart (R357, R358) -/
  boostOn  : Bool
  boostMv  : Nat
  spareRun : Nat
  restart  : Bool
  /-- the neighbour test of placement has yet to finish (R356) -/
  testing  : Bool
  /-- pairs of pins found shorted, the next pin of the test, and the pins that a test window holds off in the next PWM period
  (R368) -/
  shorts   : List (Nat × Nat)
  nextPin  : Nat
  window   : List Nat
  /-- by string driven in the PWM period in progress: the start of its on-time after the period boundary and its length, in counts;
  the on-time wraps past the next boundary (R352 to R354) -/
  ons      : NMap (Nat × Nat)
  /-- D_T has been below 1 for the NTC input since it was last 1 (R364) -/
  derated  : List Nat
  /-- the compensation gain of each zone, by head × 512 + zone, in 1/1,024 (R359, R360) -/
  gains    : NMap Nat
  /-- the applied duties that each string has had since the ledgers last advanced: their sum and their number (R377) -/
  duties   : NMap (Nat × Nat)
deriving DecidableEq, Repr

/-- One ledger entry: keyed by its unit's serial, held in keep RAM and in the `LEDGERS` record (R377 to R381, R396, R397). -/
structure Ledger where
  serial  : Nat
  /-- 1/16 h, and the fraction below it in 2^-20 equivalent seconds -/
  hours   : Nat
  frac    : Nat
  /-- the rated life in h (R377) -/
  rated   : Nat
  /-- the wake count at which the unit was last present -/
  lastWake : Nat
  /-- the write sequence of the record (R378, R381) -/
  wseq    : Nat
  /-- C_LIFE in 1/4,096 -/
  comp    : Nat
  /-- the ledger at the last write-back of this wake, if any -/
  written : Option Nat
  /-- `LIFE_90` and `LIFE_SAT` have been raised for it -/
  worn    : Bool
  sat     : Bool
deriving DecidableEq, Repr

/-- A unit as last read (R372 to R376): its record's 256 bytes. -/
structure UnitSt where
  record : List Byte
  /-- the ledger entry that its serial keys, when TRUSTED and with strings -/
  entry  : Option Nat
  /-- a read of its record has ended, whatever it gave (R397) -/
  seen   : Bool
deriving DecidableEq, Repr

/-- Field units beside their registers. -/
structure FldSt where
  units   : NMap UnitSt
  /-- write-backs on their way to lamp boards and display heads, by unit, and the page of a lamp board's that is still to go (R381) -/
  writing : List Nat
  pages   : NMap (List Byte)
  /-- the ledger entries whose units have gone in this wake, in that order (R380) -/
  gone    : List Nat
deriving DecidableEq, Repr

/-- The keep RAM of the light die (R396, R398). -/
structure KeepRam where
  /-- power-on hours in 1/16 h, the units of 50 ps below it, and the time they were last brought up to (R398) -/
  poh        : Nat
  pohSub     : Nat
  pohFrom    : Nat
  /-- the count of wakes (R398) -/
  wakes      : Nat
  /-- the count of thermal restarts (R418) -/
  restarts   : Nat
  /-- light-die seconds of the last five thermal restarts, newest first (R418) -/
  restartAt  : List Nat
  /-- the ledger table (R377) -/
  ledgers    : NMap Ledger
  /-- history bits that arose while the matrix die was off (R443, R420) -/
  pwrHist    : Nat
  thmHist    : Nat
deriving DecidableEq, Repr

/-- Whose page writes a job is (R402, R397, R399); `orphan` is the page in progress of a host command that a reset of the matrix
die cut (R403). -/
inductive NvsJobKind where
  | host (record : Bool) (slot : Nat) | aborted (slot : Nat) | orphan | ledgers | keep
deriving DecidableEq, Repr

/-- A record that is to be written: its slots' byte addresses and pages, the record ID of a device record and the `RID` its reading
reports, its `LAYOUT`, `RID` and data. `SEQ` and the slot are chosen as the write begins (R394). -/
structure RecPlan where
  slotA  : Nat
  slotB  : Nat
  pages  : Nat
  dev    : Option Nat
  who    : Nat
  layout : Nat
  rid    : Nat
  data   : List Byte
deriving DecidableEq, Repr

/-- A write of parameter storage, page by page (R387, R388): what is left, as page, first byte within it and new bytes; the
first is the page in progress. The pages of a record are laid out when its write begins (R394). -/
structure NvsJob where
  kind  : NvsJobKind
  plan  : Option RecPlan
  left  : List (Nat × Nat × List Byte)
  done  : Nat
deriving DecidableEq, Repr

/-- Parameter storage beside its registers and its bytes (R385 to R405). -/
structure NvsSt where
  cur         : Option NvsJob
  /-- `VDD_LD` was below 2.95 V as the last page completed: the erase of the next page has not started (R390) -/
  held        : Bool
  waiting     : List NvsJob
  keepDefault : Bool
  ledgersDefault : Bool
  /-- a power-down has been signalled (R399) -/
  powerDown   : Bool
  /-- the snapshot of R399, until its flush is done -/
  snapshot    : Option KeepRam
  flushDone   : Bool
  /-- the `LEDGERS` record has been written in this wake (R397) -/
  ledgersDone : Bool
  /-- the groups of 16 bytes whose programming was cut, which may differ between reads, and the readings made (R389) -/
  unsure      : List Nat
  reads       : Nat
deriving DecidableEq, Repr

/-- Count of consecutive samples for one threshold (R412): towards assertion and towards release, and whether asserted. -/
structure ThrSt where
  up   : Nat
  down : Nat
  on   : Bool
deriving DecidableEq, Repr

/-- Thermal sensing beside its registers (R407 to R419). -/
structure ThmSt where
  /-- the latest trimmed value of each sensor in 0.01 °C, before group offsets (R408) -/
  raw     : NMap Int
  /-- each sensor's reading without group offsets, in 0.1 °C, which counts when no sensor is valid (R410, R525) -/
  plain   : NMap Int
  /-- what the light die's converter reads, by sensor code, in 0.1 °C (R416, R525); what `THM_LD_k` shows of it (R420) -/
  ldRead  : NMap Int
  ldShown : NMap Int
  /-- consecutive samples of disagreement by sensor code (R409) -/
  off     : NMap Nat
  /-- the three thresholds (R412) -/
  warn    : ThrSt
  throt   : ThrSt
  shdn    : ThrSt
  /-- sixteenths of a millisecond of throttle not yet counted in `THM_THR_MS` -/
  thrSub  : Nat
  /-- throttle was asserted at the last stroke boundary (R415) -/
  inForce : Bool
  /-- the light die: its judge of the anchors, its copy of `THM_SHDN`, samples of LD_n at 140 °C, disagreement of LD_0 and LD_1,
  samples below the release level since a shutdown (R416 to R419) -/
  ldJudge : ThrSt
  ldShdn  : Word
  ldHot   : Nat
  ldOff   : Nat
  ldFail  : Bool
  cool    : Nat
  /-- a shutdown has happened and its restart is due; the restart was locked out (R417, R418) -/
  restartDue : Bool
  lockout : Bool
  /-- events for the next wake: a restart, a lockout (R421) -/
  sayRestart : Bool
  sayLockout : Bool
deriving DecidableEq, Repr

/-- The light die: absent supply, running, or stopped under R419. -/
inductive LdPhase where
  | absent | running | stopped
deriving DecidableEq, Repr

/-- Where the matrix die's supplies and reset stand (R427 to R432, R437): off; `PWR_EN_n` rises next; `PWR_EN_n` is high and
`PG_IN_n` awaited; supplies good and the reset held; running; in a reset that keeps the supplies; in an ordered power-down
whose next enable to drop is `PWR_EN_n`. -/
inductive Phase where
  | off | raising (n : Nat) | waitPg (n : Nat) | hold | running | inReset | dropping (n : Nat)
deriving DecidableEq, Repr

/-- Why the matrix die is off or going off, which decides what starts it again (R428 to R434, R417 to R419). -/
inductive OffWhy where
  | asleep | pgRetry | supply | powerFail | thermal | lockedOut | wakeReturned
deriving DecidableEq, Repr

/-- Power, wake and reset beside their registers (R422 to R443). -/
structure PwrSt where
  ld       : LdPhase
  phase    : Phase
  why      : OffWhy
  /-- the delay of R429 runs; it has ended while `STAY` held the sleep -/
  sleepPend : Bool
  stayHeld : Bool
  /-- failed power-good attempts in this wake, and the times of supply faults (R428, R431) -/
  attempts : Nat
  supplyAt : List Nat
  /-- the causes that asserted since the last reset release, as bits of `PWR_RST_CAUSE` (R438) -/
  causes   : Nat
  /-- a watchdog, lockstep or warm reset waits for its exit delay (R437) -/
  exitDue  : Bool
  /-- the time of the latest accepted inactive level of `WAKE` (R426) -/
  wakeOffAt : Nat
  /-- the time of the latest accepted active level of `WAKE` (R443) -/
  wakeAt   : Nat
  /-- the time of the first warm-reset key write (R439) -/
  warmKeyAt : Option Nat
  /-- the light die asserts `FAULT_N` (R428, R431, R432, R417) -/
  fault    : Bool
  /-- a matrix-die restart that follows a stop under R419 counts under R418 -/
  resumed  : Bool
  /-- the first half of the watchdog's timeout has passed (R440) -/
  wdtWarned : Bool
deriving DecidableEq, Repr

/-- A request of a host held back by the quay (R448): its offset in the layout of the first or second memory BAR, which becomes an
address as the request is issued (R456), its length and, for a write, its bytes. -/
structure QuayReq where
  master : Master
  id     : Nat
  bar2   : Bool
  off    : Nat
  len    : Nat
  write  : Option (List Byte)
deriving DecidableEq, Repr

/-- A DMA channel beside its registers (R461, R462). -/
structure DmaSt where
  /-- the channel waited at a descriptor with `AT_STROKE` and the boundary has passed -/
  strokeSeen : Bool
  /-- bytes moved and not yet counted in a unit of 64 -/
  rest       : Nat
deriving DecidableEq, Repr

/-- The quay and its host interfaces beside their registers (R445 to R462, R477). -/
structure QuaySt where
  /-- each master's latch: the `_LO` address it read last and the high half at that instant (R477) -/
  latches     : NMap (Nat × Word)
  /-- requests whose responses are outstanding: master number, ID and target (R448) -/
  outstanding : List (Nat × Nat × Nat)
  /-- requests held back, oldest first (R448) -/
  held        : List QuayReq
  /-- `QUAY_WRITE_DENIED` has been raised in this stroke (R454) -/
  deniedNow   : Bool
  /-- the DMA channels (R462) -/
  dma         : NMap DmaSt
  /-- the last QSPI transfer ended in an error (R459) -/
  qspiError   : Bool
  /-- the byte offset of the I²C target (R460) -/
  i2cOffset   : Nat
deriving DecidableEq, Repr

/-- An event ring beside its registers (R467 to R469): records raised and not yet written, records dropped since the ring was
last not full, records written and not yet signalled. -/
structure RingSt where
  queue    : List Rec
  dropped  : Nat
  unsigned : Nat
deriving DecidableEq, Repr

/-- The event writer beside its registers (R463 to R469). -/
structure EvtSt where
  /-- the boot buffer, oldest first: the ring each record was routed to, and the record (R468) -/
  boot  : List (Nat × Rec)
  /-- the four rings (R467) -/
  rings : NMap RingSt
  /-- events of the light die raised while the matrix die is off: source and code, instance, data (R468) -/
  deferred : List (Nat × Nat × Nat × Nat)
  /-- the fabric cycle of the newest record, and how many records at the end of each ring's queue, and of the boot buffer (4), were
  raised in it (R465) -/
  cycle : Nat
  tails : NMap Nat
deriving DecidableEq, Repr

/-! ### The states of the parts before anything has happened to them -/

/-- A ring with nothing raised. -/
def RingSt.init : RingSt := { queue := [], dropped := 0, unsigned := 0 }

/-- A reference with nothing received. -/
def RefSt.init : RefSt := { lastQl := 0, qlRun := 0, pinQl := none, clean := 0, softOk := 0, gateOk := false }

/-- The Cox after a reset of any kind (R69). -/
def CoxSt.init : CoxSt :=
  { refs := [], switch := none, due := none, storedSel := false, storedFall := [], held := false, wtr := none, lockGates := 0,
    lockedTime := 0, history := [], ctrl := 0, slewLeft := 0, slewAcc := 0, slewAt := 0, adopt := false, adoptNum := none, mismatch := false,
    failDue := false, clipped := false, tcLost := false }

/-- A string before its first measurement (R367). -/
def StringSt.init : StringSt :=
  { lows := 0, highs := 0, goods := 0, periods := 0, headroom := none, open_ := false, short := false, neighbour := false,
    untested := true, inferred := true }

/-- No lighting configuration. -/
def LightCfg.init : LightCfg :=
  { strings := [], trims := [], trimNominal := 4096, startLevel := 0, zoneFloors := [], dimHeads := [], lumMax := [],
    neighbours := [] }

/-- The lighting half before the `LIGHT` segment is placed (R356). -/
def LgtSt.init : LgtSt :=
  { cfg := LightCfg.init, placed := false, inFlight := none, waiting := none, msg := none, lost := false, period := 0, lineA := 0, lineB := 0, pre := [], strings := [],
    fades := [], lampNow := [], boostOn := false, boostMv := 0, spareRun := 0, restart := false, testing := false, shorts := [], nextPin := 0, window := [], ons := [],
    derated := [], gains := [], duties := [] }

/-- The keep RAM with the defaults of R395. -/
def KeepRam.init : KeepRam :=
  { poh := 0, pohSub := 0, pohFrom := 0, wakes := 0, restarts := 0, restartAt := [], ledgers := [], pwrHist := 0, thmHist := 0 }

/-- An empty ledger entry. -/
def Ledger.init : Ledger :=
  { serial := 0, hours := 0, frac := 0, rated := 0, lastWake := 0, wseq := 0, comp := 4096, written := none, worn := false,
    sat := false }

/-- A unit whose record has not been read. -/
def UnitSt.init : UnitSt := { record := [], entry := none, seen := false }

/-- A threshold that is not asserted. -/
def ThrSt.init : ThrSt := { up := 0, down := 0, on := false }

/-- The pins at power-on: outputs low or released (R441); `RESET_N` and `PFI_N` high. -/
def Pins.init : Pins :=
  { coxLock := false, coxHold := false, coxAlarm := false, coxSel := 0, syncOut0 := false, syncOut1 := false, pwrEn := [],
    pgIn := [], wake := false, resetN := true, pfiN := true, extest := false, straps := 0 }

/-- A segment without records. -/
def SegContent.none : SegContent :=
  { regs := [], crossings := [], ports := [], stages := [], rbLocked := [], kernels := [], light := .none, preloads := [], clips := [] }

/-- The clock at power-on: the boot rate of 60 / 1 Hz (R522). -/
def Clock.init : Clock :=
  { time := 0, boundary := 0, stroke := 0, rateNum := 60, rateDen := 1, rateNext := none, len := 333333333, acc := 20, free := 0 }

/-- The loader after a reset, with nothing programmed in the one-time-programmable store (R34, R43). -/
def LoaderSt.init : LoaderSt :=
  { phase := .idle, hdr := none, head := [], dir := [], reread := false, content := none, filled := [], flStages := [], push := [], rx := [], digests := [], anchors := [],
    flDigest := none, flNext := none, crossWait := [], flRead := none, placed := [], early := false, otpHash := none, otpTest := false, otpData := [],
    otpKeyAt := none, flashKeyAt := none, flashOpen := none, amd := none }

/-- No field unit read. -/
def FldSt.init : FldSt := { units := [], writing := [], pages := [], gone := [] }

/-- Storage idle. -/
def NvsSt.init : NvsSt :=
  { cur := none, held := false, waiting := [], keepDefault := false, ledgersDefault := false, powerDown := false, snapshot := none,
    flushDone := false, ledgersDone := false, unsure := [], reads := 0 }

/-- The thermal monitor before its first sample, the light die's copy of `THM_SHDN` at its default (R411, R416). -/
def ThmSt.init : ThmSt :=
  { raw := [], plain := [], ldRead := [], ldShown := [], off := [], warn := ThrSt.init, throt := ThrSt.init, shdn := ThrSt.init, thrSub := 0, inForce := false,
    ldJudge := ThrSt.init, ldShdn := 0xF82, ldHot := 0, ldOff := 0, ldFail := false, cool := 0, restartDue := false,
    lockout := false, sayRestart := false, sayLockout := false }

/-- No supply: the light die absent, the matrix die off. -/
def PwrSt.init : PwrSt :=
  { ld := .absent, phase := .off, why := .asleep, sleepPend := false, stayHeld := false, attempts := 0,
    supplyAt := [], causes := 0, exitDue := false, wakeOffAt := 0, wakeAt := 0, warmKeyAt := none, fault := false, resumed := false,
    wdtWarned := false }

/-- The quay and its interfaces idle. -/
def QuaySt.init : QuaySt :=
  { latches := [], outstanding := [], held := [], deniedNow := false, dma := [], qspiError := false, i2cOffset := 0 }

/-- The event writer with nothing raised. -/
def EvtSt.init : EvtSt := { boot := [], rings := [], deferred := [], cycle := 0, tails := [] }

/-- A synthesizer from reset: off (R84). -/
def SynSt.init : SynSt := { refmod := 0, stale := false, half := false, range := (0, 0), chart := false, relock := false, halted := false, again := false }

/-- A port of which no segment says anything. -/
def PortCfg.init : PortCfg := { needs := 0, firstLight := false, narrow := [] }

/-- No rough water in progress. -/
def RoughSt.init : RoughSt := { count := 0, streams := [], held := [], markers := 0 }

/-- A port from reset: OFF, its pairs in electrical idle (R104). -/
def PortSt.init : PortSt :=
  { cfg := PortCfg.init, laneDone := false, disp := false, buoys := 0, buoyAcc := 0, place := none, farBuoy := 0, back := 0, buoy := false,
    climb := false, retrain := false, relock := false, resumeDue := false, lossAge := none, widening := false, offer := none, farOffer := none, alone := false, neg := none, rxAck := false, txAck := false, step := none, failRate := none, tries := [], synB := none, txIdle := true,
    rxIdle := false, rxQuiet := false, halted := false, windows := [], nextTag := 0, xacts := [], waits := [], cache := [], pull := 0,
    pullDue := false, pullGood := 0, pullBad := 0, pullNow := none, keyAt := none, roughRx := RoughSt.init,
    roughTx := RoughSt.init, txSeq := [], heard := [], missRun := 0, far := [], ident := [] }

/-- An eye monitor with no scan. -/
def EyeSt.init : EyeSt := { scan := false }

/-- All ports from reset. -/
def PrtSt.init : PrtSt := { ports := [], eyes := [], rbRise := [], rbLocked := [] }

/-- An empty crossing entry. -/
def EntSt.init : EntSt :=
  { state := .empty, reason := 0, stroke := 0, degraded := false, lack := 0, slipPath := false, suspended := false, armed := false,
    chart := false, seen := false, heldFor := 0 }

/-- A group of which nothing is known. -/
def GrpSt.init : GrpSt :=
  { state := .none, reason := 0, stroke := 0, seen := false, heldFor := 0, joinHold := none, forwarded := none, passed := false, took := 0 }

/-- The Crossing Table after a reset: every entry EMPTY. -/
def XtbSt.init : XtbSt := { ents := [], grps := [], words := [], stopped := [], shut := [], stages := [], rows := [], open_ := [], passed := [], blanks := [] }

/-- An empty queue. -/
def QueSt.init : QueSt := { held := [], xoff := false, told := false, words := [], waits := [] }

/-- An EMPTY slot. -/
def SlotSt.init : SlotSt :=
  { state := .empty, comp := 0, capStroke := 0, capOfs := 0, capTime := 0, phased := true, seq := 0, frame := 0, lastAt := 0, pins := [],
    selected := false, coded := [] }

/-- A slip in which nothing has been captured. -/
def SlipSt.init : SlipSt :=
  { slots := [], nextSeq := 0, periods := [], fills := [], lastCap := none, skipping := none, lastFrame := none, skipTold := false,
    motionTold := false, writeFrom := 0 }

/-- An engine that holds no job: every register 0 (R243). -/
def EngSt.init : EngSt :=
  { job := none, v := [], a := [], s := [], pc := 0, loops := [], wait := none, posted := [], takenAt := 0, stopped := false, mid := false, cut := none,
    kernels := [], held := [] }

/-- A crew that holds no job. -/
def CrwSt.init : CrwSt := { job := none, parts := [], left := [], done := [], due := false }

/-- No job in flight. -/
def JikSt.init : JikSt :=
  { engs := [], crews := [], flight := [], guard := false, void := [], okNow := 0, cutNow := 0, noInput := false, ran := [], pushes := 0 }


/-- A layer that has shown nothing. -/
def LaySt.init : LaySt :=
  { next := .nothing, now := .nothing, gwy := 0, told := false, moved := false, rows := [], frame := none, crab := false, tide := false,
    shown := false, view := { fmt := 0, x := 0, y := 0, w := 0, h := 0 }, flipped := false, back := 0 }

/-- A head that does not scan. -/
def HeadSt.init : HeadSt :=
  { scan := false, started := false, gated := false, mute := false, muteNext := false, due := [], stroke := 0, lines := 0, crabTold := false,
    pend := none, trim := 0, lays := [], sigs := [], zones := [], onIcons := [], blink := [], blinkNew := [], gains := [], rbOut := false,
    rbMiss := [], endAt := 0, late := false, glass := none, seen := none, clean := 0, atTarget := 0, frames := [] }

/-- No head scans. -/
def HedSt.init : HedSt := { heads := [], sync := none, ready := [] }

/-- An outgoing stream for which nothing is selected. -/
def EgrSt.init : EgrSt := { show_ := none, next_ := none, last := none, back := 0, line := 0, part := 0, frame := 0 }

/-- An audio source from which nothing has come: foreign (R330). -/
def AudIn.init : AudIn :=
  { frames := [], total := [], fsOk := true, got := false, locked := false, goods := 0, bads := 0, due := none, lost := false,
    lostAt := none }

/-- A chime slot that does not play. -/
def ChimeSt.init : ChimeSt := { icon := 0, since := 0, acts := [], pos := none }

/-- No audio. -/
def AudSt.init : AudSt :=
  { ins := [], closed := none, gains := [], ducks := [], mixed := [], ready := [], toSend := false, displaced := [], start := 0, chimes := [], clips := [],
    noise := [], pend := none, lateTold := false, tdmTold := [] }

/-- A DMA channel with no chain. -/
def DmaSt.init : DmaSt := { strokeSeen := false, rest := 0 }
/-- What the device sends at a pin, on a link or on a bus, as it is appended to `State.out`: an MSI-X message (R469), a packet or
marker or single code on a port (R127, R132, R102), a byte answer to a host read (R459). -/
inductive Out where
  | msix (vec : Nat)
  /-- the 10-bit symbols of what follows in the record, on one lane at a rate in kb/s, bit a of each lowest (R96) -/
  | symbols (port rate : Nat) (codes : List (BitVec 10))
  /-- from now on a lane sends this special symbol between frames: K28.5, or K28.0 while it trains (R96, R104) -/
  | fill (port : Nat) (octet : Byte)
  /-- `n` buoys on a lane, 16,384 symbols apart, each with the lane's index; the first with count `first` (R98, R110) -/
  | buoys (port index first n : Nat)
  /-- how many symbols of idle fill and buoys of a group rough water has corrupted in a stroke (R150) -/
  | fillFlips (port n : Nat)
  /-- one K23.7 on a transmitting lane (R102, R429) -/
  | idleCode (port : Nat)
  /-- the fast-exit burst of 64 K28.5 (R103) -/
  | exitBurst (port : Nat)
  /-- K28.1 and the eight bytes of a stroke marker (R131), and how many of its symbols rough water has corrupted (R150) -/
  | marker (port : Nat) (bytes : List Byte) (flips : Nat)
  /-- a message: header, payload and CRC-32 (R139), and how many of its symbols rough water has corrupted -/
  | message (port : Nat) (bytes : List Byte) (flips : Nat)
  /-- a packet: header, payload and CRC-32, whether K30.7 ends it in place of the CRC-32 and K29.7, and how many of its symbols
  rough water has corrupted (R127, R150) -/
  | packet (port : Nat) (bytes : List Byte) (poison : Bool) (flips : Nat)
  /-- a block of words on `TDM_DOUT_n`, frame by frame, slot by slot, each slot of `slot` bits from its most significant on, the first bit
  `delay` bit clocks after the `FS` edge, data changing on the rising edge of the clock or the falling one; the device drives the
  clocks at 48 kHz frames, or an external controller does (R339) -/
  | tdm (port slot delay : Nat) (rising drives : Bool) (words : List (List Nat))
  /-- bytes written to a lamp board from an offset of its record (R381) -/
  | lampWrite (board offset : Nat) (bytes : List Byte)
  /-- bytes returned to a host interface (R446, R459, R460) -/
  | answer (m : Master) (bytes : List Byte)
deriving DecidableEq, Repr

/-- Reasons to stop with a fault. Every command of the spec's table has an effect the spec describes, so no meaning faults: the
type is empty but for the name the host's interface asks for. -/
inductive Fault where
  /-- Raised by no meaning of this model; safe. -/
  | none
deriving DecidableEq, Repr

/-- Reasons to refuse a command. -/
inductive Refusal where
  /-- The command has no meaning in the model yet; raised by `exec` for an arm without a meaning; safe. -/
  | notModelled (mnemonic : String)
deriving DecidableEq, Repr

/-- The whole state of the module. -/
structure State where
  /-- every register of the first memory BAR and every word of the tables window, by address: the value in force -/
  regs    : NMap Word
  /-- the shadows of `SH` registers written since their last commit (R481, R482) -/
  shadow  : NMap Word
  clock   : Clock
  pins    : Pins
  loader  : LoaderSt
  cox     : CoxSt
  syn     : NMap SynSt
  prt     : PrtSt
  xtb     : XtbSt
  que     : NMap QueSt
  slips   : NMap SlipSt
  jik     : JikSt
  hed     : HedSt
  egr     : NMap EgrSt
  aud     : AudSt
  lgt     : LgtSt
  fld     : FldSt
  keep    : KeepRam
  nvs     : NvsSt
  thm     : ThmSt
  pwr     : PwrSt
  quay    : QuaySt
  evt     : EvtSt
  /-- the memories of the quay's address space (R446): frame store, working memory, parameter storage, chart flash, and the host
  memory beyond the PCIe endpoint -/
  fstore  : NMap Byte
  work    : NMap Byte
  nvsMem  : NMap Byte
  cflash  : NMap Byte
  hostMem : NMap Byte
  /-- everything the device has sent, oldest first (the model's own record of its outputs) -/
  out     : List Out
  /-- the commands that wait, oldest first -/
  pending : List Instr
deriving DecidableEq, Repr

/-- The matrix die is powered and out of reset. -/
def State.matrixUp (s : State) : Bool := s.pwr.ld == .running && s.pwr.phase == .running


/-- The module at power-on, before its first supply: the light die absent and the matrix die unpowered, every register at its reset
value, memories with nothing listed, no command waiting (R427, R441). -/
def State.reset : State :=
  { regs := [], shadow := [], clock := Clock.init, pins := Pins.init, loader := LoaderSt.init, cox := CoxSt.init, syn := [],
    prt := PrtSt.init, xtb := XtbSt.init, que := [], slips := [], jik := JikSt.init, hed := HedSt.init, egr := [],
    aud := AudSt.init, lgt := LgtSt.init, fld := FldSt.init, keep := KeepRam.init, nvs := NvsSt.init, thm := ThmSt.init,
    pwr := PwrSt.init, quay := QuaySt.init, evt := EvtSt.init, fstore := [], work := [], nvsMem := [], cflash := [],
    hostMem := [], out := [], pending := [] }

end Sys2Proof.Machine
end

