-- ==== Sys2Proof/Machine/Ops.lean ====
section
/-! DEFINITION. The named operations over the state: reading and writing registers and their fields, shadows (R481, R482),
free values, counters at their limits (R11, R484), raising an event (R463 to R468), the memories of the quay (R446). -/

namespace Sys2Proof.Machine

/-- The answer of a meaning. -/
abbrev Res := Host.Outcome State Fault Refusal

/-- The register at address `a`: what it holds now. -/
def State.rd (s : State) (a : Nat) : Word := nget regReset s.regs a

/-- The register at address `a` takes the value `v`. -/
def State.wr (s : State) (a : Nat) (v : Word) : State := { s with regs := nset regReset s.regs a v }

/-- The bits of word `j` of a transform descriptor that no rule reserves (R160, R204, R277). -/
def xformMask (j : Nat) : Nat :=
  match j with
  | 0 => 0xFFFF001F
  | 1 => 0x0FFFFFFF
  | 4 => 0x03FF0003
  | 5 => 0x0FFF007F
  | 6 => 0x00FFFFFF
  | 16 => 0x000307FF
  | _ => if 17 ≤ j ∧ j < 26 then 0xFFFF else if 26 ≤ j ∧ j < 29 then 0xFFF else if 48 ≤ j then 0xFFFFFFFF else 0

/-- The bits of word `j` of a manifest record that R230 does not reserve. -/
def recordMask (j : Nat) : Nat :=
  [0xFFFF000F, 0x0FFF03FF, 0xFFFFFFFF, 0xFFFFFFFF, 0x1FFF1FFF, 0x07FF0FFF, 0x01FFFFFF, 0x00000FFF].getD j 0

/-- The bits that the register or table word at `a` defines; every other bit reads 0 (R9, R154, R159, R160, R230, R304, R475). -/
def definedBits (a : Nat) : Word :=
  match regRow? a with
  | none => 0
  | some (r, is) =>
    let j := is.getD 1 0
    BitVec.ofNat 32 (
      if r.base = Reg.xtbEntryWord 0 0 then (if j = 0 then 0xFFFFFFFE else 0xFFFFFFFF)
      else if r.base = Reg.streamEntryWord 0 0 then (if j = 0 then 0xFFFFFC00 else 0xF7FFFFFF)
      else if r.base = Reg.xformWord 0 0 then xformMask j
      else if r.base = Reg.manifestWord 0 0 then recordMask j
      else if r.base = Reg.iconDirWord 0 0 then (if j < 2 then 0xFFFFFFFF else 0)
      else if r.base = Reg.coefWord 0 0 then (if j < 320 then 0xFFFFFFFF else 0)
      else r.rw)

/-- A word placed at `a` by the chart, an amendment or the entry of a table: its reserved bits stay 0 (R9). -/
def State.putWord (s : State) (a : Nat) (w : Word) : State := if (regRow? a).isSome then s.wr a (w &&& definedBits a) else s

/-- Bits [hi:lo] of the register at `a`. -/
def State.f (s : State) (a hi lo : Nat) : Nat := bf (s.rd a) hi lo

/-- Bit `i` of the register at `a`. -/
def State.b (s : State) (a i : Nat) : Bool := bit (s.rd a) i

/-- Bits [hi:lo] of the register at `a` take the value `v`. -/
def State.setF (s : State) (a hi lo v : Nat) : State := s.wr a (setFld (s.rd a) hi lo v)

/-- Bit `i` of the register at `a` takes the value `v`. -/
def State.setB (s : State) (a i : Nat) (v : Bool) : State := s.wr a (setBit (s.rd a) i v)

/-- The register at `a` read as a signed number. -/
def State.i32 (s : State) (a : Nat) : Int := (s.rd a).toInt

/-- The register at `a` takes a signed number. -/
def State.setI32 (s : State) (a : Nat) (v : Int) : State := s.wr a (BitVec.ofInt 32 v)

/-- A write into the shadow of an `SH` register: it waits for the commit of R481. -/
def State.wrShadow (s : State) (a : Nat) (v : Word) : State := { s with shadow := nput a v s.shadow }

/-- What the shadow of an `SH` register holds: the value written since the last commit, else the value in force (R482). -/
def State.shadowOf (s : State) (a : Nat) : Word := (nfind a s.shadow).getD (s.rd a)

/-- The shadows of the addresses that satisfy `p` are loaded with the values in force (R482). -/
def State.reloadShadows (s : State) (p : Nat → Bool) : State :=
  { s with shadow := s.shadow.filter fun e => !p e.1 }

/-- Every written shadow of the addresses that satisfy `p` takes effect, and the shadows reload (R481, R482). -/
def State.takeShadows (s : State) (p : Nat → Bool) : State :=
  ((s.shadow.filter fun e => p e.1).foldl (fun t e => t.wr e.1 e.2) s).reloadShadows p

/-- The bits an unstated value leaves, and the state whose counter has moved on. -/
def State.fresh (s : State) (w : Nat) : BitVec w × State :=
  (Config.freeBits w s.clock.free, { s with clock := { s.clock with free := s.clock.free + 1 } })

/-- The model's time in ns. -/
def State.now (s : State) : Nat := s.clock.time / 20

/-- The time since the last stroke boundary, in ns. -/
def State.since (s : State) : Nat := (s.clock.time - s.clock.boundary) / 20

/-- Replace the clock's fields. -/
def State.onClock (s : State) (g : Clock → Clock) : State := { s with clock := g s.clock }

/-- Repeat an effect for every item of a list, in order. -/
def forAll {α : Type} (l : List α) (g : α → State → State) (s : State) : State := l.foldl (fun t a => g a t) s

/-- Apply an effect when a condition holds. -/
def onlyIf (c : Bool) (g : State → State) (s : State) : State := if c then g s else s

/-- A matrix-die command: it has its effect while the matrix die is out of reset, and none while the die is unpowered or
held in reset (no block of the die runs then, R427, R437). -/
def onMatrix (g : State → State) (s : State) : Res := .next (if s.matrixUp then g s else s)

/-! ### Events -/

/-- The 128-bit event record of R463. -/
def eventRec (src inst code line stroke data : Nat) : Rec :=
  BitVec.ofNat 128 ((src % 64) * 2 ^ 122 + (inst % 4096) * 2 ^ 110 + (code % 1024) * 2 ^ 100 + (line % 8192) * 2 ^ 87
    + (stroke % 2 ^ 32) * 2 ^ 32 + data % 2 ^ 32)

/-- The `LINE` field of an event that no head raises: 8 µs units since the boundary, saturating (R463). -/
def State.strokeLine (s : State) : Nat := min 8191 (s.since / 8000)

/-- Whether exception `k` names the source and code (R466). -/
def State.exceptionHits (s : State) (src code k : Nat) : Bool :=
  s.b (Reg.evtRouteX k) 31 && s.f (Reg.evtRouteX k) 21 16 == src && s.f (Reg.evtRouteX k) 13 4 == code

/-- The ring an event goes to: the lowest enabled exception, else the block's route, else none (R466). -/
def State.routeOf (s : State) (src code : Nat) : Option Nat :=
  match (upto 8).find? (s.exceptionHits src code) with
  | some k => some (s.f (Reg.evtRouteX k) 1 0)
  | none => if s.b (Reg.evtRoute src) 31 then some (s.f (Reg.evtRoute src) 1 0) else none

/-- The state of ring `r`. -/
def State.ring (s : State) (r : Nat) : RingSt := nget (fun _ => RingSt.init) s.evt.rings r

/-- Ring `r` takes the state `x`. -/
def State.setRing (s : State) (r : Nat) (x : RingSt) : State :=
  { s with evt := { s.evt with rings := nset (fun _ => RingSt.init) s.evt.rings r x } }

/-- The size of ring `r`, with `SIZE_LOG2` held to 4 to 12 (R467, R471). -/
def State.ringSize (s : State) (r : Nat) : Nat := 2 ^ max 4 (min 12 (s.f (Reg.evtRingCfg r) 27 24))

/-- The records of ring `r` from `RP` to `WP`, modulo 65,536 (R467). -/
def State.ringFill (s : State) (r : Nat) : Nat :=
  (s.f (Reg.evtRingWp r) 15 0 + 65536 - s.f (Reg.evtRingRp r) 15 0) % 65536

/-- A counter that saturates, without the event of R484, which `State.deliver` adds. -/
def State.satQuiet (s : State) (a n k : Nat) : State := s.wr a (satAdd n k (s.rd a)).1

/-- The `SRC` of a record (R463). -/
def recSrc (x : Rec) : Nat := x.toNat / 2 ^ 122

/-- An item enters a list ordered by a key, after those of the same key, and moves the others one on (`moved`: its place has been found). -/
def insertKey {α : Type} (key : α → Nat) (moved : Bool) (x : α) : List α → List α
  | [] => [x]
  | y :: l =>
    let b := moved || decide (key x < key y)
    (if b then x else y) :: insertKey key b (if b then y else x) l

/-- An item enters at the end of a list, but among the last `n` items in the order of a key. -/
def insertTail {α : Type} (key : α → Nat) (n : Nat) (x : α) (l : List α) : List α :=
  l.take (l.length - n) ++ insertKey key false x (l.drop (l.length - n))

/-- The records at the end of queue `k` that were raised in this fabric cycle, of 1 ns (R20, R465). -/
def State.tailOf (s : State) (k : Nat) : Nat := if s.evt.cycle == s.now then nget (fun _ => 0) s.evt.tails k else 0

/-- One more record of queue `k` was raised in this fabric cycle (R465). -/
def State.noteTail (s : State) (k : Nat) : State :=
  let n := s.tailOf k + 1
  let old := if s.evt.cycle == s.now then s.evt.tails else []
  { s with evt := { s.evt with cycle := s.now, tails := nput k n old } }

/-- What follows comes after every record raised so far (R465, R468). -/
def State.inOrder (s : State) : State := { s with evt := { s.evt with tails := [] } }

/-- A record routed to ring `r` waits for the event writer, those of one fabric cycle in ascending `SRC` (R465); into a full ring it
is dropped and counted (R467); for a ring that is not enabled it goes to the boot buffer, whose oldest records stay (R468). -/
def State.deliverQuiet (s : State) (r : Nat) (x : Rec) : State :=
  if s.b (Reg.evtRingCfg r) 31 then
    let g := s.ring r
    if s.ringFill r + g.queue.length < s.ringSize r then
      (s.setRing r { g with queue := insertTail recSrc (s.tailOf r) x g.queue }).noteTail r
    else (s.setRing r { g with dropped := min (g.dropped + 1) 0xFFFFFFFF }).satQuiet (Reg.evtRingDrop r) 24 1
  else if s.evt.boot.length < 64 then
    ({ s with evt := { s.evt with boot := insertTail (fun e => recSrc e.2) (s.tailOf 4) (r, x) s.evt.boot } }).noteTail 4
  else s.satQuiet Reg.evtBootDrop 16 1

/-- `CNT_SAT` for the drop counter at `a`, when its `SAT` has just set (R484). -/
def State.dropSat (s old : State) (a : Nat) : State :=
  if s.b a 31 && !old.b a 31 then
    match s.routeOf Ev.cntSat.src Ev.cntSat.code with
    | some q => s.deliverQuiet q (eventRec Ev.cntSat.src 7 Ev.cntSat.code s.strokeLine s.clock.stroke.toNat a)
    | none => s
  else s

/-- A record routed to ring `r` is delivered, and a drop counter that saturates with it is reported (R467, R468, R484). -/
def State.deliver (s : State) (r : Nat) (x : Rec) : State :=
  let t := s.deliverQuiet r x
  (t.dropSat s (Reg.evtRingDrop r)).dropSat s Reg.evtBootDrop

/-- Raise an event by source and code, with an instance, a line and a data word (R463, R466). -/
def State.raiseRaw (s : State) (src code inst line data : Nat) : State :=
  match s.routeOf src code with
  | some r => s.deliver r (eventRec src inst code line s.clock.stroke.toNat data)
  | none => s

/-- Raise an event of a block other than `HED`; while the matrix die is not out of reset the light die keeps it until the
next reset release (R463, R468). -/
def State.raise (s : State) (e : Ev) (inst data : Nat) : State :=
  if s.matrixUp then s.raiseRaw e.src e.code inst s.strokeLine data
  else { s with evt := { s.evt with deferred := s.evt.deferred ++ [(e.src, e.code, inst, data)] } }

/-- Raise an event whose data word the spec does not state: the word is a free value. -/
def State.raiseFree (s : State) (e : Ev) (inst : Nat) : State :=
  let (d, t) := s.fresh 32
  t.raise e inst d.toNat

/-- The events kept while the matrix die was down are raised, oldest first (R468). -/
def State.raiseDeferred (s : State) : State :=
  (forAll s.evt.deferred (fun d t => t.inOrder.raiseRaw d.1 d.2.1 d.2.2.1 t.strokeLine d.2.2.2)
    { s with evt := { s.evt with deferred := [] } }).inOrder

/-! ### Counters (R11, R484) -/

/-- The `SRC` of the block that owns the register at `a` (R473, R475). -/
def srcOfAddr (a : Nat) : Nat :=
  if a < 0x100000 then a / 0x10000
  else if a < 0x200000 then 0x10
  else if a < 0x300000 then 0x20
  else if a < 0x400000 then 0x30
  else if a < 0xA00000 then 0x11
  else if a < 0xFE1000 ∧ 0xFE0000 ≤ a then 0x11
  else 0x13

/-- An error counter of `n` bits at `a` counts `k` times: it saturates, sets `SAT`, and `CNT_SAT` is raised when `SAT` sets
(R11, R484). -/
def State.countErr (s : State) (a n k : Nat) : State :=
  let r := satAdd n k (s.rd a)
  onlyIf r.2 (fun t => t.raise .cntSat (srcOfAddr a) a) (s.wr a r.1)

/-- A performance counter of `n` bits at `a` counts `k` times: it wraps and sets `OVF` (R11). -/
def State.countPerf (s : State) (a n k : Nat) : State := s.wr a (ovfAdd n k (s.rd a))

/-! ### Memories (R446) -/

/-- What an unlisted byte reads as: 0 in the RAMs and in host memory, 0xFF in erased flash and erased parameter storage
(R39, R385). -/
def zeroByte (_ : Nat) : Byte := 0

/-- An erased byte. -/
def erasedByte (_ : Nat) : Byte := 0xFF

/-- `n` bytes of a memory from address `a`. -/
def readBytes (d : Nat → Byte) (m : NMap Byte) (a n : Nat) : List Byte := (upto n).map fun i => nget d m (a + i)

/-- The bytes of a list stored from address `a`. -/
def writeBytes (d : Nat → Byte) (m : NMap Byte) (a : Nat) : List Byte → NMap Byte
  | [] => m
  | b :: bs => writeBytes d (nset d m a b) (a + 1) bs

/-- Something the device sends at a pin or on a link: appended to the record of what has been sent. -/
def State.send (s : State) (o : Out) : State := { s with out := s.out ++ [o] }

/-! ### Sub-structures -/

/-- Replace the pins. -/
def State.onPins (s : State) (g : Pins → Pins) : State := { s with pins := g s.pins }

/-- `FAULT_N` is asserted: by FAILED, a watch head or a lamp, or by the light die (R37, R316, R369, R428, R485). -/
def State.faultAsserted (s : State) : Bool := s.f Reg.glbFault 2 0 != 0 || s.pwr.fault

/-- `IRQ_r_N` is driven low (R469). -/
def State.irqLow (s : State) (r : Nat) : Bool :=
  s.b (Reg.evtRingCfg r) 30 && s.b (Reg.evtRingCfg r) 31 && s.f (Reg.evtRingWp r) 15 0 != s.f (Reg.evtRingRp r) 15 0

end Sys2Proof.Machine
end

