-- ==== Sys2Proof/Machine/Streams.lean ====
section
/-! DEFINITION. The stream table and the Crossing Table read by field (R154, R156, R160), and when a port is idle (R48). -/

namespace Sys2Proof.Machine

/-! ### Words of 20 bits as bit strings (R127, R196) -/

/-- Words as a bit string of bytes; an odd last word carries 4 zero bits above it. -/
def packWords : List Lane → List Byte
  | [] => []
  | [a] => leBytes 3 a.toNat
  | a :: b :: r => leBytes 5 (a.toNat + b.toNat * 2 ^ 20) ++ packWords r

/-- `n` words read from a bit string of bytes. -/
def unpackWords (n : Nat) (bs : List Byte) : List Lane :=
  (upto n).map fun i => BitVec.ofNat 20 (leNat ((bs.drop (20 * i / 8)).take 4) / 2 ^ (20 * i % 8))

/-! ### The stream table (R154) -/

/-- Word `j` of a stream's entry. -/
def State.streamWord (s : State) (i j : Nat) : Word := s.rd (Reg.streamEntryWord i j)

def State.streamValid (s : State) (i : Nat) : Bool := bit (s.streamWord i 1) 31

/-- `DIR`: the stream is transmitted. -/
def State.streamTx (s : State) (i : Nat) : Bool := bit (s.streamWord i 1) 30

/-- `SKIND`: 0 video, 1 audio, 2 control. -/
def State.streamKind (s : State) (i : Nat) : Nat := bf (s.streamWord i 1) 29 28

def State.streamPort (s : State) (i : Nat) : Nat := bf (s.streamWord i 1) 26 18

def State.streamFmt (s : State) (i : Nat) : Nat := bf (s.streamWord i 1) 17 15

def State.streamWidth (s : State) (i : Nat) : Nat := bf (s.streamWord i 1) 14 2

def State.streamHeight (s : State) (i : Nat) : Nat := bf (s.streamWord i 1) 1 0 * 2048 + bf (s.streamWord i 0) 31 21

/-- The landing slip of a stream, where `SLIP_EN` is 1. -/
def State.landingSlip (s : State) (i : Nat) : Option Nat :=
  if bit (s.streamWord i 0) 20 then some (bf (s.streamWord i 0) 19 10) else none

/-- A valid stream of kind `k` in direction `tx`. -/
def State.streamIs (s : State) (i k : Nat) (tx : Bool) : Bool := s.streamValid i && s.streamKind i == k && s.streamTx i == tx

/-! ### The Crossing Table (R156) -/

/-- A 128-bit entry of four words, word 0 lowest. -/
def rec4 (w0 w1 w2 w3 : Word) : Rec := w3 ++ w2 ++ w1 ++ w0

/-- The bits [hi:lo] of a 128-bit value. -/
def rf (r : Rec) (hi lo : Nat) : Nat := (r.extractLsb' lo (hi + 1 - lo)).toNat

/-- The fields of a crossing entry (R156). -/
structure Crossing where
  valid     : Bool
  kind      : Nat
  src       : Nat
  x         : Nat
  y         : Nat
  w         : Nat
  h         : Nat
  dstKind   : Nat
  dst       : Nat
  xform     : Nat
  take      : Nat
  prio      : Nat
  group     : Nat
  flags     : Nat
deriving DecidableEq, Repr

/-- An entry's 128 bits read by field. -/
def Crossing.ofRec (r : Rec) : Crossing :=
  { valid := rf r 127 127 == 1, kind := rf r 126 124, src := rf r 123 113, x := rf r 112 100, y := rf r 99 87, w := rf r 86 74,
    h := rf r 73 61, dstKind := rf r 60 59, dst := rf r 58 48, xform := rf r 47 36, take := rf r 35 20, prio := rf r 19 18,
    group := rf r 17 6, flags := rf r 5 0 }

def Crossing.retire (c : Crossing) : Bool := c.flags.testBit 5
def Crossing.blankOnLoss (c : Crossing) : Bool := c.flags.testBit 4
def Crossing.set (c : Crossing) : Bool := c.flags.testBit 3
def Crossing.watch (c : Crossing) : Bool := c.flags.testBit 2
def Crossing.notify (c : Crossing) : Bool := c.flags.testBit 1

/-- Entry `i` of the Crossing Table. -/
def State.crossing (s : State) (i : Nat) : Crossing :=
  Crossing.ofRec (rec4 (s.rd (Reg.xtbEntryWord i 0)) (s.rd (Reg.xtbEntryWord i 1)) (s.rd (Reg.xtbEntryWord i 2))
    (s.rd (Reg.xtbEntryWord i 3)))

/-- What the device keeps of entry `i` beside its words. -/
def State.entry (s : State) (i : Nat) : EntSt := nget (fun _ => EntSt.init) s.xtb.ents i

/-- Change what the device keeps of entry `i`. -/
def State.onEntry (s : State) (i : Nat) (g : EntSt → EntSt) : State :=
  { s with xtb := { s.xtb with ents := nset (fun _ => EntSt.init) s.xtb.ents i (g (s.entry i)) } }

/-- The entries that are not EMPTY, ascending. -/
def State.liveEntries (s : State) : List Nat := (s.xtb.ents.filter fun e => decide (e.2.state ≠ .empty)).map (·.1)

/-- The TAKEN entries, ascending. -/
def State.takenEntries (s : State) : List Nat := (s.xtb.ents.filter fun e => decide (e.2.state = .taken)).map (·.1)

/-- The TAKEN crossing that feeds a destination (R171). -/
def State.feeder (s : State) (dstKind dst : Nat) : Option Nat :=
  s.takenEntries.find? fun i => (s.crossing i).dstKind == dstKind && (s.crossing i).dst == dst

/-- A transform descriptor's byte; descriptor 0 is the identity transform (R160). -/
def State.xformByte (s : State) (x o : Nat) : Nat :=
  if x = 0 then (if o = 0 then 1 else 0) else bf (s.rd (Reg.xformWord x (o / 4))) (8 * (o % 4) + 7) (8 * (o % 4))

/-- A transform descriptor's 16-bit field at byte `o`. -/
def State.xformHalf (s : State) (x o : Nat) : Nat := s.xformByte x o + 256 * s.xformByte x (o + 1)

/-- A transform descriptor scales, converts colour, or does either, so that its crossing runs through a transform stage (R160, R277).
DEDUCED: its other class bits tell only which regions it fills; R204 reads the rate-conversion region at every selection. -/
def State.scales (s : State) (x : Nat) : Bool := (s.xformByte x 0).testBit 1
def State.colours (s : State) (x : Nat) : Bool := (s.xformByte x 0).testBit 2
def State.staged (s : State) (x : Nat) : Bool := s.scales x || s.colours x

/-- The width or height that a transform stage scales to: the descriptor's, DEDUCED 0 standing for that of the destination (R160). -/
def State.stageSize (s : State) (x o dst : Nat) : Nat := if s.xformHalf x o = 0 then dst else s.xformHalf x o

/-! ### Ports -/

/-- The state of port `p`. -/
def State.port (s : State) (p : Nat) : PortSt := nget (fun _ => PortSt.init) s.prt.ports p

/-- Change the state of port `p`. -/
def State.onPort (s : State) (p : Nat) (g : PortSt → PortSt) : State :=
  { s with prt := { s.prt with ports := nset (fun _ => PortSt.init) s.prt.ports p (g (s.port p)) } }

/-- The width that `BOND` gives a port's group (R108). -/
def State.bondWidth (s : State) (p : Nat) : Nat := 2 ^ s.f (Reg.prtCfg p) 25 24

/-- The lead port of a port's group: its lowest-numbered port (R108). -/
def State.lead (s : State) (p : Nat) : Nat := p / s.bondWidth p * s.bondWidth p

/-- The lanes a group runs on, as ports: all of them, or lane index 0 alone under R125. -/
def State.lanes (s : State) (p : Nat) : List Nat :=
  if (s.port (s.lead p)).alone then [s.lead p] else (upto (s.bondWidth p)).map (s.lead p + ·)

/-- The port is a watch port. -/
def State.watchPort (s : State) (p : Nat) : Bool := s.b (Reg.prtCfg p) 26

/-- The role of a port (R94). -/
def State.role (s : State) (p : Nat) : Nat := s.f (Reg.prtCfg p) 29 27

/-- The rung a port is on (R104). -/
def State.ladder (s : State) (p : Nat) : Nat := s.f (Reg.prtStat p) 2 0

/-- A crossing names a stream on the port `p` (R48). -/
def State.crossingOnPort (s : State) (c : Crossing) (p : Nat) : Bool :=
  s.streamPort c.src == p || (c.dstKind == 1 && s.streamPort c.dst == p)

/-- A port is idle when it is not a watch port and not a trunk member, and no valid crossing names a stream on it (R48). -/
def State.portIdle (s : State) (p : Nat) : Bool :=
  !s.watchPort p && s.role p != 5 && s.liveEntries.all fun i => !s.crossingOnPort (s.crossing i) (s.lead p)

end Sys2Proof.Machine
end

