-- ==== Sys2Proof/Machine/Code.lean ====
section
/-! DEFINITION. Line coding (R96, R98, R109): the 8b/10b code with running disparity, the special symbols, striping, and what a
transmit lane is able to send (R94, R95, R102, R115, R119). -/

namespace Sys2Proof.Machine

/-! ### The 8b/10b code (R96)

PRESUMED: R96 names the published code and gives no table; the two sub-block tables are those of the published code. A sub-block is
written as it is read, bit a (or f) first, so `0b100111` sends 1 0 0 1 1 1. -/

/-- A symbol: a data octet, or one of the special symbols, named by its octet. -/
structure Sym where
  special : Bool
  octet   : Byte
deriving DecidableEq, Repr

/-- The special symbols of R96. -/
def symComma : Sym := ⟨true, 0xBC⟩
def symMarker : Sym := ⟨true, 0x3C⟩
def symBuoy : Sym := ⟨true, 0x7C⟩
def symStart : Sym := ⟨true, 0xFB⟩
def symEnd : Sym := ⟨true, 0xFD⟩
def symPoison : Sym := ⟨true, 0xFE⟩
def symIdle : Sym := ⟨true, 0xF7⟩
def symTrain : Sym := ⟨true, 0x1C⟩
def symMessage : Sym := ⟨true, 0x5C⟩

/-- Data octets as symbols. -/
def dataSyms (bs : List Byte) : List Sym := bs.map fun b => ⟨false, b⟩

/-- The six bits `abcdei` of `x`, the low five bits of an octet, at negative running disparity. -/
def code6 (x : Nat) : Nat :=
  [0b100111, 0b011101, 0b101101, 0b110001, 0b110101, 0b101001, 0b011001, 0b111000,
   0b111001, 0b100101, 0b010101, 0b110100, 0b001101, 0b101100, 0b011100, 0b010111,
   0b011011, 0b100011, 0b010011, 0b110010, 0b001011, 0b101010, 0b011010, 0b111010,
   0b110011, 0b100110, 0b010110, 0b110110, 0b001110, 0b101110, 0b011110, 0b101011].getD x 0

/-- The four bits `fghj` of `y`, the high three bits of a data octet, at negative running disparity. -/
def code4 (y : Nat) : Nat := [0b1011, 0b1001, 0b0101, 0b1100, 0b1101, 0b1010, 0b0110, 0b1110].getD y 0

/-- The four bits `fghj` of K28.y when the symbol starts at negative running disparity. -/
def code4K28 (y : Nat) : Nat := [0b0100, 0b1001, 0b0101, 0b0011, 0b0010, 0b1010, 0b0110, 0b1000].getD y 0

/-- The ones in `n` bits. -/
def ones (n v : Nat) : Nat := (upto n).countP v.testBit

/-- A data sub-block of `n` bits at running disparity `pos`: an unbalanced one, or the balanced `alt`, is complemented when it is
positive. The flag is the running disparity after it. -/
def subBlock (n alt : Nat) (pos : Bool) (v : Nat) : Nat × Bool :=
  let even := 2 * ones n v == n
  (if pos && (!even || v == alt) then 2 ^ n - 1 - v else v, if even then pos else !pos)

/-- D.x.A7 in place of D.x.7, so that no run of five equal bits arises. -/
def altSeven (pos : Bool) (x : Nat) : Bool := if pos then [11, 13, 14].contains x else [17, 18, 20].contains x

/-- The ten bits of a symbol as they are read, bit a first, and the running disparity after it. -/
def encodeSym (pos : Bool) (c : Sym) : Nat × Bool :=
  let x := c.octet.toNat % 32
  let y := c.octet.toNat / 32
  if c.special then
    let v := if x = 28 then 0b001111 * 16 + code4K28 y else code6 x * 16 + 0b1000
    (if pos then 1023 - v else v, if 2 * ones 10 v == 10 then pos else !pos)
  else
    let (six, mid) := subBlock 6 0b111000 pos (code6 x)
    let (four, after) := subBlock 4 0b1100 mid (if y = 7 ∧ altSeven mid x then 0b0111 else code4 y)
    (six * 16 + four, after)

/-- Bit a, the first sent, becomes bit 0 (R96). -/
def firstLow (v : Nat) : BitVec 10 := (BitVec.ofNat 10 v).reverse

/-- The symbols of one lane, with the running disparity after them. -/
def encodeRun : Bool → List Sym → List (BitVec 10) × Bool
  | pos, [] => ([], pos)
  | pos, c :: r =>
    let (v, after) := encodeSym pos c
    let (l, last) := encodeRun after r
    (firstLow v :: l, last)

/-! ### Frames as symbols (R98, R103, R127, R131, R139) -/

def packetSyms (bs : List Byte) (poison : Bool) : List Sym :=
  if poison then symStart :: dataSyms (bs.take (bs.length - 4)) ++ [symPoison] else symStart :: dataSyms bs ++ [symEnd]
def messageSyms (bs : List Byte) : List Sym := symMessage :: dataSyms bs ++ [symEnd]
def markerSyms (bs : List Byte) : List Sym := symMarker :: dataSyms bs
def buoySyms (index count : Nat) : List Sym := symBuoy :: dataSyms (leBytes 1 index ++ leBytes 2 count)

/-- Lane `k` of `n` of a striped list, its last column filled (R109). -/
def striped {α : Type} (n k : Nat) (fill : α) (l : List α) : List α :=
  (upto ((l.length + n - 1) / n)).map fun j => l.getD (j * n + k) fill

/-! ### What a lane sends -/

/-- The version negotiated (R124). -/
def State.version (s : State) (p : Nat) : Nat := s.f (Reg.prtStat p) 9 8

/-- The rate code in force on a port's video lane. -/
def State.rate (s : State) (p : Nat) : Nat := s.f (Reg.prtStat p) 5 4

/-- `GRP_STAT.GOOD`, `LOST`, `ACTIVE` of a lead port. -/
def State.grpGood (s : State) (l : Nat) : Nat := s.f (Reg.prtGrpStat l) 31 24
def State.grpLost (s : State) (l : Nat) : Nat := s.f (Reg.prtGrpStat l) 23 16
def State.grpActive (s : State) (l : Nat) : Nat := s.f (Reg.prtGrpStat l) 15 8

/-- The lane index of a receive lane: that of its buoys, so that the board may route the lanes in any order; until one has come, its
place in the group (R108, R110). -/
def State.laneIndex (s : State) (p : Nat) : Nat := (s.port p).place.getD (p - s.lead p)

/-- The port whose receive lane has index `i` in group `l`, and whose transmit lane is opposite to it. -/
def State.laneAt (s : State) (l i : Nat) : Nat := ((s.lanes l).find? fun p => s.laneIndex p == i).getD (l + i)

/-- The lanes in a mask, lowest first. -/
def maskLanes (m : Nat) : List Nat := (upto 8).filter fun i => m.testBit i

/-- The transmit lanes of group `l` are opposite to its video direction: once NEGOTIATE has completed they carry the back channel
(R94, R95). -/
def State.backOnly (s : State) (l : Nat) : Bool := s.role l == 1 && s.version l != 0

/-- The rate of a transmit lane of group `l` in kb/s (R95, R104, R105). -/
def State.txRate (s : State) (l : Nat) : Nat := if s.backOnly l then 390625 else 3125000 * 2 ^ s.rate l

/-- A transmit lane sends the symbols that its port gives it: its port is off the bottom rung and out of electrical idle, no
generator replaces its traffic and no TAP holds its pads (R95, R102, R104, R115, R119). -/
def State.laneSends (s : State) (p : Nat) : Bool :=
  let l := s.lead p
  s.ladder p != 0 && !(s.port p).txIdle && !s.pins.extest && !s.b (Reg.prtPrbsCtrl p) 0
    && (!s.backOnly l || p == s.laneAt l (s.port l).back)

/-- The lanes over which group `l` stripes what it sends (R95, R109, R113, R125). -/
def State.txLanes (s : State) (l : Nat) : List Nat :=
  if s.backOnly l then [s.laneAt l (s.port l).back]
  else if (s.lanes l).length ≤ 1 then s.lanes l
  else if s.grpActive l = 0 then s.lanes l
  else (maskLanes (s.grpActive l)).map (l + ·)

/-- Symbols leave on one lane, each with a mask of bits that rough water flips. How many K28.5 stand between two frames is timing,
so the running disparity that they leave is free. -/
def State.sendLane (s : State) (p : Nat) (syms : List Sym) (masks : List (BitVec 10)) : State :=
  let (odd, s) := s.fresh 1
  let (codes, disp) := encodeRun ((s.port p).disp != (odd == 1#1)) syms
  (s.send (.symbols p (s.txRate (s.lead p)) (codes.zipIdx.map fun e => e.1 ^^^ masks.getD e.2 0))).onPort p fun x => { x with disp := disp }

/-- A frame leaves on a group, striped over its lanes from lane index 0 on (R109); lanes that do not send leave theirs out. -/
def State.sendFrame (s : State) (l : Nat) (o : Out) (syms : List Sym) (masks : List (BitVec 10)) : State :=
  let ps := s.txLanes l
  if ps.any s.laneSends then
    forAll ps.zipIdx (fun e t =>
      if t.laneSends e.1 then t.sendLane e.1 (striped ps.length e.2 symComma syms) (striped ps.length e.2 0 masks) else t) (s.send o)
  else s

/-- One K23.7 on a lane, after which its transmitter is in electrical idle (R102). -/
def State.laneIdle (s : State) (p : Nat) : State :=
  let s := if s.laneSends p then (s.send (.idleCode p)).sendLane p [symIdle] [] else s
  s.onPort p fun x => { x with txIdle := true }

/-- A lane leaves electrical idle with the fast-exit burst, from negative running disparity (R96, R103). -/
def State.laneWake (s : State) (p : Nat) : State :=
  let s := s.onPort p fun x => { x with txIdle := false, disp := false }
  if s.laneSends p then
    let (codes, disp) := encodeRun false (List.replicate 64 symComma)
    ((s.send (.exitBurst p)).send (.symbols p (s.txRate (s.lead p)) codes)).onPort p fun x => { x with disp := disp }
  else s

/-- The lanes of a group send a special symbol from now on (R104). -/
def State.fillWith (s : State) (l : Nat) (c : Sym) : State :=
  forAll (s.lanes l) (fun p t => if t.laneSends p then t.send (.fill p c.octet) else t) s

/-- At a boundary each bonded group has sent the buoys of the stroke that ended: one in every 16,384 symbols, in the same column of
every lane, with the lane's index and the running count (R98, R110). A symbol lasts 10 bits. DESIGN CHOICE: they stand in the
record of what was sent at the end of their stroke. -/
def State.sendBuoys (s : State) (stroke : Nat) : State :=
  forAll ((s.prt.ports.map (·.1)).filter fun p => s.lead p == p && 1 < (s.lanes p).length && 2 ≤ s.ladder p && s.ladder p ≤ 5) (fun l t =>
    let n := (t.port l).buoyAcc + stroke * t.txRate l / 200000000
    let first := (t.port l).buoys
    let t := forAll (t.lanes l).zipIdx (fun e u => if u.laneSends e.1 && n / 16384 != 0 then u.send (.buoys e.1 e.2 first (n / 16384)) else u) t
    t.onPort l fun x => { x with buoyAcc := n % 16384, buoys := (first + n / 16384) % 65536 }) s

end Sys2Proof.Machine
end

