-- ==== Sys2Proof/Machine/Cox.lean ====
section
/-! DEFINITION. The Cox: references, qualification, selection, hitless switching, holdover and the stroke's outputs
(R51 to R78). State and pins change at stroke boundaries (R75); gates, messages and losses decide what the boundary does. -/

namespace Sys2Proof.Machine

/-- Replace the Cox's own state. -/
def State.onCox (s : State) (g : CoxSt → CoxSt) : State := { s with cox := g s.cox }

/-- Reference `n` beside its registers. -/
def State.ref (s : State) (n : Nat) : RefSt := nget (fun _ => RefSt.init) s.cox.refs n

/-- Change reference `n` beside its registers. -/
def State.onRef (s : State) (n : Nat) (g : RefSt → RefSt) : State :=
  s.onCox fun c => { c with refs := nset (fun _ => RefSt.init) c.refs n (g (s.ref n)) }

/-- Set a bit of `COX_HIST`, and raise its event when its `COX_HIST_EN` bit is 1 (R75, R78); the spec states no data word. -/
def State.coxNote (s : State) (i : Nat) (e : Ev) : State :=
  onlyIf (s.b Reg.coxHistEn i) (fun t => t.raiseFree e 0) (s.setB Reg.coxHist i true)

/-- The load state of `CHT_STATE.STATE` (R40). -/
def State.loadState (s : State) : Nat := s.f Reg.chtState 2 0

/-- The device is in RUNNING. -/
def State.running (s : State) : Bool := s.loadState == 3

/-- Reference `n` takes part in selection (R51). -/
def State.refOn (s : State) (n : Nat) : Bool := s.b (Reg.coxRefCfg n) 31

/-- Reference `n` is qualified (R60). -/
def State.qualified (s : State) (n : Nat) : Bool := s.refOn n && s.b (Reg.coxRefStat n) 3

/-- The QL in force of reference `n` (R54). -/
def State.ql (s : State) (n : Nat) : Nat := s.f (Reg.coxRefStat n) 15 12

/-- The state of R69: 0 FREE_RUN, 1 ACQUIRE, 2 LOCKED, 3 HOLDOVER. -/
def State.coxState (s : State) : Nat := s.f Reg.coxState 1 0

/-- The reference in use, or last used. -/
def State.inUse (s : State) : Nat := s.f Reg.coxState 6 4

/-- `COX_CTRL.MODE`, 3 treated as 0 (R77). -/
def State.coxMode (s : State) : Nat := if s.f Reg.coxCtrl 1 0 = 3 then 0 else s.f Reg.coxCtrl 1 0

/-- The references of which the enabled and qualified one with the highest QL, then the lowest `PRIO`, is best (R62). -/
def State.bestRef (s : State) : Option Nat :=
  (upto 8).foldl (fun best r =>
    if !s.qualified r then best
    else match best with
      | none => some r
      | some b =>
        if s.ql b < s.ql r ∨ (s.ql r = s.ql b ∧ s.f (Reg.coxRefCfg r) 6 4 < s.f (Reg.coxRefCfg b) 6 4)
        then some r else some b) none

/-- The winner of R62: the manual choice when qualified, else the best qualified reference. -/
def State.coxWinner (s : State) : Option Nat :=
  if s.qualified (s.f Reg.coxSel 2 0) then some (s.f Reg.coxSel 2 0) else s.bestRef

/-- Stop the wait-to-restore timer (R63). -/
def State.wtrStop (s : State) : State :=
  match s.cox.wtr with
  | none => s
  | some n => ((s.onCox fun c => { c with wtr := none }).setB Reg.coxState 10 false).setB (Reg.coxRefStat n) 8 false

/-- Start the wait-to-restore timer for reference `n`, anew (R63). -/
def State.wtrStart (s : State) (n : Nat) : State :=
  (((s.wtrStop).onCox fun c => { c with wtr := some n }).setB Reg.coxState 10 true).setB (Reg.coxRefStat n) 8 true

/-- The selection rules of R62 and R63, which decide what the next boundary does: `sel` says that `COX_SEL` has just been
written, `fell` that the QL of the reference in use fell. During a switch everything waits, and after one that did not close the
loop is held until the next boundary acts on the winner (R66). DESIGN CHOICE: a winner that changes for a cause that R63 does not list
(`COX_SEL` rewritten to an unqualified reference, a rewritten `PRIO`) waits for the wait-to-restore timer, as an improvement does. -/
def State.coxJudge (s : State) (sel fell : Bool) : State :=
  if s.cox.switch.isSome || s.cox.held then s
  else if s.coxMode ≠ 0 ∨ (s.coxState ≠ 1 ∧ s.coxState ≠ 2) then s.wtrStop
  else match s.coxWinner with
    | none => (s.wtrStop).onCox fun c => { c with due := none }
    | some w =>
      let go (t : State) := (t.wtrStop).onCox fun c => { c with due := some w }
      if w = s.inUse then (s.wtrStop).onCox fun c => { c with due := none }
      else if !s.qualified s.inUse || fell || (sel && w == s.f Reg.coxSel 2 0) then go s
      else if s.cox.due = some w then s
      else if s.cox.wtr = some w then s
      else s.wtrStart w

/-- A reference loses its qualification (R59). A switch towards it is no longer fit to close (R66). -/
def State.disqualify (s : State) (n : Nat) : State :=
  let t := (s.onRef n fun r => { r with clean := 0 }).onCox fun c =>
    { c with switch := c.switch.map fun w => if w.target = n then { w with fit := false } else w }
  if s.b (Reg.coxRefStat n) 3 then (t.setB (Reg.coxRefStat n) 3 false).coxNote 5 .coxDisqualified else t

/-- The QL in force of reference `n` becomes `q` from source `src` (R54, R59, R66). -/
def State.setQl (s : State) (n q src : Nat) : State :=
  let old := s.ql n
  let t := (s.setF (Reg.coxRefStat n) 15 12 q).setF (Reg.coxRefStat n) 11 10 src
  if old = q then t
  else
    let u := t.coxNote 7 .coxQlChange
    let u := if q = 0 then u.disqualify n else u
    let u := onlyIf (decide (q < old) && u.cox.switch.isSome)
      (fun v => v.onCox fun c => { c with storedFall := n :: c.storedFall }) u
    u.coxJudge false (n == s.inUse && decide (q < old))

/-- The QL that reference `n` takes from its pin, when one is in force, or from its register (R54, R55). -/
def State.refreshQl (s : State) (n : Nat) : State :=
  if 6 ≤ n then s
  else match s.b (Reg.coxRefCfg n) 1, (s.ref n).pinQl with
    | true, some q => s.setQl n q 1
    | _, _ => s.setQl n (s.f (Reg.coxRefQl n) 3 0) 0

/-- The largest bandwidth code of a reference's type (R67). -/
def bwMax (n : Nat) : Nat := if n = 2 ∨ n = 3 then 7 else if n = 4 ∨ n = 5 then 2 else 4

/-- `BW_CLIP` follows the configuration in force (R67). -/
def State.refreshClip (s : State) (n : Nat) : State :=
  s.setB (Reg.coxRefStat n) 9
    (decide (bwMax n < s.f (Reg.coxRefCfg n) 14 12) || decide (bwMax n < s.f (Reg.coxRefCfg n) 10 8))

/-- What a new value of `COX_REF_n_CFG` does (R51, R55, R67): a disabled reference leaves selection; a write that sets `QL_PIN`
starts the pin QL anew. -/
def State.refCfgWritten (s : State) (n : Nat) : State :=
  let s := onlyIf (s.b (Reg.coxRefCfg n) 1) (fun t => t.onRef n fun r => { r with pinQl := none, qlRun := 0 }) s
  let s := if s.refOn n then s
    else (s.setF (Reg.coxRefStat n) 3 1 0).onRef n fun r => { r with clean := 0, softOk := 0 }
  ((s.refreshClip n).refreshQl n).coxJudge false false

/-- The soft window in ppt (R58); outside 10 to 910 the spec states none. -/
def State.softWindow (s : State) : Int :=
  let v := s.f Reg.coxSoftWin 9 0
  if 10 ≤ v ∧ v ≤ 910 then v * 10000 else Config.unstated 1 v

/-- One gate's report of a reference (R57 to R60). -/
def State.gateRef (s : State) (n : Nat) (o : Option Int) : State :=
  if !s.refOn n then s
  else match o with
    | none => s.onRef n fun r => { r with clean := 0, softOk := 0, gateOk := s.b (Reg.coxRefStat n) 0 }
    | some o =>
      let st := Reg.coxRefStat n
      let s := s.setI32 (Reg.coxRefFofs n) o
      let soft := decide (s.softWindow < o.natAbs)
      let hard := decide (9200000 < o.natAbs)
      let s :=
        if soft then
          if s.b st 1 then s.onRef n fun r => { r with softOk := 0 }
          else (((s.setB st 1 true).onRef n fun r => { r with softOk := 0 })).coxNote 4 .coxSoftAlarm
        else if s.b st 1 then
          if 2 ≤ (s.ref n).softOk + 1 then (s.setB st 1 false).onRef n fun r => { r with softOk := 0 }
          else s.onRef n fun r => { r with softOk := r.softOk + 1 }
        else s
      let s := s.setB st 2 hard
      let s :=
        if hard then s.disqualify n
        else if s.b st 3 then s
        else if (s.ref n).gateOk && s.b st 0 && decide (1 ≤ s.ql n) then
          if 2 ≤ (s.ref n).clean + 1 then
            let t := (s.setB st 3 true).onRef n fun r => { r with clean := 0 }
            onlyIf (t.b Reg.coxHistEn 5) (fun u => u.raise .coxQualified 0 n) t
          else s.onRef n fun r => { r with clean := r.clean + 1 }
        else s.onRef n fun r => { r with clean := 0 }
      s.onRef n fun r => { r with gateOk := s.b st 0 }

/-- The offset a gate reports for a reference. -/
def gateOffset (g : GateIn) (n : Nat) : Option Int := (g.offsets.find? fun p => p.1.val == n).map (·.2)

/-- The total correction of the oscillator in ppt (R71): the control value in ACQUIRE and LOCKED; the frozen value, the
compensation and the steering in the other states, held to ±200 ppm. -/
def State.coxTotal (s : State) : State :=
  if s.coxState = 1 ∨ s.coxState = 2 then (s.setI32 Reg.coxCtrlVal s.cox.ctrl).onCox fun c => { c with clipped := false }
  else
    let base := if s.coxState = 3 then s.i32 Reg.coxHoldVal else 0
    let sum := base + s.i32 Reg.coxTcomp + s.i32 Reg.coxSteer
    let clip := decide (200000000 ≤ sum.natAbs)
    let t := (s.setI32 Reg.coxCtrlVal (clampI (-200000000) 200000000 sum)).onCox fun c => { c with clipped := clip }
    onlyIf (clip && !s.cox.clipped) (fun u => u.coxNote 9 .coxSteerLimit) t

/-- The end of a 1 s frequency gate (R57 to R63, R68, R70): a switch, or one that ended without closing, holds the control value
(R64, R66). -/
def coxGate (g : GateIn) (s : State) : State :=
  let s := forAll (upto 8) (fun n t => t.gateRef n (gateOffset g n)) s
  let s := s.setI32 Reg.coxPhaseErr g.phaseErr
  let s := onlyIf ((s.coxState == 1 || s.coxState == 2) && s.cox.switch.isNone && !s.cox.held)
    (fun t => t.onCox fun c => { c with ctrl := g.ctrl }) s
  let good := decide (g.phaseErr.natAbs ≤ 2000) && decide (g.freqErr.natAbs ≤ 50000)
  let s :=
    if s.coxState = 1 then s.onCox fun c => { c with lockGates := if good then c.lockGates + 1 else 0 }
    else if s.coxState = 2 then s.onCox fun c =>
      { c with history := (c.ctrl :: c.history).take 62 }
    else s
  (s.coxTotal).coxJudge false false

/-- The activity monitor declares loss on reference `n` (R53, R59). -/
def State.activityLoss (s : State) (n : Nat) : State :=
  let s := (s.setB (Reg.coxRefStat n) 0 false).onRef n fun r => { r with gateOk := false }
  (s.disqualify n).coxJudge false false

/-- An edge or marker arrives on a reference without activity (R53). -/
def State.activityBack (s : State) (n : Nat) : State := s.setB (Reg.coxRefStat n) 0 true

/-- A byte received on `QL_IN_n` (R55). DESIGN CHOICE: while `QL_PIN` is 0 every byte is ignored, a bad one is not counted. -/
def qlMessage (n : Nat) (byte : BitVec 8) (framed : Bool) (s : State) : State :=
  let v := byte.toNat
  if !s.b (Reg.coxRefCfg n) 1 then s
  else if !framed || v / 16 != 15 - v % 16 then
    let c := s.f (Reg.coxRefStat n) 23 16
    let t := s.setF (Reg.coxRefStat n) 23 16 (min 255 (c + 1))
    onlyIf (c == 254) (fun u => u.raise .cntSat 2 (Reg.coxRefStat n)) t
  else
    let q := v % 16
    let r := s.ref n
    let run := if r.lastQl = q ∧ 0 < r.qlRun then r.qlRun + 1 else 1
    let s := s.onRef n fun r => { r with lastQl := q, qlRun := run }
    if 2 ≤ run then (s.onRef n fun r => { r with pinQl := some q }).refreshQl n else s

/-- No valid message for 5 s (R55): the register QL comes back, and the run of messages starts anew. -/
def qlTimeout (n : Nat) (s : State) : State :=
  if !s.b (Reg.coxRefCfg n) 1 then s
  else ((s.onRef n fun r => { r with pinQl := none, qlRun := 0 }).coxNote 8 .coxQlTimeout).refreshQl n

/-- A write of `COX_SEL` names the manual choice (R63, R66). -/
def coxSelWrite (v : Word) (s : State) : State :=
  let s := s.setF Reg.coxSel 2 0 (bf v 2 0)
  if s.cox.switch.isSome then s.onCox fun c => { c with storedSel := true } else s.coxJudge true false

/-- A write of `COX_CTRL` (R61, R66): the mode acts at the next boundary, or after a switch in progress. -/
def coxCtrlWrite (v : Word) (s : State) : State := (s.wr Reg.coxCtrl (mergeMask 0x33 (s.rd Reg.coxCtrl) v)).coxJudge false false

/-- The wait-to-restore timer of reference `n` ends: the switch starts at the next boundary (R63). -/
def wtrExpiry (n : Nat) (s : State) : State :=
  if s.cox.wtr = some n then
    let t := s.wtrStop
    if t.coxWinner = some n then t.onCox fun c => { c with due := some n } else t
  else s

/-- The build-out grows by an offset (R64, R65). -/
def State.addBuildout (s : State) (d : Int) : State := s.setI32 Reg.coxBuildout (s.i32 Reg.coxBuildout + d)

/-- The build-out moves by `d` and the stroke's phase with it: the boundary that ends the stroke in progress falls `d` later (R52,
R65). -/
def State.slewBy (s : State) (d : Int) : State :=
  ((s.addBuildout d).onClock fun c => { c with len := (c.len + d).toNat }).onCox fun c => { c with slewLeft := c.slewLeft - d }

/-- The slew is applied up to time `t` at the rate in force; it pauses during a switch (R65). -/
def State.slewUntil (s : State) (t : Nat) : State :=
  let run := s.b Reg.coxSlewCtrl 31 && s.cox.switch.isNone
  let rate := max 1 (min 1000 (s.f Reg.coxSlewCtrl 9 0))
  let acc := s.cox.slewAcc + (if run then rate * (t - s.cox.slewAt) else 0)
  let step := min (acc / 10 ^ 9) s.cox.slewLeft.natAbs
  let d : Int := if s.cox.slewLeft < 0 then -step else step
  ((onlyIf run (State.slewBy · d) s).onCox fun c =>
    { c with slewAcc := if run then acc - step * 10 ^ 9 else c.slewAcc, slewAt := t })

/-- `COX_SLEW_CTRL` with `GO` (R65): a slew of `COX_SLEW_TARGET` starts, or is added to the one in progress. -/
def slewWrite (v : Word) (s : State) : State :=
  let s := (s.slewUntil s.clock.time).setF Reg.coxSlewCtrl 9 0 (bf v 9 0)
  if bit v 16 then
    (s.onCox fun c => { c with slewLeft := c.slewLeft + s.i32 Reg.coxSlewTarget }).setB Reg.coxSlewCtrl 31 true
  else s

/-- The slew has applied its whole change (R65). -/
def slewDone (s : State) : State :=
  if s.b Reg.coxSlewCtrl 31 && s.cox.switch.isNone then
    ((s.slewBy s.cox.slewLeft).onCox fun c => { c with slewLeft := 0, slewAcc := 0 }).setB Reg.coxSlewCtrl 31 false
  else s

/-- The Cox has been LOCKED for 10 s in total, the stroke in progress included (R69). -/
def holdValid (s : State) : State :=
  if s.coxState = 2 ∧ 10 * 20000000000 ≤ s.cox.lockedTime + s.clock.len then s.setB Reg.coxState 11 true else s

/-- A write of `COX_STEER`, clipped to ±200,000,000 ppt (R71). -/
def coxSteerWrite (v : Word) (s : State) : State :=
  (s.setI32 Reg.coxSteer (clampI (-200000000) 200000000 v.toInt)).coxTotal

/-- A temperature register's reading in 0.1 °C (R420). -/
def tempOf (w : Word) : Int := signed 16 (bf w 15 0)

/-- The register of a sensor code: ring sites 0 to 47, anchors 48 to 51 (R407, R420). -/
def sensorReg (c : Nat) : Nat := if c < 48 then Reg.thmTs c else Reg.thmAn (c - 48)

/-- The sensors from which the compensation takes T: those listed, or the anchors when none is (R72). -/
def State.tcSensors (s : State) : List Nat :=
  let l := ((upto 4).map fun i => s.f Reg.coxTcSites (8 * i + 7) (8 * i)).filter (· ≤ 51)
  if l.isEmpty then [48, 49, 50, 51] else l

/-- The compensation polynomial of R72 at T = n ÷ d above 25 °C, in ppt. DESIGN CHOICE: rounded down to whole ppt, for which the
spec states no rule. -/
def tcPoly (c0 c1 c2 c3 n d : Int) : Int :=
  (c0 * 10000 * d ^ 3 + c1 * 10000 * n * d ^ 2 + c2 * 100 * n ^ 2 * d + c3 * n ^ 3) / (10000 * d ^ 3)

/-- The Cox recomputes the temperature compensation (R72). -/
def tcompUpdate (s : State) : State :=
  let ok := s.tcSensors.filter fun c => !s.b (sensorReg c) 31
  if ok.isEmpty then
    onlyIf (!s.cox.tcLost) (fun t => t.coxNote 10 .coxTcompLost) (s.onCox fun c => { c with tcLost := true })
  else
    let sum := ok.foldl (fun a c => a + tempOf (s.rd (sensorReg c))) 0
    let k : Int := ok.length
    let comp := tcPoly (s.i32 (Reg.coxTcC 0)) (s.i32 (Reg.coxTcC 1)) (s.i32 (Reg.coxTcC 2)) (s.i32 (Reg.coxTcC 3))
      (sum - 250 * k) (10 * k)
    ((s.setI32 Reg.coxTcomp comp).onCox fun c => { c with tcLost := false }).coxTotal

/-- How many boundaries after the current one the marker of reference `n` that arrives now places (R52, R76): its place is its
arrival plus `OFFSET`, with the build-out. DEDUCED: the boundary that it places is the device's boundary nearest to that place. -/
def State.placedAhead (s : State) (n : Nat) : Int :=
  let len : Int := (max 1 s.clock.len : Nat)
  let place : Int := (s.clock.time : Int) - s.clock.boundary + s.i32 (Reg.coxRefOffset n) + s.i32 Reg.coxBuildout
  (2 * place + len) / (2 * len)

/-- A stroke marker's QL and number reach the references that watch its port (R53, R54, R76). A follower, which `ADOPT_NUM` makes,
compares in RUNNING the number of the boundary that the marker places. -/
def State.coxMarker (s : State) (port : Nat) (num : Stroke) (ql : Nat) : State :=
  forAll [6, 7] (fun n t =>
    if t.f (Reg.coxRefCfg n) 28 20 = port then
      let t := t.setQl n ql 2
      if t.refOn n ∧ t.inUse = n ∧ t.coxState ≠ 0 then
        let ahead := t.placedAhead n
        let t := t.onCox fun c => { c with adoptNum := some (num + BitVec.ofInt 48 (1 - ahead)) }
        if t.running ∧ t.coxState = 2 ∧ t.b Reg.coxCtrl 5 then
          let mis := decide (t.clock.stroke + BitVec.ofInt 48 ahead ≠ num)
          onlyIf (mis && !t.cox.mismatch) (fun u => u.coxNote 11 .coxNumMismatch)
            (t.onCox fun c => { c with mismatch := mis })
        else t
      else t
    else t) s

/-! ### At the stroke boundary -/

/-- The period modulo which a reference's phase is measured, in ps, as numerator and denominator (R64). -/
def State.refPeriod (s : State) (p : RefPhase) : Nat × Nat :=
  let n := p.ref.val
  if n < 2 then (10 ^ 12 * s.clock.rateDen * (s.f (Reg.coxRefCfg n) 19 18 + 1), s.clock.rateNum)
  else if n < 4 then (if s.b (Reg.coxRefFreq n) 31 then 10 ^ 9 * 1001 else 10 ^ 12, s.f (Reg.coxRefFreq n) 27 0)
  else if n < 6 then (10 ^ 12, 1)
  else (p.farPs, 1)

/-- The offset of R64: the value nearest to zero modulo the period `pn` ÷ `pd` in ps, from minus half of it up to just under half,
rounded to 50 ps with ties towards plus infinity. -/
def phaseOffset (phase : Int) (pn pd : Nat) : Int :=
  let d := phase * pd % pn
  let d := if (pn : Int) ≤ 2 * d then d - pn else d
  (2 * d + 50 * pd) / (100 * pd)

/-- How far the device's boundary lies after the place that a reference gives it, in ps: a sync pulse or a marker places it at its
edge plus `COX_REF_n_OFFSET`, the other references at their edge (R52). -/
def State.placedPhase (s : State) (p : RefPhase) : Int :=
  if p.ref.val < 2 ∨ 6 ≤ p.ref.val then p.phase - 50 * s.i32 (Reg.coxRefOffset p.ref.val) else p.phase

/-- The measured offset of reference `n` at this boundary, 0 where none was measured. -/
def State.measured (s : State) (ps : List RefPhase) (n : Nat) : Int :=
  match ps.find? fun p => p.ref.val == n with
  | some p => phaseOffset (s.placedPhase p) (s.refPeriod p).1 (s.refPeriod p).2
  | none => 0

/-- The reference in use becomes `n`. -/
def State.setInUse (s : State) (n : Nat) : State :=
  (forAll (upto 8) (fun k t => t.setB (Reg.coxRefStat k) 4 (k == n)) s).setF Reg.coxState 6 4 n

/-- The Cox enters ACQUIRE on `n` (R63, R68): by one step from FREE_RUN with a sync or link reference in STEP mode, else through
the build-out. -/
def State.acquire (s : State) (ps : List RefPhase) (n : Nat) : State :=
  let step := s.coxState == 0 && s.b Reg.coxCtrl 4 && (n < 2 || 6 ≤ n)
  let t := ((s.setInUse n).setF Reg.coxState 1 0 1).wtrStop.onCox fun c => { c with lockGates := 0, due := none }
  if step then
    let period := s.clock.len
    let ahead := match ps.find? fun p => p.ref.val == n with
      | some p => ((-s.placedPhase p / 50) % (period : Int)).toNat
      | none => 0
    let len := if 2 * ahead < period then ahead + period else ahead
    (t.onClock fun c => { c with len := len }).coxNote 12 .coxStep
  else t.addBuildout (s.measured ps n)

/-- The holdover value of R70: the mean of up to 60 gates of LOCKED time that ended at least 2 s before the exit. DESIGN CHOICE:
rounded down to whole ppt, for which the spec states no rule. -/
def holdMean (history : List Int) (old : Int) : Int :=
  let l := (history.drop 2).take 60
  if l.isEmpty then old else l.foldl (· + ·) 0 / (l.length : Int)

/-- The Cox leaves ACQUIRE or LOCKED, or is forced, to FREE_RUN (0) or HOLDOVER (3) (R69, R70). -/
def State.coxLeave (s : State) (dst : Nat) : State :=
  if s.coxState = dst then s
  else
    let s := if s.coxState = 2 then
        (s.setI32 Reg.coxHoldVal (holdMean s.cox.history (s.i32 Reg.coxHoldVal))).coxNote 1 .coxLockLost
      else s
    let s := (s.wtrStop).onCox fun c =>
      { c with lockGates := 0, due := none, held := false, adopt := false, adoptNum := none, mismatch := false }
    let s := (forAll (upto 8) (fun k t => t.setB (Reg.coxRefStat k) 4 false) s).setF Reg.coxState 1 0 dst
    if dst = 3 then s.coxNote 2 .coxHoldover else s.coxNote 3 .coxFreeRun

/-- HOLDOVER when a holdover value exists, else FREE_RUN (R69). -/
def State.coxFall (s : State) : State := s.coxLeave (if s.b Reg.coxState 11 then 3 else 0)

/-- The Cox enters LOCKED (R68, R76). -/
def State.enterLocked (s : State) : State :=
  let s := (s.setF Reg.coxState 1 0 2).coxNote 0 .coxLocked
  s.onCox fun c => { c with
    lockGates := 0, mismatch := false
    adopt := s.b Reg.coxCtrl 5 && decide (6 ≤ s.inUse) && !s.running }

/-- A switch starts (R64): the loop holds its control value. -/
def State.startSwitch (s : State) (n : Nat) : State :=
  ((s.wtrStop).onCox fun c => { c with switch := some ⟨n, 1, 0, true⟩, due := none, storedFall := [] }).setB Reg.coxState 8 true

/-- The boundary of a switch in progress (R64, R66). A reference lost in the first stroke leaves the build-out as it is. DESIGN
CHOICE: one lost in the second leaves the offset, which that stroke has added by then, in the build-out. -/
def State.switchStep (s : State) (ps : List RefPhase) (w : Switch) : State :=
  let fit := w.fit && s.qualified w.target
  if w.phase = 1 then
    let d := s.measured ps w.target
    let t := s.onCox fun c => { c with switch := some { w with phase := 2, offset := d, fit } }
    if fit then t.addBuildout d else t
  else
    let t := (s.onCox fun c => { c with switch := none, storedSel := false, held := !fit }).setB Reg.coxState 8 false
    if fit then
      ((t.setInUse w.target).countPerf Reg.coxSwitchCnt 16 1).coxNote 6 .coxSwitch
        |>.coxJudge s.cox.storedSel (s.cox.storedFall.contains w.target)
    else match t.coxWinner with
      | some n => t.onCox fun c => { c with due := some n }
      | none => t.coxFall

/-- A switch in progress ends with FREE_RUN, which an entry into FAILED brings at the next boundary from any state (R69). -/
def State.switchDrop (s : State) : State :=
  (s.onCox fun c => { c with switch := none, storedSel := false }).setB Reg.coxState 8 false

/-- What the Cox's mode, state and decisions do at a boundary when no switch is in progress (R61, R63, R69). -/
def State.coxTransition (s : State) (ps : List RefPhase) : State :=
  let due := s.cox.due
  if s.cox.failDue then (s.coxLeave 0).onCox fun c => { c with failDue := false }
  else if s.coxMode = 2 then s.coxLeave 0
  else if s.coxMode = 1 then s.coxFall
  else if s.coxState = 0 ∨ s.coxState = 3 then
    match s.coxWinner with
    | some w => if s.loadState = 4 then s else s.acquire ps w
    | none => s
  else if !s.qualified s.inUse || s.cox.held then
    match s.coxWinner with
    | some w => if s.coxState = 1 then s.acquire ps w else s.startSwitch w
    | none => s.coxFall
  else match due with
    | some w =>
      if !s.qualified w then s.onCox fun c => { c with due := none }
      else if s.coxState = 1 then s.acquire ps w else s.startSwitch w
    | none => if s.coxState = 1 ∧ 2 ≤ s.cox.lockGates then s.enterLocked else s

/-- The status pins of R75. -/
def State.coxPins (s : State) : State :=
  let st := s.coxState
  let alarm := (upto 8).any fun n => s.refOn n &&
    (s.b (Reg.coxRefStat n) 1 || !s.b (Reg.coxRefStat n) 3 || !s.b (Reg.coxRefStat n) 0)
  (s.setB Reg.coxState 9 ((st == 1 || st == 2) && s.inUse != s.f Reg.coxSel 2 0)).onPins fun p =>
    { p with coxLock := st == 2, coxHold := st == 3, coxAlarm := alarm, coxSel := if st = 0 then 0 else s.inUse }

/-- The level of `SYNC_OUT_n`: active or not (R74). -/
def State.syncPin (s : State) (n : Nat) (active : Bool) : State :=
  let pol := s.b (Reg.coxSyncOut n) 30
  let v := active != pol
  s.onPins fun p => if n = 0 then { p with syncOut0 := v } else { p with syncOut1 := v }

/-- `SYNC_OUT_n` at a stroke boundary (R74). -/
def State.syncPulse (s : State) (n : Nat) : State :=
  let div := s.f (Reg.coxSyncOut n) 9 8 + 1
  s.syncPin n (s.b (Reg.coxSyncOut n) 31 && s.clock.stroke.toNat % div == 0)

/-- The end of a pulse, or an output that is disabled (R74). -/
def syncPulseEnd (n : Nat) (s : State) : State := s.syncPin n false

/-- A write of `COX_SYNC_OUT_n` (R74, R77): a pulse in progress goes on under the new polarity, and a disabled output drives its
inactive level. -/
def syncOutWrite (n : Nat) (w : Word) (s : State) : State :=
  let active := (if n = 0 then s.pins.syncOut0 else s.pins.syncOut1) != s.b (Reg.coxSyncOut n) 30
  (s.wr (Reg.coxSyncOut n) (mergeMask 0xC00003FF (s.rd (Reg.coxSyncOut n)) w)).syncPin n (active && bit w 31)

/-- What the stroke period takes of the accumulator: 20 × 10^9 units a second over the rate in force, in 1 / `rateNum` (R13, R73). -/
def Clock.owed (c : Clock) : Nat := c.acc + 20000000000 * c.rateDen

/-- The Cox's part of a stroke boundary (step 1 of R14): the boundary falls with what the slew has moved it by, the accumulator
places the next, and the stroke number, selection and pins follow (R65, R69, R73, R75, R76). -/
def coxBoundary (ps : List RefPhase) (s : State) : State :=
  let locked := s.coxState == 2
  let s := s.slewUntil (s.clock.boundary + s.clock.len)
  let ended := s.clock.len
  let adopt := s.cox.adopt && !s.running
  let num : Stroke := match s.cox.adoptNum with
    | some k => if adopt then k else s.clock.stroke + 1
    | none => s.clock.stroke + 1
  let s := s.onClock fun c =>
    { c with stroke := num, boundary := c.boundary + ended, time := max c.time (c.boundary + ended), len := c.owed / c.rateNum, acc := c.owed % c.rateNum }
  let s := s.onCox fun c => { c with
    adopt := false, adoptNum := c.adoptNum.map (· + 1), lockedTime := c.lockedTime + if locked then ended else 0, slewAt := s.clock.boundary }
  let s := if s.cox.failDue then (s.switchDrop).coxTransition ps
    else match s.cox.switch with
      | some w => s.switchStep ps w
      | none => s.coxTransition ps
  (((s.coxTotal).coxPins).syncPulse 0).syncPulse 1

end Sys2Proof.Machine
end

