-- ==== Sys2Proof/Machine/Crypto.lean ====
section
/-! DEFINITION. The checks over bytes that the spec names by their standards: CRC-32 (R26), SHA-256 (R33, R375) and ECDSA P-256
(R33, R375). -/

namespace Sys2Proof.Machine

/-- One bit of the reflected CRC-32 with polynomial 0x04C1_1DB7 (R26). -/
def crcBit (c : Word) : Word := if c.getLsbD 0 then (c >>> 1) ^^^ 0xEDB88320 else c >>> 1

/-- One byte of the CRC-32. -/
def crcByte (c : Word) (b : Byte) : Word :=
  crcBit (crcBit (crcBit (crcBit (crcBit (crcBit (crcBit (crcBit (c ^^^ b.setWidth 32))))))))

/-- CRC-32 of a byte string (R26): the empty string gives 0. -/
def crc32 (bs : List Byte) : Nat := (bs.foldl crcByte 0xFFFFFFFF ^^^ 0xFFFFFFFF).toNat

/-! ### SHA-256 -/

/-- The primes that SHA-256 takes its constants from: the first 64. -/
def shaPrimes : List Nat := (upto 312).filter fun n => 2 ≤ n && (upto n).all fun d => d < 2 || n % d != 0

/-- The round constants: the first 32 bits of the fractional parts of the primes' cube roots. -/
def shaK : List Word := shaPrimes.map fun p => BitVec.ofNat 32 (rootBelow 3 36 (p * 2 ^ 96))

/-- The initial hash value: the same of the square roots of the first eight. -/
def shaInit : List Word := (shaPrimes.take 8).map fun p => BitVec.ofNat 32 (rootBelow 2 36 (p * 2 ^ 64))

/-- The next word of the message schedule, from the last 16, newest first. -/
def shaNext (w : List Word) : Word :=
  let w2 := w.getD 1 0; let w15 := w.getD 14 0
  ((w2.rotateRight 17) ^^^ (w2.rotateRight 19) ^^^ (w2 >>> 10)) + w.getD 6 0
    + ((w15.rotateRight 7) ^^^ (w15.rotateRight 18) ^^^ (w15 >>> 3)) + w.getD 15 0

/-- The message schedule of a block, newest word first. -/
def shaSchedule : Nat → List Word → List Word
  | 0, w => w
  | n + 1, w => shaSchedule n (shaNext w :: w)

/-- One round on the eight working variables. -/
def shaRound (v : List Word) (kw : Word × Word) : List Word :=
  match v with
  | [a, b, c, d, e, f, g, h] =>
    let t1 := h + ((e.rotateRight 6) ^^^ (e.rotateRight 11) ^^^ (e.rotateRight 25)) + ((e &&& f) ^^^ (~~~e &&& g)) + kw.1 + kw.2
    let t2 := ((a.rotateRight 2) ^^^ (a.rotateRight 13) ^^^ (a.rotateRight 22)) + ((a &&& b) ^^^ (a &&& c) ^^^ (b &&& c))
    [t1 + t2, a, b, c, d + t1, e, f, g]
  | v => v

/-- A big-endian word of four bytes. -/
def beWord (bs : List Byte) : Word := BitVec.ofNat 32 (beNat bs)

/-- The words of a 64-byte block. -/
def blockWords (bs : List Byte) : List Word := (upto 16).map fun i => beWord ((bs.drop (4 * i)).take 4)

/-- The hash value after one block. -/
def shaBlock (h : List Word) (bs : List Byte) : List Word :=
  let w := (shaSchedule 48 (blockWords bs).reverse).reverse
  List.zipWith (· + ·) h ((shaK.zip w).foldl shaRound h)

/-- The padding of a message of `n` bytes. -/
def shaPad (n : Nat) : List Byte := (0x80 : Byte) :: (List.replicate ((119 - n % 64) % 64) (0 : Byte) ++ beBytes 8 (8 * n))

/-- The hash value after a message of `n` blocks. -/
def shaBlocks : Nat → List Word → List Byte → List Word
  | 0, h, _ => h
  | n + 1, h, bs => shaBlocks n (shaBlock h (bs.take 64)) (bs.drop 64)

/-- SHA-256 of a byte string, as 32 bytes. -/
def sha256 (bs : List Byte) : List Byte :=
  let m := bs ++ shaPad bs.length
  (shaBlocks (m.length / 64) shaInit m).flatMap fun w => beBytes 4 w.toNat

/-! ### ECDSA over P-256 -/

/-- The field prime. -/
def p256p : Nat := 0xffffffff00000001000000000000000000000000ffffffffffffffffffffffff
/-- The group order. -/
def p256n : Nat := 0xffffffff00000000ffffffffffffffffbce6faada7179e84f3b9cac2fc632551
/-- The curve coefficient b; a is -3. -/
def p256b : Nat := 0x5ac635d8aa3a93e7b3ebbd55769886bc651d06b0cc53b0f63bce3c3e27d2604b
/-- The base point. -/
def p256g : Nat × Nat :=
  (0x6b17d1f2e12c4247f8bce6e563a440f277037d812deb33a0f4a13945d898c296,
   0x4fe342e2fe1a7f9b8ee7eb4a7c0f9e162bce33576b315ececbb6406837bf51f5)

/-- x^e modulo m, by the `fuel` low bits of e. -/
def powMod (m : Nat) : Nat → Nat → Nat → Nat
  | 0, _, _ => 1 % m
  | fuel + 1, x, e =>
    let r := powMod m fuel (x * x % m) (e / 2)
    if e % 2 = 1 then r * x % m else r

/-- The inverse modulo a 256-bit prime. -/
def invMod (m x : Nat) : Nat := powMod m 256 (x % m) (m - 2)

/-- The sum of two points; `none` is the point at infinity. -/
def ecAdd : Option (Nat × Nat) → Option (Nat × Nat) → Option (Nat × Nat)
  | none, q => q
  | p, none => p
  | some (x1, y1), some (x2, y2) =>
    if x1 = x2 ∧ (y1 + y2) % p256p = 0 then none
    else
      let l := if x1 = x2 then (3 * x1 * x1 + (p256p - 3)) * invMod p256p (2 * y1) % p256p
        else (y2 + p256p - y1) * invMod p256p (x2 + p256p - x1) % p256p
      let x3 := (l * l + 2 * p256p - x1 - x2) % p256p
      some (x3, (l * (x1 + p256p - x3) + p256p - y1) % p256p)

/-- The `k`-fold of a point, by the `fuel` low bits of k. -/
def ecMul : Nat → Nat → Option (Nat × Nat) → Option (Nat × Nat)
  | 0, _, _ => none
  | fuel + 1, k, q =>
    let r := ecMul fuel (k / 2) (ecAdd q q)
    if k % 2 = 1 then ecAdd r q else r

/-- Whether a 64-byte signature (r, then s, big-endian) over a 32-byte digest verifies under a 64-byte public key (X, then Y). -/
def ecdsaVerify (key digest sig : List Byte) : Bool :=
  let x := beNat (key.take 32); let y := beNat ((key.drop 32).take 32)
  let r := beNat (sig.take 32); let s := beNat ((sig.drop 32).take 32)
  let onCurve := decide (x < p256p ∧ y < p256p ∧ y * y % p256p = (x * x * x + (p256p - 3) * x + p256b) % p256p)
  if !onCurve || r = 0 || p256n ≤ r || s = 0 || p256n ≤ s then false
  else
    let w := invMod p256n s
    let z := beNat digest
    match ecAdd (ecMul 256 (z * w % p256n) (some p256g)) (ecMul 256 (r * w % p256n) (some (x, y))) with
    | none => false
    | some (vx, _) => vx % p256n == r

end Sys2Proof.Machine
end

