-- ==== Sys2Proof/Machine/Storage.lean ====
section
/-! DEFINITION. Parameter storage: pages, records and their slots, the keep-RAM image, host commands and page writes
(R385 to R406). -/

namespace Sys2Proof.Machine

/-- Bytes of parameter storage: a group of 16 whose programming was cut may differ between reads, so what it reads as is a free
value at each (R389). -/
def State.nvBytes (s : State) (a n : Nat) : List Byte :=
  let bs := readBytes erasedByte s.nvsMem a n
  if s.nvs.unsure.isEmpty then bs
  else bs.zipIdx.map fun e =>
    let i := a + e.2
    if s.nvs.unsure.contains (i / 16) then BitVec.ofNat 8 (Config.unstated 28 (s.nvs.reads * 2 ^ 19 + i)) else e.1

/-- Replace the storage's own state. -/
def State.onNvs (s : State) (g : NvsSt → NvsSt) : State := { s with nvs := g s.nvs }

/-- Storage is read: the next reading is another one (R389). -/
def State.nvRead (s : State) : State := s.onNvs fun n => { n with reads := n.reads + 1 }

/-- A flush of the keep RAM is due or in progress (R399). -/
def NvsSt.flushing (n : NvsSt) : Bool := n.powerDown && !n.flushDone

/-- Storage's own state as the light die starts: what its cells hold stays (R389). -/
def NvsSt.restarted (n : NvsSt) : NvsSt := { NvsSt.init with unsure := n.unsure, reads := n.reads }

/-- The header, the data and the validity of a slot of `pages` pages at byte `a` (R391, R392); `dev` is the record ID of a device
record, whose `LAYOUT` and `RID` are checked too. -/
structure SlotView where
  magic : Bool
  valid : Bool
  seq   : Nat
  rid   : Nat
  data  : List Byte
deriving DecidableEq, Repr

/-- Read a slot (R391, R392). -/
def State.slotView (s : State) (a pages : Nat) (dev : Option Nat) : SlotView :=
  let h := s.nvBytes a 16
  let len := leNat ((h.drop 6).take 2)
  let magic := decide (h.take 4 = [0x4E, 0x56, 0x52, 0x43])
  let fits := decide (1 ≤ len ∧ len ≤ pages * 256 - 17)
  let data := if fits then s.nvBytes (a + 16) len else []
  let rid := leNat ((h.drop 5).take 1)
  let crc := decide (leNat ((h.drop 12).take 4) = crc32 (h.take 12 ++ data))
  let commit := decide (s.nvBytes (a + pages * 256 - 1) 1 = [0x5A])
  let devOk := match dev with
    | none => true
    | some r => leNat ((h.drop 4).take 1) == 1 && rid == r
  { magic, valid := magic && fits && crc && commit && devOk, seq := leNat ((h.drop 8).take 4), rid, data }

/-- A slot whose `MAGIC` is correct but which fails another check is counted and reported with its first page (R392). -/
def State.noteTorn (s : State) (v : SlotView) (a : Nat) : State :=
  if v.magic && !v.valid then (s.countErr Reg.nvsTornCnt 16 1).raise .nvsSlotTorn 0 (a / 256) else s

/-- The winning slot of two (R393): 0 for A, 1 for B, with whether parity chose it. -/
def pickSlot (a b : SlotView) : Option (Nat × Bool) :=
  if !a.valid && !b.valid then none
  else if !b.valid then some (0, false)
  else if !a.valid then some (1, false)
  else
    let d := (b.seq + 2 ^ 32 - a.seq) % 2 ^ 32
    if d = 0 ∨ d = 2 ^ 31 then some (if a.seq % 2 = 0 then 0 else 1, true)
    else if d < 2 ^ 31 then some (1, false) else some (0, false)

/-- What a reading of a record's two slots finds, with the counts and events of R392 and R393; `who` is the `RID` of the event. -/
def State.readRecord (s : State) (a b pages : Nat) (dev : Option Nat) (who : Nat) : State × Option (Nat × Bool × SlotView) :=
  let va := s.slotView a pages dev
  let vb := s.slotView b pages dev
  let s := (s.nvRead.noteTorn va a).noteTorn vb b
  match pickSlot va vb with
  | none => (s, none)
  | some (w, c) =>
    let s := if c then (s.countErr Reg.nvsConflictCnt 16 1).raise .nvRecordConflict 0 who else s
    (s, some (w, c, if w = 0 then va else vb))

/-- The new `SEQ` of a record (R394). -/
def nextSeq : Option (Nat × Bool × SlotView) → Nat
  | none => 0
  | some (w, _, v) => (if v.seq % 2 = w then v.seq + 1 else v.seq + 2) % 2 ^ 32

/-- The bytes of a slot (R391): header, data, zeros, commit byte. -/
def slotImage (layout rid seq : Nat) (data : List Byte) (pages : Nat) : List Byte :=
  let head : List Byte := [0x4E, 0x56, 0x52, 0x43] ++ leBytes 1 layout ++ leBytes 1 rid ++ leBytes 2 data.length ++ leBytes 4 seq
  head ++ leBytes 4 (crc32 (head ++ data)) ++ data ++ List.replicate (pages * 256 - 17 - data.length) (0 : Byte) ++ [0x5A]

/-- The page writes of `bytes` from byte address `a` (R388), with `fuel` pages at most. -/
def pageWrites : Nat → Nat → List Byte → List (Nat × Nat × List Byte)
  | 0, _, _ => []
  | fuel + 1, a, bs =>
    if bs.isEmpty then []
    else
      let room := 256 - a % 256
      (a / 256, a % 256, bs.take room) :: pageWrites fuel (a + room) (bs.drop room)

/-- The page buffer of a page write: the page as read, with the new bytes merged (R387). -/
def State.pageBuffer (s : State) (p : Nat × Nat × List Byte) : List Byte :=
  let old := s.nvBytes (p.1 * 256) 256
  old.take p.2.1 ++ p.2.2 ++ old.drop (p.2.1 + p.2.2.length)

/-- A page write lands (R387): the page's other bytes keep their values, those of a group cut before the value now read. -/
def State.landPage (s : State) (p : Nat × Nat × List Byte) : State :=
  let s := if s.nvs.unsure.any fun g => g / 16 == p.1 then
      ({ s with nvsMem := writeBytes erasedByte s.nvsMem (p.1 * 256) (s.pageBuffer p) }).nvRead.onNvs fun n =>
        { n with unsure := n.unsure.filter fun g => g / 16 != p.1 }
    else { s with nvsMem := writeBytes erasedByte s.nvsMem (p.1 * 256 + p.2.1) p.2.2 }
  s.countPerf Reg.nvsPageWrites 31 1

/-- A job begins: for a record, its present winner gives `SEQ` and with it the slot (R394), which a host's `NVS_REC_SEQ` shows
(R402). -/
def State.beginJob (s : State) (j : NvsJob) : State :=
  match j.plan with
  | none => s.onNvs fun n => { n with cur := some j }
  | some p =>
    let (s, r) := s.readRecord p.slotA p.slotB p.pages p.dev p.who
    let seq := nextSeq r
    let slot := seq % 2
    let left := pageWrites p.pages (if slot = 0 then p.slotA else p.slotB) (slotImage p.layout p.rid seq p.data p.pages)
    let j := { j with left, plan := none, kind := match j.kind with | .host x _ => .host x slot | k => k }
    let s := match j.kind with | .host .. => s.wr Reg.nvsRecSeq (BitVec.ofNat 32 seq) | _ => s
    s.onNvs fun n => { n with cur := some j }

/-- A job starts when storage is idle, and waits otherwise (R403). -/
def State.startJob (s : State) (j : NvsJob) : State :=
  match s.nvs.cur with
  | none => s.beginJob j
  | some _ => s.onNvs fun n => { n with waiting := n.waiting ++ [j] }

/-- The next waiting job starts. -/
def State.nextJob (s : State) : State :=
  let s := s.onNvs fun n => { n with cur := none, held := false }
  match s.nvs.waiting with
  | [] => s
  | j :: js => (s.onNvs fun n => { n with waiting := js }).beginJob j

/-! ### The device records -/

/-- Power-on hours up to a time, when the matrix die's supplies have all been good since they were last brought up to one: a
sixteenth of an hour is 225 s (R396, R398). -/
def KeepRam.poweredTo (k : KeepRam) (good : Bool) (time : Nat) : KeepRam :=
  let sub := k.pohSub + (if good then time - k.pohFrom else 0)
  { k with poh := k.poh + sub / 4500000000000, pohSub := sub % 4500000000000, pohFrom := time }

/-- `PG_IN_0` to `PG_IN_3` all report good (R398). -/
def Pins.allGood (p : Pins) : Bool := (upto 4).all p.pgIn.contains

/-- The keep RAM with its power-on hours up to now (R398). -/
def State.keepNow (s : State) : KeepRam := s.keep.poweredTo s.pins.allGood s.clock.time

/-- The power-good inputs change: power-on hours count up to this moment under what they were (R398). -/
def State.setPg (s : State) (g : List Nat → List Nat) : State :=
  { s with keep := s.keepNow, pins := { s.pins with pgIn := g s.pins.pgIn } }

/-- The ledger entries 0 to 127 of a keep RAM. -/
def KeepRam.entry (k : KeepRam) (i : Nat) : Ledger := nget (fun _ => Ledger.init) k.ledgers i

/-- Replace one ledger entry of a keep RAM. -/
def KeepRam.setEntry (k : KeepRam) (i : Nat) (l : Ledger) : KeepRam :=
  { k with ledgers := nset (fun _ => Ledger.init) k.ledgers i l }

/-- The data of the `KEEP` record (R396). -/
def keepData (k : KeepRam) : List Byte :=
  leBytes 4 k.poh ++ leBytes 4 k.wakes ++ leBytes 4 k.restarts
    ++ ((upto 5).flatMap fun i => leBytes 4 (k.restartAt.getD i 0))
    ++ ((upto 128).flatMap fun i => leBytes 4 (k.entry i).hours)
    ++ ((upto 128).flatMap fun i => leBytes 1 ((k.entry i).frac / 2 ^ 20))
    ++ ((upto 128).flatMap fun i => leBytes 2 ((k.entry i).serial % 2 ^ 16))

/-- The data of the `LEDGERS` record (R397). -/
def ledgersData (k : KeepRam) : List Byte :=
  (upto 128).flatMap fun i =>
    let l := k.entry i
    leBytes 8 l.serial ++ leBytes 4 l.rated ++ leBytes 4 l.lastWake

/-- `n` bytes from offset `o` of a byte string, as a number. -/
def le (bs : List Byte) (o n : Nat) : Nat := leNat ((bs.drop o).take n)

/-- The keep RAM as the two records' data give it (R396, R397): an entry's hours count only when the low 16 bits of its serial
match; what its hours have reported before is not reported again (R377, R379). -/
def keepOf (keep ledgers : List Byte) (k : KeepRam) : KeepRam :=
  let base := { k with
    poh := le keep 0 4, pohSub := 0, wakes := le keep 4 4, restarts := le keep 8 4
    restartAt := ((upto 5).map fun i => le keep (0xC + 4 * i) 4).filter (· ≠ 0)
    ledgers := [] }
  (upto 128).foldl (fun k i =>
    let serial := le ledgers (16 * i) 8
    if serial = 0 then k
    else
      let same := serial % 2 ^ 16 == le keep (0x2A0 + 2 * i) 2
      let hours := if same then le keep (0x20 + 4 * i) 4 else 0
      let rated := le ledgers (16 * i + 8) 4
      k.setEntry i { Ledger.init with
        serial, rated, hours, lastWake := le ledgers (16 * i + 12) 4
        worn := same && decide (144 * rated ≤ 10 * hours), sat := hours == 0xFFFFFFFF
        frac := if same then le keep (0x220 + i) 1 * 2 ^ 20 else 0 }) base

/-- The light die fills the keep RAM from `KEEP` and `LEDGERS` when `VDD_LD` rises (R395, R397, R398). -/
def State.fillKeep (s : State) : State :=
  let (s, k) := s.readRecord 0 (4 * 256) 4 (some 1) 1
  let (s, l) := s.readRecord (8 * 256) (17 * 256) 9 (some 2) 2
  let s := if k.isNone then s.raise .nvRecordDefault 0 1 else s
  let s := if l.isNone then s.raise .nvRecordDefault 0 2 else s
  let kd := match k with | some (_, _, v) => v.data | none => []
  let ld := match l with | some (_, _, v) => v.data | none => []
  { s with
    keep := keepOf kd ld { s.keep with pwrHist := 0, thmHist := 0 }
    nvs := { s.nvs.restarted with keepDefault := k.isNone, ledgersDefault := (upto 128).all fun i => le ld (16 * i) 8 == 0 } }

/-- The write of the `KEEP` record from a snapshot (R394, R399). -/
def State.writeKeep (s : State) (k : KeepRam) : State :=
  s.startJob
    { kind := .keep, left := [], done := 0
      plan := some { slotA := 0, slotB := 4 * 256, pages := 4, dev := some 1, who := 1, layout := 1, rid := 1, data := keepData k } }

/-- The device writes the `LEDGERS` record (R394, R397); not once a power-down has been signalled (R390). -/
def State.writeLedgers (s : State) : State :=
  if s.nvs.powerDown then s
  else
    s.startJob
      { kind := .ledgers, left := [], done := 0
        plan := some
          { slotA := 8 * 256, slotB := 17 * 256, pages := 9, dev := some 2, who := 2, layout := 1, rid := 2, data := ledgersData s.keep } }

/-! ### Host commands -/

/-- A host command ends with a code (R402, R405, R406). -/
def State.nvsEnd (s : State) (code extra : Nat) : State :=
  ((s.wr Reg.nvsResult (BitVec.ofNat 32 (2 ^ 31 + extra + code))).setB Reg.nvsStatus 31 false).raise .nvsCmdDone 0 code

/-- Bytes of `NVS_BUF`. -/
def State.nvsBufBytes (s : State) (n : Nat) : List Byte :=
  ((upto ((n + 3) / 4)).flatMap fun i => leBytes 4 (s.rd (Reg.nvsBuf i)).toNat).take n

/-- Copy bytes into `NVS_BUF` from its first byte; the buffer's other bytes keep their values. -/
def State.toNvsBuf (s : State) (bs : List Byte) : State :=
  forAll (upto ((bs.length + 3) / 4)) (fun i t =>
    let old := leBytes 4 (t.rd (Reg.nvsBuf i)).toNat
    let part := (bs.drop (4 * i)).take 4
    t.wr (Reg.nvsBuf i) (BitVec.ofNat 32 (leNat (part ++ old.drop part.length)))) s

/-- The storage addresses of a command: first slot or range, second slot, length, slot pages. -/
def State.nvsArgs (s : State) : Nat × Nat × Nat × Nat :=
  (s.f Reg.nvsAddr 18 0, s.f Reg.nvsAddrB 18 0, s.f Reg.nvsLen 12 0, s.f Reg.nvsRecCfg 28 24)

/-- The first check of R402 that a command fails, in its order: 8 `BAD_OP`, 2 `RANGE`, 3 `ALIGN`, 1 `DENIED`, 7 `TOO_LONG`. -/
def State.nvsCheck (s : State) (op : Nat) : Option Nat :=
  let (a, b, len, pages) := s.nvsArgs
  let slots := op == 3 || op == 4
  if op < 1 ∨ 4 < op then some 8
  else if (op ≠ 3 ∧ (len < 1 ∨ 4096 < len)) ∨ (!slots ∧ 524288 < a + len)
      ∨ (slots ∧ (524288 < a + pages * 256 ∨ 524288 < b + pages * 256)) then some 2
  else if slots ∧ (pages < 1 ∨ 16 < pages ∨ a % 256 ≠ 0 ∨ b % 256 ≠ 0 ∨ (a < b + pages * 256 ∧ b < a + pages * 256)) then some 3
  else if (op = 2 ∧ a < 64 * 256) ∨ (op = 4 ∧ (a < 64 * 256 ∨ b < 64 * 256)) then some 1
  else if op = 4 ∧ pages * 256 - 17 < len then some 7
  else none

/-- A write of `NVS_CMD` with `GO` (R402, R403): ignored while a command is in progress, refused once a power-down is signalled. -/
def State.nvsCommand (s : State) (op : Nat) : State :=
  if s.b Reg.nvsStatus 31 then s
  else if s.nvs.powerDown then s.nvsEnd 6 0
  else match s.nvsCheck op with
    | some code => s.nvsEnd code 0
    | none =>
      let (a, b, len, pages) := s.nvsArgs
      if op = 1 then ((s.toNvsBuf (s.nvBytes a len)).nvRead).nvsEnd 0 0
      else if op = 2 then
        ((s.wr Reg.nvsResult 0).setB Reg.nvsStatus 31 true).startJob
          { kind := .host false 0, plan := none, left := pageWrites 17 a (s.nvsBufBytes len), done := 0 }
      else if op = 3 then
        let (s, r) := s.readRecord a b pages none 0xFF
        match r with
        | none => s.nvsEnd 4 0
        | some (w, c, v) =>
          ((s.toNvsBuf v.data).wr Reg.nvsRecSeq (BitVec.ofNat 32 v.seq)).nvsEnd 0 (c.toNat * 2 ^ 30 + w * 2 ^ 24)
      else
        ((s.wr Reg.nvsResult 0).setB Reg.nvsStatus 31 true).startJob
          { kind := .host true 0, left := [], done := 0
            plan := some
              { slotA := a, slotB := b, pages, dev := none, who := 0xFF, layout := s.f Reg.nvsRecCfg 15 8, rid := s.f Reg.nvsRecCfg 7 0
                data := s.nvsBufBytes len } }

/-- A write of `NVS_CMD` (R405): only `GO` starts anything. -/
def State.nvsCmdWrite (s : State) (v : Word) : State := if bit v 31 then s.nvsCommand (bf v 3 0) else s

/-- What ends with the last page of a job (R397, R402). -/
def State.jobEnd (s : State) (j : NvsJob) : State :=
  match j.kind with
  | .host _ slot => s.nvsEnd 0 (slot * 2 ^ 24 + (j.done % 256) * 2 ^ 16)
  | .aborted slot =>
    if s.matrixUp then s.nvsEnd 5 (slot * 2 ^ 24 + (j.done % 256) * 2 ^ 16) else s.raise .nvsCmdDone 0 5
  | .orphan => s
  | .ledgers => s.onNvs fun n => { n with ledgersDone := true }
  | .keep => s.onNvs fun n => { n with flushDone := true, snapshot := none }

/-- The page write in progress completes (R387, R388): the next page starts, or the job ends and the next one starts; while `VDD_LD`
is below 2.95 V (`low`) the erase that is next does not start (R390). -/
def nvsPageDone (low : Bool) (s : State) : State :=
  match s.nvs.cur with
  | none => s
  | some j =>
    let s := forAll (j.left.take 1) (fun p t => t.landPage p) s
    let j := { j with left := j.left.drop 1, done := j.done + min 1 j.left.length }
    let s := if j.left.isEmpty then (s.jobEnd j).nextJob else s.onNvs fun n => { n with cur := some j }
    s.onNvs fun n => { n with held := low && n.cur.isSome }

/-- The job in progress keeps only the page it is writing, none whose erase has not started (R390, R399, R401, R403). -/
def State.cutJob (s : State) (kind : NvsJobKind → NvsJobKind) : State :=
  s.onNvs fun n => { n with cur := n.cur.map fun j => { j with left := if n.held then [] else j.left.take 1, kind := kind j.kind } }

/-- The matrix die is reset: the host's command keeps the page in progress and reports nothing (R403). -/
def State.nvsMatrixReset (s : State) : State :=
  let s := match s.nvs.cur with
    | some { kind := .host .., .. } => s.cutJob fun _ => .orphan
    | _ => s
  s.onNvs fun n => { n with waiting := n.waiting.filter fun j => match j.kind with | .host .. => false | _ => true }

/-- A host write in progress or waiting as a power-down is signalled will end with `ABORTED` (R401). -/
def NvsJob.abort (j : NvsJob) : NvsJob :=
  match j.kind with | .host _ slot => { j with kind := .aborted slot } | _ => j

/-- A power-down meets the host's command before the reset that comes with it does (R401, R417, R432). -/
def State.abortHost (s : State) : State :=
  s.onNvs fun n => { n with cur := n.cur.map NvsJob.abort, waiting := n.waiting.map NvsJob.abort }

/-- The first signal of a power-down (R399): the keep RAM is snapshot, the page in progress completes, the rest of its write is
abandoned, and the `KEEP` record follows; `src` is 0 for `PFI_N`, 1 for the monitor, 2 for a thermal shutdown. -/
def State.signalPowerDown (s : State) (src : Nat) : State :=
  if s.nvs.flushing then s
  else
    let s := ((s.raise .nvsPowerFail 0 src).abortHost).cutJob fun k => match k with | .ledgers => .orphan | k => k
    let ended := s.nvs.waiting.filter fun j => match j.kind with | .aborted _ => true | _ => false
    let keep := s.keepNow
    let s := { s with keep, nvs := { s.nvs with powerDown := true, snapshot := some keep, flushDone := false, waiting := [] } }
    (forAll ended (fun j t => t.jobEnd j) s).writeKeep keep

/-- The keep-RAM flush completes its `KEEP` record (R399, R400). -/
def keepFlushDone (s : State) : State :=
  match s.nvs.cur with
  | some j =>
    if j.kind = .keep then
      let s := forAll j.left (fun p t => t.landPage p) s
      (s.jobEnd j).nextJob
    else s
  | none => s

/-- Where a page write was when power failed (R389); a page whose erase has not started is as it was (R390). -/
def State.tearPage (s : State) (cut : Sys2Proof.PageCut) : State :=
  match if s.nvs.held then none else s.nvs.cur with
  | none => s
  | some j =>
    match j.left with
    | [] => s
    | p :: _ =>
      let new := s.pageBuffer p
      let (junk, s) := s.fresh 2048
      let torn := leBytes 256 junk.toNat
      let rest := s.nvs.unsure.filter fun g => g / 16 != p.1
      match cut with
      | .merging => s
      | .erasing =>
        ({ s with nvsMem := writeBytes erasedByte s.nvsMem (p.1 * 256) torn }).onNvs fun n => { n with unsure := rest }
      | .group g =>
        let after := new.take (16 * g) ++ (torn.drop (16 * g)).take 16 ++ List.replicate (240 - 16 * g) (0xFF : Byte)
        ({ s with nvsMem := writeBytes erasedByte s.nvsMem (p.1 * 256) after }).onNvs fun n =>
          { n with unsure := (p.1 * 16 + g) :: rest }

end Sys2Proof.Machine
end

