-- ==== Sys2Proof/Machine/Reset.lean ====
section
/-! DEFINITION. What a reset of the matrix die does to every part of the state (R10, R43, R69, R436, R441). -/

namespace Sys2Proof.Machine

/-- The registers whose content the light die holds in the register file (R10). -/
def lightDieRegs : List Nat := [Reg.pwrPgFailCnt, Reg.nvsPageWrites, Reg.nvsTornCnt, Reg.nvsConflictCnt]

/-- The `RWS` registers of B0 (R485). -/
def rwsRegs : List Nat := [Reg.glbIfHost, Reg.glbScratch 0, Reg.glbScratch 1, Reg.glbScratch 2, Reg.glbScratch 3]

/-- Every register takes its reset value, but those the light die holds and, at a host warm reset, the `RWS` registers (R10). -/
def State.resetRegs (s : State) (warm : Bool) : State :=
  { s with regs := s.regs.filter fun e => lightDieRegs.contains e.1 || (warm && rwsRegs.contains e.1) }

/-- Memory that segments have filled, of the segment types that satisfy `p`, is as if it had never been filled (R38, R43). DESIGN
CHOICE: what was there before is not kept, so it reads as memory that nothing has written. -/
def State.wipe (s : State) (p : Nat → Bool) : State :=
  let gone := s.loader.filled.filter fun e => p e.1
  let rest := fun (store : Bool) (m : NMap Byte) =>
    if gone.any fun e => e.2.1 == store then
      m.filter fun b => !gone.any fun e => e.2.1 == store && e.2.2.1 ≤ b.1 && b.1 < e.2.2.1 + e.2.2.2
    else m
  { s with
    fstore := rest true s.fstore
    work := rest false s.work
    loader := { s.loader with filled := s.loader.filled.filter fun e => !p e.1 } }

/-- The thermal monitor of the matrix die and what its registers show start anew, and sensors marked broken are in use again; the light die's judge of
temperature carries on (R409, R416). -/
def ThmSt.matrixReset (t : ThmSt) : ThmSt :=
  { t with raw := [], plain := [], ldShown := [], off := [], warn := ThrSt.init, throt := ThrSt.init, shdn := ThrSt.init, thrSub := 0, inForce := false, ldOff := 0, ldFail := false }

/-- The pins of the matrix die in reset (R441). -/
def Pins.matrixReset (p : Pins) : Pins :=
  { p with coxLock := false, coxHold := false, coxAlarm := false, coxSel := 0, syncOut0 := false, syncOut1 := false }

/-- What a host warm reset leaves of the synthesizers and the link: `SYN_CORE` and `SYN_PCIE` stay locked on the bands they hold and
choose from the boot ROM again at their next acquisition, the PCIe link stays as it is (R82, R436, R457). -/
def State.warmKept (s t : State) : State :=
  let t := forAll [Reg.synStat 0, Reg.synStat 6, Reg.quayPcieStat] (fun a u => u.wr a (s.rd a)) t
  let t := (t.wr (Reg.synLockSum 0) (s.rd (Reg.synLockSum 0) &&& 0x41)).wr (Reg.synCoastSum 0) (s.rd (Reg.synCoastSum 0) &&& 0x41)
  { t with syn := (s.syn.filter fun e => e.1 == 0 || e.1 == 6).map fun e => (e.1, { e.2 with chart := false }) }

/-- A reset of the matrix die of any kind but the loss of `VDD_LD` (R436): every block starts anew, the light die keeps the keep
RAM, parameter storage, its sequencing and the events it has yet to report; flash, the one-time-programmable store and host
memory keep their content, and nothing of a loaded segment survives (R43). The requests that the quay holds for the PCIe endpoint through a host warm reset come after it (R437). -/
def State.resetMatrix (s : State) (warm : Bool) : State :=
  let old := s
  let s := ((s.wipe fun _ => true).resetRegs warm).nvsMatrixReset
  let s := { s with
    shadow := []
    clock  := { s.clock with stroke := 0, rateNum := 60, rateDen := 1, rateNext := none, len := 333333333, acc := 20 }
    pins   := s.pins.matrixReset
    loader := { LoaderSt.init with otpHash := s.loader.otpHash, otpTest := s.loader.otpTest }
    cox    := CoxSt.init
    syn    := []
    prt    := PrtSt.init
    xtb    := XtbSt.init
    que    := []
    slips  := []
    jik    := JikSt.init
    hed    := HedSt.init
    egr    := []
    aud    := AudSt.init
    lgt    := LgtSt.init
    fld    := FldSt.init
    thm    := s.thm.matrixReset
    quay   := QuaySt.init
    evt    := { EvtSt.init with deferred := s.evt.deferred }
    pwr    := { s.pwr with sleepPend := false, stayHeld := false, warmKeyAt := none, wdtWarned := false } }
  if warm then old.warmKept s else s

end Sys2Proof.Machine
end

