-- ==== Sys2Proof/Machine/Power.lean ====
section
/-! DEFINITION. Supply sequencing, wake, sleep, resets, the watchdog and power failure (R422 to R444). The light die runs all of
it (R21), so these commands act whatever the matrix die does. -/

namespace Sys2Proof.Machine

/-- Replace the power sequencer's own state. -/
def State.onPwr (s : State) (g : PwrSt → PwrSt) : State := { s with pwr := g s.pwr }

/-- A light-die command: it has its effect while the light die runs, none while it is unpowered or stopped (R419, R425). -/
def onLightDie (g : State → State) (s : State) : Res := .next (if s.pwr.ld == .running then g s else s)

/-- A cause of `PWR_RST_CAUSE` asserts (R438). -/
def State.addCause (s : State) (i : Nat) : State := s.onPwr fun p => { p with causes := p.causes ||| 2 ^ i }

/-- A bit of `PWR_HIST` arises while the matrix die goes down: the keep RAM holds it until the next wake (R443). -/
def State.holdHist (s : State) (i : Nat) : State := { s with keep := { s.keep with pwrHist := s.keep.pwrHist ||| 2 ^ i } }

/-- The matrix die's power-up starts with `PWR_EN_0` next (R427): `cause` is its bit of `PWR_RST_CAUSE`. What its RAMs held is
gone: nothing in them has been written. -/
def State.powerUp (s : State) (cause : Nat) : State :=
  let s := { s with fstore := [], work := [] }
  let s := ((s.addCause cause).setPg fun _ => []).onPins fun p => { p with pwrEn := [], extest := false }
  s.onPwr fun p => { p with phase := .raising 0, why := .asleep }

/-- A restart that counts under R418: the light-die time enters the list and the count, an error counter of 16 bits (R420), rises;
as it saturates `CNT_SAT` is raised (R11, R484). -/
def State.countRestart (s : State) : State :=
  let now := s.now / 10 ^ 9
  let k := { s.keep with
    restarts := min 65535 (s.keep.restarts + 1)
    restartAt := (now :: s.keep.restartAt).take 5
    thmHist := s.keep.thmHist ||| 2 ^ 3 }
  onlyIf (s.keep.restarts == 65534) (fun t => t.raise .cntSat (srcOfAddr Reg.thmRestarts) Reg.thmRestarts)
    { s with keep := k, thm := { s.thm with sayRestart := true } }

/-- A power-up that an accepted `WAKE` starts: the wake count rises, and a new wake's attempts and one `LEDGERS` write begin
(R397, R427, R428). DESIGN CHOICE: the wake count wraps modulo 2^32, for which the spec names no rule. -/
def State.wakeUp (s : State) : State :=
  let s := { s with keep := { s.keep with wakes := (s.keep.wakes + 1) % 2 ^ 32 } }
  let s := if s.pwr.resumed then (s.countRestart).onPwr fun p => { p with resumed := false } else s
  ((s.onPwr fun p => { p with attempts := 0 }).onNvs fun n => { n with ledgersDone := false }).powerUp 7

/-- The light die stops driving the sinks and the boost (R417, R431, R432). -/
def State.lightsOff (s : State) : State := { s with lgt := LgtSt.init }

/-- All four enables drop together (R417, R419, R432). -/
def State.dropAll (s : State) (why : OffWhy) : State :=
  ((s.setPg fun _ => []).onPins fun p => { p with pwrEn := [] }).onPwr fun p => { p with phase := .off, why, exitDue := false, sleepPend := false }

/-- An ordered power-down starts at `PWR_EN_n` (R430). -/
def State.powerDownFrom (s : State) (n : Nat) (why : OffWhy) : State :=
  s.onPwr fun p => { p with phase := .dropping n, why, exitDue := false, sleepPend := false }

/-- An accepted active level of `WAKE` now would complete a `WAKE` cycle: the inactive level was accepted 100 ms ago or longer
(R426). -/
def State.wakeCycle (s : State) : Bool := decide (s.pwr.wakeOffAt + 10 ^ 8 ≤ s.now)

/-- The accepted level of `WAKE` is active (R443); a `WAKE` cycle clears the list of thermal restarts (R418). -/
def State.wakeSeen (s : State) : State :=
  let keep := if s.wakeCycle then { s.keep with restartAt := [] } else s.keep
  { s with keep, pins := { s.pins with wake := true }, pwr := { s.pwr with wakeAt := s.now } }

/-- A `WAKE` cycle ends a stay-off after thermal restarts, power-good failures or supply faults (R418, R428, R431, R443). -/
def State.endLockout (s : State) : State :=
  let thermal := s.thm.lockout
  let s := if thermal then { s with
      thm := { s.thm with lockout := false, sayLockout := true }, keep := { s.keep with thmHist := s.keep.thmHist ||| 2 ^ 5 } }
    else s.holdHist 5
  s.onPwr fun p => { p with supplyAt := [], attempts := 0, fault := false }

/-- The accepted levels of `WAKE` (R426, R427, R429, R434): active. -/
def State.wakeActive (s : State) : State :=
  if s.pins.wake then s
  else
    let cycle := s.wakeCycle
    let s := s.wakeSeen
    match s.pwr.phase with
    | .off =>
      match s.pwr.why with
      | .asleep => s.wakeUp
      | .pgRetry => s.wakeUp
      | .wakeReturned => s
      | .supply => s
      | .powerFail => s
      | .thermal => s
      | .lockedOut => if cycle then s.endLockout.wakeUp else s
    | .dropping _ =>
      if s.pwr.why = .asleep then s.onPwr fun p => { p with why := .wakeReturned }
      else if s.pwr.why = .lockedOut && cycle then s.endLockout.onPwr fun p => { p with why := .wakeReturned }
      else s
    | .running | .inReset =>
      if s.pwr.sleepPend then
        (s.onPwr fun p => { p with sleepPend := false, stayHeld := false }).raiseFree .pwrSleepCancel 0
      else s
    | .raising _ | .waitPg _ | .hold => s

/-- The accepted levels of `WAKE`: inactive (R429, R434). -/
def State.wakeInactive (s : State) : State :=
  if !s.pins.wake then s
  else
    let s := (s.onPins fun p => { p with wake := false }).onPwr fun p => { p with wakeOffAt := s.now }
    match s.pwr.phase with
    | .running => (s.onPwr fun p => { p with sleepPend := true }).raiseFree .pwrSleepPending 0
    | .inReset => s.onPwr fun p => { p with sleepPend := true }
    | .dropping _ => if s.pwr.why = .wakeReturned ∨ s.pwr.why = .pgRetry then s.onPwr fun p => { p with why := .asleep } else s
    | .off => match s.pwr.why with
      | .pgRetry => s.onPwr fun p => { p with why := .asleep }
      | .wakeReturned => s.onPwr fun p => { p with why := .asleep }
      | _ => s
    | .raising _ | .waitPg _ | .hold => s

/-- `PWR_EN_n` rises (R427). -/
def pwrEnRise (s : State) : State :=
  match s.pwr.phase with
  | .raising n => (s.onPins fun p => { p with pwrEn := p.pwrEn ++ [n] }).onPwr fun p => { p with phase := .waitPg n }
  | _ => s

/-- `PG_IN_n` reads good (R427). -/
def pgGood (n : Nat) (s : State) : State :=
  if s.pwr.phase = .waitPg n then
    (s.setPg fun l => l ++ [n]).onPwr fun p =>
      { p with phase := if n = 3 then .hold else .raising (n + 1) }
  else s

/-- `PG_IN_n` has not read good 20 ms after its enable (R428). -/
def pgTimeout (n : Nat) (s : State) : State :=
  if s.pwr.phase = .waitPg n then
    let s := ((s.countErr Reg.pwrPgFailCnt 16 1).holdHist 4).raise .pwrPgTimeout 0 n
    let k := s.pwr.attempts + 1
    let s := s.onPwr fun p => { p with attempts := k, fault := p.fault || decide (3 ≤ k) }
    s.powerDownFrom n (if 3 ≤ k then .lockedOut else .pgRetry)
  else s

/-- One second after the power-down that followed a power-good failure (R428). -/
def pgRetry (s : State) : State :=
  if s.pwr.phase = .off ∧ s.pwr.why = .pgRetry then
    if s.pins.wake then s.powerUp 6 else s.onPwr fun p => { p with why := .asleep }
  else s

/-- A supply fault on `PG_IN_n` (R431). -/
def supplyFault (n : Nat) (s : State) : State :=
  let down := match s.pwr.phase with | .off | .dropping _ => true | _ => false
  if down || !s.pins.pgIn.contains n then s
  else
    let now := s.now
    let times := (now :: s.pwr.supplyAt).filter fun t => now ≤ t + 60 * 10 ^ 9
    let top := s.pins.pwrEn.foldl max 0
    let s := (((s.resetMatrix false).lightsOff).holdHist 3).addCause 6
    let s := s.onPwr fun p => { p with fault := true, supplyAt := times }
    let s := (s.setPg fun l => l.filter (· ≠ n)).powerDownFrom top
      (if 3 ≤ times.length then .lockedOut else .supply)
    s.raise .pwrSupplyFault 0 n

/-- 100 ms after a supply-fault power-down (R431). -/
def supplyRestart (s : State) : State :=
  if s.pwr.phase = .off ∧ s.pwr.why = .supply then
    if s.pins.wake then s.powerUp 6
    else s.onPwr fun p => { p with why := .asleep, fault := false }
  else s

/-- The next enable of an ordered power-down drops (R430). -/
def powerdownStep (s : State) : State :=
  match s.pwr.phase with
  | .dropping n =>
    let s := (s.setPg fun l => l.filter (· ≠ n)).onPins fun p => { p with pwrEn := p.pwrEn.filter (· ≠ n) }
    s.onPwr fun p => { p with phase := if n = 0 then .off else .dropping (n - 1) }
  | _ => s

/-- `WAKE` returned during an ordered power-down: 100 ms after `PWR_EN_0` dropped (R434). -/
def powerdownWakeRestart (s : State) : State :=
  if s.pwr.phase = .off ∧ s.pwr.why = .wakeReturned then
    if s.pins.wake then s.wakeUp else s.onPwr fun p => { p with why := .asleep }
  else s

/-- A reset that keeps the supplies starts or is extended (R436 to R438): `cause` is its bit of `PWR_RST_CAUSE`. -/
def State.keepSupplyReset (s : State) (cause : Nat) (warm : Bool) : State :=
  let pend := s.pwr.sleepPend
  ((s.resetMatrix warm).addCause cause).onPwr fun p => { p with phase := .inReset, sleepPend := pend || !s.pins.wake }

/-- `RESET_N` low for at least 10 µs (R437, R438): during a host warm reset it also resets what that reset keeps (R10). -/
def resetPinAssert (s : State) : State :=
  let s := s.onPins fun p => { p with resetN := false }
  match s.pwr.phase with
  | .running => (s.keepSupplyReset 3 false).onPwr fun p => { p with exitDue := false }
  | .inReset => (s.keepSupplyReset 3 false).onPwr fun p => { p with exitDue := false }
  | _ => s

/-- `RESET_N` returns high: the exit delay starts (R437). -/
def resetPinRelease (s : State) : State :=
  let s := s.onPins fun p => { p with resetN := true }
  match s.pwr.phase with
  | .inReset => s.onPwr fun p => { p with exitDue := true }
  | _ => s

/-- The watchdog expires (R440). -/
def wdtExpire (s : State) : State :=
  if s.matrixUp && s.b Reg.pwrWdtCfg 31 then
    ((s.holdHist 1).keepSupplyReset 2 false).onPwr fun p => { p with exitDue := true }
  else s

/-- A lockstep mismatch in a management pair (R436). -/
def lockstepMismatch (s : State) : State :=
  if s.matrixUp then (s.keepSupplyReset 1 false).onPwr fun p => { p with exitDue := true } else s

/-- A write of `PWR_RESET` (R439): the two writes of the key within 1 ms start a host warm reset; any other second write cancels
the sequence. -/
def pwrResetWrite (v : Word) (s : State) : State :=
  match s.pwr.warmKeyAt with
  | some t =>
    if v = 0x3E7A0001 ∧ s.now ≤ t + 10 ^ 6 then
      (s.keepSupplyReset 0 true).onPwr fun p => { p with exitDue := true }
    else s.onPwr fun p => { p with warmKeyAt := if t + 10 ^ 6 < s.now ∧ v = 0x7A3E0000 then some s.now else none }
  | none => if v = 0x7A3E0000 then s.onPwr fun p => { p with warmKeyAt := some s.now } else s

/-- A write of `PWR_WDT_CFG` (R440): once enabled, neither field changes until the next reset. -/
def wdtCfgWrite (v : Word) (s : State) : State :=
  if s.b Reg.pwrWdtCfg 31 then s
  else (s.wr Reg.pwrWdtCfg (mergeMask 0x8000FFFF (s.rd Reg.pwrWdtCfg) v)).onPwr fun p => { p with wdtWarned := false }

/-- A write of `PWR_WDT_KICK` (R440). -/
def wdtKickWrite (v : Word) (s : State) : State :=
  if !s.b Reg.pwrWdtCfg 31 then s
  else if bf v 15 0 = 0xC0A5 then s.onPwr fun p => { p with wdtWarned := false }
  else wdtExpire s

/-- Half the watchdog's timeout has passed without a kick (R440). -/
def wdtWarn (s : State) : State :=
  if s.b Reg.pwrWdtCfg 31 && !s.pwr.wdtWarned then
    (s.onPwr fun p => { p with wdtWarned := true }).raiseFree .pwrWdtWarn 0
  else s

/-- The highest enable that is high. -/
def State.topEnable (s : State) : Nat := s.pins.pwrEn.foldl max 0

/-- A power-down signal of R399 from `PFI_N` (0) or the monitor (1) (R432, R434): one during the flush has no further effect, one
during a later power-up applies; what a lockout or a shutdown waits for still counts (R417, R418). -/
def State.powerFail (s : State) (src : Nat) : State :=
  if s.nvs.flushing then s
  else
    let why : OffWhy := if s.pwr.why = .lockedOut then .lockedOut else if s.thm.restartDue then .thermal else .powerFail
    let s := (((s.abortHost.resetMatrix false).lightsOff).holdHist 2).addCause 5
    ((s.dropAll why).onPwr fun p => { p with fault := true }).signalPowerDown src

/-- `PFI_N` low for 20 µs (R399, R432). -/
def pfiFall (s : State) : State := (s.onPins fun p => { p with pfiN := false }).powerFail 0

/-- `PFI_N` returns high (R432). -/
def pfiRise (s : State) : State := s.onPins fun p => { p with pfiN := true }

/-- The flush is done, 100 ms have passed and the supplies are good (R432). -/
def powerFailRestart (s : State) : State :=
  if s.pwr.phase = .off ∧ s.pwr.why = .powerFail ∧ s.nvs.flushDone ∧ s.pins.pfiN then
    if s.pins.wake then s.powerUp 5 else s.onPwr fun p => { p with why := .asleep, fault := false }
  else s

/-- `VDD_LD` falls below 2.80 V: the light die stops where it is (R389, R390). -/
def vddLdCollapse (cut : PageCut) (s : State) : State :=
  if s.pwr.ld = .absent then s
  else
    let s := if s.pwr.ld = .running then s.tearPage cut else s
    let s := ((s.resetMatrix false).lightsOff).dropAll .asleep
    { s with
      pwr := PwrSt.init, nvs := s.nvs.restarted, keep := KeepRam.init, thm := ThmSt.init, evt := EvtSt.init
      pins := { s.pins with wake := false } }

/-- The light die starts from nothing (R398, R416, R425): the registers it holds take new starting values, and the keep RAM is
filled from storage; `shdn` is its copy of `THM_SHDN`. -/
def State.lightDieStart (s : State) (shdn : Word) : State :=
  let s := { s with
    regs := s.regs.filter fun e => !lightDieRegs.contains e.1
    pwr := { PwrSt.init with ld := .running, resumed := s.pwr.resumed, wakeOffAt := s.now }
    thm := { ThmSt.init with ldShdn := shdn }, evt := EvtSt.init, keep := KeepRam.init
    pins := { s.pins with wake := false } }
  (s.fillKeep).addCause 8

/-- `VDD_LD` rises above 3.20 V (R425). -/
def vddLdRise (s : State) : State := if s.pwr.ld = .absent then s.lightDieStart ThmSt.init.ldShdn else s

/-- The sleep starts (R429): every transmitting lane sends one K23.7, then the ordered power-down follows. -/
def State.startSleep (s : State) (lanes : List Nat) : State :=
  let s := forAll lanes (fun p t => t.laneIdle p) s
  ((s.resetMatrix false).holdHist 0).powerDownFrom s.topEnable .asleep

/-! ### Thermal shutdown (R416 to R419) -/

/-- A thermal shutdown (R417, R418): it wins over every other activity. -/
def State.thermalShutdown (s : State) : State :=
  if s.thm.restartDue || s.thm.lockout then s
  else
    let now := s.now / 10 ^ 9
    let recent := s.keep.restartAt.filter fun t => now ≤ t + 600
    let lock := decide (5 ≤ recent.length)
    let s := ((s.abortHost.resetMatrix false).lightsOff).addCause 4
    let s := (s.dropAll (if lock then .lockedOut else .thermal)).onPwr fun p => { p with fault := true }
    let s := { s with thm := { s.thm with restartDue := !lock, lockout := lock, cool := 0 } }
    s.signalPowerDown 2

/-- The conditions of step 3 of R417 are met, with the flush of step 2 done and no power failure standing (R432, R434). -/
def thermalRestart (s : State) : State :=
  if s.thm.restartDue ∧ 4 ≤ s.thm.cool ∧ s.pwr.phase = .off ∧ s.pwr.why = .thermal ∧ s.nvs.flushDone ∧ s.pins.pfiN then
    let s := { s with thm := { s.thm with restartDue := false, cool := 0 } }
    if s.pins.wake then (s.countRestart).powerUp 4
    else s.onPwr fun p => { p with why := .asleep, fault := false }
  else s

/-- The light die stops at 140 °C (R419): the page in progress completes, the rest of any write is abandoned. -/
def State.lightDieStop (s : State) : State :=
  let s := ((s.resetMatrix false).lightsOff).dropAll .asleep
  let s := s.cutJob fun k => match k with | .host .. => .orphan | k => k
  let s := match s.nvs.cur with
    | some j => forAll j.left (fun p t => t.landPage p) s
    | none => s
  let s := s.onNvs fun n => { n with cur := none, held := false, waiting := [] }
  s.onPwr fun p => { p with ld := .stopped, fault := true, resumed := true }

/-- The comparator has read below 125 °C for 1 s (R419): the light die proceeds as when `VDD_LD` rises, and
keeps its copy of `THM_SHDN`, which only a rise of `VDD_LD` returns to the default (R416). -/
def lightDieResume (s : State) : State :=
  if s.pwr.ld = .stopped then
    let s := s.lightDieStart s.thm.ldShdn
    { s with keep := { s.keep with thmHist := s.keep.thmHist ||| 2 ^ 4 }, thm := { s.thm with sayLockout := true } }
  else s

end Sys2Proof.Machine
end

