-- ==== Sys2Proof/Machine/Thermal.lean ====
section
/-! DEFINITION. Thermal sensing, thresholds and shutdown (R407 to R421, R525). Temperatures are in 0.1 °C. -/

namespace Sys2Proof.Machine

/-- Replace the thermal part's own state. -/
def State.onThm (s : State) (g : ThmSt → ThmSt) : State := { s with thm := g s.thm }

/-- The group of a ring site (R407). -/
def siteGroup (c : Nat) : Nat := c / 24 * 2 + c % 8 / 4

/-- The partner sites of an anchor (R407). -/
def partners (k : Nat) : List Nat := if k = 0 then [9, 10] else if k = 1 then [13, 14] else if k = 2 then [33, 34] else [37, 38]

/-- The sites above, below, left and right of a site (R407). -/
def siteNeighbours (c : Nat) : List Nat :=
  (if 8 ≤ c then [c - 8] else []) ++ (if c < 40 then [c + 8] else []) ++ (if 0 < c % 8 then [c - 1] else [])
    ++ (if c % 8 < 7 then [c + 1] else [])

/-- A sensor of the matrix die is marked broken. -/
def State.broken (s : State) (c : Nat) : Bool := s.b (sensorReg c) 31

/-- The reading of a sensor in 0.1 °C. -/
def State.reading (s : State) (c : Nat) : Int := tempOf (s.rd (sensorReg c))

/-- The anchor whose offset a group uses (R408): its own, else that of the same row of groups, else that of the same columns. -/
def State.offsetSource (s : State) (k : Nat) : Nat :=
  let row := k / 2 * 2 + (1 - k % 2)
  let col := (1 - k / 2) * 2 + k % 2
  if !s.broken (48 + k) then k
  else if !s.broken (48 + row) then row
  else if !s.broken (48 + col) then col else k

/-- The offset O_k in 0.01 °C. -/
def State.groupOffset (s : State) (k : Nat) : Int := signed 16 (s.f (Reg.thmOfs k) 15 0)

/-- A reading moves towards the sensed temperature by the whole 0.1 °C steps between them (R525); the sensed value is in
0.01 °C. -/
def moveReading (reading sensed : Int) : Int := reading + (sensed - 10 * reading).tdiv 10

/-- A sensor's reading after a sample (R408, R525). -/
def State.takeReading (s : State) (c : Nat) (temp : Int) : State :=
  let s := s.onThm fun t =>
    { t with raw := nput c temp t.raw, plain := nput c (moveReading (nget (fun _ => 0) t.plain c) temp) t.plain }
  let sensed := if c < 48 then temp + s.groupOffset (s.offsetSource (siteGroup c)) else temp
  s.setF (sensorReg c) 15 0 (encode 16 (moveReading (s.reading c) sensed))

/-- Whether a sensor differs by more than 8 °C from the mean of the sensors that check it (R409). -/
def State.disagrees (s : State) (c : Nat) : Bool :=
  let refs := (if c < 48 then siteNeighbours c else partners (c - 48)).filter fun n => !s.broken n
  let need := if c < 48 then 2 else 1
  if refs.length < need then false
  else
    let sum := refs.foldl (fun a n => a + s.reading n) 0
    decide (80 * refs.length < (s.reading c * refs.length - sum).natAbs)

/-- A sensor is marked broken until the next reset (R409). -/
def State.markBroken (s : State) (c : Nat) : State :=
  let s := s.setB (sensorReg c) 31 true
  let s := if c < 32 then s.setB Reg.thmBrokenLo c true
    else if c < 48 then s.setB Reg.thmBrokenHi (c - 32) true else s.setB Reg.thmBrokenHi (c - 32) true
  let s := (s.setF Reg.thmStat 23 16 (s.f Reg.thmStat 23 16 + 1)).setB Reg.thmHist 2 true
  s.raise .thmSensorFail 0 c

/-- The cross-check of one sensor at one sample, against the readings of `v` (R409). -/
def State.crossCheck (s v : State) (c : Nat) : State :=
  if v.broken c then s
  else
    let k := if v.disagrees c then nget (fun _ => 0) s.thm.off c + 1 else 0
    let s := s.onThm fun t => { t with off := nset (fun _ => 0) t.off c k }
    if k = 16 then s.markBroken c else s

/-- The sensor codes of the matrix die. -/
def matrixSensors : List Nat := upto 52

/-- The hottest of a list of sensors by a reading, the lowest code first: its code and the reading. -/
def hottest (l : List (Nat × Int)) : Option (Nat × Int) :=
  l.foldl (fun b x => match b with
    | none => some x
    | some y => if y.2 < x.2 then some x else some y) none

/-- The governing temperature and its sensor (R410). -/
def State.governing (s : State) : Nat × Int :=
  let valid := matrixSensors.filter fun c => !s.broken c
  if valid.isEmpty then
    (hottest (matrixSensors.map fun c => (c, nget (fun _ => 0) s.thm.plain c))).getD (0, 0)
  else (hottest (valid.map fun c => (c, s.reading c))).getD (0, 0)

/-- One sample against a threshold and its release level (R412). -/
def ThrSt.sample (t : ThrSt) (temp thr rel : Int) : ThrSt :=
  if t.on then
    if temp < rel then
      if t.down + 1 = 4 then { up := 0, down := 0, on := false } else { t with down := t.down + 1 }
    else { t with down := 0 }
  else if thr ≤ temp then
    if t.up + 1 = 4 then { up := 0, down := 0, on := true } else { t with up := t.up + 1 }
  else { t with up := 0 }

/-- A threshold register's threshold and release level in 0.1 °C; the hysteresis is the field above bit 7 (R411, R420). -/
def levels (w : Word) (top : Nat) : Int × Int :=
  let thr : Int := bf w 7 0
  (10 * thr, 10 * (thr - bf w top 8))

/-- The reading lies within 4 °C of a threshold, or of the release level of an asserted one (R410). -/
def nearLevel (t : ThrSt) (temp : Int) (l : Int × Int) : Bool :=
  decide ((temp - l.1).natAbs ≤ 40) || (t.on && decide ((temp - l.2).natAbs ≤ 40))

/-- Throttle as three registers show it (R415). -/
def State.showThrottle (s : State) (on : Bool) : State :=
  ((s.setB Reg.thmStat 1 on).setB Reg.engStatus 31 on).setB Reg.lgtState 30 on

/-- The monitor samples every sensor (R409 to R416). -/
def thmSample (temps : List Sensed) (s : State) : State :=
  let s := forAll (temps.filter fun x => x.code.val < 52) (fun x t => t.takeReading x.code.val x.temp) s
  let v := s
  let s := forAll matrixSensors (fun c t => t.crossCheck v c) s
  let none := (matrixSensors.all s.broken)
  let s := (s.setB Reg.thmStat 3 none).setB Reg.thmStat 2 ([48, 49, 50, 51].all s.broken)
  let (code, temp) := s.governing
  let s := s.wr Reg.thmTmax (setFld (BitVec.ofNat 32 (encode 16 temp)) 21 16 code)
  let lw := levels (s.rd Reg.thmWarn) 11
  let lt := levels (s.rd Reg.thmThrot) 11
  let ls := levels (s.rd Reg.thmShdn) 12
  let w := s.thm.warn.sample temp lw.1 lw.2
  let t := s.thm.throt.sample temp lt.1 lt.2
  let d := s.thm.shdn.sample temp ls.1 ls.2
  let wOn := w.on && !s.thm.warn.on
  let wOff := !w.on && s.thm.warn.on
  let tOn := t.on && !s.thm.throt.on
  let tOff := !t.on && s.thm.throt.on
  let sub := s.thm.thrSub + (if t.on then (if s.b Reg.thmStat 8 then 1 else 16) else 0)
  let s := (s.onThm fun x => { x with warn := w, throt := t, shdn := d, thrSub := sub % 16 }).countPerf Reg.thmThrMs 31 (sub / 16)
  let s := s.setB Reg.thmStat 8 (nearLevel w temp lw || nearLevel t temp lt || nearLevel d temp ls)
  let s := s.setB Reg.thmStat 0 w.on
  let s := onlyIf wOn (fun x => (x.setB Reg.thmHist 0 true).raise .thmWarning 0 code) s
  let s := onlyIf wOff (fun x => x.raiseFree .thmWarningClr 0) s
  let s := s.showThrottle t.on
  let s := onlyIf tOn (fun x => (x.setB Reg.thmHist 1 true).raise .thmThrottle 0 code) s
  let s := onlyIf tOff (fun x => x.raiseFree .thmThrottleClr 0) s
  if d.on then s.thermalShutdown else s

/-- Once per second each group offset moves towards its anchor by at most 0.25 °C (R408). -/
def thmOffsetUpdate (s : State) : State :=
  let v := s
  forAll (upto 4) (fun k t =>
    let ps := (partners k).filter fun c => !v.broken c
    if v.broken (48 + k) || ps.isEmpty then t
    else
      let mean := ps.foldl (fun a c => a + nget (fun _ => 0) v.thm.raw c) 0 / (ps.length : Int)
      let target := 10 * v.reading (48 + k) - mean
      let o := v.groupOffset k
      t.setF (Reg.thmOfs k) 15 0 (encode 16 (o + clampI (-25) 25 (target - o)))) s

/-- A bit of `THM_HIST` sets, or is held in keep RAM while the matrix die is not running (R420). -/
def State.thmHistBit (s : State) (i : Nat) : State :=
  if s.matrixUp then s.setB Reg.thmHist i true
  else { s with keep := { s.keep with thmHist := s.keep.thmHist ||| 2 ^ i } }

/-- The light die samples the anchors and its own diodes (R409, R416, R419). -/
def ldThmSample (temps : List Sensed) (s : State) : State :=
  let s := forAll temps (fun x t =>
    t.onThm fun m => { m with ldRead := nput x.code.val (moveReading (nget (fun _ => 0) m.ldRead x.code.val) x.temp) m.ldRead }) s
  let s := s.onThm fun m => { m with ldShown := m.ldRead }
  let rdg (c : Nat) : Int := nget (fun _ => 0) s.thm.ldRead c
  let anchors := [48, 49, 50, 51]
  let ok := if anchors.all s.broken then anchors else anchors.filter fun c => !s.broken c
  let temp := ((hottest (ok.map fun c => (c, rdg c))).getD (48, 0)).2
  let l := levels s.thm.ldShdn 12
  let judge := s.thm.ldJudge.sample temp l.1 l.2
  let cool := if temp < l.2 then s.thm.cool + 1 else 0
  let hot := if 1400 ≤ max (rdg 52) (rdg 53) then s.thm.ldHot + 1 else 0
  let off := if 80 < (rdg 52 - rdg 53).natAbs then s.thm.ldOff + 1 else 0
  let fails := off = 16 && !s.thm.ldFail
  let s := s.onThm fun m => { m with ldJudge := judge, cool, ldHot := hot, ldOff := off, ldFail := m.ldFail || fails }
  let s := onlyIf fails (fun x => ((x.thmHistBit 2).raise .thmSensorFail 0 52).raise .thmSensorFail 0 53) s
  if 4 ≤ hot then s.lightDieStop
  else if judge.on then s.thermalShutdown else s

/-- A threshold value lies in its ranges (R411). -/
def thresholdFits (t : Threshold) (v : Word) : Bool :=
  let thr := bf v 7 0
  match t with
  | .warn => decide (80 ≤ thr ∧ thr ≤ 125 ∧ 1 ≤ bf v 11 8 ∧ bf v 11 8 ≤ 15)
  | .throt => decide (90 ≤ thr ∧ thr ≤ 125 ∧ 1 ≤ bf v 11 8 ∧ bf v 11 8 ≤ 15)
  | .shdn => decide (115 ≤ thr ∧ thr ≤ 130 ∧ 5 ≤ bf v 12 8 ∧ bf v 12 8 ≤ 30)

/-- The register of a threshold. -/
def thresholdReg : Threshold → Nat
  | .warn => Reg.thmWarn | .throt => Reg.thmThrot | .shdn => Reg.thmShdn

/-- The fields of a threshold register. -/
def thresholdMask (t : Threshold) : Word := if t = .shdn then 0x1FFF else 0xFFF

/-- A threshold register takes a value; the light die keeps a copy of `THM_SHDN` (R416). -/
def State.takeThreshold (s : State) (t : Threshold) (v : Word) : State :=
  let s := s.wr (thresholdReg t) v
  if t = .shdn then s.onThm fun m => { m with ldShdn := v } else s

/-- A value for a threshold register from the host (R411, R416): accepted, or ignored whole with `ORDER_ERR`. -/
def State.putThreshold (s : State) (t : Threshold) (v : Word) : State :=
  let v := v &&& thresholdMask t
  let thr (x : Threshold) : Nat := if x = t then bf v 7 0 else s.f (thresholdReg x) 7 0
  if thresholdFits t v && decide (thr .warn < thr .throt ∧ thr .throt < thr .shdn) then s.takeThreshold t v
  else s.setB Reg.thmHist 6 true

/-- The thresholds that a segment places (R411, R416), judged together: one out of its range is ignored, all are when the rest
leaves the order. -/
def State.placeThresholds (s : State) (ws : List (Nat × Word)) : State :=
  let given (t : Threshold) : Option Word := ((ws.filter fun e => e.1 == thresholdReg t).getLast?).map fun e => e.2 &&& thresholdMask t
  let fit (t : Threshold) : Option Word := (given t).bind fun v => if thresholdFits t v then some v else none
  let thr (t : Threshold) : Nat := bf ((fit t).getD (s.rd (thresholdReg t))) 7 0
  let all : List Threshold := [.warn, .throt, .shdn]
  let ordered := decide (thr .warn < thr .throt ∧ thr .throt < thr .shdn)
  let s := onlyIf ordered (forAll all fun t u => match fit t with | some v => u.takeThreshold t v | none => u) s
  onlyIf (all.any fun t => (given t).isSome && (!ordered || (fit t).isNone)) (·.setB Reg.thmHist 6 true) s

/-- A host write of a threshold register (R411): `THM_SHDN` is locked from RUNNING. -/
def thresholdWrite (t : Threshold) (v : Word) (s : State) : State :=
  if t = .shdn ∧ s.running then s else s.putThreshold t v

end Sys2Proof.Machine
end

