-- ==== Sys2Proof/Machine/Light.lean ====
section
/-! DEFINITION. Lighting: the stroke message, PWM and scan, boost, backlight zones, lamps, derating and diagnosis
(R350 to R371). Luminances, levels and duties are in 1/65,536, voltages in mV. -/

namespace Sys2Proof.Machine

/-- Replace the lighting half's own state. -/
def State.onLgt (s : State) (g : LgtSt → LgtSt) : State := { s with lgt := g s.lgt }

/-- What `LIGHT` says of string `c`. -/
def State.strCfg (s : State) (c : Nat) : StringCfg := nget (fun _ => { unit := none, bins := 0 }) s.lgt.cfg.strings c

/-- String `c` beside its registers. -/
def State.str (s : State) (c : Nat) : StringSt := nget (fun _ => StringSt.init) s.lgt.strings c

/-- The sink of a string (R351). -/
def sinkOf (c : Nat) : Nat := if c < 512 then c / 256 * 16 + c % 16 else c - 512 + 32

/-- String `c` is in use on a sink in use (R351, R370). -/
def State.strUsed (s : State) (c : Nat) : Bool :=
  s.b (Reg.lgtStr c) 31 && s.b (Reg.lgtChCfg (sinkOf c)) 31 && (s.f (Reg.lgtStr c) 30 29 == 1 || s.f (Reg.lgtStr c) 30 29 == 2)

/-- The strings that a sink can drive, in ascending order: a matrix column's cells, or the direct channel's one. -/
def sinkStrings (n : Nat) : List Nat :=
  if n < 32 then (upto 16).map fun l => n / 16 * 256 + l * 16 + n % 16 else [512 + (n - 32)]

/-- The strings that the sinks drive in the PWM period in progress: each matrix's current line, and the direct channels
(R352, R353). -/
def State.driven (s : State) : List Nat :=
  ((upto 16).map fun c => s.lgt.lineA * 16 + c) ++ ((upto 16).map fun c => 256 + s.lgt.lineB * 16 + c)
    ++ (upto 16).map fun c => 512 + c

/-! ### Amplitude, trim and life compensation (R362) -/

/-- Only the identity of unit `u` is read: a camera head, by its record or by its port (R372). -/
def State.identOnly (s : State) (u : Nat) : Bool :=
  u < 512 && (s.f (Reg.fldUnitStat u) 28 27 == 2 || s.f (Reg.prtCfg u) 29 27 == 1)

/-- The 8 bytes of the `BINS` entry of a string, when its unit's record has been read and is not INVALID (R374, R376). -/
def State.binsOf (s : State) (c : Nat) : Option (List Byte) :=
  match (s.strCfg c).unit with
  | none => none
  | some u =>
    let st := s.rd (Reg.fldUnitStat u)
    if bit st 31 && decide (bf st 30 29 ≠ 0) && !s.identOnly u then
      some (((nget (fun _ => UnitSt.init) s.fld.units u).record.drop (0x20 + 8 * (s.strCfg c).bins)).take 8)
    else none

/-- T_BIN of a string in 1/4,096 (R362). -/
def State.trimOf (s : State) (c : Nat) : Nat :=
  match s.binsOf c with
  | some b => nget (fun _ => s.lgt.cfg.trimNominal) s.lgt.cfg.trims (le b 6 1)
  | none => s.lgt.cfg.trimNominal

/-- C_LIFE of a string in 1/4,096: that of its unit's ledger, 1 without one (R362, R376). -/
def State.lifeOf (s : State) (c : Nat) : Nat :=
  match (s.strCfg c).unit with
  | none => 4096
  | some u => match (nget (fun _ => UnitSt.init) s.fld.units u).entry with
    | some k => (s.keep.entry k).comp
    | none => 4096

/-- The amplitude of a string in 0.05 mA, held to 120 mA (R362). -/
def State.amplitude (s : State) (c : Nat) : Nat :=
  min 2400 (s.f (Reg.lgtChCfg (sinkOf c)) 11 0 * s.trimOf c * s.lifeOf c / 2 ^ 24)

/-- The amplitude register of every sink is computed anew, from the first string in use on it (R362). -/
def State.refreshAmps (s : State) : State :=
  forAll (upto 48) (fun n t =>
    match (sinkStrings n).find? t.strUsed with
    | some c => t.wr (Reg.lgtChAmp n) (BitVec.ofNat 32 (t.trimOf c * 2 ^ 16 + t.amplitude c))
    | none => t) s

/-! ### Zones (R359) -/

/-- The transfer table of R359. -/
def State.transfer (s : State) (i : Nat) : Nat := s.f (Reg.lgtTWord i) 16 0

/-- A zone's level in 1/65,536 and compensation gain in 1/1,024 from its statistics (R359); `floor` is the greatest floor that
applies. -/
def State.zoneLevel (s : State) (ymax ymean floor : Nat) : Nat × Nat :=
  let mix := s.f Reg.lgtZoneCfg 7 0
  let num := max (256 * (ymax - 64)) (mix * (ymean - 64))
  let num := min num (256 * 876)
  let n10 := (2048 * num + 256 * 876) / (2 * 256 * 876)
  let lam := max (s.transfer n10) floor
  let n10 := if s.transfer n10 < floor then ((upto 1025).find? fun i => decide (lam ≤ s.transfer i)).getD 1024 else n10
  (lam, min (1048576 / max n10 1) 4095)

/-! ### Lamps (R361, R363) -/

/-- CIE L* of a relative luminance, in 1/65,536 (R361). -/
def lstar (y : Nat) : Nat :=
  if 8856 * 65536 < y * 1000000 then 116 * rootBelow 3 18 (y * 2 ^ 32) - 16 * 65536 else y * 9033 / 10

/-- The relative luminance of an L*. -/
def unLstar (l : Nat) : Nat :=
  if 8 * 65536 < l then (l + 16 * 65536) ^ 3 / (116 ^ 3 * 2 ^ 32) else l * 10 / 9033

/-- The luminance a fade has reached: L* moves linearly (R361). -/
def fadeLevel (f : Fade) : Nat :=
  let a := lstar f.start; let b := lstar f.target
  if f.total ≤ f.elapsed then f.target
  else unLstar ((a * (f.total - f.elapsed) + b * f.elapsed) / f.total)

/-- The luminance lamp `l` runs at now. -/
def State.lampNow (s : State) (l : Nat) : Nat := nget (fun _ => 0) s.lgt.lampNow l

/-- The PWM counts of one period (R352). -/
def State.pwmCounts (s : State) : Nat := 2 ^ (16 - s.f Reg.lgtPwmCfg 2 0)

/-- The lamp's bound icon, by head × 64 + icon, when it follows one (R361). -/
def State.lampIcon (s : State) (l : Nat) : Option Nat :=
  if s.b (Reg.lgtLampCfg l) 30 then some (s.f (Reg.lgtLampCfg l) 27 22 * 64 + s.f (Reg.lgtLampCfg l) 21 16) else none

/-- The lamp's icon, if it is bound to one, shows ON in the message applied. -/
def State.lampOn (s : State) (l : Nat) : Bool :=
  match s.lampIcon l, s.lgt.msg with
  | some i, some m => m.icons.contains i
  | some _, none => false
  | none, _ => true

/-- A lamp takes the level of a new message: a change of `LEVEL` starts a fade from the present luminance (R361). -/
def State.lampLevel (s : State) (old : Option LightMsg) (m : LightMsg) (l : Nat) : State :=
  let target := nget (fun _ => 0) m.levels l
  let before := match old with | some o => nget (fun _ => 0) o.levels l | none => 0
  let total := s.f (Reg.lgtLampCfg l) 9 0 * 320000
  if target = before then s
  else if total = 0 then s.onLgt fun g => { g with fades := ndel l g.fades, lampNow := nput l target g.lampNow }
  else s.onLgt fun g => { g with fades := nput l ⟨nget (fun _ => 0) g.lampNow l, target, 0, total⟩ g.fades }

/-- One PWM period of every fade. -/
def State.fadeStep (s : State) : State :=
  let counts := s.pwmCounts
  forAll s.lgt.fades (fun p t =>
    let f := { p.2 with elapsed := p.2.elapsed + counts }
    t.onLgt fun g => { g with
      lampNow := nput p.1 (fadeLevel f) g.lampNow
      fades := if f.total ≤ f.elapsed then ndel p.1 g.fades else nput p.1 f g.fades }) s

/-- A 3 × 3 determinant by columns. -/
def det3 (a b c : Int × Int × Int) : Int :=
  a.1 * (b.2.1 * c.2.2 - c.2.1 * b.2.2) - b.1 * (a.2.1 * c.2.2 - c.2.1 * a.2.2) + c.1 * (a.2.1 * b.2.2 - b.2.1 * a.2.2)

/-- Chromaticity and flux of an element: x, y and Φ. -/
def chroma (x y k : Int) : Int × Int × Int := (k * x, k * y, k * (65536 - x - y))

/-- The element of an RGB lamp, by lamp and element number (R370). -/
def State.lampString (s : State) (l e : Nat) : Option Nat :=
  ((upto 16).map (512 + ·)).find? fun c =>
    s.strUsed c && s.f (Reg.lgtStr c) 30 29 == 2 && s.f (Reg.lgtStr c) 3 0 == l && s.f (Reg.lgtStr c) 5 4 == e

/-- The bin values of an element: x, y in 1/65,536 and Φ in 1/4,096; a unit without bins has none stated. -/
def State.elementBins (s : State) (l e : Nat) : Int × Int × Int :=
  match (s.lampString l e).bind s.binsOf with
  | some b => (le b 0 2, le b 2 2, le b 4 2)
  | none => (Config.unstated 2 (3 * l + e), Config.unstated 3 (3 * l + e), Config.unstated 4 (3 * l + e))

/-- The duties of the three elements of an RGB lamp, and whether the solution was adjusted (R363); a target or bins without a
solution leave the duties unstated. -/
def State.rgbDuties (s : State) (l : Nat) (level : Nat) : List Nat × Bool :=
  let colour := BitVec.ofNat 32 ((s.lgt.msg.map fun m => nget (fun _ => 0) m.colours l).getD 0)
  let x : Int := bf colour 31 16; let y : Int := bf colour 15 0
  let yt : Int := level * nget (fun _ => 65536) s.lgt.cfg.lumMax l / 65536
  let b (e : Nat) := s.elementBins l e
  let col (e : Nat) := chroma (b e).1 (b e).2.1 (b e).2.2
  let w := chroma x y yt
  let det := det3 (col 0) (col 1) (col 2)
  if det = 0 ∨ y = 0 then ((upto 3).map fun e => Config.unstated 5 (colour.toNat * 3 + e) % 65537, true)
  else
    let raw (e : Nat) : Int :=
      let di := if e = 0 then det3 w (col 1) (col 2) else if e = 1 then det3 (col 0) w (col 2) else det3 (col 0) (col 1) w
      (b e).2.1 * di * 4096 / (det * y)
    let ds := (upto 3).map raw
    let neg := ds.any fun d => decide (d < 0)
    let ds := ds.map Int.toNat
    let top := ds.foldl max 0
    let beyond := decide (65536 < top)
    (if beyond then ds.map fun d => d * 65536 / top else ds, neg || beyond)

/-! ### The applied duty (R364) -/

/-- D_T as a fraction: numerator and denominator (R364). -/
def State.derate (s : State) (ntc : Nat) : Nat × Nat :=
  let t := tempOf (s.rd (Reg.lgtNtc ntc))
  let knee : Int := 10 * s.f Reg.lgtDerateCfg 7 0
  let stop : Int := 10 * s.f Reg.lgtDerateCfg 15 8
  if s.b (Reg.lgtNtc ntc) 31 then (1, 2)
  else if t ≤ knee then (1, 1)
  else if stop ≤ t then (1, 2)
  else ((2 * (stop - knee) - (t - knee)).toNat, (2 * (stop - knee)).toNat)

/-- String `c` is of a zone marked under R318, or of a lamp bound to an icon: throttle does not dim it (R364). -/
def State.throttleExempt (s : State) (c : Nat) : Bool :=
  if s.f (Reg.lgtStr c) 30 29 = 1 then s.b (Reg.lgtStr c) 24
  else (s.lampIcon (s.f (Reg.lgtStr c) 3 0)).isSome

/-- What asks for a string: the zone level or the lamp's level, the start level before RUNNING (R356, R359, R361). -/
def State.strRequest (s : State) (c : Nat) : Nat :=
  let w := Reg.lgtStr c
  if s.f w 30 29 = 1 then
    if s.running then
      match s.lgt.msg with
      | some m => nget (fun _ => 0) m.zones (s.f w 21 16 * 512 + s.f w 8 0)
      | none => s.lgt.cfg.startLevel
    else s.lgt.cfg.startLevel
  else
    let l := s.f w 3 0
    if !s.lampOn l then 0
    else if s.b (Reg.lgtLampCfg l) 28 then (s.rgbDuties l (s.lampNow l)).1.getD (s.f w 5 4) 0
    else s.lampNow l

/-- The watch floor of a string while its request is not zero (R364). -/
def State.strFloor (s : State) (c : Nat) : Nat :=
  let w := Reg.lgtStr c
  if s.f w 30 29 = 1 then (if s.b w 24 then nget (fun _ => 0) s.lgt.cfg.zoneFloors (s.f w 21 16 * 512 + s.f w 8 0) else 0)
  else if (s.lampIcon (s.f w 3 0)).isSome then s.f (Reg.lgtLampFloor (s.f w 3 0)) 15 0 else 0

/-- The applied duty of a string (R364). -/
def State.appliedDuty (s : State) (c : Nat) : Nat :=
  let req := s.strRequest c
  if req = 0 then 0
  else
    let d := s.derate (s.f (Reg.lgtChCfg (sinkOf c)) 27 26)
    let thr := if s.b Reg.lgtState 30 && !s.throttleExempt c then s.f Reg.lgtDerateCfg 31 24 else 256
    min 65536 (max (req * d.1 * thr / (d.2 * 256)) (s.strFloor c))

/-- The bit reversal of `i` on `n` bits (R352). -/
def bitReverse : Nat → Nat → Nat
  | 0, _ => 0
  | n + 1, i => i % 2 * 2 ^ n + bitReverse n (i / 2)

/-- The on-time in counts of duty `duty` in period `i` of the cycle (R352). -/
def onTime (d duty i : Nat) : Nat :=
  duty / 2 ^ d + (if bitReverse d i < duty % 2 ^ d then 1 else 0)

/-- The pre-charge of matrix `m` in counts (R353, R370). -/
def State.preTime (s : State) (m : Nat) : Nat := max 1 (min 32 (s.f (Reg.lgtMatCfg m) 21 16)) * 8

/-- Matrix `m` changes from one line to another at a period boundary (R353). -/
def State.preCharge (s : State) (m old new : Nat) : PreCharge :=
  { old, new, pull := s.f (Reg.lgtMatCfg m) 6 0 * 100, fetOn := s.preTime m / 2, until_ := s.preTime m }

/-- The on-time of a string in the period in progress: a matrix cell's maps onto the period less `PRE_T` (R353). -/
def State.onCounts (s : State) (c : Nat) : Nat :=
  let d := s.f Reg.lgtPwmCfg 2 0
  let t := onTime d (min 65535 (s.appliedDuty c)) s.lgt.period
  if c < 512 then
    t * (s.pwmCounts - s.preTime (c / 256)) / s.pwmCounts
  else t

/-- The string's pin, or its matrix, is off for a short (R368). -/
def State.shortedOff (s : State) (c : Nat) : Bool := (s.str c).neighbour

/-- The duty that a string is driven at: none on a pin that a short holds off (R368). -/
def State.drivenDuty (s : State) (c : Nat) : Nat := if s.shortedOff c then 0 else s.appliedDuty c

/-- The active direct channels of a period, in ascending sink order: enabled, with a duty that is not zero (R354). -/
def State.activeDirect (s : State) : List Nat :=
  ((upto 16).map (512 + ·)).filter fun c => s.strUsed c && s.drivenDuty c != 0

/-- The counts from the period boundary to the start of a string's on-time: the end of the pre-charge for a cell (R353), the
stagger for a direct channel, the boundary itself for one that is not active (R354). -/
def State.startCount (s : State) (active : List Nat) (c : Nat) : Nat :=
  if c < 512 then s.preTime (c / 256)
  else if active.contains c then active.idxOf c * s.pwmCounts / active.length
  else 0

/-- The pins that a string's current passes: its sink's, and its line's in a matrix (R351, R368). -/
def stringPins (c : Nat) : List Nat := if c < 512 then [sinkOf c, 48 + c / 16] else [sinkOf c]

/-- How much of an on-time of `t` counts from count `a` lies in the 10 µs at the start of a period of `p` counts (R354, R368). -/
def windowLoss (p a t : Nat) : Nat := (min (a + t) 320 - a) + min (a + t - p) 320

/-! ### Diagnosis (R365 to R369) -/

/-- The status code of a string: NEIGHBOUR wins over OPEN, OPEN over SHORT (R369, R370). -/
def StringSt.status (x : StringSt) : Nat :=
  if x.neighbour then 3 else if x.open_ then 1 else if x.short then 2 else if x.untested then 4 else 0

/-- The lamp has an element that is OPEN or NEIGHBOUR, and asserts `FAULT_N` for it (R369). -/
def State.lampFaulty (s : State) (l : Nat) : Bool :=
  s.b (Reg.lgtLampCfg l) 31 && s.b (Reg.lgtLampCfg l) 29 &&
    (upto 16).any fun i =>
      let c := 512 + i
      s.strUsed c && s.f (Reg.lgtStr c) 30 29 == 2 && s.f (Reg.lgtStr c) 3 0 == l && ((s.str c).open_ || (s.str c).neighbour)

/-- The faults found in a string, by status code (R370). -/
def StringSt.faults (x : StringSt) : List Nat :=
  (if x.open_ then [1] else []) ++ (if x.short then [2] else []) ++ if x.neighbour then [3] else []

/-- A string's result appears in its registers and its sink's (R370). -/
def State.showStr (s : State) (c : Nat) (x : StringSt) : State :=
  let n := sinkOf c
  let s := (s.setF (Reg.lgtStr c) 28 26 x.status).setB (Reg.lgtStr c) 25 x.inferred
  (s.setF (Reg.lgtChStat n) 30 28 x.status).setB (Reg.lgtChStat n) 31 x.inferred

/-- `FAULT_N` follows the faulty lamps (R369). -/
def State.showLampFault (s : State) : State := s.setB Reg.glbFault 2 ((upto 16).any s.lampFaulty)

/-- The string's status appears in its registers, in its sink's and in the summaries; a new fault is counted and reported
(R369, R370, R371). -/
def State.setStr (s : State) (c : Nat) (x : StringSt) : State :=
  let old := s.str c
  let n := sinkOf c
  let s := s.onLgt fun g => { g with strings := nset (fun _ => StringSt.init) g.strings c x }
  let s := s.showStr c x
  let s := match x.headroom with | some h => s.setF (Reg.lgtChStat n) 7 0 (min 255 (h / 50)) | none => s
  let faulted := (sinkStrings n).any fun k => let y := s.str k; y.open_ || y.short || y.neighbour
  let s := if n < 32 then s.setB Reg.lgtFaultLo n faulted else s.setB Reg.lgtFaultHi (n - 32) faulted
  let s := forAll (x.faults.filter fun k => !old.faults.contains k) (fun k t =>
    (t.countErr (Reg.lgtChFaultCnt n) 16 1).raise .lampFault c (c + k * 2 ^ 12)) s
  let s := onlyIf (x.inferred && !old.inferred) (fun t => t.raise .lampInferred c c) s
  s.showLampFault

/-- `HEADROOM`, `SHORT_V` and `VMAX` in mV (R357, R366, R370). -/
def State.boostCfg (s : State) : Nat × Nat × Nat :=
  (s.f Reg.lgtBstCfg 6 0 * 10, s.f Reg.lgtBstCfg 15 8 * 100, s.f Reg.lgtBstCfg 25 16 * 50)

/-- The string with the lowest latest headroom among those in use and not OPEN, with that headroom (R357). -/
def State.limiting (s : State) : Option (Nat × Nat) :=
  s.lgt.strings.foldl (fun b p =>
    if !s.strUsed p.1 || p.2.open_ then b
    else match p.2.headroom, b with
      | none, _ => b
      | some h, none => some (p.1, h)
      | some h, some x => if h < x.2 then some (p.1, h) else b) none

/-- One measured on-time of a string (R365 to R367). -/
def State.measure (s : State) (m : StringMeas) : State :=
  let c := m.str.val
  let x := s.str c
  let (hd, sv, vmax) := s.boostCfg
  let lows := if m.low then x.lows + 1 else 0
  let limited := match s.limiting with | some (k, _) => k != c | none => false
  let excess := decide (hd + sv < m.headroom)
  let highs := if excess && limited then x.highs + 1 else 0
  let goods := if excess then 0 else x.goods + 1
  s.setStr c { x with
    lows, highs, goods, headroom := some m.headroom
    open_ := x.open_ || (decide (4 ≤ lows) && decide (vmax ≤ s.lgt.boostMv))
    short := if x.short then decide (goods < 16) else decide (16 ≤ highs)
    untested := false, inferred := false }

/-- One of a string's periods without a measurement (R367): its status carries `INFERRED`; the second part says that a
diagnostic pulse falls due. -/
def State.unmeasured (s : State) (c : Nat) : State :=
  let x := s.str c
  if x.inferred then s else s.setStr c { x with inferred := true }

/-- The periods of a string since its last diagnostic pulse (R367). -/
def State.countPeriod (s : State) (c : Nat) (pulse : Bool) : State :=
  let x := { s.str c with periods := if pulse then 0 else (s.str c).periods + 1 }
  s.onLgt fun g => { g with strings := nset (fun _ => StringSt.init) g.strings c x }

/-- Every string on a shorted pin is NEIGHBOUR, every other one not; a shorted line pin stops its matrix (R368). -/
def State.spreadShorts (s : State) : State :=
  let hit (p : Nat) : Bool := s.lgt.shorts.any fun q => q.1 == p || q.2 == p
  let line (m : Nat) : Bool := (upto 16).any fun l => hit (48 + 16 * m + l)
  let s := forAll (upto 32) (fun l t => t.setB Reg.lgtLineFault l (hit (48 + l))) s
  forAll ((upto 528).filter s.strUsed) (fun c t =>
    let bad := hit (sinkOf c) || (decide (c < 512) && line (c / 256))
    if (t.str c).neighbour = bad then t else t.setStr c { t.str c with neighbour := bad }) s

/-- A pin's neighbour test ends (R368): `high` lists the neighbours that read above 1.0 V. -/
def neighbourTest (high : List Nat) (s : State) : State :=
  if !s.lgt.placed then s
  else
    let p := s.lgt.nextPin
    let near := s.lgt.cfg.neighbours.filterMap fun q => if q.1 = p then some q.2 else if q.2 = p then some q.1 else none
    let shorts := (s.lgt.shorts.filter fun q => !(q.1 == p || q.2 == p)) ++
      (near.filter high.contains).map fun n => (min p n, max p n)
    let first := s.lgt.testing && p == 79
    let held := if s.b Reg.lgtState 31 then p :: near else []
    let s := (s.onLgt fun g => { g with shorts, nextPin := (p + 1) % 80, testing := g.testing && !first, window := held }).countPerf
      Reg.lgtTests 31 1
    let s := s.spreadShorts
    if first then
      let (v, s) := s.fresh 16
      (s.onLgt fun g => { g with boostOn := !g.lost, boostMv := v.toNat % (s.boostCfg.2.2 + 1) }).setB Reg.lgtState 31 (!s.lgt.lost)
    else s

/-- A write of `LGT_CH_nn_CTRL` with `RETEST` (R365): the sink's OPEN strings return to tracking. -/
def retest (n : Nat) (v : Word) (s : State) : State :=
  if bit v 0 then
    forAll ((sinkStrings n).filter s.strUsed) (fun c t =>
      let x := t.str c
      if x.open_ then t.setStr c { x with open_ := false, lows := 0, headroom := none, untested := true } else t) s
  else s

/-! ### Commands -/

/-- The light die receives the stroke's message (R355). -/
def lightMessage (s : State) : State :=
  match s.lgt.inFlight with
  | none => s
  | some m =>
    let resume := s.lgt.lost && s.lgt.placed && !s.lgt.testing
    let s := s.onLgt fun g => { g with
      inFlight := none, waiting := some m, lost := false, boostOn := g.boostOn || (resume && !g.restart) }
    onlyIf resume (fun t => t.setB Reg.lgtState 31 true) s

/-- No message for 100 ms (R355): every sink and the boost turn off. -/
def lightMsgTimeout (s : State) : State :=
  if s.lgt.placed then
    (((s.onLgt fun g => { g with lost := true, boostOn := false, ons := [], pre := [], spareRun := 0 }).setB Reg.lgtState 31 false).setB
      Reg.lgtState 29 false).setB Reg.lgtHist 3 true
  else s

/-- The boost's controller at the end of a PWM period (R357, R358). -/
def State.boostStep (s : State) : State :=
  if !s.lgt.boostOn then s
  else match s.limiting with
    | none => (s.onLgt fun g => { g with spareRun := 0 }).setB Reg.lgtState 29 false
    | some (c, h) =>
      let (hd, _, vmax) := s.boostCfg
      let run := if hd + 300 < h then s.lgt.spareRun + 1 else 0
      let mv := s.lgt.boostMv
      let mv := if h < hd then min vmax (mv + 100) else if 32 ≤ run then mv - 25 else mv
      let low := decide (vmax ≤ mv) && decide (h < hd)
      let wasLow := s.b Reg.lgtState 29
      let s := (s.onLgt fun g => { g with spareRun := run, boostMv := mv }).setB Reg.lgtState 29 low
      onlyIf (low && !wasLow) (fun t => t.raise .lgtHeadroomLow c c) s

/-- Raise an event whose data carries a string number (R371); of which string the spec does not say, so the number is free. -/
def State.raiseString (s : State) (e : Ev) : State :=
  let (d, t) := s.fresh 10
  t.raise e 0 (d.toNat % 528)

/-- `LGT_BST_STAT` (R357): the output, and the string that limits it with its headroom, none of them tracked reading 0. The spec states
no output while the gate is off. -/
def State.boostStat (s : State) : Word :=
  let mv := if s.lgt.boostOn || s.lgt.boostMv = 0 then s.lgt.boostMv else Config.unstated 30 s.lgt.boostMv
  let (c, h) := s.limiting.getD (0, 0)
  BitVec.ofNat 32 (min 1023 (mv / 50) * 2 ^ 22 + c * 2 ^ 12 + min 255 (h / 10))

/-- The NTC inputs as sampled (R364). -/
def State.takeNtc (s : State) (n : Nat) (v : Option Int) : State :=
  let s := match v with
    | some t =>
      (s.setB (Reg.lgtNtc n) 31 false).setF (Reg.lgtNtc n) 15 0 (encode 16 t)
    | none =>
      onlyIf (!s.b (Reg.lgtNtc n) 31) (fun t => ((t.setB (Reg.lgtNtc n) 31 true).setB Reg.lgtHist 1 true).raise .lgtNtcFail 0 n) s
  let d := s.derate n
  if d.1 = d.2 then s.onLgt fun g => { g with derated := g.derated.filter (· ≠ n) }
  else if s.lgt.derated.contains n then s
  else ((s.onLgt fun g => { g with derated := n :: g.derated }).setB Reg.lgtHist 0 true).raiseString .lgtDerate

/-- A string is driven for one PWM period: its on-time starts at `start`, less what a test window takes, its duty shows, it is
measured or not, its diagnostic pulses are counted; a pulse due in a test window waits (R352, R353, R354, R365, R367, R369). -/
def State.drive (s : State) (ms : List StringMeas) (start c : Nat) : State :=
  if !s.strUsed c then s
  else
    let off := s.shortedOff c
    let whole := if off then 0 else s.onCounts c
    let held := (stringPins c).any s.lgt.window.contains
    let t := if held then whole - windowLoss s.pwmCounts start whole else whole
    let due := decide (whole < 64) && s.b (Reg.lgtChCfg (sinkOf c)) 30 && decide (255 ≤ (s.str c).periods) && !off
    let pulse := due && !(held && windowLoss s.pwmCounts start 256 != 0)
    let duty := s.drivenDuty c
    let s := (onlyIf (!off) (fun u => u.setF (Reg.lgtChDuty (sinkOf c)) 15 0 (min 65535 duty)) s).countPeriod c
      (pulse || decide (64 ≤ whole))
    let s := s.onLgt fun g =>
      let d := nget (fun _ => ((0, 0) : Nat × Nat)) g.duties c
      { g with
        duties := nset (fun _ => ((0, 0) : Nat × Nat)) g.duties c (d.1 + duty, d.2 + 1)
        ons := nput c (start, if pulse then 256 else t) g.ons }
    if decide (64 ≤ t) || pulse then
      match ms.find? fun m => m.str.val == c with
      | some m => s.measure m
      | none => s
    else s.unmeasured c

/-- `LGT_LAMP_ll_STAT` (R370): no duty is applied while the light die drives no sink. -/
def State.lampStat (s : State) (l : Nat) : Word :=
  if !s.b (Reg.lgtLampCfg l) 31 then 0
  else
    let elems := ((upto 16).map (512 + ·)).filter fun c => s.strUsed c && s.f (Reg.lgtStr c) 30 29 == 2 && s.f (Reg.lgtStr c) 3 0 == l
    let duty := if s.b Reg.lgtState 31 then (elems.map s.drivenDuty).foldl max 0 else 0
    let worst := [3, 1, 2, 4].find? fun k => elems.any fun c => (s.str c).status == k
    let gamut := s.b (Reg.lgtLampCfg l) 28 && s.lgt.msg.isSome && (s.rgbDuties l (s.lampNow l)).2
    BitVec.ofNat 32 ((decide (duty ≠ 0)).toNat * 2 ^ 31 + (nfind l s.lgt.fades).isSome.toNat * 2 ^ 30
      + gamut.toNat * 2 ^ 29 + (elems.any fun c => (s.str c).inferred).toNat * 2 ^ 28 + worst.getD 0 * 2 ^ 25 + min 65535 duty)

/-- A PWM period begins (R352 to R367). -/
def pwmPeriod (m : PwmIn) (s : State) : State :=
  if !s.b Reg.lgtState 31 then s
  else
    let old := s.lgt.msg
    let s := match s.lgt.waiting with
      | some w => forAll (upto 16) (fun l t => t.lampLevel old w l) (s.onLgt fun g => { g with msg := some w, waiting := none })
      | none => s
    let d := s.f Reg.lgtPwmCfg 2 0
    let lines (x : Nat) : Nat := max 1 (min 16 (s.f (Reg.lgtMatCfg x) 28 24))
    let s := s.onLgt fun g => { g with
      ons := [], period := (g.period + 1) % 2 ^ d, lineA := (g.lineA + 1) % lines 0, lineB := (g.lineB + 1) % lines 1
      pre := [(0, s.preCharge 0 g.lineA ((g.lineA + 1) % lines 0)), (1, s.preCharge 1 g.lineB ((g.lineB + 1) % lines 1))] }
    let s := forAll m.ntc (fun p t => t.takeNtc p.1.val p.2) s.fadeStep
    let active := s.activeDirect
    let s := forAll s.driven (fun c t => t.drive m.strings (s.startCount active c) c) s.refreshAmps
    s.boostStep.onLgt fun g => { g with window := [] }

/-- `BST_FB` reads more than `VMAX` + 2 V (R358). -/
def boostOvervoltage (s : State) : State :=
  if s.lgt.boostOn then
    (((s.onLgt fun g => { g with boostOn := false, restart := true, spareRun := 0 }).setB Reg.lgtHist 2 true).setB Reg.lgtState 29
      false).raiseString .lgtBoostFault
  else s

/-- Ten milliseconds after an overvoltage (R358). -/
def boostRestart (s : State) : State :=
  if s.lgt.restart then s.onLgt fun g => { g with boostOn := !g.lost, restart := false } else s

/-- The `LIGHT` segment is placed (R356, R365, R367): every string UNTESTED, the neighbour test of every pin first. -/
def State.lightStart (s : State) (cfg : LightCfg) : State :=
  let s := s.onLgt fun _ => { LgtSt.init with cfg, placed := true, testing := true }
  (forAll ((upto 528).filter s.strUsed) (fun c t => t.showStr c StringSt.init) s).showLampFault.refreshAmps

end Sys2Proof.Machine
end

