-- ==== Sys2Proof/Machine/Lonan.lean ====
section
/-! DEFINITION. The Lonan link protocol: message and packet formats (R127, R128, R139), rough water (R150, R151), transactions
exactly once (R141 to R144), the address space this device offers as a far end (R145), the reorder window (R136 to R138) and
stroke markers (R131, R132). -/

namespace Sys2Proof.Machine

/-! ### Formats -/

/-- Bytes with their CRC-32 (R26, R127, R139). -/
def withCrc (bs : List Byte) : List Byte := bs ++ leBytes 4 (crc32 bs)

/-- The bytes carry their right CRC-32 at the end. -/
def crcGood (bs : List Byte) : Bool :=
  4 ≤ bs.length && crc32 (bs.take (bs.length - 4)) == leNat (bs.drop (bs.length - 4))

/-- A message of R139. -/
structure Msg where
  mtype   : Nat
  tag     : Nat
  op      : Nat
  mlen    : Nat
  addr    : Nat
  payload : List Byte
deriving DecidableEq, Repr

/-- The bytes of a message: header, payload, CRC-32 (R139). -/
def Msg.bytes (m : Msg) : List Byte :=
  withCrc (leBytes 8 (m.mtype % 16 * 2 ^ 60 + m.tag % 256 * 2 ^ 52 + m.op % 16 * 2 ^ 48 + m.mlen % 256 * 2 ^ 40
    + m.addr % 2 ^ 32 * 2 ^ 8) ++ m.payload)

/-- A message read back from its bytes; a wrong length counts as a wrong CRC. A read request carries `MLEN` and no payload
(R141), so its length does not follow from `MLEN`. -/
def Msg.parse (bs : List Byte) : Option Msg :=
  let h := leNat (bs.take 8)
  if crcGood bs && 12 ≤ bs.length then
    some { mtype := h / 2 ^ 60 % 16, tag := h / 2 ^ 52 % 256, op := h / 2 ^ 48 % 16, mlen := h / 2 ^ 40 % 256,
           addr := h / 2 ^ 8 % 2 ^ 32, payload := (bs.drop 8).take (bs.length - 12) }
  else none

/-- A packet of R128 with its payload words. -/
structure Packet where
  typ    : Nat
  stream : Nat
  seq    : Nat
  line   : Nat
  first  : Bool
  last   : Bool
  len    : Nat
  flags  : Nat
  words  : List Lane
deriving DecidableEq, Repr

/-- The header of a packet (R128). -/
def Packet.header (p : Packet) : Nat :=
  p.typ % 16 * 2 ^ 60 + p.stream % 2048 * 2 ^ 49 + p.seq % 2 ^ 16 * 2 ^ 33 + p.line % 2 ^ 13 * 2 ^ 20 + p.first.toNat * 2 ^ 19
    + p.last.toNat * 2 ^ 18 + p.len % 2048 * 2 ^ 7 + p.flags % 128

/-- The bytes of a packet: header, payload, CRC-32 (R127). -/
def Packet.bytes (p : Packet) : List Byte := withCrc (leBytes 8 p.header ++ packWords p.words)

/-- A packet read from bytes whose CRC-32 is right (R127, R128). -/
def Packet.parse (bs : List Byte) : Packet :=
  let h := leNat (bs.take 8)
  let n := h / 2 ^ 7 % 2048
  { typ := h / 2 ^ 60 % 16, stream := h / 2 ^ 49 % 2048, seq := h / 2 ^ 33 % 2 ^ 16, line := h / 2 ^ 20 % 2 ^ 13,
    first := h.testBit 19, last := h.testBit 18, len := n, flags := h % 128, words := unpackWords n (bs.drop 8) }

/-- CRC-8, polynomial 0x07, initial value 0, no reflection (R131). -/
def crc8 (bs : List Byte) : Byte :=
  bs.foldl (fun c b => (upto 8).foldl (fun c _ => if c.getLsbD 7 then (c <<< 1) ^^^ 0x07#8 else c <<< 1) (c ^^^ b)) 0

/-! ### Sending, with rough water (R150) -/

/-- What the far end has written to `RW_CTRL` of the space this device offers (R145). -/
def State.farRw (s : State) (p : Nat) : Word := BitVec.ofNat 32 (leNat (readBytes zeroByte (s.port p).far 0x30 4))

/-- The rough-water control in force on a port, while it is armed: the host's, else what the far end wrote to `RW_CTRL` (R145,
R149). DEDUCED: a host's setting with `REMOTE` acts at the far end only. -/
def State.roughCtrl (s : State) (p : Nat) : Word :=
  if !s.b (Reg.prtRwStat p) 31 then 0
  else if s.b (Reg.prtRwCtrl p) 31 && !s.b (Reg.prtRwCtrl p) 29 then s.rd (Reg.prtRwCtrl p)
  else s.farRw p

/-- Rough water acts on direction `tx` of the port: only in RUN; a port that leaves it keeps the setting (R151). -/
def State.rough (s : State) (p : Nat) (tx : Bool) : Bool :=
  s.ladder p == 5 && bit (s.roughCtrl p) 31 && bit (s.roughCtrl p) 30 == tx

/-- What rough water lets pass of the next packet or message, `bad` or not: `DROP_N` and `DELAY` (R150); also the injections made. A
packet held back keeps its own mark. -/
def roughPass (w : Word) (g : RoughSt) (stream : Option Nat) (bad : Bool) (bs : List Byte) : RoughSt × List (Bool × List Byte) × Nat :=
  let n := bf w 15 8
  let d := bf w 7 3
  let g := { g with count := g.count + 1 }
  if n ≠ 0 ∧ g.count % n = 0 then (g, [], 1)
  else match stream with
    | none => (g, [(bad, bs)], 0)
    | some st =>
      let k := nget (fun _ => 0) g.streams st + 1
      let g := { g with streams := nset (fun _ => 0) g.streams st (k % 64) }
      if d ≠ 0 ∧ k = 64 then ({ g with held := g.held ++ [(st, d, bad, bs)] }, [], 1)
      else
        let aged := g.held.map fun h => if h.1 = st then (h.1, h.2.1 - 1, h.2.2) else h
        ({ g with held := aged.filter fun h => h.2.1 ≠ 0 }, (bad, bs) :: (aged.filter fun h => h.2.1 = 0).map (·.2.2), 0)

/-- `PRT_nnn_RW_STAT.COUNT` counts injections and wraps (R152). -/
def State.injected (s : State) (p n : Nat) : State := s.setF (Reg.prtRwStat p) 23 0 ((s.f (Reg.prtRwStat p) 23 0 + n) % 2 ^ 24)

/-- The one bit that `CORRUPT_K` flips in each of `n` symbols, or none (R150): with a probability for each symbol, so which bits
is a free value. -/
def State.flipMasks (s : State) : Nat → List (BitVec 10) × State
  | 0 => ([], s)
  | n + 1 =>
    let (v, s) := s.fresh 4
    let (l, s) := s.flipMasks n
    ((1#10 <<< v.toNat) :: l, s)

/-- What `CORRUPT_K` does to `n` symbols in direction `tx` of a port: the bits it flips, and how many symbols it hits. -/
def State.corrupted (s : State) (p : Nat) (tx : Bool) (n : Nat) : List (BitVec 10) × Nat × State :=
  if s.rough p tx && bf (s.roughCtrl p) 21 16 != 0 then
    let (l, t) := s.flipMasks n
    let k := l.countP (· != 0)
    (l, k, t.injected p k)
  else ([], 0, s)

/-- Send the bytes of a message or packet on a port, through rough water where it acts on the transmit path; with `poison` the
packet ends with K30.7 (R127). -/
def State.transmit (s : State) (p : Nat) (stream : Option Nat) (poison : Bool) (bs : List Byte) : State :=
  let emit := fun (e : Bool × List Byte) (t : State) =>
    let syms := if stream.isSome then packetSyms e.2 e.1 else messageSyms e.2
    let (masks, flips, t) := t.corrupted p true syms.length
    t.sendFrame p (if stream.isSome then .packet p e.2 e.1 flips else .message p e.2 flips) syms masks
  if s.rough p true then
    let (g, l, n) := roughPass (s.roughCtrl p) (s.port p).roughTx stream poison bs
    forAll l emit ((s.onPort p fun x => { x with roughTx := g }).injected p n)
  else emit (poison, bs) s

/-- Send a message on a port. -/
def State.sendMsg (s : State) (p : Nat) (m : Msg) : State := s.transmit p none false m.bytes

/-! ### Transactions of the requester (R141, R143, R144) -/

/-- The tag rules of R141: at most 32 outstanding, none more than 63 after the oldest. DEDUCED: nor, since tags restart at each
entry into RUN, one that is still outstanding. -/
def PortSt.mayIssue (x : PortSt) : Bool :=
  x.xacts.length < 32 && (x.xacts.all fun o => o.tag != x.nextTag) && (match x.xacts with
    | [] => true
    | o :: _ => (x.nextTag + 256 - o.tag) % 256 ≤ 63)

/-- Issue a request with the next tag. -/
def State.issueNow (s : State) (p : Nat) (q : XactWait) : State :=
  let tag := (s.port p).nextTag
  let m : Msg := { mtype := 1, tag := tag, op := q.op, mlen := q.len / 4, addr := q.addr, payload := q.data }
  let s := s.onPort p fun x =>
    { x with nextTag := (tag + 1) % 256, xacts := x.xacts ++ [{ tag := tag, use := q.use, msg := m.bytes, retries := 0 }] }
  let s := if q.use = .host then s.setF (Reg.prtHxStat p) 7 0 tag else s
  s.sendMsg p m

/-- Issue the requests that waited and now may go, oldest first. -/
def State.issueWaits (s : State) (p : Nat) : State :=
  (List.range 64).foldl (fun t _ =>
    match (t.port p).waits with
    | q :: r =>
      if (t.port p).mayIssue && t.ladder p == 5 then (t.onPort p fun x => { x with waits := r }).issueNow p q else t
    | [] => t) s

/-- Ask for a transaction: it is issued at once where R141 lets it, else when it may. -/
def State.request (s : State) (p : Nat) (q : XactWait) : State :=
  (s.onPort p fun x => { x with waits := x.waits ++ [q] }).issueWaits p

/-- A write-back to a field unit failed (R381). -/
def State.writeBackFailed (s : State) (u : Nat) : State :=
  { s with fld := { s.fld with writing := s.fld.writing.filter (· ≠ u), pages := ndel u s.fld.pages } }.raise .fldWritebackFail u u

/-- What the use of a transaction does with its result: code of R139 or R152, and the data (R146, R149, R152, R381). -/
def State.xactResult (s : State) (p : Nat) (use : XactUse) (code : Nat) (data : List Byte) : State :=
  match use with
  | .host =>
    let s := (s.setB (Reg.prtHxStat p) 31 false).setF (Reg.prtHxStat p) 10 8 code
    forAll (upto (data.length / 4)) (fun i t => t.wr (Reg.prtHxData p i) (BitVec.ofNat 32 (leNat ((data.drop (4 * i)).take 4)))) s
  | .ident part => s.onPort p fun x => { x with ident := nput part (if code = 0 then data else []) x.ident }
  | .writeBack _ =>
    if code = 0 then { s with fld := { s.fld with writing := s.fld.writing.filter (· ≠ p) } } else s.writeBackFailed p
  | .roughWater => if code = 2 then s.setB (Reg.prtRwStat p) 29 true else s
  | .pull | .joinHold | .glass => s

/-- A transaction fails: counted and reported with its tag (R143, R144). -/
def State.xactFail (s : State) (p code : Nat) (x : Xact) : State :=
  ((s.countErr (Reg.prtXactFail p) 16 1).raise .portXactFail p (p + x.tag * 2 ^ 16)).xactResult p x.use code []

/-- The port leaves RUN for DETECT or TRAIN: both caches empty, every outstanding transaction fails with `LINK_DOWN` (R144). What has
not been issued waits for the next entry into RUN, but for what that entry asks for anew. DEDUCED: a host transaction that waits
is outstanding to the host, and it ends with `LINK_DOWN` too, uncounted, since it has no tag. A write-back that waits has failed, the
port not being in RUN (R381). -/
def State.linkDown (s : State) (p : Nat) : State :=
  let l := (s.port p).xacts
  let host := (s.port p).waits.any fun q => q.use == .host
  let keeps := fun (q : XactWait) => match q.use with | .host | .ident _ | .glass | .writeBack _ => false | _ => true
  let backs := (s.port p).waits.filter fun q => match q.use with | .writeBack _ => true | _ => false
  let s := s.onPort p fun x => { x with xacts := [], waits := x.waits.filter keeps, cache := [], nextTag := 0 }
  forAll l (fun x t => t.xactFail p 5 x) (forAll backs (fun q t => t.xactResult p q.use 5 []) (onlyIf host (fun t => t.xactResult p .host 5 []) s))

/-- A transaction has had no response in time: it is retried bit for bit, or fails after its last retry (R143). -/
def xactTimeout (p tag : Nat) (s : State) : State :=
  match (s.port p).xacts.find? fun x => x.tag == tag with
  | none => s
  | some x =>
    if x.retries < s.f (Reg.prtXactCfg p) 10 8 then
      (s.onPort p fun y => { y with xacts := y.xacts.map fun z => if z.tag = tag then { z with retries := z.retries + 1 } else z })
        |>.transmit p none false x.msg
    else
      ((s.onPort p fun y => { y with xacts := y.xacts.filter fun z => z.tag ≠ tag }).xactFail p 4 x).issueWaits p

/-- A response: the first for an outstanding tag is taken, every other is discarded (R143). -/
def State.response (s : State) (p : Nat) (m : Msg) : State :=
  match (s.port p).xacts.find? fun x => x.tag == m.tag with
  | none => s
  | some x =>
    ((s.onPort p fun y => { y with xacts := y.xacts.filter fun z => z.tag ≠ m.tag }).xactResult p x.use m.op m.payload).issueWaits p

/-! ### The responder (R142, R145) -/

/-- A byte address that `READ` and `WRITE` reach (R145; `JOIN_HOLD` of R186). -/
def farHas (a : Nat) : Bool :=
  a < 4 || (8 ≤ a && a < 12) || (0x10 ≤ a && a < 0x18) || (0x20 ≤ a && a < 0x24) || (0x30 ≤ a && a < 0x34)
    || (0x100 ≤ a && a < 0x180) || (0x10000 ≤ a && a < 0x10004)

/-- A byte address that takes a write. -/
def farWritable (a : Nat) : Bool := farHas a && 12 ≤ a

/-- A byte of the space this device offers: `ID` and `STATUS` are its own, the rest holds what was written. -/
def State.farByte (s : State) (p a : Nat) : Byte :=
  if a < 4 then BitVec.ofNat 8 ((Config.vendor.toNat * 2 ^ 16 + 0x303) / 2 ^ (8 * a))
  else if 8 ≤ a ∧ a < 12 then BitVec.ofNat 8 (Config.unstated 7 p % 4 / 2 ^ (8 * (a - 8)))
  else if 0x1000 ≤ a ∧ a < 0x1100 then (nfind a (s.port p).far).getD (Config.ownIdent (a - 0x1000))
  else nget zeroByte (s.port p).far a

/-- Rough water that the far end asks for is permitted: the port is armed, which R149 lets happen only under its conditions, and
`REMOTE_RW` is enabled. DESIGN CHOICE: elsewhere the answer is `DENIED`, as R149 has it for a watch head's port. -/
def State.farRoughOk (s : State) (p : Nat) : Bool :=
  s.b (Reg.prtRwStat p) 31 && (s.f (Reg.prtLinkStat p) 23 16).testBit 5 && !s.watchPort p

/-- Carry out a request: the result code, the response data and the state (R139, R141, R145, R149). DESIGN CHOICE: an `OP` of 4 to 15,
for which R139 and R142 give no answer, is `DENIED`. DESIGN CHOICE: the far end's `PULL_CTRL` and `PULL_OFFSET` are kept as written and
steer nothing here, and this device sends no `STATUS`: R133 gives a DGX-512 no frame start to steer. -/
def State.serve (s : State) (p : Nat) (m : Msg) : Nat × List Byte × State :=
  let n := if m.op = 0 ∨ m.op = 2 then 4 * m.mlen else m.payload.length
  let addrs := (upto n).map (m.addr + ·)
  let store := fun (t : State) => t.onPort p fun x => { x with far := writeBytes zeroByte x.far m.addr m.payload }
  if n > 64 then (3, [], s)
  else match m.op with
  | 0 => if addrs.all farHas then (0, addrs.map (s.farByte p), s) else (1, [], s)
  | 1 =>
    if !addrs.all farHas then (1, [], s)
    else if !addrs.all farWritable then (2, [], s)
    else if addrs.any (fun a => 0x30 ≤ a && a < 0x34) && !s.farRoughOk p then (2, [], s)
    else (0, [], store s)
  | 2 => if addrs.all fun a => 0x1000 ≤ a && a < 0x1100 then (0, addrs.map (s.farByte p), s) else (1, [], s)
  | 3 =>
    if addrs.all fun a => 0x1000 ≤ a && a < 0x1100 then
      (0, [], s.onPort p fun x => { x with far := (addrs.zip m.payload).foldl (fun f e => nput e.1 e.2 f) x.far })
    else (1, [], s)
  | _ => (2, [], s)

/-- A request arrives: carried out once, or answered from the cache (R142). The device carries a request out within the step in
which it arrives, so no entry of its cache is ever busy. The flag says that the request was carried out now. -/
def State.serveOnce (s : State) (p : Nat) (m : Msg) (crc : Nat) : Bool × State :=
  match (s.port p).cache.find? fun e => e.tag == m.tag && e.crc == crc with
  | some e =>
    match e.resp with
    | some r => (false, (s.countPerf (Reg.prtXactReplay p) 24 1).transmit p none false r)
    | none => (false, s)
  | none =>
    let (code, data, s) := s.serve p m
    let rsp : Msg := { mtype := 2, tag := m.tag, op := code, mlen := data.length / 4, addr := 0, payload := data }
    let s := s.onPort p fun x =>
      let c := x.cache.filter fun e => e.tag ≠ m.tag
      let c := if 64 ≤ c.length then c.drop 1 else c
      { x with cache := c ++ [{ tag := m.tag, crc := crc, resp := some rsp.bytes }] }
    (code = 0, s.sendMsg p rsp)

/-! ### The reorder window (R136, R138) -/

/-- A packet's `SEQ` against its stream's window: accepted, and the state with the counts of R136. The first packet of a stream
after a clearing sets H (R138). DESIGN CHOICE: a `SEQ` exactly 2^15 from H, which R136's serial-number arithmetic leaves unordered, is
taken as earlier than the window, and counts as lost. -/
def State.windowTake (s : State) (p stream seq : Nat) : Bool × State :=
  let put := fun (w : Window) (t : State) => t.onPort p fun x => { x with windows := nput stream w x.windows }
  match nfind stream (s.port p).windows with
  | none => (true, put { high := seq, seen := 1, age := 0 } s)
  | some w =>
    let d := (seq + 2 ^ 16 - w.high) % 2 ^ 16
    let b := (w.high + 2 ^ 16 - seq) % 2 ^ 16
    if 0 < d ∧ d < 2 ^ 15 then
      let lost := (upto (min d 32)).countP fun i => !w.seen.testBit (31 - i) && 31 - i ≤ w.age
      let seen := if d < 32 then (w.seen * 2 ^ d + 1) % 2 ^ 32 else 1
      (true, onlyIf (0 < lost + (d - min d 32)) (fun t => t.countErr (Reg.prtRxLost p) 24 (lost + (d - min d 32)))
        (put { high := seq, seen := seen, age := min 31 (w.age + d) } s))
    else if b ≤ 31 then
      if w.seen.testBit b then (false, s.countErr (Reg.prtRxDup p) 24 1)
      else (true, put { w with seen := w.seen + 2 ^ b } s)
    else (false, s.countErr (Reg.prtRxLost p) 24 1)

/-- The windows of a port are cleared (R138). -/
def State.clearWindows (s : State) (p : Nat) : State := s.onPort p fun x => { x with windows := [] }

/-! ### Features (R122) -/

/-- A feature is enabled on a port (R122, R152). -/
def State.feature (s : State) (p k : Nat) : Bool := (s.f (Reg.prtLinkStat p) 23 16).testBit k

/-- The features a negotiated version and the far end's capabilities enable (R122). -/
def enabledFeatures (version cap : Nat) : Nat :=
  let ok := fun k => cap.testBit k && (if k = 4 ∨ k = 5 then 3 ≤ version else if k = 7 then false else 2 ≤ version)
    && (k ≠ 3 || cap.testBit 2)
  ((upto 8).filter ok).foldl (fun a k => a + 2 ^ k) 0

/-! ### Stroke markers (R131, R132) -/

/-- The QL that the device sends (R56): that of the reference in use in LOCKED, `HOLD` in HOLDOVER, `FREE` otherwise. -/
def State.sentQl (s : State) : Nat :=
  match s.f Reg.coxState 1 0 with
  | 2 => s.ql s.inUse
  | 3 => s.f Reg.coxOutQl 3 0
  | _ => s.f Reg.coxOutQl 7 4

/-- The eight bytes of the marker of the stroke in force (R131). -/
def State.markerBytes (s : State) : List Byte :=
  let b := leBytes 6 s.clock.stroke.toNat ++ [BitVec.ofNat 8 (s.f Reg.coxState 1 0 * 16 + s.sentQl)]
  b ++ [crc8 b]

/-- Idle fill and buoys pass `CORRUPT_K` of rough water in the stroke that ends, in direction `tx` of a group (R150). DESIGN CHOICE: how
many of their symbols it hits is a free value; they stand in the counts at the end of their stroke. -/
def State.corruptFill (s : State) (l : Nat) (tx : Bool) : State :=
  if s.rough l tx && bf (s.roughCtrl l) 21 16 != 0 then
    let (v, s) := s.fresh 24
    let s := s.injected l v.toNat
    if v = 0 then s else if tx then s.send (.fillFlips l v.toNat) else s.countErr (Reg.prtCodeErr l) 24 v.toNat
  else s

/-- Every group's idle fill and buoys, in both directions. -/
def State.corruptFills (s : State) : State :=
  forAll ((s.prt.ports.map (·.1)).filter fun p => s.lead p == p) (fun l t => (t.corruptFill l true).corruptFill l false) s

/-- The references that watch a port's markers lose activity (R53). -/
def State.refsSilent (s : State) (p : Nat) : State :=
  forAll [6, 7] (fun n t => if t.f (Reg.coxRefCfg n) 28 20 = p then t.activityLoss n else t) s

/-- A marker of the port counts as missing (R132); two in a row are loss of activity (R53). -/
def State.markerMiss (s : State) (p : Nat) : State :=
  let s := (s.countErr (Reg.prtMarkerMiss p) 16 1).onPort p fun x => { x with missRun := min 2 (x.missRun + 1) }
  if (s.port p).missRun = 2 then s.refsSilent p else s

/-- Rough water drops this marker: the mode of `MARKER_DROP`, with what is left of modes 1 and 2 (R150). -/
def roughMarker (w : Word) (g : RoughSt) : Bool × RoughSt :=
  if bf w 2 1 = 3 then (true, g)
  else if 0 < g.markers then (true, { g with markers := g.markers - 1 }) else (false, g)

/-- A marker arrives: with a wrong `CHK` or a code error in it, or dropped by rough water, it counts as missing; else its number
and QL reach the Cox (R97, R132, R54, R76, R150). -/
def markerReceived (p : Nat) (bs : List Byte) (errs : Nat) (s : State) : State :=
  let s := onlyIf (errs ≠ 0) (fun t => t.countErr (Reg.prtCodeErr p) 24 errs) s
  let l := s.lead p
  let (drop, g) := if s.rough l false then roughMarker (s.roughCtrl l) (s.port l).roughRx else (false, (s.port l).roughRx)
  let s := s.onPort l fun x => { x with roughRx := g }
  let (_, flips, s) := s.corrupted l false 9
  let s := onlyIf (flips ≠ 0) (fun t => t.countErr (Reg.prtCodeErr p) 24 flips) s
  if drop then (s.injected l 1).markerMiss p
  else if errs ≠ 0 ∨ flips ≠ 0 ∨ bs.length ≠ 8 ∨ crc8 (bs.take 7) ≠ bs.getD 7 0 then s.markerMiss p
  else (s.onPort p fun x => { x with missRun := 0 }).coxMarker p (BitVec.ofNat 48 (leNat (bs.take 6))) (bs.getD 6 0 &&& 0xF).toNat

/-- No marker came at its place (R132). -/
def markerMissing (p : Nat) (s : State) : State := s.markerMiss p

/-- Each transmit lane that is not in electrical idle sends the marker of the new stroke (R14 step 2, R131), unless rough water
drops it from the whole group, on which it occupies whole columns (R109). -/
def State.sendMarkers (s : State) : State :=
  forAll ((s.prt.ports.map (·.1)).filter fun p => s.lead p == p) (fun l t =>
    let (drop, g) := if t.rough l true then roughMarker (t.roughCtrl l) (t.port l).roughTx else (false, (t.port l).roughTx)
    let t := t.onPort l fun x => { x with roughTx := g }
    if drop then t.injected l 1
    else
      forAll (t.lanes l) (fun p u =>
        if u.laneSends p then
          let (masks, flips, u) := u.corrupted l true 9
          (u.send (.marker p u.markerBytes flips)).sendLane p (markerSyms u.markerBytes) masks
        else u) t) s

end Sys2Proof.Machine
end

