-- ==== Sys2Proof/Machine/Synths.lean ====
section
/-! DEFINITION. The synthesizers: band choice, acquisition, lock, coasting and the throttle's divider (R79 to R93). What their
domains do is said with the domains. -/

namespace Sys2Proof.Machine

/-- The state of synthesizer `i`. -/
def State.synOf (s : State) (i : Nat) : SynSt := nget (fun _ => SynSt.init) s.syn i

/-- Change the state of synthesizer `i`. -/
def State.onSyn (s : State) (i : Nat) (g : SynSt → SynSt) : State :=
  { s with syn := nset (fun _ => SynSt.init) s.syn i (g (s.synOf i)) }

/-- `SYN_x_STAT.STATE`: 0 OFF, 1 ACQUIRE, 2 LOCKED, 3 COAST, 4 STOPPED, 5 NO_BAND (R92). -/
def State.synState (s : State) (i : Nat) : Nat := s.f (Reg.synStat i) 2 0

/-- Set `STATE` and the two summary bits that follow it (R92). -/
def State.setSynState (s : State) (i v : Nat) : State :=
  (((s.setF (Reg.synStat i) 2 0 v).setB (Reg.synLockSum (i / 32)) (i % 32) (v == 2)).setB (Reg.synCoastSum (i / 32)) (i % 32)
    (v == 3 || v == 4))

/-- An index of the table of R79. -/
def synIndex (i : Nat) : Bool := i < 136 && i != 7

/-- Synthesizers under the phase rule: the pixel synthesizers (R79). -/
def synVid (i : Nat) : Bool := 2 ≤ i && i < 6

/-- The synthesizer of a port's octet that feeds the port (R79, R80): by default A for ports 0 to 3 of an octet and B for ports 4 to
7. -/
def State.portSyn (s : State) (p : Nat) : Nat := 8 + 2 * (p / 8) + ((s.port p).synB.getD (decide (4 ≤ p % 8))).toNat

/-- A port in electrical idle takes the synthesizer that its register names (R80). -/
def State.settleSyn (s : State) (p : Nat) : State :=
  if (s.port p).txIdle then s.onPort p fun x => { x with synB := some (s.b (Reg.prtCfg p) 20) } else s

/-- The pixel synthesizer of a head (R79, R264). -/
def State.headSyn (s : State) (h : Nat) : Nat := 2 + s.f (Reg.headCfg h) 29 28

/-- A watch head. -/
def State.watchHead (s : State) (h : Nat) : Bool := s.b (Reg.headCfg h) 30

/-- The synthesizer feeds a watch head or a watch port (R90). -/
def State.feedsWatch (s : State) (i : Nat) : Bool :=
  (synVid i && (upto 64).any fun h => s.watchHead h && s.headSyn h == i)
    || (8 ≤ i && (upto 8).any fun k => s.watchPort (8 * ((i - 8) / 2) + k) && s.portSyn (8 * ((i - 8) / 2) + k) == i)

/-- The sites from which the synthesizers take their temperature: the ring sites and the anchors, where not marked broken (R82). -/
def State.goodSites (s : State) : List Nat := (upto 52).filter fun c => !s.b (sensorReg c) 31

/-- The highest reading of the sites not marked broken, in 0.1 °C (R82); with every site broken the spec states none. -/
def State.synTemp (s : State) : Int :=
  match s.goodSites with
  | [] => Config.unstated 6 s.clock.stroke.toNat
  | c :: l => l.foldl (fun m d => max m (tempOf (s.rd (sensorReg d)))) (tempOf (s.rd (sensorReg c)))

/-- The temperature range of a band entry, in °C (R92). -/
def State.bandRange (s : State) (i k : Nat) : Int × Int :=
  (signed 8 (bf (s.rd (Reg.synBandHi i k)) 7 0), signed 8 (bf (s.rd (Reg.synBandHi i k)) 15 8))

/-- A temperature in 0.1 °C lies in a range in °C, ends included (R82). -/
def inRange (t : Int) (r : Int × Int) : Bool := 10 * r.1 ≤ t && t ≤ 10 * r.2

/-- Entry `k` qualifies at temperature `t` (R82). -/
def State.bandOk (s : State) (i : Nat) (t : Int) (k : Nat) : Bool :=
  s.b (Reg.synBandHi i k) 31 && s.f (Reg.synBandLo i k) 23 0 == (s.rd (Reg.synTarget i)).toNat && inRange t (s.bandRange i k)

/-- A chart's entry of `SYN_CORE` or `SYN_PCIE` replaces the boot ROM's (R82). -/
def State.bandPlaced (s : State) (a : Nat) : State :=
  forAll [0, 6] (fun i t => if Reg.synBandLo i 0 ≤ a ∧ a < Reg.synBandLo (i + 1) 0 then t.onSyn i fun x => { x with chart := true } else t) s

/-- The synthesizer acquires on entry `k`, band `b` and temperature range `rg`, its output muted (R82, R84, R81). -/
def State.synAcquireOn (s : State) (i k b : Nat) (rg : Int × Int) : State :=
  let s := ((s.setF (Reg.synStat i) 19 16 k).setF (Reg.synStat i) 13 8 b).setB (Reg.synStat i) 20 false
  let r := s.f (Reg.synCfg i) 25 24
  (s.onSyn i fun x => { x with refmod := if r = 3 then 0 else r, stale := false, range := rg }).setSynState i 1

/-- A synthesizer chooses its band and acquires, or reports NO_BAND (R82, R83). `SYN_CORE` and `SYN_PCIE` acquire from the boot
ROM until a chart's entries replace its entries. DEDUCED (R79): the boot ROM, whose entries the spec does not list, holds one that
qualifies. DESIGN CHOICE: entries that the host writes there count only once a chart has placed some. DESIGN CHOICE: NO_BAND leaves
`ENTRY`, `BAND` and `BAND_STALE` of the acquisition before as they stand, and they no longer follow the temperature. -/
def State.synAcquire (s : State) (i : Nat) : State :=
  if (i = 0 ∨ i = 6) ∧ !(s.synOf i).chart then
    let k := (Config.bootEntry i (s.rd (Reg.synTarget i)).toNat s.synTemp).toNat
    s.synAcquireOn i k (Config.bootBand i k).toNat (Config.bootRange i k)
  else match (upto 16).find? (s.bandOk i s.synTemp) with
    | some k => s.synAcquireOn i k (s.f (Reg.synBandHi i k) 21 16) (s.bandRange i k)
    | none => ((s.onSyn i fun x => { x with stale := false }).setSynState i 5).raise .synNoBand i i

/-- A synthesizer holds a band: it acquires, is locked, coasts or stands stopped (R83). -/
def State.synHolds (s : State) (i : Nat) : Bool := 1 ≤ s.synState i && s.synState i ≤ 4

/-- `BAND_STALE` of a synthesizer that holds a band follows the temperature; the event comes at the first exit after an acquisition
(R83). DESIGN CHOICE: the range is the one the entry had when it was chosen, though its register may have been rewritten since. -/
def State.synStaleCheck (s : State) (i : Nat) : State :=
  if s.synHolds i then
    let out := !inRange s.synTemp (s.synOf i).range
    let t := s.setB (Reg.synStat i) 20 out
    if out && !(s.synOf i).stale then (t.onSyn i fun x => { x with stale := true }).raise .synBandStale i i else t
  else s

/-- Every synthesizer judges its temperature after the sensors have been sampled (R83). -/
def State.synStaleAll (s : State) : State := forAll ((upto 136).filter s.synHolds) (fun i t => t.synStaleCheck i) s

/-- A locked synthesizer starts to coast: control frozen, output running (R87). A muted one never coasts (R84). -/
def synLockLoss (i : Nat) (refLost : Bool) (s : State) : State :=
  if !synIndex i then s
  else
    let s := onlyIf refLost (fun t => t.setB (Reg.synStat i) 21 true) s
    if s.synState i = 2 then ((s.setSynState i 3).countErr (Reg.synLossCnt i) 16 1).raise .synLockLost i i else s

/-- The dividers of `SYN_ENG` under throttle (R91). -/
def State.engDivider (s : State) (half : Bool) : State := s.onSyn 1 fun x => { x with half := half }

/-- The fabric and the quay run: `SYN_CORE` drives its output, from its first lock on, and has not stopped (R84, R88, R90). -/
def State.coreUp (s : State) : Bool := !(s.synOf 0).halted && (s.synState 0 == 2 || s.synState 0 == 3)

end Sys2Proof.Machine
end

