-- ==== Sys2Proof/Machine/Ports.lean ====
section
/-! DEFINITION. Ports: the bring-up ladder, steps, lock, electrical idle, bonding, narrowing and widening, negotiation, phase
pull, host transactions, rough water, test and measurement (R94 to R126, R133 to R135, R146, R148 to R152). -/

namespace Sys2Proof.Machine

/-! ### Fields -/

/-- Every lane of the group goes to a rung (R104, R107). -/
def State.setLadder (s : State) (l rung : Nat) : State := forAll (s.lanes l) (fun p t => t.setF (Reg.prtStat p) 2 0 rung) s

/-- Every lane of the group takes a rate code. -/
def State.setRate (s : State) (l r : Nat) : State := forAll (s.lanes l) (fun p t => t.setF (Reg.prtStat p) 5 4 r) s

/-- `MAX_RATE`, where 3 is treated as 2 (R120). -/
def State.maxRate (s : State) (p : Nat) : Nat := min 2 (s.f (Reg.prtCfg p) 19 18)

/-- Bit mask of all lanes of a group. -/
def State.allLanes (s : State) (l : Nat) : Nat := 2 ^ (s.lanes l).length - 1

/-- A lane lost since the last narrowing or resumption is still not locked (R112, R113). -/
def State.laneOut (s : State) (l : Nat) : Bool := (maskLanes (s.grpLost l)).any fun i => !(s.grpGood l).testBit i

/-- The port is bonded with others and runs as a group: not lane index 0 alone (R108, R125). -/
def State.grouped (s : State) (l : Nat) : Bool := decide (1 < (s.lanes l).length)

/-- `GOOD` of a group: the lane indexes of the lanes in lock (R110, R120). -/
def State.showGood (s : State) (l : Nat) : State :=
  onlyIf (s.grouped l) (fun t => t.setF (Reg.prtGrpStat l) 31 24
    ((maskLanes 0xFF).foldl (fun a i => if (t.lanes l).any fun p => t.laneIndex p == i && t.b (Reg.prtStat p) 12 then a + 2 ^ i else a) 0)) s

/-- A lane's clock recovery is in lock or out of it: `CDR_LOCK`, and `GOOD` of its group (R120); out of lock, the references that
watch its markers lose activity (R53). -/
def State.setLock (s : State) (p : Nat) (on : Bool) : State :=
  let s := (s.setB (Reg.prtStat p) 12 on).showGood (s.lead p)
  if on then s else s.refsSilent p

/-- A generator runs on a lane of the group, and holds its rate (R115). -/
def State.generating (s : State) (l : Nat) : Bool := (s.lanes l).any fun p => s.b (Reg.prtPrbsCtrl p) 0

/-- Bit 31 of `PRT_nnn_CFG` upward: a port with a role. -/
def State.used (s : State) (p : Nat) : Bool := s.role p != 0

/-- The state of the group's lanes, all at once. -/
def State.onLanes (s : State) (l : Nat) (g : PortSt → PortSt) : State := forAll (s.lanes l) (fun p t => t.onPort p g) s

/-! ### Entering a rung -/

/-- The group returns to DETECT, or starts there (R104, R144). -/
def State.enterDetect (s : State) (l : Nat) : State :=
  let s := s.linkDown l
  let s := s.onLanes l fun x =>
    { x with laneDone := false, buoy := false, climb := true, retrain := false, resumeDue := false, lossAge := none, offer := none,
             neg := none, rxAck := false, txAck := false, step := none, txIdle := false, rxIdle := false, rxQuiet := false,
             farOffer := none, place := none, relock := false, widening := false, halted := false, windows := [],
             waits := x.waits.filter fun q => q.use != .pull }
  let s := forAll (s.lanes l) (fun p t =>
    let w := t.rd (Reg.prtStat p)
    (t.wr (Reg.prtStat p) (setFld (setFld (setFld (setFld w 2 0 1) 5 4 0) 9 8 0) 15 12 0)).refsSilent p) s
  (s.wr (Reg.prtGrpStat l) 0).fillWith l symComma

/-- A port with a role starts the ladder once its octet synthesizer runs (R104). -/
def State.portStart (s : State) (p : Nat) : State :=
  if s.used p && s.lead p == p && s.ladder p == 0 && (s.synState (s.portSyn p) == 2 || s.synState (s.portSyn p) == 3) then
    s.enterDetect p
  else s

/-- The group trains at the rate in force, its transmitters sending `c`; with `retrain` it leads back to RUN (R101, R103, R104,
R105). -/
def State.trainWith (s : State) (l : Nat) (retrain : Bool) (c : Sym) : State :=
  let s := (s.onLanes l fun x => { x with laneDone := false, buoy := false, retrain := retrain, relock := false, resumeDue := false,
                                          step := none, txIdle := false, rxIdle := false, rxQuiet := false }).setLadder l 2
  (forAll (s.lanes l) (fun p t => t.setLock p false) s).fillWith l c

/-- The group enters TRAIN, and sends K28.0 (R104). -/
def State.enterTrain (s : State) (l : Nat) (retrain : Bool) : State := s.trainWith l retrain symTrain

/-- Training has ended: every transmitter of the group starts with negative running disparity, and sends idle (R96). -/
def State.trainEnds (s : State) (l : Nat) : State := (s.onLanes l fun x => { x with disp := false }).fillWith l symComma

/-- The regions with `GLASS` set of the watch heads whose output is group `l` (R310, R313): head, region. -/
def State.glassRegions (s : State) (l : Nat) : List (Nat × Nat) :=
  ((upto 64).filter fun h => s.b (Reg.headCfg h) 31 && s.watchHead h && s.lead (s.streamPort (s.f (Reg.headCfg h) 10 0)) == l).flatMap fun h =>
    ((upto 16).filter fun r => s.b (Reg.headLkCfg h r) 31 && s.b (Reg.headLkCfg h r) 28).map fun r => (h, r)

/-- When a port enters RUN with `GLASS` enabled, the regions with `GLASS` set are written at the far end (R145, R313). -/
def State.glassSetup (s : State) (l : Nat) : State :=
  let gl := s.glassRegions l
  if !s.feature l 4 || gl.isEmpty then s
  else
    let s := forAll gl (fun e u =>
      let pos := u.rd (Reg.headLkPos e.1 e.2)
      let size := u.rd (Reg.headLkSize e.1 e.2)
      u.request l { use := .glass, op := 1, addr := 0x100 + 8 * e.2, len := 8
                    data := leBytes 8 (bf pos 12 0 + bf pos 28 16 * 2 ^ 13 + bf size 12 0 * 2 ^ 26 + bf size 28 16 * 2 ^ 39) }) s
    s.request l { use := .glass, op := 1, addr := 0x20, len := 4
                  data := leBytes 4 (2 ^ 31 + gl.foldl (fun a e => a + 2 ^ e.2) 0) }

/-- The port or group is in RUN, or in IDLE where its transmitter idles: windows clear, tags start from 0, the identity record is
read when it came from DETECT (R102, R138, R141, R146). -/
def State.enterRun (s : State) (l : Nat) : State :=
  let climbed := (s.port l).climb
  let s := (s.setLadder l (if (s.port l).txIdle then 6 else 5)).onLanes l fun x =>
    { x with laneDone := false, retrain := false, relock := false, resumeDue := false, climb := false, step := none, windows := [],
             nextTag := 0 }
  let s := onlyIf (s.grouped l && s.grpActive l == 0) (fun t => t.setF (Reg.prtGrpStat l) 15 8 (t.allLanes l)) s
  let s := if climbed then
      forAll (upto 4) (fun k t => t.request l { use := .ident k, op := 2, addr := 0x1000 + 0x40 * k, len := 64, data := [] })
        (s.onPort l fun x => { x with ident := [] })
    else s.issueWaits l
  s.glassSetup l

/-! ### Rate steps (R105, R106, R148) -/

/-- A step to rate `r` is within both limits (R105). -/
def State.stepAllowed (s : State) (l r : Nat) : Bool :=
  r ≤ 2 && r ≤ s.maxRate l && r ≤ ((((s.port l).neg.getD []).getD 1 0) &&& 3).toNat && (r != 2 || s.version l == 3)

/-- The end that proposes: this device, but on a trunk the end that is the Cox for the set (R148, R189). -/
def State.proposes (s : State) (l : Nat) : Bool := s.role l != 5 || s.b Reg.xtbJoin 3

/-- The `RATE` message for rate `r` at boundary `S` (R140, R148). -/
def rateMsg (r st : Nat) (answer : Bool) : Msg :=
  { mtype := 7, tag := 0, op := 0, mlen := 2, addr := 0,
    payload := [BitVec.ofNat 8 r, BitVec.ofNat 8 answer.toNat] ++ leBytes 6 st }

/-- Offer a step to rate `r` at the boundary two strokes ahead. -/
def State.offerStep (s : State) (l r : Nat) : State :=
  let st := s.clock.stroke.toNat + 2
  (s.onPort l fun x => { x with step := some { rate := r, stroke := st, agreed := false, changed := false } }).sendMsg l
    (rateMsg r st false)

/-- The port may make no attempt at rate `r` now: three have failed, a watch port runs, or a generator holds the rate (R106,
R115). -/
def State.stepBarred (s : State) (l r : Nat) : Bool :=
  decide (3 ≤ nget (fun _ => 0) (s.port l).tries r) || (s.watchPort l && s.running) || s.generating l

/-- After negotiation or a completed step: the next step, or RUN. -/
def State.stepOrRun (s : State) (l : Nat) : State :=
  let r := s.rate l + 1
  if s.stepAllowed l r && s.proposes l && !s.stepBarred l r then (s.setLadder l 4).offerStep l r else s.enterRun l

/-- A step fails: reported and counted; after a change of rate the group falls back one step, unless a generator holds the rate, and
trains again (R105, R115), as it does at its rate where a lane has lost lock before the change (R114). -/
def State.stepFail (s : State) (l : Nat) (lost : Bool) : State :=
  match (s.port l).step with
  | none => s
  | some st =>
    let n := min 3 (nget (fun _ => 0) (s.port l).tries st.rate + 1)
    let s := (s.raise .portStepFail l (l + st.rate * 2 ^ 16)).setF (Reg.prtStat l) 18 16 n
    let s := s.onPort l fun x => { x with step := none, failRate := some st.rate, tries := nset (fun _ => 0) x.tries st.rate n }
    if st.changed then (onlyIf (!s.generating l) (fun t => t.setRate l (st.rate - 1)) s).enterTrain l true
    else if lost then s.enterTrain l true
    else if s.ladder l = 4 then s.enterRun l else s

/-- At the agreed boundary both ends change rate; an offer without an answer is repeated for a later one (R148). RUN to STEP is none
of the changes that R144 names, so transactions stay outstanding. DEDUCED: a generator that holds the rate ends the step (R115); neither
end has then failed, so it is no attempt. -/
def State.stepBoundary (s : State) (l : Nat) : State :=
  match (s.port l).step with
  | none => s
  | some st =>
    if st.changed ∨ s.clock.stroke.toNat < st.stroke then s
    else if s.generating l then
      let s := s.onPort l fun x => { x with step := none }
      if s.ladder l = 4 then s.enterRun l else s
    else if st.agreed then
      let s := ((s.onLanes l fun x => { x with laneDone := false, windows := [] }).onPort l fun x =>
        { x with step := some { st with changed := true } }).setRate l st.rate |>.setLadder l 4
      (forAll (s.lanes l) (fun p t => t.setLock p false) s).fillWith l symTrain
    else s.offerStep l st.rate

/-- A `RATE` message: the answer to this device's offer, or the offer of a far end that proposes, which this device answers
(R148). -/
def State.rateReceived (s : State) (l : Nat) (pl : List Byte) : State :=
  let r := (pl.getD 0 0).toNat
  let st := leNat ((pl.drop 2).take 6)
  if (pl.getD 1 0).getLsbD 0 then
    s.onPort l fun x => match x.step with
      | some o => if o.rate = r ∧ o.stroke = st then { x with step := some { o with agreed := true } } else x
      | none => x
  else if s.stepAllowed l r ∧ s.ladder l = 5 ∧ !s.proposes l ∧ !s.stepBarred l r then
    (s.onPort l fun x => { x with step := some { rate := r, stroke := st, agreed := true, changed := false } }).sendMsg l
      (rateMsg r st true)
  else s

/-! ### The ladder's commands -/

/-- Every lane of the group has completed the rung (R107). -/
def State.allDone (s : State) (l : Nat) : Bool := (s.lanes l).all fun p => (s.port p).laneDone

/-- DETECT completes on a lane (R104), but not while the TAP holds its pads, when it sees loss of lock (R119). -/
def detectDone (p : Nat) (s : State) : State :=
  let l := s.lead p
  if s.ladder p = 1 ∧ !s.pins.extest then
    let s := s.onPort p fun x => { x with laneDone := true }
    if s.allDone l then s.enterTrain l false else s
  else s

/-- TRAIN is complete once every lane has trained and, in a group, has sent a buoy, with no more than 64 symbols of skew (R104, R107,
R110): the group goes to NEGOTIATE, or, retraining, back to RUN at the next boundary. -/
def State.trainCheck (s : State) (l : Nat) : State :=
  if s.ladder l = 2 ∧ s.allDone l ∧ (!s.grouped l || (s.lanes l).all fun q => (s.port q).buoy) ∧ s.f (Reg.prtGrpStat l) 6 0 ≤ 64 then
    if (s.port l).retrain then (s.trainEnds l).onPort l fun x => { x with resumeDue := true }
    else ((s.onLanes l fun x => { x with laneDone := false, neg := none, rxAck := false, txAck := false }).setLadder l 3).trainEnds l
  else s

/-- Training completes on a lane (R99, R104, R107, R119). -/
def trainDone (p : Nat) (inverted : Bool) (s : State) : State :=
  if s.ladder p = 2 ∧ !s.pins.extest then
    (((s.setB (Reg.prtStat p) 13 inverted).setLock p true).onPort p fun x => { x with laneDone := true }).trainCheck (s.lead p)
  else s

/-- TRAIN has taken 100 ms, for any reason but a loss of lock in RUN (R104, R107; R101 has its own limit): DETECT again, or, where
every lane has comma alignment and none has seen a buoy, lane index 0 alone (R125). -/
def trainTimeout (p : Nat) (aligned : Bool) (s : State) : State :=
  let l := s.lead p
  if s.ladder l = 2 ∧ !(s.port l).relock ∧ !(s.port l).resumeDue then
    if aligned && s.grouped l && (s.lanes l).all fun q => !(s.port q).buoy then
      let s := s.raise .portVersion l (l + 2 ^ 24)
      let s := forAll ((s.lanes l).drop 1) (fun q t =>
        ((t.laneIdle q).onPort q fun x => { x with laneDone := false }).setF (Reg.prtStat q) 2 0 6) s
      let s := s.wr (Reg.prtGrpStat l) 0
      ((s.onPort l fun x => { x with alone := true, laneDone := false, retrain := false, neg := none, rxAck := false, txAck := false })
        |>.setLadder l 3).trainEnds l
    else (s.raise .portTrainFail l l).enterDetect l
  else s

/-- The 16-byte payload of this device's `NEG` (R122, R123): L3, 12.5 Gb/s, DGX-512, every capability bit. DESIGN CHOICE: its own
`GLASS_REGIONS`, for which the spec gives no value, is 0: a DGX-512 signs no regions for a peer. -/
def negPayload (ack : Bool) : List Byte := [3, 2, 3, 0x7F, BitVec.ofNat 8 ack.toNat, 0] ++ List.replicate 10 0

/-- A `NEG` is sent every 10 µs in NEGOTIATE, with `ACK` once one valid `NEG` has come (R123). -/
def negTransmit (p : Nat) (s : State) : State :=
  let l := s.lead p
  if s.ladder l = 3 then
    let ack := (s.port l).neg.isSome
    (s.onPort l fun x => { x with txAck := x.txAck || ack }).sendMsg l
      { mtype := 0, tag := 0, op := 0, mlen := 4, addr := 0, payload := negPayload ack }
  else s

/-- A `NEG` arrives; with `VER_MAX` 0 it is invalid (R123, R124). -/
def State.negReceived (s : State) (l : Nat) (pl : List Byte) : State :=
  if s.ladder l = 3 ∧ pl.length = 16 ∧ (pl.getD 0 0 &&& 3) ≠ 0 then
    s.onPort l fun x => { x with neg := some pl, rxAck := x.rxAck || (pl.getD 4 0).getLsbD 0 }
  else s

/-! ### Phase pull (R133 to R135) -/

/-- `P` and `Q` of a pull setting, 0 applying 1 (R152). -/
def pullRatio (w : Word) : Nat × Nat := (max 1 (bf w 30 28), max 1 (bf w 26 24))

/-- The ratio lies in 1 to 4 and in lowest terms (R135). -/
def pullValid (w : Word) : Bool :=
  let (p, q) := pullRatio w
  p ≤ 4 && q ≤ 4 && Nat.gcd p q == 1

/-- The pull setting in force is put to work: written to the far end where `PULL` is enabled (R133); an invalid ratio leaves pull
off and is reported (R135). Without `RATIO` the far end is told 1 and 1. -/
def State.pullApply (s : State) (l : Nat) (w : Word) : State :=
  let s := s.onPort l fun x => { x with pull := w, pullDue := false }
  if !s.feature l 2 then s.setF (Reg.prtLinkStat l) 9 8 0
  else
    let send := fun (v : Nat) (t : State) =>
      (t.request l { use := .pull, op := 1, addr := 0x10, len := 4, data := leBytes 4 v }).request l
        { use := .pull, op := 1, addr := 0x14, len := 4, data := leBytes 4 (encode 32 (signed 24 (bf w 23 0))) }
    if !bit w 31 then (send 0 s).setF (Reg.prtLinkStat l) 9 8 0
    else if !pullValid w then (s.raise .portVersion l (l + 8 * 2 ^ 24)).setF (Reg.prtLinkStat l) 9 8 0
    else
      let (p, q) := if s.feature l 3 then pullRatio w else (1, 1)
      let s := send (2 ^ 31 + p * 16 + q) s
      if s.f (Reg.prtLinkStat l) 9 8 = 2 then s
      else (s.setF (Reg.prtLinkStat l) 9 8 1).onPort l fun x => { x with pullGood := 0, pullBad := 0 }

/-- A `STATUS` message reports the far end's phase error (R134, R140). -/
def State.statusReceived (s : State) (l : Nat) (pl : List Byte) : State :=
  let e := signed 32 (leNat (pl.take 4))
  (s.setI32 (Reg.prtPullErr l) e).onPort l fun x => { x with pullNow := some e }

/-- Pull is judged at the end of each stroke: four strokes within ±2 µs enter lock, two outside ±8 µs or silent leave it (R134). -/
def State.pullJudge (s : State) (l : Nat) : State :=
  let x := s.port l
  let st := s.f (Reg.prtLinkStat l) 9 8
  let near := match x.pullNow with | some e => decide (e.natAbs ≤ 200) | none => false
  let far := match x.pullNow with | some e => decide (800 < e.natAbs) | none => true
  let good := if near then min 4 (x.pullGood + 1) else 0
  let bad := if far then min 2 (x.pullBad + 1) else 0
  let s := s.onPort l fun x => { x with pullNow := none, pullGood := good, pullBad := bad }
  if (st = 1 ∨ st = 3) ∧ good = 4 then (s.setF (Reg.prtLinkStat l) 9 8 2).raise .portPullLock l l
  else if st = 2 ∧ bad = 2 then (s.setF (Reg.prtLinkStat l) 9 8 3).raise .portPullLost l l
  else s

/-- A write of `PULL_CFG`: in force at the next boundary (R133, R152). -/
def pullCfgWrite (p : Nat) (w : Word) (s : State) : State :=
  (s.wr (Reg.prtPullCfg p) w).onPort p fun x => { x with pullDue := true }

/-! ### The end of negotiation -/

/-- The back channel stands on a lane: in a CAMERA group the others' transmitters enter electrical idle, and it wakes where it was
idle (R95). -/
def State.backTo (s : State) (l i : Nat) : State :=
  if s.role l = 1 ∧ s.grouped l then
    let s := forAll ((s.lanes l).filter (· != s.laneAt l i)) (fun p t => if t.laneSends p then (t.send (.idleCode p)).sendLane p [symIdle] [] else t) s
    let moved := (s.port l).back != i
    let s := s.onPort l fun x => { x with back := i }
    onlyIf (moved && !(s.port (s.laneAt l i)).txIdle) (fun t => t.laneWake (s.laneAt l i)) s
  else s.onPort l fun x => { x with back := i }

/-- At a boundary the back channel moves to the lowest good lane where it is not there: its lane has failed, or a lower one is good
again (R95). -/
def State.backMove (s : State) (l : Nat) : State :=
  match maskLanes (s.grpGood l) with
  | i :: _ => if s.grouped l ∧ (s.role l = 1 ∨ s.role l = 2) ∧ s.version l ≠ 0 ∧ (s.port l).back ≠ i then s.backTo l i else s
  | [] => s

/-- Negotiation has completed (R123): `LINK_STAT` is written anew. DESIGN CHOICE: pull that was in lock before is acquired again, without
the window of R134 and without `PORT_PULL_LOST`, which the spec names for the window only. Version, features and what is missing of them (R124, R126), the back channel (R95), pull
(R133), then steps or RUN (R105). -/
def State.negotiated (s : State) (l : Nat) (pl : List Byte) : State :=
  let b := fun i => (pl.getD i 0).toNat
  let ver := min 3 (b 0 % 4)
  let cap := b 3
  let en := enabledFeatures ver cap
  let s := (s.backTo l 0).setF (Reg.prtStat l) 9 8 ver
  let s := s.wr (Reg.prtLinkStat l) (BitVec.ofNat 32
    (cap * 2 ^ 24 + en * 2 ^ 16 + b 2 % 8 * 2 ^ 13 + b 0 % 4 * 2 ^ 10 + b 5 % 32))
  let miss := (upto 8).foldl (fun a k => if (s.port l).cfg.needs.testBit k && !en.testBit k then a + 2 ^ k else a) 0
  let s := onlyIf (miss ≠ 0) (fun t => t.raise .portVersion l (l + miss * 2 ^ 24)) s
  (s.pullApply l (s.rd (Reg.prtPullCfg l))).stepOrRun l

/-- NEGOTIATE completes when a `NEG` with `ACK` has come and one has been sent (R123). -/
def negotiateDone (p : Nat) (s : State) : State :=
  let l := s.lead p
  let x := s.port l
  match x.neg with
  | some pl => if s.ladder l = 3 ∧ x.rxAck ∧ x.txAck then s.negotiated l pl else s
  | none => s

/-- NEGOTIATE has taken 50 ms (R104). -/
def negotiateTimeout (p : Nat) (s : State) : State :=
  let l := s.lead p
  if s.ladder l = 3 then (s.raise .portTrainFail l l).enterDetect l else s

/-! ### Steps -/

/-- Training at the new rate completes on a lane, whose eye height in mV is judged (R105, R107). -/
def stepDone (p eye : Nat) (s : State) : State :=
  let l := s.lead p
  match (s.port l).step with
  | some st =>
    if s.ladder p = 4 ∧ st.changed ∧ !s.pins.extest then
      if eye < 2 * s.f (Reg.prtCfg p) 15 8 then s.stepFail l false
      else
        let s := (s.setLock p true).onPort p fun x => { x with laneDone := true }
        if s.allDone l then
          ((s.onLanes l fun x => { x with laneDone := false, step := none, failRate := if x.failRate = some st.rate then none else x.failRate })
            |>.trainEnds l).stepOrRun l
        else s
    else s
  | none => s

/-- Training at the new rate has taken 50 ms (R105). -/
def stepTimeout (p : Nat) (s : State) : State :=
  match (s.port (s.lead p)).step with
  | some st => if st.changed then s.stepFail (s.lead p) false else s
  | none => s

/-- No offer has been answered in 50 ms (R105, R148). -/
def rateAgreeTimeout (p : Nat) (s : State) : State :=
  match (s.port (s.lead p)).step with
  | some st => if st.agreed then s else s.stepFail (s.lead p) false
  | none => s

/-- Ten seconds after it entered RUN at the lower rate, or after `RESTEP`: the step is tried again, or deferred (R106). -/
def stepRetry (p : Nat) (s : State) : State :=
  let l := s.lead p
  match (s.port l).failRate with
  | some r =>
    if s.ladder l = 5 ∧ (s.port l).step = none ∧ !s.stepBarred l r ∧ (s.portIdle l || s.b (Reg.prtCfg l) 30) ∧ s.stepAllowed l r
        ∧ s.proposes l then s.offerStep l r
    else s
  | none => s

/-- `RESTEP` clears the count of attempts, but on a watch port from RUNNING (R106, R120). -/
def restep (p : Nat) (s : State) : State :=
  if s.watchPort (s.lead p) && s.running then s
  else (s.setF (Reg.prtStat (s.lead p)) 18 16 0).onPort (s.lead p) fun x => { x with tries := [] }

/-! ### Loss of lock (R100, R101, R111 to R114) -/

/-- An unbonded port trains again because it lost lock in RUN; its transmitter sends idle (R101). -/
def State.relockTrain (s : State) (l : Nat) : State := (s.trainWith l true symComma).onPort l fun x => { x with relock := true }

/-- A lane loses lock: in RUN an unbonded port retrains (R101) and a group stops packets (R111); in STEP a group's step fails (R114),
as does one for which the port has not yet changed rate; elsewhere the lane has its rung to complete again. -/
def laneLockLoss (p : Nat) (s : State) : State :=
  let l := s.lead p
  let i := s.laneIndex p
  if s.ladder p = 5 then
    if !s.grouped l then (((s.countErr (Reg.prtLockCnt p) 16 1).setLock p false).linkDown l).relockTrain l
    else if !(s.grpGood l).testBit i then s
    else
      let s := ((s.countErr (Reg.prtLockCnt p) 16 1).setLock p false).setB (Reg.prtStat l) 15 false
      let s := (s.setB (Reg.prtGrpStat l) (16 + i) true).raise .portLaneLoss l (l + i * 2 ^ 16)
      if s.grpGood l = 0 then s.enterDetect l
      else s.onPort l fun x => { x with lossAge := some (x.lossAge.getD 0), resumeDue := false }
  else
    let s := s.setLock p false
    let changed := match (s.port l).step with | some st => st.changed | none => false
    if s.ladder p = 4 ∧ (s.grouped l ∨ !changed) then s.stepFail l true
    else (s.onPort p fun x => { x with laneDone := false }).onPort l fun x => { x with resumeDue := x.resumeDue && s.ladder p != 2 }

/-- A port that lost lock has trained for 100 ms (R101): one rate step lower, or DETECT from the lowest; at its rate again while a
generator holds it (R115). -/
def retrainTimeout (p : Nat) (s : State) : State :=
  let l := s.lead p
  if s.ladder l = 2 ∧ (s.port l).relock ∧ !(s.port l).resumeDue then
    let s := s.raise .portTrainFail l l
    if s.generating l then s.relockTrain l
    else if s.rate l = 0 then s.enterDetect l else (s.setRate l (s.rate l - 1)).relockTrain l
  else s

/-- A lost lane of a group relocks (R112, R114, R119). -/
def laneRelock (p : Nat) (s : State) : State :=
  let l := s.lead p
  if s.ladder l = 5 ∧ s.grouped l ∧ !s.pins.extest then
    let s := s.setLock p true
    onlyIf (s.b (Reg.prtStat l) 14 && s.grpGood l == s.allLanes l) (fun t => t.setB (Reg.prtStat l) 15 true) s
  else s

/-- A buoy arrives on a lane, with the index and the count that it carries (R98, R110, R112): the lane takes its place by the index,
and skew is measured; in TRAIN the group aligns on it, in RUN a group whose lanes are back realigns on it. -/
def buoyReceived (p skew index count : Nat) (s : State) : State :=
  let l := s.lead p
  if s.grouped l then
    let s := ((s.setF (Reg.prtGrpStat l) 6 0 (max (s.f (Reg.prtGrpStat l) 6 0) (min 127 skew))).onPort p fun x =>
      { x with place := some (index % (s.lanes l).length), farBuoy := count }).showGood l
    if s.ladder l = 2 then
      (onlyIf (decide (64 < skew)) (fun t => t.raise .portSkew l l) (s.onPort p fun x => { x with buoy := true })).trainCheck l
    else if s.ladder l = 5 ∧ (s.port l).lossAge.isSome ∧ (s.port l).offer = none ∧ !s.laneOut l then
      s.onPort l fun x => { x with resumeDue := true }
    else s
  else s

/-- The `NARROW` or `WIDEN` message of an offer (R140). -/
def Offer.msg (o : Offer) : Msg :=
  { mtype := if o.widen then 8 else 4, tag := 0, op := 0, mlen := 2, addr := 0,
    payload := [BitVec.ofNat 8 o.width, BitVec.ofNat 8 o.mask] ++ leBytes 6 o.stroke }

/-- The lead port offers a restriping for the next boundary (R113, R148). -/
def State.offerStripe (s : State) (l : Nat) (widen : Bool) (width mask : Nat) : State :=
  let o : Offer := { widen := widen, width := width, mask := mask, stroke := s.clock.stroke.toNat + 1, echoed := false }
  (s.onPort l fun x => { x with offer := some o }).sendMsg l o.msg

/-- At the eighth boundary after the loss the group narrows to the largest power of two of its good lanes, lowest first (R113,
R114). -/
def groupNarrow (p : Nat) (s : State) : State :=
  let l := s.lead p
  let x := s.port l
  let due : Bool := match x.lossAge with | some n => decide (8 ≤ n) | none => false
  if s.ladder l = 5 ∧ due ∧ x.offer.isNone ∧ s.laneOut l then
    let good := maskLanes (s.grpGood l)
    if good.isEmpty then s.enterDetect l
    else
      let w := 2 ^ Nat.log2 good.length
      s.offerStripe l false w ((good.take w).foldl (fun a i => a + 2 ^ i) 0)
  else s

/-- `WIDEN`: ignored unless `WIDEN_READY` (R114, R120). -/
def widen (p : Nat) (s : State) : State :=
  let l := s.lead p
  if s.ladder l = 5 ∧ s.b (Reg.prtStat l) 15 ∧ (s.port l).offer = none then
    s.offerStripe l true (s.lanes l).length (s.allLanes l)
  else s

/-- A `NARROW` or `WIDEN` message: the echo of this device's offer, or an offer of the far end, which this device echoes whatever it has
itself on offer (R148). -/
def State.stripeReceived (s : State) (l : Nat) (m : Msg) : State :=
  let o : Offer := { widen := m.mtype == 8, width := (m.payload.getD 0 0).toNat, mask := (m.payload.getD 1 0).toNat,
                     stroke := leNat ((m.payload.drop 2).take 6), echoed := true }
  let echo := match (s.port l).offer with | some x => x.msg.payload == m.payload && x.widen == o.widen | none => false
  if echo then s.onPort l fun y => { y with offer := y.offer.map fun x => { x with echoed := true } }
  else if s.clock.stroke.toNat < o.stroke then
    (s.onPort l fun y => { y with farOffer := some o }).sendMsg l { m with tag := 0, op := 0, addr := 0 }
  else s

/-- The narrow mode that a group carries: under R125, or while narrowed (R113); `none` when it runs at full width. An absent mode
lets no stream through. -/
def State.narrowMode (s : State) (l : Nat) : Option (List (Nat × Option Nat)) :=
  let mode := fun w => some ((nfind w (s.port l).cfg.narrow).getD [])
  if (s.port l).alone then mode 1
  else if s.b (Reg.prtStat l) 14 then mode (maskLanes (s.grpActive l)).length
  else none

/-- An acknowledged restriping takes effect (R113, R114, R148). -/
def State.restripe (s : State) (l : Nat) (o : Offer) : State :=
  let g := setFld (setFld (s.rd (Reg.prtGrpStat l)) 15 8 o.mask) 23 16 0
  let s := (s.wr (Reg.prtGrpStat l) g).onPort l fun x => { x with lossAge := none, resumeDue := false, windows := [], widening := o.widen }
  if o.widen then
    ((s.setB (Reg.prtStat l) 14 false).setB (Reg.prtStat l) 15 false).raise .portWidened l l
  else
    let s := s.setB (Reg.prtStat l) 14 true
    let s := s.setB (Reg.prtStat l) 15 (s.grpGood l == s.allLanes l)
    let w := if (nfind o.width (s.port l).cfg.narrow).isSome then o.width else 0
    s.raise .portNarrowed l (l + w * 2 ^ 16)

/-- A restriping takes effect at the boundary it names, the far end's first: this device's own once echoed, else it is offered for the
next (R113, R114, R148). -/
def State.stripeBoundary (s : State) (l : Nat) : State :=
  let due := fun (o : Offer) => decide (o.stroke ≤ s.clock.stroke.toNat)
  let s := match (s.port l).farOffer with
    | some o => if due o then (s.onPort l fun x => { x with farOffer := none }).restripe l o else s
    | none => s
  match (s.port l).offer with
  | some o =>
    if !due o then s
    else if o.echoed then (s.onPort l fun x => { x with offer := none }).restripe l o
    else s.offerStripe l o.widen o.width o.mask
  | none => s

/-- What falls due on a port at a stroke boundary: the age of a lane loss, resumption (R101, R112), restriping, a rate change,
pull. -/
def State.portBoundary (s : State) (l : Nat) : State :=
  let s := (s.onPort l fun x => { x with lossAge := x.lossAge.map (· + 1), widening := false }).backMove l
  let s :=
    if (s.port l).resumeDue && !s.pins.extest then
      if s.ladder l = 2 then s.enterRun l
      else if s.ladder l = 5 then
        ((s.setF (Reg.prtGrpStat l) 23 16 0).onPort l fun x => { x with resumeDue := false, lossAge := none, windows := [] })
          |>.raise .portLaneBack l l
      else s
    else s
  let s := (s.stripeBoundary l).stepBoundary l
  let s := if s.f (Reg.prtLinkStat l) 9 8 ≠ 0 then s.pullJudge l else s
  if (s.port l).pullDue then s.pullApply l (s.rd (Reg.prtPullCfg l)) else s

/-- The ports act at a boundary, each at its lead. -/
def State.portsBoundary (s : State) : State :=
  forAll ((s.prt.ports.map (·.1)).filter fun p => s.lead p == p) (fun p t => t.portBoundary p)
    { s with prt := { s.prt with rbRise := [] } }

/-- A port sends and accepts packets: in RUN, no lane lost, not waiting to resume, no generator in its place (R101, R111, R115);
DEDUCED: for the stroke after it has widened it sends none, which makes the one repeated frame of R114. -/
def State.flowing (s : State) (p : Nat) : Bool :=
  let l := s.lead p
  s.ladder l == 5 && (s.port l).lossAge.isNone && !(s.port l).resumeDue && !s.generating l && !(s.port l).txIdle && !(s.port l).widening

/-! ### Electrical idle (R102, R103) -/

/-- The transmitters of the group enter electrical idle after one K23.7 (R102). The port is in IDLE from RUN on; on a lower rung it
keeps the rung, with its transmitter idle. DEDUCED: R104 has IDLE follow RUN. Idle, it takes the synthesizer that its register names
(R80). -/
def State.txIdleEnter (s : State) (l : Nat) : State :=
  let s := forAll (s.lanes l) (fun p t => (t.laneIdle p).settleSyn p) s
  if s.ladder l = 5 then s.setLadder l 6 else s

/-- A write of `IDLE_ENTER`: ignored on a watch port (R102, R120). -/
def idleEnter (p : Nat) (s : State) : State :=
  let l := s.lead p
  if s.watchPort p ∨ s.ladder l = 0 ∨ (s.port l).txIdle then s else s.txIdleEnter l

/-- A port in IDLE neither of whose directions idles is in RUN again (R103, R138, R141): but not while the TAP holds its pads
(R119). -/
def State.idleOver (s : State) (l : Nat) : State :=
  if s.ladder l = 6 ∧ !(s.port l).txIdle ∧ !(s.port l).rxIdle ∧ !s.pins.extest then s.enterRun l else s

/-- A write of `IDLE_EXIT`: the fast-exit burst, then traffic (R103); not while its synthesizer is stopped (R88) or the TAP holds its
pads (R119). -/
def idleExit (p : Nat) (s : State) : State :=
  let l := s.lead p
  if s.ladder l ≠ 0 ∧ (s.port l).txIdle ∧ !(s.port l).halted ∧ !s.pins.extest then
    (forAll (s.lanes l) (fun q t => t.laneWake q) s).idleOver l
  else s

/-- The receive direction of a group idles: once any lane is squelched, or, where its receive lanes carry the back channel, once all
are (R95, R102). -/
def State.quiet (s : State) (l : Nat) : Bool :=
  if s.role l = 2 then (s.lanes l).all fun q => (s.port q).rxQuiet else (s.lanes l).any fun q => (s.port q).rxQuiet

/-- The receiver decodes K23.7 and squelches its input (R102). -/
def rxIdleEntry (p : Nat) (s : State) : State :=
  let l := s.lead p
  let s := s.onPort p fun x => { x with rxQuiet := true }
  if (s.ladder l = 5 ∨ s.ladder l = 6) ∧ s.quiet l then (s.setLadder l 6).onPort l fun x => { x with rxIdle := true } else s

/-- Signal energy returns and the receiver relocks from the burst (R103). -/
def rxIdleExit (p : Nat) (s : State) : State :=
  let l := s.lead p
  if s.pins.extest then s
  else
    let s := s.onPort p fun x => { x with rxQuiet := false }
    if (s.port l).rxIdle ∧ !s.quiet l then (s.onPort l fun x => { x with rxIdle := false }).idleOver l else s

/-- No comma alignment 100 µs after energy returned: TRAIN at the current rate (R103). A port that its synthesizer stopped stays in
electrical idle (R88). -/
def idleExitTimeout (p : Nat) (s : State) : State :=
  let l := s.lead p
  if s.ladder l = 6 ∧ (s.port l).rxIdle ∧ !(s.port l).halted then (s.linkDown l).enterTrain l true else s

/-- `RETRAIN` returns the port or group to DETECT; a group tries bonding again (R104, R120, R125). A port that its synthesizer stopped
stays in electrical idle (R88). -/
def retrain (p : Nat) (s : State) : State :=
  let l := s.lead p
  if s.used l && s.ladder l != 0 && !(s.port l).halted then (s.onPort l fun x => { x with alone := false }).enterDetect l else s

/-! ### Stops of an octet synthesizer (R88, R90) -/

/-- The leads of the ports on a synthesizer. -/
def State.portsOn (s : State) (i : Nat) : List Nat :=
  if 8 ≤ i then ((upto 8).map (8 * ((i - 8) / 2) + ·)).filter fun p => s.used p && s.lead p == p && s.portSyn p == i else []

/-- A port whose synthesizer is in lock: one that was stopped retrains, one that waited for it starts (R90, R104). -/
def State.wakePort (s : State) (l : Nat) : State :=
  if (s.port l).halted then
    if (s.port l).climb then s.enterDetect l
    else ((s.linkDown l).onPort l fun x => { x with halted := false }).enterTrain l true
  else s.portStart l

/-- The ports of a stopped synthesizer send K23.7 and enter electrical idle (R88); a rate step ends there, and a rate that the step has
not proved is given up (R105). One that in electrical idle has taken the other synthesizer of its octet runs on that one, if it is
in lock (R80). -/
def State.haltPorts (s : State) (i : Nat) : State :=
  forAll (s.portsOn i) (fun l t =>
    if t.ladder l = 0 then t
    else
      let t := match (t.port l).step with
        | some st => onlyIf st.changed (fun u => u.setRate l (st.rate - 1)) t
        | none => t
      let t := ((t.txIdleEnter l).setLadder l 6).onPort l fun x => { x with halted := true, step := none, resumeDue := false }
      if t.portSyn l != i && (t.synState (t.portSyn l) == 2 || t.synState (t.portSyn l) == 3) then t.wakePort l else t) s

/-- The ports of a synthesizer that has locked (R90, R104). -/
def State.wakePorts (s : State) (i : Nat) : State := forAll (s.portsOn i) (fun l t => t.wakePort l) s

/-! ### Test and measurement (R115 to R119) -/

/-- A write of PRBS control (R115): an enable is refused unless the port is idle under R48. -/
def prbsCtrlWrite (p : Nat) (w : Word) (s : State) : State :=
  if (bit w 0 || bit w 4) && !s.portIdle p then s.setB (Reg.prtStat p) 19 true
  else
    let on := bit w 4 && !s.b (Reg.prtPrbsCtrl p) 4
    let s := onlyIf (bit w 0 || bit w 4) (fun t => t.setB (Reg.prtStat p) 19 false) (s.wr (Reg.prtPrbsCtrl p) w)
    if on || !bit w 4 then s.setB (Reg.prtPrbsErr p) 30 false else s

/-- The checker has synchronised; it then counts bits and bit errors (R115). -/
def prbsCheckerSync (p bits errs : Nat) (s : State) : State :=
  if s.b (Reg.prtPrbsCtrl p) 4 then
    let s := s.setB (Reg.prtPrbsErr p) 30 true
    let tot := (s.rd (Reg.prtPrbsBitsLo p)).toNat + bits
    let s := s.wr (Reg.prtPrbsBitsLo p) (BitVec.ofNat 32 tot)
    let s := if tot / 2 ^ 32 = 0 then s else s.countPerf (Reg.prtPrbsBitsHi p) 31 (tot / 2 ^ 32)
    if errs = 0 then s else s.countErr (Reg.prtPrbsErr p) 30 errs
  else s

/-- The eye monitor of octet `o`. -/
def State.eye (s : State) (o : Nat) : EyeSt := nget (fun _ => EyeSt.init) s.prt.eyes o

def State.setEye (s : State) (o : Nat) (x : EyeSt) : State :=
  { s with prt := { s.prt with eyes := nset (fun _ => EyeSt.init) s.prt.eyes o x } }

/-- A write of the eye monitor's control: `GO` starts a scan of `LANE` (R116). -/
def eyeScan (o : Nat) (w : Word) (s : State) : State :=
  let go := bit w 0
  let s := s.wr (Reg.prtOctEyeCtrl o) (w &&& 0x70001)
  if go then (s.setEye o { scan := true }).setB (Reg.prtOctEyeRes o) 31 false
  else if (s.eye o).scan then s.setB (Reg.prtOctEyeCtrl o) 0 true else s

/-- A scan completes (R116); while a STEP of the octet holds the monitor the scan is suspended. -/
def eyeScanDone (o height width : Nat) (s : State) : State :=
  if (s.eye o).scan && (upto 8).all fun k => s.ladder (8 * o + k) != 4 then
    ((s.setEye o { scan := false }).setB (Reg.prtOctEyeCtrl o) 0 false).wr (Reg.prtOctEyeRes o)
      (BitVec.ofNat 32 (2 ^ 31 + min 63 width * 2 ^ 16 + min 1023 height))
  else s

/-- A write assigns a read-back receiver; from RUNNING one that `FIRST_LIGHT` assigned is locked (R117, R118). -/
def rbCfgWrite (k : Nat) (w : Word) (s : State) : State :=
  if s.running && s.prt.rbLocked.contains k then s.setB (Reg.prtRbStat k) 30 true
  else (s.wr (Reg.prtRbCfg k) (w &&& 0x800001FF)).setB (Reg.prtRbStat k) 31 false

/-- A read-back receiver gains sync on its lane (R118). -/
def rbSyncGained (k : Nat) (s : State) : State :=
  if s.b (Reg.prtRbCfg k) 31 then s.setB (Reg.prtRbStat k) 31 true else s

/-- A read-back receiver finds symbols that differ or are invalid; `PORT_RB_MISMATCH` comes once a stroke (R117, R121). -/
def State.rbCounts (s : State) (k mism inval : Nat) : State :=
  let s := if mism = 0 then s else s.countErr (Reg.prtRbMismatch k) 24 mism
  let s := if inval = 0 then s else s.countErr (Reg.prtRbCodeErr k) 24 inval
  if mism + inval = 0 ∨ s.prt.rbRise.contains k then s
  else
    let p := s.f (Reg.prtRbCfg k) 8 0
    { s with prt := { s.prt with rbRise := s.prt.rbRise ++ [k] } }.raise .portRbMismatch p (p + k * 2 ^ 16)

/-- The TAP takes or releases the pads of every pair; the port logic sees loss of lock, and cannot lock again while the TAP holds them
(R119), in reset as in any load state while the die is powered (R441). -/
def extest (on : Bool) (s : State) : State :=
  let powered := match s.pwr.phase with | .hold | .running | .inReset => true | _ => false
  if !powered then s
  else onlyIf (on && s.matrixUp) (forAll (upto 512) laneLockLoss) (s.onPins fun x => { x with extest := on })

/-- An invalid symbol outside any packet or marker (R97). -/
def invalidSymbol (p : Nat) (s : State) : State := s.countErr (Reg.prtCodeErr p) 24 1

/-! ### Host transactions (R152) -/

/-- A host transaction command with operation `op`: its `GO` and `LEN` in `w`. -/
def hostXact (op p : Nat) (w : Word) (s : State) : State :=
  let n := bf w 4 0
  let ends := fun (code : Nat) (t : State) => t.setF (Reg.prtHxStat p) 10 8 code
  if !bit w 31 || s.b (Reg.prtHxStat p) 31 then s
  else if s.running && s.watchPort p && (op == 1 || op == 3) then ends 2 s
  else if n = 0 ∨ 16 < n then ends 3 s
  else if s.lead p ≠ p ∨ s.ladder p ≠ 5 then ends 5 s
  else
    let data := if op = 1 ∨ op = 3 then (upto n).flatMap fun i => leBytes 4 (s.rd (Reg.prtHxData p i)).toNat else []
    (((s.setB (Reg.prtHxStat p) 31 true).setF (Reg.prtHxStat p) 10 8 0)).request p
      { use := .host, op := op, addr := (s.rd (Reg.prtHxAddr p)).toNat, len := 4 * n, data := data }

/-! ### Rough water (R149, R150) -/

/-- The running chart has `TEST` set (R25, R149). -/
def State.testChart (s : State) : Bool := match s.loader.hdr with | some h => h.flags.testBit 0 | none => false

/-- A write of the rough-water key (R149). -/
def rwKey (p : Nat) (w : Word) (s : State) : State :=
  let inTime := match (s.port p).keyAt with | some t => decide (s.now ≤ t + 1000000) | none => false
  if w = 0xB0A75EA5 then s.onPort p fun x => { x with keyAt := some s.now }
  else
    let ok := w == 0x5EA5B0A7 && inTime && s.running && s.testChart && !s.watchPort p
    let s := s.onPort p fun x => { x with keyAt := none }
    if ok then (s.setB (Reg.prtRwStat p) 31 true).raise .portRwArmed p p else s

/-- A setting of rough water is put to work (R150, R151): the markers that modes 1 and 2 of `MARKER_DROP` have still to drop, and one
forced loss of lock on lane index `LOSS_LANE` where the word has `LOSS_GO`. -/
def State.roughWork (s : State) (p : Nat) (w : Word) : State :=
  let m := bf w 2 1
  let left := if m = 3 then 0 else m
  let s := s.onPort p fun x => { x with
    roughRx := { x.roughRx with markers := if bit w 30 then 0 else left }
    roughTx := { x.roughTx with markers := if bit w 30 then left else 0 } }
  let l := s.lead p
  if bit w 23 ∧ bit w 31 ∧ s.ladder l = 5 ∧ bf w 26 24 < (s.lanes l).length then laneLockLoss (s.laneAt l (bf w 26 24)) (s.injected p 1) else s

/-- A write of the far end to `RW_CTRL` of the space this device offers is put to work; `LOSS_GO` is not kept (R145, R149). -/
def State.farRough (s : State) (p : Nat) : State :=
  let w := s.farRw p
  (s.onPort p fun x => { x with far := writeBytes zeroByte x.far 0x30 (leBytes 4 (setFld w 23 23 0).toNat) }).roughWork p w

/-- A write of rough-water control (R149, R150, R152): refused while the port is not armed; `EN` 0 disarms. With `REMOTE` the word, its
`LOSS_GO` too, goes to the far end where `REMOTE_RW` is enabled, and acts there only. -/
def rwCtrlWrite (p : Nat) (w : Word) (s : State) : State :=
  if !s.b (Reg.prtRwStat p) 31 then s.setB (Reg.prtRwStat p) 30 true
  else
    let keep := setFld w 23 23 0
    let s := (s.wr (Reg.prtRwCtrl p) keep).setB (Reg.prtRwStat p) 30 false
    let s := onlyIf (!bit w 31) (fun t => t.setB (Reg.prtRwStat p) 31 false) s
    if !bit w 29 then s.roughWork p w
    else if s.feature p 5 then s.request p { use := .roughWater, op := 1, addr := 0x30, len := 4, data := leBytes 4 w.toNat }
    else s

/-- A write of rough-water control with `LOSS_GO` set. -/
def rwLossGo (p : Nat) (w : Word) (s : State) : State := rwCtrlWrite p (setFld w 23 23 1) s

end Sys2Proof.Machine
end

