-- ==== Sys2Proof/Machine/Pixels.lean ====
section
/-! DEFINITION. Pixel arithmetic: components of video words (R196, R247), colour conversion (R273), scaling (R274), chroma forms,
conversion to an output format (R279). -/

namespace Sys2Proof.Machine

/-- A pixel: its three components of 10 bits. -/
abbrev Pix := Nat × Nat × Nat

/-- A component held to 0 to 1,023. -/
def clamp10 (v : Int) : Nat := (clampI 0 1023 v).toNat

/-- Division rounded half up (R273). -/
def roundHalf (num : Int) (den : Nat) : Int := (2 * num + den) / (2 * den)

/-- Division to one of the two nearest integers; which of them the spec does not state. `p` is the place in the model. -/
def openDiv (p : Nat) (num : Int) (den : Nat) : Int :=
  if num % den = 0 then num / den else num / den + (Config.unstated p (num + 2 ^ 60).toNat % 2 : Nat)

/-! ### Words and components (R196, R247) -/

/-- The components of words in order: [19:10], then [9:0]. -/
def compsOf (ws : List Lane) : List Nat := ws.flatMap fun w => [w.toNat / 1024, w.toNat % 1024]

/-- New words over the old content of a line buffer from word `off` on: what no packet has written stays (R137); below the first
words ever written the spec states no content. -/
def splice (old ws : List Lane) (off : Nat) : List Lane :=
  let base := old ++ (upto (off - old.length)).map fun i => BitVec.ofNat 20 (Config.unstated 17 (off + i))
  base.take off ++ ws ++ base.drop (off + ws.length)

/-- Components packed into words. -/
def packComps : List Nat → List Lane
  | [] => []
  | [a] => [BitVec.ofNat 20 (a * 1024)]
  | a :: b :: r => BitVec.ofNat 20 (a % 1024 * 1024 + b % 1024) :: packComps r

/-- Components three by three. -/
def triples : List Nat → List Pix
  | a :: b :: c :: r => (a, b, c) :: triples r
  | _ => []

/-- A 4:4:4 line of pixels by planes. -/
def planesOf (l : List Pix) : Planes := { y := l.map (·.1), cb := l.map (·.2.1), cr := l.map (·.2.2), half := false }

/-- Chroma at full width from half width: neighbours averaged (R273), divided by `div`; past the last sample the spec states none. -/
def upChroma (div : Int → Nat → Int) (c : List Nat) (n : Nat) : List Nat :=
  (upto n).map fun x =>
    let a := c.getD (x / 2) 512
    if x % 2 = 0 then a
    else (div (a + (match (c.drop (x / 2 + 1)).head? with | some b => b | none => Config.unstated 12 a % 1024)) 2).toNat

/-- Chroma at half width from full width: [1, 2, 1] ÷ 4 on each chroma pair (R273, R279), divided by `div`; past the edges the spec
states none. -/
def downChroma (div : Int → Nat → Int) (c : List Nat) : List Nat :=
  (upto (c.length / 2)).map fun k =>
    let at_ := fun (i : Nat) => c.getD i 512
    let l := if k = 0 then Config.unstated 12 (at_ 0) % 1024 else at_ (2 * k - 1)
    clamp10 (div (l + 2 * at_ (2 * k) + (match (c.drop (2 * k + 1)).head? with | some b => b | none => Config.unstated 12 (at_ (2 * k)) % 1024)) 4)

/-- A line as pixels in 4:4:4 form. -/
def Planes.pixelsBy (div : Int → Nat → Int) (p : Planes) : List Pix :=
  let n := p.y.length
  let cb := if p.half then upChroma div p.cb n else p.cb
  let cr := if p.half then upChroma div p.cr n else p.cr
  p.y.zip (cb.zip cr)

/-- A stored line as the pixels that are blended (R278); the rounding of chroma between two samples is not stated. -/
def Planes.pixels (p : Planes) : List Pix := p.pixelsBy (openDiv 13)

/-- The pixels of a line of words in a stream's format, in 4:4:4 form: 0 YCbCr 4:2:2, 1 RGB, 2 YCbCr 4:4:4 (R154, R247, R273). -/
def linePixels (fmt : Nat) (ws : List Lane) : List Pix :=
  if fmt = 0 then
    let c := ws.map fun w => (w.toNat / 1024, w.toNat % 1024)
    let odd := fun (r : Nat) => ((upto (c.length / 2)).map fun k => (c.getD (2 * k + r) (0, 512)).2)
    Planes.pixelsBy roundHalf { y := c.map (·.1), cb := odd 0, cr := odd 1, half := true }
  else triples (compsOf ws)

/-! ### Colour conversion (R273) -/

/-- The luma weights of a set of primaries, in 1/10,000: red, green, blue. -/
def lumaWeights (bt2020 : Bool) : Int × Int × Int := if bt2020 then (2627, 6780, 593) else (2126, 7152, 722)

/-- Non-linear R, G and B over a common denominator, 0 black and 1 white. -/
structure Rgb where
  r : Int
  g : Int
  b : Int
  den : Nat
deriving DecidableEq, Repr

/-- R, G and B of an RGB pixel. -/
def rgbOfRgb (full : Bool) (p : Pix) : Rgb :=
  let o : Int := if full then 0 else 64
  { r := p.1 - o, g := p.2.1 - o, b := p.2.2 - o, den := if full then 1023 else 876 }

/-- R, G and B of a YCbCr pixel. -/
def rgbOfYcc (bt2020 full : Bool) (p : Pix) : Rgb :=
  let (kr, kg, kb) := lumaWeights bt2020
  let ys : Int := if full then 1023 else 876
  let cs : Int := if full then 1023 else 896
  let y := ((p.1 : Int) - (if full then 0 else 64)) * cs * 10000
  let r := y + 2 * (10000 - kr) * ((p.2.2 : Int) - 512) * ys
  let b := y + 2 * (10000 - kb) * ((p.2.1 : Int) - 512) * ys
  { r := r * kg, g := 10000 * y - kr * r - kb * b, b := b * kg, den := (ys * cs * 10000 * kg).toNat }

/-- The 3 × 3 conversion from BT.709 primaries to those of BT.2020, or back, row by row over one denominator (R273). PRESUMED: the
spec names the standards alone. The numbers are exact for the primaries these publish (x, y: BT.709 red 0.64, 0.33, green 0.30, 0.60,
blue 0.15, 0.06; BT.2020 red 0.708, 0.292, green 0.170, 0.797, blue 0.131, 0.046) and the white 0.3127, 0.3290 of both. -/
def primaries (to2020 : Bool) : List Int × Nat :=
  if to2020 then
    ([9396168041896453638840, 4931430585612527315930, 648668021103634048930,
      1034819430125226421830, 13771282150820660494385, 170165067666728087485,
      245482559348685406272, 1318110767395770031264, 13412673321868159566164], 14976266648612615003700)
  else
    ([21716347432897377967, -7685328688677986150, -952750084333426540,
      -1628904567509645594, 14816369219370479656, -109195991974868785,
      -237380559537464672, -1315397849663989856, 14631047069087419805], 13078268659885965277)

/-- R, G and B in the other primaries (R273: applied to the non-linear signal). -/
def Rgb.convert (to2020 : Bool) (c : Rgb) : Rgb :=
  let (m, d) := primaries to2020
  let row := fun i => m.getD (3 * i) 0 * c.r + m.getD (3 * i + 1) 0 * c.g + m.getD (3 * i + 2) 0 * c.b
  { r := row 0, g := row 1, b := row 2, den := c.den * d }

/-- YCbCr, narrow range, of R, G and B (R273: rounded half up, clamped). -/
def Rgb.toYcc (bt2020 : Bool) (c : Rgb) : Pix :=
  let (kr, kg, kb) := lumaWeights bt2020
  let y := kr * c.r + kg * c.g + kb * c.b
  let ch := fun (v k : Int) => clamp10 (512 + roundHalf (896 * (10000 * v - y)) (c.den * (2 * (10000 - k)).toNat))
  (clamp10 (64 + roundHalf (876 * y) (c.den * 10000)), ch c.b kb, ch c.r kr)

/-- A YCbCr pixel in the storage form, from the source's format, range and primaries (R273). -/
def toStorage (fmt : Nat) (full in2020 out2020 : Bool) (p : Pix) : Pix :=
  let c := if fmt = 1 then rgbOfRgb full p else rgbOfYcc in2020 full p
  (if in2020 = out2020 then c else c.convert out2020).toYcc out2020

/-- The custom matrix: nine coefficients in 1/4,096, three offsets in codes (R273, R300). -/
def customMatrix (m : List Int) (ofs : List Int) (p : Pix) : Pix :=
  let out := fun i => clamp10 (roundHalf (m.getD (3 * i) 0 * p.1 + m.getD (3 * i + 1) 0 * p.2.1 + m.getD (3 * i + 2) 0 * p.2.2) 4096 + ofs.getD i 0)
  (out 0, out 1, out 2)

/-- A line in the storage form: chroma decimated where it is stored as 4:2:2 (R273); a 4:2:2 source stored as 4:2:2 keeps the
chroma of its even pixels. -/
def storeForm (fmt : Nat) (full444 : Bool) (conv : Pix → Pix) (ws : List Lane) : Planes :=
  let p := planesOf ((linePixels fmt ws).map conv)
  if full444 then p
  else if fmt = 0 then
    let even := fun (c : List Nat) => (upto (c.length / 2)).map fun k => c.getD (2 * k) 512
    { p with cb := even p.cb, cr := even p.cr, half := true }
  else { p with cb := downChroma roundHalf p.cb, cr := downChroma roundHalf p.cr, half := true }

/-! ### Scaling (R272, R274) -/

/-- Coefficient `i` of a set: 64 phases of 6 horizontal taps, then 64 phases of 4 vertical taps (R274, R475). -/
def State.coef (s : State) (set i : Nat) : Int :=
  if set = 0 then Config.cubic i
  else signed 16 (bf (s.rd (Reg.coefWord set (i / 2))) (16 * (i % 2) + 15) (16 * (i % 2)))

/-- One output sample of a filter of `taps` taps whose coefficients start at `base`. -/
def State.filter (s : State) (set base taps n m x : Nat) (src : Nat → Nat) : Nat :=
  let ph := (Config.scalePhase n m x).toNat
  clamp10 (openDiv 14 ((upto taps).foldl (fun a t =>
    a + s.coef set (base + ph * taps + t) * (src (Config.scaleTap n m x t % max 1 n) : Int)) 0) 4096)

/-- A plane scaled to `m` samples by the 6-tap horizontal filter. -/
def State.hScale (s : State) (set m : Nat) (c : List Nat) : List Nat :=
  (upto m).map fun x => s.filter set 0 6 c.length m x fun i => c.getD i 0

/-- A line scaled to `w` pixels. -/
def State.hScaleLine (s : State) (set w : Nat) (p : Planes) : Planes :=
  let cw := if p.half then w / 2 else w
  { p with y := s.hScale set w p.y, cb := s.hScale set cw p.cb, cr := s.hScale set cw p.cr }

/-- Row `y` of `m`, from the four rows that the vertical filter takes of the `n` rows that `row` gives (R272). -/
def State.vScaleLine (s : State) (set n m y : Nat) (row : Nat → Planes) : Planes :=
  let one := row (Config.scaleTap n m y 0 % max 1 n)
  let plane := fun (g : Planes → List Nat) => (upto (g one).length).map fun x => s.filter set 384 4 n m y fun i => (g (row i)).getD x 0
  { y := plane (·.y), cb := plane (·.cb), cr := plane (·.cr), half := one.half }

/-- The rows that the vertical filter takes for row `y`. -/
def tapRows (n m y : Nat) : List Nat := (upto 4).map fun t => Config.scaleTap n m y t % max 1 n

/-- The last of the rows that row `y` needs. -/
def lastTap (n m y : Nat) : Nat := (tapRows n m y).foldl max 0

/-! ### Output (R279) -/

/-- An RGB pixel of a YCbCr pixel, narrow range in, in the range asked for (R279); the rounding is not stated. -/
def toRgb (bt2020 full : Bool) (p : Pix) : Int × Int × Int :=
  let c := rgbOfYcc bt2020 false p
  let o : Int := if full then 0 else 64
  let k : Int := if full then 1023 else 876
  (o + openDiv 15 (k * c.r) c.den, o + openDiv 15 (k * c.g) c.den, o + openDiv 15 (k * c.b) c.den)

/-- A line's components in a stream's format, in the order of its words, each with its component number and pixel (R279 stage 3). -/
def outComps (fmt : Nat) (bt2020 full : Bool) (l : List Pix) : List (Int × Nat × Nat) :=
  if fmt = 0 then
    let cb := downChroma (openDiv 11) (l.map (·.2.1))
    let cr := downChroma (openDiv 11) (l.map (·.2.2))
    l.zipIdx.flatMap fun e =>
      [((e.1.1 : Int), 0, e.2), if e.2 % 2 = 0 then ((cb.getD (e.2 / 2) 512 : Int), 1, e.2) else ((cr.getD (e.2 / 2) 512 : Int), 2, e.2)]
  else l.zipIdx.flatMap fun e =>
    let (a, b, c) := if fmt = 1 then toRgb bt2020 full e.1 else ((e.1.1 : Int), (e.1.2.1 : Int), (e.1.2.2 : Int))
    [(a, 0, e.2), (b, 1, e.2), (c, 2, e.2)]

end Sys2Proof.Machine
end

