-- ==== Sys2Proof/Machine/Slips.lean ====
section
/-! DEFINITION. The frame store: slips, line storage and compression, the frame ring, rate-conversion rules (R193 to R213). -/

namespace Sys2Proof.Machine

/-- Slip `k`. -/
def State.slip (s : State) (k : Nat) : SlipSt := nget (fun _ => SlipSt.init) s.slips k

/-- Change slip `k`. -/
def State.onSlip (s : State) (k : Nat) (g : SlipSt → SlipSt) : State :=
  { s with slips := nset (fun _ => SlipSt.init) s.slips k (g (s.slip k)) }

/-- Slot `j` of slip `k`. -/
def State.slot (s : State) (k j : Nat) : SlotSt := nget (fun _ => SlotSt.init) (s.slip k).slots j

/-- Change slot `j` of slip `k`. -/
def State.onSlot (s : State) (k j : Nat) (g : SlotSt → SlotSt) : State :=
  s.onSlip k fun x => { x with slots := nset (fun _ => SlotSt.init) x.slots j (g (nget (fun _ => SlotSt.init) x.slots j)) }

/-! ### Layout (R194 to R196) -/

/-- The slip is defined. -/
def State.slipOn (s : State) (k : Nat) : Bool := s.b (Reg.fstSlipCfg k) 31

/-- The slips the chart defines (R214). -/
def State.slipList (s : State) : List Nat := (upto 1024).filter s.slipOn

/-- The depth of a slip. -/
def State.depth (s : State) (k : Nat) : Nat := s.f (Reg.fstSlipCfg k) 27 24

/-- 20-bit words of a line of `w` pixels in format `fmt` (R196). -/
def lineWords (fmt w : Nat) : Nat := if fmt = 0 then w else (3 * w + 1) / 2

/-- Words of a line of slip `k`. -/
def State.slipWords (s : State) (k : Nat) : Nat := lineWords (s.f (Reg.fstSlipGeom k) 30 28) (s.f (Reg.fstSlipGeom k) 12 0)

/-- Lines of a frame of slip `k`. -/
def State.slipHeight (s : State) (k : Nat) : Nat := s.f (Reg.fstSlipGeom k) 25 13

/-- Granules of 16 bytes of a line block (R196). -/
def blockGranules (comp : Nat) : Nat := if comp = 1 then 25 else if comp = 2 then 20 else 16

/-- The line pitch in beats of `w` words at a coding (R196). -/
def linePitch (comp w : Nat) : Nat :=
  if comp = 0 then (20 * w + 511) / 512 else ((w + 255) / 256 * blockGranules comp + 3) / 4

/-- The slot size in beats: the pitch at the compression floor times the height (R195). -/
def State.slotBeats (s : State) (k : Nat) : Nat :=
  linePitch (s.f (Reg.fstSlipCfg k) 29 28) (s.slipWords k) * s.slipHeight k

/-- The frame-store byte address of byte `o` of beat `b` of a slip (R193, R194). -/
def State.beatAddr (s : State) (k b o : Nat) : Nat :=
  let span := 2 ^ s.f (Reg.fstSlipCfg k) 15 12
  ((s.f (Reg.fstSlipRows k) 12 0 + b / span) * 256 + s.f (Reg.fstSlipCfg k) 23 16 + b % span) * 64 + o

/-- The address of byte `i` of line `l` in slot `j` (R195). -/
def State.lineAddr (s : State) (k j l i : Nat) : Nat :=
  let pitch := linePitch (s.slot k j).comp (s.slipWords k)
  s.beatAddr k (j * s.slotBeats k + l * pitch + i / 64) (i % 64)

/-- Beats that hold bytes `i` to `i + n - 1` of a line move: each counts at its bank (R193, R214). -/
def State.moveBeats (s : State) (k j l i n : Nat) : State :=
  forAll (upto ((i + n + 63) / 64 - i / 64)) (fun b t => t.countPerf (Reg.fstBankBeats (s.lineAddr k j l (64 * (i / 64 + b)) / 64 % 256)) 31 1) s

/-- A reader fetches a line: its beats move (R214). -/
def State.fetchLine (s : State) (k j l : Nat) : State :=
  s.moveBeats k j l 0 (64 * linePitch (s.slot k j).comp (s.slipWords k))

/-- Bytes stored from byte `i` of a line. -/
def State.storeLine (s : State) (k j l i : Nat) (bs : List Byte) : State :=
  ({ s with fstore := (bs.zipIdx i).foldl (fun m e => nset zeroByte m (s.lineAddr k j l e.2) e.1) s.fstore } : State).moveBeats k j l i bs.length

/-- `n` bytes read from byte `i` of a line. -/
def State.loadLine (s : State) (k j l i n : Nat) : List Byte := (upto n).map fun o => nget zeroByte s.fstore (s.lineAddr k j l (i + o))

/-- The bound of R197: the most by which a decoded component may differ. -/
def codecBound (comp : Nat) : Nat := if comp = 1 then 4 else if comp = 2 then 8 else 16

/-- A decoded word held within the bound of R197 of the original, component by component. -/
def codecHold (comp : Nat) (a b : Lane) : Lane :=
  let d := codecBound comp
  let c := fun (x y : Nat) => max (x - d) (min (min 1023 (x + d)) y)
  BitVec.ofNat 20 (c (a.toNat % 1024) (b.toNat % 1024) + 1024 * c (a.toNat / 1024) (b.toNat / 1024))

/-- A block's words after coding and decoding (R197): what a block that fits decodes to is not known to the model. -/
def codecBlock (comp : Nat) (ws : List Lane) : List Lane :=
  (ws.zipIdx).map fun e => codecHold comp e.1 ((Config.codecWords comp ws).getD e.2 e.1)

/-- Split a list into runs of `n`. -/
def chunks {α : Type} (n : Nat) (l : List α) : List (List α) := (upto ((l.length + n - 1) / n)).map fun i => (l.drop (n * i)).take n

/-- Whole line blocks of a coded line, from block `b` on (R196, R197). -/
def State.placeBlocks (s : State) (k j l b : Nat) (ws : List Lane) : State :=
  let c := (s.slot k j).comp
  let g := 16 * blockGranules c
  forAll ((chunks 256 ws).zipIdx b) (fun e t =>
    (t.storeLine k j l (g * e.2) ((upto g).map (Config.codecByte c e.1))).onSlot k j fun x =>
      { x with coded := nput (32 * l + e.2) (codecBlock c e.1) x.coded }) s

/-- The payload of part `part` of a line placed in a slot (R130, R196, R197). -/
def State.placeWords (s : State) (k j l part : Nat) (ws : List Lane) : State :=
  if (s.slot k j).comp = 0 then s.storeLine k j l (2560 * part) (packWords ws) else s.placeBlocks k j l (4 * part) ws

/-- The words of a line as a reader gets them: by the slot's own coding (R198). A coded block that this slot has never held decodes to
words that the spec does not state. -/
def State.readLine (s : State) (k j l : Nat) : List Lane :=
  let w := s.slipWords k
  if (s.slot k j).comp = 0 then unpackWords w (s.loadLine k j l 0 ((20 * w + 7) / 8))
  else ((upto ((w + 255) / 256)).flatMap fun b =>
    let ws := (nfind (32 * l + b) (s.slot k j).coded).getD []
    ws ++ ((upto 256).drop ws.length).map fun i => BitVec.ofNat 20 (Config.unstated 9 (i + 256 * (b + 32 * (l + 8192 * (j + 8 * k)))))).take w

/-! ### The frame ring (R199 to R201) -/

/-- The slots of a slip. -/
def State.slots (s : State) (k : Nat) : List Nat := upto (s.depth k)

/-- The COMPLETE slots, newest capture phase first. -/
def State.completes (s : State) (k : Nat) : List Nat :=
  sortBy (fun a b => decide ((s.slot k b).capTime ≤ (s.slot k a).capTime))
    ((s.slots k).filter fun j => decide ((s.slot k j).state = .complete))

/-- The slot being written. -/
def State.filling (s : State) (k : Nat) : Option Nat := (s.slots k).find? fun j => decide ((s.slot k j).state = .filling)

/-- The mean of a list of times. -/
def meanNat (l : List Nat) : Nat := l.foldl (· + ·) 0 / l.length

/-- The length of a stroke at the rate in force, in ns. -/
def State.strokeNs (s : State) : Nat := 1000000000 * s.clock.rateDen / max 1 s.clock.rateNum

/-- P, in 50 ps: the mean of the last intervals between capture phases; the stroke period until there are two (R206). -/
def State.slipPeriod (s : State) (k : Nat) : Nat :=
  if (s.slip k).periods.length < 2 then 20000000000 * s.clock.rateDen / max 1 s.clock.rateNum else meanNat (s.slip k).periods

/-- A, in 50 ps: the mean of the last fill times; P until there are two intervals (R206). -/
def State.slipFill (s : State) (k : Nat) : Nat :=
  if (s.slip k).periods.length < 2 ∨ (s.slip k).fills = [] then s.slipPeriod k else meanNat (s.slip k).fills

/-- `STAT.COMP` and `PITCH` show the coding in force for new frames (R213). -/
def State.slipCoding (s : State) (k : Nat) : State :=
  let comp := s.f (Reg.fstSlipComp k) 1 0
  (s.setF (Reg.fstSlipStat k) 29 28 comp).wr (Reg.fstSlipPitch k) (BitVec.ofNat 32 (linePitch comp (s.slipWords k)))

/-- Registers `STAT`, `CAP_STROKE` and `CAP_OFS` follow the ring (R213). -/
def State.showSlip (s : State) (k : Nat) : State :=
  let w := s.rd (Reg.fstSlipStat k)
  let sum := fun (p : Nat → Bool) => ((s.slots k).filter p).foldl (fun a j => a + 2 ^ j) 0
  let w := setFld w 23 16 (sum fun j => decide ((s.slot k j).state = .complete))
  let w := setFld w 15 8 (sum fun j => !(s.slot k j).pins.isEmpty)
  let w := match s.filling k with
    | some j => setFld (setBit w 7 true) 26 24 j
    | none => setBit w 7 false
  match s.completes k with
  | [] => s.wr (Reg.fstSlipStat k) w
  | j :: _ => ((s.wr (Reg.fstSlipStat k) (setFld w 2 0 j)).wr (Reg.fstSlipCapStroke k)
      (BitVec.ofNat 32 ((s.slot k j).capStroke % 65536))).wr (Reg.fstSlipCapOfs k) (BitVec.ofNat 32 (min 67108863 ((s.slot k j).capOfs / 20)))

/-- The slot a writer takes for a new frame (R200). -/
def State.writeSlot (s : State) (k : Nat) : Option Nat :=
  match (s.slots k).find? fun j => decide ((s.slot k j).state = .empty) with
  | some j => some j
  | none => ((s.completes k).drop 1).reverse.find? fun j => (s.slot k j).pins.isEmpty

/-- A frame no reader ever selected is counted as it gives up its slot (R205, R213). -/
def State.dropFrame (s : State) (k j : Nat) : State :=
  if (s.slot k j).state = .complete ∧ !(s.slot k j).selected then s.countPerf (Reg.fstSlipUnused k) 31 1 else s

/-- The FILLING frame becomes COMPLETE, and is numbered (R199, R206). -/
def State.completeFrame (s : State) (k j : Nat) : State :=
  let x := s.slot k j
  let fill := s.clock.time - x.capTime
  let seq := (s.slip k).nextSeq
  let s := s.onSlot k j fun y => { y with state := .complete, seq := seq }
  (s.onSlip k fun y => { y with nextSeq := (seq + 1) % 2 ^ 32, lastFrame := some x.frame
                                fills := if x.phased then (fill :: y.fills).take 8 else y.fills }).showSlip k

/-- A slot that gives up its frame: EMPTY, its bytes as they were. -/
def SlotSt.emptied (x : SlotSt) : SlotSt := { SlotSt.init with comp := x.comp, coded := x.coded }

/-- A slot taken for a new frame at coding `comp`: FILLING; what it held in that coding stays until it is written over (R137). -/
def SlotSt.taken (x : SlotSt) (comp : Nat) : SlotSt :=
  { SlotSt.init with state := .filling, comp := comp, coded := if x.comp = comp then x.coded else [] }

/-- The FILLING frame is discarded; its slot becomes EMPTY (R199). A frame that is being skipped is forgotten. -/
def State.discardFilling (s : State) (k : Nat) : State :=
  match s.filling k with
  | some j => ((s.onSlot k j SlotSt.emptied).onSlip k fun x => { x with lastFrame := none, lastCap := none, skipping := none }).showSlip k
  | none => s.onSlip k fun x => { x with skipping := none }

/-- A frame is skipped whole: counted, and reported once a stroke (R200). -/
def State.skipFrame (s : State) (k : Nat) : State :=
  let told := (s.slip k).skipTold
  onlyIf (!told) (fun t => t.raise .fstWriteSkip k k)
    ((s.countErr (Reg.fstSlipSkip k) 24 1).onSlip k fun x => { x with skipTold := true })

/-- The capture phase of a frame of slip `k` is known: the interval since the one before counts (R206). -/
def State.phaseKnown (s : State) (k t : Nat) : State :=
  s.onSlip k fun x =>
    { x with periods := (match x.lastCap with | some u => (t - u) :: x.periods | none => x.periods).take 8, lastCap := some t }

/-- The first packet that comes of a new frame arrives (R199, R200): the frame before it closes, and a slot is taken, or the frame is
skipped whole. The capture phase is the time of the packet that `start` marks; of a frame whose start has not come the spec states
none, and it is a free value, no later than this packet. -/
def State.captureStart (s : State) (k frame : Nat) (start : Bool) : State :=
  let now := s.clock.time
  let s := match s.filling k with
    | some j =>
      if now ≤ (s.slot k j).lastAt + s.slipPeriod k then (s.countErr (Reg.fstSlipIncomplete k) 24 1).completeFrame k j
      else s.discardFilling k
    | none => s
  let s := if start then s.phaseKnown k now else s.onSlip k fun x => { x with lastCap := none }
  let (cap, s) := if start then (now, s) else
    let (v, t) := s.fresh 16
    (max s.clock.boundary (now - v.toNat), t)
  match s.writeSlot k with
  | some j =>
    let s := s.dropFrame k j
    ((s.onSlot k j fun x => { x.taken (s.f (Reg.fstSlipStat k) 29 28) with
        capStroke := s.clock.stroke.toNat, capOfs := cap - s.clock.boundary, capTime := cap, phased := start, frame := frame, lastAt := now }).onSlip k
      fun x => { x with skipping := none }).showSlip k
  | none => (s.skipFrame k).onSlip k fun x => { x with skipping := some frame }

/-- A packet of frame `frame` arrives for a slip; `start` marks the first of a frame (R199, R200): a frame the slip is not yet
writing is captured, from its start, or, where the slip has followed the source so far and the start is lost, from what comes of
it first (R137). -/
def State.slipOpen (s : State) (k frame : Nat) (start : Bool) : State :=
  let x := s.slip k
  let same := match s.filling k with | some j => (s.slot k j).frame == frame | none => x.skipping == some frame
  let follows := (s.filling k).isSome || (match x.lastFrame with | some f => f != frame | none => false)
  if !same then if (start || follows) && x.writeFrom ≤ s.clock.time then s.captureStart k frame start else s
  else match s.filling k with
    | some j =>
      if start && !(s.slot k j).phased then
        let now := s.clock.time
        ((s.onSlot k j fun y => { y with capStroke := s.clock.stroke.toNat, capOfs := now - s.clock.boundary, capTime := now, phased := true }).phaseKnown k now)
      else s
    | none => s

/-- Words of part `part` of line `l` of a frame; those of a frame that the slip is not writing are placed nowhere (R130, R200). -/
def State.slipPlace (s : State) (k frame l part : Nat) (ws : List Lane) : State :=
  match s.filling k with
  | some j =>
    if (s.slot k j).frame = frame ∧ l < s.slipHeight k then
      (s.placeWords k j l part ws).onSlot k j fun x => { x with lastAt := s.clock.time }
    else s
  | none => s

/-- The packet with `EOF` and `LAST` of a frame has arrived (R199). -/
def State.slipClose (s : State) (k frame : Nat) : State :=
  match s.filling k with
  | some j => if (s.slot k j).frame = frame then s.completeFrame k j else s
  | none => s

/-- A packet of a frame arrives for a slip: line `l`, part `part`, frame count `frame`; `start` marks the first of a frame, `eof`
the last (R199, R200, R130). -/
def State.slipPacket (s : State) (k frame l part : Nat) (start eof : Bool) (ws : List Lane) : State :=
  let s := (s.slipOpen k frame start).slipPlace k frame l part ws
  if eof then s.slipClose k frame else s

/-! ### Pins (R201) -/

/-- The reader `r` pins a slot. -/
def State.pin (s : State) (k j r : Nat) : State :=
  s.onSlot k j fun x => { x with pins := if x.pins.contains r then x.pins else x.pins ++ [r], selected := true }

/-- The reader `r` pins the frames of a pick. -/
def State.pinPick (s : State) (p : Pick) (r : Nat) : State := ((s.pin p.slip p.newer r).pin p.slip p.older r).showSlip p.slip

/-- The reader `r` releases every slot of a slip. -/
def State.unpin (s : State) (k r : Nat) : State :=
  (forAll (s.slots k) (fun j t => t.onSlot k j fun x => { x with pins := x.pins.filter (· ≠ r) }) s).showSlip k

/-! ### Selection (R202, R205 to R209) -/

/-- The blend weight in 1/1,024 of a pair, newer `b`, older `a` (R207). -/
def State.blendWeight (s : State) (k b a snap : Nat) : Nat :=
  let cb : Int := (s.slot k b).capTime
  let ca : Int := (s.slot k a).capTime
  let phi : Int := s.clock.boundary - s.slipFill k - s.slipPeriod k
  let w := if cb ≤ ca then 1024 else ((2048 * (phi - ca) / (cb - ca) + 1) / 2)
  let w := (clampI 0 1024 w).toNat
  if w ≤ snap then 0 else if 1024 - snap ≤ w then 1024 else w

/-- The 16 × 16 blocks across a frame of slip `k`, and down (R208). -/
def State.blocksAcross (s : State) (k : Nat) : Nat := (s.f (Reg.fstSlipGeom k) 12 0 + 15) / 16
def State.blocksDown (s : State) (k : Nat) : Nat := (s.slipHeight k + 15) / 16

/-- The byte address in working memory of the vector record of a frame (R208): the two records of a slip lie one after the other. -/
def State.vectorBase (s : State) (x k b : Nat) : Nat :=
  16 * (s.xformByte x 0x18 + 256 * s.xformByte x 0x19 + 65536 * s.xformByte x 0x1A)
    + (if (s.slot k b).seq % 2 = 1 then 16 + 4 * s.blocksAcross k * s.blocksDown k else 0)

/-- The vector record for the pair exists and is done (R208, R209). -/
def State.vectorsReady (s : State) (x k b a : Nat) : Bool :=
  let base := s.vectorBase x k b
  let word := fun o => leNat (readBytes zeroByte s.work (base + 4 * o) 4)
  word 0 == (s.slot k a).seq && word 1 == (s.slot k b).seq && (word 3).testBit 0

/-- One frame as it stands. -/
def State.pickOne (s : State) (k b : Nat) : Pick :=
  { slip := k, newer := b, older := b, weight := 1024, seq := (s.slot k b).seq, motion := false, vecs := 0, conf := 0 }

/-- All that slip `k` holds is its preload image (R202). -/
def State.preloaded (s : State) (k : Nat) : Bool :=
  match s.completes k with
  | [j] => (s.slot k j).capStroke == 2 ^ 48 - 1
  | _ => false

/-- What a reader of slip `k` under descriptor `x` selects now (R205 to R209), and whether `MOTION` fell back to `BLEND`. -/
def State.choose (s : State) (k x : Nat) : Option (Pick × Bool) :=
  match s.completes k with
  | [] => none
  | b :: rest =>
    let mode := s.xformByte x 0x10 % 4
    match rest with
    | [] => some (s.pickOne k b, false)
    | a :: _ =>
      if mode = 0 ∨ mode = 3 then some (s.pickOne k b, false)
      else
        let w := s.blendWeight k b a (s.xformHalf x 0x12 % 512)
        let mo := mode == 2 && s.vectorsReady x k b a && !s.thm.inForce
        some ({ slip := k, newer := b, older := a, weight := w, seq := (s.slot k b).seq, motion := mo, vecs := s.vectorBase x k b,
                conf := s.xformHalf x 0x16 % 4096 }, mode == 2 && !mo)

/-- The reader `r` selects: pins move, repeats and fallbacks are counted (R201, R202, R205, R209). -/
def State.selectFrame (s : State) (k x r : Nat) (last : Option Pick) : Option Pick × State :=
  match s.choose k x with
  | none => (none, s)
  | some (p, fell) =>
    let s := if last.any (fun q => q.slip == k && q.newer == p.newer && q.seq == p.seq) then s.countPerf (Reg.fstSlipRepeat k) 31 1 else s
    let s := ((s.unpin k r).pin k p.newer r).pin k p.older r
    let s := if fell then
        onlyIf (!(s.slip k).motionTold) (fun t => t.raise .fstMotionFallback k k)
          ((s.countPerf (Reg.fstSlipMotionFb k) 31 1).onSlip k fun y => { y with motionTold := true })
      else s
    (some p, s.showSlip k)

/-- One component mixed under R207. -/
def mixComp (a b w : Nat) : Nat := ((a : Int) + ((((b : Int) - a) * w + 512) / 1024)).toNat % 1024

/-- Two words of two components each, mixed (R207). -/
def mixWord (w : Nat) (a b : Lane) : Lane :=
  BitVec.ofNat 20 (mixComp (a.toNat % 1024) (b.toNat % 1024) w + 1024 * mixComp (a.toNat / 1024) (b.toNat / 1024) w)

/-- Sample `x` of component `c` of line `l` of a slot, as the line stores it (R196): in format 0 component 1 and 2 are the chroma
samples of pixel pairs. -/
def State.sampleAt (s : State) (k j c x l : Nat) : Nat :=
  let ws := s.readLine k j l
  let at_ := fun (i : Nat) => (compsOf ws).getD i 0
  if s.f (Reg.fstSlipGeom k) 30 28 = 0 then (if c = 0 then at_ (2 * x) else at_ (4 * x + 2 * c - 1)) else at_ (3 * x + c)

/-- A component of a slot at a position in 1 / `dx` of a sample and 1/4,096 of a line, bilinear, clamped to the frame's edges (R208). To
which of the two nearest codes a sample between them goes the spec does not state. -/
def State.bilinear (s : State) (k j c dx w h : Nat) (px py : Int) : Nat :=
  let px := (clampI 0 ((w - 1) * dx : Nat) px).toNat
  let py := (clampI 0 ((h - 1) * 4096 : Nat) py).toNat
  let (x, fx) := (px / dx, px % dx)
  let (y, fy) := (py / 4096, py % 4096)
  let v := fun (i l : Nat) => s.sampleAt k j c (min i (w - 1)) (min l (h - 1))
  (openDiv 8 ((4096 - fy) * ((dx - fx) * v x y + fx * v (x + 1) y) + fy * ((dx - fx) * v x (y + 1) + fx * v (x + 1) (y + 1)) : Nat)
    (4096 * dx)).toNat

/-- Component `c`, sample `x` of line `l` of a pair under `MOTION` (R208). DEDUCED: a chroma sample of a pixel pair moves with its even
pixel. -/
def State.moved (s : State) (p : Pick) (c x l : Nat) : Nat :=
  let half : Bool := s.f (Reg.fstSlipGeom p.slip) 30 28 == 0 && c != 0
  let sx := if half then 2 else 1
  let wide := s.f (Reg.fstSlipGeom p.slip) 12 0
  let w := if half then wide / 2 else wide
  let h := s.slipHeight p.slip
  let v := BitVec.ofNat 32 (leNat (readBytes zeroByte s.work (p.vecs + 16 + 4 * (l / 16 * s.blocksAcross p.slip + sx * x / 16)) 4))
  let on := p.conf ≤ bf v 11 0
  let vx : Int := if on then signed 10 (bf v 31 22) else 0
  let vy : Int := if on then signed 10 (bf v 21 12) else 0
  let at_ := fun (j : Nat) (f : Int) => s.bilinear p.slip j c (4096 * sx) w h (4096 * sx * x + f * vx) (4096 * l + f * vy)
  mixComp (at_ p.older (-p.weight)) (at_ p.newer (1024 - p.weight)) p.weight

/-- Line `l` of a pair under `MOTION` as words (R196, R208). -/
def State.movedLine (s : State) (p : Pick) (l : Nat) : List Lane :=
  let n := s.f (Reg.fstSlipGeom p.slip) 12 0
  if s.f (Reg.fstSlipGeom p.slip) 30 28 = 0 then
    (upto n).map fun x => BitVec.ofNat 20 (s.moved p 0 x l * 1024 + s.moved p (1 + x % 2) (x / 2) l)
  else packComps ((upto n).flatMap fun x => [s.moved p 0 x l, s.moved p 1 x l, s.moved p 2 x l])

/-- A reader fetches line `l` of the frame or of both frames that it has selected (R212, R214). -/
def State.fetchPick (s : State) (p : Pick) (l : Nat) : State :=
  let s := s.fetchLine p.slip p.newer l
  if p.older = p.newer then s else s.fetchLine p.slip p.older l

/-- The words of line `l` of what a reader has selected (R205, R207, R208). -/
def State.pickLine (s : State) (p : Pick) (l : Nat) : List Lane :=
  let b := s.readLine p.slip p.newer l
  if p.older = p.newer then b
  else if p.motion then s.movedLine p l
  else if p.weight = 1024 then b
  else (s.readLine p.slip p.older l).zipWith (mixWord p.weight) b

/-! ### Commits and descriptor writes (R198, R204, R210) -/

/-- A write of `GO` asks a slip to take its compression shadow at the next boundary (R198). -/
def slipCommit (k : Nat) (s : State) : State := s.setB (Reg.fstSlipStat k) 31 true

/-- A host write of word `j` of descriptor `x`: its rate-conversion region waits for the boundary, unless a taken watch crossing
names the descriptor; descriptor 0 is fixed (R160, R204, R210). -/
def xformWrite (x j : Nat) (w : Word) (s : State) : State :=
  if x = 0 then s
  else if 4 ≤ j ∧ j < 16 then
    if s.takenEntries.any fun i => (s.crossing i).watch && (s.crossing i).xform == x then
      s.raise .fstCommitRefused x (2 ^ 15 + x)
    else s.wrShadow (Reg.xformWord x j) (w &&& definedBits (Reg.xformWord x j))
  else s.putWord (Reg.xformWord x j) w

/-- Once a stroke the slips' events may be raised again (R200, R209). -/
def State.slipsNewStroke (s : State) : State :=
  { s with slips := (s.slips.map fun e => (e.1, { e.2 with skipTold := false, motionTold := false })).filter fun e => decide (e.2 ≠ SlipSt.init) }

end Sys2Proof.Machine
end

