-- ==== Sys2Proof/Machine/Crossings.lean ====
section
/-! DEFINITION. The Crossing Table: checks, arming, taking at a stroke, path selection, stopped and substituted sources, mixed
versions, and groups across joined devices (R155 to R178, R185 to R187, R277). -/

namespace Sys2Proof.Machine

/-! ### Layers -/

/-- Head `h` is active in the chart (R265). -/
def State.headOn (s : State) (h : Nat) : Bool := s.b (Reg.headCfg h) 31

/-- The layer count of a head. -/
def State.headLayers (s : State) (h : Nat) : Nat := s.f (Reg.headCfg h) 27 24

/-- The layer number in slot `k` of head `h` (R265). -/
def State.layerNum (s : State) (h k : Nat) : Nat := s.f (Reg.headLayId h k) 8 0

/-- The head and slot to which layer `n` belongs (R265). -/
def State.layerSlot (s : State) (n : Nat) : Option (Nat × Nat) :=
  ((upto 64).filter s.headOn).findSome? fun h =>
    ((upto (s.headLayers h)).find? fun k => s.layerNum h k == n).map fun k => (h, k)

/-- The layer is a watch head's. -/
def State.watchLayer (s : State) (n : Nat) : Bool := match s.layerSlot n with | some (h, _) => s.watchHead h | none => false

/-! ### Sources -/

/-- The source runs at a ratio to the stroke and its port lacks `RATIO` (R177). -/
def State.noRatio (s : State) (i : Nat) : Bool :=
  let p := s.streamPort i
  pullRatio (s.port p).pull != (1, 1) && !s.feature p 3

/-- A source is locked: its port has negotiated L2 or later and has phase pull in lock (R16), at a ratio that it can keep (R177). -/
def State.locked (s : State) (i : Nat) : Bool :=
  2 ≤ s.version (s.streamPort i) && s.f (Reg.prtLinkStat (s.streamPort i)) 9 8 == 2 && !s.noRatio i

/-- What a narrow mode in force does with stream `i`: `none` where it stops, itself or its substitute where it flows (R113, R176). -/
def State.flowsAs (s : State) (i : Nat) : Option Nat :=
  match s.narrowMode (s.lead (s.streamPort i)) with
  | none => some i
  | some mode => (mode.find? fun e => e.1 == i).map fun e => e.2.getD i

/-- Stream `j` itself flows now (R113): at full width every stream but a substitute, in a narrow mode those it keeps and its
substitutes. -/
def State.flowsNow (s : State) (j : Nat) : Bool :=
  let l := s.lead (s.streamPort j)
  match s.narrowMode l with
  | none => (s.port l).cfg.narrow.all fun m => m.2.all fun e => e.2 != some j
  | some mode => mode.any fun e => e.2.getD e.1 == j

/-- The stream a crossing reads at this time (R176). -/
def State.sourceNow (s : State) (i : Nat) : Nat := (s.flowsAs i).getD i

/-- A source is stopped (R175). -/
def State.sourceStopped (s : State) (i : Nat) : Bool :=
  match s.flowsAs i with
  | none => true
  | some j => s.ladder (s.lead (s.streamPort j)) != 5 || s.xtb.stopped.contains j

/-- A lane of the stream's group is lost (R111, R287). -/
def State.laneLost (s : State) (i : Nat) : Bool := (s.port (s.lead (s.streamPort i))).lossAge.isSome

/-- A `SLIP` crossing taken reads the stream through its landing slip (R155). -/
def State.slipReads (s : State) (i : Nat) : Bool :=
  s.takenEntries.any fun e => (s.crossing e).kind == 1 && (s.crossing e).dstKind != 2 && s.sourceNow (s.crossing e).src == i

/-- The landing slip that stream `i` is written into whenever it arrives, if it is written now (R155). -/
def State.landing (s : State) (i : Nat) : Option Nat :=
  if s.streamIs i 0 false && (!s.locked i || s.slipReads i) then s.landingSlip i else none

/-! ### Checks at the write of word 3 (R157, R158, R160, R165) -/

/-- The window's width and height, 0 meaning the full size (R156). -/
def State.window (s : State) (c : Crossing) : Nat × Nat :=
  (if c.w = 0 then s.streamWidth c.src else c.w, if c.h = 0 then s.streamHeight c.src else c.h)

/-- Kind, source and destination agree (R157). -/
def State.kindOk (s : State) (c : Crossing) : Bool :=
  s.streamValid c.src && !s.streamTx c.src &&
  match c.kind with
  | 0 => s.streamKind c.src == 0 && (c.dstKind == 0 || c.dstKind == 3 || (c.dstKind == 1 && s.streamIs c.dst 0 true))
  | 1 => s.streamKind c.src == 0 && (c.dstKind != 1 || s.streamIs c.dst 0 true)
  | 2 => s.streamKind c.src == 1 && c.dstKind == 1 && s.streamIs c.dst 1 true
  | 3 => s.streamKind c.src == 2 && c.dstKind == 1 && s.streamIs c.dst 2 true
  | 4 => c.dstKind == 1 && s.streamValid c.dst && s.streamTx c.dst && s.role (s.streamPort c.dst) == 5
  | _ => false

/-- The destination's number is one the device has (R156). -/
def dstInRange (c : Crossing) : Bool :=
  match c.dstKind with
  | 0 => c.dst < 320
  | 1 => c.dst < 2048
  | 2 => c.dst < 1024
  | _ => c.dst < 128

/-- The window lies inside the source and keeps the rules of R158. -/
def State.windowOk (s : State) (c : Crossing) : Bool :=
  let (w, h) := s.window c
  match c.kind with
  | 0 | 1 =>
    (c.w != 0 || c.x == 0) && (c.h != 0 || c.y == 0) && c.x + w ≤ s.streamWidth c.src && c.y + h ≤ s.streamHeight c.src
      && (s.streamFmt c.src != 0 || (c.x % 2 == 0 && c.w % 2 == 0))
  | 2 => (c.w != 0 || c.x == 0) && c.x + w ≤ s.streamWidth c.src
  | _ => true

/-- A video crossing to a stream without a transform has that stream's size (R158). -/
def State.geometryOk (s : State) (c : Crossing) : Bool :=
  !(c.kind ≤ 1 && c.dstKind == 1 && c.xform == 0) || s.window c == (s.streamWidth c.dst, s.streamHeight c.dst)

/-- The crossing runs through a transform stage (R277). -/
def State.throughStage (s : State) (c : Crossing) : Bool := s.staged c.xform && (c.dstKind == 1 || c.dstKind == 2)

/-- Width and height that a crossing delivers, and its format: those of the stream or slip it feeds. -/
def State.dstShape (s : State) (c : Crossing) : Nat × Nat × Nat :=
  if c.dstKind = 1 then (s.streamWidth c.dst, s.streamHeight c.dst, s.streamFmt c.dst)
  else (s.f (Reg.fstSlipGeom c.dst) 12 0, s.slipHeight c.dst, s.f (Reg.fstSlipGeom c.dst) 30 28)

/-- The transform descriptor is valid, its `MODE` is not 3, and a stage is allotted where it scales or converts (R160, R204,
R277). -/
def State.xformOk (s : State) (c : Crossing) : Bool :=
  (s.xformByte c.xform 0).testBit 0 && s.xformByte c.xform 0x10 % 4 != 3
    && (!s.throughStage c || s.xtb.stages.contains (2048 * c.dstKind + c.dst))

/-- The input channel of a source of an output. -/
def State.srcInput (s : State) (o k : Nat) : Nat := s.f (Reg.audOutSrc o k) 25 16

/-- The input channels of protected chime slots (R345). -/
def State.protectedInputs (s : State) : List Nat :=
  ((upto 32).filter fun c => s.b (Reg.audChimeCfg c) 31 && s.b (Reg.audChimeCfg c) 30).map fun c => s.f (Reg.audChimeCfg c) 9 0

/-- A protected chime slot feeds output `o` (R345). -/
def State.protectedOutput (s : State) (o : Nat) : Bool :=
  (upto 8).any fun k => s.b (Reg.audOutSrc o k) 31 && s.protectedInputs.contains (s.srcInput o k)

/-- A crossing would displace what a protected chime slot's output feeds (R345). -/
def State.displacesChime (s : State) (c : Crossing) : Bool :=
  s.running && c.kind == 2 && c.dstKind == 1 && !s.protectedInputs.isEmpty
    && (upto 512).any fun o => s.f (Reg.audOutDst o) 31 29 == 1 && s.f (Reg.audOutDst o) 26 16 == c.dst && s.protectedOutput o

/-- From RUNNING a host entry keeps off watch routing (R165). -/
def State.watchRuleOk (s : State) (c : Crossing) : Bool :=
  !s.displacesChime c && !(s.running && (c.watch || (c.dstKind == 0 && s.watchLayer c.dst)
    || (match s.feeder c.dstKind c.dst with | some i => c.dstKind != 3 && (s.crossing i).watch | none => false)))

/-- The reason for which an entry is refused as it is written, 0 for none (R163, R190). -/
def State.entryFault (s : State) (c : Crossing) (host : Bool) : Nat :=
  if !s.kindOk c || !dstInRange c then 1
  else if !s.windowOk c then 2
  else if !s.geometryOk c then 3
  else if !s.xformOk c then 1
  else if s.displacesChime c || (host && !s.watchRuleOk c) then 4 else 0

/-! ### States, events and counts -/

/-- The data field of a crossing event: a group, or bit 15 and an entry, with the reason (R192). -/
def crossingData (group entry reason : Nat) : Nat := (if group = 0 then 2 ^ 15 + entry else group) + reason * 2 ^ 16

/-- A group's state. -/
def State.grp (s : State) (g : Nat) : GrpSt := nget (fun _ => GrpSt.init) s.xtb.grps g

/-- Change a group's state. -/
def State.onGrp (s : State) (g : Nat) (f : GrpSt → GrpSt) : State :=
  { s with xtb := { s.xtb with grps := nset (fun _ => GrpSt.init) s.xtb.grps g (f (s.grp g)) } }

/-- Low 16 bits of the stroke number. -/
def State.stroke16 (s : State) : Nat := s.clock.stroke.toNat % 65536

/-- `REASON` of an entry stays that of the last refusal, hold or degradation until another comes, 0 being none (R189). -/
def reasonAfter (old new : Nat) : Nat := if new = 0 then old else new

/-- An entry goes to a state, with the reason and the stroke (R162, R189). -/
def State.entryTo (s : State) (i : Nat) (st : EntState) (reason : Nat) : State :=
  s.onEntry i fun e => { e with state := st, reason := reasonAfter e.reason reason, stroke := s.stroke16 }

/-- A layer that no crossing feeds any more turns off, or repeats its frame (R171, R175). -/
def State.noteBlank (s : State) (n : Nat) (blank : Bool) : State :=
  { s with xtb := { s.xtb with blanks := s.xtb.blanks.filter (· ≠ n) ++ if blank then [n] else [] } }

/-- Entry `i` becomes EMPTY: its words read 0 (R162); a slip it wrote discards the frame in progress (R199). -/
def State.emptyEntry (s : State) (i reason : Nat) : State :=
  let c := s.crossing i
  let was := (s.entry i).state
  let s := forAll (upto 4) (fun j t => t.wr (Reg.xtbEntryWord i j) 0) s
  let s := s.onEntry i fun e => { EntSt.init with reason := reasonAfter e.reason reason, stroke := s.stroke16 }
  if was ≠ .taken then s
  else if c.dstKind = 2 then s.discardFilling c.dst
  else onlyIf (c.dstKind == 0) (fun t => t.noteBlank c.dst c.blankOnLoss) s

/-- Entries refused: counted (R189). -/
def State.countRefused (s : State) (n : Nat) : State := s.countErr Reg.xtbRefuseCnt 24 n

/-- The entries of a group in a set of states, ascending. -/
def State.groupEntries (s : State) (g : Nat) (p : EntState → Bool) : List Nat :=
  s.liveEntries.filter fun i => (s.crossing i).group == g && p (s.entry i).state

/-- PENDING or HELD. -/
def waitingState : EntState → Bool
  | .pending | .held => true
  | _ => false

/-- A group goes to a state. -/
def State.grpTo (s : State) (g : Nat) (st : GrpState) (reason : Nat) : State :=
  s.onGrp g fun x => { x with state := st, reason := reason, stroke := s.stroke16 }

/-- The group is armed or held. -/
def State.grpArmed (s : State) (g : Nat) : Bool := decide ((s.grp g).state = .armed ∨ (s.grp g).state = .held)

/-- Entries are refused together: each becomes EMPTY, they are counted, and the event is raised, with a second one for a group that
has reached its limit (R169, R170, R189, R192). -/
def State.refuse (s : State) (g : Nat) (es : List Nat) (reason : Nat) (dropped : Bool) : State :=
  let s := forAll es (fun i t => t.emptyEntry i reason) s
  let s := if g = 0 then s else (s.grpTo g .refused reason).onGrp g fun x => { x with passed := false, seen := false, heldFor := 0 }
  let s := (s.countRefused es.length).raise .crossingRefused 0 (crossingData g (es.headD 0) reason)
  onlyIf dropped (fun t => t.raise .crossingDropped 0 (crossingData g (es.headD 0) reason)) s

/-! ### Writing, arming and cancelling (R163, R164) -/

/-- The words of an entry written into the table. -/
def State.writeEntry (s : State) (i : Nat) (w0 w1 w2 w3 : Word) : State :=
  (((s.putWord (Reg.xtbEntryWord i 0) w0).putWord (Reg.xtbEntryWord i 1) w1).putWord (Reg.xtbEntryWord i 2) w2).putWord (Reg.xtbEntryWord i 3) w3

/-- A host write of word 3 of entry `i` (R163). -/
def xtbWord3Write (i : Nat) (w : Word) (s : State) : State :=
  let word := fun j => (nfind (Reg.xtbEntryWord i j) s.xtb.words).getD 0
  let c := Crossing.ofRec (rec4 (word 0) (word 1) (word 2) w)
  let drop := fun (t : State) =>
    { t with xtb := { t.xtb with words := t.xtb.words.filter fun e => e.1 / 16 ≠ Reg.xtbEntryWord i 0 / 16 } }
  let no := fun (g r : Nat) (t : State) =>
    ((t.onEntry i fun e => { e with reason := r }).countRefused 1).raise .crossingRefused 0 (crossingData g i r)
  let field := fun (g : Nat) (t : State) => no g 1 t
  drop (match (s.entry i).state with
  | .empty =>
    if !c.valid ∨ (c.group ≠ 0 ∧ s.grpArmed c.group) then field c.group s
    else
      let r := s.entryFault c true
      if r ≠ 0 then no c.group r s
      else
        let t := (s.writeEntry i (word 0) (word 1) (word 2) w).onEntry i fun e =>
          { EntSt.init with state := .pending, reason := e.reason, stroke := s.stroke16, armed := c.group == 0 }
        if c.group = 0 then t else if t.grpArmed c.group then t else t.grpTo c.group .pending 0
  | .pending =>
    let g := (s.crossing i).group
    if !c.valid ∧ !(g ≠ 0 ∧ s.grpArmed g) then s.emptyEntry i 9 else field g s
  | _ => field (s.crossing i).group s)

/-- `XTB_ARM_STAT` after an arming or a cancel (R189). -/
def State.armStat (s : State) (g reason : Nat) : State :=
  s.wr Reg.xtbArmStat (BitVec.ofNat 32 (2 ^ 31 + (if reason = 0 then 0 else 2 ^ 30) + reason * 2 ^ 16 + g))

/-- A write of `CANCEL`: an armed or held group's entries become EMPTY (R164). -/
def xtbCancel (s : State) : State :=
  let g := s.f Reg.xtbArmGroup 11 0
  let s := if s.grpArmed g then
      let t := forAll (s.groupEntries g waitingState) (fun i t => t.emptyEntry i 9) s
      (t.grpTo g .refused 9).onGrp g fun x => { x with passed := false, seen := false, heldFor := 0 }
    else s
  s.armStat g 0

/-- A write of `XTB_ARM_CTRL`: `CANCEL` wins over `GO`; an arming needs the right count (R164). -/
def xtbArm (w : Word) (s : State) : State :=
  let g := s.f Reg.xtbArmGroup 11 0
  if bit w 30 then xtbCancel s
  else if !bit w 31 then s
  else if s.grpArmed g then s.armStat g 0x0C
  else if g = 0 ∨ bf w 15 0 = 0 ∨ (s.groupEntries g (· == .pending)).length ≠ bf w 15 0 then s.armStat g 0x0B
  else ((s.grpTo g .armed 0).onGrp g fun x => { x with seen := false, heldFor := 0, passed := false }).armStat g 0

/-! ### The checks of a take (R168, R177) -/

/-- The scaler ratio of a window against a layer's output size lies within 4:1 down and 8:1 up (R168, R274). -/
def ratioOk (win out : Nat) : Bool := win ≤ 4 * out && out ≤ 8 * win

/-- The ratio of a crossing to its layer. -/
def State.layerRatioOk (s : State) (c : Crossing) : Bool :=
  match s.layerSlot c.dst with
  | some (h, k) =>
    let (w, v) := s.window c
    ratioOk w (s.f (Reg.headLaySize h k) 12 0) && ratioOk v (s.f (Reg.headLaySize h k) 28 16)
  | none => true

/-- The ratio of a crossing to what its transform stage delivers: the limits of R274 (R277). DEDUCED: outside them the entry is held,
as for a layer. -/
def State.stageRatioOk (s : State) (c : Crossing) : Bool :=
  let (w, v) := s.window c
  let (dw, dh, _) := s.dstShape c
  !(s.throughStage c && s.scales c.xform) || (ratioOk w (s.stageSize c.xform 2 dw) && ratioOk v (s.stageSize c.xform 4 dh))

/-- The destination layer is enabled on an active head (R168, R297). -/
def State.layerActive (s : State) (n : Nat) : Bool :=
  match s.layerSlot n with
  | some (h, k) => s.b (Reg.headCtrl h) 0 && s.b (Reg.headLayCfg h k) 31
  | none => false

/-- An `AUDIO` crossing's ports that are in RUN have the feature (R177). -/
def State.audioFeature (s : State) (c : Crossing) : Bool :=
  c.kind != 2 || [s.streamPort c.src, s.streamPort c.dst].all fun p => s.ladder p != 5 || s.feature p 1

/-- The destinations, other than crews, that a set of entries names (R168). -/
def State.destinations (s : State) (es : List Nat) : List (Nat × Nat) :=
  (es.map fun i => ((s.crossing i).dstKind, (s.crossing i).dst)).filter fun d => d.1 != 3

/-- No destination twice. -/
def noRepeat : List (Nat × Nat) → Bool
  | [] => true
  | d :: l => !l.contains d && noRepeat l

/-- What the checks of R168 say of entries considered together: `none` when they take, else whether they are refused (or held) and
the reason. -/
def State.takeFault (s : State) (es : List Nat) (claimed : List (Nat × Nat)) : Option (Bool × Nat) :=
  let ds := s.destinations es
  if !noRepeat ds || ds.any claimed.contains then some (true, 5)
  else if es.any fun i => s.displacesChime (s.crossing i) then some (true, 4)
  else if es.any fun i => !s.audioFeature (s.crossing i) then some (true, 6)
  else if es.any fun i => ((s.crossing i).dstKind == 0 && !s.layerRatioOk (s.crossing i)) || !s.stageRatioOk (s.crossing i) then some (false, 0x10)
  else if es.any fun i => (s.crossing i).dstKind == 0 && !s.layerActive (s.crossing i).dst then some (false, 0x11)
  else none

/-- A degradation of an entry, `reason` 0 for none: reported when it is new (R176, R177, R192). -/
def State.degrade (s : State) (i reason : Nat) : State :=
  let new := reason != 0 && (s.entry i).lack != reason
  let s := s.onEntry i fun e =>
    { e with degraded := reason != 0, lack := reason, reason := if new then reason else e.reason }
  onlyIf new (fun t => t.raise .crossingDegraded 0 (crossingData (t.crossing i).group i reason)) s

/-- A suspension of an entry, `reason` 0 for none: reported when it is new (R177, R178, R192). -/
def State.suspend (s : State) (i reason : Nat) : State :=
  let new := reason != 0 && !(s.entry i).suspended
  let s := s.onEntry i fun e => { e with suspended := reason != 0, reason := if new then reason else e.reason }
  onlyIf new (fun t => t.raise .crossingDegraded 0 (crossingData (t.crossing i).group i reason)) s

/-- The layer of a crossing uses its gangway. -/
def State.layerGwy (s : State) (c : Crossing) : Bool :=
  c.dstKind == 0 && (match s.layerSlot c.dst with | some (h, k) => s.b (Reg.headLayCfg h k) 30 | none => false)

/-- The reason for which a taken crossing is degraded by what its ports lack (R176, R177), 0 for none. -/
def State.lacks (s : State) (c : Crossing) : Nat :=
  let p := s.streamPort c.src
  let up := s.ladder p == 5
  if s.sourceNow c.src != c.src then 0x23
  else if c.kind == 0 && up && (!s.feature p 2 || s.noRatio c.src) then 0x20
  else if s.layerGwy c && up && !s.feature p 6 then 0x21
  else 0

/-- Taken crossings are judged against the features of their ports (R177). -/
def State.judgeFeatures (s : State) : State :=
  forAll s.takenEntries (fun i t =>
    let c := t.crossing i
    (onlyIf (c.kind == 2) (fun u => u.suspend i (if u.audioFeature c then 0 else 0x24)) t).degrade i (t.lacks c)) s

/-- Entries take (R171): the crossing each replaces is retired, and a `RETIRE` entry, which retires those that feed its crew too, routes
nothing (R159). DEDUCED: its `BLANK_ON_LOSS` is the one by which its layer, as for a stopped source, turns off (R175). -/
def State.takeEntries (s : State) (g : Nat) (es : List Nat) : State :=
  let notify := es.any fun i => (s.crossing i).notify
  let take := (s.crossing (es.headD 0)).take
  let s := forAll es (fun i t =>
    let c := t.crossing i
    let t := if c.dstKind = 3 ∧ !c.retire then t
      else forAll (t.takenEntries.filter fun j => j != i && (t.crossing j).dstKind == c.dstKind && (t.crossing j).dst == c.dst)
        (fun j u => u.emptyEntry j 0) t
    if c.retire then onlyIf (c.dstKind == 0) (fun u => u.noteBlank c.dst c.blankOnLoss) (t.emptyEntry i 0)
    else
      let t := (t.entryTo i .taken 0).onEntry i fun e => { e with armed := false, chart := false, heldFor := 0 }
      let t := t.onEntry i fun e => { e with slipPath := c.kind == 1 || (c.kind == 0 && !t.locked (t.sourceNow c.src)) }
      let t := { t with xtb := { t.xtb with open_ := t.xtb.open_.filter (·.1 ≠ i), passed := t.xtb.passed.filter (·.1 ≠ i) } }
      if c.dstKind = 2 then t.onSlip c.dst fun x => { x with writeFrom := t.clock.boundary, lastFrame := none, skipping := none } else t) s
  let s := if g = 0 then s else (s.grpTo g .taken 0).onGrp g fun x => { x with seen := false, heldFor := 0, passed := false, took := take }
  let s := s.countPerf Reg.xtbTakeCnt 31 es.length
  onlyIf notify (fun t => t.raise .crossingTaken 0 (crossingData g (es.headD 0) 0)) s

/-! ### Joined devices (R185 to R187) -/

/-- The module is a member of a joined set (R185, R189). -/
def State.joined (s : State) : Bool := 2 ≤ s.f Reg.xtbJoin 15 12

/-- The lead ports of the trunks. -/
def State.trunks (s : State) : List Nat := (s.prt.ports.map (·.1)).filter fun p => s.role p == 5 && s.lead p == p

/-- `JOIN_HOLD` is written at the far end of each trunk, but for one port (R186). -/
def State.sendJoinHold (s : State) (g take : Nat) (but : Option Nat) : State :=
  forAll (s.trunks.filter fun p => some p ≠ but) (fun p t =>
    t.request p { use := .joinHold, op := 1, addr := 0x10000, len := 4, data := leBytes 4 (g * 2 ^ 16 + take) }) s

/-- A `JOIN_HOLD` arrives: recorded with its take-stroke and forwarded once, or, for a part already taken at that stroke, a split
(R186, R187). -/
def State.joinHoldReceived (s : State) (p v : Nat) : State :=
  let g := v / 2 ^ 16 % 4096
  let take := v % 65536
  if (s.grp g).state = .taken ∧ (s.grp g).took = take then s.raise .crossingSetSplit 0 (crossingData g 0 0x0A)
  else
    let done := (s.grp g).forwarded = some take
    let s := s.onGrp g fun x => { x with joinHold := some take, forwarded := some take }
    if done then s else s.sendJoinHold g take (some p)

/-! ### Taking at a stroke (R167 to R170, R186) -/

/-- A take-stroke is due at the boundary with low bits `n` (R167). -/
def takeDue (take n : Nat) : Bool := take == 0 || !serialNewer 16 take n

/-- Consider one group, or one ungrouped entry (`g` 0), that is armed (R167 to R170, R186). -/
def State.consider (s : State) (claimed : List (Nat × Nat)) (g : Nat) (es : List Nat) : List (Nat × Nat) × State :=
  let c := s.crossing (es.headD 0)
  let e := s.entry (es.headD 0)
  let seen := if g = 0 then e.seen else (s.grp g).seen
  let held := if g = 0 then e.heldFor else (s.grp g).heldFor
  let wasHeld := if g = 0 then decide (e.state = .held) else decide ((s.grp g).state = .held)
  if es = [] ∨ !(e.chart || takeDue c.take s.stroke16) then
    (claimed, if es = [] then s else (s.onGrp g fun x => if g = 0 then x else { x with seen := true }).onEntry (es.headD 0) fun x => { x with seen := true })
  else
    let s := onlyIf (!seen && !e.chart && c.take ≠ 0 && c.take ≠ s.stroke16)
      (fun t => t.raise .crossingLate 0 (crossingData g (es.headD 0) 0)) s
    let s := (s.onGrp g fun x => if g = 0 then x else { x with seen := true }).onEntry (es.headD 0) fun x => { x with seen := true }
    let set := c.set && s.joined
    match s.takeFault es claimed with
    | none =>
      if set && (s.grp g).joinHold == some c.take then (claimed, s.refuse g es 0x0A false)
      else (claimed ++ s.destinations es, s.takeEntries g es)
    | some (refused, reason) =>
      if set then
        let split := (s.grp g).passed && (s.grp g).joinHold != some c.take
        let s := onlyIf split (fun t => (t.raise .crossingSetSplit 0 (crossingData g 0 reason)).sendJoinHold g c.take none) s
        (claimed, s.refuse g es 0x0A false)
      else if refused then (claimed, s.refuse g es reason false)
      else
        let limit := s.f Reg.xtbCtrl 15 0
        if wasHeld ∧ limit ≠ 0 ∧ limit ≤ held + 1 then (claimed, s.refuse g es 8 true)
        else
          let n := if wasHeld then held + 1 else 0
          let s := onlyIf (!wasHeld) (fun t => t.raise .crossingHeld 0 (crossingData g (es.headD 0) reason)) s
          let s := forAll es (fun i t => if (t.entry i).state = .held then t.onEntry i fun x => { x with reason := reason, heldFor := n }
            else (t.entryTo i .held reason).onEntry i fun x => { x with heldFor := n }) s
          (claimed, if g = 0 then s
            else if (s.grp g).state = .held then s.onGrp g fun x => { x with reason := reason, heldFor := n }
            else (s.grpTo g .held reason).onGrp g fun x => { x with heldFor := n })

/-- Two strokes before its take-stroke, a `SET` group's part is checked, and a part that would not take is held everywhere (R186). -/
def State.setCheck (s : State) : State :=
  if !s.joined then s
  else forAll (s.xtb.grps.map (·.1)) (fun g t =>
    let es := t.groupEntries g waitingState
    let c := t.crossing (es.headD 0)
    if (t.grp g).state = .armed ∧ es ≠ [] ∧ c.set ∧ c.take = (t.stroke16 + 2) % 65536 then
      if (t.takeFault es []).isNone then t.onGrp g fun x => { x with passed := true }
      else (t.onGrp g fun x => { x with joinHold := some c.take }).sendJoinHold g c.take none
    else t) s

/-- Step 4 of R14: due groups in ascending order, then due ungrouped entries (R169). -/
def State.takeCrossings (s : State) : State :=
  let gs := (s.xtb.grps.map (·.1)).filter s.grpArmed
  let (cl, s) := gs.foldl (fun (a : List (Nat × Nat) × State) g =>
    a.2.consider a.1 g (a.2.groupEntries g waitingState)) ([], s)
  let us := s.liveEntries.filter fun i => (s.crossing i).group == 0 && waitingState (s.entry i).state && (s.entry i).armed
  (us.foldl (fun (a : List (Nat × Nat) × State) i =>
    if waitingState (a.2.entry i).state then a.2.consider a.1 0 [i] else a) (cl, s)).2

/-- A valid crossing of a chart is placed in an EMPTY entry, PENDING (R166): the chart's crossings need no arming. -/
def State.placeCrossing (s : State) (i : Nat) (w0 w1 w2 w3 : Word) : State :=
  if (Crossing.ofRec (rec4 w0 w1 w2 w3)).valid && decide ((s.entry i).state = .empty) then
    (s.writeEntry i w0 w1 w2 w3).onEntry i fun e =>
      { EntSt.init with state := .pending, reason := e.reason, stroke := s.stroke16, chart := true }
  else s

/-- The chart's crossings among the entries `p` that wait are due now, whatever their take-strokes (R166). -/
def State.armChart (s : State) (p : Nat → Bool) : State :=
  forAll (s.liveEntries.filter fun i => decide ((s.entry i).state = .pending) && (s.entry i).chart && p i) (fun i t =>
    let g := (t.crossing i).group
    let t := t.onEntry i fun e => { e with armed := true }
    if g = 0 ∨ t.grpArmed g then t else t.grpTo g .armed 0) s

/-- What entries that an amendment writes lie over (R172): a crossing taken is retired, a waiting one cancels its whole group. All of
it goes before any of the new contents come. -/
def State.amendClear (s : State) (es : List Nat) : State :=
  forAll es (fun i t =>
    let g := (t.crossing i).group
    match (t.entry i).state with
    | .taken => t.emptyEntry i 0
    | .pending | .held => t.refuse g (if g = 0 then [i] else t.groupEntries g waitingState) 7 false
    | .empty => t) s

/-- An amendment writes an entry, whose contents are PENDING (R172). -/
def State.amendEntry (s : State) (i : Nat) (w0 w1 w2 w3 : Word) : State :=
  let c := Crossing.ofRec (rec4 w0 w1 w2 w3)
  if c.valid then
    (s.writeEntry i w0 w1 w2 w3).onEntry i fun e => { EntSt.init with state := .pending, reason := e.reason, stroke := s.stroke16, armed := true }
  else s

/-- The groups that an amendment wrote are armed (R172). -/
def State.armAmended (s : State) (gs : List Nat) : State :=
  forAll (gs.filter (· ≠ 0)) (fun g t =>
    if t.grpArmed g then t else (t.grpTo g .armed 0).onGrp g fun x => { x with seen := false, heldFor := 0, passed := false }) s

/-! ### Paths, stops and admission at a boundary (R173 to R178) -/

/-- The path of each taken `CUT` crossing follows its source's state (R173, R174). -/
def State.movePaths (s : State) : State :=
  forAll s.takenEntries (fun i t =>
    let c := t.crossing i
    let foreign := !t.locked (t.sourceNow c.src)
    if c.kind = 0 ∧ (t.entry i).slipPath ≠ foreign then
      (t.onEntry i fun e => { e with slipPath := foreign }).raise .crossingPath 0 (crossingData c.group i 0)
    else t) s

/-- The receive streams of the stream table, ascending. -/
def State.rxStreams (s : State) : List Nat :=
  ((s.regs.filter fun e => Reg.streamEntryWord 0 0 ≤ e.1 && e.1 < Reg.streamEntryWord 2048 0 && bit e.2 31 && !bit e.2 30).map fun e =>
    (e.1 - Reg.streamEntryWord 0 0) / 8).filter fun i => s.streamValid i && !s.streamTx i

/-- A stream without a packet for a whole stroke has stopped; one that came has returned (R175). A stream that a narrow mode replaces, or
a substitute while none is in force, sends nothing and is not judged (R113, R176). -/
def State.judgeSources (s : State) : State :=
  let heard := s.prt.ports.flatMap fun p => p.2.heard
  let stop := (s.rxStreams.filter fun i => s.flowsNow i && !heard.contains i).eraseDups
  let s := { s with xtb := { s.xtb with stopped := stop } }
  forAll (s.prt.ports.map (·.1)) (fun p t => t.onPort p fun x => { x with heard := [] }) s

/-- Payload of a video stream in bits per second, with the packet overhead of R127 (R178): LEN 1,024 words in a packet, an odd LEN
padded with 4 bits. -/
def State.streamBits (s : State) (i : Nat) : Nat :=
  let w := lineWords (s.streamFmt i) (s.streamWidth i)
  (20 * w + 4 * (w % 2) + 112 * ((w + 1023) / 1024)) * s.streamHeight i * s.clock.rateNum / max 1 s.clock.rateDen

/-- Payload that a port carries at its rate on the lanes in use, in bits per second (R96: 8 of 10 bits). -/
def State.portBits (s : State) (p : Nat) : Nat :=
  let lanes := if 1 < (s.lanes p).length then (maskLanes (s.grpActive p)).length else 1
  2500000000 * 2 ^ s.rate p * lanes

/-- The class of a crossing: a host entry's 3 counts as 2 (R161). -/
def Crossing.cls (c : Crossing) : Nat := if c.prio = 3 ∧ !c.watch then 2 else c.prio

/-- The outgoing video streams that no crossing feeds: those of heads, and those that a port reads from a queue. -/
def State.ownStreams (s : State) : List Nat :=
  let heads := ((upto 64).filter s.headOn).map fun h => s.f (Reg.headCfg h) 10 0
  let ports := ((s.que.map (·.1)).filter fun q => s.f (Reg.queCfg q) 15 12 == 1).map fun q => s.lead (s.f (Reg.queCfg q) 11 0)
  let queued := if ports.isEmpty then [] else (upto 2048).filter fun i => ports.contains (s.lead (s.streamPort i))
  ((heads ++ queued).eraseDups).filter fun i => s.streamIs i 0 true && (s.feeder 1 i).isNone

/-- The outgoing video streams that may send now: class, stream, and the entry that feeds it. DESIGN CHOICE: a stream without a
crossing has no `PRIO`; it stands above every class, as the urgency of a head does (R161). -/
def State.outStreams (s : State) : List (Nat × Nat × Option Nat) :=
  let fed := (s.takenEntries.filter fun i => (s.crossing i).dstKind == 1 && s.streamKind (s.crossing i).dst == 0).map fun i =>
    ((s.crossing i).cls, (s.crossing i).dst, some i)
  sortBy (fun a b => decide (b.1 < a.1 ∨ a.1 = b.1 ∧ a.2.1 ≤ b.2.1))
    ((fed ++ s.ownStreams.map fun i => (4, i, (none : Option Nat))).filter fun (o : Nat × Nat × Option Nat) => s.flowsNow o.2.1)

/-- Outgoing streams are admitted in descending class, then ascending stream, while they fit; the others are suspended whole (R177,
R178). -/
def State.admission (s : State) : State :=
  let s := { s with xtb := { s.xtb with shut := [] } }
  (s.outStreams.foldl (fun (a : NMap Nat × NMap Nat × State) (o : Nat × Nat × Option Nat) =>
    let t := a.2.2
    let d := o.2.1
    let p := t.lead (t.streamPort d)
    let used := nget (fun _ => 0) a.1 p + t.streamBits d
    if t.ladder p ≠ 5 then a
    else if nget (fun _ => 0) a.2.1 p = 0 ∧ used ≤ t.portBits p then
      (nput p used a.1, a.2.1, match o.2.2 with | some i => t.suspend i 0 | none => t)
    else (a.1, nput p 1 a.2.1, match o.2.2 with
      | some i => t.suspend i 0x22
      | none => { t with xtb := { t.xtb with shut := t.xtb.shut ++ [d] } })) ([], [], s)).2.2

/-- The boundary's work on crossings at step 4 (R14): `SET` parts two strokes ahead, takes, paths, features, admission (R14). -/
def State.crossingsBoundary (s : State) : State :=
  s.setCheck.takeCrossings.movePaths.judgeFeatures.admission

end Sys2Proof.Machine
end

