-- ==== Sys2Proof/Machine/Queues.lean ====
section
/-! DEFINITION. The hardware queues and their descriptors (R179 to R184, R191). -/

namespace Sys2Proof.Machine

/-! ### Descriptors (R180) -/

/-- A descriptor by field. -/
structure Desc where
  dkind  : Nat
  space  : Nat
  addr   : Nat
  len    : Nat
  stream : Nat
  line   : Nat
  stroke : Nat
  tag    : Nat
  dflags : Nat
  arg    : Nat
deriving DecidableEq, Repr

/-- A descriptor's fields. -/
def Desc.ofRec (r : Rec) : Desc :=
  { dkind := rf r 127 124, space := rf r 123 123, addr := rf r 122 99, len := rf r 98 88, stream := rf r 87 77, line := rf r 76 64,
    stroke := rf r 63 48, tag := rf r 47 38, dflags := rf r 37 32, arg := rf r 31 0 }

/-- A descriptor's 128 bits. -/
def Desc.toRec (d : Desc) : Rec :=
  BitVec.ofNat 128 (d.dkind % 16 * 2 ^ 124 + d.space % 2 * 2 ^ 123 + d.addr % 2 ^ 24 * 2 ^ 99 + d.len % 2 ^ 11 * 2 ^ 88
    + d.stream % 2 ^ 11 * 2 ^ 77 + d.line % 2 ^ 13 * 2 ^ 64 + d.stroke % 2 ^ 16 * 2 ^ 48 + d.tag % 2 ^ 10 * 2 ^ 38
    + d.dflags % 2 ^ 6 * 2 ^ 32 + d.arg % 2 ^ 32)

def Desc.first (d : Desc) : Bool := d.dflags.testBit 5
def Desc.last (d : Desc) : Bool := d.dflags.testBit 4
def Desc.eof (d : Desc) : Bool := d.dflags.testBit 3
def Desc.poison (d : Desc) : Bool := d.dflags.testBit 2

/-- The data of a descriptor, read from the frame store or working memory (R180). -/
def State.descWords (s : State) (d : Desc) : List Lane :=
  unpackWords d.len (readBytes zeroByte (if d.space = 0 then s.fstore else s.work) (16 * d.addr) ((20 * d.len + 7) / 8))

/-! ### Queues -/

/-- Queue `q`. -/
def State.queue (s : State) (q : Nat) : QueSt := nget (fun _ => QueSt.init) s.que q

/-- Change queue `q`. -/
def State.onQueue (s : State) (q : Nat) (g : QueSt → QueSt) : State :=
  { s with que := nset (fun _ => QueSt.init) s.que q (g (s.queue q)) }

/-- Producer kind and number, consumer kind and number (R191). -/
def State.prodKind (s : State) (q : Nat) : Nat := s.f (Reg.queCfg q) 31 28
def State.prodId (s : State) (q : Nat) : Nat := s.f (Reg.queCfg q) 27 16
def State.consKind (s : State) (q : Nat) : Nat := s.f (Reg.queCfg q) 15 12
def State.consId (s : State) (q : Nat) : Nat := s.f (Reg.queCfg q) 11 0

/-- The queue is full. -/
def State.queueFull (s : State) (q : Nat) : Bool := s.f (Reg.queSize q) 17 0 ≤ (s.queue q).held.length

/-- A producer of this kind is held back by a full queue; ports, heads and audio never wait (R182). -/
def heldProducer (kind : Nat) : Bool := kind == 3 || kind == 4 || kind == 5 || kind == 7 || kind == 8

/-- A held-back producer finds the queue closed. -/
def State.queueClosed (s : State) (q : Nat) : Bool := (s.queue q).xoff || s.queueFull q

/-- A descriptor is appended: counted, the high-water mark kept, and back-pressure asserted for a producer that is held back
(R182, R191). -/
def State.append (s : State) (q : Nat) (d : Rec) : State :=
  let s := (s.onQueue q fun x => { x with held := x.held ++ [d] }).countPerf (Reg.quePushes q) 31 1
  let n := (s.queue q).held.length
  let s := s.setF (Reg.queHwm q) 17 0 (max (s.f (Reg.queHwm q) 17 0) n)
  if heldProducer (s.prodKind q) && s.f (Reg.queXoff q) 17 0 ≤ n && !(s.queue q).xoff then
    (s.onQueue q fun x => { x with xoff := true }).raise .queueXoff q q
  else s

/-- A descriptor is dropped by a full queue: counted, and reported once a stroke (R182). -/
def State.dropDesc (s : State) (q : Nat) : State :=
  let told := (s.queue q).told
  onlyIf (!told) (fun t => t.raise .queueDrop q q)
    ((s.countErr (Reg.queDrop q) 24 1).onQueue q fun x => { x with told := true })

/-- A producer that never waits pushes a descriptor (R182); a queue the chart does not define accepts nothing (R179). -/
def State.pushFree (s : State) (q : Nat) (d : Rec) : State :=
  if s.rd (Reg.queCfg q) = 0 then s else if s.queueFull q then s.dropDesc q else s.append q d

/-- The oldest descriptor leaves the queue (R181). -/
def State.pop (s : State) (q : Nat) : Option Rec × State :=
  match (s.queue q).held with
  | [] => (none, s)
  | d :: r => (some d, s.onQueue q fun x => { x with held := r })

/-- A stale line is counted (R183). -/
def State.stale (s : State) (q : Nat) : State := s.countErr (Reg.queStale q) 24 1

/-- A host read of `POP_3`: the oldest descriptor leaves a queue whose consumer is the host (R184). -/
def quePop (q : Nat) (s : State) : State := if s.consKind q = 8 then (s.pop q).2 else s

/-- A write of `HWM_CLR`: the mark starts anew from the fill (R191). -/
def hwmClr (q : Nat) (s : State) : State := s.setF (Reg.queHwm q) 17 0 (s.queue q).held.length

/-- A new stroke: drops may be reported again (R182). -/
def State.queuesNewStroke (s : State) : State :=
  { s with que := (s.que.map fun e => (e.1, { e.2 with told := false })).filter fun e => decide (e.2 ≠ QueSt.init) }

end Sys2Proof.Machine
end

