-- ==== Sys2Proof/Machine/Outgoing.lean ====
section
/-! DEFINITION. Sending video and audio packets on transmit streams (R127 to R130), transform stages (R277), cut-through streams,
and the packets of a stream read from a slip or from `LINE` descriptors (R155, R183, R201). -/

namespace Sys2Proof.Machine

/-- A transmit stream may send packets of type `typ`: its port's group runs, the stream flows now (R113), and the lane carries them:
one opposite to a video direction carries only the back channel, a CONTROL port no video (R94, R95). -/
def State.mayCarry (s : State) (i typ : Nat) : Bool :=
  s.streamValid i && s.streamTx i && s.flowing (s.streamPort i) && s.flowsNow i && !s.xtb.shut.contains i && !s.backOnly (s.lead (s.streamPort i))
    && (typ != 1 || s.role (s.streamPort i) != 4)

/-- Send a packet of stream `i`, with its next `SEQ` (R128); one made from a poisoned descriptor ends with K30.7 (R127, R180). -/
def State.sendPacket (s : State) (i typ line : Nat) (first last : Bool) (flags : Nat) (ws : List Lane) (poison : Bool := false) : State :=
  if s.mayCarry i typ && !ws.isEmpty then
    let p := s.lead (s.streamPort i)
    let seq := nget (fun _ => 0) (s.port p).txSeq i
    let s := s.onPort p fun x => { x with txSeq := nput i ((seq + 1) % 65536) x.txSeq }
    s.transmit p (some i) poison (Packet.bytes { typ, stream := i, seq, line, first, last, len := ws.length, flags, words := ws })
  else s

/-- The `FLAGS` of a `VIDEO` packet (R130). -/
def videoFlags (eof : Bool) (frame part : Nat) : Nat := eof.toNat * 32 + frame % 4 * 8 + part % 8

/-- Send one line of video as packets of 1,024 words (R130). -/
def State.sendLine (s : State) (i line frame : Nat) (eof : Bool) (ws : List Lane) : State :=
  let cs := chunks 1024 ws
  forAll cs.zipIdx (fun e t => t.sendPacket i 1 line (e.2 == 0) (e.2 + 1 == cs.length) (videoFlags eof frame e.2) e.1) s

/-! ### Windows and transform stages (R158, R176, R277) -/

/-- The window of a crossing on the stream it reads now: x, y, width, height (R156, R176). -/
def State.windowNow (s : State) (c : Crossing) : Nat × Nat × Nat × Nat :=
  let j := s.sourceNow c.src
  let (w, h) := s.window c
  if j = c.src then (c.x, c.y, w, h)
  else
    let fx := fun (v : Nat) => v * s.streamWidth j / max 1 (s.streamWidth c.src) / 2 * 2
    let fy := fun (v : Nat) => v * s.streamHeight j / max 1 (s.streamHeight c.src)
    (fx c.x, fy c.y, fx w, fy h)

/-- The words of a line that carry `w` pixels from pixel `x` (R311). -/
def cutWords (fmt x w : Nat) (ws : List Lane) : List Lane :=
  if fmt = 0 then (ws.drop x).take w else (ws.drop (3 * x / 2)).take ((3 * w + 1) / 2)

/-- A 16-bit signed field and a 12-bit one of a descriptor. -/
def State.xformS16 (s : State) (x o : Nat) : Int := signed 16 (s.xformHalf x o)
def State.xformS12 (s : State) (x o : Nat) : Int := signed 12 (s.xformHalf x o)

/-- A byte of the colour settings of a transform stage, which act where the descriptor converts colour (R160, R277). -/
def State.cscByte (s : State) (x o : Nat) : Nat := if s.colours x then s.xformByte x o else 0

/-- The conversion of a transform stage's input (R277). -/
def State.stageIn (s : State) (x fmt : Nat) (p : Pix) : Pix :=
  let i := s.cscByte x 0x41
  if i.testBit 2 then
    customMatrix ((upto 9).map fun k => s.xformS16 x (0x44 + 4 * k)) ((upto 3).map fun k => s.xformS12 x (0x68 + 4 * k)) p
  else toStorage fmt (i.testBit 1) (i.testBit 0) ((s.cscByte x 0x42).testBit 0) p

/-- A pixel in the output format of a transform stage, in its range. -/
def State.stageOut (s : State) (x fmt : Nat) (l : List Pix) : List Lane :=
  let o := s.cscByte x 0x42
  let full := o.testBit 1
  let l := if fmt ≠ 1 ∧ full then l.map fun p =>
      (clamp10 (openDiv 15 (1023 * ((p.1 : Int) - 64)) 876), clamp10 (512 + openDiv 15 (1023 * ((p.2.1 : Int) - 512)) 896),
        clamp10 (512 + openDiv 15 (1023 * ((p.2.2 : Int) - 512)) 896)) else l
  packComps ((outComps fmt (o.testBit 0) full l).map fun e => clamp10 e.1)

/-- The lines that a crossing delivers to a destination of `dh` lines: those of its window, or those its stage scales to (R158, R160,
R176). -/
def State.outHeight (s : State) (c : Crossing) (dh : Nat) : Nat :=
  if s.scales c.xform then s.stageSize c.xform 4 dh else (s.windowNow c).2.2.2

/-- The last line of a window of `wh` lines that line `y` of the `oh` lines delivered needs (R277). -/
def State.lastLine (s : State) (c : Crossing) (wh oh y : Nat) : Nat := if s.scales c.xform then lastTap wh oh y else y

/-- Line `y` of what a crossing delivers to a stream or slip of format `fmt`, from the lines of its window (R158, R277). -/
def State.delivered (s : State) (c : Crossing) (fmt dw dh y : Nat) (row : Nat → List Lane) : List Lane :=
  if s.staged c.xform then
    let (_, _, _, h) := s.windowNow c
    let sf := s.streamFmt (s.sourceNow c.src)
    let f := s.xformByte c.xform 0x40
    let store := fun i => storeForm sf true (s.stageIn c.xform sf) (row i)
    let r := fun i => s.hScaleLine (f % 16) (s.stageSize c.xform 2 dw) (store i)
    s.stageOut c.xform fmt (if s.scales c.xform then (s.vScaleLine (f / 16) h (s.stageSize c.xform 4 dh) y r).pixels else (store y).pixels)
  else row y

/-! ### Streams read from a slip or a queue (R155, R183, R201) -/

/-- The state of outgoing stream `i`. -/
def State.egress (s : State) (i : Nat) : EgrSt := nget (fun _ => EgrSt.init) s.egr i

/-- Change the state of outgoing stream `i`. -/
def State.onEgress (s : State) (i : Nat) (g : EgrSt → EgrSt) : State :=
  { s with egr := nset (fun _ => EgrSt.init) s.egr i (g (s.egress i)) }

/-- The reader number of outgoing stream `i` among the readers of a slip (R201). -/
def egressReader (i : Nat) : Nat := 4096 + i

/-- The slip a crossing reads at this time: its source's landing slip on the slip path (R155, R173). -/
def State.readSlip (s : State) (e : Nat) : Option Nat :=
  let c := s.crossing e
  if c.kind = 1 ∨ (c.kind = 0 ∧ (s.entry e).slipPath) then s.landingSlip (s.sourceNow c.src) else none

/-- The taken crossing to an outgoing stream, not suspended (R177, R178). -/
def State.outFeeder (s : State) (i : Nat) : Option Nat := (s.feeder 1 i).filter fun e => !(s.entry e).suspended

/-- A frame of slip `k` counts for a reader whose source last stood stopped at `back`: captured since, or the preload image (R175,
R202). -/
def State.counts (s : State) (k back : Nat) : Bool :=
  s.preloaded k || (match s.completes k with | j :: _ => decide (back < (s.slot k j).capTime) | [] => false)

/-- What outgoing stream `i` had pinned or was to send goes (R175, R201). -/
def State.egressDrop (s : State) (i : Nat) : State :=
  let x := s.egress i
  let slips := ((x.show_.toList ++ x.next_.toList).map (·.slip)).eraseDups
  (forAll slips (fun k t => t.unpin k (egressReader i)) s).onEgress i fun y => { y with show_ := none, next_ := none, line := 0, part := 0 }

/-- At a boundary each outgoing stream on the slip path selects its frame (R175, R202, R205): it waits, pinned, where the frame before
is still being sent. A stream that is not on the slip path, or whose source stands stopped, holds no frame. -/
def State.egressSelect (s : State) : State :=
  forAll (s.takenEntries.filter fun e => (s.crossing e).dstKind == 1 && s.streamKind (s.crossing e).dst == 0) (fun e t =>
    let c := t.crossing e
    match t.readSlip e with
    | some k =>
      if (t.entry e).suspended then t
      else if t.sourceStopped c.src && !t.preloaded k then
        (t.egressDrop c.dst).onEgress c.dst fun y => { y with back := t.clock.boundary }
      else if !t.counts k (t.egress c.dst).back then t
      else
        let x := t.egress c.dst
        match t.selectFrame k c.xform (egressReader c.dst) x.last with
        | (none, t) => t
        | (some p, t) =>
          let t := t.onEgress c.dst fun y => { y with last := some p }
          match x.show_ with
          | some q => (t.pinPick q (egressReader c.dst)).onEgress c.dst fun y => { y with next_ := some p }
          | none => t.onEgress c.dst fun y => { y with show_ := some p, line := 0, part := 0, frame := (y.frame + 1) % 4 }
    | none => t.egressDrop c.dst) s

/-- The queues whose consumer is of a kind and number. -/
def State.queuesTo (s : State) (kind num : Nat) : List Nat :=
  (s.que.map (·.1)).filter fun q => s.consKind q == kind && s.consId q == num

/-- The front of a queue loses the `LINE` descriptors whose stroke is earlier than `stroke`, each counted (R183). A `MARK`, which
carries nothing but its stroke (R180), is taken off. DESIGN CHOICE: so is a descriptor of any other kind, for which the spec gives
a head or an egress port no use. -/
def State.dropStale : Nat → State → Nat → Nat → State
  | 0, s, _, _ => s
  | n + 1, s, q, stroke =>
    match (s.queue q).held with
    | r :: _ =>
      let d := Desc.ofRec r
      if d.dkind ≠ 0 then (s.pop q).2.dropStale n q stroke
      else if serialNewer 16 (stroke % 65536) d.stroke then ((s.pop q).2.stale q).dropStale n q stroke
      else s
    | [] => s

/-- The oldest `LINE` descriptor of a queue that `ok` accepts, once stale ones are gone. -/
def State.takeLine (s : State) (q stroke : Nat) (ok : Desc → Bool) : Option Desc × State :=
  let s := s.dropStale 131072 q stroke
  match (s.queue q).held with
  | r :: _ => if (Desc.ofRec r).dkind = 0 ∧ ok (Desc.ofRec r) then (some (Desc.ofRec r), (s.pop q).2) else (none, s)
  | [] => (none, s)

/-- The next packet of a stream that is read from a slip: its line and part, and after the last packet the pins go (R130, R201). -/
def State.sendFromSlip (s : State) (i e : Nat) (p : Pick) : State :=
  let c := s.crossing e
  let x := s.egress i
  let (wx, wy, ww, wh) := s.windowNow c
  let oh := s.outHeight c (s.streamHeight i)
  let fmt := s.streamFmt (s.sourceNow c.src)
  let row := fun l => cutWords fmt wx ww (s.pickLine p (wy + l))
  let ws := s.delivered c (s.streamFmt i) (s.streamWidth i) (s.streamHeight i) x.line row
  let cs := chunks 1024 ws
  let lastPart := decide (cs.length ≤ x.part + 1)
  let lastLine := decide (oh ≤ x.line + 1)
  let s := onlyIf (x.part == 0) (fun t =>
    let last := t.lastLine c wh oh
    forAll ((upto wh).filter fun l => decide (l ≤ last x.line) && (x.line == 0 || decide (last (x.line - 1) < l))) (fun l u => u.fetchPick p (wy + l)) t) s
  let s := s.sendPacket i 1 x.line (x.part == 0) lastPart (videoFlags lastLine x.frame x.part) (cs.getD x.part [])
  if lastPart ∧ lastLine then
    let n := x.next_
    let s := (s.unpin p.slip (egressReader i)).onEgress i fun y =>
      { y with line := 0, part := 0, show_ := n, next_ := none, frame := if n.isSome then (y.frame + 1) % 4 else y.frame }
    match n with | some q => s.pinPick q (egressReader i) | none => s
  else s.onEgress i fun y => if lastPart then { y with line := y.line + 1, part := 0 } else { y with part := y.part + 1 }

/-- An egress port sends the next packet of outgoing stream `i` (R130, R155, R183, R201): of the frame selected, else of the oldest
`LINE` descriptor of the stream in a queue whose consumer is the stream's port, once every such queue has lost its stale lines. -/
def egressPacketSend (i : Nat) (s : State) : State :=
  match s.outFeeder i, (s.egress i).show_ with
  | some e, some p => s.sendFromSlip i e p
  | _, _ =>
    let qs := s.queuesTo 1 (s.lead (s.streamPort i))
    let s := forAll qs (fun q t => t.dropStale 131072 q t.clock.stroke.toNat) s
    match qs.find? fun q => (s.queue q).held.head?.any fun r => (Desc.ofRec r).stream == i with
    | some q =>
      match s.takeLine q s.clock.stroke.toNat (fun d => d.stream == i) with
      | (some d, s) =>
        let part := if d.first then 0 else (s.egress i).part
        let eof := d.eof || decide (s.streamHeight i ≤ d.line + 1)
        (s.sendPacket i 1 d.line d.first d.last (videoFlags eof d.stroke part) (s.descWords d) d.poison).onEgress i fun y => { y with part := part + 1 }
      | (none, s) => s
    | none => s

end Sys2Proof.Machine
end

