-- ==== Sys2Proof/Machine/Heads.lean ====
section
/-! DEFINITION. Composition heads: timing (R268 to R271), the layer pipeline (R272 to R279), zone statistics (R280), commits at the
gate line (R281 to R284), flips and gangways (R285 to R289), covered layers and crabs (R290 to R292), mode changes (R293 to R297)
and events (R298). What a watch head does beyond is in `Watch`. -/

namespace Sys2Proof.Machine

/-! ### Access -/

/-- Head `h`. -/
def State.head (s : State) (h : Nat) : HeadSt := nget (fun _ => HeadSt.init) s.hed.heads h

/-- Change head `h`. -/
def State.onHead (s : State) (h : Nat) (g : HeadSt → HeadSt) : State :=
  { s with hed := { s.hed with heads := nset (fun _ => HeadSt.init) s.hed.heads h (g (s.head h)) } }

/-- Layer slot `k` of head `h`. -/
def State.lay (s : State) (h k : Nat) : LaySt := nget (fun _ => LaySt.init) (s.head h).lays k

/-- Change layer slot `k` of head `h`. -/
def State.onLay (s : State) (h k : Nat) (g : LaySt → LaySt) : State :=
  s.onHead h fun x => { x with lays := nset (fun _ => LaySt.init) x.lays k (g (nget (fun _ => LaySt.init) x.lays k)) }

/-- The layer slots of a head. -/
def State.slotsOf (s : State) (h : Nat) : List Nat := upto (s.headLayers h)

/-- The current line of a head. -/
def State.headLine (s : State) (h : Nat) : Nat := s.f (Reg.headPos h) 28 16

/-- Raise an event of a head: its line, and its number in the data field (R463, R301). -/
def State.raiseHead (s : State) (e : Ev) (h data : Nat) : State := s.raiseRaw e.src e.code h (s.headLine h) (h + data)

/-- The reader number of a layer among the readers of a slip (R201). -/
def layReader (h k : Nat) : Nat := 8 * h + k

/-! ### Timing (R268 to R271) -/

def State.hActive (s : State) (h : Nat) : Nat := s.f (Reg.headHTiming h) 12 0
def State.hTotal (s : State) (h : Nat) : Nat := s.f (Reg.headHTiming h) 28 16
def State.vActive (s : State) (h : Nat) : Nat := s.f (Reg.headVTiming h) 12 0
def State.vTotal (s : State) (h : Nat) : Nat := s.f (Reg.headVTiming h) 28 16
def State.ratioP (s : State) (h : Nat) : Nat := s.f (Reg.headRatio h) 6 4
def State.ratioQ (s : State) (h : Nat) : Nat := s.f (Reg.headRatio h) 2 0
def State.headOffset (s : State) (h : Nat) : Nat := s.f (Reg.headOffset h) 26 0

/-- The gate line (R270). -/
def State.gateLine_ (s : State) (h : Nat) : Nat :=
  let g := s.f (Reg.headGate h) 12 0
  if g = 0 then s.vActive h else g

/-- The numerator of f_pix, over `pixDen` (R268). -/
def State.pixNum (s : State) (h : Nat) : Nat := s.hTotal h * s.vTotal h * s.clock.rateNum * s.ratioP h

/-- The denominator of f_pix. -/
def State.pixDen (s : State) (h : Nat) : Nat := max 1 (s.clock.rateDen * s.ratioQ h)

/-- f_pix in kHz, as `HEAD_nn_PIXCLK` reports it. -/
def State.pixKHz (s : State) (h : Nat) : Nat := s.pixNum h / (1000 * s.pixDen h)

/-- f_pix of a head per stroke rate, in units of 1 / 420: exact for every `Q`. -/
def State.pixParts (s : State) (h : Nat) : Nat := s.hTotal h * s.vTotal h * s.ratioP h * (420 / max 1 (s.ratioQ h))

/-- The f_pix of the enabled heads sum to at most 24 Gpixel/s at the stroke rate `num` ÷ `den` (R271). -/
def State.pixSumOk (s : State) (num den : Nat) : Bool :=
  (((upto 64).filter fun h => s.headOn h && s.b (Reg.headCtrl h) 0).map s.pixParts).foldl (· + ·) 0 * num ≤ 24000000000 * 420 * den

/-- The limits of R268, R270 and R271. -/
def State.timingOk (s : State) (h : Nat) : Bool :=
  let p := s.ratioP h
  let q := s.ratioQ h
  let g := s.f (Reg.headGate h) 12 0
  let t := (s.rd (Reg.synTarget (s.headSyn h))).toNat * 1000 * s.pixDen h
  64 ≤ s.hActive h && s.hActive h ≤ 3840 && s.hActive h % 2 == 0 && s.hActive h + 64 ≤ s.hTotal h
    && 16 ≤ s.vActive h && s.vActive h ≤ 2160 && s.vActive h + 8 ≤ s.vTotal h
    && 1 ≤ p && p ≤ 4 && 1 ≤ q && q ≤ 4 && Nat.gcd p q == 1
    && s.headOffset h ≤ s.strokeNs
    && (g == 0 || (s.vActive h ≤ g && g + 4 ≤ s.vTotal h))
    && s.pixNum h ≤ 600000000 * s.pixDen h && 4 * s.pixNum h ≤ t && t ≤ 256 * s.pixNum h
    && s.pixSumOk s.clock.rateNum s.clock.rateDen

/-- The timing registers of two states agree for a head. -/
def sameTiming (s t : State) (h : Nat) : Bool :=
  [Reg.headHTiming h, Reg.headVTiming h, Reg.headRatio h, Reg.headOffset h, Reg.headGate h].all fun a => s.rd a == t.rd a

/-- The head's pixel synthesizer drives it: from its first lock on a watch head scans on whatever its synthesizer does (R84, R88,
R89), a re-acquisition that `RELOCK` starts included (R90). -/
def State.headClock (s : State) (h : Nat) : Bool :=
  let y := s.synState (s.headSyn h)
  (y == 2 || y == 3 || (s.watchHead h && (y == 4 || (y == 1 && (s.synOf (s.headSyn h)).relock)))) && !((s.synOf (s.headSyn h)).halted && !s.watchHead h)

/-- The head scans: active, enabled, with timing and clock, and in RUNNING, or in FIRST_LIGHT as a watch head (R40, R297). -/
def State.headRuns (s : State) (h : Nat) : Bool :=
  s.headOn h && s.b (Reg.headCtrl h) 0 && 0 < s.hTotal h && 0 < s.vTotal h && s.headClock h
    && (s.running || (s.loadState == 2 && s.watchHead h))

/-- The scheduled time, in 50 ps, of a frame of a group: its boundary plus `OFFSET`, and for later frames their intervals at the stroke
rate in force (R269, R523). -/
def State.frameTime (s : State) (h : Nat) (d : Nat × Nat) : Nat :=
  d.1 + 20 * s.headOffset h + d.2 * s.ratioQ h * 20000000000 * s.clock.rateDen / max 1 (s.ratioP h * s.clock.rateNum)

/-- A boundary whose number is a multiple of `Q` starts the next group of `P` frames: later frames of the group before that have not
started are not started (R523); its first, which an `OFFSET` of a whole stroke puts here, is. -/
def State.newGroup (s : State) (h : Nat) : State :=
  if s.clock.stroke.toNat % max 1 (s.ratioQ h) = 0 then
    s.onHead h fun x =>
      { x with due := (x.due.filter fun d => d.2 == 0 && s.clock.boundary ≤ s.frameTime h d)
                        ++ (upto (s.ratioP h)).map fun k => (s.clock.boundary, k) }
  else s

/-- A frame of the head starts in the stroke in progress (R269, R285). -/
def State.flipsNow (s : State) (h : Nat) : Bool :=
  (s.head h).due.any fun d => s.frameTime h d < s.clock.boundary + s.clock.len

/-! ### Rectangles -/

/-- A rectangle: left, top, width, height. -/
structure Rect where
  x : Nat
  y : Nat
  w : Nat
  h : Nat
deriving DecidableEq, Repr

/-- A position and a size register as a rectangle (R299, R300, R323). -/
def rectOf (pos size : Word) : Rect := { x := bf pos 12 0, y := bf pos 28 16, w := bf size 12 0, h := bf size 28 16 }

/-- A pixel lies in a rectangle. -/
def Rect.has (r : Rect) (x y : Nat) : Bool := r.x ≤ x && x < r.x + r.w && r.y ≤ y && y < r.y + r.h

/-- A rectangle lies wholly in another. -/
def Rect.inside (a b : Rect) : Bool := b.x ≤ a.x && b.y ≤ a.y && a.x + a.w ≤ b.x + b.w && a.y + a.h ≤ b.y + b.h

/-- Two rectangles share a pixel. -/
def Rect.meets (a b : Rect) : Bool := a.x < b.x + b.w && b.x < a.x + a.w && a.y < b.y + b.h && b.y < a.y + a.h

/-- The rectangle of a layer. -/
def State.layRect (s : State) (h k : Nat) : Rect := rectOf (s.rd (Reg.headLayPos h k)) (s.rd (Reg.headLaySize h k))

/-- The rectangle of lookout region `r`. -/
def State.lkRect (s : State) (h r : Nat) : Rect := rectOf (s.rd (Reg.headLkPos h r)) (s.rd (Reg.headLkSize h r))

/-- The lookout regions of a head that are valid. -/
def State.regions (s : State) (h : Nat) : List Nat := (upto 16).filter fun r => s.b (Reg.headLkCfg h r) 31

/-- The kind of a region: 0 OBSERVE, 1 FIXED, 2 TELLTALE (R310). -/
def State.lkKind (s : State) (h r : Nat) : Nat := s.f (Reg.headLkCfg h r) 30 29

/-- The icons of a watch head. -/
def State.icons (s : State) (h : Nat) : List Nat := if s.watchHead h then (upto 64).filter fun i => s.b (Reg.headTtCfg h i) 31 else []

/-- The width and height of an icon-store image (R304). -/
def State.imageSize (s : State) (m : Nat) : Nat × Nat := (s.f (Reg.iconDirWord m 0) 15 0, s.f (Reg.iconDirWord m 0) 31 16)

/-- The cell of an icon: its position, and the size of its images (R303). -/
def State.iconRect (s : State) (h i : Nat) : Rect :=
  let (w, v) := s.imageSize (s.f (Reg.headTtCfg h i) 15 8)
  { x := s.f (Reg.headTtCell h i) 12 0, y := s.f (Reg.headTtCell h i) 28 16, w := w, h := v }

/-- A pixel inside an icon cell, or inside a region of kind FIXED or TELLTALE: unity gain and no dither (R305). -/
def State.lookoutAt (s : State) (h x y : Nat) : Bool :=
  ((s.icons h).any fun i => (s.iconRect h i).has x y)
    || (s.regions h).any fun r => (s.lkKind h r == 1 || s.lkKind h r == 2) && (s.lkRect h r).has x y

/-! ### Layers: what they read -/

def State.layOn (s : State) (h k : Nat) : Bool := s.b (Reg.headLayCfg h k) 31
def State.layGwyOn (s : State) (h k : Nat) : Bool := s.b (Reg.headLayCfg h k) 30
def State.layGrp (s : State) (h k : Nat) : Nat := s.f (Reg.headLayCfg h k) 29 28
def State.lay444 (s : State) (h k : Nat) : Bool := s.b (Reg.headLayCfg h k) 26
def State.layZ (s : State) (h k : Nat) : Nat := s.f (Reg.headLayCfg h k) 18 16
def State.layAlpha (s : State) (h k : Nat) : Nat := s.f (Reg.headLayCfg h k) 9 0

/-- The taken crossing that feeds a layer. -/
def State.layFeeder (s : State) (h k : Nat) : Option Nat := s.feeder 0 (s.layerNum h k)

/-- The hold slip of a layer (R287). -/
def State.holdSlip (s : State) (h k : Nat) : Option Nat :=
  if s.b (Reg.headLayHold h k) 10 then some (s.f (Reg.headLayHold h k) 9 0) else none

/-- A crossing to a slip's or stream's reader that carries watch content: it is marked, or it feeds a layer of a watch head (R210). -/
def State.watchFed (s : State) (c : Crossing) : Bool := c.kind ≤ 1 && (c.watch || (c.dstKind == 0 && s.watchLayer c.dst))

/-- A watch head reads slip `k` (R210): the chart says so, or it is the landing slip of a watch crossing's source, or the hold slip of
a watch head's layer. -/
def State.watchSlip (s : State) (k : Nat) : Bool :=
  s.b (Reg.fstSlipCfg k) 30
    || (s.liveEntries.any fun i => s.watchFed (s.crossing i) && s.landingSlip (s.crossing i).src == some k)
    || ((upto 64).any fun h => s.headOn h && s.watchHead h && (s.slotsOf h).any fun j => s.holdSlip h j == some k)

/-- Slip `k` is written at this time: as the landing slip of a stream, by a crossing, as the hold slip of a layer that shows its live
source, or by a job (R155, R171, R231, R287). -/
def State.slipFed (s : State) (k : Nat) : Bool :=
  ((upto 2048).any fun i => s.streamIs i 0 false && s.landing i == some k && !s.sourceStopped i)
    || (match s.feeder 2 k with | some e => !s.sourceStopped (s.crossing e).src | none => false)
    || (((upto 64).filter s.headOn).any fun h => (upto (s.headLayers h)).any fun i =>
        s.holdSlip h i == some k && (s.lay h i).next == .live
          && (match s.feeder 0 (s.layerNum h i) with | some e => !s.sourceStopped (s.sourceNow (s.crossing e).src) | none => false))
    || s.jik.flight.any fun f => match f.2.out with | some o => o.1 == k | none => false

/-- Slips that nothing writes, and those whose source has stopped, discard the frame in progress and follow no source (R155, R175,
R199). -/
def State.discardStopped (s : State) : State :=
  forAll (s.slips.map (·.1)) (fun k t =>
    if t.slipFed k then t else (t.discardFilling k).onSlip k fun x => { x with lastFrame := none, lastCap := none, skipping := none }) s

/-- The newest complete frame of a layer's hold slip, through the window of the live source it holds (R287). -/
def State.holdPick (s : State) (h k : Nat) : LayShow :=
  match (s.holdSlip h k).bind fun j => (s.completes j).head?.map (s.pickOne j) with
  | some p => .frame p (s.lay h k).view
  | none => .nothing

/-- The window through which crossing `e` shows its source now (R156, R176). -/
def State.viewOf (s : State) (e : Nat) : View :=
  let c := s.crossing e
  let (x, y, w, h) := s.windowNow c
  { fmt := s.streamFmt (s.sourceNow c.src), x := x, y := y, w := w, h := h }

/-- The pins of a layer on every slip but those of the frames in `keep` go (R201). -/
def State.layUnpin (s : State) (h k : Nat) (keep : List LayShow) : State :=
  let r := layReader h k
  let s := forAll (s.slips.map (·.1)) (fun j t =>
    if (t.slots j).any fun i => (t.slot j i).pins.contains r then t.unpin j r else t) s
  forAll keep (fun x t => match x with
    | .frame p _ => (((t.pin p.slip p.newer r).pin p.slip p.older r)).showSlip p.slip
    | _ => t) s

/-! ### Flips (R285 to R289) -/

/-- A layer takes part in flips: enabled, not switched off, not covered (R283, R290). -/
def State.layFlips (s : State) (h k : Nat) : Bool :=
  s.layOn h k && !s.b (Reg.headLayStat h k) 28 && !s.b (Reg.headLayStat h k) 30

/-- A layer's path is the cut-through one. -/
def State.layLive (s : State) (e : Nat) : Bool := (s.crossing e).kind == 0 && !(s.entry e).slipPath

/-- A window scaled for a substitute breaks the ratio limits, so the layer repeats (R176). -/
def State.layNarrowed (s : State) (h k e : Nat) : Bool :=
  let c := s.crossing e
  let (_, _, w, v) := s.windowNow c
  s.sourceNow c.src != c.src && !(ratioOk w (s.layRect h k).w && ratioOk v (s.layRect h k).h)

/-- The source of crossing `e` stands stopped for a layer: a slip that holds nothing but its preload image is shown even so (R175,
R202). -/
def State.laySourceGone (s : State) (e : Nat) : Bool :=
  let c := s.crossing e
  (s.sourceStopped c.src && !(match s.readSlip e with | some n => s.preloaded n | none => false))
    || (c.kind == 0 && (s.entry e).slipPath && (s.landingSlip (s.sourceNow c.src)).isNone)

/-- Why a layer is not ready at a flip point, 0 when it is (R287, R289): 1 gangway, 2 source stopped, 3 lane lost, 4 no candidate, 5
path. The second part: the layer turns off under `BLANK_ON_LOSS` (R175). -/
def State.layCause (s : State) (h k : Nat) : Nat × Bool :=
  match s.layFeeder h k with
  | none =>
    if s.xtb.blanks.contains (s.layerNum h k) then (0, true)
    else (if (s.lay h k).next = .nothing then 0 else 2, decide ((s.lay h k).next = .nothing))
  | some e =>
    let c := s.crossing e
    if s.laySourceGone e then (if c.blankOnLoss then (0, true) else (2, false))
    else if s.laneLost (s.sourceNow c.src) then (3, false)
    else if s.layLive e then (0, false)
    else if s.layGwyOn h k && s.rd (Reg.headLayGangway h k) == BitVec.ofNat 32 (s.lay h k).gwy then (1, false)
    else match s.readSlip e with
      | some n =>
        if (s.completes n).isEmpty then ((if (s.lay h k).moved then 5 else 4), false)
        else if s.counts n (s.lay h k).back then (0, false) else (4, false)
      | none => (4, false)

/-- A layer that is not ready repeats (R287): a slip layer its frame, a cut-through layer the newest frame of its hold slip. -/
def State.layRepeat (s : State) (h k : Nat) : LayShow :=
  match (s.lay h k).next with
  | .live => s.holdPick h k
  | x => x

/-- The frames whose pins a layer keeps while a frame that shows them has yet to reach its gate line (R201). -/
def State.layKeep (s : State) (h k : Nat) : List LayShow :=
  if (s.head h).scan && !(s.head h).gated then [(s.lay h k).now] else []

/-- `STAT` of a layer: `HELD` and its cause. -/
def State.showHeld (s : State) (h k cause : Nat) : State :=
  (s.setB (Reg.headLayStat h k) 29 (cause != 0)).setF (Reg.headLayStat h k) 18 16 cause

/-- One layer is decided at a flip point: off, not ready with a cause, or flipped (R285 to R289). -/
def State.flipLayer (s : State) (h k cause : Nat) (off : Bool) : State :=
  let keep := s.layKeep h k
  if off then
    ((s.layUnpin h k keep).onLay h k fun x => { x with next := .nothing, flipped := true }).showHeld h k 0
  else if cause ≠ 0 then
    let r := s.layRepeat h k
    let s := ((s.onLay h k fun x => { x with next := r, flipped := true }).layUnpin h k (r :: keep)).showHeld h k cause
    let told := (s.lay h k).told
    onlyIf (!told) (fun t => t.raiseHead .layerHeld h (k * 2 ^ 8 + cause * 2 ^ 12)) (s.onLay h k fun x => { x with told := true })
  else
    match s.layFeeder h k with
    | none => s
    | some e =>
      let done := fun (n : LayShow) (t : State) =>
        (t.onLay h k fun x =>
          { x with next := n, told := false, moved := false, flipped := true, gwy := (t.rd (Reg.headLayGangway h k)).toNat }).showHeld h k 0
      if s.layLive e then
        let s := s.layUnpin h k keep
        ((s.onLay h k fun x => { x with next := .live, view := s.viewOf e, told := false, moved := false, flipped := true }).showHeld h k 0)
      else match s.readSlip e with
        | some n =>
          let last := match (s.lay h k).next with | .frame p _ => some p | _ => none
          match s.selectFrame n (s.crossing e).xform (layReader h k) last with
          | (some p, s) => (done (.frame p (s.viewOf e)) s).layUnpin h k (.frame p (s.viewOf e) :: keep)
          | (none, s) => s
        | none => s

/-- A layer's path as its crossing has it now; a move from cut-through to the slip is remembered until it flips (R174, R287), and a
gangway on a cut-through layer is marked ignored (R286). -/
def State.layPath (s : State) (h k : Nat) : State :=
  match s.layFeeder h k with
  | none => s
  | some e =>
    let slip := !s.layLive e
    let was := s.b (Reg.headLayStat h k) 26
    let s := if slip && !was && decide ((s.lay h k).next = .live) then s.onLay h k fun x => { x with moved := true } else s
    (s.setB (Reg.headLayStat h k) 26 slip).setB (Reg.headLayStat h k) 27 (!slip && s.layGwyOn h k)

/-- A layer repeats its last frame because a substitute's window breaks its ratio limits (R176). -/
def State.repeatLayer (s : State) (h k : Nat) : State :=
  let r := s.layRepeat h k
  (s.onLay h k fun x => { x with next := r, flipped := true }).layUnpin h k (r :: s.layKeep h k)

/-- The boundaries at which a layer's source stands stopped (R175). -/
def State.layMarkGone (s : State) (h k : Nat) : State :=
  match s.layFeeder h k with
  | some e => if s.laySourceGone e then s.onLay h k fun x => { x with back := s.clock.boundary } else s
  | none => s

/-- The flip point of a head: every layer is decided, atomic groups repeat together (R285 to R289). -/
def State.flipHead (s : State) (h : Nat) : State :=
  let s := forAll (s.slotsOf h) (fun k t => (t.layPath h k).layMarkGone h k) s
  let narrow := fun k => match s.layFeeder h k with | some e => s.layNarrowed h k e && !s.laySourceGone e | none => false
  let s := forAll ((s.slotsOf h).filter fun k => s.layFlips h k && narrow k) (fun k t => t.repeatLayer h k) s
  let ks := (s.slotsOf h).filter fun k => s.layFlips h k && !narrow k
  let why := ks.map fun k => (k, s.layCause h k)
  let heldGroups := ((why.filter fun e => e.2.1 ≠ 0).map fun e => s.layGrp h e.1).filter (· ≠ 0)
  let s := forAll why (fun e t =>
    let slip := match t.layFeeder h e.1 with | some i => !t.layLive i | none => false
    let grouped := e.2.1 == 0 && !e.2.2 && slip && heldGroups.contains (t.layGrp h e.1)
    t.flipLayer h e.1 (if grouped then 6 else e.2.1) e.2.2) s
  forAll ((s.slotsOf h).filter fun k => !s.layFlips h k) (fun k t =>
    ((t.layUnpin h k (t.layKeep h k)).onLay h k fun x => { x with next := .nothing, flipped := true }).showHeld h k 0) s

/-! ### The picture (R272 to R280) -/

/-- The window through which a layer shows its source in the frame in progress. -/
def State.layView (s : State) (h k : Nat) : Option View :=
  match (s.lay h k).now with
  | .frame _ v => some v
  | .live => (s.layFeeder h k).map s.viewOf
  | .nothing => none

/-- A source line as a layer's row holds it: what its window `v` shows, converted to the storage form and scaled to the layer's width
(R272, R273, R275). -/
def State.rowPlanes (s : State) (h k : Nat) (v : View) (ws : List Lane) : Planes :=
  let out2020 := s.b (Reg.headOutCfg h) 8
  let csc := s.rd (Reg.headLayCsc h k)
  let conv := fun (p : Pix) =>
    if bit csc 8 then
      customMatrix ((upto 9).map fun i => signed 16 (s.f (Reg.headLayMat h k i) 15 0))
        ((upto 3).map fun i => signed 12 (s.f (Reg.headLayMatOff h k i) 11 0)) p
    else toStorage v.fmt (bit csc 4) (bit csc 0) out2020 p
  s.hScaleLine (s.f (Reg.headLayFilt h k) 3 0) (s.layRect h k).w (storeForm v.fmt (s.lay444 h k) conv (cutWords v.fmt v.x v.w ws))

/-- A row of no pixels. -/
def Planes.none : Planes := { y := [], cb := [], cr := [], half := false }

/-- Line `l` of a layer's window, where a row holds it whole. -/
def State.layRow (s : State) (h k l : Nat) : Option Planes :=
  ((s.lay h k).rows.find? fun r => r.2.full && r.2.line == l).map (·.2.px)

/-- Row `key` of a layer's line buffer takes `r`. -/
def State.putRow (s : State) (h k key : Nat) (r : RowSt) : State := s.onLay h k fun x => { x with rows := nput key r x.rows }

/-- The words that stand in row `key` of a layer. -/
def State.rowWords (s : State) (h k key : Nat) : List Lane := match nfind key (s.lay h k).rows with | some r => r.words | none => []

/-- No row of a layer holds a line whole. -/
def LaySt.emptied (x : LaySt) : LaySt := { x with rows := x.rows.map fun r => (r.1, { r.2 with full := false }) }

/-! ### Rows: live lines arrive, frames are fetched (R276, R291, R292) -/

/-- A layer's line buffer takes live lines: the frame in progress shows them, or after its gate line the next frame does. -/
def State.rowsLive (s : State) (h k : Nat) : Bool :=
  decide ((if (s.head h).scan && !(s.head h).gated then (s.lay h k).now else (s.lay h k).next) = .live)

/-- Line `l` of a live source is complete in row `l` mod 5 (R276): words that no packet brought are what the row held before (R137). -/
def State.closeRow (s : State) (h k : Nat) (v : View) (l : Nat) : State :=
  let ws := s.rowWords h k (l % 5)
  s.putRow h k (l % 5) { line := l, full := true, words := ws, px := s.rowPlanes h k v ws }

/-- The lines before line `l` of the frame that arrives are complete. DEDUCED: a line that a later one has passed counts as arrived,
with what its row held (R137: "never as a blank"). -/
def State.closeRows (s : State) (h k : Nat) (v : View) (l : Nat) : State :=
  match (s.lay h k).frame with
  | some (f, o) =>
    (forAll ((upto l).filter fun i => decide (o ≤ i) && decide (l ≤ i + 5)) (fun i t => t.closeRow h k v i) s).onLay h k fun x =>
      { x with frame := some (f, max o l) }
  | none => s

/-- Part `part` of line `l` of the window of crossing `e` arrives for a layer on the cut-through path (R276): with the part that is the
`LAST` of its line the line is complete. The first packet of another frame leaves no line whole. -/
def State.liveRow (s : State) (h k e frame l part : Nat) (last : Bool) (ws : List Lane) : State :=
  let v := s.viewOf e
  let s := if (s.lay h k).frame.map (·.1) = some frame then s else s.onLay h k fun x => { x.emptied with frame := some (frame, 0) }
  let late := match (s.lay h k).frame with | some (_, o) => decide (l < o) | none => false
  let s := s.closeRows h k v (min l v.h)
  if v.h ≤ l then s
  else
    let s := s.putRow h k (l % 5) { line := l, full := false, words := splice (s.rowWords h k (l % 5)) ws (1024 * part), px := Planes.none }
    if late then s.closeRow h k v l else if last then s.closeRows h k v (l + 1) else s

/-- A slip layer fetches line `l` of its window into a row that the lines `need` leave free, unless a row holds it (R276, R291). -/
def State.fetchRow (s : State) (h k : Nat) (p : Pick) (v : View) (need : List Nat) (l : Nat) : State :=
  if (s.layRow h k l).isSome then s
  else
    let free := (upto 5).find? fun i => match nfind i (s.lay h k).rows with | some r => !(r.full && need.contains r.line) | none => true
    let ws := s.pickLine p (v.y + l)
    (s.fetchPick p (v.y + l)).putRow h k (free.getD 4) { line := l, full := true, words := ws, px := s.rowPlanes h k v ws }

/-- A slip layer fetches the rows that line `y` of its output needs (R291). -/
def State.fetchRows (s : State) (h k y : Nat) : State :=
  match (s.lay h k).now with
  | .frame p v =>
    let need := tapRows v.h (s.layRect h k).h y
    forAll need (fun l t => t.fetchRow h k p v need l) s
  | _ => s

/-- The layer shows in the frame in progress. -/
def State.layShows (s : State) (h k : Nat) : Bool :=
  s.layOn h k && !s.b (Reg.headLayStat h k) 28 && !s.b (Reg.headLayStat h k) 30 && !(s.lay h k).crab && decide ((s.lay h k).now ≠ .nothing)

/-- A row that line `y` of a layer needs is not there (R292). -/
def State.layMissing (s : State) (h k y : Nat) : Bool :=
  match s.layView h k with
  | none => decide ((s.lay h k).now = .live)
  | some v => (tapRows v.h (s.layRect h k).h y).any fun l => (s.layRow h k l).isNone

/-- The pixels of line `y` of a layer (R272). -/
def State.layLine (s : State) (h k y : Nat) : List Pix :=
  match s.layView h k with
  | none => []
  | some v =>
    (s.vScaleLine (s.f (Reg.headLayFilt h k) 7 4) v.h (s.layRect h k).h y fun l => (s.layRow h k l).getD Planes.none).pixels

/-- α′ (R278). -/
def alphaOf (a : Nat) : Nat := if a = 1023 then 1024 else a

/-- One component blended (R278). -/
def blend1 (below l a : Nat) : Nat := ((below : Int) + (((l : Int) - below) * a + 512) / 1024).toNat

/-- A pixel blended over the result so far (R278). -/
def blendPix (a : Nat) (below l : Pix) : Pix := (blend1 below.1 l.1 a, blend1 below.2.1 l.2.1 a, blend1 below.2.2 l.2.2 a)

/-- The background (R278). -/
def background : Pix := (64, 512, 512)

/-- The layers that show, from the bottom up (R278). -/
def State.zOrder (s : State) (h : Nat) : List Nat :=
  sortBy (fun a b => decide (s.layZ h a ≤ s.layZ h b)) ((s.slotsOf h).filter (s.layShows h))

/-- Line `y` of the head crosses a layer. -/
def State.layAt (s : State) (h k y : Nat) : Bool :=
  let r := s.layRect h k
  r.y ≤ y && y < r.y + r.h

/-- Before a frame's first line each slip layer fetches the rows that its own first line needs; no row of another source is a live
layer's (R291). DEDUCED: at the frame start, since the flip that selects the frame may come with it. -/
def State.prefetch (s : State) (h : Nat) : State :=
  forAll (s.slotsOf h) (fun k t =>
    match (t.lay h k).now with
    | .frame _ _ =>
      let t := t.onLay h k fun x => { x.emptied with frame := none }
      if t.layShows h k then t.fetchRows h k 0 else t
    | .live => if (t.lay h k).frame.isNone then t.onLay h k LaySt.emptied else t
    | .nothing => t) s

/-- During output line `y` each slip layer fetches the rows that its next line needs (R291). -/
def State.fetchNext (s : State) (h y : Nat) : State :=
  forAll (s.zOrder h) (fun k t => if t.layAt h k y && t.layAt h k (y + 1) then t.fetchRows h k (y + 1 - (t.layRect h k).y) else t) s

/-- Line `y` of the head after blending (R278). -/
def State.blendLine (s : State) (h y : Nat) : List Pix :=
  (s.zOrder h).foldl (fun l k =>
    let r := s.layRect h k
    if s.layAt h k y then
      let px := s.layLine h k (y - r.y)
      l.zipIdx.map fun e =>
        if r.x ≤ e.2 ∧ e.2 < r.x + r.w then (match px[e.2 - r.x]? with | some p => blendPix (alphaOf (s.layAlpha h k)) e.1 p | none => e.1)
        else e.1
    else l) (List.replicate (s.hActive h) background)

/-- A pixel of an icon-store image (R304, R196: 1.5 words a pixel, each line from a 16-byte boundary). -/
def State.imagePixels (s : State) (m y : Nat) : List Pix :=
  let (w, _) := s.imageSize m
  let pitch := (20 * (3 * w / 2) + 127) / 128 * 16
  let base := (s.rd (Reg.iconDirWord m 1)).toNat + y * pitch
  let bytes := (upto ((20 * (3 * w / 2) + 7) / 8)).map fun i =>
    BitVec.ofNat 8 (s.f (Reg.iconStoreWord ((base + i) / 4)) (8 * ((base + i) % 4) + 7) (8 * ((base + i) % 4)))
  triples (compsOf (unpackWords (3 * w / 2) bytes))

/-- The image an icon shows in the frame (R303, R309). -/
def State.iconImage (s : State) (h i : Nat) : Nat :=
  if (s.head h).onIcons.contains i then s.f (Reg.headTtCfg h i) 15 8 else s.f (Reg.headTtCfg h i) 7 0

/-- Stage 1 of R279: the tell-tale plane of a watch head. -/
def State.iconLine (s : State) (h y : Nat) (l : List Pix) : List Pix :=
  (s.icons h).foldl (fun l i =>
    let r := s.iconRect h i
    if r.y ≤ y ∧ y < r.y + r.h then
      let px := s.imagePixels (s.iconImage h i) (y - r.y)
      l.zipIdx.map fun e => if r.x ≤ e.2 ∧ e.2 < r.x + r.w then px.getD (e.2 - r.x) e.1 else e.1
    else l) l

/-- The zone of a pixel, in raster order; with an empty grid there is none (R280). -/
def State.zoneOf (s : State) (h x y : Nat) : Option Nat :=
  let zx := s.f (Reg.headZoneCfg h) 21 16
  let zy := s.f (Reg.headZoneCfg h) 4 0
  if zx = 0 ∨ zy = 0 ∨ s.hActive h = 0 ∨ s.vActive h = 0 then none
  else some (y * zy / s.vActive h * zx + x * zx / s.hActive h)

/-- The compensation gain of a pixel in 1/1,024 (R359, R360, R305). -/
def State.gainAt (s : State) (h x y : Nat) : Nat :=
  if s.lookoutAt h x y then 1024
  else match s.zoneOf h x y with | some z => nget (fun _ => 1024) (s.head h).gains z | none => 1024

/-- Stage 2 of R279 (R359). -/
def gainPix (g : Nat) (p : Pix) : Pix :=
  let f := fun (o : Int) (v : Nat) => clamp10 (o + (((v : Int) - o) * g + 512) / 1024)
  (f 64 p.1, f 512 p.2.1, f 512 p.2.2)

/-- Stages 4 and 5 of R279 of one component of a pixel. -/
def State.finish (s : State) (h x y : Nat) (v : Int) (c : Nat) : Nat :=
  let g := s.rd (Reg.headGain h c)
  let v := clamp10 ((v * bf g 27 16 + 512) / 1024 + signed 11 (bf g 10 0))
  let o := s.rd (Reg.headOutCfg h)
  if bit o 0 then
    let mode := bf o 5 4
    let d := if mode = 0 ∨ mode = 3 ∨ s.lookoutAt h x y then 2
      else (Config.ditherAt (if mode = 2 then s.f (Reg.headPos h) 15 0 % 4 else 0) (x % 4) (y % 4)).toNat
    min 1020 ((v + d) / 4 * 4)
  else v

/-- The words of an output line from its pixels (R279 stages 2 to 5); `plain` for a mute frame's background. -/
def State.outLine (s : State) (h y : Nat) (l : List Pix) : List Lane :=
  let o := s.rd (Reg.headOutCfg h)
  let l := l.zipIdx.map fun e => gainPix (s.gainAt h e.2 y) e.1
  packComps ((outComps (s.streamFmt (s.f (Reg.headCfg h) 10 0)) (bit o 8) (bit o 7) l).map fun e => s.finish h e.2.2 y e.1 e.2.1)

/-- A signature in progress takes the words of a line (R311): three bytes for each word. -/
def sigWords (c : Word) (ws : List Lane) : Word := (ws.flatMap fun w => leBytes 3 w.toNat).foldl crcByte c

/-- The rectangles whose signatures a frame carries: regions, and icon cells under 16 + i (R311). -/
def State.sigRects (s : State) (h : Nat) : List (Nat × Rect) :=
  ((s.regions h).map fun r => (r, s.lkRect h r)) ++ (s.icons h).map fun i => (16 + i, s.iconRect h i)

/-- The signatures take line `y` (R311). -/
def State.sigLine (s : State) (h y : Nat) (ws : List Lane) : State :=
  let fmt := s.streamFmt (s.f (Reg.headCfg h) 10 0)
  s.onHead h fun x => { x with
    sigs := (s.sigRects h).foldl (fun m e =>
      if e.2.y ≤ y ∧ y < e.2.y + e.2.h then nput e.1 (sigWords (nget (fun _ => 0xFFFFFFFF) m e.1) (cutWords fmt e.2.x e.2.w ws)) m else m) x.sigs }

/-- The zone statistics take line `y`: maximum, sum and count of Y (R280). -/
def State.zoneLine (s : State) (h y : Nat) (l : List Pix) : State :=
  s.onHead h fun x => { x with
    zones := l.zipIdx.foldl (fun m e =>
      match s.zoneOf h e.2 y with
      | some z =>
        let (a, b, c) := nget (fun _ => (0, 0, 0)) m z
        nput z (max a e.1.1, b + e.1.1, c + 1) m
      | none => m) x.zones }

/-- The packets of stream `i` among `l`, by line and part, that the read-back receivers of its group decode: undamaged ones (R312). -/
def decodedParts (i : Nat) (l : List Out) : List (Nat × Nat) :=
  l.filterMap fun o => match o with
    | .packet _ bs false 0 =>
      let p := Packet.parse bs
      if p.typ = 1 ∧ p.stream = i then some (p.line, p.flags % 8) else none
    | _ => none

/-- The receivers decode what a group sends: every lane of its width sends. A lane lost, or a narrowed group, leaves words undecoded
(R109, R312). -/
def State.readsBack (s : State) (p : Nat) : Bool := (s.txLanes p).length == s.bondWidth p && (s.txLanes p).all s.laneSends

/-- Line `y` of a watch head has gone to its port, `was` being the state before: which of its packets, and of earlier ones, have not been
decoded (R312). -/
def State.readBack (s was : State) (h y parts : Nat) : State :=
  let i := s.f (Reg.headCfg h) 10 0
  let got := if s.readsBack (s.lead (s.streamPort i)) then decodedParts i (s.out.drop was.out.length) else []
  s.onHead h fun x => { x with rbMiss := (x.rbMiss ++ (upto parts).map fun k => (y, k)).filter fun e => !got.contains e }

/-- An active line is composed and handed to the port (R266, R279, R294). -/
def State.scanLine (s : State) (h y : Nat) : State :=
  let i := s.f (Reg.headCfg h) 10 0
  let mute := (s.head h).mute
  let l := if mute then List.replicate (s.hActive h) background else s.iconLine h y (s.blendLine h y)
  let ws := s.outLine h y l
  let s := if mute then s else forAll ((s.zOrder h).filter fun k => s.layAt h k y) (fun k t => t.onLay h k fun x => { x with shown := true })
    (s.sigLine h y ws)
  let s := s.zoneLine h y l
  let t := s.sendLine i y (s.f (Reg.headPos h) 15 0) (y + 1 == s.vActive h) ws
  if s.watchHead h && !mute then t.readBack s h y (chunks 1024 ws).length else t

/-! ### Frames and lines (R269, R291, R292, R296, R298) -/

/-- A head's events that `HEAD_nn_EVT_EN` gates (R298). -/
def State.raiseGated (s : State) (e : Ev) (h b data : Nat) : State :=
  onlyIf (s.b (Reg.headEvtEn h) b) (fun t => t.raiseHead e h data) s

/-- `HEAD_LINE_MATCH` at the start of a line (R298). -/
def State.lineMatch (s : State) (h : Nat) : State :=
  if s.headLine h = s.f (Reg.headLineMatch h) 12 0 then s.raiseGated .headLineMatch h 1 0 else s

/-- Layers crab at the start of line `y` (R292): counted, reported once in the frame. -/
def State.crabs (s : State) (h y : Nat) (ks : List Nat) : State :=
  let s := forAll ks (fun k t =>
    ((t.onLay h k fun x => { x with crab := true }).countErr (Reg.headLayCrabCnt h k) 24 1).countErr (Reg.headUnderrunCnt h) 24 1) s
  if ks.isEmpty || (s.head h).crabTold then s
  else (s.onHead h fun x => { x with crabTold := true }).raiseGated .headUnderrun h 3 (ks.foldl (fun a k => a + 2 ^ (8 + k)) 0 + y * 2 ^ 16)

/-- The words of a `LINE` descriptor go into a layer's row (R183, R276): those of its `FIRST` begin the line, those of its `LAST` complete
it. -/
def State.descRow (s : State) (h k e : Nat) (d : Desc) (ws : List Lane) : State :=
  let v := s.viewOf e
  let l := d.line - v.y
  let ws := if d.first then ws else s.rowWords h k (l % 5) ++ ws
  s.putRow h k (l % 5) { line := l, full := d.last, words := ws, px := if d.last then s.rowPlanes h k v ws else Planes.none }

/-- A `LINE` descriptor that has come for the head goes into the rows of the layers whose crossing reads its stream (R183, R276). -/
def State.headQueues (s : State) (h : Nat) : State :=
  forAll (s.queuesTo 2 h) (fun q t =>
    match t.takeLine q (t.head h).stroke (fun _ => true) with
    | (some d, t) =>
      let ws := t.descWords d
      forAll (t.slotsOf h) (fun k u =>
        match u.layFeeder h k with
        | some e =>
          let (_, wy, _, _) := u.windowNow (u.crossing e)
          if u.sourceNow (u.crossing e).src = d.stream ∧ wy ≤ d.line then u.descRow h k e d ws else u
        | none => u) t
    | (none, t) => t) s

/-! ### Commits (R281 to R284) -/

/-- An address of head `h`'s space. -/
def headAddr (h a : Nat) : Bool := Reg.headCfg h ≤ a && a < Reg.headCfg h + 0x4000

/-- An address of layer slot `k` of head `h`. -/
def layAddr (h k a : Nat) : Bool := Reg.headLayId h k ≤ a && a < Reg.headLayId h k + 0x80

/-- A coefficient set is there: the built-in one, or one that a chart has placed (R274). -/
def State.coefSet (s : State) (k : Nat) : Bool := k == 0 || s.regs.any fun e => Reg.coefWord k 0 ≤ e.1 && e.1 < Reg.coefWord k 0 + 0x800

/-- The geometry rules of R276. -/
def State.geomOk (s : State) (h k : Nat) : Bool :=
  let r := s.layRect h k
  r.x % 2 == 0 && r.w % 2 == 0 && r.x + r.w ≤ s.hActive h && r.y + r.h ≤ s.vActive h

/-- Why a layer of the state `n` that a commit would put in force fails, 0 when it passes (R283, R300). -/
def State.layFault (n : State) (h k : Nat) : Nat :=
  let r := n.layRect h k
  let row := if n.b (Reg.headLayId h k) 31 then 4096 else 2048
  let ratio := match n.layFeeder h k with
    | some e => let (w, v) := n.window (n.crossing e); ratioOk w r.w && ratioOk v r.h
    | none => true
  if (if n.lay444 h k then 2 * row < 3 * r.w else row < r.w) then 1
  else if !n.geomOk h k then 2
  else if !ratio then 3
  else if n.layOn h k && (n.slotsOf h).any fun j => j != k && n.layOn h j && n.layZ h j == n.layZ h k then 4
  else if !(n.coefSet (n.f (Reg.headLayFilt h k) 3 0) && n.coefSet (n.f (Reg.headLayFilt h k) 7 4)) then 5
  else 0

/-- What the checks of R283 say of a head: the whole commit refused, or the layers refused with their reasons. -/
def commitCheck (s n : State) (h : Nat) : Bool × List (Nat × Nat) :=
  let modeOk := !s.watchHead h || sameTiming s n h || s.b (Reg.headWatch h) 31
  if !n.timingOk h || !modeOk then (true, (n.slotsOf h).map fun k => (k, 7))
  else
    let bad := ((n.slotsOf h).map fun k => (k, n.layFault h k)).filter fun e => e.2 ≠ 0
    let grps := (bad.map fun e => n.layGrp h e.1).filter (· ≠ 0)
    let more := ((n.slotsOf h).filter fun k => !(bad.any fun e => e.1 == k) && grps.contains (n.layGrp h k)).map fun k => (k, 6)
    (false, bad ++ more)

/-- The state in which every `SH` register of a head holds what its shadow holds (R282). -/
def State.copied (s : State) (h : Nat) : State := s.takeShadows (headAddr h)

/-- Layers that break R276 against the timing in force are switched off, the others no longer are (R283). -/
def State.judgeOutside (s : State) (h : Nat) : State :=
  forAll (s.slotsOf h) (fun k t => t.setB (Reg.headLayStat h k) 28 (t.layOn h k && !t.geomOk h k)) s

/-- A commit that passed takes effect, but for the layers refused, which keep their state in force (R283). A new ratio blanks the head
until the first frame of its new schedule, which is mute (R293). -/
def State.applyCommit (s : State) (h : Nat) (bad : List Nat) : State :=
  let n := s.copied h
  let back := s.regs.filter fun e => bad.any fun k => layAddr h k e.1
  let cleared := n.regs.filter fun e => !(bad.any fun k => layAddr h k e.1)
  let n := { n with regs := back.foldl (fun (m : NMap Word) (e : Nat × Word) => nput e.1 e.2 m) cleared }
  let ratio := s.rd (Reg.headRatio h) != n.rd (Reg.headRatio h)
  (if ratio then n.onHead h fun x => { x with muteNext := true, due := [] } else n).judgeOutside h

/-- The result of a commit in `HEAD_nn_COMMIT_STATUS` and `COMMIT_STROKE`, with its events (R282, R283). -/
def State.reportCommit (s : State) (h seq : Nat) (whole : Bool) (bad : List (Nat × Nat)) : State :=
  let mask := if whole then 0 else bad.foldl (fun a e => a + 2 ^ e.1) 0
  let st := s.rd (Reg.headCommitStatus h)
  let st := setFld (setFld (setBit (setBit st 31 false) 29 whole) 23 16 mask) 15 0 seq
  let n := s.clock.stroke.toNat
  let s := ((s.wr (Reg.headCommitStatus h) st).wr (Reg.headCommitStrokeLo h) (BitVec.ofNat 32 n)).wr (Reg.headCommitStrokeHi h) (BitVec.ofNat 32 (n / 2 ^ 32))
  let s := forAll bad (fun e t => t.setF (Reg.headLayStat h e.1) 7 0 e.2) s
  let s := onlyIf whole (fun t => t.raiseHead .headModeRefused h 0) s
  let s := onlyIf (mask != 0) (fun t => t.raiseHead .geometryRefused h (mask * 2 ^ 8)) s
  s.onHead h fun x => { x with pend := none }

/-- Commits of one head, or of several at their shared gate line, where one refusal refuses all (R282 to R284). -/
def State.commitHeads (s : State) (hs : List Nat) (seq : Nat) (sync : Bool) : Bool × State :=
  let n := hs.foldl (fun t h => t.copied h) s
  let rs := hs.map fun h => (h, commitCheck s n h)
  let refused := rs.any fun r => r.2.1 || !r.2.2.isEmpty
  (refused, forAll rs (fun r t =>
    let whole := r.2.1 || (sync && refused)
    let t := if whole then t.reloadShadows (headAddr r.1) else t.applyCommit r.1 (r.2.2.map (·.1))
    t.reportCommit r.1 seq r.2.1 r.2.2) s)

/-- A write of `GO` to `HEAD_nn_COMMIT` (R281): it waits for the next gate line to begin. -/
def headCommit (h : Nat) (w : Word) (s : State) : State :=
  if !bit w 31 || !s.headOn h then s
  else
    let was := (s.head h).pend.isSome
    let s := s.onHead h fun x => { x with pend := some (bf w 15 0) }
    if was then s
    else (s.setB (Reg.headCommitStatus h) 31 true).setB (Reg.headCommitStatus h) 30 (s.head h).gated

/-- The heads named by the mask of R284. -/
def State.syncHeads (s : State) : List Nat :=
  (upto 64).filter fun h => s.headOn h && (if h < 32 then s.b Reg.hedSyncMaskLo h else s.b Reg.hedSyncMaskHi (h - 32))

/-- A write of `GO` to `HED_SYNC_COMMIT` (R284): heads whose gate lines begin together commit together, others not at all. -/
def hedSyncCommit (w : Word) (s : State) : State :=
  if !bit w 31 then s
  else
    let hs := s.syncHeads
    let same := match hs with
      | [] => false
      | g :: r => r.all fun h =>
        [Reg.headHTiming 0, Reg.headVTiming 0, Reg.headRatio 0, Reg.headOffset 0, Reg.headGate 0].all fun a =>
          s.rd (a + 0x4000 * h) == s.rd (a + 0x4000 * g)
    if same then
      let s := forAll hs (fun h t => t.setB (Reg.headCommitStatus h) 30 (t.head h).gated) s
      { s with hed := { s.hed with sync := some hs, ready := [] } }.wr Reg.hedSyncStat (BitVec.ofNat 32 (2 ^ 31 + bf w 15 0))
    else { s with hed := { s.hed with sync := none, ready := [] } }.wr Reg.hedSyncStat (BitVec.ofNat 32 (2 ^ 30 + bf w 15 0))

/-- A host write of a layer's gangway (R286). -/
def gangwayWrite (h k : Nat) (w : Word) (s : State) : State :=
  if s.running && s.watchHead h then s else s.wr (Reg.headLayGangway h k) (w &&& fmask 19 0)

/-- A `GANGWAY` packet: every layer whose crossing reads the stream takes the value (R286). -/
def State.gangwayPacket (s : State) (i v : Nat) : State :=
  forAll ((upto 64).filter s.headOn) (fun h t => forAll (t.slotsOf h) (fun k u =>
    match u.layFeeder h k with
    | some e => if u.sourceNow (u.crossing e).src = i then u.wr (Reg.headLayGangway h k) (BitVec.ofNat 32 (v % 2 ^ 20)) else u
    | none => u) t) s

/-! ### The gate line (R270, R280, R290, R298) -/

/-- The statistics of the frame close (R280). -/
def State.closeZones (s : State) (h : Nat) : State :=
  let zs := (s.head h).zones
  let s := forAll zs (fun (e : Nat × Nat × Nat × Nat) t =>
    t.wr (Reg.headZone h e.1) (BitVec.ofNat 32 (e.2.1 * 2 ^ 16 + (openDiv 16 e.2.2.1 (max 1 e.2.2.2)).toNat))) s
  s.onHead h fun x => { x with zones := [] }

/-- A layer lets go of what it has selected and shows nothing from the next frame on (R290, R297). -/
def State.layDrop (s : State) (h k : Nat) : State := (s.onLay h k fun x => { x with next := .nothing, now := .nothing }).layUnpin h k []

/-- Layers wholly under an opaque enabled layer are covered: they select and pin nothing (R290). -/
def State.judgeCovered (s : State) (h : Nat) : State :=
  let on := fun k => s.layOn h k && !s.b (Reg.headLayStat h k) 28
  forAll (s.slotsOf h) (fun k t =>
    let c := on k && (s.slotsOf h).any fun j =>
      j != k && on j && s.layAlpha h j == 1023 && s.layZ h k < s.layZ h j && (s.layRect h k).inside (s.layRect h j)
    let t := t.setB (Reg.headLayStat h k) 30 c
    if c then t.layDrop h k else t) s

/-- A layer keeps its frame past the gate line: it has selected it since for the next frame, it repeats it, or a gangway or a group may
make it repeat while newer frames come (R201, R287). -/
def State.keepsPin (s : State) (h k : Nat) : Bool :=
  (s.lay h k).flipped || s.b (Reg.headLayStat h k) 29 || s.layGwyOn h k || s.layGrp h k != 0

/-- The pins of the frame scanned are released (R201, R298 step 3). DEDUCED: where R287 may have the layer repeat a frame that is no
longer the newest, which "stays pinned", the pin stays to the next flip point. -/
def State.releasePins (s : State) (h : Nat) : State :=
  forAll (s.slotsOf h) (fun k t => t.layUnpin h k (if t.keepsPin h k then [(t.lay h k).next] else [])) s

/-- The heads whose registers the gate line of `h` may change: the synchronised set of which it is the last to reach the shared gate line
(R284), else itself. -/
def State.commitSet (s : State) (h : Nat) : List Nat :=
  match s.hed.sync with
  | some hs => if hs.contains h && hs.all (fun g => g == h || s.hed.ready.contains g) then hs else [h]
  | none => [h]

/-- Step 4 of R298: the head takes any commit, or, as the last of a synchronised set to reach the shared gate line, the set does. -/
def State.takeCommit (s : State) (h : Nat) : State :=
  match s.hed.sync with
  | some hs =>
    if hs.contains h then
      let ready := if s.hed.ready.contains h then s.hed.ready else s.hed.ready ++ [h]
      if hs.all ready.contains then
        let seq := s.f Reg.hedSyncStat 15 0
        let (refused, s) := { s with hed := { s.hed with sync := none, ready := [] } }.commitHeads hs seq true
        s.wr Reg.hedSyncStat (BitVec.ofNat 32 ((if refused then 2 ^ 29 else 0) + seq))
      else { s with hed := { s.hed with ready := ready } }
    else match (s.head h).pend with | some q => (s.commitHeads [h] q false).2 | none => s
  | none => match (s.head h).pend with | some q => (s.commitHeads [h] q false).2 | none => s

/-- The layers of a head that a commit has disabled let go of their frames (R297); the head stops at the end of its frame. -/
def State.stopDisabled (s : State) (h : Nat) : State :=
  if s.b (Reg.headCtrl h) 0 then s
  else forAll (s.slotsOf h) (fun k t => t.layDrop h k) s

/-- A head whose clock has stopped, or that is disabled and has ended its frame, scans no more (R88, R297). -/
def State.haltHead (s : State) (h : Nat) : State :=
  forAll (s.slotsOf h) (fun k t => t.layDrop h k)
    (s.onHead h fun x => { x with scan := false, gated := false, started := false, due := [] })

/-- The heads, other than watch heads, on synthesizer `i` stop (R88). -/
def State.haltHeads (s : State) (i : Nat) : State :=
  forAll ((upto 64).filter fun h => s.headOn h && !s.watchHead h && s.headSyn h == i) (fun h t => t.haltHead h) s

/-! ### A line (R291, R292, R297, R298) -/

/-- The rows of line `y` are looked at (R291, R292). `fetch` gives, by slot, how many sixteenths of a line before its line a slip layer's
free row was complete, 0 where it is not: below `TIDE` the layer was under the tide mark, at 0 it crabs. -/
def State.rowsDue (s : State) (h y : Nat) (fetch : List (Fin 8 × Nat)) : State :=
  let left := fun k => match fetch.find? (·.1.val == k), (s.lay h k).now with | some e, .frame _ _ => e.2 | _, _ => 64
  let ks := (s.zOrder h).filter fun k => s.layAt h k y
  let s := forAll ks (fun k t => t.onLay h k fun x => { x with tide := decide (left k < max 1 (t.f (Reg.headLayTide h k) 5 0)) }) s
  s.crabs h y (sortBy (fun a b => decide (a ≤ b)) (ks.filter fun k => left k == 0 || s.layMissing h k (y - (s.layRect h k).y)))

/-- A head starts a line, in the order of R298. A head that a commit disabled stops where its frame ends (R297). -/
def headLineStart (h : Nat) (fetch : List (Fin 8 × Nat)) (s : State) : State :=
  let x := s.head h
  let y := if x.started then s.headLine h + 1 else 0
  if !x.scan || !s.headClock h then s
  else if x.lines ≤ y && !s.b (Reg.headCtrl h) 0 then s.haltHead h
  else
    let s := (s.setF (Reg.headPos h) 28 16 (min 8191 y)).onHead h fun x => { x with started := true }
    let s := if y = s.vActive h ∧ !x.gated then (s.raiseGated .headFrameDone h 2 0).raiseGated .headBlankStart h 0 0 else s
    let s := if y = s.gateLine_ h ∧ !x.gated then s else s.lineMatch h
    if s.vActive h ≤ y ∨ x.gated then s
    else if x.mute then s.scanLine h y
    else (((s.headQueues h).rowsDue h y fetch).scanLine h y).fetchNext h y

end Sys2Proof.Machine
end

