-- ==== Sys2Proof/Machine/Watch.lean ====
section
/-! DEFINITION. Watch heads and tell-tales: pins and requests (R306 to R309), lookout comparison and proof (R310 to R314), verdicts
and `FAULT_N` (R315 to R317), marked zones (R318), regions of other heads (R319); and the frame start and the gate line of every
head (R269, R298), of which they are part. -/

namespace Sys2Proof.Machine

/-! ### Pins (R307) -/

/-- An accepted value follows the sampled one. -/
def ttPinAccept (p : Nat) (s : State) : State :=
  if s.b Reg.ttPinAcc p = s.b Reg.ttPinRaw p then s else s.setB Reg.ttPinAcc p (s.b Reg.ttPinRaw p)

/-- The 10 µs sample of pin `p` differs from the one before; `level` is the ball's level (R307). With `TT_FILTER` 0 each sample is
accepted. -/
def ttPinChange (p : Nat) (level : Bool) (s : State) : State :=
  let s := s.setB Reg.ttPinRaw p (level != s.b Reg.ttPinPol p)
  if s.f Reg.ttFilter 3 0 = 0 then ttPinAccept p s else s

/-! ### Requests and blinking (R306, R308, R309) -/

/-- The state an icon's sources ask for: 0 OFF, 1 ON, 2 BLINK_1, 3 BLINK_2 (R306). -/
def State.iconAsked (s : State) (h i : Nat) : Nat :=
  let c := s.rd (Reg.headTtCfg h i)
  let r := s.f (Reg.headTtReq h (i / 16)) (2 * (i % 16) + 1) (2 * (i % 16))
  let p := if s.b Reg.ttPinAcc (bf c 25 21) then bf c 28 27 else 0
  match bf c 30 29 with
  | 1 => p
  | 2 => max r p
  | _ => r

/-- The state of an icon in force. -/
def State.iconState (s : State) (h i : Nat) : Nat := s.f (Reg.headTtState h i) 17 16

/-- The icons of a head take their states at its gate line (R308); a request that starts a blink starts its count with the next
frame (R309). -/
def State.takeIcons (s : State) (h : Nat) : State :=
  forAll (s.icons h) (fun i t =>
    let a := t.iconAsked h i
    let new := decide (2 ≤ a) && a != t.iconState h i
    (t.setF (Reg.headTtState h i) 17 16 a).onHead h fun x =>
      { x with blinkNew := if new then (if x.blinkNew.contains i then x.blinkNew else x.blinkNew ++ [i])
                 else if a < 2 then x.blinkNew.filter (· ≠ i) else x.blinkNew }) s

/-- The period of a blink in strokes: the stroke rate over the blink rate, to the nearest integer, at least 2 (R309). -/
def State.blinkPeriod (s : State) (state : Nat) : Nat :=
  let hz := if state = 2 then 1 else 2
  max 2 ((2 * s.clock.rateNum + s.clock.rateDen * hz) / (2 * s.clock.rateDen * hz))

/-- An icon shows ON in a frame that starts at the stroke in force, or in its stroke for lamps and chimes (R308, R309). -/
def State.iconOn (s : State) (h i : Nat) : Bool :=
  let a := s.iconState h i
  if a < 2 then a == 1
  else
    let b := s.blinkPeriod a
    let n := s.clock.stroke.toNat
    let start := if (s.head h).blinkNew.contains i then n else nget (fun _ => 0) (s.head h).blink i
    decide ((n + 2 ^ 48 - start) % 2 ^ 48 % b < (b + 1) / 2)

/-- An ON phase of a blinking icon starts at the stroke in force, but for the one with which its blink begins (R309). -/
def State.blinkOn (s : State) (h i : Nat) : Bool :=
  !(s.head h).blinkNew.contains i
    && (s.clock.stroke.toNat + 2 ^ 48 - nget (fun _ => 0) (s.head h).blink i) % 2 ^ 48 % s.blinkPeriod (s.iconState h i) == 0

/-! ### Verdicts (R312 to R316) -/

/-- The watch heads. -/
def State.watchHeads (s : State) : List Nat := (upto 64).filter fun h => s.headOn h && s.watchHead h

/-- `FAULT_N` follows the faults of the watch heads (R316, R485). -/
def State.showFault (s : State) : State := s.setB Reg.glbFault 1 (s.watchHeads.any fun h => s.b (Reg.headWatchStat h) 31)

/-- The proof target of a watch head: 1 A, 2 B, 3 C. -/
def State.target (s : State) (h : Nat) : Nat := s.f (Reg.headWatch h) 29 28

/-- The level in force follows a final frame's level (R314). -/
def State.levelTake (s : State) (h level avail : Nat) : State :=
  let t := s.target h
  let old := s.f (Reg.headWatchStat h) 29 28
  let n := if t ≤ level then (s.head h).atTarget + 1 else 0
  let new := if old = 0 ∨ level < old then min level t else if old < t ∧ 8 ≤ n then t else old
  let s := (s.onHead h fun x => { x with atTarget := min n 8 }).setF (Reg.headWatchStat h) 29 28 new
  if new < t ∧ (old = 0 ∨ new < old) then
    (s.setB (Reg.headWatchStat h) 2 true).raiseHead .proofReduced h (new * 2 ^ 8 + avail / 2 ^ 8 % 32 * 2 ^ 16)
  else if new = t ∧ 0 < old ∧ old < t then s.raiseHead .proofRestored h 0 else s

/-- The BAD frames in a row that set the fault of a watch head; where the chart places 0, the default of R316. DEDUCED. -/
def State.missLimit (s : State) (h : Nat) : Nat :=
  let n := s.f (Reg.headWatch h) 27 24
  if n = 0 then 2 else n

/-- A verdict becomes final (R316). DEDUCED: a BAD one known while the `GLASS` message is awaited counts level C as available. -/
def State.final (s : State) (h : Nat) (f : WFrame) : State :=
  let isBad := f.bad != 0 || f.cells != 0 || f.timing
  let level := if f.waitC then 3 else f.level
  let avail := if f.waitC then f.avail ||| 4 else f.avail
  let s := s.wr (Reg.headWatchAvail h) (BitVec.ofNat 32 avail)
  let s := s.wr (Reg.headWatchLast h) (BitVec.ofNat 32 (isBad.toNat * 2 ^ 31 + f.timing.toNat * 2 ^ 30 + level * 2 ^ 28 + f.stroke % 65536))
  let s := ((s.wr (Reg.headWatchLastMask h) (BitVec.ofNat 32 f.bad)).wr (Reg.headWatchCellLo h) (BitVec.ofNat 32 f.cells)).wr
    (Reg.headWatchCellHi h) (BitVec.ofNat 32 (f.cells / 2 ^ 32))
  let s := forAll ((upto 16).filter f.bad.testBit) (fun r t => t.countErr (Reg.headLkMissCnt h r) 16 1) s
  let st := Reg.headWatchStat h
  let s := if isBad then
      let run := min (s.f st 27 24 + 1) 15
      let s := (((s.setF st 27 24 run).onHead h fun x => { x with clean := 0 }).countErr (Reg.headWatchBadCnt h) 16 1).setB st 1 true
      let s := s.raiseHead .lookoutBad h (f.bad * 2 ^ 16 + (f.cells != 0).toNat * 2 ^ 15 + f.timing.toNat * 2 ^ 14)
      if s.missLimit h ≤ run ∧ !s.b st 31 then
        (((s.setB st 31 true).setB st 0 true).raiseHead .watchMismatch h 0).showFault
      else s
    else
      let clean := min ((s.head h).clean + 1) 255
      let s := (s.setF st 27 24 0).onHead h fun x => { x with clean := clean }
      if s.b st 31 && !s.b (Reg.headWatch h) 30 && decide (8 ≤ clean) then (s.setB st 31 false).showFault else s
  s.levelTake h level avail

/-- Verdicts become final in frame order: a BAD one at once, another when nothing is awaited (R315). -/
def State.settle : Nat → State → Nat → State
  | 0, s, _ => s
  | n + 1, s, h =>
    match (s.head h).frames with
    | [] => s
    | f :: r =>
      if f.waitC && f.bad == 0 && f.cells == 0 && !f.timing then s
      else ((s.onHead h fun x => { x with frames := r }).final h f).settle n h

/-- Settle what can be settled. -/
def State.settleAll (s : State) (h : Nat) : State := s.settle (s.head h).frames.length h

/-! ### The comparison at the gate line (R311 to R313, R319) -/

/-- The signature of a rectangle of the frame. -/
def State.sigOf (s : State) (h k : Nat) : Nat := (nget (fun _ => 0xFFFFFFFF) (s.head h).sigs k ^^^ 0xFFFFFFFF).toNat

/-- The signatures appear in their registers. -/
def State.showSigs (s : State) (h : Nat) : State :=
  let s' := forAll (s.regions h) (fun r t => t.wr (Reg.headLkSig h r) (BitVec.ofNat 32 (s.sigOf h r))) s
  forAll (s.icons h) (fun i t =>
    let on := (s.head h).onIcons.contains i
    let sig := s.sigOf h (16 + i)
    let bad := sig != (s.rd (if on then Reg.headTtExpOn h i else Reg.headTtExpOff h i)).toNat
    (t.wr (Reg.headTtSig h i) (BitVec.ofNat 32 sig)).setB (Reg.headTtState h i) 30 bad) s'

/-- Which icons showed their ON image in the frame that ends: none in a mute frame, which has no plane (R294, R324). -/
def State.showOn (s : State) (h : Nat) : State :=
  forAll (s.icons h) (fun i t => t.setB (Reg.headTtState h i) 31 (!(s.head h).mute && (s.head h).onIcons.contains i)) s

/-- A mask of the numbers that satisfy a test. -/
def maskOf (l : List Nat) (p : Nat → Bool) : Nat := (l.filter p).foldl (fun a r => a + 2 ^ r) 0

/-- The FIXED regions whose signature differs from the one expected (R312, R319). -/
def State.fixedBad (s : State) (h : Nat) : Nat :=
  maskOf (s.regions h) fun r => s.lkKind h r == 1 && s.sigOf h r != (s.rd (Reg.headLkExpect h r)).toNat

/-- The output port of a head, as the lead port of its group. -/
def State.outPort (s : State) (h : Nat) : Nat := s.lead (s.streamPort (s.f (Reg.headCfg h) 10 0))

/-- The read-back receivers on the lanes of a group (R117, R118). -/
def State.receivers (s : State) (p : Nat) : List Nat :=
  (upto 32).filter fun k => s.b (Reg.prtRbCfg k) 31 && (s.lanes p).contains (s.f (Reg.prtRbCfg k) 8 0)

/-- Every lane of the head's output group has a read-back receiver with `SYNC` at this time. -/
def State.rbSynced (s : State) (h : Nat) : Bool :=
  let p := s.outPort h
  (s.lanes p).all fun q => (s.receivers p).any fun k => s.f (Reg.prtRbCfg k) 8 0 == q && s.b (Reg.prtRbStat k) 31

/-- They have had it throughout the frame: level B is available (R313). -/
def State.rbAvailable (s : State) (h : Nat) : Bool := !(s.head h).rbOut && s.rbSynced h

/-- A word of region `r` stands in a packet of the frame that was not decoded: it is placed by its line and part (R311, R312). -/
def State.rbLost (s : State) (h r : Nat) : Bool :=
  let k := s.lkRect h r
  let f := fun v => if s.streamFmt (s.f (Reg.headCfg h) 10 0) = 0 then v else 3 * v / 2
  (s.head h).rbMiss.any fun e => k.y ≤ e.1 && e.1 < k.y + k.h && f k.x < 1024 * (e.2 + 1) && 1024 * e.2 < f (k.x + k.w)

/-- The read-back signature of region `r` (R312): `none` where a word of it was not decoded. What the receivers decode is what the head
handed to the port, but for the differences on the pads that `rb` brings. -/
def State.rbSig (s : State) (h r : Nat) (rb : List (Fin 16 × Option Word)) : Option Word :=
  if s.rbLost h r then none
  else match rb.find? fun e => e.1.val == r with
    | some e => e.2
    | none => some (BitVec.ofNat 32 (s.sigOf h r))

/-- A signature register whose value the spec does not state: a free value. -/
def State.sigOpen (s : State) (a : Nat) : State :=
  let (v, s) := s.fresh 32
  s.wr a v

/-- What keeps level C from being available, as bits 9 to 11 of `WATCH_AVAIL` (R313). -/
def State.glassLacks (s : State) (h : Nat) : Nat :=
  let p := s.outPort h
  let top := ((s.regions h).filter fun r => s.b (Reg.headLkCfg h r) 28).foldl (fun a r => max a (r + 1)) 0
  (if s.version p < 3 ∨ !s.feature p 4 then 2 ^ 9 else 0)
    + (if s.b (Reg.fldUnitStat p) 31 && s.f (Reg.fldUnitStat p) 30 29 == 2 then 0 else 2 ^ 10)
    + (if s.f (Reg.prtLinkStat p) 4 0 < top then 2 ^ 11 else 0)

/-- A frame's `GLASS` message has come: its signatures are compared with the head's, where the target asks for it (R312, R313). -/
def State.glassFrame (s : State) (h : Nat) (f : WFrame) (mask : Nat) (crcs : Nat → Nat) : WFrame :=
  let gl := (s.regions h).filter fun r => s.b (Reg.headLkCfg h r) 28
  if gl.any fun r => !mask.testBit r then { f with waitC := false, avail := f.avail ||| 2 ^ 12 }
  else
    { f with waitC := false, avail := f.avail ||| 4, level := min 3 (s.target h)
             bad := if s.target h = 3 then f.bad ||| maskOf gl fun r => crcs r != nget (fun _ => 0) f.sigs r else f.bad }

/-- The signatures of a `GLASS` message appear beside those of its frame (R323). -/
def State.showGlass (s : State) (h mask : Nat) (crcs : Nat → Nat) : State :=
  forAll ((s.regions h).filter mask.testBit) (fun r u => u.wr (Reg.headLkGlassSig h r) (BitVec.ofNat 32 (crcs r))) s

/-- The read-back and glass signatures of the frame compared (R323). The spec states none where a word was not decoded, nor until the
`GLASS` message of the frame has come. -/
def State.showProof (s : State) (h : Nat) (rb : List (Fin 16 × Option Word)) : State :=
  let s := if (s.receivers (s.outPort h)).isEmpty then s
    else forAll (s.regions h) (fun r u => match s.rbSig h r rb with
      | some w => u.wr (Reg.headLkRbSig h r) w
      | none => u.sigOpen (Reg.headLkRbSig h r)) s
  match (s.head h).glass with
  | some (mask, m) => s.showGlass h mask (nget (fun _ => 0) m)
  | none => forAll ((s.regions h).filter fun r => s.b (Reg.headLkCfg h r) 28) (fun r u => u.sigOpen (Reg.headLkGlassSig h r)) s

/-- A watch head's frame is compared (R312 to R315). -/
def State.compareWatch (s : State) (h : Nat) (rb : List (Fin 16 × Option Word)) : State :=
  let t := s.target h
  let rbOk := s.rbAvailable h
  let badB := if 2 ≤ t ∧ rbOk then
      maskOf (s.regions h) fun r => (s.lkKind h r == 1 || s.lkKind h r == 2) && s.rbSig h r rb != some (BitVec.ofNat 32 (s.sigOf h r))
    else 0
  let lacks := s.glassLacks h
  let f : WFrame :=
    { stroke := (s.head h).stroke, bad := s.fixedBad h ||| badB
      cells := maskOf (s.icons h) fun i => s.b (Reg.headTtState h i) 30
      timing := (s.head h).late || s.b (Reg.headWatchStat h) 30
      waitC := decide (t = 3) && lacks == 0, level := if 2 ≤ t ∧ rbOk then 2 else 1
      avail := 1 + (if rbOk then 2 else if (s.receivers (s.outPort h)).isEmpty then 0 else 2 ^ 8) + lacks
      sigs := (s.regions h).map fun r => (r, s.sigOf h r) }
  let f := match (s.head h).glass with
    | some (mask, m) => if lacks = 0 then s.glassFrame h f mask (nget (fun _ => 0) m) else f
    | none => f
  ((s.showProof h rb).onHead h fun x => { x with frames := x.frames ++ [f], seen := some (x.stroke % 65536) }).settleAll h

/-- A FIXED region of a head that is not a watch head is compared (R319). -/
def State.compareOther (s : State) (h : Nat) : State :=
  let bad := s.fixedBad h
  let s := forAll ((upto 16).filter bad.testBit) (fun r t => t.countErr (Reg.headLkMissCnt h r) 16 1) s
  onlyIf (bad != 0) (fun t => t.raiseHead .lookoutBad h (bad * 2 ^ 16)) s

/-- Step 1 of the gate line: the frame's signatures are compared, unless it is mute or cut (R294, R296, R298). -/
def State.compareFrame (s : State) (h : Nat) (cut : Bool) (rb : List (Fin 16 × Option Word)) : State :=
  if (s.head h).mute || cut then s
  else
    let s := s.showSigs h
    if s.watchHead h then s.compareWatch h rb else s.compareOther h

/-! ### The gate line and the frame start (R269, R296, R298) -/

/-- `SHOWN` of every layer: it contributed to the frame (R300). -/
def State.showLayers (s : State) (h : Nat) : State :=
  forAll (s.slotsOf h) (fun k t => t.setB (Reg.headLayStat h k) 31 (t.lay h k).shown) s

/-- What the head does at its gate line, in the order of R298. -/
def State.gateActions (s : State) (h : Nat) (cut : Bool) (rb : List (Fin 16 × Option Word)) : State :=
  let s := ((s.showLayers h).showOn h).compareFrame h cut rb
  let s := (s.closeZones h).onHead h fun x => { x with gated := true }
  let hs := s.commitSet h
  let s := ((s.releasePins h).takeCommit h).takeIcons h
  forAll hs (fun g t => (t.judgeCovered g).stopDisabled g) s

/-- A head reaches its gate line (R270, R298). -/
def gateLine (h : Nat) (rb : List (Fin 16 × Option Word)) (s : State) : State :=
  if (s.head h).scan && !(s.head h).gated then (s.gateActions h false rb).lineMatch h else s

/-- The frame in progress is cut by a shortened stroke (R296): the scan stops, its gate-line actions are taken, and it counts for no
proof. -/
def State.cutFrame (s : State) (h : Nat) : State :=
  let x := s.head h
  if !x.scan then s
  else
    let s := if !x.gated then s.gateActions h true []
      else if s.headLine h + 1 < x.lines then s.onHead h fun y => { y with frames := y.frames.filter fun f => f.stroke ≠ y.stroke }
      else s
    s.onHead h fun y => { y with scan := false }

/-- The next frame is due before the one in progress ends (R296). DEDUCED: by more than the 50 ppm that the divider takes up (R269). -/
def State.cutShort (s : State) (h : Nat) : Bool :=
  (s.head h).scan && s.headRuns h && match (s.head h).due with
    | d :: _ => decide (s.frameTime h d + (s.frameTime h (d.1, d.2 + 1) - s.frameTime h d) / 20000 < (s.head h).endAt)
    | [] => false

/-- The heads' schedules go on from the boundary, a frame that a shortened stroke leaves no time for is cut, and every head that starts a
frame in this stroke flips (R285, R296, R523). A head that does not run has no frame in progress. -/
def State.flipHeads (s : State) : State :=
  forAll ((upto 64).filter s.headOn) (fun h t =>
    let t := t.newGroup h
    let t := if t.cutShort h then t.cutFrame h else t
    if t.headRuns h && t.flipsNow h then t.flipHead h else t) s

/-- Every repeated frame of a layer counts (R289). -/
def State.countHeld (s : State) (h : Nat) : State :=
  forAll (s.slotsOf h) (fun k t =>
    if t.layFlips h k && t.b (Reg.headLayStat h k) 29 then t.countErr (Reg.headLayHeldCnt h k) 24 1 else t) s

/-- A head's scheduled frame start: the next frame of its group starts, none when every frame that is due has started (R269, R523).
`err` is how far the actual start lies from its schedule, in pixel clocks. How the divider's fraction is trimmed within its ±50 ppm
the spec does not state. -/
def headFrameStart (h : Nat) (err : Int) (s : State) : State :=
  let s := if s.headRuns h && !(s.head h).due.isEmpty then s.cutFrame h else s
  if !s.headRuns h then s else match (s.head h).due with
  | [] => s
  | d :: due =>
    let s := s.onHead h fun x => { x with due := due }
    let s := if err = 0 then s else
      let (v, s) := s.fresh 7
      s.onHead h fun x => { x with trim := clampI (-50) 50 v.toInt }
    let s := s.setI32 (Reg.headPhaseErr h) err
    let n := s.clock.stroke.toNat
    let s := s.onHead h fun x => { x with
      scan := true, started := false, gated := false, mute := x.muteNext, muteNext := false, stroke := n, lines := s.vTotal h,
      endAt := s.frameTime h (d.1, d.2 + 1)
      crabTold := false, sigs := [], zones := [], rbOut := !s.rbSynced h, rbMiss := [], glass := none, late := s.b (Reg.headWatchStat h) 30
      lays := (x.lays.map fun e => (e.1, { e.2 with now := e.2.next, crab := false, tide := false, shown := false, flipped := false })).filter fun e => decide (e.2 ≠ LaySt.init)
      onIcons := (s.icons h).filter fun i => s.iconOn h i
      gains := (s.lgt.gains.filter fun e => e.1 / 512 == h).map fun e => (e.1 % 512, e.2)
      blink := x.blinkNew.foldl (fun m i => nput i n m) x.blink, blinkNew := [] }
    let s := s.wr (Reg.headPos h) (BitVec.ofNat 32 ((s.f (Reg.headPos h) 15 0 + 1) % 65536))
    let s := s.countPerf (Reg.headFrames h) 31 1
    if (s.head h).mute then s else (s.countHeld h).prefetch h

/-! ### Glass (R147, R312, R313) -/

/-- A `GLASS` message arrives on a port (R147): late, it is counted and discarded; before the gate line of its frame it is kept for it. -/
def State.glassReceived (s : State) (p : Nat) (pl : List Byte) : State :=
  let st := leNat (pl.take 2)
  let mask := leNat ((pl.drop 2).take 2)
  let crcs := fun r => leNat ((pl.drop (4 + 4 * r)).take 4)
  if 1 < (s.stroke16 + 65536 - st) % 65536 then s.countErr (Reg.prtGlassLate p) 16 1
  else
    forAll (s.watchHeads.filter fun h => s.outPort h == p) (fun h t =>
      let x := t.head h
      let t := if x.seen = some st then t.showGlass h mask crcs else t
      let early := x.scan && !x.gated && !x.mute && x.stroke % 65536 == st
      (t.onHead h fun x => { x with
        glass := if early then some (mask, (t.regions h).map fun r => (r, crcs r)) else x.glass
        frames := x.frames.map fun f => if f.waitC && f.stroke % 65536 == st then t.glassFrame h f mask crcs else f }).settleAll h) s

/-- At a boundary the frames whose `GLASS` message can no longer come in time lose level C (R147, R313). -/
def State.glassLimit (s : State) : State :=
  forAll s.watchHeads (fun h t =>
    let n := t.clock.stroke.toNat
    (t.onHead h fun x => { x with
      frames := x.frames.map fun f => if f.waitC && decide (f.stroke + 2 ≤ n) then { f with waitC := false, avail := f.avail ||| 2 ^ 12 } else f }).settleAll h) s

/-! ### Timing, read-back, the icon store, marked zones -/

/-- A watch head's pixel synthesizer has stayed out of its phase window for more than 2 strokes (R89, R317): the frame in progress is BAD,
its verdict too where that is not final yet (R315). -/
def watchTiming (h : Nat) (s : State) : State :=
  if s.headOn h && s.watchHead h && !s.b (Reg.headWatchStat h) 30 then
    let s := ((s.setB (Reg.headWatchStat h) 30 true).onHead h fun x =>
      { x with late := true, frames := x.frames.map fun f => if f.stroke = x.stroke then { f with timing := true } else f }).raiseHead .watchTiming h 0
    s.settleAll h
  else s

/-- The pixel synthesizer declares lock: `TIMING` of its watch heads clears (R317). -/
def State.timingCleared (s : State) (i : Nat) : State :=
  forAll (s.watchHeads.filter fun h => s.headSyn h == i) (fun h t => t.setB (Reg.headWatchStat h) 30 false) s

/-- A read-back receiver loses sync: level B is not available for the frames in progress of its heads (R117, R313). -/
def rbSyncLost (k : Nat) (s : State) : State :=
  let p := s.f (Reg.prtRbCfg k) 8 0
  let s := s.setB (Reg.prtRbStat k) 31 false
  if s.b (Reg.prtRbCfg k) 31 then
    forAll (s.watchHeads.filter fun h => (s.lanes (s.outPort h)).contains p) (fun h t => t.onHead h fun x => { x with rbOut := true }) s
  else s

/-- An uncorrectable error in a word of an icon-store image (R304): reported for every watch head that uses the image; the word is
delivered as it is read. -/
def State.storeError (s : State) (m word : Nat) (v : Word) : State :=
  let s := s.wr (Reg.iconStoreWord (word % 2 ^ 19)) v
  forAll (s.watchHeads.filter fun h => (s.icons h).any fun i => s.f (Reg.headTtCfg h i) 15 8 == m || s.f (Reg.headTtCfg h i) 7 0 == m)
    (fun h t => (t.setB (Reg.headWatchStat h) 3 true).raiseHead .watchStoreErr h (m * 2 ^ 16)) s

/-- No zone of any head is marked. -/
def State.clearZones (s : State) : State :=
  { s with regs := s.regs.filter fun e =>
      e.1 < 0x200000 || 0x300000 ≤ e.1 || e.1 % 0x4000 < Reg.headWatchZones 0 0 % 0x4000 || Reg.headWatchZones 0 16 % 0x4000 ≤ e.1 % 0x4000 }

/-- The zone mask of a watch head (R318). -/
def State.markZones (s : State) (h : Nat) : State :=
  let zx := s.f (Reg.headZoneCfg h) 21 16
  let zy := s.f (Reg.headZoneCfg h) 4 0
  let rects := ((s.icons h).map (s.iconRect h)) ++ ((s.regions h).filter fun r => s.lkKind h r == 1 || s.lkKind h r == 2).map (s.lkRect h)
  if zx = 0 ∨ zy = 0 ∨ s.hActive h = 0 ∨ s.vActive h = 0 then s
  else forAll rects (fun r t =>
    if r.w = 0 ∨ r.h = 0 then t
    else
      let c0 := r.x * zx / s.hActive h
      let c1 := (r.x + r.w - 1) * zx / s.hActive h
      let r0 := r.y * zy / s.vActive h
      let r1 := (r.y + r.h - 1) * zy / s.vActive h
      forAll (upto (zx * zy)) (fun z u =>
        if c0 ≤ z % zx ∧ z % zx ≤ c1 ∧ r0 ≤ z / zx ∧ z / zx ≤ r1 then u.setB (Reg.headWatchZones h (z / 32)) (z % 32) true else u) t) s

/-- A zone is marked (R318). -/
def State.zoneMarked (s : State) (h z : Nat) : Bool := s.b (Reg.headWatchZones h (z / 32)) (z % 32)

end Sys2Proof.Machine
end

