-- ==== Sys2Proof/Machine/Audio.lean ====
section
/-! DEFINITION. Embedded audio: blocks and packets (R327 to R331), converters (R332), input paths (R333), the matrix (R334 to R337),
displaced streams (R338), TDM ports (R339 to R341), chimes and ducking (R342 to R346). -/

namespace Sys2Proof.Machine

/-! ### Access -/

/-- Replace the audio block's own state. -/
def State.onAud (s : State) (g : AudSt → AudSt) : State := { s with aud := g s.aud }

/-- Audio source stream `i`. -/
def State.audIn (s : State) (i : Nat) : AudIn := nget (fun _ => AudIn.init) s.aud.ins i

/-- Change audio source stream `i`. -/
def State.onAudIn (s : State) (i : Nat) (g : AudIn → AudIn) : State :=
  s.onAud fun a => { a with ins := nset (fun _ => AudIn.init) a.ins i (g (nget (fun _ => AudIn.init) a.ins i)) }

/-- Chime slot `c`. -/
def State.chime (s : State) (c : Nat) : ChimeSt := nget (fun _ => ChimeSt.init) s.aud.chimes c

/-- Change chime slot `c`. -/
def State.onChime (s : State) (c : Nat) (g : ChimeSt → ChimeSt) : State :=
  s.onAud fun a => { a with chimes := nset (fun _ => ChimeSt.init) a.chimes c (g (nget (fun _ => ChimeSt.init) a.chimes c)) }

/-- ⌈48,000 × N × `STROKE_DEN` ÷ `STROKE_NUM`⌉ (R211). -/
def State.sampleEdge (s : State) (n : Nat) : Nat := (48000 * n * s.clock.rateDen + (s.clock.rateNum - 1)) / max 1 s.clock.rateNum

/-- n(N): the sample frames of the block of stroke `n` (R211). -/
def State.blockLen (s : State) (n : Nat) : Nat := s.sampleEdge (n + 1) - s.sampleEdge n

/-- The audio block runs (R346). -/
def State.audActive (s : State) : Bool := s.b Reg.audStat 31

/-- The converter of a source: kind 1 a stream, 2 a TDM input (R332). -/
def State.converter (s : State) (kind id : Nat) : Option Nat :=
  (upto 64).find? fun u => s.b (Reg.audAsrcCfg u) 31 && s.f (Reg.audAsrcCfg u) 30 29 == kind && s.f (Reg.audAsrcCfg u) 26 16 == id

/-- The source streams bound to input channels (R334) or to crossings (R338). -/
def State.audSources (s : State) : List Nat :=
  let ins := ((upto 1024).filter fun c => s.f (Reg.audInSrc c) 31 29 == 1).map fun c => s.f (Reg.audInSrc c) 26 16
  let xs := (s.takenEntries.filter fun e => (s.crossing e).kind == 2).map fun e => (s.crossing e).src
  (ins ++ xs).eraseDups.filter fun i => s.streamIs i 1 false

/-- The source streams whose blocks close: those, and any other from which something has come (a substitute, a source whose crossing has
been retired). -/
def State.audStreams (s : State) : List Nat :=
  (s.audSources ++ s.aud.ins.map (·.1)).eraseDups.filter fun i => i < 2048 && s.streamIs i 1 false

/-- The number of TDM input `k` among the sources. -/
def tdmSource (k : Nat) : Nat := 2048 + k

/-! ### Converters (R332) -/

/-- The nominal rates that `FS` names, in 0.01 Hz (R328). -/
def fsNominal : List Nat := [4800000, 4410000, 3200000, 9600000]

/-- A rate lies within ±1,000 ppm of a nominal one (R332). -/
def nearRate (rate nominal : Nat) : Bool := 1000 * rate ≤ 1001 * nominal && 999 * nominal ≤ 1000 * rate

/-- A converter locks while its input rate lies near the nominal rate that `FS` names, and reports the loss of lock (R332). DEDUCED: for
a TDM input, whose clock names no rate, any of the nominal rates will do, and `FS` shows which. -/
def State.asrcJudge (s : State) (u : Nat) : State :=
  let rate := s.f (Reg.audAsrcRate u) 23 0
  let named := match fsNominal[s.f (Reg.audAsrcStat u) 2 0]? with | some r => nearRate rate r | none => false
  let (ok, s) :=
    if s.f (Reg.audAsrcCfg u) 30 29 = 2 then
      match (upto 4).find? fun k => nearRate rate (fsNominal.getD k 0) with
      | some k => (true, s.setF (Reg.audAsrcStat u) 2 0 k)
      | none => (false, s)
    else (named, s)
  let was := s.b (Reg.audAsrcStat u) 31
  onlyIf (was && !ok) (fun t => t.raise .audAsrcUnlock u u) (s.setB (Reg.audAsrcStat u) 31 ok)

/-! ### Packets (R328 to R331) -/

/-- A locked block's window has passed when `BLK` names it (R331). -/
def State.audTooLate (s : State) (blk : Nat) : Bool :=
  let n := s.clock.stroke.toNat
  let d := (blk + 4 - n % 4) % 4
  d == 2 || (d == 3 && s.aud.closed == some (n - 1))

/-- An `AUDIO` packet of stream `i` is placed by `BLK` and `LINE` (R328, R331, R332). -/
def State.audPacket (s : State) (i line : Nat) (last : Bool) (flags : Nat) (ws : List Lane) : State :=
  let c := max 1 (s.streamWidth i)
  let blk := flags / 8 % 4
  let fs := flags % 8
  let s := s.onAudIn i fun x => { x with got := true, fsOk := x.fsOk && fs == 0 }
  if (s.audIn i).locked && s.audTooLate blk then
    if s.aud.lateTold then s else (s.onAud fun a => { a with lateTold := true }).raise .audLate 0 i
  else
    let k := ws.length / c
    let s := s.onAudIn i fun x =>
      let (t, done) := nget (fun _ => (0, false)) x.total blk
      { x with
        frames := (upto k).foldl (fun m f => nput (8192 * blk + line + f) ((ws.drop (c * f)).take c) m) x.frames
        total := nput blk (if last then (line + k, true) else if done then (t, true) else (max t (line + k), false)) x.total }
    match s.converter 1 i with
    | some u => if s.f (Reg.audAsrcStat u) 2 0 = fs then s
      else if s.audActive then (s.setF (Reg.audAsrcStat u) 2 0 fs).asrcJudge u else s.setF (Reg.audAsrcStat u) 2 0 fs
    | none => s

/-! ### Input blocks (R330 to R333) -/

/-- A fade over 48 samples: sample `j` multiplied by (j + 1) ÷ 48, or (48 − j) ÷ 48 on the way out (R333). -/
def fadeIn (j : Nat) (v : Int) : Int := if 48 ≤ j then v else openDiv 20 (v * (j + 1)) 48
def fadeOut (j : Nat) (v : Int) : Int := if 48 ≤ j then 0 else openDiv 20 (v * (48 - j)) 48

/-- A source's block on the locked path: what its packets placed, zero where none did (R331). -/
def State.lockedBlock (s : State) (i n len : Nat) : List (List Int) :=
  let c := s.streamWidth i
  (upto len).map fun f =>
    match nfind (8192 * (n % 4) + f) (s.audIn i).frames with
    | some ws => (upto c).map fun k => (ws.getD k 0).toInt
    | none => List.replicate c 0

/-- A block that a converter delivers (R332): its filter is not stated, so each sample is a free value; zeros out of lock or without
a converter. -/
def State.converterBlock (s : State) (conv : Option Nat) (n len c : Nat) : List (List Int) :=
  match conv with
  | some u =>
    if s.b (Reg.audAsrcStat u) 31 then
      (upto len).map fun f => (upto c).map fun k => signed 20 (Config.unstated 22 (((n * 64 + u) * 8192 + f) * 16 + k))
    else List.replicate len (List.replicate c 0)
  | none => List.replicate len (List.replicate c 0)

/-- A source stands stopped for block `n` (R333). -/
def AudIn.lostIn (x : AudIn) (n : Nat) : Bool := match x.lostAt with | some m => if m ≤ n then x.lost else !x.lost | none => false

/-- A source's block `n`: zero while the source stands stopped, faded in where it has returned (R333). -/
def AudIn.shaped (x : AudIn) (n : Nat) (l : List (List Int)) : List (List Int) :=
  if x.lostIn n then l.map fun f => f.map fun _ => 0
  else if x.lostAt = some n ∧ 0 < n then l.zipIdx.map fun e => e.1.map (fadeIn e.2)
  else l

/-- The block of source `i` for stroke `n`, with the fades of R333 where a change of path falls on it. -/
def State.sourceBlock (s : State) (i n : Nat) (moved : Bool) : List (List Int) :=
  let x := s.audIn i
  let len := s.blockLen n
  let c := s.streamWidth i
  let path := fun (locked : Bool) => if locked then s.lockedBlock i n len else s.converterBlock (s.converter 1 i) n len c
  let now := path x.locked
  let now := if moved then
      (now.zip (path !x.locked)).zipIdx.map fun e => (e.1.1.zip e.1.2).map fun v => fadeIn e.2 v.1 + fadeOut e.2 v.2
    else now
  x.shaped n now

/-- Source `i` meets R330 with its block `n`: the packet that is its `LAST` ends with frame n(N). -/
def State.meets330 (s : State) (i n : Nat) : Bool :=
  s.f (Reg.prtLinkStat (s.streamPort i)) 9 8 == 2 && (s.audIn i).fsOk
    && decide (nget (fun _ => (0, false)) (s.audIn i).total (n % 4) = (s.blockLen n, true))

/-- A source's path for the block of stroke `n`: a change due takes effect; the second part says that it does so now. -/
def State.pathFor (s : State) (i n : Nat) : Bool × State :=
  match (s.audIn i).due with
  | some d => if d ≤ n then (true, s.onAudIn i fun x => { x with locked := !x.locked, due := none }) else (false, s)
  | none => (false, s)

/-- After a block a source's path is judged; a change takes effect from the block of the stroke that starts at the next boundary
(R333). The block's ring is free again. -/
def State.judgePath (s : State) (i n : Nat) : State :=
  let ok := s.meets330 i n
  s.onAudIn i fun x =>
    let goods := if ok then x.goods + 1 else 0
    let bads := if ok then 0 else x.bads + 1
    { x with
      goods, bads
      due := if x.due.isSome then x.due
        else if (x.locked && decide (2 ≤ bads)) || (!x.locked && decide (4 ≤ goods)) then some (s.clock.stroke.toNat + 1) else none
      frames := x.frames.filter fun e => e.1 / 8192 ≠ n % 4
      total := ndel (n % 4) x.total, fsOk := true }

/-- Frames of a locked block that no packet supplied are counted (R331). -/
def State.countZeros (s : State) (i n : Nat) : State :=
  let x := s.audIn i
  if x.locked then
    let miss := (upto (s.blockLen n)).countP fun f => (nfind (8192 * (n % 4) + f) x.frames).isNone
    if miss = 0 then s else s.countErr Reg.audZeroCnt 24 miss
  else s

/-! ### TDM words (R339, R340) -/

/-- A sample held to 20 bits, and whether it was clamped. -/
def clamp20 (v : Int) : Int × Bool := (clampI (-524288) 524287 v, decide (v < -524288 ∨ 524287 < v))

/-- The next state of a dither generator: the polynomial x^32 + x^22 + x^2 + x + 1 (R340). -/
def noiseNext (w : Word) : Word := (w <<< 1) ||| BitVec.ofNat 32 ((bit w 31 != bit w 21) != (bit w 1 != bit w 0)).toNat

/-- The dither of port `n`'s next word, in 1/16 of a 20-bit unit: the sum of two values in [−8, +8), each from a state of the port's
generator; which value a state gives the spec does not say (R340). -/
def State.dither (s : State) (n : Nat) : Int × State :=
  let a := noiseNext (nget (fun k => BitVec.ofNat 32 (k + 1)) s.aud.noise n)
  let b := noiseNext a
  let value := fun (w : Word) => (Config.unstated 21 w.toNat % 256 : Nat)
  ((value a + value b : Nat) - 256, s.onAud fun x => { x with noise := nput n b x.noise })

/-- The framing of a TDM port (R339): slots in a frame, bits in a slot, bits of data, and the bit clocks from the `FS` edge to the first
bit. -/
def State.tdmSlots (s : State) (n : Nat) : Nat := if s.f (Reg.audTdmCfg n) 29 28 = 2 then s.f (Reg.audTdmCfg n) 20 16 else 2
def State.tdmSlotBits (s : State) (n : Nat) : Nat := [16, 20, 24, 32].getD (s.f (Reg.audTdmCfg n) 25 24) 16
def State.tdmDataBits (s : State) (n : Nat) : Nat := [16, 20, 24, 24].getD (s.f (Reg.audTdmCfg n) 23 22) 16
def State.tdmDelay (s : State) (n : Nat) : Nat :=
  match s.f (Reg.audTdmCfg n) 29 28 with
  | 1 => 0
  | 2 => (s.b (Reg.audTdmCfg n) 27).toNat
  | _ => 1

/-- The data words of a frame on `TDM_DIN_n` (R339): `bits` gives its level at the rising and at the falling edge of each bit clock from
the frame's `FS` edge on, of which the port samples the one at which data does not change. The bits of a slot below its data are ignored;
a frame cut short, after which the port realigns, reads 0 where no bit came. -/
def State.tdmFrame (s : State) (n : Nat) (bits : List (Bool × Bool)) : List Nat :=
  let l := (bits.map fun e => if s.b (Reg.audTdmCfg n) 26 then e.2 else e.1).drop (s.tdmDelay n)
  (upto (s.tdmSlots n)).map fun k =>
    (upto (s.tdmDataBits n)).foldl (fun a i => 2 * a + (l.getD (s.tdmSlotBits n * k + i) false).toNat) 0

/-- An input word as a sample (R340). -/
def State.tdmIn (s : State) (n : Nat) (w : Nat) : Int × State :=
  let cfg := s.rd (Reg.audTdmCfg n)
  match bf cfg 23 22 with
  | 0 => (signed 16 w * 16, s)
  | 1 => (signed 20 w, s)
  | _ =>
    let (d, s) := if bit cfg 0 then s.dither n else (0, s)
    let (v, beyond) := clamp20 ((signed 24 w + d + 8) / 16)
    (v, onlyIf beyond (fun t => t.countPerf (Reg.audTdmClips n) 31 1) s)

/-- A sample as an output word, left-justified in its slot (R339, R340). -/
def State.tdmOut (s : State) (n : Nat) (v : Int) : Nat × State :=
  let cfg := s.rd (Reg.audTdmCfg n)
  let slot := s.tdmSlotBits n
  match bf cfg 23 22 with
  | 0 =>
    let (d, s) := if bit cfg 1 then s.dither n else (0, s)
    let r := (16 * v + d + 128) / 256
    (encode 16 (clampI (-32768) 32767 r) * 2 ^ (slot - 16),
      onlyIf (decide (r < -32768 ∨ 32767 < r)) (fun t => t.countPerf (Reg.audTdmClips n) 31 1) s)
  | 1 => (encode 20 v * 2 ^ (slot - 20), s)
  | _ => (encode 20 v * 16 * 2 ^ (slot - 24), s)

/-- Map over a list with the state threaded through. -/
def mapState {α β : Type} (g : α → State → β × State) : List α → State → List β × State
  | [], s => ([], s)
  | a :: l, s =>
    let (b, s) := g a s
    let (bs, s) := mapState g l s
    (b :: bs, s)

/-- A target port whose external clock brings no frame in a block has lost it: its input has stopped, and it returns with the frames
(R333, R348). DEDUCED from R175, which says it of streams. -/
def State.tdmLoss (s : State) (n k : Nat) (stop : Bool) : State :=
  if stop = (s.audIn (tdmSource k)).lost then s
  else
    ((s.onAudIn (tdmSource k) fun y => { y with lost := stop, lostAt := some (n + 1) }).setB (Reg.audTdmStat k) 30 stop).raise
      (if stop then .audInputLost else .audInputBack) k (2 ^ 15 + k)

/-- The block of a TDM input: a controller port's frames, a target port's through its converter (R330, R341). -/
def State.tdmBlock (s : State) (n k len : Nat) (raw : List (List (Bool × Bool))) : List (List Int) × State :=
  let cfg := s.rd (Reg.audTdmCfg k)
  if !bit cfg 31 then (List.replicate len [], s)
  else
    let c := s.tdmSlots k
    let (fs, s) := mapState (fun f t => mapState (fun w u => u.tdmIn k w) (t.tdmFrame k f) t) (if bit cfg 30 then raw.take len else raw) s
    if bit cfg 30 then (fs ++ List.replicate (len - fs.length) (List.replicate c 0), s)
    else ((s.audIn (tdmSource k)).shaped n (s.converterBlock (s.converter 2 k) n len c), s.tdmLoss n k raw.isEmpty)

/-! ### Chimes (R342, R343) -/

/-- The samples a chime slot gives in block `n`, and its state after it (R343). -/
def State.chimeBlock (s : State) (c n len : Nat) : List Int × State :=
  let x := s.chime c
  let (now, later) := x.acts.partition fun e => decide (e.1 ≤ n)
  let play := now.any fun e => decide (e.2 = .play)
  let cut := !play && now.any fun e => decide (e.2 = .cut)
  let pos := if play then some 0 else x.pos
  let clip := nget (fun _ => []) s.aud.clips c
  match pos with
  | none => (List.replicate len 0, (s.onChime c fun y => { y with acts := later }))
  | some p =>
    let l := (upto len).map fun j =>
      let v := (clip.getD (p + j) 0).toInt
      if cut then fadeOut j v else v
    let beyond := cut || decide (clip.length ≤ p + len)
    let s := s.onChime c fun y => { y with acts := later, pos := if beyond then none else some (p + len) }
    (l, s.wr (Reg.audChimeStat c) (BitVec.ofNat 32 (if beyond then 0 else 2 ^ 31 + (p + len))))

/-! ### The matrix (R334 to R337, R344) -/

/-- A gain on its way from `a` to `b` over `n` samples, as a whole rounded towards zero (R336). -/
def ramp (a b : Int) (j n : Nat) : Int := Int.tdiv (a * n + (b - a) * (j + 1)) n

/-- The gain a source of an output asks for: 0 when it is not enabled (R335, R336). -/
def State.srcGain (s : State) (o k : Nat) : Int :=
  if s.b (Reg.audOutSrc o k) 31 then signed 16 (s.f (Reg.audOutSrc o k) 15 0) else 0

/-- The input channel is a chime's (R334). -/
def State.chimeInput (s : State) (ch : Nat) : Bool := s.f (Reg.audInSrc ch) 31 29 == 3

/-- `PROTECTED` of the outputs: protection holds from RUNNING (R345, R348). -/
def State.showProtected (s : State) : State :=
  let on := if s.protectedInputs.isEmpty then [] else (upto 512).filter s.protectedOutput
  forAll on (fun o t => if t.b (Reg.audOutStat o) 29 then t else t.setB (Reg.audOutStat o) 29 true) s

/-- What the last block ended with, for a gain register. -/
def State.oldGain (s : State) (a : Nat) : Int := nget (fun _ => 0) s.aud.gains a

/-- One output's block (R335, R336, R344): from the samples of every input channel, and which chime slots play in the block. -/
def State.mixOutput (s : State) (o len : Nat) (input : Nat → List Int) (plays : Nat → Bool) : List Int × Nat × State :=
  let ducking := (upto 8).any fun k => s.b (Reg.audOutSrc o k) 31 && s.chimeInput (s.srcInput o k)
    && plays (s.f (Reg.audInSrc (s.srcInput o k)) 26 16)
  let d0 := nget (fun _ => 4096) s.aud.ducks o
  let d1 : Int := if ducking then (min 0x1000 (s.f (Reg.audOutDuck o) 15 0) : Nat) else 4096
  let src := (upto 8).map fun k =>
    let a := s.oldGain (Reg.audOutSrc o k)
    let b := s.srcGain o k
    if s.chimeInput (s.srcInput o k) then (a, b, input (s.srcInput o k))
    else (openDiv 18 (a * d0) 4096, openDiv 18 (b * d1) 4096, input (s.srcInput o k))
  let src := src.filter fun e => e.1 ≠ 0 ∨ e.2.1 ≠ 0
  let l := (upto len).map fun j =>
    clamp20 ((src.foldl (fun acc e => acc + ramp e.1 e.2.1 j len * e.2.2.getD j 0) 0 + 2048) / 4096)
  let clips := l.countP (·.2)
  let s := s.onAud fun a => { a with
    gains := (upto 8).foldl (fun m k => nset (fun _ => 0) m (Reg.audOutSrc o k) (s.srcGain o k)) a.gains
    ducks := nset (fun _ => 4096) a.ducks o d1 }
  (l.map (·.1), clips, s.setB (Reg.audOutStat o) 30 (d0 ≠ 4096 || d1 ≠ 4096))

/-- The outputs that something feeds or fed in the last block; every other mixes to zero, and nothing of it changes. -/
def State.mixOutputs (s : State) : List Nat :=
  (upto 512).filter fun o => nget (fun _ => 4096) s.aud.ducks o != 4096
    || (upto 8).any fun k => s.b (Reg.audOutSrc o k) 31 || s.oldGain (Reg.audOutSrc o k) != 0

/-- The outputs that are bound (R334). -/
def State.boundOutputs (s : State) : List Nat := (upto 512).filter fun o => s.f (Reg.audOutDst o) 31 29 != 0

/-- The samples of an input channel in a block (R334, R337, R342): from its source's block, a chime at its gain, or an output's last
block. -/
def State.inputBlock (s : State) (len : Nat) (streams tdms : NMap (List (List Int))) (chimes : NMap (List Int)) (ch : Nat) : List Int :=
  let w := s.rd (Reg.audInSrc ch)
  let id := bf w 26 16
  let chan := fun (fs : List (List Int)) => (upto len).map fun j => (fs.getD j []).getD (bf w 3 0) 0
  match bf w 31 29 with
  | 1 => chan (nget (fun _ => []) streams id)
  | 2 => chan (nget (fun _ => []) tdms id)
  | 3 =>
    let a := s.oldGain (Reg.audChimeGain id)
    let b := signed 16 (s.f (Reg.audChimeGain id) 15 0)
    (nget (fun _ => []) chimes id).zipIdx.map fun e => (clamp20 (openDiv 19 (e.1 * ramp a b e.2 len) 4096)).1
  | 4 =>
    let l := nget (fun _ => []) s.aud.mixed id
    (upto len).map fun j => match l[j]? with
      | some v => v
      | none => if l.isEmpty then 0 else signed 20 (Config.unstated 23 (id * 8192 + j))
  | _ => List.replicate len 0

/-- The streams that crossings displace, in the block of stroke `n` (R338). -/
def State.displacedIn (s : State) (n : Nat) : List (Nat × Nat × Nat × Nat) :=
  match s.aud.displaced.find? fun e => e.1 == n with | some e => e.2 | none => []

/-- A transmit stream's block: the outputs bound to it, or, while a crossing displaces them, its source's channels, with the fades of
R333 where that starts or ends (R334, R338). -/
def State.txBlock (s : State) (i n len : Nat) (streams : NMap (List (List Int))) (mixed : NMap (List Int)) : List (List Int) :=
  let c := s.streamWidth i
  let outs := s.boundOutputs.filter fun o => s.f (Reg.audOutDst o) 31 29 == 1 && s.f (Reg.audOutDst o) 26 16 == i
  let cols := (upto c).map fun k =>
    match outs.find? fun o => s.f (Reg.audOutDst o) 3 0 == k with | some o => nget (fun _ => []) mixed o | none => []
  let matrix := (upto len).map fun j => cols.map fun col => col.getD j 0
  let direct := fun (e : Nat × Nat × Nat × Nat) =>
    let fs := nget (fun _ => []) streams e.2.1
    (upto len).map fun j => (upto c).map fun k => if k < e.2.2.2 then (fs.getD j []).getD (e.2.2.1 + k) 0 else 0
  let find := fun (m : Nat) => (s.displacedIn m).find? fun e => e.1 == i
  let cross := fun (old new : List (List Int)) => (old.zip new).zipIdx.map fun e => (e.1.1.zip e.1.2).map fun v => fadeOut e.2 v.1 + fadeIn e.2 v.2
  match find (n - 1), find n with
  | some d, some e => if d = e then direct e else cross (direct d) (direct e)
  | none, some e => if n = s.aud.start then direct e else cross matrix (direct e)
  | some e, none => cross (direct e) matrix
  | none, none => matrix

/-- The transmit audio streams. -/
def State.txAudio (s : State) : List Nat := (upto 2048).filter fun i => s.streamIs i 1 true

/-- `IN_WIN` after a boundary, the blocks of the stroke before close, and the matrix mixes them (R331 to R338). `tdm` gives, by port, the
frames of the block as their bits came. -/
def audBlockClose (tdm : List (Fin 8 × List (List (Bool × Bool)))) (s : State) : State :=
  let n := s.clock.stroke.toNat - 1
  if !s.audActive || n < s.aud.start || s.clock.stroke = 0 || s.aud.closed == some n then s
  else
    let len := s.blockLen n
    let (streams, s) := mapState (fun i t =>
      let (moved, t) := t.pathFor i n
      ((i, t.sourceBlock i n moved), t.countZeros i n)) s.audStreams s
    let (tdms, s) := mapState (fun k t =>
      let raw := match tdm.find? fun e => e.1.val == k with | some e => e.2 | none => []
      let (b, t) := t.tdmBlock n k len raw
      ((k, b), t)) (upto 8) s
    let slots := (upto 32).filter fun c => s.b (Reg.audChimeCfg c) 31
    let wasPlaying := fun c => (s.chime c).pos.isSome || (s.chime c).acts.any fun e => decide (e.1 ≤ n) && decide (e.2 = .play)
    let playing := slots.filter wasPlaying
    let (chimes, s) := mapState (fun c t => let (l, t) := t.chimeBlock c n len; ((c, l), t)) slots s
    let input := s.inputBlock len streams tdms chimes
    let (mixed, s) := mapState (fun o t =>
      let (l, clips, t) := t.mixOutput o len input playing.contains
      ((o, l), if clips = 0 then t else t.countPerf (Reg.audOutClips o) 31 clips)) s.mixOutputs s
    let ready := s.txAudio.map fun i => (i, s.txBlock i n len streams mixed)
    let s := forAll s.audStreams (fun i t => t.judgePath i n) s
    let s := s.onAud fun a => { a with
      closed := some n, mixed := mixed, ready := ready, toSend := true
      gains := slots.foldl (fun m c => nset (fun _ => 0) m (Reg.audChimeGain c) (signed 16 (s.f (Reg.audChimeGain c) 15 0))) a.gains
      displaced := a.displaced.filter fun e => decide (n ≤ e.1) }
    s.countPerf Reg.audBlocks 31 1

/-- The output offset after a boundary (R347), the block leaves on every transmit audio stream and TDM output (R329, R339, R341). -/
def audBlockSend (s : State) : State :=
  if !s.audActive || !s.aud.toSend then s
  else
    let n := s.aud.closed.getD 0
    let s := s.onAud fun a => { a with toSend := false }
    let s := forAll s.aud.ready (fun (e : Nat × List (List Int)) t =>
      let c := max 1 (t.streamWidth e.1)
      let per := 1024 / c
      let cs := chunks per e.2
      if !t.feature (t.lead (t.streamPort e.1)) 1 then t
      else forAll cs.zipIdx (fun (p : List (List Int) × Nat) u =>
        u.sendPacket e.1 2 (per * p.2) (p.2 == 0) (p.2 + 1 == cs.length) (n % 4 * 8)
          (p.1.flatMap fun f => f.map fun v => BitVec.ofInt 20 v)) t) s
    forAll ((upto 8).filter fun k => s.b (Reg.audTdmCfg k) 31) (fun k t =>
      let outs := t.boundOutputs.filter fun o => t.f (Reg.audOutDst o) 31 29 == 2 && t.f (Reg.audOutDst o) 26 16 == k
      let col := fun c => match outs.find? fun o => t.f (Reg.audOutDst o) 3 0 == c with
        | some o => nget (fun _ => []) t.aud.mixed o
        | none => []
      let (words, t) := mapState (fun j u => mapState (fun c v => v.tdmOut k ((col c).getD j 0)) (upto (t.tdmSlots k)) u) (upto (t.blockLen n)) t
      t.send (.tdm k (t.tdmSlotBits k) (t.tdmDelay k) (t.b (Reg.audTdmCfg k) 26) (t.b (Reg.audTdmCfg k) 30) words)) s

/-! ### The boundary (R333, R336, R338, R342) -/

/-- An address of the `AUD` block. -/
def audAddr (a : Nat) : Bool := 0x80000 ≤ a && a < 0x90000

/-- A write of `GO` to `AUD_COMMIT` (R336). -/
def audCommit (w : Word) (s : State) : State :=
  if bit w 31 then (s.onAud fun a => { a with pend := some (bf w 15 0) }).setB Reg.audCommitStat 31 true else s

/-- Step 5: a commit that waits takes effect (R336). -/
def State.audTakeCommit (s : State) : State :=
  match s.aud.pend with
  | some q =>
    ((s.takeShadows audAddr).onAud fun a => { a with pend := none }).wr Reg.audCommitStat (BitVec.ofNat 32 q)
      |>.wr Reg.audCommitStroke (BitVec.ofNat 32 s.stroke16)
  | none => s

/-- Source `i`, or the stream that a narrow mode puts in its place, stands stopped at this boundary (R175). -/
def State.audStopped (s : State) (i : Nat) : Bool :=
  match s.flowsAs i with
  | none => true
  | some j => s.ladder (s.lead (s.streamPort j)) != 5 || !(s.audIn j).got

/-- A source has stopped or returned at this boundary (R175, R333). -/
def State.audLoss (s : State) (i : Nat) (stop : Bool) : State :=
  if stop = (s.audIn i).lost then s
  else
    (s.onAudIn i fun y => { y with lost := stop, lostAt := some s.clock.stroke.toNat }).raise
      (if stop then .audInputLost else .audInputBack) 0 i

/-- A change of path falls on the stroke that starts now (R333). -/
def State.audPathEvent (s : State) (i : Nat) : State :=
  if (s.audIn i).due = some s.clock.stroke.toNat then s.raise .audPath 0 i else s

/-- Icon states reach the chime slots (R308, R342, R343). -/
def State.chimeStep (s : State) (c : Nat) : State :=
  let cfg := s.rd (Reg.audChimeCfg c)
  let x := s.chime c
  let a := s.iconState (bf cfg 26 21) (bf cfg 20 15)
  let phase := s.blinkOn (bf cfg 26 21) (bf cfg 20 15)
  let leaves := decide (x.icon = 0 ∧ a ≠ 0)
  let since := if a = 0 then 0 else if leaves then 0 else x.since + 1
  let period := max 1 (s.f (Reg.audChimePeriod c) 11 0)
  let play := match bf cfg 29 28 with
    | 1 => leaves || (a != 0 && decide (0 < since) && since % period == 0)
    | 2 => a != 0 && (x.icon != a || (2 ≤ a && phase))
    | _ => leaves
  let cut := decide (x.icon ≠ 0 ∧ a = 0) && bit cfg 27 && (x.pos.isSome || x.acts.any fun e => decide (e.2 = .play))
  let n := s.clock.stroke.toNat
  let s := s.onChime c fun y => { y with
    icon := a, since := since
    acts := y.acts ++ (if play then [(n, .play)] else if cut then [(n, .cut)] else []) }
  onlyIf play (fun t => (t.countPerf (Reg.audChimePlays c) 31 1).setB (Reg.audChimeStat c) 31 true) s

/-- The streams that taken crossings displace now (R338), recorded for the block of this stroke; their outputs show it. -/
def State.audDisplace (s : State) : State :=
  let es := s.takenEntries.filter fun e => (s.crossing e).kind == 2 && (s.crossing e).dstKind == 1 && !(s.entry e).suspended
  let l := es.map fun e =>
    let c := s.crossing e
    (c.dst, s.sourceNow c.src, c.x, (s.window c).1)
  let s := s.onAud fun a => { a with displaced := a.displaced ++ [(s.clock.stroke.toNat, l)] }
  forAll s.boundOutputs (fun o t =>
    let d := t.f (Reg.audOutDst o) 31 29 == 1 && l.any fun e => e.1 == t.f (Reg.audOutDst o) 26 16
    if t.b (Reg.audOutStat o) 31 = d then t else t.setB (Reg.audOutStat o) 31 d) s

/-- The audio block at a boundary, once it runs (R346). -/
def State.audBoundary (s : State) : State :=
  let s := s.setF Reg.audStat 10 0 (s.blockLen s.clock.stroke.toNat)
  if !s.audActive then s
  else
    let s := s.onAud fun a => { a with lateTold := false, tdmTold := [] }
    let s := forAll (s.audSources.map fun i => (i, s.audStopped i)) (fun e t => (t.audPathEvent e.1).audLoss e.1 e.2) s
    let s := s.onAud fun a => { a with ins := a.ins.map fun e => (e.1, { e.2 with got := false }) }
    let s := forAll ((upto 32).filter fun c => s.b (Reg.audChimeCfg c) 31) (fun c t => t.chimeStep c) s
    let s := forAll ((upto 64).filter fun u => s.b (Reg.audAsrcCfg u) 31) (fun u t =>
      let foreign := t.f (Reg.audAsrcCfg u) 30 29 == 2 || !(t.audIn (t.f (Reg.audAsrcCfg u) 26 16)).locked
      t.setB (Reg.audAsrcStat u) 30 foreign) s
    s.audDisplace.showProtected

/-- The matrix, converters, TDM ports and chimes start at the boundary that enters RUNNING (R346). -/
def State.audStart (s : State) : State :=
  let s := s.setB Reg.audStat 31 true
  let s := forAll ((upto 8).filter fun k => s.b (Reg.audTdmCfg k) 31) (fun k t => t.setB (Reg.audTdmStat k) 31 true) s
  let s := s.showProtected
  s.onAud fun a => { a with
    start := s.clock.stroke.toNat
    gains := (s.mixOutputs.flatMap fun o => (upto 8).map fun k => (Reg.audOutSrc o k, s.srcGain o k)).foldl
      (fun m e => nset (fun _ => 0) m e.1 e.2) ((upto 32).foldl (fun m c =>
        if s.b (Reg.audChimeCfg c) 31 then nset (fun _ => 0) m (Reg.audChimeGain c) (signed 16 (s.f (Reg.audChimeGain c) 15 0)) else m) a.gains) }

/-! ### Converters and TDM ports (R332, R339) -/

/-- A converter's measured rate, in 0.01 Hz, enters or leaves ±1,000 ppm of nominal (R332). Converters run from RUNNING on (R346). -/
def asrcLockChange (u : Nat) (rate : Nat) (s : State) : State :=
  if s.audActive && s.b (Reg.audAsrcCfg u) 31 then (s.setF (Reg.audAsrcRate u) 23 0 (rate % 2 ^ 24)).asrcJudge u else s

/-- A converter's fill leaves its range (R332). -/
def asrcSlip (u : Nat) (s : State) : State :=
  if s.audActive && s.b (Reg.audAsrcCfg u) 31 then (s.countErr (Reg.audAsrcSlips u) 16 1).raise .audAsrcUnlock u u else s

/-- An `FS` edge at the wrong bit-clock count (R339). -/
def tdmFrameError (n : Nat) (s : State) : State :=
  if s.audActive && s.b (Reg.audTdmCfg n) 31 then
    let s := s.countErr (Reg.audTdmFrameErr n) 24 1
    if s.aud.tdmTold.contains n then s
    else (s.onAud fun a => { a with tdmTold := a.tdmTold ++ [n] }).raise .audTdmFrame n (2 ^ 15 + n)
  else s

end Sys2Proof.Machine
end

