-- ==== Sys2Proof/Machine/Isa.lean ====
section
/-! DEFINITION. The engine instruction set's encoding: operation codes, fields, and which encodings are undefined (R244 to R246,
R250, R251). -/

namespace Sys2Proof.Machine

/-- The operations of R251. -/
inductive EngOp where
  | nop | br | loop | jend | jfld | tsig | vld | vst | vlds | sld | sst | qin | qout | qwait | ldp
  | vadd | vsub | vmin | vmax | vabsd | vsh | vlog | vmov | vmul
  | sadd | ssub | smul | sand | sor | ssh | smov
  | mac | msu | aset | ard | asum | vperm | vsld | vilv | vext | vlut | vluti | vcmp | vsel
deriving DecidableEq, Repr

/-- The code of an operation (R251). -/
def EngOp.code : EngOp → BitVec 6
  | .nop => 0x00 | .br => 0x01 | .loop => 0x02 | .jend => 0x03 | .jfld => 0x04 | .tsig => 0x05
  | .vld => 0x08 | .vst => 0x09 | .vlds => 0x0A | .sld => 0x0B | .sst => 0x0C
  | .qin => 0x10 | .qout => 0x11 | .qwait => 0x12 | .ldp => 0x13
  | .vadd => 0x18 | .vsub => 0x19 | .vmin => 0x1A | .vmax => 0x1B | .vabsd => 0x1C | .vsh => 0x1D | .vlog => 0x1E | .vmov => 0x1F
  | .vmul => 0x20
  | .sadd => 0x24 | .ssub => 0x25 | .smul => 0x26 | .sand => 0x27 | .sor => 0x28 | .ssh => 0x29 | .smov => 0x2A
  | .mac => 0x30 | .msu => 0x31 | .aset => 0x32 | .ard => 0x33 | .asum => 0x34
  | .vperm => 0x38 | .vsld => 0x39 | .vilv => 0x3A | .vext => 0x3B | .vlut => 0x3C | .vluti => 0x3D | .vcmp => 0x3E | .vsel => 0x3F

/-- Every operation, in the table's order. -/
def EngOp.all : List EngOp :=
  [.nop, .br, .loop, .jend, .jfld, .tsig, .vld, .vst, .vlds, .sld, .sst, .qin, .qout, .qwait, .ldp, .vadd, .vsub, .vmin, .vmax,
   .vabsd, .vsh, .vlog, .vmov, .vmul, .sadd, .ssub, .smul, .sand, .sor, .ssh, .smov, .mac, .msu, .aset, .ard, .asum, .vperm, .vsld,
   .vilv, .vext, .vlut, .vluti, .vcmp, .vsel]

/-- A register file, or none. -/
inductive RegFile where
  | none | v | acc | s
deriving DecidableEq, Repr

/-- A register number lies in its file; an unused field is 0 (R245). -/
def RegFile.has : RegFile → BitVec 5 → Bool
  | .none, r => r == 0
  | .v, _ => true
  | .acc, r => r < 8
  | .s, r => r < 16

/-- How an operation uses `B` and `IMM`: a plain register file with the bits of `IMM` it lists, or the B operand of R246 for vectors
or scalars. -/
inductive BForm where
  | plain (file : RegFile) (imm : BitVec 32)
  | vec (sh : Bool)
  | scal
deriving DecidableEq, Repr

/-- A row of R251: register files of `D` and `A`, the form of B, the modifiers allowed, and the highest `VAR`. -/
structure OpRow where
  d   : RegFile
  a   : RegFile
  b   : BForm
  sgn : Bool := false
  sat : Bool := false
  hlf : Bool := false
  msk : Bool := false
  var : BitVec 2 := 0
deriving DecidableEq, Repr

/-- The table of R251. -/
def EngOp.row : EngOp → OpRow
  | .nop => { d := .none, a := .none, b := .plain .none 0 }
  | .br => { d := .none, a := .s, b := .plain .none 0xFFFFFFFF, sgn := true, var := 3 }
  | .loop => { d := .none, a := .s, b := .plain .none 0x3FF }
  | .jend => { d := .none, a := .s, b := .plain .none 0 }
  | .jfld => { d := .s, a := .none, b := .plain .none 0xF }
  | .tsig => { d := .none, a := .s, b := .plain .none 0xFFF }
  | .vld => { d := .v, a := .s, b := .plain .none 0xFFFF, msk := true }
  | .vst => { d := .v, a := .s, b := .plain .none 0xFFFF }
  | .vlds => { d := .v, a := .s, b := .plain .s 0xFFFF, msk := true }
  | .sld => { d := .s, a := .s, b := .plain .none 0xFFFF }
  | .sst => { d := .s, a := .s, b := .plain .none 0xFFFF }
  | .qin => { d := .s, a := .s, b := .plain .none 0, var := 1 }
  | .qout => { d := .none, a := .s, b := .plain .s 0x0FFF1FFF, var := 1 }
  | .qwait => { d := .none, a := .none, b := .plain .none 0 }
  | .ldp => { d := .s, a := .none, b := .plain .none 0xFFF }
  | .vadd => { d := .v, a := .v, b := .vec false, sgn := true, sat := true, hlf := true, msk := true }
  | .vsub => { d := .v, a := .v, b := .vec false, sgn := true, sat := true, hlf := true, msk := true }
  | .vmin => { d := .v, a := .v, b := .vec false, sgn := true, hlf := true, msk := true }
  | .vmax => { d := .v, a := .v, b := .vec false, sgn := true, hlf := true, msk := true }
  | .vabsd => { d := .v, a := .v, b := .vec false, sgn := true, hlf := true, msk := true }
  | .vsh => { d := .v, a := .v, b := .vec false, sgn := true, sat := true, hlf := true, msk := true, var := 2 }
  | .vlog => { d := .v, a := .v, b := .vec false, msk := true, var := 3 }
  | .vmov => { d := .v, a := .none, b := .vec false, msk := true }
  | .vmul => { d := .v, a := .v, b := .vec true, sgn := true, sat := true, hlf := true, msk := true, var := 2 }
  | .sadd => { d := .s, a := .s, b := .scal, sgn := true, sat := true }
  | .ssub => { d := .s, a := .s, b := .scal, sgn := true, sat := true }
  | .smul => { d := .s, a := .s, b := .scal }
  | .sand => { d := .s, a := .s, b := .scal }
  | .sor => { d := .s, a := .s, b := .scal }
  | .ssh => { d := .s, a := .s, b := .scal, var := 2 }
  | .smov => { d := .s, a := .none, b := .plain .none 0xFFFFFFFF }
  | .mac => { d := .acc, a := .v, b := .vec false, sgn := true, sat := true }
  | .msu => { d := .acc, a := .v, b := .vec false, sgn := true, sat := true }
  | .aset => { d := .acc, a := .none, b := .vec true, sgn := true }
  | .ard => { d := .v, a := .acc, b := .plain .none 0x03F00000, sgn := true, msk := true, var := 2 }
  | .asum => { d := .s, a := .acc, b := .plain .none 0 }
  | .vperm => { d := .v, a := .v, b := .plain .v 0, msk := true }
  | .vsld => { d := .v, a := .v, b := .plain .v 0x1F, msk := true }
  | .vilv => { d := .v, a := .v, b := .plain .v 0, msk := true, var := 3 }
  | .vext => { d := .s, a := .v, b := .plain .none 0x1F, sgn := true }
  | .vlut => { d := .v, a := .v, b := .plain .s 0x000FFFFF, sgn := true, msk := true }
  | .vluti => { d := .v, a := .v, b := .plain .s 0x00FFFFFF, sgn := true, sat := true, msk := true }
  | .vcmp => { d := .s, a := .v, b := .vec false, sgn := true, var := 3 }
  | .vsel => { d := .v, a := .v, b := .plain .v 0 }

/-- `BSEL`, `SH` and `VAL` of `IMM` (R244). -/
def fBsel (f : EngFields) : Nat := bf f.imm 31 30
def fSh (f : EngFields) : Nat := bf f.imm 25 20
def fVal (f : EngFields) : Nat := bf f.imm 19 0

/-- `IMM`[15:0] sign-extended (R251). -/
def fOff (f : EngFields) : Int := signed 16 (bf f.imm 15 0)

/-- The B operand and `IMM` keep R245 and R246. -/
def BForm.ok (f : EngFields) : BForm → Bool
  | .plain file mask => file.has f.b && f.imm &&& ~~~mask == 0
  | .vec sh => bf f.imm 29 26 == 0 && (sh || fSh f == 0) &&
    (match fBsel f with
     | 0 => fVal f == 0
     | 1 => RegFile.s.has f.b && fVal f == 0
     | 2 => f.b == 0
     | _ => false)
  | .scal => bf f.imm 29 26 == 0 && fSh f == 0 &&
    (match fBsel f with
     | 0 => RegFile.s.has f.b && fVal f == 0
     | 2 => f.b == 0
     | _ => false)

/-- The rules of R245 that one operation adds: `LOOP` has a body, tables their sizes, and a `QOUT` that pushes nothing names no queue. -/
def EngOp.extra (f : EngFields) : EngOp → Bool
  | .loop => bf f.imm 9 0 != 0
  | .qout => f.var == 1 || bf f.imm 27 16 == 0
  | .vlut => 1 ≤ bf f.imm 19 16 && bf f.imm 19 16 ≤ 12
  | .vluti => 1 ≤ bf f.imm 19 16 && bf f.imm 19 16 ≤ 12 && bf f.imm 23 20 ≤ 10
  | _ => true

/-- The encoding is defined (R245, R246, R250). -/
def EngOp.legal (op : EngOp) (f : EngFields) : Bool :=
  let r := op.row
  r.d.has f.d && r.a.has f.a && r.b.ok f && (r.sgn || !f.sgn) && (r.sat || !f.sat) && (r.hlf || !f.hlf) && (r.msk || !f.msk)
    && f.var ≤ r.var && (if op = .vsel ∨ f.msk then RegFile.s.has f.c else f.c == 0) && op.extra f

end Sys2Proof.Machine
end

