-- ==== Sys2Proof/Machine/Engines.lean ====
section
/-! DEFINITION. Engines, jobs and tags, crews, the manifest and the deadline (R216 to R239). -/

namespace Sys2Proof.Machine

/-! ### Access -/

/-- Engine `e`. -/
def State.eng (s : State) (e : Nat) : EngSt := nget (fun _ => EngSt.init) s.jik.engs e

/-- Change engine `e`. -/
def State.onEng (s : State) (e : Nat) (g : EngSt → EngSt) : State :=
  { s with jik := { s.jik with engs := nset (fun _ => EngSt.init) s.jik.engs e (g (s.eng e)) } }

/-- Crew `c`. -/
def State.crew (s : State) (c : Nat) : CrwSt := nget (fun _ => CrwSt.init) s.jik.crews c

/-- Change crew `c`. -/
def State.onCrew (s : State) (c : Nat) (g : CrwSt → CrwSt) : State :=
  { s with jik := { s.jik with crews := nset (fun _ => CrwSt.init) s.jik.crews c (g (s.crew c)) } }

/-- Change the dispatcher's state. -/
def State.onJik (s : State) (g : JikSt → JikSt) : State := { s with jik := g s.jik }

/-- Job and data queues of an engine or crew (R220, R240). -/
def State.jobQ (s : State) (crew : Bool) (n : Nat) : Nat := if crew then s.f (Reg.crwQcfg n) 27 16 else s.f (Reg.engCfg n) 27 16
def State.dataQ (s : State) (crew : Bool) (n : Nat) : Nat := if crew then s.f (Reg.crwQcfg n) 11 0 else s.f (Reg.engQcfg n) 27 16
def State.hostDoneQ (s : State) (crew : Bool) (n : Nat) : Nat := if crew then s.f (Reg.crwHostq n) 11 0 else s.f (Reg.engQcfg n) 11 0

/-- The end of the code region of an engine, in bytes (R217). -/
def State.codeTop (s : State) (e : Nat) : Nat := 16 * s.f (Reg.engCfg e) 12 0

/-- `SYN_ENG` runs the engines: it has not stopped, and it does not acquire anew (R84, R88, R239). -/
def State.engClock (s : State) : Bool := !(s.synOf 1).halted && (s.synState 1 == 2 || s.synState 1 == 3)

/-- Throttle is asserted (R412, R414). -/
def State.throttled (s : State) : Bool := s.thm.throt.on

/-- `MTAGS` (R223). -/
def State.mtags (s : State) : Nat := s.f Reg.engTagCfg 10 0

/-- The word `j` of a manifest record (R230). -/
def State.recWord (s : State) (r j : Nat) : Word := s.rd (Reg.manifestWord r j)

/-- The deadline in ns after the boundary (R232). -/
def State.deadlineNs (s : State) : Nat := s.clock.len * (1000 - s.f Reg.engGuard 7 0) / 20000

/-! ### Job descriptors (R221, R222) -/

/-- Fields of `ARG` in a `JOB`. -/
def Desc.lines (d : Desc) : Nat := d.arg / 2 ^ 19 % 2 ^ 13
def Desc.kernel (d : Desc) : Nat := d.arg / 2 ^ 7 % 2 ^ 12
def Desc.slot (d : Desc) : Nat := d.arg / 2 ^ 4 % 8
def Desc.out (d : Desc) : Bool := d.arg.testBit 3

/-- The `DONE` of a job (R222). -/
def doneDesc (job : Rec) (status : Nat) (thr : Bool) (result : Nat) : Rec :=
  let d := Desc.ofRec job
  { d with dkind := 5, len := 0, dflags := 0,
           arg := status * 2 ^ 28 + thr.toNat * 2 ^ 27 + (if status = 0 then result % 2 ^ 27 else 0) : Desc }.toRec

/-- The data field of an `ENG` event (R241). -/
def engData (crew : Bool) (target tag extra : Nat) : Nat := crew.toNat * 2 ^ 31 + target * 2 ^ 16 + tag + extra

/-- The reader number of the crossing entry `e`, to a crew, among the readers of a slip (R201). -/
def crewReader (e : Nat) : Nat := 8192 + e

/-- A crew releases the frames it has pinned (R201). -/
def State.releaseCrew (s : State) (c : Nat) : State :=
  forAll (s.takenEntries.filter fun e => (s.crossing e).dstKind == 3 && (s.crossing e).dst == c) (fun e t =>
    forAll (t.slips.map (·.1)) (fun k u =>
      if (u.slots k).any fun j => (u.slot k j).pins.contains (crewReader e) then u.unpin k (crewReader e) else u) t) s

/-! ### Pushing (R179, R182, R184) -/

/-- A producer that is held back finds the queue open: nothing waits before it, and there is room (R182). -/
def State.queueOpen (s : State) (q : Nat) : Bool := (s.queue q).waits.isEmpty && !s.queueClosed q

/-- A push waits at the queue's input, behind those before it (R182, R184, R220). -/
def State.hold (s : State) (q : Nat) (r : Rec) (origin : PushFrom) : State :=
  (s.onQueue q fun x => { x with waits := x.waits ++ [{ desc := r, order := s.jik.pushes, by_ := origin }] }).onJik
    fun y => { y with pushes := y.pushes + 1 }

/-- A producer that is held back pushes a descriptor (R182); a queue the chart does not define accepts nothing (R179). -/
def State.pushOr (s : State) (q : Nat) (r : Rec) (origin : PushFrom) : State :=
  if s.rd (Reg.queCfg q) = 0 then s else if s.queueOpen q then s.append q r else s.hold q r origin

/-- A `DONE` goes to its queue, which treats it by the kind of its producer (R182). -/
def State.pushDone (s : State) (q : Nat) (r : Rec) : State :=
  if heldProducer (s.prodKind q) then s.pushOr q r .dispatcher else s.pushFree q r

/-! ### The end of a job -/

/-- The queue that receives a job's `DONE` (R220, R230). -/
def State.doneQ (s : State) (x : Flight) : Nat :=
  match x.record with | some r => bf (s.recWord r 5) 11 0 | none => s.hostDoneQ x.crew x.target

/-- A job is over: a run of it past its budget is counted, its output frame is COMPLETE or void, and the crew's pins go (R200, R201, R233,
R234, R240). -/
def State.jobOver (s : State) (x : Flight) (status : Nat) : State :=
  let beyond := match x.record with
    | some r => x.ran && decide (s.clock.boundary + 20 * ((s.recWord r 2).toNat + (s.recWord r 3).toNat) < s.clock.time)
    | none => false
  let s := onlyIf beyond (fun t => t.countPerf Reg.engOverBudgetCnt 31 1) s
  let s := match x.out with
    | some (k, j) => if status = 0 then s.completeFrame k j else s.onJik fun y => { y with void := y.void ++ [(k, j)] }
    | none => s
  let s := onlyIf (status == 2) (fun t => t.countErr Reg.engFaultCnt 24 1) s
  let s := onlyIf (status == 0) (fun t => t.onJik fun y => { y with okNow := y.okNow + 1 }) s
  onlyIf x.crew (fun t => t.releaseCrew x.target) s

/-- The tag is free again (R223). -/
def State.freeTag (s : State) (tag : Nat) : State := s.onJik fun y => { y with flight := ndel tag y.flight }

/-- A job is over and its `DONE` is written (R222, R223). -/
def State.jobDone (s : State) (tag status result : Nat) : State :=
  match nfind tag s.jik.flight with
  | none => s
  | some x => ((s.jobOver x status).freeTag tag).pushDone (s.doneQ x) (doneDesc x.desc status x.throttled result)

/-- The merge of R229: the first of FAULT, STOPPED, CANCELLED, NO_INPUT, OK that any part reports. -/
def mergeStatus (l : List (Nat × Bool × Nat)) : Nat :=
  ([2, 4, 1, 3].find? fun k => l.any fun p => p.1 == k).getD 0

/-- The crew that waits for a part of the job with this tag from this member (R227, R229). -/
def State.parentOf (s : State) (isCrew : Bool) (n tag : Nat) : Option Nat :=
  (s.jik.crews.find? fun c => c.2.left.contains (isCrew, n) &&
    (match c.2.job with | some j => (Desc.ofRec j).tag == tag | none => false)).map (·.1)

/-- `CRW_ccc_STAT` follows the crew (R240). -/
def State.showCrew (s : State) (c : Nat) : State :=
  let x := s.crew c
  s.wr (Reg.crwStat c) (match x.job with
    | some j => BitVec.ofNat 32 (2 ^ 31 + x.left.length * 2 ^ 16 + (Desc.ofRec j).tag)
    | none => 0)

/-- Cycles of `SYN_ENG` in a time, at its rate and divider; none while it does not run (R91, R216). -/
def State.engCycles (s : State) (ns : Nat) : Nat :=
  if s.engClock then ns * (s.rd (Reg.synTarget 1)).toNat / 1000000 / (if (s.synOf 1).half then 2 else 1) else 0

/-- The engine holds a job that has not been cancelled (R240). -/
def State.holdsJob (s : State) (e : Nat) : Bool := (s.eng e).job.isSome && (s.eng e).cut.isNone

/-- The cycles since the last count are added to those the engine has held jobs (R240). -/
def State.countBusy (s : State) (e : Nat) : State :=
  if s.holdsJob e then
    let tot := (s.rd (Reg.engBusyLo e)).toNat + s.engCycles (s.now - (s.eng e).takenAt)
    let s := s.wr (Reg.engBusyLo e) (BitVec.ofNat 32 tot)
    let s := onlyIf (tot / 2 ^ 32 != 0) (fun t => t.countPerf (Reg.engBusyHi e) 31 (tot / 2 ^ 32)) s
    s.onEng e fun x => { x with takenAt := s.now }
  else s

/-- The cycles of every engine are counted before its clock changes (R91, R240). -/
def State.bankBusy (s : State) : State := forAll (s.jik.engs.map (·.1)) (fun e t => t.countBusy e) s

/-- The engine holds no job any more: its status, its busy cycles, its registers as the next job finds them (R240, R243). -/
def State.freeEngine (s : State) (e : Nat) : State :=
  ((s.countBusy e).wr (Reg.engStat e) 0).onEng e fun x => { EngSt.init with kernels := x.kernels, held := x.held }

/-- The target of a job, or of a part of one, holds it no more; a crew's pins go (R201). -/
def State.vacate (s : State) (isCrew : Bool) (n : Nat) : State :=
  if isCrew then ((s.onCrew n fun _ => CrwSt.init).showCrew n).releaseCrew n else s.freeEngine n

/-- A target ends its job. A `DONE` whose queue is closed waits at its input, and holds the target and the tag until it enters
(R182, R222, R223). -/
def State.finishJob (s : State) (isCrew : Bool) (n tag status result : Nat) : State :=
  match nfind tag s.jik.flight with
  | none => s.vacate isCrew n
  | some x =>
    let q := s.doneQ x
    if s.rd (Reg.queCfg q) ≠ 0 ∧ heldProducer (s.prodKind q) ∧ !s.queueOpen q then
      let s := (s.jobOver x status).hold q (doneDesc x.desc status x.throttled result) (.ended isCrew n)
      if isCrew then s.onCrew n fun y => { y with due := true } else s.onEng n fun y => { y with wait := some .done }
    else (s.vacate isCrew n).jobDone tag status result

/-- A member ends its part, or a target its job: reported to the crew above, up the tree, else as the job's `DONE` (R227, R229). The
first argument bounds the depth of the tree of crews. -/
def State.partOver : Nat → State → Bool → Nat → Nat → Nat → Nat → State
  | 0, s, _, _, _, _, _ => s
  | fuel + 1, s, isCrew, n, tag, status, result =>
    match s.parentOf isCrew n tag with
    | none => s.finishJob isCrew n tag status result
    | some c =>
      let thr := match nfind tag s.jik.flight with | some x => x.throttled | none => false
      let s := (s.vacate isCrew n).onCrew c fun x =>
        { x with left := x.left.filter (· ≠ (isCrew, n)), done := x.done ++ [(status, thr, result)] }
      if (s.crew c).left = [] then
        let l := (s.crew c).done
        State.partOver fuel s true c tag (mergeStatus l) (min (2 ^ 27 - 1) (l.foldl (fun a p => a + p.2.2) 0))
      else s.showCrew c

/-- The engine ends its job (R222, R224); a cancelled one has been reported already. -/
def State.endJob (s : State) (e status result : Nat) : State :=
  match (s.eng e).job with
  | none => s
  | some j =>
    if (s.eng e).cut.isSome then s.freeEngine e else State.partOver 130 s false e (Desc.ofRec j).tag status result

/-- The job faults (R225): the record, the event, and the end of the job. A fault after the cancellation counts no more (R263). -/
def State.engFaultAt (s : State) (e code : Nat) : State :=
  match (s.eng e).job with
  | none => s
  | some j =>
    if (s.eng e).cut.isSome then s.freeEngine e
    else
      let tag := (Desc.ofRec j).tag
      let s := s.wr (Reg.engFault e) (BitVec.ofNat 32 (code * 2 ^ 28 + tag * 2 ^ 16 + (s.eng e).pc / 8 % 2 ^ 13))
      (s.raise .engFault e (engData false e tag (code * 2 ^ 24))).endJob e 2 0

/-! ### Taking jobs (R220, R227, R233, R243) -/

/-- The oldest `JOB` of a job queue (R220). -/
def State.frontJob (s : State) (q : Nat) : Option Rec := (s.queue q).held.find? fun r => (Desc.ofRec r).dkind == 4

/-- A `JOB` leaves its queue. -/
def State.takeJob (s : State) (q : Nat) (r : Rec) : State := s.onQueue q fun x => { x with held := x.held.erase r }

/-- A job starts, or a part of one: throttle in force is marked, and a job of the manifest that starts after its `START` because its
target was still busy is counted (R222, R233, R237). -/
def State.jobStarts (s : State) (tag : Nat) (part : Bool) : State :=
  match nfind tag s.jik.flight with
  | none => s
  | some x =>
    let late := match x.record with
      | some r => !part && x.behind && decide (s.clock.boundary + 20 * (s.recWord r 2).toNat < s.clock.time)
      | none => false
    let s := onlyIf late (fun t => t.countPerf Reg.engLateCnt 31 1) s
    s.onJik fun y => { y with flight := nput tag { x with ran := true, throttled := x.throttled || s.throttled } y.flight }

/-- An idle engine takes the oldest `JOB` of its job queue, never in the guard interval (R220, R243); a kernel that is not loaded
on it faults (R225). -/
def engineTakeJob (e : Nat) (s : State) : State :=
  let q := s.jobQ false e
  if (s.eng e).job.isSome ∨ s.jik.guard ∨ !s.engClock ∨ !s.b (Reg.engCfg e) 31 then s
  else match s.frontJob q with
  | none => s
  | some j =>
    let d := Desc.ofRec j
    let s := (s.takeJob q j).jobStarts d.tag (s.parentOf false e d.tag).isSome
    let k := nfind d.kernel (s.eng e).kernels
    let s := s.onEng e fun x =>
      { EngSt.init with kernels := x.kernels, held := x.held, job := some j, pc := k.getD 0 % 2 ^ 16, takenAt := s.now }
    let s := (s.countPerf (Reg.engJobs e) 31 1).wr (Reg.engStat e) (BitVec.ofNat 32 (2 ^ 31 + d.tag * 2 ^ 16 + d.kernel))
    if k.isSome then s else s.engFaultAt e 4

/-- Member `m` of a crew: whether it is a crew, its number and its weight (R226, R240). -/
def State.member (s : State) (c m : Nat) : Bool × Nat × Nat :=
  let w := s.rd (Reg.crwMember c m)
  (bit w 31, bf w 7 0, bf w 15 8)

/-- The parts of a job: each member's range, those with none left out (R227). -/
def State.divide (s : State) (c first lines : Nat) : List (Bool × Nat × Nat × Nat) :=
  let ms := (upto (s.f (Reg.crwCfg c) 28 24)).map (s.member c)
  let wsum := max 1 (ms.foldl (fun a m => a + m.2.2) 0)
  if lines = 0 then ms.map fun m => (m.1, m.2.1, first, 0)
  else ((ms.foldl (fun (p : Nat × List (Bool × Nat × Nat × Nat)) m =>
    let a := first + lines * p.1 / wsum
    let b := first + lines * (p.1 + m.2.2) / wsum
    (p.1 + m.2.2, if a < b then p.2 ++ [(m.1, m.2.1, a, b - a)] else p.2)) (0, []))).2

/-- A sub-job of a range (R227). -/
def subJob (j : Rec) (first lines : Nat) : Rec :=
  let d := Desc.ofRec j
  { d with line := first, arg := d.arg % 2 ^ 19 + lines * 2 ^ 19 : Desc }.toRec

/-- A crew takes a `JOB` and passes each member its part (R227); its clock is that of the engines (R20). -/
def crewTakeJob (c : Nat) (s : State) : State :=
  let q := s.jobQ true c
  if (s.crew c).job.isSome ∨ s.jik.guard ∨ !s.engClock ∨ !s.b (Reg.crwCfg c) 31 then s
  else match s.frontJob q with
  | none => s
  | some j =>
    let d := Desc.ofRec j
    let s := (s.takeJob q j).jobStarts d.tag (s.parentOf true c d.tag).isSome
    let parts := s.divide c d.line d.lines
    let s := s.onCrew c fun _ => { job := some j, parts := parts, left := parts.map fun p => (p.1, p.2.1), done := [], due := false }
    let s := (s.countPerf (Reg.crwJobs c) 31 1).showCrew c
    forAll parts (fun p t => t.pushOr (t.jobQ p.1 p.2.1) (subJob j p.2.2.1 p.2.2.2) .crew) s

/-- The members of crew `c` whose range, widened by the halo, holds line `l` (R228); a job without a range has none. -/
def State.lineMembers (s : State) (c l : Nat) : List (Bool × Nat) :=
  let halo := s.f (Reg.crwCfg c) 23 20
  ((s.crew c).parts.filter fun p => p.2.2.2 != 0 && p.2.2.1 ≤ l + halo && l < p.2.2.1 + p.2.2.2 + halo).map fun p => (p.1, p.2.1)

/-- A crew routes a `LINE` descriptor to every member whose widened range holds its line (R228). It is held back, as a producer, while
the data queue of one of them is closed (R182). DEDUCED: other descriptors leave the queue unrouted. -/
def crewLineRoute (c : Nat) (s : State) : State :=
  let q := s.dataQ true c
  match (s.queue q).held with
  | [] => s
  | r :: _ =>
    let d := Desc.ofRec r
    let dests := ((s.lineMembers c d.line).map fun m => s.dataQ m.1 m.2).filter fun k => s.rd (Reg.queCfg k) != 0
    let old := match (s.crew c).job with | some j => serialNewer 16 (Desc.ofRec j).stroke d.stroke | none => true
    if !s.engClock then s
    else if d.dkind ≠ 0 then (s.pop q).2
    else if old || (s.lineMembers c d.line).isEmpty then (s.pop q).2.stale q
    else if dests.all s.queueOpen then forAll dests (fun k t => t.append k r) (s.pop q).2
    else s

/-! ### Pushing jobs (R184, R220, R223) -/

/-- The engine or crew whose job queue `q` is. -/
def State.jobTarget (s : State) (q : Nat) : Option (Bool × Nat) :=
  if s.consKind q = 3 ∧ s.jobQ false (s.consId q) = q then some (false, s.consId q)
  else if s.consKind q = 4 ∧ s.jobQ true (s.consId q) = q then some (true, s.consId q)
  else none

/-- A descriptor is a `JOB` for the engine or crew whose job queue `q` is. -/
def State.jobFor (s : State) (q : Nat) (r : Rec) : Bool := (s.jobTarget q).isSome && (Desc.ofRec r).dkind == 4

/-- A `JOB` that did not come from the dispatcher enters a job queue: its tag is checked (R223). -/
def State.enterJob (s : State) (q : Nat) (r : Rec) : State :=
  match s.jobTarget q with
  | none => s.append q r
  | some (crew, n) =>
    let tag := (Desc.ofRec r).tag
    if tag < s.mtags ∨ (nfind tag s.jik.flight).isSome then
      (s.raise .engTagBusy n (engData crew n tag 0)).pushDone (s.hostDoneQ crew n) (doneDesc r 5 false 0)
    else
      (s.onJik fun y =>
        { y with flight := nput tag { crew := crew, target := n, desc := r, record := none, out := none, throttled := false, behind := false, ran := false }
                   y.flight }).append q r

/-- A descriptor is pushed by a producer that is held back: into an open queue it enters; into a closed one, or for a `JOB` in the
guard interval, it waits at the input (R182, R184, R220). -/
def State.pushHeld (s : State) (q : Nat) (r : Rec) : State :=
  if s.rd (Reg.queCfg q) = 0 then s
  else if (s.queue q).waits ≠ [] ∨ s.queueClosed q ∨ (s.jobFor q r ∧ s.jik.guard) then s.hold q r .outside
  else if s.jobFor q r then s.enterJob q r else s.append q r

/-- A host write of `PUSH_3` of a queue whose producer is the host (R184). -/
def quePush (q : Nat) (w : Word) (s : State) : State :=
  if s.prodKind q = 8 then
    let word := fun j => (nfind j (s.queue q).words).getD 0
    (s.onQueue q fun x => { x with words := [] }).pushHeld q (rec4 (word 0) (word 1) (word 2) w)
  else s

/-- Space frees in a queue and the oldest push held back completes (R182, R184); a target that was held with its `DONE` goes on. -/
def quePushRelease (q : Nat) (s : State) : State :=
  match (s.queue q).waits with
  | [] => s
  | w :: l =>
    let fresh := s.jobFor q w.desc && w.by_ == .outside
    if s.queueClosed q ∨ (fresh ∧ s.jik.guard) then s
    else
      let s := s.onQueue q fun x => { x with waits := l }
      match w.by_ with
      | .ended c n => ((s.vacate c n).freeTag (Desc.ofRec w.desc).tag).append q w.desc
      | _ => if fresh then s.enterJob q w.desc else s.append q w.desc

/-- `JOB`s held through the guard interval enter their queues after step 6, in the order of their push (R220). -/
def State.guardEntries (s : State) : State :=
  let held := (s.que.filter fun e => (s.jobTarget e.1).isSome).foldl (fun (m : NMap Nat) e =>
    e.2.waits.foldl (fun m w => nput w.order e.1 m) m) []
  forAll (held.map (·.2)) quePushRelease s

/-! ### The manifest (R230, R231) -/

/-- The record runs in the stroke in force (R230). -/
def State.recRuns (s : State) (r : Nat) : Bool :=
  let w := s.recWord r 0
  bit w 0 && s.clock.stroke.toNat % (bf w 27 24 + 1) == bf w 31 28 % 16

/-- The `JOB` of a record (R221, R230). -/
def State.recJob (s : State) (r : Nat) (out : Option (Nat × Nat)) : Rec :=
  let p := s.recWord r 6
  let vec := bit (s.recWord r 0) 3
  let i := s.recWord r 7
  let arg := bf (s.recWord r 4) 28 16 * 2 ^ 19 + bf (s.recWord r 1) 27 16 * 2 ^ 7
    + (match out with | some (_, j) => j * 2 ^ 4 + (if vec then 0 else 8) | none => 0)
  { dkind := 4, space := bf p 24 24, addr := bf p 23 0, len := 0, stream := if bit i 11 then bf i 10 0 else 0,
    line := bf (s.recWord r 4) 12 0, stroke := s.stroke16, tag := bf (s.recWord r 1) 9 0, dflags := 0, arg := arg : Desc }.toRec

/-- A record that is not run writes a `DONE` of its own (R231). -/
def State.recDone (s : State) (r status : Nat) : State :=
  s.pushDone (bf (s.recWord r 5) 11 0) (doneDesc (s.recJob r none) status false 0)

/-- The output slot of a record: claimed as the capture of a frame whose phase is the boundary (R231). -/
def State.claimSlot (s : State) (k : Nat) : Option (Nat × Nat) × State :=
  match s.writeSlot k with
  | none => (none, s.skipFrame k)
  | some j =>
    let s := (s.dropFrame k j).phaseKnown k s.clock.boundary
    let s := s.onSlot k j fun x =>
      { x.taken (s.f (Reg.fstSlipStat k) 29 28) with capStroke := s.clock.stroke.toNat, capOfs := 0, capTime := s.clock.boundary, lastAt := s.clock.time }
    (some (k, j), s.showSlip k)

/-- A target has work when a job is dispatched to it: it holds one, or one waits for it (R233). -/
def State.targetBusy (s : State) (crew : Bool) (n : Nat) : Bool :=
  let q := s.jobQ crew n
  (if crew then (s.crew n).job.isSome else (s.eng n).job.isSome) || (s.frontJob q).isSome || !(s.queue q).waits.isEmpty

/-- A record is not run: it is counted and reported SKIPPED (R231, R240). -/
def State.recSkip (s : State) (r : Nat) : State := (s.countPerf Reg.engSkipCnt 31 1).recDone r 6

/-- The `JOB` of a record goes to its target's queue, and its tag is in flight (R223, R231). An output slot whose job has nowhere to go
is emptied at the deadline. -/
def State.recPush (s : State) (r : Nat) (out : Option (Nat × Nat)) : State :=
  let crew := bit (s.recWord r 0) 1
  let target := bf (s.recWord r 0) 23 16
  let q := s.jobQ crew target
  let j := s.recJob r out
  if s.rd (Reg.queCfg q) = 0 then s.onJik fun y => { y with void := y.void ++ out.toList }
  else
    let x : Flight := { crew := crew, target := target, desc := j, record := some r, out := out, throttled := false,
                        behind := s.targetBusy crew target, ran := false }
    (s.onJik fun y => { y with flight := nput (bf (s.recWord r 1) 9 0) x y.flight }).pushOr q j .dispatcher

/-- A record's `START` arrives (R231, R237, R239). DEDUCED: `ENG_NO_INPUT` is raised for the first record of the stroke that finds its
input stopped, since each record runs at most once in a stroke. -/
def manifestRecordStart (r : Nat) (s : State) : State :=
  if !s.recRuns r || s.jik.ran.contains r then s
  else
    let s := s.onJik fun y => { y with ran := y.ran ++ [r] }
    let w := s.recWord r 0
    let i := s.recWord r 7
    let o := bf (s.recWord r 5) 31 16
    if ((bit w 2 || bit w 3) && s.thm.inForce) || !s.engClock || s.jik.guard || s.deadlineNs ≤ (s.recWord r 2).toNat then s.recSkip r
    else if bit i 11 && s.sourceStopped (bf i 10 0) then
      let told := s.jik.noInput
      let s := ((s.countErr Reg.engNoinputCnt 24 1).recDone r 3).onJik fun y => { y with noInput := true }
      onlyIf (!told) (fun t => t.raise .engNoInput (bf w 23 16) (engData (bit w 1) (bf w 23 16) (bf (s.recWord r 1) 9 0) 0)) s
    else if o.testBit 10 && !bit w 3 then
      match s.claimSlot (o % 1024) with
      | (some out, t) => t.recPush r (some out)
      | (none, t) => t.recSkip r
    else s.recPush r none

/-! ### The deadline (R234, R239) -/

/-- A job that has not completed at the deadline is cancelled (R234, R237, R239). -/
def State.cancelJob (s : State) (tag : Nat) : State :=
  match nfind tag s.jik.flight with
  | none => s
  | some x =>
    let stopped := !s.engClock
    let crewParts := (s.jik.crews.filter fun c => (match c.2.job with | some j => (Desc.ofRec j).tag == tag | none => false)).flatMap (·.2.done)
    let status := if crewParts.any (fun p => p.1 == 2) then 2 else if stopped then 4 else 1
    let s := (s.jobDone tag status 0).onJik fun y => { y with cutNow := y.cutNow + 1 }
    let s := s.raise .budgetOverrun x.target
      (engData x.crew x.target tag (x.throttled.toNat * 2 ^ 30 + stopped.toNat * 2 ^ 29))
    let s := s.countErr Reg.engOverrunCnt 24 1
    onlyIf x.throttled (fun t => t.countErr Reg.engOvrThrCnt 24 1) s

/-- Whether an engine that must stop its job has instructions of its bundle left to retire; a waiting instruction is abandoned, and
the rest of its bundle with it (R219, R263). -/
def EngSt.midBundle (x : EngSt) : Bool := x.wait.isNone && (if x.stopped then x.mid else x.pc % 32 != 0)

/-- The slot that a job in flight writes (R221, R231, R255). -/
def State.slotOf (s : State) (j : Rec) : Option (Nat × Nat) :=
  if (Desc.ofRec j).out then (nfind (Desc.ofRec j).tag s.jik.flight).bind (·.out) else none

/-- An engine's job is cancelled: the engine holds it no more, and retires the rest of its bundle (R219, R234). -/
def State.cutEngine (s : State) (e : Nat) : State :=
  match (s.eng e).job with
  | none => s
  | some j =>
    if (s.eng e).midBundle then
      ((s.countBusy e).wr (Reg.engStat e) 0).onEng e fun x => { x with stopped := true, mid := true, cut := some (s.slotOf j) }
    else s.freeEngine e

/-- A job that is over, whose `DONE` waits for room, is not cancelled: its target and its tag are free, and the `DONE` waits on
(R234, R236). -/
def State.letGo (s : State) (q : Nat) : State :=
  let s := forAll (s.queue q).waits (fun w t =>
    match w.by_ with | .ended c n => (t.vacate c n).freeTag (Desc.ofRec w.desc).tag | _ => t) s
  s.onQueue q fun x =>
    { x with waits := x.waits.map fun w => match w.by_ with | .ended _ _ => { w with by_ := .outside } | _ => w }

/-- Every `JOB` and sub-job leaves the queue, and its input when the dispatcher or a crew has pushed it (R234). -/
def State.dropJobs (s : State) (q : Nat) : State :=
  onlyIf (s.jobTarget q).isSome (fun t => t.onQueue q fun x =>
    { x with held := x.held.filter fun r => (Desc.ofRec r).dkind ≠ 4,
             waits := x.waits.filter fun w => w.by_ == .outside || (Desc.ofRec w.desc).dkind != 4 }) s

/-- The deadline passes (R234): engines stop, job queues empty, unfinished jobs are cancelled in ascending tag order, and the output
slots of cancelled and faulted jobs become EMPTY. -/
def deadline (s : State) : State :=
  let s := forAll (s.que.map (·.1)) (fun q t => t.letGo q) s
  let s := forAll (s.jik.engs.map (·.1)) (fun e t => t.cutEngine e) s
  let s := forAll (s.que.map (·.1)) (fun q t => t.dropJobs q) s
  let s := forAll (s.jik.flight.map (·.1)) (fun tag t => t.cancelJob tag) s
  let s := forAll (s.jik.crews.map (·.1)) (fun c t => t.vacate true c) s
  let s := forAll s.jik.void (fun p t => (t.onSlot p.1 p.2 SlotSt.emptied).showSlip p.1) s
  s.onJik fun y => { y with void := [], guard := true }

/-- A new stroke for the dispatcher: the guard interval is over, its registers and counts start anew (R232, R236, R240). -/
def State.jikNewStroke (s : State) : State :=
  let s := s.wr Reg.engLastStroke (BitVec.ofNat 32 (min 2047 s.jik.cutNow * 2 ^ 16 + min 2047 s.jik.okNow))
  let s := s.wr Reg.engDeadline (BitVec.ofNat 32 (min (2 ^ 26 - 1) s.deadlineNs))
  let s := forAll (s.jik.engs.map (·.1)) (fun e t => if (t.eng e).cut.isSome then t.freeEngine e else t) s
  s.onJik fun y => { y with guard := false, okNow := 0, cutNow := 0, noInput := false, ran := [] }

/-- Throttle is asserted while jobs run: they carry it in their `DONE` (R237, R238). -/
def State.markThrottled (s : State) : State :=
  let has := fun tag (j : Option Rec) => match j with | some r => (Desc.ofRec r).tag == tag | none => false
  let started := fun tag => (s.jik.engs.any fun e => has tag e.2.job) || s.jik.crews.any fun c => has tag c.2.job
  s.onJik fun y => { y with flight := y.flight.map fun f => if started f.1 then (f.1, { f.2 with throttled := true }) else f }

/-- An engine stops its job at the end of the bundle it is executing (R219, R239); one that waits abandons the waiting instruction and
what it has posted (R263). -/
def State.stopEngine (s : State) (e : Nat) : State :=
  if s.holdsJob e && (s.eng e).wait != some .done then
    ((s.countBusy e).onEng e fun x =>
      { x with stopped := true, mid := x.midBundle, wait := none, posted := if x.wait.isSome then [] else x.posted })
  else s

/-- `SYN_ENG` has stopped: every engine stops its job, which the deadline then reports STOPPED (R239). -/
def State.stopEngines (s : State) : State := forAll (s.jik.engs.map (·.1)) (fun e t => t.stopEngine e) s

/-- Host and DMA writes that a data region held back are performed once the engine is between jobs (R218). -/
def engHeldWrite (e : Nat) (s : State) : State :=
  if s.holdsJob e then s
  else
    let l := (s.eng e).held
    { s with work := l.foldl (fun m (w : Nat × List Byte) => writeBytes zeroByte m w.1 w.2) s.work }.onEng e fun x => { x with held := [] }

end Sys2Proof.Machine
end

