-- ==== Sys2Proof/Machine/Content.lean ====
section
/-! DEFINITION. Check 9 of R30: the records placed so far lie within the capacities of R4, name no absent resource, and meet the
conditions that the owning chapters tie to the reason `CONTENT` (R194, R195, R210, R226, R230, R264, R265, R277, R302, R310,
R332, R342), the head limits of R4, the icons of R303 and R304, the shadow of R46. DEDUCED: a condition that no rule ties to a
refusal is not checked, and each condition is judged when a segment that bears on it is read, on what has been placed with it. -/

namespace Sys2Proof.Machine

/-- Every entry of a list of pairs, earlier then later, satisfies `p`. -/
def pairsOk {α : Type} (p : α → α → Bool) : List α → Bool
  | [] => true
  | a :: l => l.all (p a) && pairsOk p l

/-- Two runs, each a start and a length, lie apart. -/
def runsApart (a b : Nat × Nat) : Bool := a.1 + a.2 ≤ b.1 || b.1 + b.2 ≤ a.1

/-! ### Slips (R194, R195, R210) -/

/-- The bank span of a slip: its first bank and its banks. -/
def State.slipBanks (s : State) (k : Nat) : Nat × Nat := (s.f (Reg.fstSlipCfg k) 23 16, 2 ^ s.f (Reg.fstSlipCfg k) 15 12)

/-- The row range of a slip: its first row and its rows. -/
def State.slipRows (s : State) (k : Nat) : Nat × Nat := (s.f (Reg.fstSlipRows k) 12 0, s.f (Reg.fstSlipRows k) 28 16)

/-- A slip keeps the bounds of R193 to R195: its span, its rows, its depth, and its slots within its capacity. -/
def State.slipOk (s : State) (k : Nat) : Bool :=
  let (b, n) := s.slipBanks k
  let (r, m) := s.slipRows k
  n ≤ 256 && b % n == 0 && b + n ≤ 256 && 1 ≤ m && r + m ≤ 6144 && 2 ≤ s.depth k && s.depth k ≤ 8
    && s.slotBeats k * s.depth k ≤ n * m

/-- The slips do not overlap (R194). -/
def State.slipsOk (s : State) : Bool :=
  s.slipList.all s.slipOk
    && pairsOk (fun j k => runsApart (s.slipBanks j) (s.slipBanks k) || runsApart (s.slipRows j) (s.slipRows k)) s.slipList

/-- The slips from which a watch head reads are uncompressed, with a floor of off, and read by `REPEAT_DROP` (R210). -/
def State.watchSlipsOk (s : State) : Bool :=
  (s.slipList.all fun k => !s.watchSlip k || (s.f (Reg.fstSlipCfg k) 29 28 == 0 && s.f (Reg.fstSlipComp k) 1 0 == 0))
    && s.liveEntries.all fun i => !s.watchFed (s.crossing i) || s.xformByte (s.crossing i).xform 0x10 % 4 == 0

/-! ### Queues, heads, watch heads, regions -/

/-- The queues' allotments lie apart within the pool of 131,072 descriptors (R179). -/
def State.queuesOk (s : State) : Bool :=
  let runs := ((upto 4096).filter fun q => s.rd (Reg.queCfg q) != 0).map fun q => (s.f (Reg.queBase q) 16 0, s.f (Reg.queSize q) 17 0)
  (runs.all fun r => 1 ≤ r.2 && r.1 + r.2 ≤ 131072) && pairsOk runsApart runs

/-- Each active head has 2 to 8 layers, and a layer belongs to at most one head (R4, R265). -/
def State.headsOk (s : State) : Bool :=
  let heads := (upto 64).filter s.headOn
  let lays := heads.flatMap fun h => (s.slotsOf h).map (s.layerNum h)
  (heads.all fun h => 2 ≤ s.headLayers h && s.headLayers h ≤ 8) && lays.all (· < 320) && pairsOk (fun a b => a != b) lays

/-- The heads that have a timing stay within the head limits of R4 at the chart's stroke rate (R268, R271). -/
def State.headLimitsOk (s : State) : Bool :=
  let num := match s.loader.hdr with | some h => h.strokeNum | none => s.clock.rateNum
  let den := match s.loader.hdr with | some h => max 1 h.strokeDen | none => s.clock.rateDen
  (((upto 64).filter fun h => s.headOn h && s.hTotal h != 0).all fun h =>
    s.hActive h ≤ 3840 && s.vActive h ≤ 2160 && s.pixParts h * num ≤ 600000000 * 420 * den) && s.pixSumOk num den

/-- Image `k` of the icon store meets R304. -/
def State.imageOk (s : State) (k : Nat) : Bool :=
  let (w, v) := s.imageSize k
  let at_ := (s.rd (Reg.iconDirWord k 1)).toNat
  (w == 0 && v == 0) || (w % 2 == 0 && 8 ≤ w && w ≤ 256 && 8 ≤ v && v ≤ 256 && at_ % 16 == 0
    && at_ + v * ((20 * (3 * w / 2) + 127) / 128 * 16) ≤ 0x200000)

/-- The icons of a watch head meet R303: images of one size that the store holds, cells inside the active area and apart. -/
def State.iconsOk (s : State) (h : Nat) : Bool :=
  let area : Rect := { x := 0, y := 0, w := s.hActive h, h := s.vActive h }
  ((s.icons h).all fun i =>
    let c := s.iconRect h i
    c.x % 2 == 0 && c.inside area && c.w != 0 && s.imageSize (s.f (Reg.headTtCfg h i) 15 8) == s.imageSize (s.f (Reg.headTtCfg h i) 7 0))
  && pairsOk (fun (a b : Rect) => !a.meets b) ((s.icons h).map (s.iconRect h))

/-- A watch head meets R302; what concerns its output group is judged once its stream is defined. -/
def State.watchHeadOk (s : State) (h : Nat) : Bool :=
  let p := s.outPort h
  s.ratioP h == 1 && 1 ≤ s.ratioQ h && s.ratioQ h ≤ 4
    && (!s.streamValid (s.f (Reg.headCfg h) 10 0)
      || ((s.lanes p).all fun q => s.role q == 2)
        && (s.target h < 2 || (s.lanes p).all fun q => (s.receivers p).any fun k => s.f (Reg.prtRbCfg k) 8 0 == q))

/-- At most 16 watch heads, each as R302 and R303 say, with the images of R304. -/
def State.watchHeadsOk (s : State) : Bool :=
  s.watchHeads.length ≤ 16 && (s.watchHeads.all fun h => s.watchHeadOk h && s.iconsOk h) && (upto 256).all s.imageOk

/-- Lookout region `r` of head `h` meets R310. -/
def State.regionOk (s : State) (h r : Nat) : Bool :=
  let a := s.lkRect h r
  let cells := ((s.icons h).map (s.iconRect h)).filter fun c => c.inside a
  a.x % 2 == 0 && a.w % 2 == 0 && 2 ≤ a.w && 1 ≤ a.h && a.x + a.w ≤ s.hActive h && a.y + a.h ≤ s.vActive h
    && (s.lkKind h r != 2
      || (s.watchHead h && (cells.map fun c => c.w * c.h).foldl (· + ·) 0 == a.w * a.h && pairsOk (fun x y => !x.meets y) cells))
    && (!s.b (Reg.headLkCfg h r) 28 || (s.watchHead h && (s.lkKind h r == 1 || s.lkKind h r == 2)))

/-- Every valid lookout region meets R310. -/
def State.regionsOk (s : State) : Bool :=
  (upto 64).all fun h => !s.headOn h || (s.regions h).all (s.regionOk h)

/-! ### Crews and the manifest -/

/-- The leaf engines of a crew's tree, to a depth of `fuel`; `none` where the tree is deeper, or names a crew that is not defined. -/
def State.leaves (s : State) : Nat → Nat → Option (List Nat)
  | 0, _ => none
  | fuel + 1, c =>
    if 128 ≤ c ∨ !s.b (Reg.crwCfg c) 31 then none
    else
      ((upto (s.f (Reg.crwCfg c) 28 24)).map (s.member c)).foldl (fun (a : Option (List Nat)) m =>
        a.bind fun l => if m.1 then (State.leaves s fuel m.2.1).map (l ++ ·) else some (l ++ [m.2.1])) (some [])

/-- The crew definitions in force meet R226. -/
def State.crewsOk (s : State) : Bool :=
  let crews := (upto 128).filter fun c => s.b (Reg.crwCfg c) 31
  let subs := crews.flatMap fun c => ((upto (s.f (Reg.crwCfg c) 28 24)).map (s.member c)).filter (·.1)
  (pairsOk (fun (a b : Bool × Nat × Nat) => a.2.1 != b.2.1) subs)
    && crews.all fun c =>
      1 ≤ s.f (Reg.crwCfg c) 28 24 && s.f (Reg.crwCfg c) 28 24 ≤ 16
        && ((upto (s.f (Reg.crwCfg c) 28 24)).all fun m => (s.member c m).2.2 != 0)
        && match s.leaves 128 c with
          | some l => l.length ≤ 256 && pairsOk (fun a b => a != b) l
          | none => false

/-- The manifest keeps R223, R230 and R232: tags distinct and below `MTAGS`, the guard within its bounds, targets, slips and queues
that the chart defines. -/
def State.manifestOk (s : State) : Bool :=
  let recs := (upto 1024).filter fun r => bit (s.recWord r 0) 0
  let tag := fun r => bf (s.recWord r 1) 9 0
  let target := fun r => bf (s.recWord r 0) 23 16
  s.mtags ≤ 1024 && 10 ≤ s.f Reg.engGuard 7 0 && s.f Reg.engGuard 7 0 ≤ 200
    && (recs.all fun r =>
      tag r < s.mtags
        && (!bit (s.recWord r 0) 1 || (target r < 128 && s.b (Reg.crwCfg (target r)) 31))
        && (!bit (s.recWord r 5) 26 || s.slipOn (bf (s.recWord r 5) 25 16)))
    && pairsOk (fun a b => tag a != tag b) recs

/-! ### Audio -/

/-- A TDM input in target mode has a converter (R332). -/
def State.tdmOk (s : State) : Bool :=
  (upto 8).all fun n =>
    !s.b (Reg.audTdmCfg n) 31 || s.b (Reg.audTdmCfg n) 30
      || !((upto 1024).any fun c => s.f (Reg.audInSrc c) 31 29 == 2 && s.f (Reg.audInSrc c) 26 16 == n) || (s.converter 2 n).isSome

/-- The clips fit the clip store (R342). -/
def State.clipsOk (s : State) : Bool := (s.aud.clips.map fun e => e.2.length).foldl (· + ·) 0 ≤ 419430

/-! ### A segment's records -/

/-- A kernel image fits the code region of each engine that receives it, and asks for an instruction set that the device has (R217,
R264). -/
def State.kernelOk (s : State) (k : KernelImage) : Bool :=
  k.kernel < 4096 && k.major == s.f Reg.engIsa 15 8 && k.minor ≤ s.f Reg.engIsa 7 0
    && k.engines.all fun e => k.addr + k.bytes.length ≤ s.codeTop e.val

/-- A preload image has the geometry of a slip that the chart defines (R195, R202). -/
def State.preloadOk (s : State) (p : Nat × List (List Lane)) : Bool :=
  p.1 < 1024 && s.slipOn p.1 && p.2.length == s.slipHeight p.1 && p.2.all fun l => l.length == s.slipWords p.1

/-- The lighting plan names strings, heads, zones, lamps and pins that the device has (R351, R356, R359, R363, R368). -/
def lightPlanOk (p : LightPlan) : Bool :=
  (p.strings.all fun e => e.1 < 528) && (p.zoneFloors.all fun e => e.1 < 64 * 512 && e.2 ≤ 65536) && p.dimHeads.all (· < 64)
    && (p.lumMax.all fun e => e.1 < 16) && p.neighbours.all fun e => e.1 < 80 && e.2 < 80

/-- The records of a segment name registers, entries, ports, stages and receivers that the device has; `s` is the state with the
segment placed (R4, R46, R156, R277). -/
def State.recordsOk (s : State) (c : SegContent) : Bool :=
  (c.regs.all fun e => (regRow? e.1).isSome) && (c.crossings.all fun e => e.1 < 32768 && dstInRange (Crossing.ofRec (rec4 e.2.1 e.2.2.1 e.2.2.2.1 e.2.2.2.2))) && (c.ports.all fun p => p.port < 512)
    && c.rbLocked.all (· < 32) && c.clips.all (fun e => e.1 < 32) && s.xtb.stages.length ≤ 64
    && s.f Reg.chtAmdShadow 11 0 ≤ 2048 && c.kernels.all s.kernelOk && c.preloads.all s.preloadOk
    && match c.light with | some p => lightPlanOk p | none => true

/-- Check 9 of R30 on the state with the segment placed. -/
def State.contentOk (s : State) (c : SegContent) : Bool :=
  s.recordsOk c && s.slipsOk && s.watchSlipsOk && s.queuesOk && s.headsOk && s.headLimitsOk && s.watchHeadsOk && s.regionsOk && s.crewsOk
    && s.manifestOk && s.tdmOk && s.clipsOk

end Sys2Proof.Machine
end

