-- ==== Sys2Proof/Machine/Field.lean ====
section
/-! DEFINITION. Field units and life ledgers: identity records, their classes, the ledgers and their write-back (R372 to R384). Units
are numbered as in R383: a port by its number, lamp board n by 512 + n. -/

namespace Sys2Proof.Machine

/-- Replace the field units' own state. -/
def State.onFld (s : State) (g : FldSt → FldSt) : State := { s with fld := g s.fld }

/-- Unit `u` as last read. -/
def State.unit (s : State) (u : Nat) : UnitSt := nget (fun _ => UnitSt.init) s.fld.units u

/-- Unit `u` takes the state `x`. -/
def State.setUnit (s : State) (u : Nat) (x : UnitSt) : State :=
  s.onFld fun f => { f with units := nset (fun _ => UnitSt.init) f.units u x }

/-- Replace ledger entry `k` (R380, R396). -/
def State.setLedger (s : State) (k : Nat) (l : Ledger) : State := { s with keep := s.keep.setEntry k l }

/-- The strings that the `LIGHT` segment assigns to a unit (R373). -/
def State.unitStrings (s : State) (u : Nat) : List Nat := (s.lgt.cfg.strings.filter fun p => p.2.unit == some u).map (·.1)

/-- The display port or lamp board a unit is: a lamp board from 512 on (R383). -/
def isBoard (u : Nat) : Bool := 512 ≤ u

/-! ### Classes (R375, R376) -/

/-- `TRUST` of a record: 0 INVALID, 1 UNTRUSTED, 2 TRUSTED; and the anchor that verified it (R375). -/
def classify (anchors : List (List Byte)) (rec_ : List Byte) : Nat × Nat :=
  let version := le rec_ 4 1
  if rec_.length ≠ 256 ∨ rec_.take 4 ≠ [0x46, 0x55, 0x49, 0x44] ∨ (version ≠ 1 ∧ version ≠ 2)
      ∨ le rec_ 0x9C 4 ≠ crc32 (rec_.take 0x9C) then (0, 0)
  else
    let anchor := le rec_ 6 1
    let tried := if version = 1 ∨ anchor = 0xFF then upto anchors.length else [anchor]
    let digest := sha256 (rec_.take 0xA0)
    match tried.find? fun k => match anchors[k]? with
      | some key => ecdsaVerify key digest (rec_.drop 0xC0)
      | none => false with
    | some k => (2, k)
    | none => (1, 0)

/-! ### The ledger (R377 to R379) -/

/-- (i ÷ ref)^(n ÷ 16) in 2^-20: the sixteenth root of the power, rounded down (R377); a reference of 0 has no result stated. -/
def currentFactor (i ref n : Nat) : Nat :=
  if ref = 0 then Config.unstated 24 (i * 256 + n)
  else
    let v := i ^ n * 2 ^ 320 / ref ^ n
    rootBelow 2 208 (rootBelow 2 416 (rootBelow 2 832 (rootBelow 2 1664 v)))

/-- W(T) in 1/25,600 at a temperature in 0.1 °C (R374, R377). -/
def tempWeight (rec_ : List Byte) (t : Int) : Nat :=
  let x := (clampI (-400) 1100 t + 400).toNat
  let w (i : Nat) := le rec_ (0x68 + 2 * min 15 i) 2
  w (x / 100) * (100 - x % 100) + w (x / 100 + 1) * (x % 100)

/-- The PWM periods, of a matrix cell the line slots, that a second holds (R352, R353). -/
def State.slotsPerSecond (s : State) (c : Nat) : Nat :=
  32000000 / (s.pwmCounts * (if c < 512 then max 1 (min 16 (s.f (Reg.lgtMatCfg (c / 256)) 28 24)) else 1))

/-- The mean applied duty of a string over the second, in 1/65,536: periods in which it was not driven count with duty 0 (R377). -/
def State.meanDuty (s : State) (c : Nat) : Nat :=
  let (sum, n) := nget (fun _ => (0, 0)) s.lgt.duties c
  sum / max 1 (max n (s.slotsPerSecond c))

/-- What a string adds to its unit's equivalent life in one second, in 2^-20 s (R377). -/
def State.wear (s : State) (rec_ : List Byte) (c : Nat) : Nat :=
  let ntc := s.f (Reg.lgtChCfg (sinkOf c)) 27 26
  let t := if s.b (Reg.lgtNtc ntc) 31 then 1100 else tempOf (s.rd (Reg.lgtNtc ntc))
  s.meanDuty c * currentFactor (s.amplitude c) (le rec_ 0x64 2) (le rec_ 0x67 1) * tempWeight rec_ t / (65536 * 25600)

/-- The relative output R as a fraction: numerator and denominator (R374, R378). -/
def relOutput (rec_ : List Byte) (hours : Nat) : Int × Nat :=
  let rated := le rec_ 0x60 4
  if le rec_ 4 1 = 1 then (160 * rated - 3 * hours, 160 * rated)
  else
    let full := 16 * rated
    let i := min 6 (4 * hours / max 1 full)
    let c (k : Nat) : Int := le rec_ (0x8C + k) 1
    (c i * full + (c (i + 1) - c i) * (4 * hours - i * full), 256 * full)

/-- C_LIFE in 1/4,096 and whether it has reached its limit (R378); a rating of 0 has no result stated. -/
def lifeComp (rec_ : List Byte) (hours : Nat) : Nat × Bool :=
  let own := if le rec_ 4 1 = 2 then le rec_ 0x88 2 else 0
  let top := if own = 0 then 5120 else min own 5120
  let r := relOutput rec_ hours
  let c : Nat :=
    if r.2 = 0 then Config.unstated 25 hours
    else if r.1 ≤ 0 then top
    else (openDiv 26 (4096 * r.2) r.1.toNat).toNat
  (min c top, decide (top ≤ c))

/-- The unit's status shows what its ledger has reached: `CAPPED`, `WORN`, `SAT`; the last two are reported once
(R377 to R379). -/
def State.ledgerShows (s : State) (u k : Nat) : State :=
  let r := (s.unit u).record
  let l := s.keep.entry k
  let c := lifeComp r l.hours
  let worn := decide (144 * le r 0x60 4 ≤ 10 * l.hours)
  let sat := decide (l.hours = 0xFFFFFFFF)
  let s := s.setLedger k { l with comp := c.1, worn := l.worn || worn, sat := l.sat || sat }
  let s := onlyIf (worn && !l.worn) (fun t => t.raise .life90 u u) s
  let s := onlyIf (sat && !l.sat) (fun t => t.raise .lifeSat u u) s
  ((s.setB (Reg.fldUnitStat u) 26 c.2).setB (Reg.fldUnitStat u) 25 (l.worn || worn)).setB (Reg.fldUnitStat u) 24 sat

/-! ### Writing back (R381) -/

/-- The 32 bytes of the ledger region of a record (R374). -/
def ledgerRegion (l : Ledger) (wakes : Nat) : List Byte :=
  let b := leBytes 4 l.hours ++ leBytes 4 wakes ++ leBytes 4 l.wseq ++ List.replicate 16 (0 : Byte)
  b ++ leBytes 4 (crc32 b)

/-- Write the ledger region back to a unit with a ledger: a `WRITE_ID` to a display head in RUN, the first of two pages to a lamp
board (R381); none while one is on its way. -/
def State.writeBack (s : State) (u : Nat) : State :=
  match (s.unit u).entry with
  | none => s
  | some k =>
    if s.fld.writing.contains u then s
    else
      let l := s.keep.entry k
      let l := { l with wseq := (l.wseq + 1) % 2 ^ 32, written := some l.hours }
      let s := s.setLedger k l
      let bytes := ledgerRegion l s.keep.wakes
      if isBoard u then
        (s.onFld fun f => { f with writing := f.writing ++ [u], pages := nput u (bytes.drop 16) f.pages }).send (.lampWrite (u - 512) 0xA0 (bytes.take 16))
      else if s.ladder (s.lead u) = 5 then
        (s.onFld fun f => { f with writing := f.writing ++ [u] }).request (s.lead u)
          { use := .writeBack 0, op := 3, addr := 0x10A0, len := 32, data := bytes }
      else s.writeBackFailed u

/-- A page written to a lamp board has completed, or failed (R381): the second page of the region follows the first. -/
def lampBoardWriteDone (n : Nat) (ok : Bool) (s : State) : State :=
  let u := 512 + n
  if !s.fld.writing.contains u then s
  else if !ok then s.writeBackFailed u
  else match nfind u s.fld.pages with
    | some page => (s.onFld fun f => { f with pages := ndel u f.pages }).send (.lampWrite n 0xB0 page)
    | none => s.onFld fun f => { f with writing := f.writing.filter (· ≠ u) }

/-! ### Reading a unit (R372 to R380) -/

/-- A unit's ledger is no longer the one its serial keyed: the unit has gone, or has no ledger any more (R373, R380). -/
def State.dropLedger (s : State) (u : Nat) : State :=
  match (s.unit u).entry with
  | none => s
  | some k =>
    let st := Reg.fldUnitStat u
    let s := (s.setUnit u { s.unit u with entry := none }).onFld fun f => { f with gone := f.gone.filter (· ≠ k) ++ [k] }
    (((s.setB st 26 false).setB st 25 false).setB st 24 false).wr (Reg.fldUnitLedger u) 0

/-- The units that hold ledger entries are present (R380). -/
def State.entryPresent (s : State) (k : Nat) : Bool := s.fld.units.any fun p => p.2.entry == some k

/-- The entry that a new serial takes: the lowest free one, else the one not present for longest (R380): last seen in the earliest wake,
and in this wake the one that went first. -/
def State.newEntry (s : State) : Nat × Bool :=
  match (upto 128).find? fun i => (s.keep.entry i).serial == 0 with
  | some i => (i, false)
  | none =>
    let age := fun i => (s.keep.entry i).lastWake * 256 + (if s.fld.gone.contains i then s.fld.gone.idxOf i + 1 else 0)
    match (upto 128).filter fun i => !s.entryPresent i with
    | [] => (0, true)
    | i :: l => (l.foldl (fun b j => if age j < age b then j else b) i, true)

/-- A unit has a ledger: its record is TRUSTED, and the `LIGHT` segment assigns strings to it (R373, R376). -/
def State.hasLedger (s : State) (u : Nat) : Bool :=
  s.f (Reg.fldUnitStat u) 30 29 == 2 && !s.identOnly u && !(s.unitStrings u).isEmpty

/-- A TRUSTED record with strings keys its ledger entry (R380): the greater of the entry and of a correct `LEDGER` of an old
serial; a new serial starts its own entry. The first read of the unit in a wake writes it back (R381). -/
def State.keyLedger (s : State) (u : Nat) (rec_ : List Byte) : State :=
  let serial := le rec_ 8 8
  let good := le rec_ 0xBC 4 == crc32 ((rec_.drop 0xA0).take 28)
  let hours := if good then le rec_ 0xA0 4 else 0
  let found := (upto 128).find? fun i => (s.keep.entry i).serial == serial
  let (k, full) := match found with | some i => (i, false) | none => s.newEntry
  let old := match found with | some i => s.keep.entry i | none => { Ledger.init with serial := serial, hours := 0 }
  let first := found.isNone || old.written.isNone || old.lastWake != s.keep.wakes
  let s := s.setLedger k { old with
    hours := max old.hours hours, rated := le rec_ 0x60 4, lastWake := s.keep.wakes
    wseq := if good then le rec_ 0xA8 4 else old.wseq }
  let s := forAll ((s.fld.units.filter fun p => p.2.entry == some k).map (·.1)) (fun v t => t.dropLedger v) s
  let s := onlyIf full (fun t => t.raise .fldTableFull u u) (s.onFld fun f => { f with gone := f.gone.filter (· ≠ k) })
  let s := onlyIf found.isNone (fun t => (onlyIf t.nvs.ledgersDone (·.writeLedgers) t).raise .fldUnitNew u u) s
  let s := (s.setUnit u { record := rec_, entry := some k, seen := true }).wr (Reg.fldUnitLedger u) (BitVec.ofNat 32 (0x80 + k))
  onlyIf first (fun t => t.writeBack u) (s.ledgerShows u k)

/-- The read of a unit's record has ended with `rec_`, or failed (R375, R376, R380). -/
def State.unitRead (s : State) (u : Nat) (rec_ : Option (List Byte)) : State :=
  let bytes := rec_.getD []
  let (trust, anchor) := classify s.loader.anchors bytes
  let stat := rec_.isSome.toNat * 2 ^ 31 + trust * 2 ^ 29 + le bytes 5 1 % 4 * 2 ^ 27 + anchor % 16 * 2 ^ 20 + le bytes 4 1 % 4 * 2 ^ 18
  let s := ((s.dropLedger u).wr (Reg.fldUnitStat u) (BitVec.ofNat 32 stat)).wr (Reg.fldUnitLedger u) 0
  let s := s.setUnit u { record := bytes, entry := none, seen := true }
  let s := onlyIf (trust ≠ 2) (fun t => t.raise .fldUntrusted u u) s
  (if s.hasLedger u then s.keyLedger u bytes else s).refreshAmps

/-- The `LIGHT` segment is placed: units on ports read before it now have strings, and a ledger (R373); lamp boards are read now. -/
def State.keyUnits (s : State) : State :=
  (forAll ((s.fld.units.map (·.1)).filter fun u => u < 512 && s.hasLedger u && (s.unit u).entry.isNone)
    (fun u t => t.keyLedger u (t.unit u).record) s).refreshAmps

/-- The `LIGHT` segment is as if never placed: no unit has strings, or a ledger (R373). -/
def State.dropLedgers (s : State) : State := forAll (s.fld.units.map (·.1)) (fun u t => t.dropLedger u) s

/-- A unit's record read completes (R372, R375): a display or camera head gives its four parts over the link, a lamp board the
bytes read, `none` where the read failed. -/
def identRecordRead (u : Nat) (board : Option (List Byte)) (s : State) : State :=
  if isBoard u then (if s.lgt.placed then s.unitRead u board else s)
  else
    let parts := (upto 4).map fun k => nfind k (s.port (s.lead u)).ident
    if parts.all Option.isSome then
      let l := parts.map (·.getD [])
      s.unitRead u (if l.any (·.isEmpty) then none else some l.flatten)
    else s

/-- The serial of a lamp board, re-read every 10 s (R372, R382): a changed serial leaves its strings with nominal bins and a
C_LIFE of 1 until the full read ends. -/
def lampBoardPoll (n : Nat) (serial : Option Nat) (s : State) : State :=
  let u := 512 + n
  match serial with
  | none => s
  | some v =>
    if !s.lgt.placed ∨ ((s.unit u).record ≠ [] ∧ v = le (s.unit u).record 8 8) then s
    else
      (((((s.dropLedger u).setUnit u UnitSt.init).onFld fun f => { f with writing := f.writing.filter (· ≠ u), pages := ndel u f.pages }).wr
        (Reg.fldUnitStat u) 0).wr (Reg.fldUnitLedger u) 0).refreshAmps

/-- The units to which the `LIGHT` segment assigns strings have all had their record read (R397). -/
def State.unitsSeen (s : State) : Bool :=
  s.lgt.placed && s.lgt.cfg.strings.all fun p => match p.2.unit with
    | some u => (s.unit u).seen
    | none => true

/-- The one write of `LEDGERS` after a wake, when every unit has been read or 10 s after RUNNING was entered (R397). -/
def ledgersWrite (s : State) : State :=
  if s.nvs.ledgersDone || !(s.unitsSeen || s.running) then s
  else (s.writeLedgers).onNvs fun n => { n with ledgersDone := true }

/-! ### Once per second (R377) -/

/-- One second of a unit with a ledger: the ledger advances by whole 1/16 h, the rest stays as its fraction (R377, R378, R381). -/
def State.ledgerSecond (s : State) (u k : Nat) : State :=
  let r := (s.unit u).record
  let l := s.keep.entry k
  let d := ((s.unitStrings u).map (s.wear r)).foldl max 0
  let total := l.frac + d
  let hours := l.hours + total / (225 * 2 ^ 20)
  let s := s.setLedger k { l with hours := min hours 0xFFFFFFFF, frac := total % (225 * 2 ^ 20) }
  if total < 225 * 2 ^ 20 then s
  else
    let s := (s.ledgerShows u k).refreshAmps
    let due := match (s.keep.entry k).written with | some w => decide (w + 128 ≤ min hours 0xFFFFFFFF) | none => true
    onlyIf due (fun t => t.writeBack u) s

/-- The light die advances the ledgers (R377); from a power-down signal to the release after it accrual stands still (R399). -/
def ledgerAdvance (s : State) : State :=
  if s.nvs.powerDown then s
  else
    let units := s.fld.units.filterMap fun p => p.2.entry.map fun k => (p.1, k)
    (forAll units (fun p t => t.ledgerSecond p.1 p.2) s).onLgt fun g => { g with duties := [] }

end Sys2Proof.Machine
end

