-- ==== Sys2Proof/Machine/Masters.lean ====
section
/-! DEFINITION. The masters of the quay: what is outstanding and held back, a master's reset, the PCIe link (R445 to R458). -/

namespace Sys2Proof.Machine

/-- Replace the quay's part of the state. -/
def State.onQuay (s : State) (g : QuaySt → QuaySt) : State := { s with quay := g s.quay }

/-- The bits of `QUAY_STAT` follow the requests held back (R470). -/
def State.showHeldBack (s : State) : State :=
  s.wr Reg.quayStat (BitVec.ofNat 32 (((upto 15).filter fun m => s.quay.held.any fun q => q.master.num == m).foldl (fun a m => a + 2 ^ m) 0))

/-- A master resets alone: its outstanding IDs retire without responses, what it had held back is gone (R453). -/
def State.masterReset (s : State) (m : Nat) : State :=
  let s := s.onQuay fun q => { q with
    held := q.held.filter fun r => r.master.num != m
    outstanding := q.outstanding.filter fun o => o.1 != m }
  (s.showHeldBack).raise .quayMasterReset 0 m

/-- The PCIe link goes down: the endpoint master resets (R453, R472). -/
def State.linkLost (s : State) : State :=
  if s.b Reg.quayPcieStat 31 then
    (((s.setB Reg.quayPcieStat 31 false).setF Reg.quayPcieStat 18 0 0).raiseFree .pcieLinkDown 0).masterReset 0
  else s

/-- The PCIe link enters L0 from down, at a width of `lanes` and a rate code (R455, R472), once `SYN_PCIE` has unmuted and while it
runs (R84, R88). -/
def pcieLinkUp (lanes speed : Nat) (s : State) : State :=
  if s.b Reg.quayPcieStat 31 || !(s.synState 6 == 2 || s.synState 6 == 3) then s
  else (((s.setB Reg.quayPcieStat 31 true).setF Reg.quayPcieStat 18 16 lanes).setF Reg.quayPcieStat 2 0 speed).raiseFree .pcieLinkUp 0

end Sys2Proof.Machine
end

