-- ==== Sys2Proof/Machine/SynSteps.lean ====
section
/-! DEFINITION. What a synthesizer's stops and locks do to its domains, and the throttle (R84 to R91, R414, R415). -/

namespace Sys2Proof.Machine

/-- The domains of synthesizer `i` stop at their safe points, watch heads excepted (R88, R89); a stop of `SYN_CORE` by its error
limit asserts `FAULT_N`. -/
def State.stopDomains (s : State) (i : Nat) (limit : Bool) : State :=
  if i = 0 then (s.onSyn 0 fun x => { x with halted := true }).onPwr fun p => { p with fault := p.fault || limit }
  else if i = 1 then (s.stopEngines).onSyn 1 fun x => { x with halted := true, again := false }
  else if synVid i then (s.haltHeads i).onSyn i fun x => { x with halted := true, again := false }
  else if i = 6 then s.linkLost
  else s.haltPorts i

/-- A synthesizer declares lock: it unmutes, or re-locks from coast, and its domains start again, those that wait for a boundary at the
next one (R84 to R86, R90, R317). DESIGN CHOICE (R92 names no event for it): `REF_LOST` clears with the lock. -/
def synLock (i : Nat) (s : State) : State :=
  let st := s.synState i
  if !synIndex i || !(st == 1 || st == 3 || st == 4) || (i == 0 && st == 4) then s
  else
    let again := st != 1 || (s.synOf i).relock
    let s := (((s.setSynState i 2).setB (Reg.synStat i) 21 false).onSyn i fun x => { x with relock := false, halted := x.halted && i != 0, again := x.halted })
    let s := onlyIf again (fun t => t.raise .synRelocked i i) s
    let s := if synVid i then s.timingCleared i else if 8 ≤ i then s.wakePorts i else s
    s.synStaleCheck i

/-- A coasting synthesizer's measured error, in 0.1 ppm (R87): beyond ±0.5 % it stops, and its domains with it (R88). DESIGN CHOICE: R87
speaks of coasting, so a STOPPED one, whose output stays live, is not measured any more. -/
def synFerrMeasure (i : Nat) (err : Int) (s : State) : State :=
  if synIndex i && s.synState i == 3 then
    let s := s.setI32 (Reg.synFerr i) err
    if 50000 < err.natAbs then (((s.setSynState i 4).raise .synCoastLimit i i).stopDomains i true) else s
  else s

/-- A write of `RELOCK` (R90). DESIGN CHOICE: for a synthesizer that was OFF or in its first ACQUIRE the lock that follows is no re-lock
of R93 and raises no `SYN_RELOCKED`; from NO_BAND on it does. -/
def synRelock (i : Nat) (w : Word) (s : State) : State :=
  if !bit w 0 || !synIndex i || (s.running && s.feedsWatch i) || (i == 0 && s.synState 0 == 4) then s
  else ((s.stopDomains i false).onSyn i fun x => { x with relock := x.relock || decide (2 ≤ s.synState i) }).synAcquire i

/-- A host write of a band entry: ignored from RUNNING for a synthesizer that feeds a watch head or port (R82, R90). -/
def bandWrite (i a : Nat) (mask w : Word) (s : State) : State :=
  if s.running && s.feedsWatch i then s else s.wr a (mergeMask mask (s.rd a) w)

/-- A sample of the thermal monitor with what hangs on it: stale bands, the divider of `SYN_ENG`, the jobs that run under throttle
(R83, R91, R238, R409, R415). -/
def thmSampleAll (temps : List Sensed) (s : State) : State :=
  let t := thmSample temps s
  if !t.matrixUp then t
  else
    let t := onlyIf (t.throttled != (t.synOf 1).half) State.bankBusy t
    let t := t.synStaleAll.engDivider t.throttled
    if t.throttled then t.markThrottled else t

end Sys2Proof.Machine
end

