-- ==== Sys2Proof/Machine/Charts.lean ====
section
/-! DEFINITION. The chart loader: the binary a chart is, the checks of acceptance, reading and placing segments, PRIMARY and GOLDEN,
the chart key hash, flash writes (R24 to R43). -/

namespace Sys2Proof.Machine

/-- Replace the loader's part of the state. -/
def State.onLoader (s : State) (g : LoaderSt → LoaderSt) : State := { s with loader := g s.loader }

/-! ### The binary (R24 to R29) -/

/-- `n` bytes at offset `o`, little-endian. -/
def bytesAt (bs : List Byte) (o n : Nat) : Nat := leNat ((bs.drop o).take n)

/-- The header fields (R25). -/
def Header.parse (bs : List Byte) : Header :=
  { minor := bytesAt bs 4 2, major := bytesAt bs 6 2, deviceId := bytesAt bs 8 4, flags := bytesAt bs 0xC 4, chartId := bytesAt bs 0x10 8,
    baseId := bytesAt bs 0x18 8, strokeNum := bytesAt bs 0x20 4, strokeDen := bytesAt bs 0x24 4, segCount := bytesAt bs 0x28 2,
    totalLen := bytesAt bs 0x2C 4, dirCrc := bytesAt bs 0x30 4 }

/-- `SIGNED` and `TEST` of the header. -/
def Header.signed (h : Header) : Bool := h.flags.testBit 1
def Header.test (h : Header) : Bool := h.flags.testBit 0

/-- A directory entry (R27). -/
def DirEntry.parse (bs : List Byte) : DirEntry :=
  { typ := bytesAt bs 0 1, order := bytesAt bs 1 1, offset := bytesAt bs 4 4, length := bytesAt bs 8 4, crc := bytesAt bs 0xC 4 }

/-- The directory's entries. -/
def parseDir (n : Nat) (bs : List Byte) : List DirEntry := (upto n).map fun i => DirEntry.parse (bs.drop (16 * i))

/-- The directory holds a segment of a type; where it stands in the load order. -/
def hasType (d : List DirEntry) (t : Nat) : Bool := d.any fun e => e.typ == t
def orderOf (d : List DirEntry) (t : Nat) : Nat := match d.find? fun e => e.typ == t with | some e => e.order | none => 256

/-- Two entries lie apart. -/
def apart (a b : DirEntry) : Bool := runsApart (a.offset, a.length) (b.offset, b.length)

/-- Segment `a` comes before segment `b` where both are present (R29). -/
def comesBefore (d : List DirEntry) (a b : Nat) : Bool := !hasType d a || !hasType d b || orderOf d a < orderOf d b

/-- A directory meets R24, R27 and R29 and lists each type once, `TRUST` at its length (R28); a chart in flash is at most 64 MiB. -/
def dirOk (d : List DirEntry) (flash : Bool) : Bool :=
  (d.all fun e => e.offset % 4096 == 0 && 4096 ≤ e.offset && 1 ≤ e.length && e.order < d.length && (e.typ != 10 || e.length == 0x600)
      && (!flash || e.offset + e.length ≤ 0x4000000))
    && pairsOk (fun a b => a.order != b.order && a.typ != b.typ && apart a b) d
    && (!hasType d 10 || orderOf d 10 == 0)
    && (!hasType d 1 || orderOf d 1 == (if hasType d 10 then 1 else 0))
    && ([4, 5, 6, 7, 8].all fun t => comesBefore d 2 t)
    && comesBefore d 5 6

/-- Check 6 of R30: 0, or the reason of R31. `full` is a full chart, which must hold the required segments. -/
def dirCheck (h : Header) (dirBytes : List Byte) (full flash : Bool) : Nat :=
  let d := parseDir h.segCount dirBytes
  if h.segCount < 2 ∨ 10 < h.segCount ∨ crc32 (dirBytes.take (16 * h.segCount)) ≠ h.dirCrc ∨ !dirOk d flash then 6
  else if (d.any fun e => e.typ == 0 || 10 < e.typ) || (full && !(hasType d 1 && hasType d 2 && hasType d 9))
    || (h.signed && !hasType d 10) then 7
  else 0

/-- Checks 1 to 5 of R30: 0, or the reason of R31. -/
def headerCheck (bs : List Byte) (full : Bool) : Nat :=
  let h := Header.parse bs
  if bs.take 4 ≠ [0x44, 0x47, 0x58, 0x43] then 1
  else if crc32 (bs.take 0xFC) ≠ bytesAt bs 0xFC 4 then 2
  else if h.major ≠ 3 ∨ 2 < h.minor then 3
  else if h.deviceId / 65536 ≠ 0xD512 ∨ 0xB0 < h.deviceId % 65536 then 4
  else if full ∧ h.baseId ≠ 0 then 0xF
  else if h.strokeDen = 0 ∨ 1001 * h.strokeNum < 24000 * h.strokeDen ∨ 120 * h.strokeDen < h.strokeNum then 5
  else 0

/-- The checks of a `TRUST` segment against the header and directory bytes (checks 7 of R30, R33, R34): 0, or the reason. -/
def LoaderSt.trustCheck (l : LoaderSt) (h : Header) (image trust : List Byte) : Nat :=
  if !h.signed then 0
  else if match l.otpHash with | some k => sha256 (trust.take 64) != k | none => false then 9
  else if !ecdsaVerify (trust.take 64) (sha256 (image ++ trust.take 0x5C0)) ((trust.drop 0x5C0).take 64) then 0xA
  else if l.otpHash.isSome && h.test && !l.otpTest then 0xE
  else 0

/-- The digests and the anchors of a `TRUST` segment (R33). -/
def trustDigests (h : Header) (t : List Byte) : List (List Byte) := (upto (h.segCount - 1)).map fun i => (t.drop (0x80 + 32 * i)).take 32
def trustAnchors (t : List Byte) : List (List Byte) := (upto (bytesAt t 0x44 4)).map fun i => (t.drop (0x1C0 + 64 * i)).take 64

/-! ### The loader's state -/

/-- The load state changes (R40). -/
def State.setLoad (s : State) (st : Nat) : State := s.setF Reg.chtState 2 0 st

/-- `CHT_STATE.SLOT`: 1 PRIMARY, 2 GOLDEN, 3 QSPI push, 4 PCIe push. -/
def State.loadSlot (s : State) : Nat := s.f Reg.chtState 7 4

/-- The flash address at which a slot starts. DEDUCED: the slots fill the `CFLASH` range of R446 in their order. -/
def slotBase (golden : Bool) : Nat := if golden then 0x4000000 else 0

/-- The host address of a pull (R36, R46). DESIGN CHOICE: the registers are read at each read of the pull, since no rule latches
them. -/
def State.pullAddr (s : State) : Nat := (pair64 (s.rd Reg.chtHostAddrLo) (s.rd Reg.chtHostAddrHi)) % 2 ^ 63

/-- `n` bytes at offset `o` of the chart being loaded, as they stand at its source; of a push, the bytes received for this part. -/
def State.chartBytes (s : State) (o n : Nat) : List Byte :=
  match s.loadSlot with
  | 1 => readBytes erasedByte s.cflash (slotBase false + o) n
  | 2 => readBytes erasedByte s.cflash (slotBase true + o) n
  | 4 => readBytes zeroByte s.hostMem (s.pullAddr + o) n
  | _ => s.loader.rx.take n

/-- How many bytes of a push the loader wants for the part it reads (R36). -/
def LoaderSt.need (l : LoaderSt) : Nat :=
  match l.phase with
  | .header =>
    let n := bytesAt l.rx 0x28 2
    if 256 ≤ l.rx.length ∧ 2 ≤ n ∧ n ≤ 10 then 256 + 16 * n else 256
  | .reading o => match l.dir.find? fun e => e.order == o with | some e => e.length | none => 0
  | _ => 0

/-- The loader takes bytes out of the push buffer while it reads (R36), twice at most: the header's count asks for the directory. -/
def LoaderSt.pump (l : LoaderSt) : LoaderSt :=
  let go := fun (l : LoaderSt) => let n := l.need - l.rx.length; { l with rx := l.rx ++ l.push.take n, push := l.push.drop n }
  go (go l)

/-- The part being read has wholly arrived. -/
def State.partHere (s : State) : Bool := s.loadSlot != 3 || s.loader.need ≤ s.loader.rx.length

/-- The loader starts on a chart: LOADING (R41). -/
def State.loadStart (s : State) (slot : Nat) : State :=
  ((s.setLoad 1).setF Reg.chtState 7 4 slot).onLoader fun l =>
    ({ l with phase := .header, hdr := none, dir := [], reread := false, rx := [], early := false }).pump

/-! ### Placing and undoing -/

/-- Registers from `a` to `b`, `b` not included, return to their reset values. -/
def State.clearRegs (s : State) (a b : Nat) : State := { s with regs := s.regs.filter fun e => e.1 < a || b ≤ e.1 }

/-- What `FIRST_LIGHT` names: ports and synthesizers (R28). -/
def State.flPort (s : State) (p : Nat) : Bool := (s.port (s.lead p)).cfg.firstLight
def State.flSyn (s : State) (i : Nat) : Bool := i == 0 || i == 6 || s.loader.placed.any fun e => e.1 == 1 && e.2.1 == Reg.synTarget i
def State.flSlip (s : State) (k : Nat) : Bool := s.loader.placed.any fun e => e.1 == 1 && e.2.1 == Reg.fstSlipCfg k

/-- A port returns to OFF, its pairs in electrical idle (R38, R40). -/
def State.portOff (s : State) (p : Nat) : State :=
  let base := Reg.prtCfg p
  let s := ((s.laneIdle p).linkDown p).refsSilent p
  let s := { s with regs := s.regs.filter fun e => e.1 < base || base + 0x400 ≤ e.1 }
  s.onPort p fun _ => PortSt.init

/-- A synthesizer returns to OFF; its domains, which have stopped, wait for its next lock. -/
def State.synOff (s : State) (i : Nat) : State :=
  ((s.setSynState i 0).clearRegs (Reg.synStat i) (Reg.synStat i + 4)).onSyn i fun x => { SynSt.init with halted := x.halted }

/-- A band entry of synthesizer `i` is among the words that a chart has placed (R82). -/
def bandAmong (placed : List (Nat × Nat × Word)) (i : Nat) : Bool :=
  placed.any fun e => decide (Reg.synBandLo i 0 ≤ e.2.1) && decide (e.2.1 < Reg.synBandLo (i + 1) 0)

/-- `SYN_CORE` and `SYN_PCIE` choose from a chart's entries only while some are placed (R38, R82). -/
def State.bandsPlaced (s : State) : State :=
  forAll [0, 6] (fun i t => t.onSyn i fun x => { x with chart := bandAmong s.loader.placed i }) s

/-- A placed word is as if it had never been placed (R38); a `SYNC_OUT` pin follows its register (R74). -/
def State.undoWord (s : State) (a : Nat) : State :=
  if a = Reg.coxSyncOut 0 then syncOutWrite 0 (regReset a) s
  else if a = Reg.coxSyncOut 1 then syncOutWrite 1 (regReset a) s
  else s.wr a (regReset a)

/-- References whose `CFG` or `QL` is among undone words take what now stands there (R51, R54, R67). -/
def State.refsUndone (s : State) (drop : List (Nat × Nat × Word)) : State :=
  forAll ((upto 8).filter fun n => drop.any fun e => e.2.1 == Reg.coxRefCfg n || e.2.1 == Reg.coxRefQl n) (fun n t => t.refCfgWritten n) s

/-- A word that a segment places takes its place: thresholds wait for the whole segment (R411), a band entry as the one that its synthesizer
chooses from next (R82), a port's settings with the synthesizer that they name (R80), a `SYNC_OUT` with its pin (R74), any other register as it stands. -/
def State.storeWord (s : State) (a : Nat) (w : Word) : State :=
  match regRow? a with
  | none => s
  | some (r, is) =>
    let w := w &&& definedBits a
    if a = Reg.thmWarn ∨ a = Reg.thmThrot ∨ a = Reg.thmShdn then s
    else if r.base = Reg.synBandLo 0 0 ∨ r.base = Reg.synBandHi 0 0 then (s.wr a w).bandPlaced a
    else if r.base = Reg.prtCfg 0 then (s.wr a w).settleSyn (is.headD 0)
    else if r.base = Reg.coxSyncOut 0 then syncOutWrite (is.headD 0) w s
    else if r.base = Reg.fstSlipGeom 0 ∨ r.base = Reg.fstSlipComp 0 then (s.wr a w).slipCoding (is.headD 0)
    else s.wr a w

/-- Everything that segments have placed is as if they had never placed it; with `keep` the first-light state stays (R38, R41). -/
def State.unplace (s : State) (keep : Bool) : State :=
  let drop := s.loader.placed.filter fun e => !(keep && e.1 == 1)
  let stay := s.loader.placed.filter fun e => keep && e.1 == 1
  let s := forAll ((s.prt.ports.map (·.1)).filter fun p => !(keep && s.flPort p)) (fun p t => t.portOff p) s
  let s := forAll ((upto 136).filter fun i => i != 0 && i != 6 && s.synState i != 0 && !(keep && s.flSyn i)) (fun i t => t.synOff i) s
  let ents := s.liveEntries.filter fun i => !(keep && (s.entry i).armed) && !(keep && decide ((s.entry i).state = .taken))
  let s := { s with xtb := { s.xtb with ents := s.xtb.ents.filter fun e => !ents.contains e.1 } }
  let s := { s with xtb := { s.xtb with grps := if keep then s.xtb.grps else [], stages := if keep then s.loader.flStages else [] } }
  let s := { s with xtb := { s.xtb with blanks := if keep then s.xtb.blanks else [] } }
  let s := { s with slips := s.slips.filter fun e => keep && s.flSlip e.1 }
  let s := ((s.clearRegs 0x80000 0xA0000).clearRegs 0x300000 0x500000)
  let s := (s.showThrottle s.throttled).setB Reg.glbFault 2 false
  let s := { s.dropLedgers with aud := AudSt.init, lgt := LgtSt.init, jik := JikSt.init, que := [], egr := [] }
  let s := forAll drop (fun e t => t.undoWord e.2.1) s
  let s := forAll (stay.filter fun e => drop.any fun d => d.2.1 == e.2.1) (fun e t => t.storeWord e.2.1 e.2.2) s
  let s := (onlyIf (!keep) State.clearZones (s.refsUndone drop)).wipe fun typ => !(keep && typ == 1)
  (s.onLoader fun l =>
    { l with placed := stay, crossWait := [], anchors := [], digests := [], content := none, flStages := if keep then l.flStages else [] }).bandsPlaced

/-- The lighting plan as the light die keeps it. -/
def lightCfgOf (p : LightPlan) : LightCfg :=
  let put := fun (l : List (Nat × Nat)) => l.foldl (fun (m : NMap Nat) e => nput e.1 e.2 m) []
  { strings := p.strings.foldl (fun (m : NMap StringCfg) e => nput e.1 { unit := e.2.1, bins := e.2.2 } m) []
    trims := put p.trims, trimNominal := p.trimNominal, startLevel := p.startLevel, zoneFloors := put p.zoneFloors
    dimHeads := p.dimHeads, lumMax := put p.lumMax, neighbours := p.neighbours }

/-- One word that a segment places. -/
def State.placeWord (s : State) (typ a : Nat) (w : Word) : State :=
  (s.onLoader fun l => { l with placed := l.placed ++ [(typ, a, w)] }).storeWord a w

/-- Memory that a segment fills is noted (R38, R43). -/
def State.fills (s : State) (typ : Nat) (store : Bool) (a n : Nat) : State :=
  s.onLoader fun l => { l with filled := l.filled ++ [(typ, store, a, n)] }

/-- A kernel image reaches its engines (R217). -/
def State.placeKernel (s : State) (typ : Nat) (k : KernelImage) : State :=
  forAll k.engines (fun e t =>
    let t := t.fills typ false (e.val * 0x10000 + k.addr) k.bytes.length
    ({ t with work := writeBytes zeroByte t.work (e.val * 0x10000 + k.addr) k.bytes }).onEng e.val fun x =>
      { x with kernels := nput k.kernel k.addr x.kernels }) s

/-- A slip preload image: slot 0 holds a COMPLETE frame whose capture phase precedes stroke 0 (R202). -/
def State.placePreload (s : State) (typ k : Nat) (lines : List (List Lane)) : State :=
  let span := (s.slipBanks k).2
  let s := forAll (upto ((s.slotBeats k + span - 1) / span)) (fun r t =>
    t.fills typ true (t.beatAddr k (r * span) 0) (64 * min span (t.slotBeats k - r * span))) s
  let s := s.onSlot k 0 fun _ => { SlotSt.init with state := .complete, comp := s.f (Reg.fstSlipStat k) 29 28, capStroke := 2 ^ 48 - 1 }
  (forAll lines.zipIdx (fun e t => t.placeWords k 0 e.2 0 e.1) s).showSlip k

/-- What a segment says of a port beside its register. -/
def State.placePort (s : State) (typ : Nat) (p : PortPlan) : State :=
  s.onPort p.port fun x => { x with cfg :=
    { needs := p.needs, firstLight := typ == 1, narrow := p.narrow.foldl (fun (m : NMap (List (Nat × Option Nat))) e => nput e.1 e.2 m) [] } }

/-- The records of a segment are placed (R28); a crossing over an entry of the first-light state that GOLDEN's is about to replace
waits for that (R38). -/
def State.placeContent (s : State) (typ : Nat) (c : SegContent) : State :=
  let s := (forAll c.regs (fun e t => t.placeWord typ e.1 e.2) s).placeThresholds c.regs
  let s := forAll c.ports (fun p t => t.placePort typ p) s
  let s := { s with xtb := { s.xtb with stages := s.xtb.stages ++ c.stages } }
  let s := s.onLoader fun l => { l with flStages := if typ = 1 then l.flStages ++ c.stages else l.flStages }
  let s := { s with prt := { s.prt with rbLocked := s.prt.rbLocked ++ c.rbLocked } }
  let s := forAll c.kernels (fun k t => t.placeKernel typ k) s
  let s := forAll c.preloads (fun p t => t.placePreload typ p.1 p.2) s
  let s := s.onAud fun a => { a with clips := c.clips.foldl (fun (m : NMap (List Lane)) e => nput e.1 e.2 m) a.clips }
  let s := forAll c.crossings (fun e t =>
    if t.loader.flNext.isSome && typ != 1 && t.liveEntries.contains e.1 then t.onLoader fun l => { l with crossWait := l.crossWait ++ [e] }
    else t.placeCrossing e.1 e.2.1 e.2.2.1 e.2.2.2.1 e.2.2.2.2) s
  match c.light with
  | some p => (s.lightStart (lightCfgOf p)).keyUnits
  | none => s

/-- Synthesizers that are OFF and have a target acquire; used ports start as their synthesizers run (R82, R104). DESIGN
CHOICE: one whose `TARGET` is still 0 once its segment is placed stays OFF and reports no NO_BAND (R79). -/
def State.startClocks (s : State) : State :=
  let s := forAll ((upto 136).filter fun i => synIndex i && i != 0 && i != 6 && s.synState i == 0 && s.rd (Reg.synTarget i) != 0)
    (fun i t => t.synAcquire i) s
  forAll (upto 512) (fun p t => t.portStart p) s

/-- What follows from the first-light registers: references, pixel clocks, marked zones (R51, R318). -/
def State.firstLightDerived (s : State) : State :=
  let s := forAll (upto 8) (fun n t => t.refCfgWritten n) s
  forAll s.watchHeads (fun h t => t.markZones h) s.clearZones

/-- The design stroke rate of the chart being loaded (R25). -/
def State.chartRate (s : State) : Option (Nat × Nat) := s.loader.hdr.map fun h => (h.strokeNum, h.strokeDen)

/-- A rate comes into force (R522). DESIGN CHOICE: what the accumulator owed at the old rate, less than 50 ps, is dropped. -/
def State.takeRate (s : State) (r : Option (Nat × Nat)) : State :=
  match r with
  | some (n, d) => s.onClock fun k => { k with rateNum := n, rateDen := max 1 d, rateNext := none, acc := 0 }
  | none => s

/-- A segment writes entry `i` of the Crossing Table. -/
def segWrites (c : SegContent) (i : Nat) : Bool := c.crossings.any fun e => e.1 == i

/-- `FIRST_LIGHT` is placed: FIRST_LIGHT, its synthesizers and ports start, its crossings take, the chart's rate is due (R41, R166,
R522). -/
def State.enterFirstLight (s : State) (c : SegContent) : State :=
  let s := (s.placeContent 1 c).firstLightDerived
  let s := (s.setLoad 2).onLoader fun l => { l with flDigest := l.flRead }
  let s := (s.onClock fun k => { k with rateNext := s.chartRate }).startClocks
  ((s.armChart (segWrites c)).takeCrossings).raiseFree .chtFirstLight 0

/-- The `TARGET` of synthesizer `i` has changed at the turn to GOLDEN. DEDUCED: as after `RELOCK` (R84, R88, R90) its domains stop, and
it acquires at the new target, or is OFF, with no head on it, where there is none. -/
def State.retarget (s : State) (i : Nat) : State :=
  let s := s.stopDomains i false
  if s.rd (Reg.synTarget i) = 0 then
    (forAll ((upto 64).filter fun h => s.headSyn h == i) (fun h t => t.haltHead h) s).synOff i
  else (s.onSyn i fun x => { x with relock := true }).synAcquire i

/-- What PRIMARY's first-light segment placed is as if it had never been placed (R38): its words, memory and crossings, the settings of
ports and the locked read-back receivers. -/
def State.undoFirstLight (s : State) : State :=
  let old := s.loader.placed.filter fun e => e.1 == 1
  let ents := s.liveEntries.filter fun i => (s.entry i).armed || decide ((s.entry i).state = .taken)
  let s := forAll old (fun e t => t.undoWord e.2.1)
    { s with xtb := { s.xtb with ents := s.xtb.ents.filter fun e => !ents.contains e.1, stages := s.xtb.stages.drop s.loader.flStages.length } }
  let s := (((s.refsUndone old).wipe (· == 1)).onLoader fun l =>
    { l with placed := l.placed.filter fun e => e.1 != 1, flNext := none, crossWait := [], flStages := [] }).bandsPlaced
  let s := forAll (s.prt.ports.map (·.1)) (fun p t => if (t.port p).cfg.firstLight then t.onPort p fun x => { x with cfg := PortCfg.init } else t) s
  { s with prt := { s.prt with rbLocked := [] } }

/-- Ports and synthesizers whose settings differ from those of `was` start again (R38): a port from OFF, a synthesizer on its new
target. -/
def State.restartMoved (s was : State) : State :=
  let moved := (s.prt.ports.map (·.1)).filter fun p => was.rd (Reg.prtCfg p) != s.rd (Reg.prtCfg p)
  let s := forAll moved (fun p t =>
    let cfg := (t.port p).cfg
    let w := t.rd (Reg.prtCfg p)
    (((t.portOff p).wr (Reg.prtCfg p) w).settleSyn p).onPort p fun x => { x with cfg := cfg }) s
  forAll ((upto 136).filter fun i => i != 0 && i != 6 && was.synState i != 0 && was.rd (Reg.synTarget i) != s.rd (Reg.synTarget i))
    (fun i t => t.retarget i) s

/-- GOLDEN's first-light state is applied whole at a boundary (R38): what PRIMARY's placed is replaced, words that
GOLDEN's later segments have placed meanwhile stand over it, each watch head's next frame is mute, GOLDEN's rate is in force. Ports
and synthesizers whose settings stay the same run on. -/
def State.applyGolden (s : State) (c : SegContent) : State :=
  let later := s.loader.placed.filter fun e => e.1 != 1
  let waiting := s.loader.crossWait
  let g := (forAll later (fun e t => t.storeWord e.2.1 e.2.2) (s.undoFirstLight.placeContent 1 c)).firstLightDerived
  let g := g.restartMoved s
  let g := forAll g.watchHeads (fun h t => t.onHead h fun x => { x with muteNext := true }) g
  let g := ((g.startClocks).armChart (segWrites c)).takeCrossings
  (forAll waiting (fun e t => t.placeCrossing e.1 e.2.1 e.2.2.1 e.2.2.2.1 e.2.2.2.2) g).takeRate g.chartRate

/-! ### Failure (R31, R37) -/

/-- The device enters FAILED: it runs no part of any chart (R37, R40, R69). -/
def State.enterFailed (s : State) (code typ : Nat) : State :=
  let s := (s.setF Reg.chtReason 7 0 code).setF Reg.chtReason 15 8 typ
  let s := forAll (s.hed.heads.map (·.1)) (fun h t => t.haltHead h) s
  let s := (s.unplace false).setLoad 4
  let s := (s.setB Reg.glbFault 0 true).onLoader fun l => { l with phase := .ended, flNext := none, hdr := none }
  (s.onCox fun c => { c with failDue := true }).raiseFree .chtFailed 0

/-- A check of the chart being loaded has failed with a reason, at a segment type (0: header or directory). -/
def State.loadFail (s : State) (code typ : Nat) : State :=
  if s.loadSlot = 1 then
    let s := s.unplace (decide (s.loadState = 2))
    let s := s.wr Reg.chtReason (BitVec.ofNat 32 (2 ^ 31 + code * 2 ^ 16))
    let s := (s.setF Reg.chtState 7 4 2).onLoader fun l =>
      { l with phase := .header, hdr := none, dir := [], reread := false, rx := [], flRead := none }
    s.raiseFree .chtFallback 0
  else s.enterFailed code typ

/-! ### Commands of the load -/

/-- A chart header and directory have been read (R30, checks 1 to 6, and `SIGNED` of check 7): `got` is what the read delivered, when
it differs from the bytes at the source. -/
def headerRead (got : Option (List Byte)) (s : State) : State :=
  if s.loader.phase ≠ .header ∨ !s.partHere then s
  else
    let head := (got.map (·.take 256)).getD (s.chartBytes 0 256)
    let h := Header.parse head
    let dir := (got.map fun b => (b.drop 256).take (16 * h.segCount)).getD
      (if s.loadSlot = 3 then (s.loader.rx.drop 256).take (16 * h.segCount) else s.chartBytes 0x100 (16 * min 10 h.segCount))
    let c := headerCheck head true
    let c := if c ≠ 0 then c else dirCheck h dir true (s.loadSlot == 1 || s.loadSlot == 2)
    let c := if c ≠ 0 then c else if s.loader.otpHash.isSome && !h.signed then 8 else 0
    if c ≠ 0 then s.loadFail c 0
    else
      (s.onLoader fun l => ({ l with hdr := some h, head := head ++ dir, dir := parseDir h.segCount dir, phase := .reading 0, reread := false, rx := [] }).pump).setF
        Reg.chtState 15 8 0

/-- The records that a segment holds, when the device's form of records can hold them, pass check 9 of R30. A second `FIRST_LIGHT`, of
GOLDEN, is judged without what PRIMARY placed. -/
def State.segmentOk (s : State) (typ : Nat) (c : Option SegContent) : Bool :=
  match c with
  | some c => (((if typ = 1 then s.unplace false else s).placeContent typ c)).contentOk c
  | none => false

/-- A segment has been read (R30, checks 7 to 9, R32): the bytes that the read delivered when they differ from those at the source,
and its records, none where they exceed what a record of the owning chapter can say. -/
def segmentRead (got : Option (List Byte)) (content : Option SegContent) (s : State) : State :=
  match s.loader.phase, s.loader.hdr with
  | .reading o, some h =>
    match s.loader.dir.find? fun e => e.order == o with
    | none => s
    | some e =>
      if !s.partHere then s
      else
        let bs := got.getD (s.chartBytes e.offset e.length)
        let trust := e.typ == 10
        let signed := if trust then s.loader.trustCheck h s.loader.head bs else 0
        if signed ≠ 0 then s.loadFail signed e.typ
        else if crc32 (if trust then bs.take 0x5C0 else bs) ≠ e.crc then
          if s.loader.reread then s.loadFail 0xB e.typ
          else (s.countErr Reg.chtRetryCnt 16 1).onLoader fun l => { l with reread := true }
        else
          let others := s.loader.dir.filter fun d => d.typ != 10
          let k := ((others.zipIdx).find? fun d => d.1.order == o).map (·.2)
          let c :=
            if trust then (if 16 < bytesAt bs 0x44 4 then 0xD else 0)
            else if h.signed && some (sha256 bs) != (k.bind fun i => s.loader.digests[i]?) then 0xC
            else if s.segmentOk e.typ content then 0 else 0xD
          if c ≠ 0 then s.loadFail c e.typ
          else s.onLoader fun l =>
            { l with
              phase := .placing o, reread := false, rx := [], content := if trust then none else content
              digests := if trust then trustDigests h bs else l.digests
              anchors := if trust then trustAnchors bs else l.anchors
              flRead := if e.typ = 1 then some (sha256 bs) else l.flRead }
  | _, _ => s

/-- Placement of a segment completes (R41): the first-light state goes live, or the segment's records are placed, and the next
segment is read. -/
def segmentPlaced (s : State) : State :=
  let c := s.loader.content.getD SegContent.none
  match s.loader.phase with
  | .placing o =>
    match s.loader.dir.find? fun e => e.order == o with
    | none => s
    | some e =>
      let s :=
        if e.typ = 1 then
          if s.loadState = 2 then
            if s.loader.flRead = s.loader.flDigest then s
            else s.onLoader fun l => { l with flNext := some c, flDigest := l.flRead }
          else s.enterFirstLight c
        else if e.typ = 10 then s
        else (s.placeContent e.typ c).startClocks
      let s := s.onLoader fun l => { l with content := none }
      if o + 1 < s.loader.dir.length then
        (s.onLoader fun l => ({ l with phase := .reading (o + 1) }).pump).setF Reg.chtState 15 8 (o + 1)
      else s.onLoader fun l => { l with phase := .lastPlaced }
  | _ => s

/-- The device enters RUNNING at a boundary (R41, R118, R166, R346). -/
def State.enterRunning (s : State) : State :=
  match s.loader.phase, s.loader.hdr with
  | .lastPlaced, some h =>
    let s := (s.setLoad 3).onLoader fun l => { l with phase := .ended }
    let s := (s.wr Reg.chtRunIdLo (BitVec.ofNat 32 h.chartId)).wr Reg.chtRunIdHi (BitVec.ofNat 32 (h.chartId / 2 ^ 32))
    let s := s.wr Reg.chtRunVer (BitVec.ofNat 32 (h.major * 65536 + h.minor))
    let s := forAll s.prt.rbLocked (fun k t => t.setB (Reg.prtRbStat k) 30 true) s
    ((s.armChart fun _ => true).audStart).raiseFree .chtRunning 0
  | _, _ => s

/-! ### Host commands of the loader (R34 to R39, R49) -/

/-- A word written to the push window: 4 bytes for the push buffer; the loader takes what it wants (R36, R46). A word for which the
buffer has no space is lost: the host must not write it. -/
def pushData (w : Word) (qspi : Bool) (s : State) : State :=
  if 16384 < s.loader.push.length + 4 then s
  else
    let s := s.onLoader fun l => { l with push := l.push ++ leBytes 4 w.toNat }
    match s.loader.amd with
    | some a =>
      if a.path = 1 ∧ !a.staged then s.onLoader fun l => { l with amd := some { a with image := a.image ++ l.push }, push := [] } else s
    | none =>
      if s.loader.phase = .waiting ∧ s.pins.straps % 4 = 1 ∧ qspi then s.loadStart 3
      else if s.loadSlot = 3 then s.onLoader fun l => l.pump else s

/-- A write of `CHT_CTRL`: `PULL_GO` starts a PCIe pull of a full chart (R36, R49). -/
def chtCtrlWrite (w : Word) (s : State) : State :=
  if bit w 0 && s.loadState == 0 && s.pins.straps % 4 == 2 && decide (s.loader.phase = .waiting) then s.loadStart 4 else s

/-- A write of `CHT_OTP_DATA`: the next word of the key hash (R49). DESIGN CHOICE: of more than eight words the last eight count. -/
def otpDataWrite (w : Word) (s : State) : State := s.onLoader fun l => { l with otpData := (l.otpData ++ [w]).drop (l.otpData.length - 7) }

/-- A write of `CHT_OTP_CTRL` (R34, R49): the two key halves within 1 ms, the second with `BURN`; what is burnt never changes.
DESIGN CHOICE: the least significant word holds the digest's bytes 0 to 3 in little-endian order (R5, R49), and a burn with fewer
than eight words written burns nothing. -/
def otpCtrlWrite (w : Word) (s : State) : State :=
  let inTime : Bool := match s.loader.otpKeyAt with | some t => decide (s.now ≤ t + 1000000) | none => false
  if bf w 31 16 = 0x5A0D then s.onLoader fun l => { l with otpKeyAt := some s.now }
  else
    let s := s.onLoader fun l => { l with otpKeyAt := none }
    if bf w 31 16 = 0xC0DE ∧ inTime = true ∧ bit w 0 ∧ s.loader.otpHash.isNone ∧ s.loader.otpData.length = 8 then
      s.onLoader fun l => { l with otpHash := some (l.otpData.flatMap fun v => leBytes 4 v.toNat), otpTest := bit w 1 }
    else s

/-- The slot from which a load is in progress (R39). -/
def State.loadingFrom (s : State) (golden : Bool) : Bool :=
  (s.loadState == 1 || s.loadState == 2) && s.loadSlot == (if golden then 2 else 1)

/-- A flash operation on a slot: 1 erases the 4 KiB sector at `CHT_FLASH_ADDR`, 2 opens it for program writes through the `CFLASH`
target (R39). -/
def State.flashOp (s : State) (op : Nat) (golden : Bool) : State :=
  if op ≠ 1 ∧ op ≠ 2 then s
  else if s.loadingFrom golden then s.raiseFree .chtFlashBusy 0
  else
    let a := slotBase golden + s.f Reg.chtFlashAddr 31 12 * 4096 % 0x4000000
    if op = 1 then { s with cflash := s.cflash.filter fun e => e.1 < a || a + 4096 ≤ e.1 }.onLoader fun l => { l with flashOpen := none }
    else s.onLoader fun l => { l with flashOpen := some a }

/-- A write of `CHT_FLASH_CTRL` (R39, R49): operations on PRIMARY with `KEY` 0, on GOLDEN as the second write of the key sequence. -/
def flashCtrlWrite (w : Word) (s : State) : State :=
  let inTime : Bool := match s.loader.flashKeyAt with | some t => decide (s.now ≤ t + 1000000) | none => false
  let key := bf w 31 16
  if key = 0xA11C then s.onLoader fun l => { l with flashKeyAt := some s.now }
  else
    let s := s.onLoader fun l => { l with flashKeyAt := none }
    if key = 0x5E5E ∧ inTime = true ∧ bit w 0 then s.flashOp (bf w 3 2) true
    else if key = 0 ∧ !bit w 0 then s.flashOp (bf w 3 2) false
    else s

/-- A byte programmed in the open sector; over a byte that is not erased the spec states no result. -/
def State.programByte (s : State) (a : Nat) (b : Byte) : State :=
  if nget erasedByte s.cflash a = 0xFF then { s with cflash := nset erasedByte s.cflash a b }
  else
    let (v, t) := s.fresh 8
    { t with cflash := nset erasedByte t.cflash a v }

/-- The slot in which a chart-flash address lies is one from which a load is in progress (R39). -/
def State.flashBusy (s : State) (a : Nat) : Bool := s.loadingFrom (decide (0x4000000 ≤ a))

/-- A write that reaches the `CFLASH` target (R39, R446): a write into the slot from which a load is in progress is refused; otherwise
bytes within the sector that a program operation opened are programmed, every other byte has no effect. -/
def State.flashWrite (s : State) (a : Nat) (bs : List Byte) : State :=
  let s := if (bs.zipIdx a).any fun e => s.flashBusy e.2 then s.raiseFree .chtFlashBusy 0 else s
  match s.loader.flashOpen with
  | none => s
  | some o => forAll (bs.zipIdx a) (fun e t => if o ≤ e.2 ∧ e.2 < o + 4096 ∧ !t.flashBusy e.2 then t.programByte e.2 e.1 else t) s

/-- The loader at reset release (R35, R41): the straps choose the source. -/
def State.loaderRelease (s : State) : State :=
  match s.pins.straps % 4 with
  | 0 => s.loadStart 1
  | 3 => s.onLoader fun l => { l with phase := .idle }
  | _ => s.onLoader fun l => { l with phase := .waiting }

end Sys2Proof.Machine
end

