-- ==== Sys2Proof/Machine/Amend.lean ====
section
/-! DEFINITION. Amendments of a running chart: staging, the checks, patch records, applying at the take-stroke (R44 to R48, R524). -/

namespace Sys2Proof.Machine

/-! ### Patch records (R44, R524) -/

/-- A patch record: the segment type that carries it, its table ID, byte offset and data. -/
structure Patch where
  seg    : Nat
  table  : Nat
  offset : Nat
  data   : List Byte
deriving DecidableEq, Repr

/-- The patch records of a segment, heads and data padded to 16 bytes; `none` where a record runs past the segment. -/
def patchesOf (seg : Nat) : Nat → List Byte → Option (List Patch)
  | 0, _ => some []
  | fuel + 1, bs =>
    if bs = [] then some []
    else
      let n := bytesAt bs 8 4
      let span := 16 + (n + 15) / 16 * 16
      if bs.length < span then none
      else (patchesOf seg fuel (bs.drop span)).map fun l =>
        { seg := seg, table := bytesAt bs 0 2, offset := bytesAt bs 4 4, data := (bs.drop 16).take n } :: l

/-- The tables of R524: the carrying segment, the image's length in bytes, the record size. -/
def patchTable (id : Nat) : Option (Nat × Nat × Nat) :=
  if id = 0x0001 then some (4, 0x80000, 16)
  else if id = 0x0002 then some (4, 0x100000, 4)
  else if id = 0x0003 then some (4, 0x8000, 2)
  else if id = 0x0004 then some (4, 64 * 16 * 16, 16)
  else if id = 0x0101 then some (2, 128 * 128, 128)
  else if id = 0x0102 then some (2, 512 * 4, 4)
  else none

/-- The form of a record: its table, its segment, its alignment, its range (R524). -/
def Patch.formOk (p : Patch) : Bool :=
  match patchTable p.table with
  | none => false
  | some (seg, len, size) =>
    seg == p.seg && p.offset % size == 0 && p.data.length % size == 0 && p.offset + p.data.length ≤ len

/-- The 32-bit words of a patch with the byte offset of each. -/
def Patch.words (p : Patch) : List (Nat × Word) :=
  (upto (p.data.length / 4)).map fun i => (p.offset + 4 * i, BitVec.ofNat 32 (bytesAt p.data (4 * i) 4))

/-- The records of a size that a patch touches. -/
def Patch.touched (p : Patch) (size : Nat) : List Nat :=
  if p.data = [] then [] else (upto ((p.offset + p.data.length - 1) / size + 1)).filter fun i => p.offset / size ≤ i

/-- The entry that a patch of the Crossing Table gives index `i`. -/
def Patch.entry (p : Patch) (i : Nat) : Word × Word × Word × Word :=
  let w := fun j => BitVec.ofNat 32 (bytesAt p.data (16 * i - p.offset + 4 * j) 4)
  (w 0, w 1, w 2, w 3)

/-- A crossing touches watch state: it has `WATCH`, or feeds a layer of a watch head (R45). -/
def State.watchCrossing (s : State) (c : Crossing) : Bool := c.watch || (c.dstKind == 0 && s.watchLayer c.dst)

/-- A record touches watch-head state (R45, R524): a live crossing of a watch head or one to its destination, a descriptor that such a
crossing names, a region or a port of a watch head. -/
def State.patchWatch (s : State) (p : Patch) : Bool :=
  if p.table = 1 then
    (p.touched 16).any fun i =>
      let (w0, w1, w2, w3) := p.entry i
      let c := Crossing.ofRec (rec4 w0 w1 w2 w3)
      (decide ((s.entry i).state ≠ .empty) && s.watchCrossing (s.crossing i)) || (c.valid && !s.watchRuleOk c)
  else if p.table = 2 then
    (p.touched 256).any fun x => s.liveEntries.any fun i => (s.crossing i).watch && (s.crossing i).xform == x
  else if p.table = 4 then (p.touched 256).any s.watchHead
  else if p.table = 0x102 then p.words.any fun e => s.watchPort (e.1 / 4) && s.rd (Reg.prtCfg (e.1 / 4)) != e.2
  else false

/-- The limit of a record's row (R524): descriptor 0 and coefficient set 0 are fixed, only `ROLE` of a port may differ. -/
def State.patchLimit (s : State) (p : Patch) : Bool :=
  if p.table = 2 then !(p.touched 256).contains 0
  else if p.table = 3 then !(p.touched 0x800).contains 0
  else if p.table = 0x102 then p.words.all fun e => (e.2 ^^^ s.rd (Reg.prtCfg (e.1 / 4))) &&& ~~~(fmask 29 27) == 0
  else true

/-! ### Applying (R47, R172, R524) -/

/-- A port whose role an amendment changed: it starts, or it goes OFF (R44, R104). -/
def State.roleChanged (s : State) (p : Nat) (w : Word) : State :=
  let cfg := (s.port p).cfg
  let s := if bf w 29 27 = 0 then (s.portOff p).onPort p fun x => { x with cfg := cfg } else s
  (s.wr (Reg.prtCfg p) w).portStart p

/-- One record is applied. -/
def State.applyPatch (s : State) (p : Patch) : State :=
  if p.table = 1 then
    forAll (p.touched 16) (fun i t => let (w0, w1, w2, w3) := p.entry i; t.amendEntry i w0 w1 w2 w3) s
  else if p.table = 2 then forAll p.words (fun e t => t.putWord (Reg.xformWord (e.1 / 256) (e.1 % 256 / 4)) e.2) s
  else if p.table = 3 then
    forAll (upto (p.data.length / 2)) (fun i t =>
      let o := p.offset + 2 * i
      let a := Reg.coefWord (o / 0x800) (o % 0x800 / 4)
      t.setF a (8 * (o % 4) + 15) (8 * (o % 4)) (bytesAt p.data (2 * i) 2)) s
  else if p.table = 4 then
    forAll p.words (fun e t => t.putWord (Reg.headLkPos (e.1 / 256) (e.1 % 256 / 16) + e.1 % 16) e.2) s
  else if p.table = 0x101 then
    forAll p.words (fun e t =>
      let o := e.1 % 128
      if o = 0xC ∨ o = 0x10 then t else t.putWord (Reg.crwCfg (e.1 / 128) + o) e.2) s
  else if p.table = 0x102 then
    forAll p.words (fun e t => if t.rd (Reg.prtCfg (e.1 / 4)) = e.2 then t else t.roleChanged (e.1 / 4) e.2) s
  else s

/-- Patch records of the `TABLES` and `STRUCTURE` segments of an image. -/
def imagePatches (image : List Byte) : Option (List Patch) :=
  let h := Header.parse image
  (parseDir h.segCount (image.drop 0x100)).foldl (fun (a : Option (List Patch)) e =>
    if e.typ = 4 ∨ e.typ = 2 then
      a.bind fun l => (patchesOf e.typ (e.length / 16 + 1) ((image.drop e.offset).take e.length)).map (l ++ ·)
    else a) (some [])

/-- The bytes of the segment of a type in an image, when it has one. -/
def imageSegment (image : List Byte) (typ : Nat) : Option (List Byte) :=
  ((parseDir (Header.parse image).segCount (image.drop 0x100)).find? fun e => e.typ == typ).map fun e => (image.drop e.offset).take e.length

/-- The words of the manifest records that a replacement manifest holds (R44, R230), from the register of the first on. DEDUCED: a
`MANIFEST` segment holds its records of 32 bytes first, in order. -/
def manifestWords (bs : List Byte) : List (Nat × Word) :=
  (upto (min 1024 (bs.length / 32) * 8)).map fun i => (Reg.manifestWord (i / 8) (i % 8), BitVec.ofNat 32 (bytesAt bs (4 * i) 4))

/-- A whole replacement manifest, with its guard and `MTAGS` (R44, R223, R230, R232). -/
def State.putManifest (s : State) (bs : List Byte) (guard mtags : Nat) : State :=
  let s := s.clearRegs (Reg.manifestWord 0 0) (Reg.manifestWord 1024 0)
  let s := forAll (manifestWords bs) (fun e t => t.putWord e.1 e.2) s
  (s.putWord Reg.engGuard (BitVec.ofNat 32 guard)).putWord Reg.engTagCfg (BitVec.ofNat 32 (min 1024 (bs.length / 32) * 65536 + mtags))

/-- The records of an amendment's image. -/
def Amendment.patches (a : Amendment) : List Patch := (imagePatches a.image).getD []

/-- The crossings that an amendment writes. -/
def Amendment.crossings (a : Amendment) : List Crossing :=
  (a.patches.filter fun p => p.table == 1).flatMap fun p => (p.touched 16).map fun i =>
    let (w0, w1, w2, w3) := p.entry i
    Crossing.ofRec (rec4 w0 w1 w2 w3)

/-- Every port whose role the amendment changes is idle under the table in force and the amended table (R48). -/
def State.rolesIdle (s : State) (a : Amendment) : Bool :=
  ((a.patches.filter fun p => p.table == 0x102).flatMap (·.words)).all fun e =>
    let p := e.1 / 4
    s.rd (Reg.prtCfg p) == e.2 || (s.portIdle p && a.crossings.all fun c => !c.valid || !s.crossingOnPort c (s.lead p))

/-- The amendment ends refused or discarded with a reason of R31 (R45 to R48, R50). -/
def State.amdRefuse (s : State) (code : Nat) : State :=
  ((s.wr Reg.chtAmdStatus (BitVec.ofNat 32 (code * 65536 + 4))).onLoader fun l => { l with amd := none }).raise .chtAmdRefused 0 code

/-- The groups that an amendment writes. -/
def Amendment.groups (a : Amendment) : List Nat := ((a.crossings.filter (·.valid)).map (·.group)).eraseDups

/-- A staged amendment whose take-stroke has come is applied whole, or discarded where a port is busy (R47, R48). -/
def State.amdApply (s : State) : State :=
  match s.loader.amd with
  | none => s
  | some a =>
    if !a.staged || !(a.take == 0 || a.take == s.clock.stroke.toNat) then s
    else if !s.rolesIdle a then s.amdRefuse 0x12
    else
      let s := s.amendClear ((a.patches.filter fun p => p.table == 1).flatMap fun p => p.touched 16)
      let s := forAll a.patches (fun p t => t.applyPatch p) s
      let s := s.armAmended a.groups
      let s := match imageSegment a.image 6 with | some bs => s.putManifest bs a.guard a.mtags | none => s
      let id := (Header.parse a.image).chartId
      let s := (s.wr Reg.chtAmdIdLo (BitVec.ofNat 32 id)).wr Reg.chtAmdIdHi (BitVec.ofNat 32 (id / 2 ^ 32))
      ((s.wr Reg.chtAmdStatus 3).onLoader fun l => { l with amd := none }).raiseFree .chtAmdApplied 0

/-! ### Staging (R45 to R47) -/

/-- A write of `CHT_AMD_CTRL` (R45 to R47): `ABORT` discards silently, `GO` starts staging by `PATH` and latches the take-stroke.
DESIGN CHOICE: bytes that the push buffer already holds when `GO` selects `PATH` 1 are the amendment's first. -/
def amdCtrlWrite (w : Word) (s : State) : State :=
  let s := if bit w 1 && s.loader.amd.isSome then (s.wr Reg.chtAmdStatus 0).onLoader fun l => { l with amd := none } else s
  if !bit w 0 then s
  else if s.loader.amd.isSome then s.raise .chtAmdRefused 0 0x16
  else if !s.running then s.amdRefuse 0x17
  else
    let take := (s.rd Reg.chtAmdTakeLo).toNat + s.f Reg.chtAmdTakeHi 15 0 * 2 ^ 32
    (s.wr Reg.chtAmdStatus 1).onLoader fun l =>
      { l with amd := some { path := bf w 2 2, take := take, image := if bit w 2 then l.push else [], staged := false, reread := [], guard := 0, mtags := 0 }
               push := if bit w 2 then [] else l.push }

/-- The bytes that stage: a pull of `CHT_HOST_LEN`, or what was pushed, up to `TOTAL_LEN` (R46). DESIGN CHOICE: the push takes what is
written while it stages, and bytes beyond `TOTAL_LEN` are dropped. -/
def State.amdBytes (s : State) (a : Amendment) : List Byte :=
  if a.path = 1 then (if 256 ≤ a.image.length then a.image.take (bytesAt a.image 0x2C 4) else a.image)
  else readBytes zeroByte s.hostMem s.pullAddr (min 0x4000000 (s.rd Reg.chtHostLen).toNat)

/-- The directory's bytes of an image. -/
def imageDir (image : List Byte) : List Byte := (image.drop 0x100).take (16 * (Header.parse image).segCount)

/-- The types of an image's segments whose CRC is wrong (R30). -/
def wrongSegments (image : List Byte) : List Nat :=
  ((parseDir (Header.parse image).segCount (imageDir image)).filter fun e =>
    let bs := (image.drop e.offset).take e.length
    crc32 (if e.typ = 10 then bs.take 0x5C0 else bs) != e.crc).map (·.typ)

/-- Checks 1 to 7 of R30 on a staged image, with the size of R46 and the base of R45: 0, or the reason. -/
def State.amdFront (s : State) (image : List Byte) : Nat :=
  let h := Header.parse image
  if 1024 * s.f Reg.chtAmdShadow 11 0 < image.length then 0x14
  else
    let c := headerCheck image false
    if c ≠ 0 then c
    else if h.baseId ≠ pair64 (s.rd Reg.chtRunIdLo) (s.rd Reg.chtRunIdHi) then 0x10
    else
      let c := dirCheck h (imageDir image) false false
      if c ≠ 0 then c
      else if s.loader.otpHash.isSome && !h.signed then 8
      else s.loader.trustCheck h (image.take 256 ++ imageDir image) ((imageSegment image 10).getD [])

/-- Checks 8 and 9 of R30 on a staged image whose CRCs are right, with those of R44, R45 and R524: 0, or the reason. The guard and
`MTAGS` of a replacement manifest are operands. -/
def State.amdBack (s : State) (image : List Byte) (guard mtags : Nat) : Nat :=
  let h := Header.parse image
  let d := parseDir h.segCount (imageDir image)
  let trust := (imageSegment image 10).getD []
  let others := d.filter fun e => e.typ != 10
  if h.signed && (others.map fun e => sha256 ((image.drop e.offset).take e.length)) != (trustDigests h trust).take others.length then 0xC
  else if d.any fun e => !([2, 4, 6, 10].contains e.typ) then 0x11
  else if trust ≠ [] ∧ bytesAt trust 0x44 4 ≠ 0 then 0x11
  else match imagePatches image with
    | none => 0x11
    | some ps =>
      if ps.any fun p => !p.formOk then 0x11
      else if ps.any s.patchWatch then 0x13
      else if ps.any fun p => !s.patchLimit p then 0x11
      else
        let t := forAll (ps.filter fun p => p.table == 0x101 || p.table == 4) (fun p t => t.applyPatch p) s
        let t := match imageSegment image 6 with | some bs => t.putManifest bs guard mtags | none => t
        if !t.crewsOk then 0x11 else if t.regionsOk && t.manifestOk then 0 else 0xD

/-- Staging completes (R44 to R48): `got` is what a pull delivered when it differs from host memory as the model holds it; `guard` and
`mtags` belong to a replacement manifest. A segment whose CRC is wrong is read once more, and staging goes on (R32). -/
def amdStaged (got : Option (List Byte)) (guard mtags : Nat) (s : State) : State :=
  match s.loader.amd with
  | none => s
  | some a =>
    if a.staged then s
    else
      let image := got.getD (s.amdBytes a)
      let wrong := wrongSegments image
      let b : Amendment := { a with image := image, staged := true, guard := guard, mtags := mtags }
      if s.amdFront image ≠ 0 then s.amdRefuse (s.amdFront image)
      else if wrong.any a.reread.contains then s.amdRefuse 0xB
      else if wrong ≠ [] then
        (s.countErr Reg.chtRetryCnt 16 wrong.length).onLoader fun l => { l with amd := some { a with reread := a.reread ++ wrong } }
      else if s.amdBack image guard mtags ≠ 0 then s.amdRefuse (s.amdBack image guard mtags)
      else if a.take ≠ 0 ∧ !serialNewer 48 a.take s.clock.stroke.toNat then s.amdRefuse 0x15
      else if !s.rolesIdle b then s.amdRefuse 0x12
      else (s.wr Reg.chtAmdStatus 2).onLoader fun l => { l with amd := some b }

end Sys2Proof.Machine
end

