-- ==== Sys2Proof/Machine/EngineOps.lean ====
section
/-! DEFINITION. Operands, arithmetic and memory of the engine instruction set, and how an instruction issues (R242 to R263). -/

namespace Sys2Proof.Machine

/-! ### Registers (R242) -/

/-- A vector of zeros. -/
def zeroV : List Lane := List.replicate 32 0

/-- An accumulator of zeros. -/
def zeroA : List Acc := List.replicate 32 0

def State.vreg (s : State) (e r : Nat) : List Lane := nget (fun _ => zeroV) (s.eng e).v r
def State.areg (s : State) (e r : Nat) : List Acc := nget (fun _ => zeroA) (s.eng e).a r
def State.sreg (s : State) (e r : Nat) : Word := nget (fun _ => (0 : Word)) (s.eng e).s r

def State.setA (s : State) (e r : Nat) (v : List Acc) : State := s.onEng e fun x => { x with a := nset (fun _ => zeroA) x.a r v }
def State.setS (s : State) (e r : Nat) (v : Word) : State := s.onEng e fun x => { x with s := nset (fun _ => (0 : Word)) x.s r v }

/-- A write to a `V` register, masked where `MSK` is 1 (R250). -/
def State.setV (s : State) (e : Nat) (f : EngFields) (v : List Lane) : State :=
  let old := s.vreg e f.d.toNat
  let m := s.sreg e f.c.toNat
  let new := if f.msk then (upto 32).map fun i => if m.getLsbD i then v.getD i 0 else old.getD i 0 else v
  s.onEng e fun x => { x with v := nset (fun _ => zeroV) x.v f.d.toNat new }

/-- The B operand of a vector operation (R246). -/
def State.bVec (s : State) (e : Nat) (f : EngFields) : List Lane :=
  match fBsel f with
  | 0 => s.vreg e f.b.toNat
  | 1 => List.replicate 32 (BitVec.ofNat 20 (s.sreg e f.b.toNat).toNat)
  | _ => List.replicate 32 (BitVec.ofNat 20 (fVal f))

/-- The B operand of a scalar operation (R246). -/
def State.bScal (s : State) (e : Nat) (f : EngFields) : Word :=
  if fBsel f = 0 then s.sreg e f.b.toNat else BitVec.ofInt 32 (signed 20 (fVal f))

/-! ### Elements and arithmetic (R247 to R249) -/

/-- An element of `n` bits as a number under `SGN` (R247). -/
def elem (n : Nat) (sgn : Bool) (x : Nat) : Int := if sgn then signed n x else (x % 2 ^ n : Nat)

/-- An exact result in the destination: clamped under `SAT`, else its low bits (R248). -/
def fitTo (n : Nat) (sgn sat : Bool) (v : Int) : Nat :=
  if sat then encode n (if sgn then clampI (-(2 ^ (n - 1) : Nat)) ((2 ^ (n - 1) : Nat) - 1) v else clampI 0 ((2 ^ n : Nat) - 1) v)
  else encode n v

/-- A right shift with the rounding of R249: half up, towards minus infinity, or half to even. -/
def shiftRight (var sh : Nat) (v : Int) : Int :=
  if sh = 0 then v
  else
    let p : Int := (2 ^ sh : Nat)
    match var with
    | 0 => (v + p / 2) / p
    | 1 => v / p
    | _ =>
      let q := v / p
      let r := v % p
      if r < p / 2 then q else if p / 2 < r then q + 1 else q + q % 2

/-- Apply an operation on elements to a word, or under `HLF` to its two halves (R247). The operation takes the element width. -/
def perElem (hlf : Bool) (g : Nat → Nat → Nat → Nat) (a b : Lane) : Lane :=
  if hlf then
    BitVec.ofNat 20 (g 10 (a.toNat / 1024) (b.toNat / 1024) * 1024 + g 10 (a.toNat % 1024) (b.toNat % 1024))
  else BitVec.ofNat 20 (g 20 a.toNat b.toNat)

/-- An exact operation on elements, fitted under `SGN` and `SAT` (R248). -/
def exactOp (f : EngFields) (g : Int → Int → Int) (n a b : Nat) : Nat :=
  fitTo n f.sgn f.sat (g (elem n f.sgn a) (elem n f.sgn b))

/-- A lane-wise operation of `Va` and B into `Vd`. -/
def State.lanewise (s : State) (e : Nat) (f : EngFields) (g : Nat → Nat → Nat → Nat) : State :=
  s.setV e f ((s.vreg e f.a.toNat).zipWith (perElem f.hlf g) (s.bVec e f))

/-- The shift of `VSH` (R251): left when positive, right when negative. -/
def vshElem (f : EngFields) (n a b : Nat) : Nat :=
  let k := signed 6 b
  let v := elem n f.sgn a
  if 0 ≤ k then fitTo n f.sgn f.sat (v * (2 ^ k.toNat : Nat)) else fitTo n f.sgn f.sat (shiftRight f.var.toNat (-k).toNat v)

/-- An accumulator lane after an exact sum (R248). -/
def accFit (sat : Bool) (v : Int) : Acc :=
  BitVec.ofInt 48 (if sat then clampI (-(2 ^ 47 : Nat)) ((2 ^ 47 : Nat) - 1) v else v)

/-- A scalar after an exact sum (R248). -/
def scalFit (f : EngFields) (v : Int) : Word := BitVec.ofNat 32 (fitTo 32 f.sgn f.sat v)

/-- A scalar as a number under `SGN`. -/
def scalVal (sgn : Bool) (w : Word) : Int := if sgn then w.toInt else w.toNat

/-! ### Local memory (R252) -/

/-- (Sa + off), 32 bits, with low bits cleared. -/
def State.address (s : State) (e : Nat) (r : BitVec 5) (off : Int) (align : Nat) : Nat :=
  (BitVec.ofInt 32 ((s.sreg e r.toNat).toInt + off)).toNat / align * align

/-- The address of local byte `a` in working memory (R217). -/
def localAt (e a : Nat) : Nat := e * 0x10000 + a

/-- Every byte of an access lies in local memory; of a store, in the data region (R252). -/
def State.inLocal (s : State) (e base n : Nat) (store : Bool) : Bool := base + n ≤ 0x10000 && (!store || s.codeTop e ≤ base)

/-- Bytes that `n` packed words take (R252). -/
def packedBytes (n : Nat) : Nat := (20 * n + 7) / 8

/-- Word `j` of a packed vector at byte address `b` of a memory (R196, R252). -/
def packedWord (m : NMap Byte) (b j : Nat) : Lane :=
  BitVec.ofNat 20 (leNat (readBytes zeroByte m (b + 20 * j / 8) 3) / 2 ^ (20 * j % 8))

/-- Word `j` of a packed vector takes a value; the bits beside it stay. -/
def putPacked (m : NMap Byte) (b : Nat) (w : Lane) (j : Nat) : NMap Byte :=
  let a := b + 20 * j / 8
  let sh := 20 * j % 8
  let v := leNat (readBytes zeroByte m a 3)
  writeBytes zeroByte m a (leBytes 3 (v % 2 ^ sh + w.toNat * 2 ^ sh + v / 2 ^ (20 + sh) * 2 ^ (20 + sh)))

/-- Consecutive words from word `j` of a packed vector. -/
def putWords (m : NMap Byte) (b : Nat) (ws : List Lane) (j : Nat) : NMap Byte :=
  (ws.zipIdx j).foldl (fun m w => putPacked m b w.1 w.2) m

/-- `n` words of local memory from a vector address. -/
def State.localWords (s : State) (e base n : Nat) : List Lane := (upto n).map (packedWord s.work (localAt e base))

/-! ### Issue and control flow (R219, R244, R258 to R260) -/

/-- The instruction after this one, by the hardware loops (R259): at the end of a body the loop returns to its start while runs are
left, else it ends and the loop around it is looked at. -/
def loopNext (pc : Nat) : List LoopSt → Nat × List LoopSt
  | [] => (pc, [])
  | l :: r => if l.stop = pc then if 1 < l.left then (l.start, { l with left := l.left - 1 } :: r) else loopNext pc r else (pc, l :: r)

/-- A program counter of 16 bits wraps (R242). -/
def pcWrap (n : Nat) : Nat := n % 2 ^ 16

/-- The program counter and the loops change; an engine that is to stop does so when it leaves its bundle, or branches (R219, R258). -/
def EngSt.moved (x : EngSt) (pc : Nat) (loops : List LoopSt) : EngSt :=
  { x with pc := pcWrap pc, loops := loops, mid := x.mid && pcWrap pc == pcWrap (x.pc + 8) && pc % 32 != 0 }

/-- An instruction waits; on an engine that is to stop it is abandoned, and with it the rest of its bundle and what has been posted
(R263). -/
def EngSt.waiting (x : EngSt) (w : EngWait) : EngSt :=
  if x.stopped then { x with mid := false, posted := [] } else { x with wait := some w }

/-- The engine goes on at `pc`. -/
def State.goTo (s : State) (e pc : Nat) : State :=
  let (p, l) := loopNext pc (s.eng e).loops
  s.onEng e fun x => x.moved p l

/-- The engine goes on at the instruction that follows. -/
def State.advance (s : State) (e : Nat) : State := s.goTo e (pcWrap ((s.eng e).pc + 8))

/-- Whether engine `e` can issue: it holds a job, waits for nothing, and has not stopped at the end of a bundle (R219). -/
def State.canIssue (s : State) (e : Nat) : Bool :=
  (s.eng e).job.isSome && (s.eng e).wait.isNone && (!(s.eng e).stopped || (s.eng e).mid)

/-- An engine issues an instruction (R219, R244, R245): with an undefined encoding, or fetched from at or above `CODE_TOP`, it faults
with code 1; else it has its effect. An engine that holds no job, or waits, issues nothing. -/
def State.issue (s : State) (e : Nat) (op : EngOp) (f : EngFields) (g : State → State) : State :=
  if s.canIssue e then
    if op.legal f && decide ((s.eng e).pc < s.codeTop e) then g s else s.engFaultAt e 1
  else s

/-- An instruction that only computes and goes on. -/
def State.simple (s : State) (e : Nat) (op : EngOp) (f : EngFields) (g : State → State) : State :=
  s.issue e op f fun t => (g t).advance e

/-- An instruction that touches local memory: outside it, or below `CODE_TOP` with a store, it faults with code 2 (R225, R252). -/
def State.memory (s : State) (e : Nat) (op : EngOp) (f : EngFields) (base n : Nat) (store : Bool) (g : State → State) : State :=
  s.issue e op f fun t => if t.inLocal e base n store then (g t).advance e else t.engFaultAt e 2

/-- The job descriptor of an engine. -/
def State.jobDesc (s : State) (e : Nat) : Desc := Desc.ofRec ((s.eng e).job.getD 0)

/-- Queue `q` may be written by the engine: its producer is the engine, or a crew whose tree holds it (R255). -/
def State.mayPush (s : State) (e q : Nat) : Bool :=
  (s.prodKind q == 3 && s.prodId q == e) ||
  (s.prodKind q == 4 && s.f (Reg.crwCfg (s.prodId q)) 31 31 == 1 && State.inTree 128 s (s.prodId q) e)
where
  /-- Engine `e` is a leaf of crew `c`'s tree; the first argument bounds its depth. -/
  State.inTree : Nat → State → Nat → Nat → Bool
    | 0, _, _, _ => false
    | fuel + 1, s, c, e =>
      (upto (s.f (Reg.crwCfg c) 28 24)).any fun m =>
        let x := s.member c m
        if x.1 then State.inTree fuel s x.2.1 e else x.2.1 == e

/-! ### Queues (R254 to R256) -/

/-- What `QIN` puts in Sd (R254). -/
def qinStatus (old : Word) (d : Desc) (words : Nat) (isFirst : Bool) : Word :=
  let p := bit old 31 || d.poison
  BitVec.ofNat 32 (p.toNat * 2 ^ 31 + d.eof.toNat * 2 ^ 30 + words * 2 ^ 16
    + (if isFirst then d.first.toNat else bf old 15 15) * 2 ^ 15 + d.last.toNat * 2 ^ 14 + d.line)

/-- A `QIN` discards a descriptor (R254): none of a line, one earlier than the job, or, gathering, one without `FIRST` while no line
has started. -/
def State.qinDrops (s : State) (e var : Nat) (started : Bool) (d : Desc) : Bool :=
  d.dkind != 0 || serialNewer 16 (s.jobDesc e).stroke d.stroke || (var == 1 && !started && !d.first)

/-- The words already placed before a descriptor's: none where its `FIRST` starts a line (R254). -/
def qinStart (var words : Nat) (d : Desc) : Nat := if var = 1 ∧ d.first then 0 else words

/-- One descriptor taken by a waiting `QIN` (R254): whether it is complete, and the state. -/
def State.qinTake (s : State) (e var sa words : Nat) (started : Bool) (st : Word) (r : Rec) :
    Bool × Nat × Bool × Word × State :=
  let q := s.dataQ false e
  let d := Desc.ofRec r
  if s.qinDrops e var started d then
    (false, words, started, st, onlyIf (d.dkind == 0 && serialNewer 16 (s.jobDesc e).stroke d.stroke) (fun t => t.stale q) s)
  else
    let words := qinStart var words d
    let ws := if d.poison then [] else (s.descWords d).take (5760 - words)
    let s := { s with work := putWords s.work (localAt e sa) ws words }
    let n := words + ws.length
    let st := qinStatus st d n (!started)
    (var = 0 || d.last, n, true, st, s)

/-- A waiting `QIN` takes descriptors until it is complete or the queue is empty; the first argument bounds their number. -/
def State.qinRun : Nat → State → Nat → BitVec 64 → Nat → Nat → Nat → Nat → Bool → Word → State
  | 0, s, e, w, _, _, _, n, started, st => s.onEng e fun x => { x with wait := some (.qin w n started st) }
  | fuel + 1, s, e, w, var, dreg, sa, n, started, st =>
    match s.pop (s.dataQ false e) with
    | (none, s) => s.onEng e fun x => { x with wait := some (.qin w n started st) }
    | (some r, s) =>
      let d := Desc.ofRec r
      let at_ := qinStart var n d
      if !s.qinDrops e var started d ∧ !d.poison ∧ !s.inLocal e sa (packedBytes (at_ + min d.len (5760 - at_))) true then
        (s.onEng e fun x => { x with wait := none }).engFaultAt e 2
      else
        let (fin, n, started, st, s) := s.qinTake e var sa n started st r
        if fin then ((s.onEng e fun x => { x with wait := none }).setS e dreg st).advance e
        else State.qinRun fuel s e w var dreg sa n started st

/-- The slot that the engine's job writes (R221, R231, R255). -/
def State.outSlot (s : State) (e : Nat) : Option (Nat × Nat) :=
  match (s.eng e).cut with
  | some o => o
  | none => ((s.eng e).job).bind s.slotOf

/-- The `LINE` descriptors of a write of words from word offset `off` of a line: at most 1,024 words each, the first `FIRST`, the last
`LAST` (R255); in a coded slot each points at its first block (R196), and a write that writes nothing has none. DEDUCED: a word that no
address in units of 16 bytes names is pointed at by the unit that holds it. -/
def State.postedDescs (s : State) (e k j l off : Nat) (ws : List Lane) : List Rec :=
  let cs := (chunks 1024 ws).zipIdx
  let comp := (s.slot k j).comp
  if s.slipHeight k ≤ l ∨ (comp ≠ 0 ∧ off % 256 ≠ 0) then []
  else cs.map fun c =>
    let word := off + 1024 * c.2
    let byte := s.lineAddr k j l (if comp = 0 then 20 * word / 8 else 16 * blockGranules comp * (word / 256))
    ({ dkind := 0, space := 0, addr := byte / 16, len := c.1.length, stream := (s.jobDesc e).stream, line := l,
       stroke := (s.jobDesc e).stroke, tag := 0,
       dflags := (if c.2 = 0 then 32 else 0) + (if c.2 + 1 = cs.length then 16 else 0), arg := 0 } : Desc).toRec

/-- `QOUT` posts its words (R255, R256). -/
def State.qoutPost (s : State) (e : Nat) (f : EngFields) : State :=
  let sb := s.sreg e f.b.toNat
  let n := min 5760 (bf sb 28 16)
  let base := s.address e f.a 0 16
  match s.outSlot e with
  | none => s.engFaultAt e 3
  | some (k, j) =>
    if !s.inLocal e base (packedBytes n) false then s.engFaultAt e 2
    else
      let ws := s.localWords e base n
      let p : Posted := { slip := k, slot := j, line := bf sb 12 0, off := bf f.imm 12 0, words := ws, queue := bf f.imm 27 16
                          descs := if f.var = 1 then s.postedDescs e k j (bf sb 12 0) (bf f.imm 12 0) ws else [] }
      (s.onEng e fun x => { x with posted := x.posted ++ [p], wait := none }).advance e

/-- Words written into a line of a slot from a word offset (R255): a coded line takes whole blocks only. -/
def State.putLine (s : State) (k j l off : Nat) (ws : List Lane) : State :=
  if s.slipHeight k ≤ l then s
  else if (s.slot k j).comp = 0 then
    (ws.zipIdx off).foldl (fun t w =>
      let a := 20 * w.2 / 8
      let sh := 20 * w.2 % 8
      let v := leNat (t.loadLine k j l a 3)
      t.storeLine k j l a (leBytes 3 (v % 2 ^ sh + w.1.toNat * 2 ^ sh + v / 2 ^ (20 + sh) * 2 ^ (20 + sh)))) s
  else if off % 256 ≠ 0 then s
  else s.placeBlocks k j l (off / 256) ws

/-- Descriptors enter a queue in order while it is open, a queue the chart does not define swallowing them (R179, R182); what is left
waits with its write. -/
def State.pushPosted (s : State) (q : Nat) : List Rec → List Rec × State
  | [] => ([], s)
  | d :: r =>
    if s.rd (Reg.queCfg q) = 0 then ([], s)
    else if s.queueOpen q then (s.append q d).pushPosted q r else (d :: r, s)

/-- One posted write lands, and its descriptors as far as their queue takes them (R256). -/
def State.landOne (s : State) (e : Nat) (p : Posted) : State :=
  let s := s.putLine p.slip p.slot p.line p.off p.words
  let (left, s) := s.pushPosted p.queue p.descs
  if left = [] then s else s.onEng e fun x => { x with posted := x.posted ++ [{ p with words := [], descs := left }] }

/-- The posted writes and pushes of a job land (R256): a push that a closed queue holds back has not landed. -/
def State.land (s : State) (e : Nat) : State :=
  forAll (s.eng e).posted (fun p t => t.landOne e p) (s.onEng e fun x => { x with posted := [] })

/-- `TSIG` pushes its descriptor (R251). -/
def State.tsigPush (s : State) (e : Nat) (f : EngFields) : State :=
  let d := s.jobDesc e
  let r := ({ dkind := 3, space := 0, addr := 0, len := 0, stream := 0, line := 0, stroke := d.stroke, tag := d.tag, dflags := 0,
              arg := (s.sreg e f.a.toNat).toNat } : Desc).toRec
  ((s.onEng e fun x => { x with wait := none }).append (bf f.imm 11 0) r).advance e

/-! ### Instruction words (R244) -/

/-- An instruction's 64-bit word. -/
def engWord (op : EngOp) (f : EngFields) : BitVec 64 :=
  op.code ++ f.d ++ f.a ++ f.b ++ f.c ++ BitVec.ofBool f.sgn ++ BitVec.ofBool f.sat ++ BitVec.ofBool f.hlf ++ BitVec.ofBool f.msk ++ f.var ++ f.imm

/-- The fields of a word. -/
def engFieldsOf (w : BitVec 64) : EngFields :=
  { d := w.extractLsb' 53 5, a := w.extractLsb' 48 5, b := w.extractLsb' 43 5, c := w.extractLsb' 38 5, sgn := w.getLsbD 37,
    sat := w.getLsbD 36, hlf := w.getLsbD 35, msk := w.getLsbD 34, var := w.extractLsb' 32 2, imm := w.extractLsb' 0 32 }

/-- The operation of a word, if its code is one of R251. -/
def engOpOf (w : BitVec 64) : Option EngOp := EngOp.all.find? fun o => o.code == w.extractLsb' 58 6

end Sys2Proof.Machine
end

