-- ==== Sys2Proof/Machine/EngineSteps.lean ====
section
/-! DEFINITION. The meaning of every engine instruction (R251 to R261) and of what a waiting instruction waits for. Each takes the
engine and the fields of the instruction it issues. -/

namespace Sys2Proof.Machine

/-! ### Control -/

def engNop (e : Nat) (f : EngFields) (s : State) : State := s.simple e .nop f id

/-- A branch (R258): taken, it continues at `PC` + 8 × off and leaves the loops whose bodies the target lies outside. -/
def engBr (e : Nat) (f : EngFields) (s : State) : State :=
  s.issue e .br f fun t =>
    let a := scalVal f.sgn (t.sreg e f.a.toNat)
    let k := scalVal f.sgn (BitVec.ofInt 32 (signed 16 (bf f.imm 31 16)))
    let taken := match f.var.toNat with | 0 => true | 1 => a == k | 2 => a != k | _ => decide (a < k)
    if taken then
      let pc := encode 16 (((t.eng e).pc : Int) + 8 * fOff f)
      let inside := fun (l : LoopSt) => decide (pcWrap (pc + 2 ^ 16 - l.start) < pcWrap (l.stop + 2 ^ 16 - l.start))
      t.onEng e fun x => x.moved pc (x.loops.dropWhile fun l => !inside l)
    else t.advance e

/-- A hardware loop over the n instructions that follow (R259); met while two loops are active it is undefined (R245). -/
def engLoop (e : Nat) (f : EngFields) (s : State) : State :=
  s.issue e .loop f fun t =>
    if 2 ≤ (t.eng e).loops.length then t.engFaultAt e 1
    else
      let start := pcWrap ((t.eng e).pc + 8)
      let stop := pcWrap (start + 8 * bf f.imm 9 0)
      let n := (t.sreg e f.a.toNat).toNat
      if n = 0 then t.goTo e stop
      else t.onEng e fun x => x.moved start ({ start := start, stop := stop, left := n } :: x.loops)

/-- The job ends with `OK` once everything posted has landed (R256, R260). -/
def engJend (e : Nat) (f : EngFields) (s : State) : State :=
  s.issue e .jend f fun t =>
    let r := (t.sreg e f.a.toNat).toNat % 2 ^ 27
    if (t.eng e).posted = [] then t.endJob e 0 r else t.onEng e fun x => x.waiting (.jend r)

/-- The job field that an index selects (R261). -/
def State.jobField (s : State) (e i : Nat) : Nat :=
  let d := s.jobDesc e
  match i with
  | 0 => d.line
  | 1 => d.lines
  | 2 => d.stroke
  | 3 => d.tag
  | 4 => d.kernel
  | 5 => d.out.toNat * 8 + d.slot
  | 6 => d.stream
  | 7 => e
  | 8 => d.space * 2 ^ 31 + d.addr
  | 9 => s.deadlineNs - s.since
  | 10 => s.throttled.toNat
  | _ => 0

def engJfld (e : Nat) (f : EngFields) (s : State) : State :=
  s.simple e .jfld f fun t => t.setS e f.d.toNat (BitVec.ofNat 32 (t.jobField e (bf f.imm 3 0)))

/-- `TSIG` to a queue the engine may not write faults with code 3; to one at `XOFF` it waits (R251, R255, R256). -/
def engTsig (e : Nat) (f : EngFields) (s : State) : State :=
  s.issue e .tsig f fun t =>
    let q := bf f.imm 11 0
    if !t.mayPush e q then t.engFaultAt e 3
    else if t.queueClosed q then t.onEng e fun x => x.waiting (.tsig (engWord .tsig f))
    else t.tsigPush e f

/-! ### Local memory -/

def engVld (e : Nat) (f : EngFields) (s : State) : State :=
  let b := s.address e f.a (fOff f) 16
  s.memory e .vld f b 80 false fun t => t.setV e f (t.localWords e b 32)

def engVst (e : Nat) (f : EngFields) (s : State) : State :=
  let b := s.address e f.a (fOff f) 16
  s.memory e .vst f b 80 true fun t => { t with work := putWords t.work (localAt e b) ((t.vreg e f.d.toNat).take 32) 0 }

def engVlds (e : Nat) (f : EngFields) (s : State) : State :=
  let b := s.address e f.a (fOff f) 16
  let k := bf (s.sreg e f.b.toNat) 11 0
  s.memory e .vlds f b (packedBytes (31 * k + 1)) false fun t =>
    t.setV e f ((upto 32).map fun i => packedWord t.work (localAt e b) (i * k))

def engSld (e : Nat) (f : EngFields) (s : State) : State :=
  let b := s.address e f.a (fOff f) 4
  s.memory e .sld f b 4 false fun t => t.setS e f.d.toNat (BitVec.ofNat 32 (leNat (readBytes zeroByte t.work (localAt e b) 4)))

def engSst (e : Nat) (f : EngFields) (s : State) : State :=
  let b := s.address e f.a (fOff f) 4
  s.memory e .sst f b 4 true fun t =>
    { t with work := writeBytes zeroByte t.work (localAt e b) (leBytes 4 (t.sreg e f.d.toNat).toNat) }

/-! ### Queues and the parameter block -/

/-- `QIN` waits for its descriptors and their data; from a queue the chart does not allot to the engine it faults (R225, R254). -/
def engQin (e : Nat) (f : EngFields) (s : State) : State :=
  s.issue e .qin f fun t =>
    let q := t.dataQ false e
    if t.consKind q = 3 ∧ t.consId q = e ∧ t.rd (Reg.queCfg q) ≠ 0 then
      t.onEng e fun x => x.waiting (.qin (engWord .qin f) 0 false 0)
    else t.engFaultAt e 3

/-- A waiting `QIN` receives its descriptors and their data (R254). -/
def qinDataArrive (e : Nat) (s : State) : State :=
  match (s.eng e).wait with
  | some (.qin w n started st) =>
    let f := engFieldsOf w
    State.qinRun ((s.queue (s.dataQ false e)).held.length + 1) s e w f.var.toNat f.d.toNat (s.address e f.a 0 16) n started st
  | _ => s

/-- `QOUT` (R255): a push to a queue the engine may not write faults with code 3, to one at `XOFF` it waits. -/
def engQout (e : Nat) (f : EngFields) (s : State) : State :=
  s.issue e .qout f fun t =>
    let q := bf f.imm 27 16
    if f.var = 1 ∧ !t.mayPush e q then t.engFaultAt e 3
    else if f.var = 1 ∧ (t.outSlot e).isSome ∧ t.queueClosed q then
      t.onEng e fun x => x.waiting (.qout (engWord .qout f))
    else t.qoutPost e f

/-- `QWAIT` waits until every `QOUT` of the job has landed (R256). -/
def engQwait (e : Nat) (f : EngFields) (s : State) : State :=
  s.issue e .qwait f fun t =>
    if (t.eng e).posted = [] then t.advance e else t.onEng e fun x => x.waiting .qwait

/-- The posted writes of a job land and release a waiting `QWAIT` or `JEND`, once nothing of them is held at a closed queue (R256). -/
def postedWritesLanded (e : Nat) (s : State) : State :=
  let s := s.land e
  if (s.eng e).posted ≠ [] then s
  else match (s.eng e).wait with
  | some .qwait => (s.onEng e fun x => { x with wait := none }).advance e
  | some (.jend r) => (s.onEng e fun x => { x with wait := none }).endJob e 0 r
  | _ => s

/-- `LDP` waits for its word (R257). -/
def engLdp (e : Nat) (f : EngFields) (s : State) : State :=
  s.issue e .ldp f fun t => t.onEng e fun x => x.waiting (.ldp (engWord .ldp f))

/-- The word of the parameter block arrives (R257). -/
def ldpWordArrive (e : Nat) (s : State) : State :=
  match (s.eng e).wait with
  | some (.ldp w) =>
    let f := engFieldsOf w
    let d := s.jobDesc e
    let m := if d.space = 0 then s.fstore else s.work
    let v := leNat (readBytes zeroByte m (16 * d.addr + 4 * bf f.imm 11 0) 4)
    ((s.onEng e fun x => { x with wait := none }).setS e f.d.toNat (BitVec.ofNat 32 v)).advance e
  | _ => s

/-- A queue's fill has fallen to `XON`: back-pressure ends, and engines it held resume where they stopped (R182, R256). -/
def queueXonRelease (q : Nat) (s : State) : State :=
  if (s.queue q).xoff ∧ (s.queue q).held.length ≤ s.f (Reg.queXon q) 17 0 then
    let s := s.onQueue q fun x => { x with xoff := false }
    forAll (s.jik.engs.map (·.1)) (fun e t =>
      match (t.eng e).wait with
      | some (.qout w) =>
        let f := engFieldsOf w
        if bf f.imm 27 16 = q ∧ !t.queueClosed q then (t.onEng e fun x => { x with wait := none }).qoutPost e f else t
      | some (.tsig w) =>
        let f := engFieldsOf w
        if bf f.imm 11 0 = q ∧ !t.queueClosed q then t.tsigPush e f else t
      | _ => t) s
  else s

/-! ### Vector arithmetic -/

def engVadd (e : Nat) (f : EngFields) (s : State) : State := s.simple e .vadd f fun t => t.lanewise e f (exactOp f (· + ·))

def engVsub (e : Nat) (f : EngFields) (s : State) : State := s.simple e .vsub f fun t => t.lanewise e f (exactOp f (· - ·))

def engVmin (e : Nat) (f : EngFields) (s : State) : State := s.simple e .vmin f fun t => t.lanewise e f (exactOp f min)

def engVmax (e : Nat) (f : EngFields) (s : State) : State := s.simple e .vmax f fun t => t.lanewise e f (exactOp f max)

/-- `|Va − B|` as an unsigned result, which always saturates (R248, R251). -/
def engVabsd (e : Nat) (f : EngFields) (s : State) : State :=
  s.simple e .vabsd f fun t => t.lanewise e f fun n a b => fitTo n false true (elem n f.sgn a - elem n f.sgn b).natAbs

def engVsh (e : Nat) (f : EngFields) (s : State) : State := s.simple e .vsh f fun t => t.lanewise e f (vshElem f)

def engVlog (e : Nat) (f : EngFields) (s : State) : State :=
  s.simple e .vlog f fun t =>
    let g := fun (a b : Lane) => match f.var.toNat with | 0 => a &&& b | 1 => a ||| b | 2 => a ^^^ b | _ => a &&& ~~~b
    t.setV e f ((t.vreg e f.a.toNat).zipWith g (t.bVec e f))

def engVmov (e : Nat) (f : EngFields) (s : State) : State := s.simple e .vmov f fun t => t.setV e f (t.bVec e f)

def engVmul (e : Nat) (f : EngFields) (s : State) : State :=
  s.simple e .vmul f fun t => t.lanewise e f (exactOp f fun a b => shiftRight f.var.toNat (fSh f) (a * b))

/-! ### Scalars -/

/-- A scalar operation of Sa and B into Sd. -/
def State.scalar (s : State) (e : Nat) (op : EngOp) (f : EngFields) (g : Word → Word → Word) : State :=
  s.simple e op f fun t => t.setS e f.d.toNat (g (t.sreg e f.a.toNat) (t.bScal e f))

def engSadd (e : Nat) (f : EngFields) (s : State) : State :=
  s.scalar e .sadd f fun a b => scalFit f (scalVal f.sgn a + scalVal f.sgn b)

def engSsub (e : Nat) (f : EngFields) (s : State) : State :=
  s.scalar e .ssub f fun a b => scalFit f (scalVal f.sgn a - scalVal f.sgn b)

def engSmul (e : Nat) (f : EngFields) (s : State) : State := s.scalar e .smul f (· * ·)

def engSand (e : Nat) (f : EngFields) (s : State) : State := s.scalar e .sand f (· &&& ·)

def engSor (e : Nat) (f : EngFields) (s : State) : State := s.scalar e .sor f (· ||| ·)

def engSsh (e : Nat) (f : EngFields) (s : State) : State :=
  s.scalar e .ssh f fun a b =>
    let k := b.toNat % 32
    match f.var.toNat with | 0 => a <<< k | 1 => a >>> k | _ => a.sshiftRight k

def engSmov (e : Nat) (f : EngFields) (s : State) : State := s.simple e .smov f fun t => t.setS e f.d.toNat f.imm

/-! ### Accumulators -/

/-- `MAC` and `MSU`: each lane's accumulator plus or minus the product (R251). -/
def State.accumulate (s : State) (e : Nat) (op : EngOp) (f : EngFields) (sign : Int) : State :=
  s.simple e op f fun t =>
    let p := (t.vreg e f.a.toNat).zipWith (fun a b => elem 20 f.sgn a.toNat * elem 20 f.sgn b.toNat) (t.bVec e f)
    t.setA e f.d.toNat ((t.areg e f.d.toNat).zipWith (fun a v => accFit f.sat (a.toInt + sign * v)) p)

def engMac (e : Nat) (f : EngFields) (s : State) : State := s.accumulate e .mac f 1

def engMsu (e : Nat) (f : EngFields) (s : State) : State := s.accumulate e .msu f (-1)

def engAset (e : Nat) (f : EngFields) (s : State) : State :=
  s.simple e .aset f fun t =>
    t.setA e f.d.toNat ((t.bVec e f).map fun b => BitVec.ofInt 48 (elem 20 f.sgn b.toNat * (2 ^ fSh f : Nat)))

/-- An accumulator read into a vector: shifted, rounded and saturated (R248, R249, R251). -/
def engArd (e : Nat) (f : EngFields) (s : State) : State :=
  s.simple e .ard f fun t =>
    t.setV e f ((t.areg e f.a.toNat).map fun a => BitVec.ofNat 20 (fitTo 20 f.sgn true (shiftRight f.var.toNat (fSh f) a.toInt)))

def engAsum (e : Nat) (f : EngFields) (s : State) : State :=
  s.simple e .asum f fun t =>
    let v := (t.areg e f.a.toNat).foldl (fun n a => n + a.toInt) 0
    t.setS e f.d.toNat (BitVec.ofNat 32 (fitTo 32 true true v))

/-! ### Lanes -/

def engVperm (e : Nat) (f : EngFields) (s : State) : State :=
  s.simple e .vperm f fun t =>
    t.setV e f ((t.vreg e f.b.toNat).map fun b => (t.vreg e f.a.toNat).getD (b.toNat % 32) 0)

def engVsld (e : Nat) (f : EngFields) (s : State) : State :=
  s.simple e .vsld f fun t =>
    t.setV e f (((t.vreg e f.a.toNat ++ t.vreg e f.b.toNat).drop (bf f.imm 4 0)).take 32)

def engVilv (e : Nat) (f : EngFields) (s : State) : State :=
  s.simple e .vilv f fun t =>
    let a := t.vreg e f.a.toNat
    let b := t.vreg e f.b.toNat
    t.setV e f ((upto 32).map fun i =>
      match f.var.toNat with
      | 0 => if i % 2 = 0 then a.getD (i / 2) 0 else b.getD (i / 2) 0
      | 1 => if i % 2 = 0 then a.getD (16 + i / 2) 0 else b.getD (16 + i / 2) 0
      | 2 => if i < 16 then a.getD (2 * i) 0 else b.getD (2 * (i - 16)) 0
      | _ => if i < 16 then a.getD (2 * i + 1) 0 else b.getD (2 * (i - 16) + 1) 0)

def engVext (e : Nat) (f : EngFields) (s : State) : State :=
  s.simple e .vext f fun t =>
    t.setS e f.d.toNat (BitVec.ofInt 32 (elem 20 f.sgn ((t.vreg e f.a.toNat).getD (bf f.imm 4 0) 0).toNat))

/-- A table lookup per lane (R253): the index is the element, clamped to the last entry. A negative element under `SGN` is no index:
the spec states no result. -/
def engVlut (e : Nat) (f : EngFields) (s : State) : State :=
  let b := s.address e f.b (fOff f) 16
  let n := 2 ^ bf f.imm 19 16
  s.memory e .vlut f b (packedBytes n) false fun t =>
    t.setV e f ((t.vreg e f.a.toNat).map fun a =>
      let x := elem 20 f.sgn a.toNat
      if x < 0 then BitVec.ofNat 20 (Config.unstated 10 (a.toNat + 2 ^ 20 * b))
      else packedWord t.work (localAt e b) (min x.toNat (n - 1)))

/-- An interpolated lookup per lane (R253). A negative element under `SGN` has no index in the table: the spec states no result. -/
def engVluti (e : Nat) (f : EngFields) (s : State) : State :=
  let b := s.address e f.b (fOff f) 16
  let n := 2 ^ bf f.imm 19 16
  let fr := bf f.imm 23 20
  s.memory e .vluti f b (packedBytes n) false fun t =>
    t.setV e f ((t.vreg e f.a.toNat).map fun a =>
      let x := elem 20 f.sgn a.toNat
      if x < 0 then BitVec.ofNat 20 (Config.unstated 10 (a.toNat + 2 ^ 20 * b))
      else
        let idx := min (x.toNat / 2 ^ fr) (n - 1)
        let nxt := min (idx + 1) (n - 1)
        let at' := fun i => elem 20 f.sgn (packedWord t.work (localAt e b) i).toNat
        BitVec.ofNat 20 (fitTo 20 f.sgn f.sat
          (at' idx + shiftRight 0 fr ((at' nxt - at' idx) * (x.toNat % 2 ^ fr : Nat)))))

/-- A comparison per lane into a scalar mask (R251). -/
def engVcmp (e : Nat) (f : EngFields) (s : State) : State :=
  s.simple e .vcmp f fun t =>
    let c := (t.vreg e f.a.toNat).zipWith (fun a b =>
      let x := elem 20 f.sgn a.toNat
      let y := elem 20 f.sgn b.toNat
      match f.var.toNat with | 0 => x == y | 1 => x != y | 2 => decide (x < y) | _ => decide (x ≤ y)) (t.bVec e f)
    t.setS e f.d.toNat (BitVec.ofNat 32 (c.zipIdx.foldl (fun m b => m + b.1.toNat * 2 ^ b.2) 0))

def engVsel (e : Nat) (f : EngFields) (s : State) : State :=
  s.simple e .vsel f fun t =>
    let m := t.sreg e f.c.toNat
    let a := t.vreg e f.a.toNat
    let b := t.vreg e f.b.toNat
    t.setV e f ((upto 32).map fun i => if m.getLsbD i then a.getD i 0 else b.getD i 0)

/-- The engine meets an undefined encoding: fault code 1 (R225, R245). -/
def undefinedEncoding (e : Nat) (s : State) : State := if s.canIssue e then s.engFaultAt e 1 else s

end Sys2Proof.Machine
end

