-- ==== Sys2Proof/Machine/Packets.lean ====
section
/-! DEFINITION. What arrives on a port: packets and messages, checked, classified and placed (R97, R127 to R130, R136 to R148), and
what a taken crossing does with each packet of its source (R155, R157, R173, R276, R277, R287). -/

namespace Sys2Proof.Machine

/-! ### Destinations of a crossing -/

/-- A `LINE` descriptor goes to a queue: a producer that never waits drops it at a full queue, another is held back (R182). -/
def State.pushLine (s : State) (q : Nat) (r : Rec) : State :=
  if heldProducer (s.prodKind q) then s.pushHeld q r else s.pushFree q r

/-- Words offered to a queue as one `LINE` descriptor whose data stand at byte `at_` of the frame store, or, with none, at an address
that the spec does not state and where they are put (R180). -/
def State.offerWords (s : State) (q stream line : Nat) (first last eof : Bool) (at_ : Option Nat) (ws : List Lane) : State :=
  let (space, addr, s) : Nat × Nat × State := match at_ with
    | some a => (0, a / 16, s)
    | none =>
      let (v, t) := s.fresh 25
      let space := v.toNat / 2 ^ 24
      let addr := v.toNat % 2 ^ 24
      (space, addr, if space = 0 then { t with fstore := writeBytes zeroByte t.fstore (16 * addr) (packWords ws) }
        else { t with work := writeBytes zeroByte t.work (16 * addr) (packWords ws) })
  s.pushLine q (Desc.toRec
    { dkind := 0, space, addr, len := ws.length, stream, line, stroke := s.stroke16, tag := 0
      dflags := first.toNat * 32 + last.toNat * 16 + eof.toNat * 8, arg := 0 })

/-- The crew input queue of a transform descriptor (R160). -/
def State.crewQueue (s : State) (x : Nat) : Nat := s.xformHalf x 6 % 4096

/-- Part `part` of line `l` of what a crossing delivers goes to its destination: a stream, a slip or a crew (R157). -/
def State.deliverPart (s : State) (c : Crossing) (j frame l part : Nat) (first last eof : Bool) (ws : List Lane) : State :=
  if c.dstKind = 1 then s.sendPacket c.dst 1 l first last (videoFlags eof frame part) ws
  else if c.dstKind = 2 then s.slipPlace c.dst frame l part ws
  else if c.dstKind = 3 then s.offerWords (s.crewQueue c.xform) j l first last eof none ws
  else s

/-- A whole line of what a crossing delivers goes to its destination in parts of 1,024 words (R130). -/
def State.deliverLine (s : State) (c : Crossing) (j frame l : Nat) (eof : Bool) (ws : List Lane) : State :=
  let cs := chunks 1024 ws
  forAll cs.zipIdx (fun e t => t.deliverPart c j frame l e.2 (e.2 == 0) (e.2 + 1 == cs.length) eof e.1) s

/-- A row store after a packet of line `l`. -/
def rowPut (rows : NMap (Nat × List Lane)) (key l part : Nat) (ws : List Lane) : NMap (Nat × List Lane) :=
  nput key (l, splice (match nfind key rows with | some r => r.2 | none => []) ws (1024 * part)) rows

/-- The words of line `l` of a crossing's row store. -/
def State.gathered (s : State) (e l : Nat) : List Lane :=
  match nfind (8 * e + l % 5) s.xtb.rows with
  | some r => r.2
  | none => []

/-- Line `l` of the window of crossing `e` goes on as it stands, through the transform stage where there is one (R137, R158, R277). A
stage delivers every line whose last row is now there, lines of which no packet came being what the line buffer holds. -/
def State.passLine (s : State) (e j frame l : Nat) : State :=
  let c := s.crossing e
  let (wx, _, ww, wh) := s.windowNow c
  let row := fun i => cutWords (s.streamFmt j) wx ww (s.gathered e i)
  if s.throughStage c then
    let (dw, dh, df) := s.dstShape c
    let oh := s.outHeight c dh
    let done := nget (fun _ => 0) s.xtb.passed e
    let s := { s with xtb := { s.xtb with passed := nset (fun _ => 0) s.xtb.passed e (max done (l + 1)) } }
    let last := s.lastLine c wh oh
    forAll ((upto oh).filter fun y => decide (done ≤ last y) && decide (last y ≤ l)) (fun y t =>
      t.deliverLine c j frame y (y + 1 == oh) (s.delivered c df dw dh y row)) s
  else s.deliverLine c j frame l (l + 1 == wh) (row l)

/-- Lines of crossing `e` that still wait for a packet go on without it (R137): those that `due` names. -/
def State.passOpen (s : State) (e j : Nat) (due : Nat → Bool) : State :=
  let (frame, open_) := (nfind e s.xtb.open_).getD (0, [])
  let s := { s with xtb := { s.xtb with open_ := nput e (frame, open_.filter fun x => !due x.1) s.xtb.open_ } }
  forAll (open_.filter fun x => due x.1) (fun x t => t.passLine e j frame x.1) s

/-- The frame of crossing `e` is over: what waits goes on, and the lines of a stage that are still to come (R137). -/
def State.passFrame (s : State) (e j : Nat) : State :=
  let s := s.passOpen e j fun _ => true
  let c := s.crossing e
  let n := (s.windowNow c).2.2.2
  let done := nget (fun _ => 0) s.xtb.passed e
  let s := if s.throughStage c ∧ 0 < done ∧ done < n then s.passLine e j ((nfind e s.xtb.open_).getD (0, [])).1 (n - 1) else s
  { s with xtb := { s.xtb with passed := nset (fun _ => 0) s.xtb.passed e 0 } }

/-- Part `part` of line `l` of a window has come: the line goes on once all its parts have; those whose place the line buffer of five
lines needs, and those of an earlier frame, go on first. -/
def State.gather (s : State) (e j frame l part : Nat) (ws : List Lane) : State :=
  let s := if ((nfind e s.xtb.open_).getD (frame, [])).1 = frame then s.passOpen e j fun i => i + 5 ≤ l
    else s.passFrame e j
  let s := { s with xtb := { s.xtb with rows := rowPut s.xtb.rows (8 * e + l % 5) l part ws } }
  let open_ := ((nfind e s.xtb.open_).getD (frame, [])).2
  let old := match open_.find? fun x => x.1 == l with | some x => x.2 | none => 0
  let got := if old.testBit part then old else old + 2 ^ part
  let n := (lineWords (s.streamFmt j) (s.streamWidth j) + 1023) / 1024
  let s := { s with xtb := { s.xtb with open_ := nput e (frame, open_.filter (·.1 != l) ++ [(l, got)]) s.xtb.open_ } }
  if got + 1 = 2 ^ n then s.passOpen e j (· == l) else s

/-- A packet of stream `j` for taken crossing `e` on its live path: a window of the source's whole width without a stage passes
packet by packet, any other line by line (R155, R158, R277). -/
def State.crossVideo (s : State) (e j : Nat) (p : Packet) : State :=
  let c := s.crossing e
  let frame := p.flags / 8 % 4
  let part := p.flags % 8
  let eof := p.flags.testBit 5
  let (wx, wy, ww, wh) := s.windowNow c
  let s := onlyIf (c.dstKind == 2) (fun t => t.slipOpen c.dst frame (p.line == 0 && p.first && part == 0)) s
  let s :=
    if p.line < wy ∨ wy + wh ≤ p.line then s
    else
      let l := p.line - wy
      if !s.throughStage c ∧ wx = 0 ∧ ww = s.streamWidth j then s.deliverPart c j frame l part p.first p.last (l + 1 == wh) p.words
      else s.gather e j frame l part p.words
  let s := onlyIf (eof && p.last) (fun t => t.passFrame e j) s
  onlyIf (c.dstKind == 2 && eof && p.last) (fun t => t.slipClose c.dst frame) s

/-- A packet of stream `j` for a layer on the cut-through path: into the layer's rows, and into its hold slip while the layer shows
it (R276, R287). -/
def State.crossLayer (s : State) (e j : Nat) (p : Packet) : State :=
  let c := s.crossing e
  let part := p.flags % 8
  let (_, wy, _, _) := s.windowNow c
  match s.layerSlot c.dst with
  | none => s
  | some (h, k) =>
    let s := match s.holdSlip h k with
      | some n =>
        if (s.lay h k).next = .live then
          s.slipPacket n (p.flags / 8 % 4) p.line part (p.line == 0 && p.first && part == 0) (p.flags.testBit 5 && p.last) p.words
        else s
      | none => s
    if p.line < wy ∨ s.streamHeight j ≤ p.line ∨ !s.rowsLive h k then s
    else s.liveRow h k e (p.flags / 8 % 4) (p.line - wy) part p.last p.words

/-- Every taken crossing that reads stream `j` live acts on a packet of it (R155, R157, R173); where the source stands stopped, all but a
layer from the next boundary on (R175). -/
def State.crossPacket (s : State) (j : Nat) (p : Packet) : State :=
  forAll (s.takenEntries.filter fun e => s.sourceNow (s.crossing e).src == j && !(s.entry e).suspended) (fun e t =>
    let c := t.crossing e
    if p.typ = 1 ∧ c.dstKind ≠ 0 ∧ t.sourceStopped c.src then t else
    let live := (c.kind == 0 && !(t.entry e).slipPath) || (c.kind == 1 && c.dstKind == 2)
    if c.kind = 3 ∨ c.kind = 4 then t.sendPacket c.dst p.typ p.line p.first p.last p.flags p.words
    else if p.typ = 1 ∧ live then (if c.dstKind = 0 then t.crossLayer e j p else t.crossVideo e j p)
    else t) s

/-! ### Packets (R127 to R130, R136) -/

/-- A packet with a code that R129 knows, a length in range and an enabled feature. -/
def State.typeOk (s : State) (l : Nat) (p : Packet) : Bool :=
  1 ≤ p.len && p.len ≤ 1024 && (p.typ == 1 || (p.typ == 2 && s.feature l 1) || (p.typ == 4 && s.feature l 6))

/-- A packet that its stream's window accepts is placed by its header (R130, R137). -/
def State.placePacket (s : State) (p : Packet) : State :=
  let j := p.stream
  let s := match p.typ with
    | 1 =>
      match s.landing j with
      | some k =>
        s.slipPacket k (p.flags / 8 % 4) p.line (p.flags % 8) (p.line == 0 && p.first && p.flags % 8 == 0) (p.flags.testBit 5 && p.last) p.words
      | none => s
    | 2 => if s.streamKind j = 1 then s.audPacket j p.line p.last p.flags p.words else s
    | _ => s.gangwayPacket j (p.words.headD 0).toNat
  s.crossPacket j p

/-- A packet arrives with its CRC-32 right (R129, R136). -/
def State.packetGood (s : State) (q : Nat) (bs : List Byte) : State :=
  let l := s.lead q
  let p := Packet.parse bs
  if !s.typeOk l p then s.countErr (Reg.prtRxTypeErr l) 16 1
  else if !s.streamValid p.stream ∨ s.streamTx p.stream ∨ s.lead (s.streamPort p.stream) ≠ l ∨ !s.flowsNow p.stream then s
  else
    let s := s.onPort l fun x => { x with heard := if x.heard.contains p.stream then x.heard else x.heard ++ [p.stream] }
    let (ok, s) := s.windowTake l p.stream p.seq
    if ok then s.placePacket p else s

/-! ### Messages (R139, R140) -/

/-- A message with a right CRC-32 and a known code (R123, R134, R142, R143, R147, R148, R102). -/
def State.messageGood (s : State) (l : Nat) (m : Msg) (crc : Nat) : State :=
  match m.mtype with
  | 0 => s.negReceived l m.payload
  | 1 =>
    let (now, s) := s.serveOnce l m crc
    let hold := m.op == 1 && m.addr < 0x10004 && 0x10000 < m.addr + m.payload.length
    let rough := m.op == 1 && m.addr < 0x34 && 0x30 < m.addr + m.payload.length
    let s := onlyIf (now && rough) (fun t => t.farRough l) s
    if now && hold then s.joinHoldReceived l (leNat (readBytes zeroByte (s.port l).far 0x10000 4)) else s
  | 2 => s.response l m
  | 3 => if s.feature l 4 then s.glassReceived l m.payload else s
  | 4 => s.stripeReceived l m
  | 5 => if s.ladder l = 0 ∨ (s.port l).txIdle then s else s.txIdleEnter l
  | 6 => s.statusReceived l m.payload
  | 7 => s.rateReceived l m.payload
  | 8 => s.stripeReceived l m
  | _ => s.countErr (Reg.prtRxCrcErr l) 24 1

/-- A message arrives: a wrong CRC-32 is counted (R140). -/
def State.messageIn (s : State) (q : Nat) (bad : Bool) (bs : List Byte) : State :=
  let l := s.lead q
  match (if bad then none else Msg.parse bs) with
  | some m => s.messageGood l m (leNat (bs.drop (bs.length - 4)))
  | none => s.countErr (Reg.prtRxCrcErr l) 24 1

/-! ### Arrival -/

/-- The bytes of a packet or message as they come out of rough water on the receive path, if it acts there (R150, R151). -/
def State.arrive (s : State) (q : Nat) (isMsg bad : Bool) (bs : List Byte) : State :=
  let (_, flips, s) := s.corrupted (s.lead q) false (bs.length + 2)
  let s := onlyIf (flips ≠ 0) (fun t => t.countErr (Reg.prtCodeErr q) 24 flips) s
  if isMsg then s.messageIn q (bad || flips != 0) bs
  else if !s.flowing q then s
  else if bad || flips != 0 || !crcGood bs then s.countErr (Reg.prtRxCrcErr (s.lead q)) 24 1
  else s.packetGood q bs

/-- A whole packet or message has arrived (R97, R136 to R140); one that ended with K30.7 is discarded. -/
def packetReceived (r : RxIn) (s : State) : State :=
  let q := r.port.val
  let l := s.lead q
  if s.ladder l < 3 ∨ (s.port l).rxIdle then s
  else
    let s := onlyIf (r.errs ≠ 0) (fun t => t.countErr (Reg.prtCodeErr q) 24 r.errs) s
    if r.aborted then s
    else if s.rough l false then
      let (g, out, n) := roughPass (s.roughCtrl l) (s.port l).roughRx (if r.isMsg then none else some (Packet.parse r.bytes).stream) (r.errs != 0) r.bytes
      let s := (s.onPort l fun x => { x with roughRx := g }).injected l n
      forAll out (fun e t => t.arrive l r.isMsg e.1 e.2) s
    else s.arrive q r.isMsg (r.errs != 0) r.bytes

/-! ### Crews that read a slip (R157, R201, R202) -/

/-- Pins of crew inputs whose crossing is taken no longer go (R201). -/
def State.strayPins (s : State) : State :=
  let stays := fun (r : Nat) => r < 8192 || (decide ((s.entry (r - 8192)).state = .taken) && (s.crossing (r - 8192)).dstKind == 3)
  forAll (s.slips.map (·.1)) (fun k t =>
    forAll (t.slots k) (fun j u =>
      if (u.slot k j).pins.all stays then u else (u.onSlot k j fun x => { x with pins := x.pins.filter stays }).showSlip k) t) s

/-- The frame a crew's input has picked goes to its queue: each line of the window, part by part, from where it stands in the frame
store. -/
def State.crewFrame (s : State) (e k : Nat) (p : Pick) : State :=
  let c := s.crossing e
  let j := s.sourceNow c.src
  let (wx, wy, ww, wh) := s.windowNow c
  let direct := wx == 0 && (s.slot k p.newer).comp == 0 && p.older == p.newer
  forAll (upto wh) (fun l u =>
    let u := u.fetchPick p (wy + l)
    let cs := chunks 1024 (cutWords (u.streamFmt j) wx ww (u.pickLine p (wy + l)))
    forAll cs.zipIdx (fun x v =>
      v.offerWords (v.crewQueue c.xform) j l (x.2 == 0) (x.2 + 1 == cs.length) (l + 1 == wh && x.2 + 1 == cs.length)
        (if direct then some (v.lineAddr k p.newer (wy + l) (2560 * x.2)) else none) x.1) u) s

/-- A crew's input from the slip path at a boundary: it selects its frame as any reader does. -/
def State.crewInput (s : State) (e k : Nat) : State :=
  let c := s.crossing e
  let r := crewReader e
  if (s.entry e).suspended then s
  else if s.sourceStopped c.src && !s.preloaded k then s.onEgress r fun y => { y with back := s.clock.boundary }
  else if !s.counts k (s.egress r).back then s
  else
    match s.selectFrame k c.xform r (s.egress r).show_ with
    | (none, t) => t
    | (some p, t) => (t.onEgress r fun y => { y with show_ := some p }).crewFrame e k p

/-- The inputs of crews from the slip path at a boundary (R157, R202). -/
def State.crewSelect (s : State) : State :=
  forAll (s.takenEntries.filter fun e => (s.crossing e).dstKind == 3) (fun e t =>
    match t.readSlip e with
    | none => t
    | some k => t.crewInput e k) s.strayPins

end Sys2Proof.Machine
end

