-- ==== Sys2Proof/Machine/Rings.lean ====
section
/-! DEFINITION. The event writer's rings: records written to memory, `WP` and `RP`, overflow, the boot buffer, messages and pins
(R465 to R469), and MSI-X with its pending bits (R455, R469). -/

namespace Sys2Proof.Machine

/-! ### MSI-X (R455, R469) -/

/-- Send vector `v`: a masked vector sets its pending bit. -/
def State.sendVector (s : State) (v : Nat) : State :=
  if s.b (Reg.msixTableWord v 3) 0 then s.setB (Reg.msixPbaWord (v / 32)) (v % 32) true else s.send (.msix v)

/-- A write of word `j` of the MSI-X table: a vector that is unmasked with its pending bit set is sent. PRESUMED (PCI Express Base
4.0): the rule that R469 names. -/
def msixWrite (v j : Nat) (w : Word) (s : State) : State :=
  let s := s.wr (Reg.msixTableWord v j) w
  if j = 3 ∧ !bit w 0 ∧ s.b (Reg.msixPbaWord (v / 32)) (v % 32) then
    (s.setB (Reg.msixPbaWord (v / 32)) (v % 32) false).send (.msix v)
  else s

/-! ### Rings -/

/-- The ring sends its vector: nothing stands unsignalled (R469). -/
def State.signalRing (s : State) (r : Nat) : State :=
  (s.setRing r { s.ring r with unsigned := 0 }).sendVector (s.f (Reg.evtRingCfg r) 21 16)

/-- One more record has been written (R469): the message goes after `COUNT` records, or at once with `TIME` 0. -/
def State.noteWritten (s : State) (r : Nat) : State :=
  let n := (s.ring r).unsigned + 1
  let s := s.setRing r { s.ring r with unsigned := n }
  if max 1 (s.f (Reg.evtRingCfg r) 15 8) ≤ n ∨ s.f (Reg.evtRingCfg r) 7 0 = 0 then s.signalRing r else s

/-- The coalescing time has passed since the first record not yet signalled (R469). -/
def msiCoalesceTimer (r : Nat) (s : State) : State := if (s.ring r).unsigned = 0 then s else s.signalRing r

/-- The quay address of the slot of record `i` of ring `r` (R467). -/
def State.ringSlot (s : State) (r i : Nat) : Nat :=
  pair64 (s.rd (Reg.evtRingBaseLo r)) (s.rd (Reg.evtRingBaseHi r)) + 16 * (i % s.ringSize r)

/-- A record that could not be written is lost as into a full ring (R458, R467). -/
def State.recordLost (s : State) (r : Nat) : State :=
  let g := s.ring r
  match g.queue with
  | [] => s
  | _ :: l => (s.setRing r { g with queue := l, dropped := min (g.dropped + 1) 0xFFFFFFFF }).countErr (Reg.evtRingDrop r) 24 1

/-- The first slot has freed: one `EVT_OVERFLOW` record with the number dropped (R467). -/
def State.overflowRecord (s : State) (r : Nat) : State :=
  let g := s.ring r
  if g.dropped ≠ 0 ∧ s.ringFill r + g.queue.length < s.ringSize r then
    let x := eventRec Ev.evtOverflow.src 0 Ev.evtOverflow.code s.strokeLine s.clock.stroke.toNat g.dropped
    (s.setRing r { g with queue := g.queue ++ [x], dropped := 0 }).inOrder
  else s

/-- A write of `RP` (R467, R469): ignored beyond `WP`; it frees slots. -/
def ringRpWrite (r : Nat) (w : Word) (s : State) : State :=
  let new := bf w 15 0
  let moved := (new + 65536 - s.f (Reg.evtRingRp r) 15 0) % 65536
  if s.ringFill r < moved then s else (s.wr (Reg.evtRingRp r) (BitVec.ofNat 32 new)).overflowRecord r

/-- The records of the boot buffer that were routed to ring `r` go to it, in order (R468). -/
def State.drainBoot (s : State) (r : Nat) : State :=
  let mine := s.evt.boot.filter fun e => e.1 == r
  (forAll mine (fun e t => t.inOrder.deliver r e.2) { s with evt := { s.evt with boot := s.evt.boot.filter fun e => e.1 != r } }).inOrder

/-- A write of a ring's settings (R467, R468): enabling it drains the boot buffer's records first. -/
def ringCfgWrite (r : Nat) (w : Word) (s : State) : State :=
  let was := s.b (Reg.evtRingCfg r) 31
  let s := s.wr (Reg.evtRingCfg r) (w &&& 0xEF3FFFFF)
  if !was && bit w 31 then s.drainBoot r else s

end Sys2Proof.Machine
end

