-- ==== Sys2Proof/Machine/Boundary.lean ====
section
/-! DEFINITION. The stroke boundary, its seven steps in order (R14, R202), the counter clear (R483), the message to the light die
(R355, R359), and the release of the matrix die from reset (R35, R427, R437, R438, R442). -/

namespace Sys2Proof.Machine

/-! ### Step 5: registers (R481, R483) -/

/-- The instance of a counter among those of its row: the widest repeat (R463, R474). -/
def counterInst (a : Nat) : Nat := match regRow? a with | some (_, i :: _) => i | _ => 0

/-- The bits that a clear leaves of the register at `a`, when a counter row holds it. -/
def counterMask (a : Nat) : Option Nat :=
  match regRow? a with
  | some (r, _) => (counters.find? fun c => c.1 == r.base).map (·.2)
  | none => none

/-- A counter that R320 or R118 locks from RUNNING (R483). -/
def State.counterLocked (s : State) (a : Nat) : Bool :=
  s.running &&
    ((0x200000 ≤ a && a < 0x300000 && s.watchHead ((a - 0x200000) / 0x4000)
        && ((0x80 ≤ a % 0x4000 && a % 0x4000 < 0x100) || (0x3000 ≤ a % 0x4000 && a % 0x4000 < 0x3A00)))
      || (0x100000 ≤ a && a < 0x200000 && 0x700 ≤ a % 0x800 && a % 0x800 < 0x710 && s.prt.rbLocked.contains ((a - 0x100000) / 0x800)))

/-- A requested clear acts (R483): only registers that hold something can hold a count, once the cycles of jobs now held are in
theirs. -/
def State.counterClear (s : State) : State :=
  if s.b Reg.glbCntStat 31 then
    let w := s.rd Reg.glbCntClear
    let s := onlyIf (bf w 5 0 == 0x30) State.bankBusy s
    let hit := fun a => srcOfAddr a == bf w 5 0 && (!bit w 30 || counterInst a == bf w 27 16) && !s.counterLocked a
    let s := forAll (s.regs.filter fun e => hit e.1) (fun e t =>
      match counterMask e.1 with
      | some m => t.wr e.1 (t.rd e.1 &&& ~~~(BitVec.ofNat 32 m))
      | none => t) s
    (s.wr Reg.glbCntStat (BitVec.ofNat 32 s.stroke16)).wr Reg.glbCntClear 0
  else s

/-- The address of a lamp's `LEVEL` or `COLOUR`. -/
def lampAddr (a : Nat) : Bool := 0x90800 ≤ a && a < 0x90A00

/-- The address of a transform descriptor's word. -/
def xformAddr (a : Nat) : Bool := 0x900000 ≤ a && a < 0xA00000

/-- Step 5 of the boundary for a slip with a commit pending (R198, R210, R481, R482): a coding below the floor, or other than off on a
slip that feeds a watch head, is refused, as is every commit on such a slip from RUNNING; the shadow reloads either way. -/
def State.slipCommitTake (s : State) (k : Nat) : State :=
  if s.b (Reg.fstSlipStat k) 31 then
    let new := bf (s.shadowOf (Reg.fstSlipComp k)) 1 0
    let s := s.setB (Reg.fstSlipStat k) 31 false
    if new < s.f (Reg.fstSlipCfg k) 29 28 || (s.watchSlip k && (new != 0 || s.running)) then
      ((s.reloadShadows (· == Reg.fstSlipComp k)).setB (Reg.fstSlipStat k) 30 true).raise .fstCommitRefused k k
    else
      ((s.takeShadows (· == Reg.fstSlipComp k)).setB (Reg.fstSlipStat k) 30 false).slipCoding k
  else s

/-- Step 5 of R14: every `SH` write that takes effect at the boundary, and the counter clear. -/
def State.registerStep (s : State) : State :=
  let s := forAll ((upto 1024).filter fun k => s.b (Reg.fstSlipStat k) 31) (fun k t => t.slipCommitTake k) s
  (((s.audTakeCommit).takeShadows lampAddr).takeShadows xformAddr).counterClear

/-! ### Step 7: lighting (R19, R355, R359) -/

/-- The level of zone `z` of head `h` in 1/65,536, and its gain in 1/1,024 (R359), which is 1,024 where local dimming is off. -/
def State.zoneNow (s : State) (h z : Nat) : Nat × Nat :=
  let floor := s.f Reg.lgtZoneCfg 25 16 * 64
  let mark := if s.zoneMarked h z then nget (fun _ => 0) s.lgt.cfg.zoneFloors (h * 512 + z) else 0
  let fl := max floor mark
  let l := s.zoneLevel (s.f (Reg.headZone h z) 25 16) (s.f (Reg.headZone h z) 9 0) fl
  if s.lgt.cfg.dimHeads.contains h then l else (l.1, 1024)

/-- The zones that have strings: head × 512 + zone. -/
def State.stringZones (s : State) : List Nat :=
  (((upto 528).filter fun c => s.strUsed c && s.f (Reg.lgtStr c) 30 29 == 1).map fun c =>
    s.f (Reg.lgtStr c) 21 16 * 512 + s.f (Reg.lgtStr c) 8 0).eraseDups

/-- Step 7 of R14: the message leaves for the light die, and the heads take the gains (R355, R359, R360). -/
def State.lightStep (s : State) : State :=
  let zs := s.stringZones.map fun z => (z, s.zoneNow (z / 512) (z % 512))
  let lamps := (upto 16).filter fun l => s.b (Reg.lgtLampCfg l) 31
  let m : LightMsg := {
    zones   := zs.foldl (fun (m : NMap Nat) e => nput e.1 e.2.1 m) []
    icons   := s.watchHeads.flatMap fun h => ((s.icons h).filter fun i => s.iconOn h i).map (64 * h + ·)
    levels  := lamps.foldl (fun (m : NMap Nat) l => nput l (s.f (Reg.lgtLampLevel l) 15 0) m) []
    colours := lamps.foldl (fun (m : NMap Nat) l => nput l (s.rd (Reg.lgtLampColour l)).toNat m) [] }
  let s := forAll ((upto 528).filter fun c => s.strUsed c && s.f (Reg.lgtStr c) 30 29 == 1) (fun c t =>
    t.setB (Reg.lgtStr c) 24 (t.zoneMarked (t.f (Reg.lgtStr c) 21 16) (t.f (Reg.lgtStr c) 8 0))) s
  s.onLgt fun g => { g with inFlight := some m, gains := zs.foldl (fun (m : NMap Nat) e => nset (fun _ => 1024) m e.1 e.2.2) [] }

/-! ### The boundary -/

/-- What a new stroke starts afresh beside the seven steps: domains of a synthesizer that has locked since it stopped (R90), throttle in force
(R415), once-per-stroke reports (R454), DMA channels that wait for the boundary (R462). -/
def State.newStroke (s : State) : State :=
  let s := forAll [1, 2, 3, 4, 5] (fun i t =>
    if (t.synOf i).again then t.onSyn i fun x => { x with halted := false, again := false } else t) s
  let s := s.onThm fun t => { t with inForce := t.throt.on }
  let s := s.onQuay fun q => { q with deniedNow := false }
  forAll ((upto 8).filter fun n => s.b (Reg.dmaStat n) 29) (fun n t =>
    (t.setB (Reg.dmaStat n) 29 false).onQuay fun q => { q with dma := nset (fun _ => DmaSt.init) q.dma n { nget (fun _ => DmaSt.init) q.dma n with strokeSeen := true } }) s

/-- Steps 1 to 4: the Cox, the entry into RUNNING, markers, an amendment, what the ports agreed for this boundary (R101, R113, R134,
R148), the crossings, on the sources and the rates that it leaves (R14, R41, R47, R131, R167, R173, R178). -/
def State.boundaryFirst (s : State) (ps : List RefPhase) : State :=
  let s := s.takeRate s.clock.rateNext
  let s := match s.loader.flNext with | some c => s.applyGolden c | none => s
  let s := (s.sendBuoys s.clock.len).corruptFills
  let s := (coxBoundary ps s).newStroke.slipsNewStroke.queuesNewStroke
  (((((s.sendMarkers).enterRunning.amdApply).judgeSources).portsBoundary).crossingsBoundary).discardStopped

/-- The slip readers select (R202), limits that the boundary ends (R147), audio (R330 to R343). -/
def State.boundaryMiddle (s : State) : State :=
  (((s.registerStep).flipHeads.egressSelect.crewSelect).glassLimit).audBoundary

/-- What has not completed by the boundary has been cancelled at the deadline, which lies before it (R232, R236). -/
def State.pastDeadline (s : State) : State := if s.jik.guard then s else deadline s

/-- The stroke boundary while `SYN_CORE` drives nothing (R88): the Cox, the ports' own markers and agreements, and the heads, whose
clocks are others, act; the loader, the crossings, the queues, the registers of the host, the dispatcher and the zone logic stand
still. -/
def State.boundaryStill (s : State) (ps : List RefPhase) : State :=
  let s := s.takeRate s.clock.rateNext
  let s := (s.sendBuoys s.clock.len).corruptFills
  ((((coxBoundary ps s).newStroke).sendMarkers).flipHeads.portsBoundary).glassLimit

/-- The stroke boundary (R14). While `SYN_CORE` is stopped the fabric stands still (R88). -/
def strokeBoundary (ps : List RefPhase) (s : State) : State :=
  if s.coreUp then ((s.pastDeadline.boundaryFirst ps).boundaryMiddle.jikNewStroke.guardEntries).lightStep
  else s.boundaryStill ps

/-! ### Reset release -/

/-- The straps are sampled, the causes recorded, the loader and the boot synthesizers start (R35, R79, R427, R438, R442, R443, R457,
R468, R522). `straps`: `CHT_SRC` [1:0], `MG_ADDR` [3:2]. `srisClock`: `PCIE_REFCLK` did not toggle within 100 µs. -/
def State.release (s : State) (straps : BitVec 4) (srisClock : Bool) : State :=
  let causes := s.pwr.causes
  let warm := decide (causes = 1)
  let s := s.onPwr fun p => { p with phase := .running, causes := 0, exitDue := false, fault := false }
  let s := s.onPins fun p => { p with straps := straps.toNat }
  let s := s.onClock fun c => { c with boundary := c.time, stroke := 0, len := 333333333, acc := 20 }
  let s := s.wr Reg.pwrRstCause (BitVec.ofNat 32 causes)
  let s := s.wr Reg.pwrWakeTime (BitVec.ofNat 32 (min 65535 ((s.now - s.pwr.wakeAt) / 10000)))
  let s := s.wr Reg.pwrHist (BitVec.ofNat 32 s.keep.pwrHist)
  let s := s.wr Reg.thmHist (BitVec.ofNat 32 s.keep.thmHist)
  let s := { s with keep := { s.keep with pwrHist := 0, thmHist := 0 } }
  let s := s.onNvs fun n => { n with powerDown := false, snapshot := none, flushDone := false }
  let s := s.raiseDeferred
  let s := onlyIf s.thm.sayRestart (fun t => t.raise .thmRestarted 0 (min 65535 t.keep.restarts)) s
  let s := onlyIf s.thm.sayLockout (fun t => t.raiseFree .thmLockout 0) s
  let s := { s with thm := { s.thm with sayRestart := false, sayLockout := false } }
  let s := if warm then s else ((s.setB Reg.quayPcieStat 30 srisClock).synAcquire 0).synAcquire 6
  let s := (s.raise .pwrRestarted 0 causes).loaderRelease
  s.onPwr fun p => { p with sleepPend := !s.pins.wake }

/-- The hold of a power-up ends (R427, R438): a `RESET_N` that is still low counts as a cause and delays the release. -/
def resetRelease (straps : BitVec 4) (srisClock : Bool) (s : State) : State :=
  match s.pwr.phase with
  | .hold => if s.pins.resetN then s.release straps srisClock else s.addCause 3
  | _ => s

/-- One millisecond after the last cause of a reset that kept the supplies has ended (R437, R438). -/
def resetExit (straps : BitVec 4) (srisClock : Bool) (s : State) : State :=
  match s.pwr.phase with
  | .inReset => if s.pwr.exitDue && s.pins.resetN then s.release straps srisClock else s
  | _ => s

end Sys2Proof.Machine
end

