-- ==== Sys2Proof/Machine/HostRegs.lean ====
section
/-! DEFINITION. The register space as a master sees it (R8, R9, R42, R295, R320, R345, R454, R473 to R487): what a read of each
register returns, the latches of 64-bit registers, and what a write does. -/

namespace Sys2Proof.Machine

/-! ### Reading -/

/-- `REFUSED` of `GLB_IF_STAT`: the declared `MAJOR` is neither 0 nor the device's (R486). -/
def State.ifRefused (s : State) : Bool := s.f Reg.glbIfHost 31 16 != 0 && s.f Reg.glbIfHost 31 16 != 1

/-- Bits of a list of numbers below 32, as a word. -/
def bitsOf (l : List Nat) : Nat := l.foldl (fun a i => if a.testBit i then a else a + 2 ^ i) 0

/-- The registers of B0 whose value follows the state (R485). -/
def State.readGlb (s : State) (a : Nat) : Word :=
  if a = Reg.strokeLo then s.clock.stroke.setWidth 32
  else if a = Reg.strokeHi then (s.clock.stroke >>> 32).setWidth 32
  else if a = Reg.glbStrokePos then BitVec.ofNat 32 (min (2 ^ 26 - 1) s.since)
  else if a = Reg.glbIfStat then
    BitVec.ofNat 32 ((decide (s.f Reg.glbIfHost 31 16 ≠ 0)).toNat * 2 ^ 31 + s.ifRefused.toNat * 2 ^ 30 + 0x100)
  else if a = Reg.glbFault then
    BitVec.ofNat 32 (s.f Reg.glbFault 2 0 + s.pwr.fault.toNat * 8 + s.faultAsserted.toNat * 2 ^ 31)
  else s.rd a

/-- The loader's registers whose value follows the state (R49). -/
def State.readCht (s : State) (a : Nat) : Word :=
  if a = Reg.chtPushSpace then BitVec.ofNat 32 (16384 - s.loader.push.length)
  else if a = Reg.chtStrap then BitVec.ofNat 32 (s.pins.straps % 4)
  else if a = Reg.chtPolicy then BitVec.ofNat 32 (s.loader.otpTest.toNat * 2 + s.loader.otpHash.isSome.toNat)
  else s.rd a

/-- `COX_QUAL`, and `COX_BUILDOUT` with what a slew has moved it by (R65, R77). -/
def State.readCox (s : State) (a : Nat) : Word :=
  if a = Reg.coxBuildout then (s.slewUntil s.clock.time).rd a else
  if a = Reg.coxQual then
    let bits := fun (i : Nat) => bitsOf ((upto 8).filter fun n => s.b (Reg.coxRefStat n) i)
    BitVec.ofNat 32 (bits 1 * 2 ^ 16 + bits 0 * 2 ^ 8 + bits 3)
  else s.rd a

/-- A count of the light die with `SAT` (R11). -/
def satShow (n v : Nat) : Nat := if v < 2 ^ n - 1 then v else 2 ^ 31 + (2 ^ n - 1)

/-- The thermal registers that the light die holds (R416, R420). -/
def State.readThm (s : State) (a : Nat) : Word :=
  if a = Reg.thmRestarts then BitVec.ofNat 32 (satShow 16 s.keep.restarts)
  else if a = Reg.thmStat then setFld (s.rd a) 23 16 (s.f a 23 16 + if s.thm.ldFail then 2 else 0)
  else if a = Reg.thmBrokenHi then setBit (s.rd a) 21 s.thm.ldFail
  else if a = Reg.thmLd 0 ∨ a = Reg.thmLd 1 then
    let k := (a - Reg.thmLd 0) / 4
    BitVec.ofNat 32 (s.thm.ldFail.toNat * 2 ^ 31 + encode 16 (nget (fun _ => 0) s.thm.ldShown (52 + k)))
  else s.rd a

/-- `PWR_STATE` (R443). -/
def State.readPwr (s : State) (a : Nat) : Word :=
  if a = Reg.pwrState then
    BitVec.ofNat 32 (s.pins.wake.toNat * 2 ^ 31 + s.pins.pfiN.toNat * 2 ^ 30 + s.pins.resetN.toNat * 2 ^ 29 + s.pwr.sleepPend.toNat * 2 ^ 28
      + bitsOf s.pins.pgIn * 2 ^ 24 + bitsOf s.pins.pwrEn * 2 ^ 16)
  else s.rd a

/-- `EVT_STAT` (R471). -/
def State.readEvt (s : State) (a : Nat) : Word := if a = Reg.evtStat then BitVec.ofNat 32 s.evt.boot.length else s.rd a

/-- The storage registers that the light die holds (R398, R405). -/
def State.readNvs (s : State) (a : Nat) : Word :=
  if a = Reg.nvsStatus then
    BitVec.ofNat 32 (s.f Reg.nvsStatus 31 31 * 2 ^ 31 + s.nvs.powerDown.toNat * 2 ^ 30 + s.nvs.keepDefault.toNat * 2 ^ 29
      + s.nvs.ledgersDefault.toNat * 2 ^ 28 + 2 ^ 16)
  else if a = Reg.nvsPoh then BitVec.ofNat 32 s.keepNow.poh
  else if a = Reg.nvsWakes then BitVec.ofNat 32 s.keep.wakes
  else s.rd a

/-- The ledger table and the record window (R383). -/
def State.readFld (s : State) (a : Nat) : Word :=
  if a = Reg.fldStat then
    BitVec.ofNat 32 (s.loader.anchors.length * 2 ^ 16 + ((upto 128).filter fun k => (s.keep.entry k).serial != 0).length)
  else if 0xB0100 ≤ a ∧ a < 0xB0200 then
    BitVec.ofNat 32 (leNat (((s.unit (s.f Reg.fldRecSel 9 0)).record.drop (a - 0xB0100)).take 4))
  else if 0xB1000 ≤ a ∧ a < 0xB2000 then
    let e := s.keep.entry ((a - 0xB1000) / 0x20)
    BitVec.ofNat 32 (match (a - 0xB1000) % 0x20 with
      | 0x00 => e.serial
      | 0x04 => e.serial / 2 ^ 32
      | 0x08 => e.hours
      | 0x0C => e.rated
      | 0x10 => e.comp
      | 0x14 => e.wseq
      | _ => 0)
  else s.rd a

/-- A group register reads 0 away from the lead port (R120). -/
def State.readPrt (s : State) (a : Nat) : Word :=
  let p := (a - 0x100000) / 0x800
  if a = Reg.prtGrpStat p ∧ s.lead p ≠ p then 0 else s.rd a

/-- Watch registers read 0 on a head that is not a watch head (R322); `PIXCLK` follows the timing and the rate in force (R268). -/
def State.readHed (s : State) (a : Nat) : Word :=
  let h := (a - 0x200000) / 0x4000
  if a = Reg.headPixclk h then (if s.headOn h then BitVec.ofNat 32 (s.pixKHz h % 2 ^ 20) else 0)
  else if 0x80 ≤ a % 0x4000 ∧ a % 0x4000 < 0x100 ∧ !s.watchHead h then 0 else s.rd a

/-- `AUD_OUT_ooo_STAT` counts the sources enabled in force (R348). -/
def State.readAud (s : State) (a : Nat) : Word :=
  let o := (a - 0x82000) / 0x40
  if a = Reg.audOutStat o then setFld (s.rd a) 7 0 ((upto 8).countP fun k => s.b (Reg.audOutSrc o k) 31) else s.rd a

/-- Lighting registers that follow the light die's state (R357, R370). -/
def State.readLgt (s : State) (a : Nat) : Word :=
  let l := (a - 0x90800) / 0x20
  if a = Reg.lgtBstStat then s.boostStat else if a = Reg.lgtLampStat l ∧ l < 16 then s.lampStat l else s.rd a

/-- The cycles an engine has held jobs, the one it holds included (R240). -/
def State.busyCycles (s : State) (e : Nat) : Nat :=
  (s.rd (Reg.engBusyLo e)).toNat + s.f (Reg.engBusyHi e) 30 0 * 2 ^ 32
    + (if s.holdsJob e then s.engCycles (s.now - (s.eng e).takenAt) else 0)

/-- Engine registers whose value follows the state (R240). -/
def State.readEng (s : State) (a : Nat) : Word :=
  let e := (a - 0x300000) / 0x1000
  if a = Reg.engStatus then
    BitVec.ofNat 32 (s.throttled.toNat * 2 ^ 31 + (s.synOf 1).halted.toNat * 2 ^ 30 + s.jik.flight.length)
  else if a = Reg.engStat e then setBit (s.rd a) 30 ((s.synOf 1).halted && s.b (Reg.engCfg e) 31)
  else if a = Reg.engBusyLo e then BitVec.ofNat 32 (s.busyCycles e)
  else if a = Reg.engBusyHi e then
    let n := s.busyCycles e / 2 ^ 32
    BitVec.ofNat 32 (n % 2 ^ 31 + (s.b a 31 || decide (2 ^ 31 ≤ n)).toNat * 2 ^ 31)
  else s.rd a

/-- The fill of a queue, and what it offers to a host that pops (R184, R191). -/
def State.readQue (s : State) (a : Nat) : Word :=
  let q := (a - 0x400000) / 0x100
  if a = Reg.queFill q then BitVec.ofNat 32 ((s.queue q).xoff.toNat * 2 ^ 31 + (s.queue q).held.length)
  else if 0x50 ≤ a % 0x100 ∧ a % 0x100 < 0x60 then
    if s.consKind q = 8 then
      match (s.queue q).held with
      | d :: _ => BitVec.ofNat 32 (rf d (32 * ((a % 0x100 - 0x50) / 4) + 31) (32 * ((a % 0x100 - 0x50) / 4)))
      | [] => 0
    else 0
  else s.rd a

/-- The number of an entry state (R162). -/
def EntState.code : EntState → Nat
  | .empty => 0 | .pending => 1 | .taken => 2 | .held => 3

/-- The number of a group state (R189). -/
def GrpState.code : GrpState → Nat
  | .none => 0 | .pending => 1 | .armed => 2 | .held => 3 | .taken => 4 | .refused => 5

/-- The beats in no slip (R193, R194, R214): of 1,572,864, less rows × span of every slip. -/
def State.freeBeats (s : State) : Nat :=
  0x180000 - s.slipList.foldl (fun n k => n + s.f (Reg.fstSlipRows k) 28 16 * 2 ^ s.f (Reg.fstSlipCfg k) 15 12) 0

/-- The tables window (R156, R160, R162, R189, R214, R475): an EMPTY entry reads 0, descriptor 0 is the identity, coefficient set 0 is the
built-in filter. -/
def State.readTables (s : State) (a : Nat) : Word :=
  if a < 0x880000 then if (s.entry ((a - 0x800000) / 16)).state = .empty then 0 else s.rd a
  else if 0x884000 ≤ a ∧ a < 0x886000 then
    let w := (a - 0x884000) / 4
    BitVec.ofNat 32 ((upto 16).foldl (fun n k => n + (s.entry (16 * w + k)).state.code * 4 ^ k) 0)
  else if 0x900000 ≤ a ∧ a < 0x900100 then if a = 0x900000 then 1 else 0
  else if 0xA30000 ≤ a ∧ a < 0xA30500 then
    let i := (a - 0xA30000) / 2
    BitVec.ofNat 32 (encode 16 (Config.cubic i) + encode 16 (Config.cubic (i + 1)) * 65536)
  else if a = Reg.xtbQueryStat then
    let e := s.entry (s.f Reg.xtbQueryIdx 14 0)
    BitVec.ofNat 32 (e.state.code * 2 ^ 30 + e.degraded.toNat * 2 ^ 29 + e.slipPath.toNat * 2 ^ 28 + e.suspended.toNat * 2 ^ 27
      + e.reason * 2 ^ 16 + e.stroke)
  else if a = Reg.xtbGroupStat then
    let g := s.grp (s.f Reg.xtbGroupIdx 11 0)
    BitVec.ofNat 32 (g.state.code * 2 ^ 29 + g.reason * 2 ^ 16 + g.stroke)
  else if 0xA00000 ≤ a ∧ a < 0xA10000 ∧ (a % 0x40 = 0x1C ∨ a % 0x40 = 0x20) then
    let k := (a - 0xA00000) / 0x40
    if s.slipOn k then BitVec.ofNat 32 ((if a % 0x40 = 0x1C then s.slipPeriod k else s.slipFill k) / 20) else 0
  else if a = Reg.fstFree then BitVec.ofNat 32 s.freeBeats
  else if a = Reg.fstSlips then BitVec.ofNat 32 s.slipList.length
  else s.rd a

/-- What the register at `a` reads as: a reserved address, a write-only register and a register of an undefined unit read as R9, R8
and R479 state. -/
def State.hostRead (s : State) (a : Nat) : Word :=
  match regRow? a with
  | none => 0
  | some (r, _) =>
    if r.acc = .wo then 0
    else if a < 0x10000 then s.readGlb a
    else if a < 0x20000 then s.readCht a
    else if a < 0x30000 then s.readCox a
    else if a < 0x40000 then s.rd a
    else if a < 0x50000 then s.readThm a
    else if a < 0x60000 then s.readPwr a
    else if a < 0x70000 then s.rd a
    else if a < 0x80000 then s.readEvt a
    else if a < 0x90000 then s.readAud a
    else if a < 0xA0000 then s.readLgt a
    else if a < 0xB0000 then s.readNvs a
    else if a < 0xC0000 then s.readFld a
    else if a < 0x200000 then s.readPrt a
    else if a < 0x300000 then s.readHed a
    else if a < 0x400000 then s.readEng a
    else if a < 0x800000 then s.readQue a
    else if a < 0x1000000 then s.readTables a
    else s.rd a

/-- Registers whose content moves by itself in a way the spec gives no rule for: the equaliser codes of a port that trains or runs and neither holds them nor sits in electrical idle (R99, R102, R120). -/
def State.moving (s : State) (a : Nat) : Option Word :=
  if 0x100000 ≤ a ∧ a < 0x200000 then
    let p := (a - 0x100000) / 0x800
    let on := 2 ≤ s.ladder (s.lead p) && !s.b (Reg.prtEqCtrl p) 0 && !(s.port p).rxQuiet
    if a = Reg.prtCtle p ∧ on then some 0x1F1F else if a = Reg.prtDfe p ∧ on then some 0x3FFFFFFF else none
  else none

/-- A bank counter has counted on by what the fabric has moved, or waited for, since it was last read (R214): how much is a matter of
timing, and a free value. -/
def State.bankCount (s : State) (a : Nat) : State :=
  if 0xFE2000 ≤ a ∧ a < 0xFE2800 then let (v, t) := s.fresh 31; t.countPerf a 31 v.toNat else s

/-- A master reads one word of the register space (R477, R478): a `_LO` register fills its latch, the `_HI` of the same pair comes
from it, `POP_3` removes a descriptor. -/
def State.regRead (s : State) (m : Master) (a : Nat) : Word × State :=
  let a := a / 4 * 4
  let s := match s.moving a with
    | some k => let (v, t) := s.fresh 32; t.wr a (v &&& k)
    | none => s.bankCount a
  let v := s.hostRead a
  if isLo a then (v, s.onQuay fun q => { q with latches := nput m.num (a, s.hostRead (a + 4)) q.latches })
  else
    match nfind m.num s.quay.latches with
    | some (lo, hi) =>
      if a = lo + 4 then (hi, s)
      else if 0x400000 ≤ a ∧ a < 0x500000 ∧ a % 0x100 = 0x5C then (v, quePop ((a - 0x400000) / 0x100) s) else (v, s)
    | none => if 0x400000 ≤ a ∧ a < 0x500000 ∧ a % 0x100 = 0x5C then (v, quePop ((a - 0x400000) / 0x100) s) else (v, s)

end Sys2Proof.Machine
end

