-- ==== Sys2Proof/Machine/HostWrite.lean ====
section
/-! DEFINITION. Writes to the register space: the gates of R480 in their order, then the rule of the register written. -/

namespace Sys2Proof.Machine

/-! ### Sleep (R429) -/

/-- Ports that transmit on their lane. -/
def State.sendingLanes (s : State) : List Nat := (s.prt.ports.map (·.1)).filter s.laneSends

/-- A write of `PWR_SLEEP_CFG`: `STAY` let go after the delay has ended starts the sleep (R429). -/
def sleepCfgWrite (w : Word) (s : State) : State :=
  let s := s.wr Reg.pwrSleepCfg (w &&& 0x800000FF)
  if s.pwr.stayHeld && !bit w 31 then s.startSleep s.sendingLanes else s

/-- The delay of R429 has ended: the sleep starts, or waits while `STAY` is 1. -/
def sleepDelayExpiry (s : State) : State :=
  let inRes := match s.pwr.phase with | .running | .inReset => true | _ => false
  if s.pwr.sleepPend && inRes then
    if s.matrixUp && s.b Reg.pwrSleepCfg 31 then s.onPwr fun p => { p with stayHeld := true } else s.startSleep s.sendingLanes
  else s

/-- 60 s after `WAKE` went inactive a sleep that `STAY` holds starts (R429). -/
def sleepStayLimit (s : State) : State :=
  if s.pwr.sleepPend && s.pwr.stayHeld then s.startSleep s.sendingLanes else s

/-! ### DMA channels: `GO` (R462) -/

/-- A write of `DMA_n_CTRL.GO`: ignored while the channel is busy. -/
def State.dmaStart (s : State) (n : Nat) : State :=
  if s.b (Reg.dmaStat n) 31 then s
  else
    let s := (s.wr (Reg.dmaCurLo n) (s.rd (Reg.dmaHeadLo n))).wr (Reg.dmaCurHi n) (s.rd (Reg.dmaHeadHi n))
    let s := s.onQuay fun q => { q with dma := nset (fun _ => DmaSt.init) q.dma n { nget (fun _ => DmaSt.init) q.dma n with strokeSeen := false } }
    s.wr (Reg.dmaStat n) (BitVec.ofNat 32 (2 ^ 31))

/-- A write of `DMA_n_CTRL.ABORT`: the channel's master resets (R453). -/
def State.dmaStop (s : State) (n : Nat) : State := ((s.setB (Reg.dmaStat n) 31 false).setB (Reg.dmaStat n) 29 false).masterReset (5 + n)

/-- A write of `DMA_n_CTRL`. -/
def dmaCtrlWrite (n : Nat) (w : Word) (s : State) : State :=
  let s := if bit w 1 then s.dmaStop n else s
  if bit w 0 then s.dmaStart n else s

/-! ### Gates -/

/-- Masters whose register writes are host writes: all but the chart loader and the event writer. DEDUCED: R42, R218 and R487 set the
management pairs and DMA beside the hosts, and the loader apart. -/
def hostSide : Master → Bool
  | .loader | .evtWriter => false
  | _ => true

/-- The interface refusal of R487 takes the write away. -/
def State.refusesWrite (s : State) (m : Master) (a : Nat) : Bool := s.ifRefused && m.isHost && decide (0x10000 ≤ a) && a != Reg.pwrReset

/-- The blocks that take host writes before RUNNING (R42): `GLB`, `CHT`, `THM`, `PWR`, `EVT`, `NVS`; the MSI-X table is no block. -/
def earlyAddr (a : Nat) : Bool := [0, 1, 4, 5, 7, 10].contains (a / 0x10000) || 0x1000000 ≤ a

/-- R42 takes the write away, and says so once per load. -/
def State.earlyWrite (s : State) : State :=
  if s.loader.early then s else (s.onLoader fun l => { l with early := true }).raiseFree .chtEarlyWrite 0

/-- The locks of a watch head's registers from RUNNING (R295, R320). -/
def State.headLocked (s : State) (h o : Nat) : Bool :=
  s.watchHead h &&
    ((0x80 ≤ o && o < 0x100 && !(0xA0 ≤ o && o < 0xB0) && o != 0x84) || (0x3000 ≤ o && o < 0x3A00) || o == 4 || (0x34 ≤ o && o < 0x44)
      || (0x1000 ≤ o && o < 0x2000) || (0x20 ≤ o && o < 0x34 && !s.b (Reg.headWatch h) 31))

/-- The locks of protected chimes from RUNNING (R345). -/
def State.audioLocked (s : State) (a : Nat) (w : Word) : Bool :=
  if 0x8C000 ≤ a then s.b (Reg.audChimeCfg ((a - 0x8C000) / 0x20)) 30
  else if 0x82000 ≤ a ∧ a < 0x8A000 then
    let o := (a - 0x82000) / 0x40
    if a % 0x40 < 0x20 then s.protectedInputs.contains (s.f a 25 16) || s.protectedInputs.contains (bf w 25 16)
    else s.protectedOutput o
  else false

/-- A lock rule takes the write away from RUNNING (R320). -/
def State.lockedWrite (s : State) (a : Nat) (w : Word) : Bool :=
  s.running &&
    (if 0x200000 ≤ a ∧ a < 0x300000 then s.headLocked ((a - 0x200000) / 0x4000) ((a - 0x200000) % 0x4000)
     else if 0x80000 ≤ a ∧ a < 0x90000 then s.audioLocked a w
     else false)

/-- The register belongs to a unit that the chart does not define, or to a queue whose `CFG` reads 0 (R479). -/
def State.undefinedUnit (s : State) (a : Nat) : Bool :=
  if 0x200000 ≤ a ∧ a < 0x300000 then
    let h := (a - 0x200000) / 0x4000
    !s.headOn h && !(h == 0 && 0x3F00 ≤ a % 0x4000)
  else if 0x8C000 ≤ a ∧ a < 0x90000 then !s.b (Reg.audChimeCfg ((a - 0x8C000) / 0x20)) 31
  else if 0x90800 ≤ a ∧ a < 0x90A00 then !s.b (Reg.lgtLampCfg ((a - 0x90800) / 0x20)) 31
  else if 0x400000 ≤ a ∧ a < 0x500000 then s.rd (Reg.queCfg ((a - 0x400000) / 0x100)) = 0
  else if 0xA00000 ≤ a ∧ a < 0xA10000 then !s.slipOn ((a - 0xA00000) / 0x40)
  else false

/-! ### Writes by block -/

/-- A write to a register without a rule of its own: `RW` and `RWS` fields take it, `SH` fields through their shadow, written 1s clear
`W1C` fields, the rest keeps its value (R8, R9). -/
def State.plainWrite (s : State) (r : RegRow) (a : Nat) (w : Word) : State :=
  match r.acc with
  | .rw | .rws => s.wr a (mergeMask (BitVec.ofNat 32 r.rw) (s.rd a) w)
  | .sh => s.wrShadow a (mergeMask (BitVec.ofNat 32 r.rw) (s.shadowOf a) w)
  | .w1c => s.wr a (s.rd a &&& ~~~(w &&& BitVec.ofNat 32 r.w1c))
  | .ro | .wo => s

/-- A write of `GLB_IF_HOST` (R486). -/
def ifHostWrite (w : Word) (s : State) : State :=
  let s := s.wr Reg.glbIfHost w
  if s.ifRefused then s.raise .glbIfRefused 0 (bf w 31 16 * 65536) else s

/-- A write of `GLB_CNT_CLEAR` (R483): the request waits for the boundary. -/
def cntClearWrite (w : Word) (s : State) : State :=
  if bit w 31 && !s.b Reg.glbCntStat 31 then (s.wr Reg.glbCntClear w).setB Reg.glbCntStat 31 true else s

/-- Blocks below 0x8_0000 (R49, R77, R92, R420, R443, R470, R471, R485). -/
def State.writeLow (s : State) (m : Master) (r : RegRow) (i : List Nat) (a : Nat) (w : Word) : State :=
  let n := i.headD 0
  if a = Reg.glbIfHost then ifHostWrite w s
  else if a = Reg.glbCntClear then cntClearWrite w s
  else if a = Reg.chtCtrl then chtCtrlWrite w s
  else if a = Reg.chtAmdCtrl then amdCtrlWrite w s
  else if a = Reg.chtOtpCtrl then otpCtrlWrite w s
  else if a = Reg.chtOtpData then otpDataWrite w s
  else if a = Reg.chtFlashCtrl then flashCtrlWrite w s
  else if r.base = Reg.chtPushData 0 then pushData w (decide (m = .qspi)) s
  else if a = Reg.coxCtrl then coxCtrlWrite w s
  else if a = Reg.coxSel then coxSelWrite w s
  else if a = Reg.coxWtr then if bf w 7 0 = 0 then s else s.plainWrite r a w
  else if a = Reg.coxSteer then coxSteerWrite w s
  else if a = Reg.coxSlewCtrl then slewWrite w s
  else if r.base = Reg.coxSyncOut 0 then syncOutWrite n w s
  else if r.base = Reg.coxRefCfg 0 then (s.plainWrite r a w).refCfgWritten n
  else if r.base = Reg.coxRefQl 0 then ((s.plainWrite r a w).refreshQl n).coxJudge false false
  else if r.base = Reg.synCtrl 0 then synRelock n w s
  else if r.base = Reg.synBandLo 0 0 ∨ r.base = Reg.synBandHi 0 0 then bandWrite n a (BitVec.ofNat 32 r.rw) w s
  else if a = Reg.thmWarn then thresholdWrite .warn w s
  else if a = Reg.thmThrot then thresholdWrite .throt w s
  else if a = Reg.thmShdn then thresholdWrite .shdn w s
  else if a = Reg.pwrReset then if m.isHost then pwrResetWrite w s else s
  else if a = Reg.pwrSleepCfg then sleepCfgWrite w s
  else if a = Reg.pwrWdtCfg then wdtCfgWrite w s
  else if a = Reg.pwrWdtKick then wdtKickWrite w s
  else if r.base = Reg.dmaCtrl 0 then dmaCtrlWrite n w s
  else if r.base = Reg.evtRingCfg 0 then ringCfgWrite n w s
  else if r.base = Reg.evtRingRp 0 then ringRpWrite n w s
  else s.plainWrite r a w

/-- A write of `PRT_nnn_CTRL` (R120). DESIGN CHOICE: of several command bits set in one write the spec states no order; they act as
`RETRAIN`, `RESTEP`, `WIDEN`, `IDLE_EXIT`, `IDLE_ENTER`. -/
def prtCtrlWrite (p : Nat) (w : Word) (s : State) : State :=
  let s := onlyIf (bit w 5) (retrain p) s
  let s := onlyIf (bit w 4) (restep p) s
  let s := onlyIf (bit w 3) (widen p) s
  let s := onlyIf (bit w 1) (idleExit p) s
  onlyIf (bit w 0) (idleEnter p) s

/-- A write of `PRT_nnn_HX_CMD` (R152). -/
def hxCmdWrite (p : Nat) (w : Word) (s : State) : State := hostXact (bf w 11 8) p w s

/-- Ports, with their eye monitors and read-back receivers (R120, R152). -/
def State.writePrt (s : State) (r : RegRow) (i : List Nat) (a : Nat) (w : Word) : State :=
  let p := i.headD 0
  if r.base = Reg.prtCtrl 0 then prtCtrlWrite p w s
  else if r.base = Reg.prtPrbsCtrl 0 then prbsCtrlWrite p (w &&& BitVec.ofNat 32 r.rw) s
  else if r.base = Reg.prtOctEyeCtrl 0 then eyeScan p w s
  else if r.base = Reg.prtRbCfg 0 then rbCfgWrite p w s
  else if r.base = Reg.prtPullCfg 0 then pullCfgWrite p (w &&& BitVec.ofNat 32 r.rw) s
  else if r.base = Reg.prtHxCmd 0 then hxCmdWrite p w s
  else if r.base = Reg.prtRwKey 0 then rwKey p w s
  else if r.base = Reg.prtRwCtrl 0 then
    if bit w 23 then rwLossGo p (w &&& (BitVec.ofNat 32 r.rw ||| 0x800000)) s else rwCtrlWrite p (w &&& BitVec.ofNat 32 r.rw) s
  else s.plainWrite r a w

/-- Heads (R299, R300, R322, R323). -/
def State.writeHed (s : State) (r : RegRow) (i : List Nat) (a : Nat) (w : Word) : State :=
  let h := i.headD 0
  if r.base = Reg.headCommit 0 then headCommit h w s
  else if a = Reg.hedSyncCommit then hedSyncCommit w s
  else if r.base = Reg.headLayGangway 0 0 then gangwayWrite h (i.getD 1 0) w s
  else s.plainWrite r a w

/-- Queues (R184, R191). -/
def State.writeQue (s : State) (r : RegRow) (i : List Nat) (a : Nat) (w : Word) : State :=
  let q := i.headD 0
  let j := i.getD 1 0
  if r.base = Reg.queCtrl 0 then (if bit w 0 then hwmClr q s else s)
  else if r.base = Reg.quePush 0 0 then
    if j = 3 then quePush q w s
    else if s.prodKind q = 8 then s.onQueue q fun x => { x with words := nput j w x.words } else s
  else s.plainWrite r a w

/-- The tables window and the MSI-X table (R163, R189, R198, R204, R455, R475). -/
def State.writeTables (s : State) (r : RegRow) (i : List Nat) (a : Nat) (w : Word) : State :=
  let n := i.headD 0
  let j := i.getD 1 0
  if r.base = Reg.xtbEntryWord 0 0 then
    if j = 3 then xtbWord3Write n w s else { s with xtb := { s.xtb with words := nput a w s.xtb.words } }
  else if r.base = Reg.xformWord 0 0 then xformWrite n j w s
  else if r.base = Reg.fstSlipCommit 0 then (if bit w 0 then slipCommit n s else s)
  else if a = Reg.xtbArmCtrl then xtbArm w s
  else if r.base = Reg.msixTableWord 0 0 then msixWrite n j w s
  else s.plainWrite r a w

/-- Audio, lighting and storage commands (R336, R365, R402). -/
def State.writeMid (s : State) (r : RegRow) (i : List Nat) (a : Nat) (w : Word) : State :=
  if a = Reg.audCommit then audCommit w s
  else if r.base = Reg.lgtChCtrl 0 then retest (i.headD 0) w s
  else if a = Reg.nvsCmd then s.nvsCmdWrite w
  else s.plainWrite r a w

/-- The write reaches its register. -/
def State.regWrite (s : State) (m : Master) (a : Nat) (w : Word) : State :=
  match regRow? a with
  | none => s
  | some (r, i) =>
    if a < 0x80000 then s.writeLow m r i a w
    else if a < 0x100000 then s.writeMid r i a w
    else if a < 0x200000 then s.writePrt r i a w
    else if a < 0x300000 then s.writeHed r i a w
    else if a < 0x400000 then s.plainWrite r a w
    else if a < 0x800000 then s.writeQue r i a w
    else s.writeTables r i a w

/-- A whole word written to the register space by master `m`: the first rule of R480 that discards it decides, else the register's own
rule applies. -/
def hostWrite (m : Master) (a : Nat) (w : Word) (s : State) : State :=
  if s.refusesWrite m a then s
  else if hostSide m && !s.running && !earlyAddr a then s.earlyWrite
  else if hostSide m && s.lockedWrite a w then s
  else if s.undefinedUnit a then s
  else s.regWrite m a w

end Sys2Proof.Machine
end

