-- ==== Sys2Proof/Machine/Quay.lean ====
section
/-! DEFINITION. The quay (R445 to R454): targets, decode errors, ordering and hold-back, the bursts of a master reset, and what a
write and a read do at each target. -/

namespace Sys2Proof.Machine

/-! ### Targets (R446, R470) -/

/-- The targets of the quay. -/
inductive QTarget where
  | reg | work | fstore | nvs | cflash | host
deriving DecidableEq, Repr

/-- The number of a target (R470). -/
def QTarget.num : QTarget → Nat
  | .reg => 0 | .work => 1 | .fstore => 2 | .nvs => 3 | .cflash => 4 | .host => 5

/-- The target that decodes a quay address, with the offset in it (R446). -/
def targetAt (a : Nat) : Option (QTarget × Nat) :=
  if a < 0x4000000 then some (.reg, a)
  else if 0x10000000 ≤ a ∧ a < 0x16000000 then some (.fstore, a - 0x10000000)
  else if 0x20000000 ≤ a ∧ a < 0x22800000 then some (.work, a - 0x20000000)
  else if 0x30000000 ≤ a ∧ a < 0x30080000 then some (.nvs, a - 0x30000000)
  else if 0x40000000 ≤ a ∧ a < 0x48000000 then some (.cflash, a - 0x40000000)
  else if 2 ^ 63 ≤ a ∧ a < 2 ^ 64 then some (.host, a - 2 ^ 63)
  else none

/-- The target of a burst of `n` bytes: first and last byte decode to the same one. -/
def burstAt (a n : Nat) : Option (QTarget × Nat) :=
  match targetAt a, targetAt (a + n - 1) with
  | some (t, o), some (u, _) => if t = u then some (t, o) else none
  | _, _ => none

/-- A decode error of master `m` (R446, R470, R472). -/
def State.decodeError (s : State) (m a : Nat) : State :=
  ((s.countErr Reg.quayDecerrCnt 24 1).wr Reg.quayDecerrAddr (BitVec.ofNat 32 (m * 2 ^ 28 + a % 2 ^ 28))).raise .quayDecodeErr 0 (m * 2 ^ 28)

/-! ### Writes at a target -/

/-- Bytes written over the register space: each whole aligned word acts, in ascending order (R476). -/
def State.writeRegs (s : State) (m : Master) (a : Nat) (bs : List Byte) : State :=
  let first := (a + 3) / 4
  forAll ((upto ((a + bs.length) / 4 - first)).map (first + ·)) (fun k t =>
    hostWrite m (4 * k) (BitVec.ofNat 32 (leNat ((bs.drop (4 * k - a)).take 4))) t) s

/-- A beat of the frame store belongs to a slip that a watch head reads (R193, R195, R454). -/
def State.watchBeat (s : State) (o : Nat) : Bool :=
  let bank := o / 64 % 256
  let row := o / 16384
  (upto 1024).any fun k => s.slipOn k && s.b (Reg.fstSlipCfg k) 30
    && (bank + 256 - s.f (Reg.fstSlipCfg k) 23 16) % 256 < 2 ^ s.f (Reg.fstSlipCfg k) 15 12
    && s.f (Reg.fstSlipRows k) 12 0 ≤ row && row < s.f (Reg.fstSlipRows k) 12 0 + s.f (Reg.fstSlipRows k) 28 16

/-- Bytes written to the frame store: from RUNNING those in the beats of a watch head's slip are refused (R454). -/
def State.writeFstore (s : State) (m : Master) (o : Nat) (bs : List Byte) : State :=
  let denied := fun (i : Nat) => s.running && s.watchBeat i
  let s' := { s with fstore := (bs.zipIdx o).foldl (fun mem e => if denied e.2 then mem else nset zeroByte mem e.2 e.1) s.fstore }
  if (bs.zipIdx o).any fun e => denied e.2 then
    let t := s'.countErr Reg.quayDeniedCnt 24 1
    if t.quay.deniedNow then t else (t.raise .quayWriteDenied 0 m.num).onQuay fun q => { q with deniedNow := true }
  else s'

/-- Bytes written to working memory: from RUNNING a code region takes none, and a data region waits for its engine (R217, R218). -/
def State.writeWork (s : State) (o : Nat) (bs : List Byte) : State :=
  let all := bs.zipIdx o
  let code := fun (i : Nat) => s.running && decide (i < 0x1000000) && decide (i % 65536 < s.codeTop (i / 65536))
  let waits := fun (i : Nat) => s.running && decide (i < 0x1000000) && s.holdsJob (i / 65536)
  let now := all.filter fun e => !code e.2 && !waits e.2
  let s' := { s with work := now.foldl (fun mem e => nset zeroByte mem e.2 e.1) s.work }
  forAll ((all.filter fun e => !code e.2 && waits e.2).map fun e => e.2 / 65536).eraseDups (fun g t =>
    let part := all.filter fun e => !code e.2 && decide (e.2 / 65536 = g)
    match part with
    | [] => t
    | e :: _ => t.onEng g fun x => { x with held := x.held ++ [(e.2, part.map (·.1))] }) s'

/-- Bytes written at a target (R446). An interface that is refused writes nothing but `GLB` and `PWR_RESET` (R487). -/
def State.targetWrite (s : State) (m : Master) (t : QTarget) (o : Nat) (bs : List Byte) : State :=
  match t with
  | .reg => s.writeRegs m o bs
  | .fstore => if s.ifRefused && m.isHost then s else s.writeFstore m o bs
  | .work => if s.ifRefused && m.isHost then s else s.writeWork o bs
  | .nvs => s
  | .cflash => if s.ifRefused && m.isHost then s else s.flashWrite o bs
  | .host => { s with hostMem := writeBytes zeroByte s.hostMem o bs }

/-- Bytes read at a target: of the register space whole words are read, and the bytes asked for come from them (R476). -/
def State.targetRead (s : State) (m : Master) (t : QTarget) (o n : Nat) : List Byte × State :=
  match t with
  | .reg =>
    let first := o / 4
    let (bs, s) := (upto ((o + n + 3) / 4 - first)).foldl (fun (a : List Byte × State) k =>
      let (w, u) := a.2.regRead m (4 * (first + k))
      (a.1 ++ leBytes 4 w.toNat, u)) ([], s)
    ((bs.drop (o % 4)).take n, s)
  | .fstore => (readBytes zeroByte s.fstore o n, s)
  | .work => (readBytes zeroByte s.work o n, s)
  | .nvs => (s.nvBytes o n, s.nvRead)
  | .cflash => (readBytes erasedByte s.cflash o n, s)
  | .host => (readBytes zeroByte s.hostMem o n, s)

/-! ### The second memory BAR (R456) -/

/-- The quay address of an offset in BAR2. -/
def State.bar2Addr (s : State) (o : Nat) : Nat :=
  if o < 0x6000000 then 0x10000000 + o else 0x20000000 + min 8 (s.f Reg.quayWwin 3 0) * 0x100000 + (o - 0x6000000)

/-- The quay address of an offset in the layout of the first (`false`) or second BAR; an offset beyond the BAR decodes to nothing. -/
def State.barAddr (s : State) (bar2 : Bool) (o : Nat) : Nat :=
  if bar2 then (if o < 0x8000000 then s.bar2Addr o else 0x8000000 + o % 0x8000000) else if o < 0x4000000 then o else 0x8000000 + o % 0x8000000

/-- The quay address of a request, as the working window stands when it is issued (R456). -/
def State.reqAddr (s : State) (q : QuayReq) : Nat := s.barAddr q.bar2 q.off

/-! ### Requests (R447, R448) -/

/-- `CAP` of a path (R448, R470). -/
def State.pathCap (s : State) (m t : Nat) : Nat := max 1 (min 64 (s.f (Reg.quayPath m t) 6 0))

/-- The requests of master `m` outstanding at target `t`. -/
def State.openAt (s : State) (m t : Nat) : List (Nat × Nat × Nat) := s.quay.outstanding.filter fun o => o.1 == m && o.2.2 == t

/-- The quay holds a request of master `m` with an ID for target `t` back (R448). -/
def State.mustHold (s : State) (m id t : Nat) : Bool :=
  s.quay.held.any (fun q => q.master.num == m && q.id == id)
    || s.quay.outstanding.any (fun o => o.1 == m && o.2.1 == id && o.2.2 != t)
    || s.pathCap m t ≤ (s.openAt m t).length

/-- A request is carried out. `late`: its response has not come back when the next command arrives; else every earlier request of the
same ID has its response too (R447). A read's bytes go back to a host. -/
def State.carryOut (s : State) (q : QuayReq) (late : Bool) : State :=
  match burstAt (s.reqAddr q) q.len with
  | none => s.decodeError q.master.num (s.reqAddr q)
  | some (t, o) =>
    let s := match q.write with
      | some bs => s.targetWrite q.master t o bs
      | none =>
        let (bs, u) := s.targetRead q.master t o q.len
        u.send (.answer q.master bs)
    s.onQuay fun y => { y with
      outstanding := if late then y.outstanding ++ [(q.master.num, q.id, t.num)]
        else y.outstanding.filter fun o => !(o.1 == q.master.num && o.2.1 == q.id) }

/-- A request arrives at the quay: it is carried out or held back (R446 to R448). -/
def State.quayRequest (s : State) (q : QuayReq) (late : Bool) : State :=
  let hold := match burstAt (s.reqAddr q) q.len with
    | some (t, _) => s.mustHold q.master.num q.id t.num
    | none => s.mustHold q.master.num q.id 6
  if q.len = 0 then s
  else if hold then ((s.onQuay fun y => { y with held := y.held ++ [q] }).countPerf Reg.quayHoldCnt 31 1).showHeldBack
  else s.carryOut q late

/-- The condition that held a master's oldest request back has cleared (R448): the responses it waited for are back. -/
def heldRequestIssue (m : Master) (late : Bool) (s : State) : State :=
  match s.quay.held.find? fun q => q.master == m with
  | none => s
  | some q =>
    let t := match burstAt (s.reqAddr q) q.len with | some (t, _) => t.num | none => 6
    let beyond := (s.openAt m.num t).length + 1 - s.pathCap m.num t
    let s := s.onQuay fun y => { y with
      held := y.held.erase q
      outstanding :=
        let l := y.outstanding.filter fun o => !(o.1 == m.num && o.2.1 == q.id && o.2.2 != t)
        ((l.filter fun o => o.1 == m.num && o.2.2 == t).take beyond).foldl (fun l o => l.erase o) l }
    (s.showHeldBack).carryOut q late

/-- A master resets in mid-burst: the beats of a write already accepted are written, then the master resets (R453). -/
def State.cutBurst (s : State) (m : Master) (addr : Nat) (accepted : List Byte) : State :=
  let s := if accepted.isEmpty then s
    else match burstAt addr accepted.length with
      | some (t, o) => s.targetWrite m t o accepted
      | none => s
  s.masterReset m.num

end Sys2Proof.Machine
end

