-- ==== Sys2Proof/Machine/Hosts.lean ====
section
/-! DEFINITION. The masters of the quay at work: the PCI Express endpoint (R437, R447, R453 to R458), the QSPI and I²C targets (R459, R460), the
DMA channels (R461, R462), the event writer (R465 to R469). -/

namespace Sys2Proof.Machine

/-! ### PCI Express -/

/-- A memory request of the host reaches the endpoint: it is issued with ID 0, or, while a host warm reset holds the matrix die, kept
until after the release (R437, R447). -/
def State.pcieRequest (s : State) (bar2 : Bool) (o len : Nat) (w : Option (List Byte)) (late : Bool) : State :=
  let q : QuayReq := { master := .pcie, id := 0, bar2, off := o, len, write := w }
  if !s.b Reg.quayPcieStat 31 then s
  else if s.matrixUp then if s.coreUp then s.quayRequest q late else s
  else match s.pwr.phase with
    | .inReset => s.onQuay fun y => { y with held := y.held ++ [q] }
    | _ => s

/-- A memory write TLP (R447, R456). -/
def pcieMemWrite (bar2 : Bool) (o : Nat) (bs : List Byte) (late : Bool) (s : State) : State :=
  s.pcieRequest bar2 o bs.length (some bs) late

/-- A memory read TLP. -/
def pcieMemRead (bar2 : Bool) (o n : Nat) (late : Bool) (s : State) : State := s.pcieRequest bar2 o n none late

/-- The link goes down; the part of a write burst that the target had accepted stays written (R453). -/
def pcieLinkDown (bar2 : Bool) (o : Nat) (accepted : List Byte) (s : State) : State :=
  if s.b Reg.quayPcieStat 31 then
    let s := if accepted.isEmpty then s
      else match burstAt (s.barAddr bar2 o) accepted.length with
        | some (t, i) => s.targetWrite .pcie t i accepted
        | none => s
    s.linkLost
  else s

/-! ### QSPI (R459) -/

/-- Whole words of a transfer, each with its address. -/
def wordsFrom (o : Nat) (bs : List Byte) : List (Nat × List Byte) := ((chunks 4 bs).zipIdx.filter fun e => e.1.length == 4).map fun e => (o + 4 * e.2, e.1)

/-- A QSPI write of whole words; a partial word at the end is discarded; a word that no target
decodes is an error. -/
def State.qspiPut (s : State) (bar2 : Bool) (o : Nat) (bs : List Byte) (late : Bool) : State :=
  let t := forAll (wordsFrom o bs) (fun e u =>
    u.quayRequest { master := .qspi, id := 0, bar2, off := e.1, len := 4, write := some e.2 } late) s
  t.onQuay fun q => { q with qspiError := (wordsFrom o bs).any fun e => (burstAt (s.barAddr bar2 e.1) 4).isNone }

/-- The quay holds a QSPI read of `n` words back (R448). -/
def State.qspiHeld (s : State) (bar2 : Bool) (o n : Nat) : Bool :=
  (upto n).any fun i => s.mustHold 1 0 (match burstAt (s.barAddr bar2 (o + 4 * i)) 4 with | some (t, _) => t.num | none => 6)

/-- A QSPI read of `n` words: the status byte, 1 when data follows, 2 when it is not ready, as when the quay holds the read back, 4
after an error, then the words. -/
def State.qspiGet (s : State) (bar2 : Bool) (o n : Nat) (ready : Bool) : State :=
  if !ready then s.send (.answer .qspi [2])
  else if s.qspiHeld bar2 o n then (s.countPerf Reg.quayHoldCnt 31 1).send (.answer .qspi [2])
  else
    let (bs, t, ok) := (upto n).foldl (fun (a : List Byte × State × Bool) i =>
      let addr := a.2.1.barAddr bar2 (o + 4 * i)
      match burstAt addr 4 with
      | some (t, x) =>
        let (w, u) := a.2.1.targetRead .qspi t x 4
        (a.1 ++ w, u, a.2.2)
      | none => (a.1, a.2.1.decodeError 1 addr, false)) ([], s, true)
    let t := t.onQuay fun q => { q with
      qspiError := !ok
      outstanding := if n = 0 then q.outstanding else q.outstanding.filter fun x => x.1 != 1 }
    if ok then t.send (.answer .qspi (1 :: bs)) else t.send (.answer .qspi [4])

/-- QSPI opcode 0x02. -/
def qspiWrite (o : BitVec 32) (bs : List Byte) (late : Bool) (s : State) : State := s.qspiPut false o.toNat bs late

/-- QSPI opcode 0x12. -/
def qspiWriteBar2 (o : BitVec 32) (bs : List Byte) (late : Bool) (s : State) : State := s.qspiPut true o.toNat bs late

/-- QSPI opcode 0x0B. -/
def qspiRead (o : BitVec 32) (n : Nat) (ready : Bool) (s : State) : State := s.qspiGet false o.toNat n ready

/-- QSPI opcode 0x1B. -/
def qspiReadBar2 (o : BitVec 32) (n : Nat) (ready : Bool) (s : State) : State := s.qspiGet true o.toNat n ready

/-- QSPI opcode 0x05: bit 0 earlier writes outstanding, bit 1 after an error, bits 4 to 7 rings that hold records. -/
def qspiReadStatus (s : State) : State :=
  let busy := s.quay.held.any (fun q => q.master == .qspi && q.write.isSome) || s.quay.outstanding.any fun o => o.1 == 1
  let rings := (upto 4).filter fun r => s.ringFill r != 0
  s.send (.answer .qspi [BitVec.ofNat 8 (busy.toNat + s.quay.qspiError.toNat * 2 + bitsOf rings * 16)])

/-- `QSPI_CS_N` released during a transaction (R453). -/
def qspiCsRelease (bar2 : Bool) (o : Nat) (accepted : List Byte) (s : State) : State := s.cutBurst .qspi (s.barAddr bar2 o) accepted

/-! ### I²C (R460) -/

/-- An I²C write transfer: four offset bytes, then data that acts word by word as each aligned word is complete. -/
def i2cWrite (offset : BitVec 32) (bs : List Byte) (late : Bool) (s : State) : State :=
  let o := offset.toNat
  let whole := (bs.zipIdx o).filter fun e => decide (o ≤ e.2 / 4 * 4 ∧ e.2 / 4 * 4 + 4 ≤ o + bs.length)
  let s := forAll (wordsFrom (whole.head?.map (·.2) |>.getD o) (whole.map (·.1))) (fun e u =>
    u.quayRequest { master := .i2c, id := 0, bar2 := false, off := e.1, len := 4, write := some e.2 } late) s
  s.onQuay fun q => { q with i2cOffset := (o + bs.length) % 2 ^ 32 }

/-- An I²C read after a repeated START: `n` bytes from the offset, each word read once. -/
def i2cRead (n : Nat) (late : Bool) (s : State) : State :=
  let o := s.quay.i2cOffset
  (s.quayRequest { master := .i2c, id := 0, bar2 := false, off := o, len := n, write := none } late).onQuay fun q =>
    { q with i2cOffset := (o + n) % 2 ^ 32 }

/-- A STOP or a bus timeout during a transaction (R453). -/
def i2cAbort (o : Nat) (accepted : List Byte) (s : State) : State := s.cutBurst .i2c (s.barAddr false o) accepted

/-! ### DMA (R461, R462) -/

/-- A channel's own state. -/
def State.dmaOf (s : State) (n : Nat) : DmaSt := nget (fun _ => DmaSt.init) s.quay.dma n

/-- Replace a channel's own state. -/
def State.onDma (s : State) (n : Nat) (g : DmaSt → DmaSt) : State :=
  s.onQuay fun q => { q with dma := nset (fun _ => DmaSt.init) q.dma n (g (nget (fun _ => DmaSt.init) q.dma n)) }

/-- A channel stops: cause 1 decode, 2 host, 3 field (R462, R470). -/
def State.dmaFail (s : State) (n cause : Nat) : State :=
  let s := s.wr (Reg.dmaStat n) (BitVec.ofNat 32 (2 ^ 30 + cause))
  (s.raiseFree .dmaError 0).masterReset (5 + n)

/-- Bytes moved, counted in units of 64 (R470). -/
def State.dmaMoved (s : State) (n k : Nat) : State :=
  let all := (s.dmaOf n).rest + k
  let s := s.onDma n fun d => { d with rest := all % 64 }
  if all / 64 = 0 then s else s.countPerf (Reg.dmaBytes n) 31 (all / 64)

/-- One burst of a channel: 0, or the cause of an error. -/
def State.dmaBurst (s : State) (n : Fin 8) (src dst k : Nat) (hostFails : Bool) : Nat × State :=
  match burstAt src k, burstAt dst k with
  | none, _ => (1, s.decodeError (5 + n) src)
  | _, none => (1, s.decodeError (5 + n) dst)
  | some (t, o), some (u, p) =>
    if hostFails && (t == .host || u == .host) then (2, s)
    else
      let (bs, s) := s.targetRead (.dma n) t o k
      (0, (s.targetWrite (.dma n) u p bs).dmaMoved n k)

/-- The bursts of a line of `len` bytes: offset and length, at most 512 bytes each (R445). -/
def lineBursts (len : Nat) : List (Nat × Nat) := (upto ((len + 511) / 512)).map fun i => (512 * i, min 512 (len - 512 * i))

/-- A channel handles its current descriptor and reads `NEXT` after the lines are copied (R462): `hostData` is what the host's memory holds where the channel reads it, `hostFails`
says that the host refuses its requests (R458). -/
def dmaDescriptor (n : Fin 8) (hostData : List (Nat × Byte)) (hostFails : Bool) (s : State) : State :=
  if !s.b (Reg.dmaStat n) 31 then s
  else
    let s := { s with hostMem := hostData.foldl (fun (m : NMap Byte) (e : Nat × Byte) => nset zeroByte m e.1 e.2) s.hostMem }
    let cur := pair64 (s.rd (Reg.dmaCurLo n)) (s.rd (Reg.dmaCurHi n))
    match burstAt cur 48 with
    | none => (s.decodeError (5 + n) cur).dmaFail n 1
    | some (t, o) =>
      if cur % 16 ≠ 0 ∨ !(t == .work || t == .host) then s.dmaFail n 3
      else if t = .host ∧ hostFails then s.dmaFail n 2
      else
        let (d, s) := s.targetRead (.dma n) t o 48
        let src := bytesAt d 0 8
        let dst := bytesAt d 8 8
        let len := bytesAt d 0x18 3
        let lines := bytesAt d 0x1C 2 % 8192
        let ctrl := BitVec.ofNat 32 (bytesAt d 0x1E 2)
        if len = 0 ∨ lines = 0 then s.dmaFail n 3
        else if bit ctrl 3 ∧ !(s.dmaOf n).strokeSeen then s.setB (Reg.dmaStat n) 29 true
        else
          let (err, s) := (upto lines).foldl (fun (a : Nat × State) i =>
            (lineBursts len).foldl (fun (a : Nat × State) (b : Nat × Nat) =>
              if a.1 ≠ 0 then a
              else a.2.dmaBurst n ((src + i * bytesAt d 0x20 4 + b.1) % 2 ^ 64) ((dst + i * bytesAt d 0x24 4 + b.1) % 2 ^ 64) b.2 hostFails) a) (0, s)
          if err ≠ 0 then s.dmaFail n err
          else
            let (link, s) := s.targetRead (.dma n) t (o + 0x10) 8
            let s := s.onDma n fun x => { x with strokeSeen := false }
            let s := if !bit ctrl 0 then s
              else if s.b (Reg.dmaCfg n) 8 then s.sendVector (s.f (Reg.dmaCfg n) 5 0)
              else s.raise .dmaDone 0 n
            if bit ctrl 1 then s.setB (Reg.dmaStat n) 31 false
            else (s.wr (Reg.dmaCurLo n) (BitVec.ofNat 32 (bytesAt link 0 4))).wr (Reg.dmaCurHi n) (BitVec.ofNat 32 (bytesAt link 4 4))

/-- A write of `DMA_n_CTRL.ABORT` (R453): where the write takes effect on a busy channel, the part of a write burst that the target
had accepted stays written. -/
def dmaAbort (m : Master) (n : Fin 8) (addr : Nat) (accepted : List Byte) (s : State) : State :=
  let t := hostWrite m (Reg.dmaCtrl n) 2 s
  if !accepted.isEmpty && s.b (Reg.dmaStat n) 31 && !t.b (Reg.dmaStat n) 31 then
    match burstAt addr accepted.length with
    | some (x, o) => hostWrite m (Reg.dmaCtrl n) 2 (s.targetWrite (.dma n) x o accepted)
    | none => t
  else t

/-! ### The event writer (R465 to R469) -/

/-- The advanced `WP` of ring `r` is copied where the ring asks for it (R467). -/
def State.copyWp (s : State) (r wp : Nat) : State :=
  if s.b (Reg.evtRingCfg r) 29 then
    let a := pair64 (s.rd (Reg.evtRingWpaddrLo r)) (s.rd (Reg.evtRingWpaddrHi r))
    match burstAt a 4 with
    | some (t, o) => s.targetWrite .evtWriter t o (leBytes 4 wp)
    | none => s.decodeError 14 a
  else s

/-- Record `x` of ring `r` is written at its slot, in target `t`, and `WP` moves on to `wp` (R467). -/
def State.putRecord (s : State) (r : Nat) (x : BitVec 128) (rest : List (BitVec 128)) (wp : Nat) (t : QTarget) (o : Nat) : State :=
  let s := s.targetWrite .evtWriter t o (leBytes 16 x.toNat)
  let s := (s.setRing r { s.ring r with queue := rest }).wr (Reg.evtRingWp r) (BitVec.ofNat 32 wp)
  (s.copyWp r wp).noteWritten r

/-- The oldest record of ring `r` has been written and answered: `WP` advances, is copied where the ring asks for it, and the ring
signals; a record that no memory takes is lost (R458, R467, R469). -/
def eventRecordWritten (r : Nat) (s : State) : State :=
  match (s.ring r).queue with
  | [] => s
  | x :: l =>
    if !s.b (Reg.evtRingCfg r) 31 then s
    else
      let wp := s.f (Reg.evtRingWp r) 15 0
      let slot := s.ringSlot r wp
      match burstAt slot 16 with
      | some (.work, o) => s.putRecord r x l ((wp + 1) % 65536) .work o
      | some (.host, o) => s.putRecord r x l ((wp + 1) % 65536) .host o
      | some _ => (s.recordLost r).overflowRecord r
      | none => ((s.decodeError 14 slot).recordLost r).overflowRecord r

/-- A request to host memory has waited 10 ms, or came back refused (R458): the master it belongs to takes the error. -/
def pcieCompletionTimeout (m : Master) (ring : Fin 4) (s : State) : State :=
  match m with
  | .loader =>
    match s.loader.amd with
    | some a => if a.path = 0 ∧ !a.staged then s.amdRefuse 0xB else s
    | none =>
      if s.loadSlot ≠ 4 then s
      else match s.loader.phase with
        | .header => s.loadFail 0xB 0
        | .reading o => s.loadFail 0xB (((s.loader.dir.find? fun e => e.order == o).map (·.typ)).getD 0)
        | _ => s
  | .dma n => if s.b (Reg.dmaStat n) 31 then s.dmaFail n 2 else s
  | .evtWriter => (s.recordLost ring).overflowRecord ring
  | _ => s

end Sys2Proof.Machine
end

