-- ==== Sys2Proof/Machine/Command.lean ====
section
/-! DEFINITION. What the meanings of the commands share: when a command has its effect at all, writes and reads of one register as
commands, and the words that such writes carry. -/

namespace Sys2Proof.Machine

/-- A command of what `SYN_CORE` clocks (fabric, quay, engines' queues, management pairs): none of it runs while that synthesizer
has stopped its domains (R88). -/
def onCore (g : State → State) (s : State) : Res := .next (if s.matrixUp && s.coreUp then g s else s)

/-- An event that befalls the device whatever runs. -/
def always (g : State → State) (s : State) : Res := .next (g s)

/-- A change of an input pin of the light die: the pin has its new level, and the light die acts on it while it runs. -/
def onPin (pin : Pins → Pins) (g : State → State) (s : State) : Res := .next (if s.pwr.ld == .running then g s else s.onPins pin)

/-- One unit of time, 50 ps, passes. -/
def tick (s : State) : State := s.onClock fun c => { c with time := c.time + 1 }

/-- A write of one register by a master of the quay (R476, R480). -/
def regCommand (m : Master) (a : Nat) (w : Word) (s : State) : Res := onCore (hostWrite m a w) s

/-- A read of one register, whose value is the answer (R476, R477). -/
def readAndAnswer (m : Master) (a : Nat) (s : State) : State :=
  let (v, t) := s.regRead m a
  t.send (.answer m (leBytes 4 v.toNat))

/-- `PRT_nnn_HX_CMD` with `GO`, an operation and a length (R152). -/
def hxWord (op : Nat) (len : BitVec 5) : Word := 0x80000000 ||| BitVec.ofNat 32 (op * 256) ||| len.setWidth 32

/-- Icon-store words read with an uncorrectable error before a line: icon, word, and what the word then holds (R317). -/
def iconReads (broken : List (Fin 256 × BitVec 19 × Word)) (s : State) : State :=
  forAll broken (fun (x : Fin 256 × BitVec 19 × Word) t => t.storeError x.1 x.2.1.toNat x.2.2) s

/-- Symbols that the read-back receivers found differing and invalid (R117). -/
def symbolCounts (sym : List (Fin 32 × Nat × Nat)) (s : State) : State :=
  forAll sym (fun (x : Fin 32 × Nat × Nat) t => t.rbCounts x.1 x.2.1 x.2.2) s

end Sys2Proof.Machine
end

