-- ==== Sys2Proof/Machine/AudioCmds.lean ====
section
/-! DEFINITION. The meanings of the commands of audio (chapter 13). -/

namespace Sys2Proof.Machine

/-- AUD_BLOCK_CLOSE (R331): A locked input block closes after the input window and its missing frames are zeroed. The frames that
arrived on the TDM inputs, as the data pin's levels at both edges of each bit clock, are the operand. -/
def execAudBlockClose (tdm : List (Fin 8 × List (List (Bool × Bool)))) (s : State) : Res := onCore (audBlockClose tdm) s

/-- AUD_BLOCK_SEND (R329): At boundary plus the output offset each transmit audio stream sends its block. -/
def execAudBlockSend (s : State) : Res := onCore audBlockSend s

/-- AUD_COMMIT (R336): A write of GO makes every audio shadow take effect at the next boundary with gain ramps. -/
def execAudCommit (m : Master) (w : Word) (s : State) : Res := regCommand m (Reg.audCommit) (w ||| 0x80000000) s

/-- TDM_FRAME_ERROR (R339): An FS edge at the wrong bit-clock count is counted and the port realigns. -/
def execTdmFrameError (n : Fin 8) (s : State) : Res := onCore (tdmFrameError n) s

/-- ASRC_LOCK_CHANGE (R332): A rate converter's measured input rate enters or leaves ±1,000 ppm of nominal, so it locks or
delivers zeros and raises AUD_ASRC_UNLOCK. The measured rate is an operand. -/
def execAsrcLockChange (u : Fin 64) (rate : BitVec 24) (s : State) : Res := onCore (asrcLockChange u rate.toNat) s

/-- ASRC_SLIP (R332): A rate converter's fill leaves 0.25 to 6.0 ms, so it resets to 2 ms, counts a slip and raises
AUD_ASRC_UNLOCK. -/
def execAsrcSlip (u : Fin 64) (s : State) : Res := onCore (asrcSlip u) s

end Sys2Proof.Machine
end

