-- ==== Sys2Proof/Machine/CrossCmds.lean ====
section
/-! DEFINITION. The meanings of the commands of crossings, queues, slips and outgoing streams (chapters 7 and 8). -/

namespace Sys2Proof.Machine

/-- QUEUE_XON_RELEASE (R182): A queue's fill falls to XON and releases held producers. -/
def execQueueXonRelease (q : Fin 4096) (s : State) : Res := onCore (queueXonRelease q) s

/-- XTB_WORD3_WRITE (R163): A write of word 3 of a Crossing Table entry checks and arms, cancels or refuses it. -/
def execXtbWord3Write (m : Master) (k : Fin 32768) (w : Word) (s : State) : Res := regCommand m (Reg.xtbEntryWord k 3) (w) s

/-- XTB_ARM (R164): A write of XTB_ARM_CTRL.GO arms a crossing group after checking its count. -/
def execXtbArm (m : Master) (w : Word) (s : State) : Res := regCommand m (Reg.xtbArmCtrl) (setFld w 31 30 2) s

/-- XTB_CANCEL (R164): A write of XTB_ARM_CTRL.CANCEL cancels an armed or held group. -/
def execXtbCancel (m : Master) (w : Word) (s : State) : Res := regCommand m (Reg.xtbArmCtrl) (w ||| 0x40000000) s

/-- XFORM_WRITE (R204): A host write to a transform descriptor's rate-conversion region takes effect at the next boundary or is
refused. -/
def execXformWrite (m : Master) (x : Fin 4096) (j : Fin 64) (w : Word) (s : State) : Res := regCommand m (Reg.xformWord x j) (w) s

/-- QUE_PUSH (R184): A host write of PUSH_3 appends a descriptor or is held while the queue is full. -/
def execQuePush (m : Master) (q : Fin 4096) (w : Word) (s : State) : Res := regCommand m (Reg.quePush q 3) (w) s

/-- QUE_PUSH_RELEASE (R184): Space frees in a full queue and a held host push completes. -/
def execQuePushRelease (q : Fin 4096) (s : State) : Res := onCore (quePushRelease q) s

/-- QUE_POP (R184): A host read of POP_3 removes the oldest descriptor. -/
def execQuePop (m : Master) (q : Fin 4096) (s : State) : Res := onCore (readAndAnswer m (Reg.quePop q 3)) s

/-- HWM_CLR (R191): A write of HWM_CLR clears a queue's high-water mark. -/
def execHwmClr (m : Master) (q : Fin 4096) (s : State) : Res := regCommand m (Reg.queCtrl q) (1) s

/-- SLIP_COMMIT (R198): A write of GO asks a slip to take its compression shadow at the next boundary. -/
def execSlipCommit (m : Master) (k : Fin 1024) (s : State) : Res := regCommand m (Reg.fstSlipCommit k) (1) s

/-- EGRESS_PACKET_SEND (R201): An egress port sends the next packet of an outgoing stream read from a slip or from LINE
descriptors, discarding stale lines, and releases the frame's pin after its last packet. -/
def execEgressPacketSend (k : Fin 2048) (s : State) : Res := onCore (egressPacketSend k) s

end Sys2Proof.Machine
end

