-- ==== Sys2Proof/Machine/HeadCmds.lean ====
section
/-! DEFINITION. The meanings of the commands of heads and watch heads (chapters 11 and 12). -/

namespace Sys2Proof.Machine

/-- HEAD_FRAME_START (R269): A head's scheduled frame start arrives, the head reports phase error and trims its divider. The
measured phase error in ns is an operand. -/
def execHeadFrameStart (h : Fin 64) (err : Int) (s : State) : Res := onMatrix (headFrameStart h err) s

/-- HEAD_LINE_START (R292): A head starts an output line, fetching rows and detecting crabs and line events. How long before the
line the slip layers' fetches ended, and the icon-store words read with an uncorrectable error (icon, word, what the word then holds),
are operands. -/
def execHeadLineStart (h : Fin 64) (fetch : List (Fin 8 × Nat)) (broken : List (Fin 256 × BitVec 19 × Word)) (s : State) : Res :=
  onMatrix (headLineStart h fetch ∘ iconReads broken) s

/-- GATE_LINE (R298): A head reaches its gate line and compares signatures, closes zone statistics, releases pins, takes commits
and prefetches. The signatures that the read-back receivers computed, and the symbols they found differing and invalid, are
operands. -/
def execGateLine (h : Fin 64) (rb : List (Fin 16 × Option Word)) (sym : List (Fin 32 × Nat × Nat)) (s : State) : Res :=
  onMatrix (gateLine h rb ∘ symbolCounts sym) s

/-- HEAD_COMMIT (R281): A write of GO to HEAD_nn_COMMIT asks the head to take its shadowed registers at a gate line. -/
def execHeadCommit (m : Master) (h : Fin 64) (w : Word) (s : State) : Res := regCommand m (Reg.headCommit h) (w ||| 0x80000000) s

/-- HED_SYNC_COMMIT (R284): A synchronised commit asks a mask of heads to take their shadows at one shared gate line. -/
def execHedSyncCommit (m : Master) (w : Word) (s : State) : Res := regCommand m (Reg.hedSyncCommit) (w ||| 0x80000000) s

/-- GANGWAY_WRITE (R286): A host write gives a layer's gangway a new value. -/
def execGangwayWrite (m : Master) (h : Fin 64) (k : Fin 8) (w : Word) (s : State) : Res :=
  regCommand m (Reg.headLayGangway h k) (w) s

/-- TT_PIN_ACCEPT (R307): A tell-tale pin's sampled value has held for the filter time and becomes its accepted value. -/
def execTtPinAccept (p : Fin 32) (s : State) : Res := onMatrix (ttPinAccept p) s

/-- TT_PIN_CHANGE (R307): The 10 µs sample of a TT_REQ pin differs from its previous sample, updating TT_PIN_RAW and restarting
the pin's filter time. The level sampled is an operand. -/
def execTtPinChange (p : Fin 32) (level : Bool) (s : State) : Res := onMatrix (ttPinChange p level) s

/-- WATCH_TIMING (R89): A watch head's pixel synthesizer has been out of its phase window for longer than two strokes. -/
def execWatchTiming (h : Fin 64) (s : State) : Res := onMatrix (watchTiming h) s

end Sys2Proof.Machine
end

