-- ==== Sys2Proof/Machine/Jikin.lean ====
section
/-! DEFINITION. The meanings of the commands of the Jikin engines: jobs, crews and every instruction (chapters 9 and 10). -/

namespace Sys2Proof.Machine

/-- DEADLINE (R234): The manifest deadline passes and every unfinished job is cancelled and reported. -/
def execDeadline (s : State) : Res := onCore deadline s

/-- MANIFEST_RECORD_START (R231): A record's START offset arrives and the dispatcher skips it, reports NO_INPUT, claims a slot
or pushes its JOB. -/
def execManifestRecordStart (r : Fin 1024) (s : State) : Res := onCore (manifestRecordStart r) s

/-- ENGINE_TAKE_JOB (R243): An idle engine takes the oldest JOB from its job queue, clears its registers and starts the kernel.
-/
def execEngineTakeJob (e : Fin 256) (s : State) : Res := onCore (engineTakeJob e) s

/-- CREW_TAKE_JOB (R227): A crew takes a JOB and divides its line range among its members by weight. -/
def execCrewTakeJob (c : Fin 128) (s : State) : Res := onCore (crewTakeJob c) s

/-- CREW_LINE_ROUTE (R228): A crew routes a LINE descriptor to every member whose widened range contains it. -/
def execCrewLineRoute (c : Fin 128) (s : State) : Res := onCore (crewLineRoute c) s

/-- ENG_HELD_WRITE (R218): A held host or DMA write to an engine's data region is performed once the engine is between jobs. -/
def execEngHeldWrite (e : Fin 256) (s : State) : Res := onCore (engHeldWrite e) s

/-- NOP (R251): The engine does nothing for one cycle. The engine and the fields of the instruction are the operands. -/
def execNop (e : Fin 256) (f : EngFields) (s : State) : Res := onMatrix (engNop e f) s

/-- BR (R258): The engine branches conditionally on a scalar against an immediate. The engine and the fields of the instruction
are the operands. -/
def execBr (e : Fin 256) (f : EngFields) (s : State) : Res := onMatrix (engBr e f) s

/-- LOOP (R259): The engine starts a hardware loop over the following instructions. The engine and the fields of the instruction
are the operands. -/
def execLoop (e : Fin 256) (f : EngFields) (s : State) : Res := onMatrix (engLoop e f) s

/-- JEND (R260): The job waits for posted writes and ends with status OK and its result. The engine and the fields of the
instruction are the operands. -/
def execJend (e : Fin 256) (f : EngFields) (s : State) : Res := onCore (engJend e f) s

/-- JFLD (R261): A scalar receives the selected job field. The engine and the fields of the instruction are the operands. -/
def execJfld (e : Fin 256) (f : EngFields) (s : State) : Res := onMatrix (engJfld e f) s

/-- TSIG (R251): The engine pushes a CTRL descriptor tagged with the job to a queue. The engine and the fields of the
instruction are the operands. -/
def execTsig (e : Fin 256) (f : EngFields) (s : State) : Res := onCore (engTsig e f) s

/-- VLD (R252): A vector register is loaded with 32 words from local memory. The engine and the fields of the instruction are
the operands. -/
def execVld (e : Fin 256) (f : EngFields) (s : State) : Res := onMatrix (engVld e f) s

/-- VST (R252): A vector register is stored as 32 words to local memory. The engine and the fields of the instruction are the
operands. -/
def execVst (e : Fin 256) (f : EngFields) (s : State) : Res := onMatrix (engVst e f) s

/-- VLDS (R251): A vector register is loaded with strided words from local memory. The engine and the fields of the instruction
are the operands. -/
def execVlds (e : Fin 256) (f : EngFields) (s : State) : Res := onMatrix (engVlds e f) s

/-- SLD (R252): A scalar is loaded from local memory. The engine and the fields of the instruction are the operands. -/
def execSld (e : Fin 256) (f : EngFields) (s : State) : Res := onMatrix (engSld e f) s

/-- SST (R252): A scalar is stored to local memory. The engine and the fields of the instruction are the operands. -/
def execSst (e : Fin 256) (f : EngFields) (s : State) : Res := onMatrix (engSst e f) s

/-- QIN (R254): The engine takes LINE descriptors from its data input queue and copies their data into local memory. The engine
and the fields of the instruction are the operands. -/
def execQin (e : Fin 256) (f : EngFields) (s : State) : Res := onCore (engQin e f) s

/-- QOUT (R255): The engine writes words into its output slot and optionally pushes LINE descriptors. The engine and the fields
of the instruction are the operands. -/
def execQout (e : Fin 256) (f : EngFields) (s : State) : Res := onCore (engQout e f) s

/-- QWAIT (R256): The engine waits until every QOUT of the job has landed. The engine and the fields of the instruction are the
operands. -/
def execQwait (e : Fin 256) (f : EngFields) (s : State) : Res := onCore (engQwait e f) s

/-- LDP (R257): A scalar receives a word of the job parameter block. The engine and the fields of the instruction are the
operands. -/
def execLdp (e : Fin 256) (f : EngFields) (s : State) : Res := onCore (engLdp e f) s

/-- VADD (R251): Lane-wise addition. The engine and the fields of the instruction are the operands. -/
def execVadd (e : Fin 256) (f : EngFields) (s : State) : Res := onMatrix (engVadd e f) s

/-- VSUB (R251): Lane-wise subtraction. The engine and the fields of the instruction are the operands. -/
def execVsub (e : Fin 256) (f : EngFields) (s : State) : Res := onMatrix (engVsub e f) s

/-- VMIN (R251): Lane-wise minimum. The engine and the fields of the instruction are the operands. -/
def execVmin (e : Fin 256) (f : EngFields) (s : State) : Res := onMatrix (engVmin e f) s

/-- VMAX (R251): Lane-wise maximum. The engine and the fields of the instruction are the operands. -/
def execVmax (e : Fin 256) (f : EngFields) (s : State) : Res := onMatrix (engVmax e f) s

/-- VABSD (R251): Lane-wise absolute difference. The engine and the fields of the instruction are the operands. -/
def execVabsd (e : Fin 256) (f : EngFields) (s : State) : Res := onMatrix (engVabsd e f) s

/-- VSH (R251): Lane-wise shift with rounding. The engine and the fields of the instruction are the operands. -/
def execVsh (e : Fin 256) (f : EngFields) (s : State) : Res := onMatrix (engVsh e f) s

/-- VLOG (R251): Lane-wise logical operation. The engine and the fields of the instruction are the operands. -/
def execVlog (e : Fin 256) (f : EngFields) (s : State) : Res := onMatrix (engVlog e f) s

/-- VMOV (R251): Vector move of the B operand. The engine and the fields of the instruction are the operands. -/
def execVmov (e : Fin 256) (f : EngFields) (s : State) : Res := onMatrix (engVmov e f) s

/-- VMUL (R251): Lane-wise multiply with shift and rounding. The engine and the fields of the instruction are the operands. -/
def execVmul (e : Fin 256) (f : EngFields) (s : State) : Res := onMatrix (engVmul e f) s

/-- SADD (R251): Scalar addition. The engine and the fields of the instruction are the operands. -/
def execSadd (e : Fin 256) (f : EngFields) (s : State) : Res := onMatrix (engSadd e f) s

/-- SSUB (R251): Scalar subtraction. The engine and the fields of the instruction are the operands. -/
def execSsub (e : Fin 256) (f : EngFields) (s : State) : Res := onMatrix (engSsub e f) s

/-- SMUL (R251): Scalar multiplication, low 32 bits. The engine and the fields of the instruction are the operands. -/
def execSmul (e : Fin 256) (f : EngFields) (s : State) : Res := onMatrix (engSmul e f) s

/-- SAND (R251): Scalar bitwise AND. The engine and the fields of the instruction are the operands. -/
def execSand (e : Fin 256) (f : EngFields) (s : State) : Res := onMatrix (engSand e f) s

/-- SOR (R251): Scalar bitwise OR. The engine and the fields of the instruction are the operands. -/
def execSor (e : Fin 256) (f : EngFields) (s : State) : Res := onMatrix (engSor e f) s

/-- SSH (R251): Scalar shift. The engine and the fields of the instruction are the operands. -/
def execSsh (e : Fin 256) (f : EngFields) (s : State) : Res := onMatrix (engSsh e f) s

/-- SMOV (R251): Scalar load of a 32-bit immediate. The engine and the fields of the instruction are the operands. -/
def execSmov (e : Fin 256) (f : EngFields) (s : State) : Res := onMatrix (engSmov e f) s

/-- MAC (R251): Multiply and accumulate into an accumulator. The engine and the fields of the instruction are the operands. -/
def execMac (e : Fin 256) (f : EngFields) (s : State) : Res := onMatrix (engMac e f) s

/-- MSU (R251): Multiply and subtract from an accumulator. The engine and the fields of the instruction are the operands. -/
def execMsu (e : Fin 256) (f : EngFields) (s : State) : Res := onMatrix (engMsu e f) s

/-- ASET (R251): Set an accumulator from the B operand. The engine and the fields of the instruction are the operands. -/
def execAset (e : Fin 256) (f : EngFields) (s : State) : Res := onMatrix (engAset e f) s

/-- ARD (R251): Read an accumulator into a vector with shift, rounding and saturation. The engine and the fields of the
instruction are the operands. -/
def execArd (e : Fin 256) (f : EngFields) (s : State) : Res := onMatrix (engArd e f) s

/-- ASUM (R251): Sum the lanes of an accumulator into a scalar. The engine and the fields of the instruction are the operands.
-/
def execAsum (e : Fin 256) (f : EngFields) (s : State) : Res := onMatrix (engAsum e f) s

/-- VPERM (R251): Permute lanes of a vector. The engine and the fields of the instruction are the operands. -/
def execVperm (e : Fin 256) (f : EngFields) (s : State) : Res := onMatrix (engVperm e f) s

/-- VSLD (R251): Slide lanes across two concatenated vectors. The engine and the fields of the instruction are the operands. -/
def execVsld (e : Fin 256) (f : EngFields) (s : State) : Res := onMatrix (engVsld e f) s

/-- VILV (R251): Interleave or deinterleave lanes of two vectors. The engine and the fields of the instruction are the operands.
-/
def execVilv (e : Fin 256) (f : EngFields) (s : State) : Res := onMatrix (engVilv e f) s

/-- VEXT (R251): Extract one lane into a scalar. The engine and the fields of the instruction are the operands. -/
def execVext (e : Fin 256) (f : EngFields) (s : State) : Res := onMatrix (engVext e f) s

/-- VLUT (R253): Table lookup per lane. The engine and the fields of the instruction are the operands. -/
def execVlut (e : Fin 256) (f : EngFields) (s : State) : Res := onMatrix (engVlut e f) s

/-- VLUTI (R253): Interpolated table lookup per lane. The engine and the fields of the instruction are the operands. -/
def execVluti (e : Fin 256) (f : EngFields) (s : State) : Res := onMatrix (engVluti e f) s

/-- VCMP (R251): Lane-wise comparison into a scalar mask. The engine and the fields of the instruction are the operands. -/
def execVcmp (e : Fin 256) (f : EngFields) (s : State) : Res := onMatrix (engVcmp e f) s

/-- VSEL (R251): Lane-wise select between two vectors by a mask. The engine and the fields of the instruction are the operands.
-/
def execVsel (e : Fin 256) (f : EngFields) (s : State) : Res := onMatrix (engVsel e f) s

/-- UNDEFINED_ENCODING (R245): The engine meets an undefined encoding and ends the job with fault code 1. -/
def execUndefinedEncoding (e : Fin 256) (s : State) : Res := onMatrix (undefinedEncoding e) s

/-- QIN_DATA_ARRIVE (R254): A waiting QIN receives its descriptor and completed copy and resumes. -/
def execQinDataArrive (e : Fin 256) (s : State) : Res := onCore (qinDataArrive e) s

/-- LDP_WORD_ARRIVE (R257): The parameter word a waiting LDP asked for arrives. -/
def execLdpWordArrive (e : Fin 256) (s : State) : Res := onCore (ldpWordArrive e) s

/-- POSTED_WRITES_LANDED (R256): A job's posted slot writes and descriptor pushes land, releasing a waiting QWAIT or JEND. -/
def execPostedWritesLanded (e : Fin 256) (s : State) : Res := onCore (postedWritesLanded e) s

end Sys2Proof.Machine
end

