-- ==== Sys2Proof/Machine/LightCmds.lean ====
section
/-! DEFINITION. The meanings of the commands of the light die: lighting, field units, parameter storage (chapters 14 to 16). -/

namespace Sys2Proof.Machine

/-- LIGHT_MESSAGE (R355): The light die receives the per-stroke message of zone levels, icon states and lighting shadows. -/
def execLightMessage (s : State) : Res := onLightDie lightMessage s

/-- LIGHT_MSG_TIMEOUT (R355): No message for 100 ms turns off every sink and the boost. -/
def execLightMsgTimeout (s : State) : Res := onLightDie lightMsgTimeout s

/-- PWM_PERIOD (R352): A PWM period begins and the light die applies levels, scans lines, tracks the boost and diagnoses
strings. What the period measured is the operand. -/
def execPwmPeriod (x : PwmIn) (s : State) : Res := onLightDie (pwmPeriod x) s

/-- BOOST_OVERVOLTAGE (R358): BST_FB above VMAX plus 2 V turns the gate off. -/
def execBoostOvervoltage (s : State) : Res := onLightDie boostOvervoltage s

/-- BOOST_RESTART (R358): Ten milliseconds after an overvoltage the boost restarts. -/
def execBoostRestart (s : State) : Res := onLightDie boostRestart s

/-- NEIGHBOUR_TEST (R368): The periodic neighbour test checks one pin for shorts to its neighbours. The neighbours that read
high are the operand. -/
def execNeighbourTest (high : List Nat) (s : State) : Res := onLightDie (neighbourTest high) s

/-- RETEST (R365): A write of RETEST returns an OPEN string to tracking for a fresh measurement. -/
def execRetest (m : Master) (n : Fin 48) (s : State) : Res := regCommand m (Reg.lgtChCtrl n) (1) s

/-- LAMP_BOARD_POLL (R372): Every 10 s the lamp board serial is re-read and a change triggers a full record read. The serial
read, none on a failed read, is an operand. -/
def execLampBoardPoll (n : Fin 8) (serial : Option Nat) (s : State) : Res := onLightDie (lampBoardPoll n serial) s

/-- LAMP_BOARD_WRITE_DONE (R381): A write-back page written over the lamp-board I²C bus completes its polled programming or
fails, raising FLD_WRITEBACK_FAIL. Whether the write completed is an operand. -/
def execLampBoardWriteDone (n : Fin 8) (ok : Bool) (s : State) : Res := onLightDie (lampBoardWriteDone n ok) s

/-- IDENT_RECORD_READ (R375): A unit's identity record read completes and is classified and keyed into the ledger table. The
bytes read from a lamp board are an operand; a far end's are what its port received. -/
def execIdentRecordRead (u : Fin 520) (board : Option (List Byte)) (s : State) : Res := onLightDie (identRecordRead u board) s

/-- LEDGER_ADVANCE (R377): Once per second the light die advances each trusted unit's ledger and life compensation. -/
def execLedgerAdvance (s : State) : Res := onLightDie ledgerAdvance s

/-- NVS_READ (R402): The READ command copies bytes from storage into NVS_BUF. -/
def execNvsRead (m : Master) (s : State) : Res := regCommand m (Reg.nvsCmd) (0x80000001) s

/-- NVS_WRITE (R402): The WRITE command writes bytes from NVS_BUF page by page. -/
def execNvsWrite (m : Master) (s : State) : Res := regCommand m (Reg.nvsCmd) (0x80000002) s

/-- NVS_REC_READ (R402): The REC_READ command chooses a record's winning slot and copies its data. -/
def execNvsRecRead (m : Master) (s : State) : Res := regCommand m (Reg.nvsCmd) (0x80000003) s

/-- NVS_REC_WRITE (R402): The REC_WRITE command writes a record into the slot that did not win. -/
def execNvsRecWrite (m : Master) (s : State) : Res := regCommand m (Reg.nvsCmd) (0x80000004) s

/-- NVS_BAD_OP (R402): A GO with an undefined OP ends at once with BAD_OP. The undefined OP is an operand. -/
def execNvsBadOp (m : Master) (op : BitVec 4) (s : State) : Res := regCommand m (Reg.nvsCmd) (0x80000000 ||| op.setWidth 32) s

/-- NVS_PAGE_DONE (R387): A page write completes and the next page of the write starts or the command ends. Whether `VDD_LD` is
below 2.95 V, where no erase starts (R390), is the operand. -/
def execNvsPageDone (low : Bool) (s : State) : Res := onLightDie (nvsPageDone low) s

/-- LEDGERS_WRITE (R397): The device writes the LEDGERS record once all units are read or 10 s after RUNNING. -/
def execLedgersWrite (s : State) : Res := onLightDie ledgersWrite s

/-- KEEP_FLUSH_DONE (R400): The keep-RAM flush completes its KEEP record. -/
def execKeepFlushDone (s : State) : Res := onLightDie keepFlushDone s

end Sys2Proof.Machine
end

