-- ==== Sys2Proof/Machine/LoaderCmds.lean ====
section
/-! DEFINITION. The meanings of the commands of charts, the one-time-programmable store, the chart flash and amendments (chapter
2). -/

namespace Sys2Proof.Machine

/-- HEADER_READ (R30): The loader has read a chart header and directory and runs checks 1 to 7. The bytes read from a pushed or
pulled source are the operand, none where the chart flash is the source. -/
def execHeaderRead (got : Option (List Byte)) (s : State) : Res := onCore (headerRead got) s

/-- SEGMENT_READ (R30): The loader has read a segment and checks its CRC, digest and content, re-reading once on a CRC failure.
The bytes read, and the records that they hold, are operands. -/
def execSegmentRead (got : Option (List Byte)) (c : Option SegContent) (s : State) : Res := onCore (segmentRead got c) s

/-- SEGMENT_PLACED (R41): Placement of a segment completes and the loader moves state or reads the next segment. -/
def execSegmentPlaced (s : State) : Res := onCore segmentPlaced s

/-- PULL_GO (R35): A write of CHT_CTRL.PULL_GO starts a PCIe pull of a full chart. -/
def execPullGo (m : Master) (s : State) : Res := regCommand m (Reg.chtCtrl) (1) s

/-- CHT_PUSH_DATA (R36): A host word written to the push window appends 4 bytes to the push buffer. -/
def execChtPushData (m : Master) (k : Fin 1024) (w : Word) (s : State) : Res := regCommand m (Reg.chtPushData k) (w) s

/-- OTP_KEY_FIRST (R34): The first write of the OTP key sequence opens a 1 ms window. -/
def execOtpKeyFirst (m : Master) (s : State) : Res := regCommand m (Reg.chtOtpCtrl) (0x5A0D0000) s

/-- OTP_BURN (R34): The second OTP key write with BURN programs the chart key hash. -/
def execOtpBurn (m : Master) (s : State) : Res := regCommand m (Reg.chtOtpCtrl) (0xC0DE0001) s

/-- OTP_TEST_ALLOW (R34): The second OTP key write with TEST_ALLOW also burns TEST_KEY_OK. -/
def execOtpTestAllow (m : Master) (s : State) : Res := regCommand m (Reg.chtOtpCtrl) (0xC0DE0003) s

/-- CHT_OTP_DATA (R49): A write appends one word of the key hash in sequence. -/
def execChtOtpData (m : Master) (w : Word) (s : State) : Res := regCommand m (Reg.chtOtpData) (w) s

/-- FLASH_KEY_FIRST (R39): The first write of the GOLDEN flash key sequence opens a 1 ms window. -/
def execFlashKeyFirst (m : Master) (s : State) : Res := regCommand m (Reg.chtFlashCtrl) (0xA11C0000) s

/-- FLASH_ERASE (R39): A flash erase clears a 4 KiB sector of the selected slot. The slot is an operand. -/
def execFlashErase (m : Master) (golden : Bool) (s : State) : Res :=
  regCommand m (Reg.chtFlashCtrl) (if golden then 0x5E5E0005 else 0x4) s

/-- FLASH_PROGRAM (R39): A flash program writes the selected slot. The slot is an operand. -/
def execFlashProgram (m : Master) (golden : Bool) (s : State) : Res :=
  regCommand m (Reg.chtFlashCtrl) (if golden then 0x5E5E0009 else 0x8) s

/-- AMD_GO (R46): A write of GO starts staging an amendment by the selected path and latches its take-stroke. The path is an
operand. -/
def execAmdGo (m : Master) (path : Bool) (s : State) : Res := regCommand m (Reg.chtAmdCtrl) (if path then 5 else 1) s

/-- AMD_ABORT (R47): A write of ABORT discards a staging or staged amendment silently. -/
def execAmdAbort (m : Master) (s : State) : Res := regCommand m (Reg.chtAmdCtrl) (2) s

/-- AMD_STAGED (R47): Staging completes and the amendment is checked, discarded as late or held for its take-stroke. The bytes
staged, and the guard and `MTAGS` of a replacement manifest, are operands. -/
def execAmdStaged (got : Option (List Byte)) (guard mtags : Nat) (s : State) : Res := onCore (amdStaged got guard mtags) s

end Sys2Proof.Machine
end

