-- ==== Sys2Proof/Machine/PortCmds.lean ====
section
/-! DEFINITION. The meanings of the commands of ports and what runs over them (chapters 5 and 6). -/

namespace Sys2Proof.Machine

/-- DETECT_DONE (R104): Signal energy and 16 aligned commas move a port from DETECT to TRAIN. -/
def execDetectDone (p : Fin 512) (s : State) : Res := onMatrix (detectDone p) s

/-- TRAIN_DONE (R104): A lane or group completes training and moves to NEGOTIATE. Whether the pair arrives inverted is an
operand. -/
def execTrainDone (p : Fin 512) (inverted : Bool) (s : State) : Res := onMatrix (trainDone p inverted) s

/-- TRAIN_TIMEOUT (R107): TRAIN has not completed in 100 ms and the port or group returns to DETECT or falls to width 1. Whether
the lanes that locked are aligned is an operand. -/
def execTrainTimeout (p : Fin 512) (aligned : Bool) (s : State) : Res := onMatrix (trainTimeout p aligned) s

/-- NEG_TRANSMIT (R123): Each end sends a NEG message every 10 µs in NEGOTIATE. -/
def execNegTransmit (p : Fin 512) (s : State) : Res := onMatrix (negTransmit p) s

/-- NEGOTIATE_DONE (R124): Negotiation completes and the port enables features and enters RUN or steps. -/
def execNegotiateDone (p : Fin 512) (s : State) : Res := onMatrix (negotiateDone p) s

/-- NEGOTIATE_TIMEOUT (R104): NEGOTIATE has not completed in 50 ms and the port returns to DETECT. -/
def execNegotiateTimeout (p : Fin 512) (s : State) : Res := onMatrix (negotiateTimeout p) s

/-- STEP_DONE (R105): Training at the new rate completes and the eye is checked against the margin. The measured eye is an
operand. -/
def execStepDone (p : Fin 512) (eye : Nat) (s : State) : Res := onMatrix (stepDone p eye) s

/-- STEP_TIMEOUT (R105): Training at the new rate has not completed in 50 ms and the port falls back one step. -/
def execStepTimeout (p : Fin 512) (s : State) : Res := onMatrix (stepTimeout p) s

/-- RATE_AGREE_TIMEOUT (R148): No rate offer has been answered in 50 ms and the step fails without a rate change. -/
def execRateAgreeTimeout (p : Fin 512) (s : State) : Res := onMatrix (rateAgreeTimeout p) s

/-- STEP_RETRY (R106): Ten seconds after a failed step the port attempts it again or defers it. -/
def execStepRetry (p : Fin 512) (s : State) : Res := onMatrix (stepRetry p) s

/-- LANE_LOCK_LOSS (R100): A lane in RUN loses lock, and an unbonded port retrains or a group stops packets. -/
def execLaneLockLoss (p : Fin 512) (s : State) : Res := onMatrix (laneLockLoss p) s

/-- RETRAIN_TIMEOUT (R101): An unbonded port has not retrained in 100 ms and falls back one rate step. -/
def execRetrainTimeout (p : Fin 512) (s : State) : Res := onMatrix (retrainTimeout p) s

/-- LANE_RELOCK (R112): A lost lane of a group relocks. -/
def execLaneRelock (p : Fin 512) (s : State) : Res := onMatrix (laneRelock p) s

/-- BUOY_RECEIVED (R110): A buoy arrives and the group deskews and realigns its lanes. The measured skew, and the
lane index and the count that the buoy carries, are operands. -/
def execBuoyReceived (p : Fin 512) (skew : Nat) (index : Fin 8) (count : BitVec 16) (s : State) : Res :=
  onMatrix (buoyReceived p skew index count.toNat) s

/-- GROUP_NARROW (R113): At the eighth boundary after a lane loss the group narrows to its good lanes. -/
def execGroupNarrow (p : Fin 512) (s : State) : Res := onMatrix (groupNarrow p) s

/-- WIDEN (R114): A write of PRT_nnn_CTRL.WIDEN widens a narrowed group from the next boundary. -/
def execWiden (m : Master) (p : Fin 512) (s : State) : Res := regCommand m (Reg.prtCtrl p) (0x8) s

/-- RETRAIN (R104): A write of RETRAIN returns the port or group to DETECT. -/
def execRetrain (m : Master) (p : Fin 512) (s : State) : Res := regCommand m (Reg.prtCtrl p) (0x20) s

/-- RESTEP (R106): A write of RESTEP clears step attempts and schedules the step 10 s later. -/
def execRestep (m : Master) (p : Fin 512) (s : State) : Res := regCommand m (Reg.prtCtrl p) (0x10) s

/-- IDLE_ENTER (R102): A write of IDLE_ENTER sends K23.7 and puts the transmitter into electrical idle. -/
def execIdleEnter (m : Master) (p : Fin 512) (s : State) : Res := regCommand m (Reg.prtCtrl p) (0x1) s

/-- IDLE_EXIT (R103): A write of IDLE_EXIT sends the fast-exit burst and resumes traffic. -/
def execIdleExit (m : Master) (p : Fin 512) (s : State) : Res := regCommand m (Reg.prtCtrl p) (0x2) s

/-- RX_IDLE_ENTRY (R102): A receiver decodes K23.7, squelches its input and freezes its adaptation. -/
def execRxIdleEntry (p : Fin 512) (s : State) : Res := onMatrix (rxIdleEntry p) s

/-- RX_IDLE_EXIT (R103): Signal energy returns and the receiver aligns commas from the fast-exit burst. -/
def execRxIdleExit (p : Fin 512) (s : State) : Res := onMatrix (rxIdleExit p) s

/-- IDLE_EXIT_TIMEOUT (R103): No comma alignment 100 µs after energy returns sends the port back to TRAIN. -/
def execIdleExitTimeout (p : Fin 512) (s : State) : Res := onMatrix (idleExitTimeout p) s

/-- PRBS_CTRL_WRITE (R115): A write of PRBS control enables a generator or checker, or is refused. -/
def execPrbsCtrlWrite (m : Master) (p : Fin 512) (w : Word) (s : State) : Res := regCommand m (Reg.prtPrbsCtrl p) (w) s

/-- EYE_SCAN (R116): A write of GO starts an eye scan of the selected lane. -/
def execEyeScan (m : Master) (o : Fin 64) (w : Word) (s : State) : Res := regCommand m (Reg.prtOctEyeCtrl o) (w ||| 1) s

/-- EYE_SCAN_DONE (R116): An eye scan completes and reports height and width. The measured height and width are operands. -/
def execEyeScanDone (o : Fin 64) (height : Nat) (width : Nat) (s : State) : Res := onMatrix (eyeScanDone o height width) s

/-- RB_CFG_WRITE (R118): A write assigns a read-back receiver to a port, or is ignored when locked. -/
def execRbCfgWrite (m : Master) (k : Fin 32) (w : Word) (s : State) : Res := regCommand m (Reg.prtRbCfg k) (w) s

/-- EXTEST (R119): An IEEE 1149.6 EXTEST instruction gives the TAP control of the port pads. Whether the TAP takes or gives back
the pads is the operand. -/
def execExtest (on : Bool) (s : State) : Res := always (extest on) s

/-- PACKET_RECEIVED (R136): A whole packet or message arrives and is checked, classified and placed. What arrived is the
operand. -/
def execPacketReceived (r : RxIn) (s : State) : Res := onCore (packetReceived r) s

/-- XACT_TIMEOUT (R143): A transaction without a response is retried or fails. -/
def execXactTimeout (p : Fin 512) (tag : Fin 256) (s : State) : Res := onMatrix (xactTimeout p tag) s

/-- HX_READ (R152): A host transaction command issues a READ at the far end. -/
def execHxRead (m : Master) (p : Fin 512) (len : BitVec 5) (s : State) : Res := regCommand m (Reg.prtHxCmd p) (hxWord 0 len) s

/-- HX_WRITE (R152): A host transaction command issues a WRITE at the far end, refused on watch ports. -/
def execHxWrite (m : Master) (p : Fin 512) (len : BitVec 5) (s : State) : Res := regCommand m (Reg.prtHxCmd p) (hxWord 1 len) s

/-- HX_READ_ID (R152): A host transaction command issues a READ_ID at the far end. -/
def execHxReadId (m : Master) (p : Fin 512) (len : BitVec 5) (s : State) : Res := regCommand m (Reg.prtHxCmd p) (hxWord 2 len) s

/-- HX_WRITE_ID (R152): A host transaction command issues a WRITE_ID at the far end, refused on watch ports. -/
def execHxWriteId (m : Master) (p : Fin 512) (len : BitVec 5) (s : State) : Res := regCommand m (Reg.prtHxCmd p) (hxWord 3 len) s

/-- PULL_CFG_WRITE (R133): A write of PULL_CFG sets phase pull at the far end from the next boundary. -/
def execPullCfgWrite (m : Master) (p : Fin 512) (w : Word) (s : State) : Res := regCommand m (Reg.prtPullCfg p) (w) s

/-- RW_KEY (R149): A write of the rough-water key arms the port when every condition holds. -/
def execRwKey (m : Master) (p : Fin 512) (w : Word) (s : State) : Res := regCommand m (Reg.prtRwKey p) (w) s

/-- RW_CTRL_WRITE (R150): A write of rough-water control selects injected faults or disarms the port. -/
def execRwCtrlWrite (m : Master) (p : Fin 512) (w : Word) (s : State) : Res := regCommand m (Reg.prtRwCtrl p) (setFld w 23 23 0) s

/-- RW_LOSS_GO (R150): A write of LOSS_GO forces one lane loss on an armed port. -/
def execRwLossGo (m : Master) (p : Fin 512) (w : Word) (s : State) : Res := regCommand m (Reg.prtRwCtrl p) (setFld w 23 23 1) s

/-- INVALID_SYMBOL (R97): A receive lane decodes a symbol outside any packet or marker that is not a valid code word, breaks
disparity or is K28.4 or K28.6, and counts it in CODE_ERR. -/
def execInvalidSymbol (p : Fin 512) (s : State) : Res := onMatrix (invalidSymbol p) s

/-- PRBS_CHECKER_SYNC (R115): An enabled PRBS checker synchronises to the incoming pattern within 64 bits and sets SYNC before
counting bit errors. The bits and the errors counted since are operands. -/
def execPrbsCheckerSync (p : Fin 512) (bits : Nat) (errs : Nat) (s : State) : Res := onMatrix (prbsCheckerSync p bits errs) s

/-- RB_SYNC_LOST (R117): A read-back receiver's own CDR loses sync on the transmit pad it watches, which removes level B for the
frame. -/
def execRbSyncLost (k : Fin 32) (s : State) : Res := onMatrix (rbSyncLost k) s

/-- RB_SYNC_GAINED (R118): A read-back receiver acquires sync on its assigned transmit lane, within 10 µs typ. of assignment or
after a loss. -/
def execRbSyncGained (k : Fin 32) (s : State) : Res := onMatrix (rbSyncGained k) s

end Sys2Proof.Machine
end

