-- ==== Sys2Proof/Machine/PowerCmds.lean ====
section
/-! DEFINITION. The meanings of the commands of thermal control, power and reset (chapters 17 and 18). -/

namespace Sys2Proof.Machine

/-- PFI_FALL (R399): PFI_N low for 20 µs signals power-down and the light die snapshots and flushes keep RAM. -/
def execPfiFall (s : State) : Res := onPin (fun p => { p with pfiN := false }) pfiFall s

/-- PFI_RISE (R432): PFI_N returns high. -/
def execPfiRise (s : State) : Res := onPin (fun p => { p with pfiN := true }) pfiRise s

/-- VDD_LD_LOW (R399): The VDD_LD monitor sees VDD_LD below 3.15 V and signals power-down. -/
def execVddLdLow (s : State) : Res := onLightDie (State.powerFail · 1) s

/-- VDD_LD_COLLAPSE (R390): VDD_LD falls below 2.80 V and the light die stops, tearing any page in progress. Where a page in
progress was is the operand. -/
def execVddLdCollapse (cut : PageCut) (s : State) : Res := always (vddLdCollapse cut) s

/-- VDD_LD_RISE (R425): VDD_LD rises above 3.20 V and the light die starts and fills keep RAM from storage. -/
def execVddLdRise (s : State) : Res := always vddLdRise s

/-- POWER_FAIL_RESTART (R432): With the flush done, 100 ms passed and supplies good, the light die powers up or stays asleep. -/
def execPowerFailRestart (s : State) : Res := onLightDie powerFailRestart s

/-- THM_SAMPLE (R412): The monitor samples every sensor and counts threshold assertion and release. The temperatures sensed are
the operand. -/
def execThmSample (temps : List Sensed) (s : State) : Res := onMatrix (thmSampleAll temps) s

/-- THM_OFFSET_UPDATE (R408): Once per second each group offset moves towards its anchor. -/
def execThmOffsetUpdate (s : State) : Res := onMatrix thmOffsetUpdate s

/-- LD_THM_SAMPLE (R416): The light die samples the anchor and its own diodes and judges shutdown and overtemperature. The
temperatures sensed are the operand. -/
def execLdThmSample (temps : List Sensed) (s : State) : Res := onLightDie (ldThmSample temps) s

/-- THERMAL_RESTART (R417): After cooling for at least 1 s the light die restarts the matrix die or stays off. -/
def execThermalRestart (s : State) : Res := onLightDie thermalRestart s

/-- LIGHT_DIE_RESUME (R419): The comparator reads below 125 °C for 1 s and the light die restarts. -/
def execLightDieResume (s : State) : Res := always lightDieResume s

/-- THRESHOLD_WRITE (R411): A write of a thermal threshold is accepted or ignored whole. -/
def execThresholdWrite (m : Master) (t : Threshold) (w : Word) (s : State) : Res := regCommand m (thresholdReg t) (w) s

/-- WAKE_ACTIVE (R427): An accepted active WAKE powers up the matrix die and clears any lockout. -/
def execWakeActive (s : State) : Res := onLightDie State.wakeActive s

/-- WAKE_INACTIVE (R429): An accepted inactive WAKE starts the sleep delay. -/
def execWakeInactive (s : State) : Res := onLightDie State.wakeInactive s

/-- SLEEP_DELAY_EXPIRY (R429): The sleep delay ends and the device sends K23.7, resets and powers down the matrix die. -/
def execSleepDelayExpiry (s : State) : Res := onLightDie sleepDelayExpiry s

/-- SLEEP_STAY_LIMIT (R429): Sixty seconds after WAKE went inactive a sleep held by STAY starts. -/
def execSleepStayLimit (s : State) : Res := onLightDie sleepStayLimit s

/-- PG_GOOD (R427): A PG_IN reads good and the next enable rises 0.5 ms later. -/
def execPgGood (n : Fin 4) (s : State) : Res := onLightDie (pgGood n) s

/-- PWR_EN_RISE (R427): The next PWR_EN output rises after its delay. -/
def execPwrEnRise (s : State) : Res := onLightDie pwrEnRise s

/-- PG_TIMEOUT (R428): A PG_IN has not read good 20 ms after its enable and the matrix die powers down. -/
def execPgTimeout (n : Fin 4) (s : State) : Res := onLightDie (pgTimeout n) s

/-- PG_RETRY (R428): One second after a power-good failure the light die tries the power-up again. -/
def execPgRetry (s : State) : Res := onLightDie pgRetry s

/-- SUPPLY_FAULT (R431): A PG_IN reads low after having read good and the light die resets and powers down. -/
def execSupplyFault (n : Fin 4) (s : State) : Res := onLightDie (supplyFault n) s

/-- SUPPLY_RESTART (R431): One hundred milliseconds after a supply-fault power-down the light die powers up or stays asleep. -/
def execSupplyRestart (s : State) : Res := onLightDie supplyRestart s

/-- POWERDOWN_STEP (R430): In an ordered power-down the next enable drops when the previous PG_IN reads low or 5 ms pass. -/
def execPowerdownStep (s : State) : Res := onLightDie powerdownStep s

/-- POWERDOWN_WAKE_RESTART (R434): WAKE returned during an ordered power-down, and 100 ms after PWR_EN_0 dropped the light die
powers up under R427. -/
def execPowerdownWakeRestart (s : State) : Res := onLightDie powerdownWakeRestart s

/-- RESET_RELEASE (R427): The reset hold ends, the matrix die leaves reset, samples straps and starts the loader and boot
synthesizers. The straps and the PCIe clocking are operands. -/
def execResetRelease (straps : BitVec 4) (sris : Bool) (s : State) : Res := onLightDie (resetRelease straps sris) s

/-- RESET_PIN_ASSERT (R437): RESET_N low for at least 10 µs puts the powered matrix die into reset. -/
def execResetPinAssert (s : State) : Res := onPin (fun p => { p with resetN := false }) resetPinAssert s

/-- RESET_PIN_RELEASE (R437): RESET_N returns high and the reset exit delay starts. -/
def execResetPinRelease (s : State) : Res := onPin (fun p => { p with resetN := true }) resetPinRelease s

/-- RESET_EXIT (R437): One millisecond after a reset ends the matrix die leaves reset. The straps and the PCIe clocking are
operands. -/
def execResetExit (straps : BitVec 4) (sris : Bool) (s : State) : Res := onLightDie (resetExit straps sris) s

/-- WARM_RESET_KEY_FIRST (R439): The first write of the warm-reset key opens a 1 ms window. -/
def execWarmResetKeyFirst (m : Master) (s : State) : Res := regCommand m (Reg.pwrReset) (0x7A3E0000) s

/-- WARM_RESET (R439): The second warm-reset key write starts a host warm reset. -/
def execWarmReset (m : Master) (s : State) : Res := regCommand m (Reg.pwrReset) (0x3E7A0001) s

/-- WDT_ENABLE (R440): A write of 1 to PWR_WDT_CFG.EN enables the watchdog with the timeout in force. -/
def execWdtEnable (m : Master) (w : Word) (s : State) : Res := regCommand m (Reg.pwrWdtCfg) (w ||| 0x80000000) s

/-- WDT_KICK (R440): A write of 0xC0A5 to PWR_WDT_KICK restarts the count. -/
def execWdtKick (m : Master) (s : State) : Res := regCommand m (Reg.pwrWdtKick) (0xC0A5) s

/-- WDT_BAD_KICK (R440): A write of any other value to an enabled watchdog's kick expires it at once. The wrong value is an
operand. -/
def execWdtBadKick (m : Master) (v : BitVec 16) (s : State) : Res := regCommand m (Reg.pwrWdtKick) (v.setWidth 32) s

/-- WDT_WARN (R440): Half the watchdog timeout passes without a kick. -/
def execWdtWarn (s : State) : Res := onLightDie wdtWarn s

/-- WDT_EXPIRY (R440): The watchdog expires and resets the matrix die. -/
def execWdtExpiry (s : State) : Res := onLightDie wdtExpire s

/-- LOCKSTEP_MISMATCH (R436): A lockstep mismatch in a management pair causes a watchdog reset. -/
def execLockstepMismatch (s : State) : Res := onCore lockstepMismatch s

end Sys2Proof.Machine
end

