-- ==== Sys2Proof/Machine/QuayCmds.lean ====
section
/-! DEFINITION. The meanings of the commands of the quay, the host interfaces, DMA, events and the register space (chapters 19
and 20). -/

namespace Sys2Proof.Machine

/-- PCIE_MEM_WRITE (R447): A host memory write TLP is issued to the quay with ID 0. The BAR, the offset, the bytes, and whether
the response is still outstanding, are operands. -/
def execPcieMemWrite (bar2 : Bool) (o : BitVec 32) (bs : List Byte) (late : Bool) (s : State) : Res :=
  always (pcieMemWrite bar2 o.toNat bs late) s

/-- PCIE_MEM_READ (R447): A host memory read TLP is issued to the quay with ID 0 and completed. The BAR, the offset, the length,
and whether the response is still outstanding, are operands. -/
def execPcieMemRead (bar2 : Bool) (o : BitVec 32) (n : Nat) (late : Bool) (s : State) : Res :=
  always (pcieMemRead bar2 o.toNat n late) s

/-- PCIE_LINK_UP (R472): The PCIe link enters L0 from down. The negotiated width and speed, as QUAY_PCIE_STAT codes them, are
operands. -/
def execPcieLinkUp (lanes : Fin 8) (speed : Fin 8) (s : State) : Res := onMatrix (pcieLinkUp lanes speed) s

/-- PCIE_LINK_DOWN (R453): The PCIe link goes down and the endpoint master resets mid-burst. The part of a write burst that the
target had accepted is an operand. -/
def execPcieLinkDown (bar2 : Bool) (o : BitVec 32) (accepted : List Byte) (s : State) : Res :=
  always (pcieLinkDown bar2 o.toNat accepted) s

/-- PCIE_COMPLETION_TIMEOUT (R458): A request to host memory waits 10 ms without completion and returns an error to its master.
The master whose request waits, and the event writer's ring, are operands. -/
def execPcieCompletionTimeout (m : Master) (ring : Fin 4) (s : State) : Res := onCore (pcieCompletionTimeout m ring) s

/-- QSPI_WRITE (R459): QSPI opcode 0x02 writes words to the first BAR's layout. -/
def execQspiWrite (o : BitVec 32) (bs : List Byte) (late : Bool) (s : State) : Res := onCore (qspiWrite o bs late) s

/-- QSPI_READ (R459): QSPI opcode 0x0B reads words from the first BAR's layout. -/
def execQspiRead (o : BitVec 32) (n : Nat) (ready : Bool) (s : State) : Res := onCore (qspiRead o n ready) s

/-- QSPI_WRITE_BAR2 (R459): QSPI opcode 0x12 writes words to the second BAR's layout. -/
def execQspiWriteBar2 (o : BitVec 32) (bs : List Byte) (late : Bool) (s : State) : Res := onCore (qspiWriteBar2 o bs late) s

/-- QSPI_READ_BAR2 (R459): QSPI opcode 0x1B reads words from the second BAR's layout. -/
def execQspiReadBar2 (o : BitVec 32) (n : Nat) (ready : Bool) (s : State) : Res := onCore (qspiReadBar2 o n ready) s

/-- QSPI_READ_STATUS (R459): QSPI opcode 0x05 returns the status byte. -/
def execQspiReadStatus (s : State) : Res := onCore qspiReadStatus s

/-- QSPI_CS_RELEASE (R453): QSPI_CS_N released during a transaction resets the QSPI master. The part of a write that the target
had accepted is an operand. -/
def execQspiCsRelease (bar2 : Bool) (o : BitVec 32) (accepted : List Byte) (s : State) : Res :=
  onCore (qspiCsRelease bar2 o.toNat accepted) s

/-- I2C_WRITE (R460): An I²C write transfer sets the offset and writes data words. -/
def execI2cWrite (o : BitVec 32) (bs : List Byte) (late : Bool) (s : State) : Res := onCore (i2cWrite o bs late) s

/-- I2C_READ (R460): An I²C read after a repeated START returns data bytes. -/
def execI2cRead (n : Nat) (late : Bool) (s : State) : Res := onCore (i2cRead n late) s

/-- I2C_ABORT (R453): A STOP or 25 ms bus timeout during a transaction resets the I²C master. The part of a write that the
target had accepted is an operand. -/
def execI2cAbort (o : BitVec 32) (accepted : List Byte) (s : State) : Res := onCore (i2cAbort o.toNat accepted) s

/-- HELD_REQUEST_ISSUE (R448): A quay request held back is issued once its condition clears. -/
def execHeldRequestIssue (m : Master) (late : Bool) (s : State) : Res := onCore (heldRequestIssue m late) s

/-- QUAY_WWIN_WRITE (R456): A write of QUAY_WWIN moves the BAR2 working window. -/
def execQuayWwinWrite (m : Master) (w : Word) (s : State) : Res := regCommand m (Reg.quayWwin) (w) s

/-- DMA_GO (R462): A write of GO starts a DMA chain at its head descriptor. -/
def execDmaGo (m : Master) (n : Fin 8) (s : State) : Res := regCommand m (Reg.dmaCtrl n) (1) s

/-- DMA_ABORT (R453): A write of ABORT resets a DMA channel mid-burst. The part of a write burst that the target had accepted is
an operand. -/
def execDmaAbort (m : Master) (n : Fin 8) (o : BitVec 64) (accepted : List Byte) (s : State) : Res :=
  onCore (dmaAbort m n o.toNat accepted) s

/-- DMA_DESCRIPTOR (R462): A DMA channel copies a descriptor's lines, reads NEXT and raises DMA_DONE or stops on error. What
host memory holds where the channel reads it, and whether the host refuses, are operands. -/
def execDmaDescriptor (n : Fin 8) (host : List (Nat × Byte)) (fails : Bool) (s : State) : Res :=
  onCore (dmaDescriptor n host fails) s

/-- EVENT_RECORD_WRITTEN (R467): The event writer's record write gets its response and WP advances. -/
def execEventRecordWritten (r : Fin 4) (s : State) : Res := onCore (eventRecordWritten r) s

/-- RING_RP_WRITE (R467): A write of a ring's RP frees slots, releases its pin and may emit an overflow record. -/
def execRingRpWrite (m : Master) (r : Fin 4) (w : Word) (s : State) : Res := regCommand m (Reg.evtRingRp r) (w) s

/-- RING_ENABLE (R468): Enabling a ring first drains the boot buffer's records routed to it. -/
def execRingEnable (m : Master) (r : Fin 4) (w : Word) (s : State) : Res := regCommand m (Reg.evtRingCfg r) (w ||| 0x80000000) s

/-- MSI_COALESCE_TIMER (R469): The coalescing time after the first unsignalled record expires and the ring sends its vector. -/
def execMsiCoalesceTimer (r : Fin 4) (s : State) : Res := onCore (msiCoalesceTimer r) s

/-- CNT_CLEAR (R483): A write of GLB_CNT_CLEAR.GO requests a counter clear at the next boundary. -/
def execCntClear (m : Master) (w : Word) (s : State) : Res := regCommand m (Reg.glbCntClear) (w ||| 0x80000000) s

/-- IF_DECLARE (R486): A write of GLB_IF_HOST declares the host's interface version or is refused. -/
def execIfDeclare (m : Master) (w : Word) (s : State) : Res := regCommand m (Reg.glbIfHost) (w) s

/-- LO_READ (R477): A read of a _LO register fills the reading master's latch with the high half. The address of the register is
an operand. -/
def execLoRead (m : Master) (a : BitVec 26) (s : State) : Res := onCore (readAndAnswer m a.toNat) s

/-- REGISTER_WRITE (R476): A write to a register without a row of its own sets its fields or is discarded under the interface,
early-write and lock rules. The word-aligned address is an operand. -/
def execRegisterWrite (m : Master) (a : BitVec 26) (w : Word) (s : State) : Res := regCommand m (a.toNat / 4 * 4) (w) s

end Sys2Proof.Machine
end

