-- ==== Sys2Proof/Machine/Strokes.lean ====
section
/-! DEFINITION. The meanings of the commands of strokes, the Cox, stroke markers and the synthesizers (chapters 1, 3, 4, 6). -/

namespace Sys2Proof.Machine

/-- STROKE_BOUNDARY (R14): The stroke period expires and the device runs the ordered steps of the stroke boundary. What the
phase measurement of the Cox finds for its references is the operand. -/
def execStrokeBoundary (ps : List RefPhase) (s : State) : Res := onMatrix (strokeBoundary ps) s

/-- COX_GATE (R57): A 1 s frequency gate ends and the Cox updates alarms, qualification, selection and lock. What the gate
measured is the operand. -/
def execCoxGate (g : GateIn) (s : State) : Res := onMatrix (coxGate g) s

/-- REF_ACTIVITY_LOSS (R53): A reference's activity monitor declares loss and the reference is disqualified. -/
def execRefActivityLoss (n : Fin 8) (s : State) : Res := onMatrix (State.activityLoss · n) s

/-- REF_ACTIVITY_RETURN (R53): An edge or marker arrives on a reference whose activity monitor had declared loss, so its
activity bit sets again. -/
def execRefActivityReturn (n : Fin 8) (s : State) : Res := onMatrix (State.activityBack · n) s

/-- QL_MESSAGE (R55): A QL byte received on a QL_IN pin is validated and may change the QL in force. The byte, and whether its
framing was right, are operands. -/
def execQlMessage (n : Fin 8) (byte : BitVec 8) (framed : Bool) (s : State) : Res := onMatrix (qlMessage n byte framed) s

/-- QL_TIMEOUT (R55): No valid QL message for 5 s returns the reference to its register QL. -/
def execQlTimeout (n : Fin 8) (s : State) : Res := onMatrix (qlTimeout n) s

/-- COX_SEL_WRITE (R63): A write of COX_SEL names the manual choice and may start a switch. -/
def execCoxSelWrite (m : Master) (w : Word) (s : State) : Res := regCommand m (Reg.coxSel) (w) s

/-- COX_MANUAL (R61): COX_CTRL.MODE set to MANUAL runs the selection rules. The other fields are the operand's. -/
def execCoxManual (m : Master) (w : Word) (s : State) : Res := regCommand m (Reg.coxCtrl) (setFld w 1 0 0) s

/-- COX_FORCE_HOLD (R61): COX_CTRL.MODE set to FORCE_HOLD enters HOLDOVER or FREE_RUN. The other fields are the operand's. -/
def execCoxForceHold (m : Master) (w : Word) (s : State) : Res := regCommand m (Reg.coxCtrl) (setFld w 1 0 1) s

/-- COX_FORCE_FREE (R61): COX_CTRL.MODE set to FORCE_FREE enters FREE_RUN. The other fields are the operand's. -/
def execCoxForceFree (m : Master) (w : Word) (s : State) : Res := regCommand m (Reg.coxCtrl) (setFld w 1 0 2) s

/-- WTR_EXPIRY (R63): A wait-to-restore timer expires and a switch to the restored winner follows. -/
def execWtrExpiry (n : Fin 8) (s : State) : Res := onMatrix (wtrExpiry n) s

/-- SLEW_GO (R65): A write of GO starts a phase slew or adds to the one in progress. -/
def execSlewGo (m : Master) (w : Word) (s : State) : Res := regCommand m (Reg.coxSlewCtrl) (w ||| 0x10000) s

/-- SLEW_DONE (R65): The slew has applied its whole change and clears BUSY. -/
def execSlewDone (s : State) : Res := onMatrix slewDone s

/-- HOLD_VALID (R69): The Cox has been LOCKED for 10 s in total and a holdover value becomes available. -/
def execHoldValid (s : State) : Res := onMatrix holdValid s

/-- TCOMP_UPDATE (R72): The Cox recomputes temperature compensation at 10 Hz. -/
def execTcompUpdate (s : State) : Res := onMatrix tcompUpdate s

/-- COX_STEER_WRITE (R71): A write of COX_STEER sets the signed steering, clipped to its limit. -/
def execCoxSteerWrite (m : Master) (w : Word) (s : State) : Res := regCommand m (Reg.coxSteer) (w) s

/-- SYNC_OUT_PULSE_END (R74): WIDTH µs after a stroke boundary an active SYNC_OUT pulse ends and the pin returns to its inactive
level. -/
def execSyncOutPulseEnd (n : Fin 2) (s : State) : Res := onMatrix (syncPulseEnd n) s

/-- MARKER_RECEIVED (R132): A stroke marker arrives, is timestamped and checked, and drives phase pull, link references and
stroke-number adoption. The bytes received and the code errors in them are operands. -/
def execMarkerReceived (p : Fin 512) (bs : List Byte) (errs : Nat) (s : State) : Res := onMatrix (markerReceived p bs errs) s

/-- MARKER_MISSING (R53): An expected stroke marker fails to arrive and counts as missing. -/
def execMarkerMissing (p : Fin 512) (s : State) : Res := onMatrix (markerMissing p) s

/-- SYN_LOCK (R85): A synthesizer declares lock and unmutes its output or relocks from coast. -/
def execSynLock (k : Fin 136) (s : State) : Res := onMatrix (synLock k) s

/-- SYN_LOCK_LOSS (R87): A locked synthesizer loses lock or reference and coasts. Whether the reference was lost is an operand.
-/
def execSynLockLoss (k : Fin 136) (refLost : Bool) (s : State) : Res := onMatrix (synLockLoss k refLost) s

/-- SYN_FERR_MEASURE (R87): A coasting synthesizer measures its output error every 1,024 reference cycles. The measured error is
an operand. -/
def execSynFerrMeasure (k : Fin 136) (err : Int) (s : State) : Res := onMatrix (synFerrMeasure k err) s

/-- SYN_RELOCK (R90): A write of RELOCK stops the domains, re-chooses the band and re-acquires. -/
def execSynRelock (m : Master) (k : Fin 136) (s : State) : Res := regCommand m (Reg.synCtrl k) (1) s

end Sys2Proof.Machine
end

