-- ==== Sys2Proof/Machine/Dispatch.lean ====
section
/-! DEFINITION. One arm per command: each calls the meaning of that command. -/

namespace Sys2Proof.Machine

def exec (i : Instr) (s : State) : Host.Outcome State Fault Refusal :=
  match i with
  | .strokeBoundary ps => Sys2Proof.Machine.execStrokeBoundary ps s
  | .deadline => Sys2Proof.Machine.execDeadline s
  | .manifestRecordStart r => Sys2Proof.Machine.execManifestRecordStart r s
  | .engineTakeJob e => Sys2Proof.Machine.execEngineTakeJob e s
  | .crewTakeJob c => Sys2Proof.Machine.execCrewTakeJob c s
  | .crewLineRoute c => Sys2Proof.Machine.execCrewLineRoute c s
  | .engHeldWrite e => Sys2Proof.Machine.execEngHeldWrite e s
  | .nop e f => Sys2Proof.Machine.execNop e f s
  | .br e f => Sys2Proof.Machine.execBr e f s
  | .loop e f => Sys2Proof.Machine.execLoop e f s
  | .jend e f => Sys2Proof.Machine.execJend e f s
  | .jfld e f => Sys2Proof.Machine.execJfld e f s
  | .tsig e f => Sys2Proof.Machine.execTsig e f s
  | .vld e f => Sys2Proof.Machine.execVld e f s
  | .vst e f => Sys2Proof.Machine.execVst e f s
  | .vlds e f => Sys2Proof.Machine.execVlds e f s
  | .sld e f => Sys2Proof.Machine.execSld e f s
  | .sst e f => Sys2Proof.Machine.execSst e f s
  | .qin e f => Sys2Proof.Machine.execQin e f s
  | .qout e f => Sys2Proof.Machine.execQout e f s
  | .qwait e f => Sys2Proof.Machine.execQwait e f s
  | .ldp e f => Sys2Proof.Machine.execLdp e f s
  | .vadd e f => Sys2Proof.Machine.execVadd e f s
  | .vsub e f => Sys2Proof.Machine.execVsub e f s
  | .vmin e f => Sys2Proof.Machine.execVmin e f s
  | .vmax e f => Sys2Proof.Machine.execVmax e f s
  | .vabsd e f => Sys2Proof.Machine.execVabsd e f s
  | .vsh e f => Sys2Proof.Machine.execVsh e f s
  | .vlog e f => Sys2Proof.Machine.execVlog e f s
  | .vmov e f => Sys2Proof.Machine.execVmov e f s
  | .vmul e f => Sys2Proof.Machine.execVmul e f s
  | .sadd e f => Sys2Proof.Machine.execSadd e f s
  | .ssub e f => Sys2Proof.Machine.execSsub e f s
  | .smul e f => Sys2Proof.Machine.execSmul e f s
  | .sand e f => Sys2Proof.Machine.execSand e f s
  | .sor e f => Sys2Proof.Machine.execSor e f s
  | .ssh e f => Sys2Proof.Machine.execSsh e f s
  | .smov e f => Sys2Proof.Machine.execSmov e f s
  | .mac e f => Sys2Proof.Machine.execMac e f s
  | .msu e f => Sys2Proof.Machine.execMsu e f s
  | .aset e f => Sys2Proof.Machine.execAset e f s
  | .ard e f => Sys2Proof.Machine.execArd e f s
  | .asum e f => Sys2Proof.Machine.execAsum e f s
  | .vperm e f => Sys2Proof.Machine.execVperm e f s
  | .vsld e f => Sys2Proof.Machine.execVsld e f s
  | .vilv e f => Sys2Proof.Machine.execVilv e f s
  | .vext e f => Sys2Proof.Machine.execVext e f s
  | .vlut e f => Sys2Proof.Machine.execVlut e f s
  | .vluti e f => Sys2Proof.Machine.execVluti e f s
  | .vcmp e f => Sys2Proof.Machine.execVcmp e f s
  | .vsel e f => Sys2Proof.Machine.execVsel e f s
  | .undefinedEncoding e => Sys2Proof.Machine.execUndefinedEncoding e s
  | .qinDataArrive e => Sys2Proof.Machine.execQinDataArrive e s
  | .ldpWordArrive e => Sys2Proof.Machine.execLdpWordArrive e s
  | .postedWritesLanded e => Sys2Proof.Machine.execPostedWritesLanded e s
  | .queueXonRelease q => Sys2Proof.Machine.execQueueXonRelease q s
  | .headFrameStart h err => Sys2Proof.Machine.execHeadFrameStart h err s
  | .headLineStart h fetch broken => Sys2Proof.Machine.execHeadLineStart h fetch broken s
  | .gateLine h rb sym => Sys2Proof.Machine.execGateLine h rb sym s
  | .headCommit m h w => Sys2Proof.Machine.execHeadCommit m h w s
  | .hedSyncCommit m w => Sys2Proof.Machine.execHedSyncCommit m w s
  | .gangwayWrite m h k w => Sys2Proof.Machine.execGangwayWrite m h k w s
  | .ttPinAccept p => Sys2Proof.Machine.execTtPinAccept p s
  | .watchTiming h => Sys2Proof.Machine.execWatchTiming h s
  | .resetRelease straps sris => Sys2Proof.Machine.execResetRelease straps sris s
  | .headerRead got => Sys2Proof.Machine.execHeaderRead got s
  | .segmentRead got c => Sys2Proof.Machine.execSegmentRead got c s
  | .segmentPlaced => Sys2Proof.Machine.execSegmentPlaced s
  | .pullGo m => Sys2Proof.Machine.execPullGo m s
  | .chtPushData m k w => Sys2Proof.Machine.execChtPushData m k w s
  | .otpKeyFirst m => Sys2Proof.Machine.execOtpKeyFirst m s
  | .otpBurn m => Sys2Proof.Machine.execOtpBurn m s
  | .otpTestAllow m => Sys2Proof.Machine.execOtpTestAllow m s
  | .chtOtpData m w => Sys2Proof.Machine.execChtOtpData m w s
  | .flashKeyFirst m => Sys2Proof.Machine.execFlashKeyFirst m s
  | .flashErase m golden => Sys2Proof.Machine.execFlashErase m golden s
  | .flashProgram m golden => Sys2Proof.Machine.execFlashProgram m golden s
  | .amdGo m path => Sys2Proof.Machine.execAmdGo m path s
  | .amdAbort m => Sys2Proof.Machine.execAmdAbort m s
  | .amdStaged got guard mtags => Sys2Proof.Machine.execAmdStaged got guard mtags s
  | .coxGate g => Sys2Proof.Machine.execCoxGate g s
  | .refActivityLoss n => Sys2Proof.Machine.execRefActivityLoss n s
  | .qlMessage n byte framed => Sys2Proof.Machine.execQlMessage n byte framed s
  | .qlTimeout n => Sys2Proof.Machine.execQlTimeout n s
  | .coxSelWrite m w => Sys2Proof.Machine.execCoxSelWrite m w s
  | .coxManual m w => Sys2Proof.Machine.execCoxManual m w s
  | .coxForceHold m w => Sys2Proof.Machine.execCoxForceHold m w s
  | .coxForceFree m w => Sys2Proof.Machine.execCoxForceFree m w s
  | .wtrExpiry n => Sys2Proof.Machine.execWtrExpiry n s
  | .slewGo m w => Sys2Proof.Machine.execSlewGo m w s
  | .slewDone => Sys2Proof.Machine.execSlewDone s
  | .holdValid => Sys2Proof.Machine.execHoldValid s
  | .tcompUpdate => Sys2Proof.Machine.execTcompUpdate s
  | .coxSteerWrite m w => Sys2Proof.Machine.execCoxSteerWrite m w s
  | .markerReceived p bs errs => Sys2Proof.Machine.execMarkerReceived p bs errs s
  | .markerMissing p => Sys2Proof.Machine.execMarkerMissing p s
  | .synLock k => Sys2Proof.Machine.execSynLock k s
  | .synLockLoss k refLost => Sys2Proof.Machine.execSynLockLoss k refLost s
  | .synFerrMeasure k err => Sys2Proof.Machine.execSynFerrMeasure k err s
  | .synRelock m k => Sys2Proof.Machine.execSynRelock m k s
  | .detectDone p => Sys2Proof.Machine.execDetectDone p s
  | .trainDone p inverted => Sys2Proof.Machine.execTrainDone p inverted s
  | .trainTimeout p aligned => Sys2Proof.Machine.execTrainTimeout p aligned s
  | .negTransmit p => Sys2Proof.Machine.execNegTransmit p s
  | .negotiateDone p => Sys2Proof.Machine.execNegotiateDone p s
  | .negotiateTimeout p => Sys2Proof.Machine.execNegotiateTimeout p s
  | .stepDone p eye => Sys2Proof.Machine.execStepDone p eye s
  | .stepTimeout p => Sys2Proof.Machine.execStepTimeout p s
  | .rateAgreeTimeout p => Sys2Proof.Machine.execRateAgreeTimeout p s
  | .stepRetry p => Sys2Proof.Machine.execStepRetry p s
  | .laneLockLoss p => Sys2Proof.Machine.execLaneLockLoss p s
  | .retrainTimeout p => Sys2Proof.Machine.execRetrainTimeout p s
  | .laneRelock p => Sys2Proof.Machine.execLaneRelock p s
  | .buoyReceived p skew index count => Sys2Proof.Machine.execBuoyReceived p skew index count s
  | .groupNarrow p => Sys2Proof.Machine.execGroupNarrow p s
  | .widen m p => Sys2Proof.Machine.execWiden m p s
  | .retrain m p => Sys2Proof.Machine.execRetrain m p s
  | .restep m p => Sys2Proof.Machine.execRestep m p s
  | .idleEnter m p => Sys2Proof.Machine.execIdleEnter m p s
  | .idleExit m p => Sys2Proof.Machine.execIdleExit m p s
  | .rxIdleEntry p => Sys2Proof.Machine.execRxIdleEntry p s
  | .rxIdleExit p => Sys2Proof.Machine.execRxIdleExit p s
  | .idleExitTimeout p => Sys2Proof.Machine.execIdleExitTimeout p s
  | .prbsCtrlWrite m p w => Sys2Proof.Machine.execPrbsCtrlWrite m p w s
  | .eyeScan m o w => Sys2Proof.Machine.execEyeScan m o w s
  | .eyeScanDone o height width => Sys2Proof.Machine.execEyeScanDone o height width s
  | .rbCfgWrite m k w => Sys2Proof.Machine.execRbCfgWrite m k w s
  | .extest on => Sys2Proof.Machine.execExtest on s
  | .packetReceived r => Sys2Proof.Machine.execPacketReceived r s
  | .xactTimeout p tag => Sys2Proof.Machine.execXactTimeout p tag s
  | .hxRead m p len => Sys2Proof.Machine.execHxRead m p len s
  | .hxWrite m p len => Sys2Proof.Machine.execHxWrite m p len s
  | .hxReadId m p len => Sys2Proof.Machine.execHxReadId m p len s
  | .hxWriteId m p len => Sys2Proof.Machine.execHxWriteId m p len s
  | .pullCfgWrite m p w => Sys2Proof.Machine.execPullCfgWrite m p w s
  | .rwKey m p w => Sys2Proof.Machine.execRwKey m p w s
  | .rwCtrlWrite m p w => Sys2Proof.Machine.execRwCtrlWrite m p w s
  | .rwLossGo m p w => Sys2Proof.Machine.execRwLossGo m p w s
  | .xtbWord3Write m k w => Sys2Proof.Machine.execXtbWord3Write m k w s
  | .xtbArm m w => Sys2Proof.Machine.execXtbArm m w s
  | .xtbCancel m w => Sys2Proof.Machine.execXtbCancel m w s
  | .xformWrite m x j w => Sys2Proof.Machine.execXformWrite m x j w s
  | .quePush m q w => Sys2Proof.Machine.execQuePush m q w s
  | .quePushRelease q => Sys2Proof.Machine.execQuePushRelease q s
  | .quePop m q => Sys2Proof.Machine.execQuePop m q s
  | .hwmClr m q => Sys2Proof.Machine.execHwmClr m q s
  | .slipCommit m k => Sys2Proof.Machine.execSlipCommit m k s
  | .audBlockClose tdm => Sys2Proof.Machine.execAudBlockClose tdm s
  | .audBlockSend => Sys2Proof.Machine.execAudBlockSend s
  | .audCommit m w => Sys2Proof.Machine.execAudCommit m w s
  | .tdmFrameError n => Sys2Proof.Machine.execTdmFrameError n s
  | .lightMessage => Sys2Proof.Machine.execLightMessage s
  | .lightMsgTimeout => Sys2Proof.Machine.execLightMsgTimeout s
  | .pwmPeriod x => Sys2Proof.Machine.execPwmPeriod x s
  | .boostOvervoltage => Sys2Proof.Machine.execBoostOvervoltage s
  | .boostRestart => Sys2Proof.Machine.execBoostRestart s
  | .neighbourTest high => Sys2Proof.Machine.execNeighbourTest high s
  | .retest m n => Sys2Proof.Machine.execRetest m n s
  | .lampBoardPoll n serial => Sys2Proof.Machine.execLampBoardPoll n serial s
  | .identRecordRead u board => Sys2Proof.Machine.execIdentRecordRead u board s
  | .ledgerAdvance => Sys2Proof.Machine.execLedgerAdvance s
  | .nvsRead m => Sys2Proof.Machine.execNvsRead m s
  | .nvsWrite m => Sys2Proof.Machine.execNvsWrite m s
  | .nvsRecRead m => Sys2Proof.Machine.execNvsRecRead m s
  | .nvsRecWrite m => Sys2Proof.Machine.execNvsRecWrite m s
  | .nvsBadOp m op => Sys2Proof.Machine.execNvsBadOp m op s
  | .nvsPageDone low => Sys2Proof.Machine.execNvsPageDone low s
  | .ledgersWrite => Sys2Proof.Machine.execLedgersWrite s
  | .pfiFall => Sys2Proof.Machine.execPfiFall s
  | .pfiRise => Sys2Proof.Machine.execPfiRise s
  | .vddLdLow => Sys2Proof.Machine.execVddLdLow s
  | .vddLdCollapse cut => Sys2Proof.Machine.execVddLdCollapse cut s
  | .vddLdRise => Sys2Proof.Machine.execVddLdRise s
  | .keepFlushDone => Sys2Proof.Machine.execKeepFlushDone s
  | .powerFailRestart => Sys2Proof.Machine.execPowerFailRestart s
  | .thmSample temps => Sys2Proof.Machine.execThmSample temps s
  | .thmOffsetUpdate => Sys2Proof.Machine.execThmOffsetUpdate s
  | .ldThmSample temps => Sys2Proof.Machine.execLdThmSample temps s
  | .thermalRestart => Sys2Proof.Machine.execThermalRestart s
  | .lightDieResume => Sys2Proof.Machine.execLightDieResume s
  | .thresholdWrite m t w => Sys2Proof.Machine.execThresholdWrite m t w s
  | .wakeActive => Sys2Proof.Machine.execWakeActive s
  | .wakeInactive => Sys2Proof.Machine.execWakeInactive s
  | .sleepDelayExpiry => Sys2Proof.Machine.execSleepDelayExpiry s
  | .sleepStayLimit => Sys2Proof.Machine.execSleepStayLimit s
  | .pgGood n => Sys2Proof.Machine.execPgGood n s
  | .pwrEnRise => Sys2Proof.Machine.execPwrEnRise s
  | .pgTimeout n => Sys2Proof.Machine.execPgTimeout n s
  | .pgRetry => Sys2Proof.Machine.execPgRetry s
  | .supplyFault n => Sys2Proof.Machine.execSupplyFault n s
  | .supplyRestart => Sys2Proof.Machine.execSupplyRestart s
  | .powerdownStep => Sys2Proof.Machine.execPowerdownStep s
  | .resetPinAssert => Sys2Proof.Machine.execResetPinAssert s
  | .resetPinRelease => Sys2Proof.Machine.execResetPinRelease s
  | .resetExit straps sris => Sys2Proof.Machine.execResetExit straps sris s
  | .warmResetKeyFirst m => Sys2Proof.Machine.execWarmResetKeyFirst m s
  | .warmReset m => Sys2Proof.Machine.execWarmReset m s
  | .wdtEnable m w => Sys2Proof.Machine.execWdtEnable m w s
  | .wdtKick m => Sys2Proof.Machine.execWdtKick m s
  | .wdtBadKick m v => Sys2Proof.Machine.execWdtBadKick m v s
  | .wdtWarn => Sys2Proof.Machine.execWdtWarn s
  | .wdtExpiry => Sys2Proof.Machine.execWdtExpiry s
  | .lockstepMismatch => Sys2Proof.Machine.execLockstepMismatch s
  | .pcieMemWrite bar2 o bs late => Sys2Proof.Machine.execPcieMemWrite bar2 o bs late s
  | .pcieMemRead bar2 o n late => Sys2Proof.Machine.execPcieMemRead bar2 o n late s
  | .pcieLinkUp lanes speed => Sys2Proof.Machine.execPcieLinkUp lanes speed s
  | .pcieLinkDown bar2 o accepted => Sys2Proof.Machine.execPcieLinkDown bar2 o accepted s
  | .pcieCompletionTimeout m ring => Sys2Proof.Machine.execPcieCompletionTimeout m ring s
  | .qspiWrite o bs late => Sys2Proof.Machine.execQspiWrite o bs late s
  | .qspiRead o n ready => Sys2Proof.Machine.execQspiRead o n ready s
  | .qspiWriteBar2 o bs late => Sys2Proof.Machine.execQspiWriteBar2 o bs late s
  | .qspiReadBar2 o n ready => Sys2Proof.Machine.execQspiReadBar2 o n ready s
  | .qspiReadStatus => Sys2Proof.Machine.execQspiReadStatus s
  | .qspiCsRelease bar2 o accepted => Sys2Proof.Machine.execQspiCsRelease bar2 o accepted s
  | .i2cWrite o bs late => Sys2Proof.Machine.execI2cWrite o bs late s
  | .i2cRead n late => Sys2Proof.Machine.execI2cRead n late s
  | .i2cAbort o accepted => Sys2Proof.Machine.execI2cAbort o accepted s
  | .heldRequestIssue m late => Sys2Proof.Machine.execHeldRequestIssue m late s
  | .quayWwinWrite m w => Sys2Proof.Machine.execQuayWwinWrite m w s
  | .dmaGo m n => Sys2Proof.Machine.execDmaGo m n s
  | .dmaAbort m n o accepted => Sys2Proof.Machine.execDmaAbort m n o accepted s
  | .dmaDescriptor n host fails => Sys2Proof.Machine.execDmaDescriptor n host fails s
  | .eventRecordWritten r => Sys2Proof.Machine.execEventRecordWritten r s
  | .ringRpWrite m r w => Sys2Proof.Machine.execRingRpWrite m r w s
  | .ringEnable m r w => Sys2Proof.Machine.execRingEnable m r w s
  | .msiCoalesceTimer r => Sys2Proof.Machine.execMsiCoalesceTimer r s
  | .cntClear m w => Sys2Proof.Machine.execCntClear m w s
  | .ifDeclare m w => Sys2Proof.Machine.execIfDeclare m w s
  | .loRead m a => Sys2Proof.Machine.execLoRead m a s
  | .registerWrite m a w => Sys2Proof.Machine.execRegisterWrite m a w s
  | .ttPinChange p level => Sys2Proof.Machine.execTtPinChange p level s
  | .refActivityReturn n => Sys2Proof.Machine.execRefActivityReturn n s
  | .syncOutPulseEnd n => Sys2Proof.Machine.execSyncOutPulseEnd n s
  | .invalidSymbol p => Sys2Proof.Machine.execInvalidSymbol p s
  | .prbsCheckerSync p bits errs => Sys2Proof.Machine.execPrbsCheckerSync p bits errs s
  | .rbSyncLost k => Sys2Proof.Machine.execRbSyncLost k s
  | .rbSyncGained k => Sys2Proof.Machine.execRbSyncGained k s
  | .egressPacketSend k => Sys2Proof.Machine.execEgressPacketSend k s
  | .asrcLockChange u rate => Sys2Proof.Machine.execAsrcLockChange u rate s
  | .asrcSlip u => Sys2Proof.Machine.execAsrcSlip u s
  | .lampBoardWriteDone n ok => Sys2Proof.Machine.execLampBoardWriteDone n ok s
  | .powerdownWakeRestart => Sys2Proof.Machine.execPowerdownWakeRestart s

end Sys2Proof.Machine
end

