-- ==== Sys2Proof/Safety.lean ====
section
/-! DEFINITION. What claims are stated in: memories and registers in canonical form, a step that neither faults nor refuses, a command
that completes, and what one engine instruction may change. -/

namespace Sys2Proof.Machine

/-- Every memory has its canonical form: addresses strictly rising, and no byte listed that an unlisted address reads as. -/
def Memory.wf (s : State) : Bool :=
  nwf zeroByte s.fstore && nwf zeroByte s.work && nwf erasedByte s.nvsMem && nwf erasedByte s.cflash && nwf zeroByte s.hostMem

/-- The register file has its canonical form. -/
def Registers.wf (s : State) : Bool := nwf regReset s.regs

/-- A step that answers a next state. -/
def safeStep (s : State) : Prop := ∃ t, step s = .next t

/-- The command completes in `s`, with a next state of which `P` holds. -/
def completes (c : Instr) (s : State) (P : State → Prop) : Prop := ∃ t, exec c s = .next t ∧ P t

/-- The fabric runs: the matrix die is out of reset and `SYN_CORE` has not stopped its domains (R88, R427, R437). -/
def State.fabricUp (s : State) : Prop := s.matrixUp = true ∧ s.coreUp = true

/-- No memory differs (R446). -/
def sameMemory (s t : State) : Prop :=
  t.fstore = s.fstore ∧ t.work = s.work ∧ t.nvsMem = s.nvsMem ∧ t.cflash = s.cflash ∧ t.hostMem = s.hostMem

/-- No register differs but those of a list. -/
def sameRegs (s t : State) (but : List Nat) : Prop := ∀ a, a ∉ but → t.rd a = s.rd a

/-- Engine `e` issues this instruction, and neither its encoding nor its place makes it fault (R217, R219, R245). -/
def State.issues (s : State) (e : Nat) (op : EngOp) (f : EngFields) : Prop :=
  s.matrixUp = true ∧ s.canIssue e = true ∧ op.legal f = true ∧ (s.eng e).pc < s.codeTop e

/-- The device differs in engine `e` only, which is now `x`: no register, memory, queue or other engine has changed (R242). -/
def engineOnly (e : Nat) (x : EngSt) (s t : State) : Prop :=
  t.eng e = x ∧ (∀ k, k ≠ e → t.eng k = s.eng k) ∧ t = { s with jik := { s.jik with engs := t.jik.engs } }

/-- The engine's program counter and loops after an instruction that goes on to the next (R259). -/
def EngSt.onwards (x : EngSt) : EngSt :=
  let n := loopNext (pcWrap (x.pc + 8)) x.loops
  x.moved n.1 n.2

/-- The instruction writes scalar `d` of engine `e` and goes on; nothing else differs. -/
def scalarOnly (e d : Nat) (v : Word) (s t : State) : Prop :=
  t.sreg e d = v ∧ (∀ r, r ≠ d → t.sreg e r = s.sreg e r) ∧ engineOnly e { (s.eng e).onwards with s := (t.eng e).s } s t

/-- The lanes an instruction leaves in its vector destination: under `MSK` only the lanes whose bit of Sc is 1 are written (R250). -/
def State.masked (s : State) (e : Nat) (f : EngFields) (v : List Lane) : List Lane :=
  if f.msk then (upto 32).map fun i => if (s.sreg e f.c.toNat).getLsbD i then v.getD i 0 else (s.vreg e f.d.toNat).getD i 0 else v

/-- The instruction writes the vector `Vd` of engine `e`, under the mask, and goes on; nothing else differs. -/
def vectorOnly (e : Nat) (f : EngFields) (v : List Lane) (s t : State) : Prop :=
  t.vreg e f.d.toNat = s.masked e f v ∧ (∀ r, r ≠ f.d.toNat → t.vreg e r = s.vreg e r) ∧
    engineOnly e { (s.eng e).onwards with v := (t.eng e).v } s t

/-- The instruction writes accumulator `d` of engine `e` and goes on; nothing else differs. -/
def accOnly (e d : Nat) (v : List Acc) (s t : State) : Prop :=
  t.areg e d = v ∧ (∀ r, r ≠ d → t.areg e r = s.areg e r) ∧ engineOnly e { (s.eng e).onwards with a := (t.eng e).a } s t

/-- The instruction stores to working memory and goes on; of the engine only the program counter and the loops differ. -/
def storeOnly (e : Nat) (s t : State) : Prop :=
  t.eng e = (s.eng e).onwards ∧ (∀ k, k ≠ e → t.eng k = s.eng k) ∧ t = { s with jik := { s.jik with engs := t.jik.engs }, work := t.work }
/-- A write of `w` at `a` by master `m` reaches its register: the fabric runs, and no rule of R480 discards the write. -/
def State.takesWrite (s : State) (m : Master) (a : Nat) (w : Word) : Prop :=
  s.fabricUp ∧ s.refusesWrite m a = false ∧ (hostSide m = true → s.running = true ∨ earlyAddr a = true) ∧
    (hostSide m = true → s.lockedWrite a w = false) ∧ s.undefinedUnit a = false

/-- The module has sent this record since, after all that it had sent before. -/
def sends (o : Out) (s t : State) : Prop := ∃ a b, t.out = s.out ++ a ++ o :: b

/-- A lane of the port sends what the port transmits, and rough water does not change it (R95, R149). -/
def State.heard (s : State) (l : Nat) : Prop := (s.txLanes l).any s.laneSends = true ∧ s.rough l true = false

/-- Every lane of the group that port `l` leads is on a rung (R107). -/
def State.groupAt (s : State) (l rung : Nat) : Prop := ∀ q ∈ s.lanes l, s.ladder q = rung

/-- Working memory after a write of `bs` at offset `o`: each byte is the written one, but from RUNNING a code region takes none, and the
region of an engine that holds a job none before the job ends; every other byte reads as before (R217, R218, R446). -/
def workWritten (o : Nat) (bs : List Byte) (s t : State) : Prop :=
  ∀ j, nget zeroByte t.work j =
    if o ≤ j ∧ j < o + bs.length ∧ ¬ (s.running = true ∧ j < 0x1000000 ∧
      (j % 65536 < s.codeTop (j / 65536) ∨ (s.eng (j / 65536)).job.isSome = true)) then bs.getD (j - o) 0 else nget zeroByte s.work j

/-- The frame store after a write of `bs` at offset `o`: from RUNNING a beat of a watch head's slip takes none (R454). -/
def fstoreWritten (o : Nat) (bs : List Byte) (s t : State) : Prop :=
  ∀ j, nget zeroByte t.fstore j =
    if o ≤ j ∧ j < o + bs.length ∧ ¬ (s.running = true ∧ s.watchBeat j = true) then bs.getD (j - o) 0 else nget zeroByte s.fstore j

/-- Master `m` has reset alone: what it had outstanding or held back is gone, and nothing of another master (R453). -/
def masterGone (m : Nat) (s t : State) : Prop :=
  t.quay = { s.quay with
    held := s.quay.held.filter fun q => q.master.num != m
    outstanding := s.quay.outstanding.filter fun o => o.1 != m }

/-- The commands that are one write of a register (R476, R480). -/
def writesRegister : Instr → Bool
  | .headCommit .. | .hedSyncCommit .. | .gangwayWrite .. | .pullGo .. | .chtPushData .. | .otpKeyFirst .. | .otpBurn ..
  | .otpTestAllow .. | .chtOtpData .. | .flashKeyFirst .. | .flashErase .. | .flashProgram .. | .amdGo .. | .amdAbort ..
  | .coxSelWrite .. | .coxManual .. | .coxForceHold .. | .coxForceFree .. | .slewGo .. | .coxSteerWrite ..
  | .synRelock .. | .widen .. | .retrain .. | .restep .. | .idleEnter .. | .idleExit .. | .prbsCtrlWrite ..
  | .eyeScan .. | .rbCfgWrite .. | .hxRead .. | .hxWrite .. | .hxReadId .. | .hxWriteId .. | .pullCfgWrite ..
  | .rwKey .. | .rwCtrlWrite .. | .rwLossGo .. | .xtbWord3Write .. | .xtbArm .. | .xtbCancel .. | .xformWrite ..
  | .quePush .. | .hwmClr .. | .slipCommit .. | .audCommit .. | .retest .. | .nvsRead .. | .nvsWrite .. | .nvsRecRead ..
  | .nvsRecWrite .. | .nvsBadOp .. | .thresholdWrite .. | .warmResetKeyFirst .. | .warmReset .. | .wdtEnable ..
  | .wdtKick .. | .wdtBadKick .. | .quayWwinWrite .. | .dmaGo .. | .ringRpWrite .. | .ringEnable .. | .cntClear ..
  | .ifDeclare .. | .registerWrite .. => true
  | _ => false

/-- The other commands by which a memory can come to hold other bytes: those that carry data, and those by which a load, a reset or a loss
of a supply clears what a chart placed (R38, R43, R446). -/
def touchesMemory : Instr → Bool
  | .strokeBoundary .. | .engHeldWrite .. | .vst .. | .sst .. | .qinDataArrive .. | .postedWritesLanded .. | .headerRead ..
  | .segmentRead .. | .segmentPlaced | .packetReceived .. | .nvsPageDone .. | .pfiFall | .vddLdLow | .vddLdCollapse .. | .keepFlushDone
  | .powerFailRestart | .thmSample .. | .ldThmSample .. | .thermalRestart | .wakeActive | .sleepDelayExpiry | .sleepStayLimit
  | .pgRetry | .supplyFault .. | .supplyRestart | .resetPinAssert | .wdtExpiry | .lockstepMismatch | .pcieMemWrite ..
  | .pcieMemRead .. | .pcieLinkDown .. | .pcieCompletionTimeout .. | .qspiWrite .. | .qspiWriteBar2 .. | .qspiCsRelease ..
  | .i2cWrite .. | .i2cAbort .. | .heldRequestIssue .. | .dmaAbort .. | .dmaDescriptor .. | .eventRecordWritten ..
  | .powerdownWakeRestart => true
  | _ => false

/-- The commands by which parameter storage can come to hold other bytes: a page in progress ends or is cut (R387, R389, R419). -/
def programsStorage : Instr → Bool
  | .nvsPageDone .. | .keepFlushDone | .vddLdCollapse .. | .ldThmSample .. => true
  | _ => false

end Sys2Proof.Machine
end

