-- ==== Sys2Proof/WellFormed.lean ====
section
/-! DEFINITION. Which commands are well formed: an engine instruction has a defined encoding (R245), a measurement names each thing
once, and operands keep the bounds the spec gives them. -/

namespace Sys2Proof

/-- No item twice. -/
def distinct {α : Type} [DecidableEq α] : List α → Bool
  | [] => true
  | a :: l => !l.contains a && distinct l

/-- A command that the device can meet: defined engine encodings (R245), each reference, layer, region, port, string or sensor measured
once (R57, R64, R292, R331, R357, R407), an eight-byte marker (R131), an undefined storage operation (R402), a wrong kick (R440),
a record of 256 bytes (R375), transfers of at least one byte. -/
def Instr.wellFormed : Instr → Bool
  | .strokeBoundary ps => distinct (ps.map (·.ref))
  | .deadline => true
  | .manifestRecordStart _ => true
  | .engineTakeJob _ => true
  | .crewTakeJob _ => true
  | .crewLineRoute _ => true
  | .engHeldWrite _ => true
  | .nop _ f => Machine.EngOp.legal .nop f
  | .br _ f => Machine.EngOp.legal .br f
  | .loop _ f => Machine.EngOp.legal .loop f
  | .jend _ f => Machine.EngOp.legal .jend f
  | .jfld _ f => Machine.EngOp.legal .jfld f
  | .tsig _ f => Machine.EngOp.legal .tsig f
  | .vld _ f => Machine.EngOp.legal .vld f
  | .vst _ f => Machine.EngOp.legal .vst f
  | .vlds _ f => Machine.EngOp.legal .vlds f
  | .sld _ f => Machine.EngOp.legal .sld f
  | .sst _ f => Machine.EngOp.legal .sst f
  | .qin _ f => Machine.EngOp.legal .qin f
  | .qout _ f => Machine.EngOp.legal .qout f
  | .qwait _ f => Machine.EngOp.legal .qwait f
  | .ldp _ f => Machine.EngOp.legal .ldp f
  | .vadd _ f => Machine.EngOp.legal .vadd f
  | .vsub _ f => Machine.EngOp.legal .vsub f
  | .vmin _ f => Machine.EngOp.legal .vmin f
  | .vmax _ f => Machine.EngOp.legal .vmax f
  | .vabsd _ f => Machine.EngOp.legal .vabsd f
  | .vsh _ f => Machine.EngOp.legal .vsh f
  | .vlog _ f => Machine.EngOp.legal .vlog f
  | .vmov _ f => Machine.EngOp.legal .vmov f
  | .vmul _ f => Machine.EngOp.legal .vmul f
  | .sadd _ f => Machine.EngOp.legal .sadd f
  | .ssub _ f => Machine.EngOp.legal .ssub f
  | .smul _ f => Machine.EngOp.legal .smul f
  | .sand _ f => Machine.EngOp.legal .sand f
  | .sor _ f => Machine.EngOp.legal .sor f
  | .ssh _ f => Machine.EngOp.legal .ssh f
  | .smov _ f => Machine.EngOp.legal .smov f
  | .mac _ f => Machine.EngOp.legal .mac f
  | .msu _ f => Machine.EngOp.legal .msu f
  | .aset _ f => Machine.EngOp.legal .aset f
  | .ard _ f => Machine.EngOp.legal .ard f
  | .asum _ f => Machine.EngOp.legal .asum f
  | .vperm _ f => Machine.EngOp.legal .vperm f
  | .vsld _ f => Machine.EngOp.legal .vsld f
  | .vilv _ f => Machine.EngOp.legal .vilv f
  | .vext _ f => Machine.EngOp.legal .vext f
  | .vlut _ f => Machine.EngOp.legal .vlut f
  | .vluti _ f => Machine.EngOp.legal .vluti f
  | .vcmp _ f => Machine.EngOp.legal .vcmp f
  | .vsel _ f => Machine.EngOp.legal .vsel f
  | .undefinedEncoding _ => true
  | .qinDataArrive _ => true
  | .ldpWordArrive _ => true
  | .postedWritesLanded _ => true
  | .queueXonRelease _ => true
  | .headFrameStart _ _ => true
  | .headLineStart _ fetch _ => distinct (fetch.map (·.1))
  | .gateLine _ rb sym => distinct (rb.map (·.1)) && distinct (sym.map (·.1))
  | .headCommit _ _ _ => true
  | .hedSyncCommit _ _ => true
  | .gangwayWrite _ _ _ _ => true
  | .ttPinAccept _ => true
  | .watchTiming _ => true
  | .resetRelease _ _ => true
  | .headerRead _ => true
  | .segmentRead _ _ => true
  | .segmentPlaced => true
  | .pullGo _ => true
  | .chtPushData _ _ _ => true
  | .otpKeyFirst _ => true
  | .otpBurn _ => true
  | .otpTestAllow _ => true
  | .chtOtpData _ _ => true
  | .flashKeyFirst _ => true
  | .flashErase _ _ => true
  | .flashProgram _ _ => true
  | .amdGo _ _ => true
  | .amdAbort _ => true
  | .amdStaged _ _ _ => true
  | .coxGate g => distinct (g.offsets.map (·.1))
  | .refActivityLoss _ => true
  | .qlMessage _ _ _ => true
  | .qlTimeout _ => true
  | .coxSelWrite _ _ => true
  | .coxManual _ _ => true
  | .coxForceHold _ _ => true
  | .coxForceFree _ _ => true
  | .wtrExpiry _ => true
  | .slewGo _ _ => true
  | .slewDone => true
  | .holdValid => true
  | .tcompUpdate => true
  | .coxSteerWrite _ _ => true
  | .markerReceived _ bs _ => decide (bs.length = 8)
  | .markerMissing _ => true
  | .synLock _ => true
  | .synLockLoss _ _ => true
  | .synFerrMeasure _ _ => true
  | .synRelock _ _ => true
  | .detectDone _ => true
  | .trainDone _ _ => true
  | .trainTimeout _ _ => true
  | .negTransmit _ => true
  | .negotiateDone _ => true
  | .negotiateTimeout _ => true
  | .stepDone _ _ => true
  | .stepTimeout _ => true
  | .rateAgreeTimeout _ => true
  | .stepRetry _ => true
  | .laneLockLoss _ => true
  | .retrainTimeout _ => true
  | .laneRelock _ => true
  | .buoyReceived _ _ _ _ => true
  | .groupNarrow _ => true
  | .widen _ _ => true
  | .retrain _ _ => true
  | .restep _ _ => true
  | .idleEnter _ _ => true
  | .idleExit _ _ => true
  | .rxIdleEntry _ => true
  | .rxIdleExit _ => true
  | .idleExitTimeout _ => true
  | .prbsCtrlWrite _ _ _ => true
  | .eyeScan _ _ _ => true
  | .eyeScanDone _ _ _ => true
  | .rbCfgWrite _ _ _ => true
  | .extest _ => true
  | .packetReceived _ => true
  | .xactTimeout _ _ => true
  | .hxRead _ _ _ => true
  | .hxWrite _ _ _ => true
  | .hxReadId _ _ _ => true
  | .hxWriteId _ _ _ => true
  | .pullCfgWrite _ _ _ => true
  | .rwKey _ _ _ => true
  | .rwCtrlWrite _ _ _ => true
  | .rwLossGo _ _ _ => true
  | .xtbWord3Write _ _ _ => true
  | .xtbArm _ _ => true
  | .xtbCancel _ _ => true
  | .xformWrite _ _ _ _ => true
  | .quePush _ _ _ => true
  | .quePushRelease _ => true
  | .quePop _ _ => true
  | .hwmClr _ _ => true
  | .slipCommit _ _ => true
  | .audBlockClose tdm => distinct (tdm.map (·.1))
  | .audBlockSend => true
  | .audCommit _ _ => true
  | .tdmFrameError _ => true
  | .lightMessage => true
  | .lightMsgTimeout => true
  | .pwmPeriod x => distinct (x.strings.map (·.str)) && distinct (x.ntc.map (·.1))
  | .boostOvervoltage => true
  | .boostRestart => true
  | .neighbourTest high => distinct high && high.all fun p => decide (p < 80)
  | .retest _ _ => true
  | .lampBoardPoll _ _ => true
  | .identRecordRead _ board => (board.getD []).length == 0 || (board.getD []).length == 256
  | .ledgerAdvance => true
  | .nvsRead _ => true
  | .nvsWrite _ => true
  | .nvsRecRead _ => true
  | .nvsRecWrite _ => true
  | .nvsBadOp _ op => op == 0 || decide (4 < op)
  | .nvsPageDone _ => true
  | .ledgersWrite => true
  | .pfiFall => true
  | .pfiRise => true
  | .vddLdLow => true
  | .vddLdCollapse _ => true
  | .vddLdRise => true
  | .keepFlushDone => true
  | .powerFailRestart => true
  | .thmSample temps => distinct (temps.map (·.code)) && temps.all fun t => decide (t.code.val < 52)
  | .thmOffsetUpdate => true
  | .ldThmSample temps => distinct (temps.map (·.code)) && temps.all fun t => decide (48 ≤ t.code.val)
  | .thermalRestart => true
  | .lightDieResume => true
  | .thresholdWrite _ _ _ => true
  | .wakeActive => true
  | .wakeInactive => true
  | .sleepDelayExpiry => true
  | .sleepStayLimit => true
  | .pgGood _ => true
  | .pwrEnRise => true
  | .pgTimeout _ => true
  | .pgRetry => true
  | .supplyFault _ => true
  | .supplyRestart => true
  | .powerdownStep => true
  | .resetPinAssert => true
  | .resetPinRelease => true
  | .resetExit _ _ => true
  | .warmResetKeyFirst _ => true
  | .warmReset _ => true
  | .wdtEnable _ _ => true
  | .wdtKick _ => true
  | .wdtBadKick _ v => v != 0xC0A5
  | .wdtWarn => true
  | .wdtExpiry => true
  | .lockstepMismatch => true
  | .pcieMemWrite _ _ bs _ => decide (0 < bs.length ∧ bs.length ≤ 256)
  | .pcieMemRead _ _ n _ => decide (0 < n)
  | .pcieLinkUp _ _ => true
  | .pcieLinkDown _ _ _ => true
  | .pcieCompletionTimeout _ _ => true
  | .qspiWrite _ _ _ => true
  | .qspiRead _ n _ => decide (0 < n)
  | .qspiWriteBar2 _ _ _ => true
  | .qspiReadBar2 _ n _ => decide (0 < n)
  | .qspiReadStatus => true
  | .qspiCsRelease _ _ _ => true
  | .i2cWrite _ _ _ => true
  | .i2cRead n _ => decide (0 < n)
  | .i2cAbort _ _ => true
  | .heldRequestIssue _ _ => true
  | .quayWwinWrite _ _ => true
  | .dmaGo _ _ => true
  | .dmaAbort _ _ _ _ => true
  | .dmaDescriptor _ _ _ => true
  | .eventRecordWritten _ => true
  | .ringRpWrite _ _ _ => true
  | .ringEnable _ _ _ => true
  | .msiCoalesceTimer _ => true
  | .cntClear _ _ => true
  | .ifDeclare _ _ => true
  | .loRead _ _ => true
  | .registerWrite _ _ _ => true
  | .ttPinChange _ _ => true
  | .refActivityReturn _ => true
  | .syncOutPulseEnd _ => true
  | .invalidSymbol _ => true
  | .prbsCheckerSync _ _ _ => true
  | .rbSyncLost _ => true
  | .rbSyncGained _ => true
  | .egressPacketSend _ => true
  | .asrcLockChange _ _ => true
  | .asrcSlip _ => true
  | .lampBoardWriteDone _ _ => true
  | .powerdownWakeRestart => true

end Sys2Proof
end

