-- ==== Sys2Proof/Certificates/Slice0/Obligations.lean ====
section
/-! DEFINITION. The statements about the module that the provers are given. Each docstring names the rules it formalises. -/

open Sys2Proof Sys2Proof.Machine


/-! ### The module as a whole -/

/-- R441, R427: the module at power-on: no die runs, the boot rate is in force, nothing waits, no register has been written, no memory
lists a byte. That a register reads its reset value of R10 where nothing was written, and that RAM then reads 0, are the model's
conventions (log entries on reset and on memory). -/
def Obligations.ResetIsPowerOn : Prop :=
  let s := State.reset
  s.pending = [] ∧ s.matrixUp = false ∧ s.pwr.ld = .absent ∧ s.pwr.phase = .off ∧ s.clock.rateNum = 60 ∧ s.clock.rateDen = 1 ∧
    s.loader.otpHash = none ∧ s.pins.pwrEn = [] ∧ s.pins.coxLock = false ∧ s.out = [] ∧ (∀ a, s.rd a = regReset a) ∧
    Memory.wf s = true ∧ Registers.wf s = true

/-- The queue of commands is first in, first out: a step runs the command at the front with the queue's rest. The model's own form of a
step. -/
def Obligations.AStepRunsTheFrontCommand : Prop :=
  ∀ (c : Instr) (cs : List Instr) (s : State), step { s with pending := c :: cs } = exec c { s with pending := cs }

/-- With no command waiting a step lets 50 ps pass and changes nothing else: the model's choice (log entry on the idle step). -/
def Obligations.AnIdleStepPassesTime : Prop :=
  ∀ s : State, s.pending = [] → step s = .next { s with clock := { s.clock with time := s.clock.time + 1 } }

/-- No command stops the model, and none puts commands into the queue or takes them out. -/
def Obligations.EveryCommandCompletes : Prop :=
  ∀ (c : Instr) (s : State), ∃ t, exec c s = .next t ∧ t.pending = s.pending

/-- Every memory keeps its canonical form at every step, whatever the command (log entry on memories). -/
def Obligations.EveryStepKeepsMemoriesCanonical : Prop :=
  ∀ s t : State, Memory.wf s = true → step s = .next t → Memory.wf t = true

/-- R34: once the chart key hash is programmed, no step, and so no command, no reset and no loss of a supply, changes it or
`TEST_KEY_OK`. -/
def Obligations.AProgrammedKeyHashNeverChanges : Prop :=
  ∀ (s t : State) (k : List Byte), s.loader.otpHash = some k → step s = .next t →
    t.loader.otpHash = some k ∧ t.loader.otpTest = s.loader.otpTest

/-- R387, R389, R419: parameter storage holds other bytes only after a command by which a page in progress ends or is cut. -/
def Obligations.OnlyPagesInProgressReachStorage : Prop :=
  ∀ (c : Instr) (s t : State), programsStorage c = false → exec c s = .next t → t.nvsMem = s.nvsMem

/-- R38, R43, R446: apart from writes of registers, the commands that carry data to a memory and those by which a load, a reset or a loss of
a supply clears what a chart placed, no command changes a byte of any memory. -/
def Obligations.OtherCommandsLeaveEveryMemory : Prop :=
  ∀ (c : Instr) (s t : State), touchesMemory c = false → writesRegister c = false → exec c s = .next t → sameMemory s t

/-- R9, R42, R88, R320, R427, R437, R479, R480, R487: a register write has no effect while the matrix die is down or `SYN_CORE` has
stopped its domains; else the rules that discard it, in their order: a refused interface, the gate before RUNNING
(which only notes the write), the locks, a unit the chart does not define, a reserved address; in the engines' block a read-only register
keeps its value, a plain `RW` register takes the bits of its row. -/
def Obligations.RegisterWritesPassTheGatesInOrder : Prop :=
  (∀ (m : Master) (a : BitVec 26) (w : Word) (s : State), ¬ s.fabricUp → exec (.registerWrite m a w) s = .next s) ∧
  ∀ (m : Master) (a : BitVec 26) (w : Word) (s : State), s.fabricUp →
    let A := a.toNat / 4 * 4
    let c := Instr.registerWrite m a w
    (s.refusesWrite m A = true → exec c s = .next s) ∧
    (s.refusesWrite m A = false → hostSide m = true → s.running = false → earlyAddr A = false →
      exec c s = .next s.earlyWrite ∧ s.earlyWrite.loader.early = true ∧ (s.loader.early = true → s.earlyWrite = s)) ∧
    (s.refusesWrite m A = false → hostSide m = true → s.running = true → s.lockedWrite A w = true → exec c s = .next s) ∧
    (s.refusesWrite m A = false → (s.running = true ∨ earlyAddr A = true) → s.lockedWrite A w = false → s.undefinedUnit A = true →
      exec c s = .next s) ∧
    (s.takesWrite m A w → exec c s = .next (s.regWrite m A w) ∧ (regRow? A = none → exec c s = .next s) ∧
      ∀ r i, 0x300000 ≤ A → A < 0x400000 → regRow? A = some (r, i) →
        (r.acc = .ro ∨ r.acc = .wo → exec c s = .next s) ∧
        (r.acc = .rw → completes (.registerWrite m a w) s fun t =>
          t.rd A = s.rd A &&& ~~~BitVec.ofNat 32 r.rw ||| w &&& BitVec.ofNat 32 r.rw ∧ t = { s with regs := t.regs } ∧ sameRegs s t [A]))

/-- R12, R476, R477: a read of a `_LO` register fills the latch of its own interface with the `_HI` of the same moment, a read of that
`_HI` answers from the latch, and neither changes a register, a queue or a memory; the latch of another interface stays. -/
def Obligations.SixtyFourBitReadsGoThroughTheLatch : Prop :=
  ∀ (m : Master) (a : BitVec 26) (s : State), s.fabricUp → isLo (a.toNat / 4 * 4) = true → s.moving (a.toNat / 4 * 4) = none →
    let A := a.toNat / 4 * 4
    completes (.loRead m a) s fun t => t.out = s.out ++ [.answer m (leBytes 4 (s.hostRead A).toNat)] ∧
      nfind m.num t.quay.latches = some (A, s.hostRead (A + 4)) ∧
      (∀ n : Master, n.num ≠ m.num → nfind n.num t.quay.latches = nfind n.num s.quay.latches) ∧
      t = { s with quay := t.quay, out := t.out } ∧
      (isLo (A + 4) = false → s.moving (A + 4) = none →
        completes (.loRead m (BitVec.ofNat 26 (A + 4))) t fun u => u = { t with out := t.out ++ [.answer m (leBytes 4 (s.hostRead (A + 4)).toNat)] })
/-! ### Engines (chapters 9 and 10) -/

/-- R244, R251: every operation and every field of an instruction can be read back from its 64-bit word. -/
def Obligations.EngineWordsDecodeToWhatTheyEncode : Prop :=
  ∀ (op : EngOp) (f : EngFields), engOpOf (engWord op f) = some op ∧ engFieldsOf (engWord op f) = f

/-- R247, R248: a result of 10, 20 or 32 bits is clamped to the range of its sign under `SAT`, and is reduced modulo its width
otherwise; an accumulator is clamped to 48 bits or wraps. -/
def Obligations.ResultsSaturateOrWrap : Prop :=
  (∀ n ∈ [10, 20, 32], ∀ v : Int,
    elem n true (fitTo n true true v) = max (-(2 ^ (n - 1) : Int)) (min (2 ^ (n - 1) - 1 : Int) v) ∧
    elem n false (fitTo n false true v) = max 0 (min (2 ^ n - 1 : Int) v) ∧
    ∀ sgn : Bool, (fitTo n sgn false v : Int) = v % (2 ^ n : Int)) ∧
  ∀ v : Int, (accFit true v).toInt = max (-(2 ^ 47 : Int)) (min (2 ^ 47 - 1 : Int) v) ∧ ((accFit false v).toNat : Int) = v % (2 ^ 48 : Int)

/-- R249: right shifts round half up, towards minus infinity or half to even, as `VAR` selects, in `VMUL`, `ARD` and `VSH`; a shift by 0 is
exact and `VAR` 3 is no defined encoding. -/
def Obligations.RightShiftsRoundAsVarSelects : Prop :=
  (∀ v : Int, ∀ var, shiftRight var 0 v = v) ∧
  (∀ (v : Int) (sh : Nat), 0 < sh →
    shiftRight 0 sh v = (v + 2 ^ (sh - 1)) / 2 ^ sh ∧
    shiftRight 1 sh v = v / 2 ^ sh ∧
    (2 * (v - shiftRight 2 sh v * 2 ^ sh)).natAbs ≤ 2 ^ sh ∧
    ((2 * (v - shiftRight 2 sh v * 2 ^ sh)).natAbs = 2 ^ sh → shiftRight 2 sh v % 2 = 0)) ∧
  (∀ f : EngFields, f.var = 3 → EngOp.legal .vmul f = false ∧ EngOp.legal .ard f = false ∧ EngOp.legal .vsh f = false) ∧
  ∀ (e : Fin 256) (f : EngFields) (s : State),
    (s.issues e .vmul f → completes (.vmul e f) s (vectorOnly e f
      ((s.vreg e f.a.toNat).zipWith (perElem f.hlf fun n a b => fitTo n f.sgn f.sat (shiftRight f.var.toNat (fSh f) (elem n f.sgn a * elem n f.sgn b)))
        (s.bVec e f)) s)) ∧
    (s.issues e .ard f → completes (.ard e f) s (vectorOnly e f
      ((s.areg e f.a.toNat).map fun a => BitVec.ofNat 20 (fitTo 20 f.sgn true (shiftRight f.var.toNat (fSh f) a.toInt))) s)) ∧
    (s.issues e .vsh f → completes (.vsh e f) s (vectorOnly e f
      ((s.vreg e f.a.toNat).zipWith (perElem f.hlf fun n a b =>
        fitTo n f.sgn f.sat (if 0 ≤ signed 6 b then elem n f.sgn a * 2 ^ (signed 6 b).toNat
          else shiftRight f.var.toNat (-signed 6 b).toNat (elem n f.sgn a))) (s.bVec e f)) s))

/-- R246: what `BSEL` selects, for vectors and for scalars; the codes that are reserved are no defined encodings. -/
def Obligations.BselSelectsTheBOperand : Prop :=
  ∀ (s : State) (e : Fin 256) (f : EngFields),
    (fBsel f = 0 → s.bVec e f = s.vreg e f.b.toNat ∧ s.bScal e f = s.sreg e f.b.toNat) ∧
    (fBsel f = 1 → s.bVec e f = List.replicate 32 ((s.sreg e f.b.toNat).setWidth 20) ∧ (BForm.ok f .scal = false)) ∧
    (fBsel f = 2 → s.bVec e f = List.replicate 32 (f.imm.setWidth 20) ∧ s.bScal e f = (f.imm.setWidth 20).signExtend 32) ∧
    (fBsel f = 3 → BForm.ok f .scal = false ∧ ∀ sh, BForm.ok f (.vec sh) = false) ∧
    (fBsel f = 1 ∨ fBsel f = 3 → ∀ op ∈ [EngOp.sadd, .ssub, .smul, .sand, .sor, .ssh], op.legal f = false)

/-- R242, R248, R251: the scalar instructions write Sd alone. -/
def Obligations.ScalarInstructionsWriteOneScalar : Prop :=
  ∀ (e : Fin 256) (f : EngFields) (s : State),
    (s.issues e .sadd f → completes (.sadd e f) s
      (scalarOnly e f.d.toNat (scalFit f (scalVal f.sgn (s.sreg e f.a.toNat) + scalVal f.sgn (s.bScal e f))) s)) ∧
    (s.issues e .ssub f → completes (.ssub e f) s
      (scalarOnly e f.d.toNat (scalFit f (scalVal f.sgn (s.sreg e f.a.toNat) - scalVal f.sgn (s.bScal e f))) s)) ∧
    (s.issues e .smul f → completes (.smul e f) s (scalarOnly e f.d.toNat (s.sreg e f.a.toNat * s.bScal e f) s)) ∧
    (s.issues e .sand f → completes (.sand e f) s (scalarOnly e f.d.toNat (s.sreg e f.a.toNat &&& s.bScal e f) s)) ∧
    (s.issues e .sor f → completes (.sor e f) s (scalarOnly e f.d.toNat (s.sreg e f.a.toNat ||| s.bScal e f) s)) ∧
    (s.issues e .ssh f → completes (.ssh e f) s (scalarOnly e f.d.toNat
      (if f.var = 0 then s.sreg e f.a.toNat <<< ((s.bScal e f).toNat % 32)
       else if f.var = 1 then s.sreg e f.a.toNat >>> ((s.bScal e f).toNat % 32)
       else (s.sreg e f.a.toNat).sshiftRight ((s.bScal e f).toNat % 32)) s)) ∧
    (s.issues e .smov f → completes (.smov e f) s (scalarOnly e f.d.toNat f.imm s)) ∧
    (s.issues e .vext f → completes (.vext e f) s (scalarOnly e f.d.toNat
      (if f.sgn then ((s.vreg e f.a.toNat).getD (bf f.imm 4 0) 0).signExtend 32 else ((s.vreg e f.a.toNat).getD (bf f.imm 4 0) 0).setWidth 32) s)) ∧
    (s.issues e .asum f → completes (.asum e f) s (scalarOnly e f.d.toNat
      (BitVec.ofInt 32 (max (-2147483648) (min 2147483647 ((s.areg e f.a.toNat).map (·.toInt)).sum))) s)) ∧
    (s.issues e .vcmp f → completes (.vcmp e f) s fun t =>
      scalarOnly e f.d.toNat (t.sreg e f.d.toNat) s t ∧
      ∀ i a b, i < 32 → (s.vreg e f.a.toNat)[i]? = some a → (s.bVec e f)[i]? = some b →
        (t.sreg e f.d.toNat).getLsbD i =
          if f.var = 0 then a == b else if f.var = 1 then a != b
          else if f.var = 2 then (if f.sgn then a.slt b else a.ult b) else (if f.sgn then a.sle b else a.ule b))

/-- R261: the job field that each index selects. -/
def Obligations.JfldReturnsTheJobField : Prop :=
  ∀ (e : Fin 256) (f : EngFields) (s : State), s.issues e .jfld f →
    completes (.jfld e f) s fun t => scalarOnly e f.d.toNat (t.sreg e f.d.toNat) s t ∧
      ∀ n : Nat, (bf f.imm 3 0, n) ∈ [(0, (s.jobDesc e).line), (1, (s.jobDesc e).lines), (2, (s.jobDesc e).stroke), (3, (s.jobDesc e).tag),
        (4, (s.jobDesc e).kernel), (5, (s.jobDesc e).out.toNat * 8 + (s.jobDesc e).slot), (6, (s.jobDesc e).stream), (7, e.val),
        (8, (s.jobDesc e).space * 2 ^ 31 + (s.jobDesc e).addr), (9, s.deadlineNs - s.since),
        (10, s.throttled.toNat), (11, 0), (12, 0), (13, 0), (14, 0), (15, 0)] → (t.sreg e f.d.toNat).toNat = n % 2 ^ 32

/-- R247, R248, R251: the lane-wise instructions write `Vd` alone, under the mask of R250. -/
def Obligations.LanewiseInstructionsWriteOneVector : Prop :=
  ∀ (e : Fin 256) (f : EngFields) (s : State),
    (s.issues e .vadd f → completes (.vadd e f) s (vectorOnly e f ((s.vreg e f.a.toNat).zipWith
      (perElem f.hlf fun n a b => fitTo n f.sgn f.sat (elem n f.sgn a + elem n f.sgn b)) (s.bVec e f)) s)) ∧
    (s.issues e .vsub f → completes (.vsub e f) s (vectorOnly e f ((s.vreg e f.a.toNat).zipWith
      (perElem f.hlf fun n a b => fitTo n f.sgn f.sat (elem n f.sgn a - elem n f.sgn b)) (s.bVec e f)) s)) ∧
    (s.issues e .vmin f → completes (.vmin e f) s (vectorOnly e f ((s.vreg e f.a.toNat).zipWith
      (perElem f.hlf fun n a b => if elem n f.sgn a ≤ elem n f.sgn b then a % 2 ^ n else b % 2 ^ n) (s.bVec e f)) s)) ∧
    (s.issues e .vmax f → completes (.vmax e f) s (vectorOnly e f ((s.vreg e f.a.toNat).zipWith
      (perElem f.hlf fun n a b => if elem n f.sgn a ≤ elem n f.sgn b then b % 2 ^ n else a % 2 ^ n) (s.bVec e f)) s)) ∧
    (s.issues e .vabsd f → completes (.vabsd e f) s (vectorOnly e f ((s.vreg e f.a.toNat).zipWith
      (perElem f.hlf fun n a b => min (2 ^ n - 1) (elem n f.sgn a - elem n f.sgn b).natAbs) (s.bVec e f)) s)) ∧
    (s.issues e .vlog f → completes (.vlog e f) s (vectorOnly e f ((s.vreg e f.a.toNat).zipWith
      (fun a b => if f.var = 0 then a &&& b else if f.var = 1 then a ||| b else if f.var = 2 then a ^^^ b else a &&& ~~~b) (s.bVec e f)) s)) ∧
    (s.issues e .vmov f → completes (.vmov e f) s (vectorOnly e f (s.bVec e f) s))

/-- R251: the instructions that move lanes write `Vd` alone, under the mask of R250 or, for `VSEL`, by the bits of Sc. -/
def Obligations.LaneMovesWriteOneVector : Prop :=
  ∀ (e : Fin 256) (f : EngFields) (s : State),
    (s.issues e .vperm f → completes (.vperm e f) s (vectorOnly e f
      ((s.vreg e f.b.toNat).map fun b => (s.vreg e f.a.toNat).getD (b.toNat % 32) 0) s)) ∧
    (s.issues e .vsld f → completes (.vsld e f) s (vectorOnly e f
      (((s.vreg e f.a.toNat ++ s.vreg e f.b.toNat).drop (bf f.imm 4 0)).take 32) s)) ∧
    (s.issues e .vilv f → completes (.vilv e f) s (vectorOnly e f
      (let a := fun i => (s.vreg e f.a.toNat).getD i 0
       let b := fun i => (s.vreg e f.b.toNat).getD i 0
       if f.var = 0 then (upto 16).flatMap fun i => [a i, b i]
       else if f.var = 1 then (upto 16).flatMap fun i => [a (16 + i), b (16 + i)]
       else if f.var = 2 then (upto 16).map (fun i => a (2 * i)) ++ (upto 16).map fun i => b (2 * i)
       else (upto 16).map (fun i => a (2 * i + 1)) ++ (upto 16).map fun i => b (2 * i + 1)) s)) ∧
    (s.issues e .vsel f → completes (.vsel e f) s (vectorOnly e f ((upto 32).map fun i =>
      if (s.sreg e f.c.toNat).getLsbD i then (s.vreg e f.a.toNat).getD i 0 else (s.vreg e f.b.toNat).getD i 0) s))

/-- R248, R251: the accumulator instructions write Ad alone. -/
def Obligations.AccumulatorInstructionsWriteOneAccumulator : Prop :=
  ∀ (e : Fin 256) (f : EngFields) (s : State),
    let p := (s.vreg e f.a.toNat).zipWith (fun a b => elem 20 f.sgn a.toNat * elem 20 f.sgn b.toNat) (s.bVec e f)
    (s.issues e .mac f → completes (.mac e f) s (accOnly e f.d.toNat ((s.areg e f.d.toNat).zipWith (fun a v => accFit f.sat (a.toInt + v)) p) s)) ∧
    (s.issues e .msu f → completes (.msu e f) s (accOnly e f.d.toNat ((s.areg e f.d.toNat).zipWith (fun a v => accFit f.sat (a.toInt - v)) p) s)) ∧
    (s.issues e .aset f → completes (.aset e f) s (accOnly e f.d.toNat ((s.bVec e f).map fun b =>
      (if f.sgn then b.signExtend 48 else b.setWidth 48 : BitVec 48) <<< fSh f) s))

/-- R252, R253: loads and table lookups whose bytes all lie in local memory write their destination alone, and no memory. -/
def Obligations.LoadsReadPackedLocalMemory : Prop :=
  ∀ (e : Fin 256) (f : EngFields) (s : State),
    let va := localAt e (s.address e f.a (fOff f) 16)
    let tb := s.address e f.b (fOff f) 16
    let last := 2 ^ bf f.imm 19 16 - 1
    (s.issues e .vld f → s.address e f.a (fOff f) 16 + 80 ≤ 0x10000 →
      completes (.vld e f) s (vectorOnly e f ((upto 32).map (packedWord s.work va)) s)) ∧
    (s.issues e .vlds f → s.address e f.a (fOff f) 16 + packedBytes (31 * bf (s.sreg e f.b.toNat) 11 0 + 1) ≤ 0x10000 →
      completes (.vlds e f) s (vectorOnly e f ((upto 32).map fun i => packedWord s.work va (i * bf (s.sreg e f.b.toNat) 11 0)) s)) ∧
    (s.issues e .sld f → s.address e f.a (fOff f) 4 + 4 ≤ 0x10000 →
      completes (.sld e f) s (scalarOnly e f.d.toNat
        (BitVec.ofNat 32 (leNat (readBytes zeroByte s.work (localAt e (s.address e f.a (fOff f) 4)) 4))) s)) ∧
    (s.issues e .vlut f → tb + packedBytes (2 ^ bf f.imm 19 16) ≤ 0x10000 →
      completes (.vlut e f) s (vectorOnly e f ((s.vreg e f.a.toNat).map fun a =>
        if elem 20 f.sgn a.toNat < 0 then BitVec.ofNat 20 (Config.unstated 10 (a.toNat + 2 ^ 20 * tb))
        else packedWord s.work (localAt e tb) (min last (elem 20 f.sgn a.toNat).toNat)) s)) ∧
    (s.issues e .vluti f → tb + packedBytes (2 ^ bf f.imm 19 16) ≤ 0x10000 →
      completes (.vluti e f) s fun t => vectorOnly e f ((s.vreg e f.a.toNat).map fun a =>
        if elem 20 f.sgn a.toNat < 0 then BitVec.ofNat 20 (Config.unstated 10 (a.toNat + 2 ^ 20 * tb))
        else
          let x := (elem 20 f.sgn a.toNat).toNat
          let fr := bf f.imm 23 20
          let idx := min (x >>> fr) last
          let nxt := min (idx + 1) last
          let entry := fun i => elem 20 f.sgn (packedWord s.work (localAt e tb) i).toNat
          BitVec.ofNat 20 (fitTo 20 f.sgn f.sat
            (entry idx + ((entry nxt - entry idx) * (x % 2 ^ fr : Nat) + (if fr = 0 then 0 else 2 ^ (fr - 1))) / 2 ^ fr))) s t)

/-- R217, R252: a store that lies in the data region of local memory writes its bytes alone, and no register but the program counter. -/
def Obligations.StoresWriteTheirBytesAlone : Prop :=
  ∀ (e : Fin 256) (f : EngFields) (s : State),
    (s.issues e .vst f → s.codeTop e ≤ s.address e f.a (fOff f) 16 → s.address e f.a (fOff f) 16 + 80 ≤ 0x10000 →
      completes (.vst e f) s fun t => storeOnly e s t ∧
        (∀ x, x < localAt e (s.address e f.a (fOff f) 16) ∨ localAt e (s.address e f.a (fOff f) 16) + 80 ≤ x →
          nget zeroByte t.work x = nget zeroByte s.work x) ∧
        ∀ j w, j < 32 → (s.vreg e f.d.toNat)[j]? = some w → packedWord t.work (localAt e (s.address e f.a (fOff f) 16)) j = w) ∧
    (s.issues e .sst f → s.codeTop e ≤ s.address e f.a (fOff f) 4 → s.address e f.a (fOff f) 4 + 4 ≤ 0x10000 →
      completes (.sst e f) s fun t => storeOnly e s t ∧
        (∀ x, x < localAt e (s.address e f.a (fOff f) 4) ∨ localAt e (s.address e f.a (fOff f) 4) + 4 ≤ x →
          nget zeroByte t.work x = nget zeroByte s.work x) ∧
        leNat (readBytes zeroByte t.work (localAt e (s.address e f.a (fOff f) 4)) 4) = (s.sreg e f.d.toNat).toNat)

/-- R222, R225, R245, R252: an undefined encoding or a fetch from at or above `CODE_TOP` ends the job with fault code 1, shown in `ENG_FAULT` and in
a `DONE` of status FAULT; an access of `VLD`, `SLD`, `VST` or `SST`
outside local memory, or a store of the last two below `CODE_TOP`, with fault code 2. -/
def Obligations.EngineFaultsEndTheJob : Prop :=
  (∀ (e : Fin 256) (s : State), s.matrixUp = true → s.canIssue e = true →
    exec (.undefinedEncoding e) s = .next (s.engFaultAt e 1)) ∧
  (∀ (e : Fin 256) (s : State) (x : Flight), s.matrixUp = true → s.canIssue e = true → (s.eng e).cut = none →
    let d := s.jobDesc e
    s.parentOf false e d.tag = none → nfind d.tag s.jik.flight = some x → s.rd (Reg.queCfg (s.doneQ x)) ≠ 0 → s.queueOpen (s.doneQ x) = true →
    completes (.undefinedEncoding e) s fun t => (t.eng e).job = none ∧ (∀ k, k ≠ e.val → t.eng k = s.eng k) ∧
      t.rd (Reg.engFault e) = BitVec.ofNat 32 (2 ^ 28 + d.tag * 2 ^ 16 + (s.eng e).pc / 8 % 2 ^ 13) ∧ nfind d.tag t.jik.flight = none ∧
      (t.queue (s.doneQ x)).held = (s.queue (s.doneQ x)).held ++ [doneDesc x.desc 2 x.throttled 0] ∧ sameMemory s t) ∧
  (∀ (e : Fin 256) (f : EngFields) (s : State), s.matrixUp = true → s.coreUp = true → s.canIssue e = true →
    ∀ p ∈ [(EngOp.nop, Instr.nop e f), (.br, .br e f), (.loop, .loop e f), (.jend, .jend e f), (.jfld, .jfld e f), (.tsig, .tsig e f),
      (.vld, .vld e f), (.vst, .vst e f), (.vlds, .vlds e f), (.sld, .sld e f), (.sst, .sst e f), (.qin, .qin e f), (.qout, .qout e f),
      (.qwait, .qwait e f), (.ldp, .ldp e f), (.vadd, .vadd e f), (.vsub, .vsub e f), (.vmin, .vmin e f), (.vmax, .vmax e f),
      (.vabsd, .vabsd e f), (.vsh, .vsh e f), (.vlog, .vlog e f), (.vmov, .vmov e f), (.vmul, .vmul e f), (.sadd, .sadd e f),
      (.ssub, .ssub e f), (.smul, .smul e f), (.sand, .sand e f), (.sor, .sor e f), (.ssh, .ssh e f), (.smov, .smov e f), (.mac, .mac e f),
      (.msu, .msu e f), (.aset, .aset e f), (.ard, .ard e f), (.asum, .asum e f), (.vperm, .vperm e f), (.vsld, .vsld e f),
      (.vilv, .vilv e f), (.vext, .vext e f), (.vlut, .vlut e f), (.vluti, .vluti e f), (.vcmp, .vcmp e f), (.vsel, .vsel e f)],
      p.1.legal f = false ∨ s.codeTop e ≤ (s.eng e).pc → exec p.2 s = .next (s.engFaultAt e 1)) ∧
  (∀ (e : Fin 256) (f : EngFields) (s : State), s.issues e .vst f →
    s.address e f.a (fOff f) 16 < s.codeTop e ∨ 0x10000 < s.address e f.a (fOff f) 16 + 80 → exec (.vst e f) s = .next (s.engFaultAt e 2)) ∧
  (∀ (e : Fin 256) (f : EngFields) (s : State), s.issues e .sst f →
    s.address e f.a (fOff f) 4 < s.codeTop e ∨ 0x10000 < s.address e f.a (fOff f) 4 + 4 → exec (.sst e f) s = .next (s.engFaultAt e 2)) ∧
  (∀ (e : Fin 256) (f : EngFields) (s : State), s.issues e .vld f → 0x10000 < s.address e f.a (fOff f) 16 + 80 →
    exec (.vld e f) s = .next (s.engFaultAt e 2)) ∧
  ∀ (e : Fin 256) (f : EngFields) (s : State), s.issues e .sld f → 0x10000 < s.address e f.a (fOff f) 4 + 4 →
    exec (.sld e f) s = .next (s.engFaultAt e 2)

/-- R251, R258, R259: `NOP` goes on; `BR` goes to its target when its condition holds, leaving the loops whose bodies the target lies
outside, and goes on otherwise; `LOOP` starts a loop over its body, and skips it for a count of 0. The program counter, a target and the
ends of a loop are of 16 bits (R242). -/
def Obligations.ControlInstructionsSetTheProgramCounter : Prop :=
  ∀ (e : Fin 256) (f : EngFields) (s : State),
    (s.issues e .nop f → completes (.nop e f) s (engineOnly e (s.eng e).onwards s)) ∧
    (s.issues e .br f →
      let a := s.sreg e f.a.toNat
      let k := (f.imm.extractLsb' 16 16).signExtend 32
      let taken := if f.var = 0 then true else if f.var = 1 then a == k else if f.var = 2 then a != k else if f.sgn then a.slt k else a.ult k
      let pc := (((s.eng e).pc : Int) + 8 * (f.imm.setWidth 16).toInt) % 65536
      (taken = false → completes (.br e f) s (engineOnly e (s.eng e).onwards s)) ∧
      (taken = true → completes (.br e f) s (engineOnly e
        ((s.eng e).moved pc.toNat ((s.eng e).loops.dropWhile fun l => !decide ((pc.toNat + 65536 - l.start) % 65536 < (l.stop + 65536 - l.start) % 65536))) s))) ∧
    (s.issues e .loop f → (s.eng e).loops.length < 2 →
      let start := ((s.eng e).pc + 8) % 65536
      let stop := (start + 8 * bf f.imm 9 0) % 65536
      (s.sreg e f.a.toNat = 0 → completes (.loop e f) s
        (engineOnly e ((s.eng e).moved (loopNext stop (s.eng e).loops).1 (loopNext stop (s.eng e).loops).2) s)) ∧
      (s.sreg e f.a.toNat ≠ 0 → completes (.loop e f) s
        (engineOnly e ((s.eng e).moved start ({ start := start, stop := stop, left := (s.sreg e f.a.toNat).toNat } :: (s.eng e).loops)) s)))

/-- R222, R223, R254 to R257, R260: `LDP` completes with its word in Sd, `QIN` with the words and the status of its line, `QOUT` with a posted
write, `QWAIT` once nothing is posted, `TSIG` with its descriptor in the queue and `JEND` with the job ended and its `DONE` written;
until its event comes, each of them waits. -/
def Obligations.WaitingInstructionsWaitForTheirEvent : Prop :=
  ∀ (e : Fin 256) (f : EngFields) (s : State), s.coreUp = true →
    let d := s.jobDesc e
    let waits := fun (w : EngWait) => engineOnly e ((s.eng e).waiting w) s
    let sa := s.address e f.a 0 16
    (s.issues e .ldp f → completes (.ldp e f) s fun t => waits (.ldp (engWord .ldp f)) t ∧
      ((s.eng e).stopped = false → completes (.ldpWordArrive e) t (scalarOnly e f.d.toNat (BitVec.ofNat 32
        (leNat (readBytes zeroByte (if d.space = 0 then s.fstore else s.work) (16 * d.addr + 4 * bf f.imm 11 0) 4))) s))) ∧
    (s.issues e .qwait f → (s.eng e).posted = [] → completes (.qwait e f) s (engineOnly e (s.eng e).onwards s)) ∧
    (s.issues e .qwait f → (s.eng e).posted ≠ [] → completes (.qwait e f) s fun t => waits .qwait t ∧
      ((s.eng e).stopped = false → (∀ p ∈ (s.eng e).posted, p.descs = []) → completes (.postedWritesLanded e) t fun u =>
        u.eng e = { (s.eng e).onwards with posted := [] } ∧ (∀ k, k ≠ e.val → u.eng k = s.eng k) ∧ u.work = s.work ∧ u.que = s.que)) ∧
    (s.issues e .jend f → (s.eng e).posted = [] → (s.eng e).cut = none → s.parentOf false e d.tag = none →
      ∀ x, nfind d.tag s.jik.flight = some x → s.rd (Reg.queCfg (s.doneQ x)) ≠ 0 → s.queueOpen (s.doneQ x) = true →
      completes (.jend e f) s fun t => (t.eng e).job = none ∧ (t.eng e).wait = none ∧ (∀ k, k ≠ e.val → t.eng k = s.eng k) ∧
        t.rd (Reg.engStat e) = 0 ∧ nfind d.tag t.jik.flight = none ∧ sameMemory s t ∧
        (t.queue (s.doneQ x)).held = (s.queue (s.doneQ x)).held ++ [doneDesc x.desc 0 x.throttled (bf (s.sreg e f.a.toNat) 26 0)]) ∧
    (s.issues e .jend f → (s.eng e).posted ≠ [] → completes (.jend e f) s (waits (.jend (bf (s.sreg e f.a.toNat) 26 0)))) ∧
    (s.issues e .qin f →
      let q := s.dataQ false e
      (s.consKind q = 3 ∧ s.consId q = e ∧ s.rd (Reg.queCfg q) ≠ 0 →
        completes (.qin e f) s fun t => waits (.qin (engWord .qin f) 0 false 0) t ∧
        ∀ r rest, (s.eng e).stopped = false → f.var = 0 → (s.queue q).held = r :: rest →
          let b := Desc.ofRec r
          let ws := (s.descWords b).take 5760
          b.dkind = 0 → b.poison = false → serialNewer 16 d.stroke b.stroke = false → s.inLocal e sa (packedBytes (min b.len 5760)) true = true →
          completes (.qinDataArrive e) t fun u => u.work = putWords s.work (localAt e sa) ws 0 ∧ (u.queue q).held = rest ∧
            (u.eng e).wait = none ∧ (u.eng e).pc = (s.eng e).onwards.pc ∧
            u.sreg e f.d.toNat =
              BitVec.ofNat 32 (b.eof.toNat * 2 ^ 30 + ws.length * 2 ^ 16 + b.first.toNat * 2 ^ 15 + b.last.toNat * 2 ^ 14 + b.line)) ∧
      (¬(s.consKind q = 3 ∧ s.consId q = e ∧ s.rd (Reg.queCfg q) ≠ 0) → exec (.qin e f) s = .next (s.engFaultAt e 3))) ∧
    (s.issues e .tsig f →
      let q := bf f.imm 11 0
      (s.mayPush e q = false → exec (.tsig e f) s = .next (s.engFaultAt e 3)) ∧
      (s.mayPush e q = true → s.queueClosed q = true → completes (.tsig e f) s (waits (.tsig (engWord .tsig f)))) ∧
      (s.mayPush e q = true → s.queueClosed q = false → completes (.tsig e f) s fun t => t.eng e = (s.eng e).onwards ∧
        (∀ k, k ≠ e.val → t.eng k = s.eng k) ∧ sameMemory s t ∧ (∀ k, k ≠ q → t.queue k = s.queue k) ∧
        ∃ r, (t.queue q).held = (s.queue q).held ++ [r] ∧ (Desc.ofRec r).dkind = 3 ∧ (Desc.ofRec r).tag = d.tag ∧
          (Desc.ofRec r).stroke = d.stroke ∧ (Desc.ofRec r).arg = (s.sreg e f.a.toNat).toNat)) ∧
    (s.issues e .qout f →
      let q := bf f.imm 27 16
      let sb := s.sreg e f.b.toNat
      let n := min 5760 (bf sb 28 16)
      (f.var = 1 → s.mayPush e q = false → exec (.qout e f) s = .next (s.engFaultAt e 3)) ∧
      (s.outSlot e = none → (f.var = 1 → s.mayPush e q = true) → exec (.qout e f) s = .next (s.engFaultAt e 3)) ∧
      (∀ k j, s.outSlot e = some (k, j) → s.inLocal e sa (packedBytes n) false = true →
        (f.var = 1 → s.mayPush e q = true ∧ s.queueClosed q = false) →
        completes (.qout e f) s (engineOnly e { (s.eng e).onwards with
          posted := (s.eng e).posted ++ [{ slip := k, slot := j, line := bf sb 12 0, off := bf f.imm 12 0,
                                           words := s.localWords e sa n, queue := q
                                           descs := if f.var = 1 then s.postedDescs e k j (bf sb 12 0) (bf f.imm 12 0) (s.localWords e sa n)
                                             else [] }] } s)))

/-- R183, R256, R257: the word of a waiting `LDP` arrives and is written to Sd; posted writes land, with their pushes, and release `QWAIT`
and `JEND`, or wait while the queue of their pushes is closed; a `QIN` takes its descriptors; a queue that is in XOFF and has drained to
`XON` is released, and with it the `TSIG` or `QOUT` of the engine that waited for it, unless the queue is full. -/
def Obligations.ArrivalsReleaseTheEngine : Prop :=
  ∀ (e : Fin 256) (f : EngFields) (s : State), s.fabricUp →
    ((s.eng e).wait = some (.ldp (engWord .ldp f)) → completes (.ldpWordArrive e) s fun t =>
      let d := s.jobDesc e
      let v := leNat (readBytes zeroByte (if d.space = 0 then s.fstore else s.work) (16 * d.addr + 4 * bf f.imm 11 0) 4)
      t.sreg e f.d.toNat = BitVec.ofNat 32 v ∧ (∀ r, r ≠ f.d.toNat → t.sreg e r = s.sreg e r) ∧
        engineOnly e { (s.eng e).onwards with s := (t.eng e).s, wait := none } s t) ∧
    ((s.eng e).wait = some .qwait → (s.eng e).posted = [] →
      completes (.postedWritesLanded e) s (engineOnly e { (s.eng e).onwards with wait := none } s)) ∧
    (∀ r, (s.eng e).wait = some (.jend r) → ((s.land e).eng e).posted = [] → exec (.postedWritesLanded e) s =
      .next (((s.land e).onEng e fun x => { x with wait := none }).endJob e 0 r)) ∧
    (∀ p, (s.eng e).posted = [p] → p.descs ≠ [] → s.rd (Reg.queCfg p.queue) ≠ 0 → s.queueOpen p.queue = false →
      completes (.postedWritesLanded e) s fun t => t.eng e = { s.eng e with posted := [{ p with words := [] }] } ∧ t.que = s.que ∧
        ∀ k, k ≠ e.val → t.eng k = s.eng k) ∧
    ((s.eng e).wait = some (.qin (engWord .qin f) 0 false 0) → ∀ u, s.pop (s.dataQ false e) = (none, u) →
      completes (.qinDataArrive e) s (engineOnly e (u.eng e) u)) ∧
    ((s.eng e).wait = some (.qin (engWord .qin f) 0 false 0) → f.var = 0 → ∀ r u, s.pop (s.dataQ false e) = (some r, u) →
      let d := Desc.ofRec r
      let sa := s.address e f.a 0 16
      let ws := (u.descWords d).take 5760
      d.dkind = 0 → d.poison = false → serialNewer 16 (u.jobDesc e).stroke d.stroke = false →
      u.inLocal e sa (packedBytes (min d.len 5760)) true = true →
      completes (.qinDataArrive e) s fun t => t.work = putWords u.work (localAt e sa) ws 0 ∧ (t.eng e).wait = none ∧
        t.sreg e f.d.toNat = BitVec.ofNat 32 (d.eof.toNat * 2 ^ 30 + ws.length * 2 ^ 16 + d.first.toNat * 2 ^ 15 + d.last.toNat * 2 ^ 14 + d.line)) ∧
    ∀ q : Fin 4096,
      let freed := s.onQueue q fun x => { x with xoff := false }
      let waitsFor := fun (k : Nat) => ∃ w, ((s.eng k).wait = some (.tsig w) ∧ bf (engFieldsOf w).imm 11 0 = q.val) ∨
        ((s.eng k).wait = some (.qout w) ∧ bf (engFieldsOf w).imm 27 16 = q.val)
      ((s.queue q).xoff = false ∨ s.f (Reg.queXon q) 17 0 < (s.queue q).held.length → exec (.queueXonRelease q) s = .next s) ∧
      ((s.queue q).xoff = true → (s.queue q).held.length ≤ s.f (Reg.queXon q) 17 0 →
        (s.queueFull q = true ∨ (∀ k, ¬ waitsFor k) → exec (.queueXonRelease q) s = .next freed) ∧
        ∀ k w, s.queueFull q = false → (∀ j, waitsFor j → j = k) →
          let g := engFieldsOf w
          let sa := s.address k g.a 0 16
          let sb := s.sreg k g.b.toNat
          let n := min 5760 (bf sb 28 16)
          ((s.eng k).wait = some (.tsig w) → bf g.imm 11 0 = q.val → completes (.queueXonRelease q) s fun t =>
            t.eng k = { (s.eng k).onwards with wait := none } ∧ (∀ j, j ≠ k → t.eng j = s.eng j) ∧ sameMemory s t ∧
            (∀ j, j ≠ q.val → t.queue j = s.queue j) ∧ ∃ r, (t.queue q).held = (s.queue q).held ++ [r] ∧ (Desc.ofRec r).dkind = 3 ∧
              (Desc.ofRec r).tag = (s.jobDesc k).tag ∧ (Desc.ofRec r).arg = (s.sreg k g.a.toNat).toNat) ∧
          ∀ sl j, (s.eng k).wait = some (.qout w) → bf g.imm 27 16 = q.val → g.var = 1 → s.outSlot k = some (sl, j) →
            s.inLocal k sa (packedBytes n) false = true → completes (.queueXonRelease q) s fun t =>
              engineOnly k { (s.eng k).onwards with
                wait := none
                posted := (s.eng k).posted ++ [{ slip := sl, slot := j, line := bf sb 12 0, off := bf g.imm 12 0, words := s.localWords k sa n,
                                                 queue := q, descs := s.postedDescs k sl j (bf sb 12 0) (bf g.imm 12 0) (s.localWords k sa n) }] }
                freed t)

/-! ### Jobs and crews (chapter 9) -/

/-- R222: what a `DONE` copies from its `JOB`, and its `STATUS`, `THROTTLED` and `RESULT`. -/
def Obligations.DoneDescriptorsCarryTheJobsFields : Prop :=
  ∀ (job : Rec) (status : Nat) (thr : Bool) (result : Nat), status < 16 →
    let j := Desc.ofRec job
    let d := Desc.ofRec (doneDesc job status thr result)
    d.dkind = 5 ∧ d.space = j.space ∧ d.addr = j.addr ∧ d.stream = j.stream ∧ d.line = j.line ∧ d.stroke = j.stroke ∧ d.tag = j.tag ∧
      d.arg / 2 ^ 28 = status ∧ d.arg / 2 ^ 27 % 2 = thr.toNat ∧ d.arg % 2 ^ 27 = if status = 0 then result % 2 ^ 27 else 0

/-- R227: the parts of a crew's job are non-empty ranges that lie within the job's lines, one after another, and cover them all. -/
def Obligations.CrewPartsCoverTheJob : Prop :=
  ∀ (s : State) (c : Fin 128) (first lines : Nat), 0 < lines →
    (∃ m < s.f (Reg.crwCfg c) 28 24, 0 < (s.member c m).2.2) →
    let parts := (s.divide c first lines).map (·.2.2)
    (∀ p ∈ parts, 0 < p.2 ∧ first ≤ p.1 ∧ p.1 + p.2 ≤ first + lines) ∧ (parts.map (·.2)).sum = lines ∧
      ∀ i p q, parts[i]? = some p → parts[i + 1]? = some q → p.1 + p.2 = q.1

/-- R79, R220, R243: an idle engine takes the oldest `JOB` of its queue with every register 0, at the kernel's entry; in the guard interval,
holding a job, while `SYN_ENG` does not run or while it is not present, it takes none. -/
def Obligations.EnginesTakeJobsWithClearRegisters : Prop :=
  ∀ (e : Fin 256) (s : State), s.fabricUp →
    let q := s.jobQ false e
    ((s.eng e).job.isSome ∨ s.jik.guard = true ∨ s.engClock = false ∨ s.b (Reg.engCfg e) 31 = false → exec (.engineTakeJob e) s = .next s) ∧
    ∀ j before rest entry, (s.eng e).job = none → s.jik.guard = false → s.engClock = true → s.b (Reg.engCfg e) 31 = true →
      (s.queue q).held = before ++ j :: rest → (∀ x ∈ before, (Desc.ofRec x).dkind ≠ 4) → (Desc.ofRec j).dkind = 4 →
      nfind (Desc.ofRec j).kernel (s.eng e).kernels = some entry →
      completes (.engineTakeJob e) s fun t =>
        (t.eng e).job = some j ∧ (t.eng e).pc = entry ∧ (t.eng e).loops = [] ∧
        (∀ r, t.vreg e r = zeroV ∧ t.areg e r = zeroA ∧ t.sreg e r = 0) ∧ (∀ k, k ≠ e → t.eng k = s.eng k) ∧
        (t.queue q).held = before ++ rest ∧ sameMemory s t ∧
        t.rd (Reg.engStat e) = BitVec.ofNat 32 (2 ^ 31 + (Desc.ofRec j).tag * 2 ^ 16 + (Desc.ofRec j).kernel) ∧
        sameRegs s t [Reg.engStat e, Reg.engJobs e, Reg.engLateCnt]

/-- R218, R219: writes that an engine's data region held back are performed between jobs, and then alone change memory; an engine that the
deadline or a fault has cut short holds its job no more. -/
def Obligations.HeldEngineWritesLandBetweenJobs : Prop :=
  ∀ (e : Fin 256) (s : State), s.fabricUp →
    ((s.eng e).job.isSome → (s.eng e).cut = none → exec (.engHeldWrite e) s = .next s) ∧
    ((s.eng e).job = none ∨ (s.eng e).cut.isSome → completes (.engHeldWrite e) s fun t =>
      engineOnly e { s.eng e with held := [] } { s with work := t.work } t ∧
        (∀ x, (∀ w ∈ (s.eng e).held, x < w.1 ∨ w.1 + w.2.length ≤ x) → nget zeroByte t.work x = nget zeroByte s.work x) ∧
        ∀ w, (s.eng e).held.getLast? = some w → readBytes zeroByte t.work w.1 w.2.length = w.2)

/-- R20, R227, R228, R231, R234, R237: crews and the dispatcher: a crew that holds a job, in the guard interval or while `SYN_ENG` does not run,
takes none; else it holds the oldest job of its queue and its parts, each part's job pushed to its member; it routes a line to the members
whose parts need it and discards stale ones; a record starts once in a stroke in which it runs, as a `JOB` in its target's queue or as a
`DONE`; after the deadline no job is in flight and the guard interval has begun. That a descriptor other than `LINE` is taken off without
effect, and that a crew without a job finds every line stale, are the model's choices (log entries on the crew's line queue). -/
def Obligations.CrewsAndTheDispatcherHandleJobs : Prop :=
  ∀ s : State, s.fabricUp →
    (∀ c : Fin 128, (s.crew c).job.isSome ∨ s.jik.guard = true ∨ s.engClock = false ∨ s.b (Reg.crwCfg c) 31 = false →
      exec (.crewTakeJob c) s = .next s) ∧
    (∀ (c : Fin 128) j before rest, (s.crew c).job = none → s.jik.guard = false → s.engClock = true → s.b (Reg.crwCfg c) 31 = true →
      (s.queue (s.jobQ true c)).held = before ++ j :: rest → (∀ x ∈ before, (Desc.ofRec x).dkind ≠ 4) → (Desc.ofRec j).dkind = 4 →
      let parts := s.divide c (Desc.ofRec j).line (Desc.ofRec j).lines
      completes (.crewTakeJob c) s fun t => (t.crew c).job = some j ∧ (t.crew c).parts = parts ∧ (t.crew c).done = [] ∧
        (∀ k, k ≠ c.val → t.crew k = s.crew k) ∧ sameMemory s t ∧
        ((∀ p ∈ parts, s.jobQ p.1 p.2.1 ≠ s.jobQ true c) → (t.queue (s.jobQ true c)).held = before ++ rest) ∧
        ∀ p, parts = [p] → s.jobQ p.1 p.2.1 ≠ s.jobQ true c → s.rd (Reg.queCfg (s.jobQ p.1 p.2.1)) ≠ 0 → s.queueOpen (s.jobQ p.1 p.2.1) = true →
          (t.queue (s.jobQ p.1 p.2.1)).held = (s.queue (s.jobQ p.1 p.2.1)).held ++ [subJob j p.2.2.1 p.2.2.2]) ∧
    (∀ c : Fin 128, (s.queue (s.dataQ true c)).held = [] ∨ s.engClock = false → exec (.crewLineRoute c) s = .next s) ∧
    (∀ (c : Fin 128) r rest, (s.queue (s.dataQ true c)).held = r :: rest → s.engClock = true →
      let d := Desc.ofRec r
      let taken := (s.pop (s.dataQ true c)).2
      let members := s.lineMembers c d.line
      let dests := (members.map fun m => s.dataQ m.1 m.2).filter fun k => s.rd (Reg.queCfg k) != 0
      let old := match (s.crew c).job with | some j => serialNewer 16 (Desc.ofRec j).stroke d.stroke | none => true
      (d.dkind ≠ 0 → exec (.crewLineRoute c) s = .next taken) ∧
      (d.dkind = 0 → old = true ∨ members = [] → exec (.crewLineRoute c) s = .next (taken.countErr (Reg.queStale (s.dataQ true c)) 24 1)) ∧
      (d.dkind = 0 → old = false → members ≠ [] → (∀ k ∈ dests, s.queueOpen k = true) →
        completes (.crewLineRoute c) s fun t => t = forAll dests (fun k t => t.append k r) taken) ∧
      (d.dkind = 0 → old = false → members ≠ [] → (∃ k ∈ dests, s.queueOpen k = false) → exec (.crewLineRoute c) s = .next s)) ∧
    (∀ r : Fin 1024, s.recRuns r = false ∨ r.val ∈ s.jik.ran → exec (.manifestRecordStart r) s = .next s) ∧
    (∀ r : Fin 1024, s.recRuns r = true → r.val ∉ s.jik.ran →
      (s.engClock = false ∨ s.deadlineNs ≤ (s.recWord r 2).toNat ∨ (s.thm.inForce = true ∧ bf (s.recWord r 0) 3 2 ≠ 0)) →
      exec (.manifestRecordStart r) s =
        .next (((s.onJik fun y => { y with ran := y.ran ++ [r.val] }).countPerf Reg.engSkipCnt 31 1).recDone r 6)) ∧
    (∀ r : Fin 1024, s.recRuns r = true → r.val ∉ s.jik.ran → s.engClock = true → s.jik.guard = false →
      (s.recWord r 2).toNat < s.deadlineNs → (s.thm.inForce = false ∨ bf (s.recWord r 0) 3 2 = 0) → bit (s.recWord r 7) 11 = false →
      bit (s.recWord r 5) 26 = false →
      let q := s.jobQ (bit (s.recWord r 0) 1) (bf (s.recWord r 0) 23 16)
      s.rd (Reg.queCfg q) ≠ 0 → s.queueOpen q = true →
      let j := s.recJob r none
      completes (.manifestRecordStart r) s fun t => (t.queue q).held = (s.queue q).held ++ [j] ∧ (∀ k, k ≠ q → t.queue k = s.queue k) ∧
        (Desc.ofRec j).dkind = 4 ∧ (Desc.ofRec j).tag = bf (s.recWord r 1) 9 0 ∧ (Desc.ofRec j).stroke = s.clock.stroke.toNat % 65536 ∧
        (Desc.ofRec j).line = bf (s.recWord r 4) 12 0 ∧ (Desc.ofRec j).lines = bf (s.recWord r 4) 28 16 ∧
        (Desc.ofRec j).kernel = bf (s.recWord r 1) 27 16 ∧ (Desc.ofRec j).addr = bf (s.recWord r 6) 23 0 ∧
        (nfind (bf (s.recWord r 1) 9 0) t.jik.flight).map (fun x => (x.desc, x.record, x.throttled)) = some (j, some r.val, false) ∧
        t.jik.ran = s.jik.ran ++ [r.val] ∧ t.jik.crews = s.jik.crews ∧ t.jik.engs = s.jik.engs ∧ sameMemory s t) ∧
    completes .deadline s fun t => t.jik.flight = [] ∧ t.jik.void = [] ∧ t.jik.guard = true

/-! ### The chart loader (chapter 2) -/

/-- R34, R49: the chart key hash is burnt by the key sequence within 1 ms, from the eight words of `CHT_OTP_DATA`, least significant first;
`TEST_ALLOW` burns `TEST_KEY_OK` with it; a second write that comes late, without eight words, or once a hash is programmed burns
nothing. No register and no memory changes. -/
def Obligations.TheKeySequenceBurnsTheKeyHash : Prop :=
  ∀ (m : Master) (s : State),
    (s.takesWrite m Reg.chtOtpCtrl 0x5A0D0000 →
      completes (.otpKeyFirst m) s fun t => t = { s with loader := { s.loader with otpKeyAt := some s.now } }) ∧
    (∀ w, s.takesWrite m Reg.chtOtpData w → completes (.chtOtpData m w) s fun t =>
      t = { s with loader := { s.loader with otpData := t.loader.otpData } } ∧
        (s.loader.otpData.length < 8 → t.loader.otpData = s.loader.otpData ++ [w]) ∧
        (s.loader.otpData.length = 8 → t.loader.otpData = s.loader.otpData.drop 1 ++ [w])) ∧
    (let burns := fun (c : Instr) (test : Bool) =>
      let inTime := ∃ t0, s.loader.otpKeyAt = some t0 ∧ s.now ≤ t0 + 1000000
      (inTime → s.loader.otpHash = none → s.loader.otpData.length = 8 →
        completes c s fun t => t = { s with loader := { s.loader with
          otpKeyAt := none, otpHash := some (s.loader.otpData.flatMap fun v => leBytes 4 v.toNat), otpTest := test } }) ∧
      (¬ inTime ∨ s.loader.otpHash ≠ none ∨ s.loader.otpData.length ≠ 8 →
        exec c s = .next { s with loader := { s.loader with otpKeyAt := none } })
     (s.takesWrite m Reg.chtOtpCtrl 0xC0DE0001 → burns (.otpBurn m) false) ∧
     (s.takesWrite m Reg.chtOtpCtrl 0xC0DE0003 → burns (.otpTestAllow m) true))

/-- R39, R49: an erase clears the 4 KiB sector at `CHT_FLASH_ADDR` of its slot, so that every byte of it reads 0xFF and no other byte
changes; a program opens that sector; GOLDEN needs the key sequence within 1 ms; while a load is in progress from the slot nothing
changes but the event `CHT_FLASH_BUSY`. -/
def Obligations.FlashOperationsKeepToTheirSector : Prop :=
  ∀ (m : Master) (s : State),
    (s.takesWrite m Reg.chtFlashCtrl 0xA11C0000 →
      completes (.flashKeyFirst m) s fun t => t = { s with loader := { s.loader with flashKeyAt := some s.now } }) ∧
    ∀ golden : Bool,
      let a := slotBase golden + s.f Reg.chtFlashAddr 31 12 * 4096 % 0x4000000
      let inTime := ∃ t0, s.loader.flashKeyAt = some t0 ∧ s.now ≤ t0 + 1000000
      let closed := { s with loader := { s.loader with flashKeyAt := none } }
      (s.takesWrite m Reg.chtFlashCtrl (if golden then 0x5E5E0005 else 0x4) →
        (golden = true → inTime) → s.loadingFrom golden = false → completes (.flashErase m golden) s fun t =>
          t = { closed with cflash := t.cflash, loader := { closed.loader with flashOpen := none } } ∧
            ∀ x, nget erasedByte t.cflash x = if a ≤ x ∧ x < a + 4096 then 0xFF else nget erasedByte s.cflash x) ∧
      (s.takesWrite m Reg.chtFlashCtrl (if golden then 0x5E5E0009 else 0x8) →
        (golden = true → inTime) → s.loadingFrom golden = false →
        completes (.flashProgram m golden) s fun t => t = { closed with loader := { closed.loader with flashOpen := some a } }) ∧
      (s.takesWrite m Reg.chtFlashCtrl (if golden then 0x5E5E0005 else 0x4) → (golden = true → inTime) → s.loadingFrom golden = true →
        exec (.flashErase m golden) s = .next (closed.raiseFree .chtFlashBusy 0)) ∧
      (s.takesWrite m Reg.chtFlashCtrl 0x5E5E0005 → golden = true → ¬ inTime → exec (.flashErase m golden) s = .next closed)

/-- R35, R36: `PULL_GO` starts a load from PCIe only in UNLOADED with the strap for it; a word written anywhere in the push window
appends its 4 bytes, oldest first; what the loader does not take yet waits, and the buffer never holds more than 16,384 bytes. -/
def Obligations.PushAndPullFeedTheLoader : Prop :=
  ∀ (m : Master) (s : State),
    (s.takesWrite m Reg.chtCtrl 1 →
      (s.loadState = 0 → s.pins.straps % 4 = 2 → s.loader.phase = .waiting → completes (.pullGo m) s fun t =>
        t.loadState = 1 ∧ t.loadSlot = 4 ∧ t.loader.phase = .header ∧ sameMemory s t ∧ sameRegs s t [Reg.chtState]) ∧
      (s.loadState ≠ 0 ∨ s.pins.straps % 4 ≠ 2 ∨ s.loader.phase ≠ .waiting → exec (.pullGo m) s = .next s)) ∧
    ∀ (k : Fin 1024) (w : Word), s.takesWrite m (Reg.chtPushData k) w →
      (16384 < s.loader.push.length + 4 → exec (.chtPushData m k w) s = .next s) ∧
      (s.loader.push.length + 4 ≤ 16384 → completes (.chtPushData m k w) s fun t =>
        t.loader.push.length ≤ 16384 ∧ sameMemory s t ∧ sameRegs s t [Reg.chtState] ∧
          (s.loader.amd = none → s.loader.phase ≠ .waiting → s.loadSlot ≠ 3 →
            t = { s with loader := { s.loader with push := s.loader.push ++ leBytes 4 w.toNat } }))

/-- R30, R41: a header and directory, read from the strapped source or given with the command (checks 1 to 6, and `SIGNED`): accepted, the loader goes on to the
segment of order 0; refused, the load fails with the reason of the first check that fails; with no header due nothing happens. -/
def Obligations.HeadersAreCheckedInOrder : Prop :=
  ∀ (s : State) (got : Option (List Byte)), s.fabricUp →
    let head := match got with | some image => image.take 256 | none => s.chartBytes 0 256
    let h := Header.parse head
    let dir := match got with
      | some image => (image.drop 256).take (16 * h.segCount)
      | none => if s.loadSlot = 3 then (s.loader.rx.drop 256).take (16 * h.segCount) else s.chartBytes 256 (16 * min 10 h.segCount)
    let c0 := headerCheck head true
    let c1 := dirCheck h dir true (s.loadSlot == 1 || s.loadSlot == 2)
    let c := if c0 ≠ 0 then c0 else if c1 ≠ 0 then c1 else if s.loader.otpHash.isSome ∧ h.signed = false then 8 else 0
    (s.loader.phase ≠ .header ∨ s.partHere = false → exec (.headerRead got) s = .next s) ∧
    (s.loader.phase = .header → s.partHere = true →
      (c ≠ 0 → exec (.headerRead got) s = .next (s.loadFail c 0)) ∧
      (c = 0 → completes (.headerRead got) s fun t =>
        t.loader.phase = .reading 0 ∧ t.loader.hdr = some h ∧ t.loader.dir = parseDir h.segCount dir ∧ sameMemory s t ∧
          sameRegs s t [Reg.chtState]))

/-- R37, R38: a failure of PRIMARY starts the load again from the GOLDEN header, with `FALLBACK` and PRIMARY's reason shown and `CODE` and
`SEG_TYPE` 0; a failure of any other source is FAILED, with the code and the segment type shown and `FAULT_N` asserted
(no segment places words in `CHT_REASON` itself). What the segments had placed in memory is cleared, but for what FIRST_LIGHT keeps of the
first-light state. -/
def Obligations.AFailedLoadFallsBackOrFails : Prop :=
  ∀ (s : State) (code typ : Nat), code < 32 → typ < 11 →
    let cleared := fun (keep store : Bool) (x : Nat) =>
      ∃ e ∈ s.loader.filled, ¬ (keep = true ∧ e.1 = 1) ∧ e.2.1 = store ∧ e.2.2.1 ≤ x ∧ x < e.2.2.1 + e.2.2.2
    let clears := fun (keep : Bool) (t : State) => t.nvsMem = s.nvsMem ∧ t.cflash = s.cflash ∧ t.hostMem = s.hostMem ∧ ∀ x,
      (cleared keep false x → nget zeroByte t.work x = 0) ∧ (¬ cleared keep false x → nget zeroByte t.work x = nget zeroByte s.work x) ∧
      (cleared keep true x → nget zeroByte t.fstore x = 0) ∧ (¬ cleared keep true x → nget zeroByte t.fstore x = nget zeroByte s.fstore x)
    (s.loadSlot = 1 → let t := s.loadFail code typ
      t.loadSlot = 2 ∧ t.loader.phase = .header ∧ t.b Reg.chtReason 31 = true ∧ t.f Reg.chtReason 20 16 = code ∧ t.f Reg.chtReason 15 0 = 0 ∧
        clears (s.loadState == 2) t) ∧
    (s.loadSlot ≠ 1 → (∀ e ∈ s.loader.placed, e.2.1 ≠ Reg.chtReason) → let t := s.loadFail code typ
      t.loadState = 4 ∧ t.loader.phase = .ended ∧ t.f Reg.chtReason 7 0 = code ∧ t.f Reg.chtReason 15 8 = typ ∧ t.faultAsserted = true ∧
        clears false t)

/-- R30, R32, R33, R34, R41: a segment that has been read and matches its CRC, its digest (in a signed chart) and its capacities is placed
next; a first wrong CRC reads it once more and counts the re-read; a second is the failure `SEG_CRC`; a wrong digest is `DIGEST`; records
outside their capacities, or that cannot be decoded, are `CONTENT`. `TRUST` is checked against the key hash, the signature and the test
rule before its CRC, and then gives the digests of the others. -/
def Obligations.SegmentsAreCheckedAsTheyAreRead : Prop :=
  ∀ (s : State) (o : Nat) (h : Header) (e : DirEntry) (bs : List Byte) (c : Option SegContent), s.fabricUp →
    s.loader.phase = .reading o → s.loader.hdr = some h → s.loader.dir.find? (fun d => d.order == o) = some e → s.partHere = true →
    let crc := crc32 (if e.typ = 10 then bs.take 0x5C0 else bs)
    let trusted := e.typ = 10 → s.loader.trustCheck h s.loader.head bs = 0
    let digested := e.typ ≠ 10 → h.signed = true →
      s.loader.digests[(s.loader.dir.filter fun d => d.typ != 10).findIdx fun d => d.order == o]? = some (sha256 bs)
    (¬ trusted → exec (.segmentRead (some bs) c) s = .next (s.loadFail (s.loader.trustCheck h s.loader.head bs) e.typ)) ∧
    (trusted → crc ≠ e.crc → s.loader.reread = false → exec (.segmentRead (some bs) c) s =
      .next { s.countErr Reg.chtRetryCnt 16 1 with loader := { s.loader with reread := true } }) ∧
    (trusted → crc ≠ e.crc → s.loader.reread = true → exec (.segmentRead (some bs) c) s = .next (s.loadFail 0xB e.typ)) ∧
    (crc = e.crc → ¬ digested → exec (.segmentRead (some bs) c) s = .next (s.loadFail 0xC e.typ)) ∧
    (crc = e.crc → digested → e.typ ≠ 10 → s.segmentOk e.typ c = false → exec (.segmentRead (some bs) c) s = .next (s.loadFail 0xD e.typ)) ∧
    (crc = e.crc → digested → e.typ ≠ 10 → s.segmentOk e.typ c = true → completes (.segmentRead (some bs) c) s fun t =>
      t.loader.phase = .placing o ∧ t.loader.reread = false ∧ t.loader.content = c ∧ t = { s with loader := t.loader }) ∧
    (e.typ = 10 → trusted → crc = e.crc → bytesAt bs 0x44 4 ≤ 16 → completes (.segmentRead (some bs) c) s fun t =>
      t.loader.phase = .placing o ∧ t.loader.digests = trustDigests h bs ∧ t = { s with loader := t.loader })

/-- R38, R41: a placed segment is followed by the segment of the next order, or the load waits for the boundary at which the device enters
RUNNING. `TRUST` places nothing; `FIRST_LIGHT` starts the first-light state in LOADING, and in FIRST_LIGHT (GOLDEN after PRIMARY) is kept for
the next boundary unless its digest is the running one's; any other segment is placed and its clocks start. -/
def Obligations.PlacedSegmentsMoveTheLoadOn : Prop :=
  ∀ (s : State) (o : Nat) (e : DirEntry) (c : SegContent), s.fabricUp → s.loader.phase = .placing o → s.loader.content = some c →
    s.loader.dir.find? (fun d => d.order == o) = some e →
    let golden := s.onLoader fun l => { l with flNext := some c, flDigest := l.flRead }
    let u := (if e.typ = 10 then s else if e.typ ≠ 1 then (s.placeContent e.typ c).startClocks else if s.loadState ≠ 2 then s.enterFirstLight c
      else if s.loader.flRead = s.loader.flDigest then s else golden).onLoader fun l => { l with content := none }
    completes .segmentPlaced s fun t =>
      (o + 1 < u.loader.dir.length → t.loader.phase = .reading (o + 1) ∧ t.f Reg.chtState 15 8 = (o + 1) % 256) ∧
      (u.loader.dir.length ≤ o + 1 → t = { u with loader := { u.loader with phase := .lastPlaced } }) ∧
      t.loader.flNext = u.loader.flNext ∧ t.loader.flDigest = u.loader.flDigest ∧ sameRegs u t [Reg.chtState] ∧ sameMemory u t

/-- R45, R46, R47: `GO` starts staging in RUNNING with the take-stroke as it stands; a second `GO` is refused `AMD_BUSY` and leaves the first
as it is; outside RUNNING it is `AMD_STATE`; `ABORT` discards silently. -/
def Obligations.AmendmentsStageOneAtATime : Prop :=
  ∀ (m : Master) (path : Bool) (s : State),
    (s.takesWrite m Reg.chtAmdCtrl (if path then 5 else 1) →
      (∀ x, s.loader.amd = some x → exec (.amdGo m path) s = .next (s.raise .chtAmdRefused 0 0x16)) ∧
      (s.loader.amd = none → s.running = false → exec (.amdGo m path) s = .next (s.amdRefuse 0x17)) ∧
      (s.loader.amd = none → s.running = true → completes (.amdGo m path) s fun t =>
        t.rd Reg.chtAmdStatus = 1 ∧ sameRegs s t [Reg.chtAmdStatus] ∧ sameMemory s t ∧
        ∃ a, t.loader.amd = some a ∧ a.path = path.toNat ∧ a.staged = false ∧
          a.take = (s.rd Reg.chtAmdTakeLo).toNat + s.f Reg.chtAmdTakeHi 15 0 * 2 ^ 32)) ∧
    (s.takesWrite m Reg.chtAmdCtrl 2 →
      (s.loader.amd = none → exec (.amdAbort m) s = .next s) ∧
      (s.loader.amd ≠ none → completes (.amdAbort m) s fun t =>
        t = { s.wr Reg.chtAmdStatus 0 with loader := { s.loader with amd := none } }))

/-- R32, R45 to R48: a staged image that fails a check, or whose take-stroke has passed, is discarded with its reason; a segment with a wrong
CRC is read once more and counted, and one still wrong then is `SEG_CRC`; else the image is held whole for its take-stroke. -/
def Obligations.StagedAmendmentsAreCheckedOrDiscarded : Prop :=
  ∀ (s : State) (a : Amendment) (image : List Byte) (guard tags : Nat), s.fabricUp → s.loader.amd = some a → a.staged = false →
    let c := Instr.amdStaged (some image) guard tags
    let wrong := wrongSegments image
    let b : Amendment := { a with image := image, staged := true, guard := guard, mtags := tags }
    (s.amdFront image ≠ 0 → exec c s = .next (s.amdRefuse (s.amdFront image))) ∧
    (s.amdFront image = 0 → (∃ x ∈ wrong, x ∈ a.reread) → exec c s = .next (s.amdRefuse 0xB)) ∧
    (s.amdFront image = 0 → wrong ≠ [] → (∀ x ∈ wrong, x ∉ a.reread) → exec c s =
      .next { s.countErr Reg.chtRetryCnt 16 wrong.length with loader := { s.loader with amd := some { a with reread := a.reread ++ wrong } } }) ∧
    (s.amdFront image = 0 → wrong = [] →
      (s.amdBack image guard tags ≠ 0 → exec c s = .next (s.amdRefuse (s.amdBack image guard tags))) ∧
      (s.amdBack image guard tags = 0 →
        (a.take ≠ 0 → serialNewer 48 a.take s.clock.stroke.toNat = false → exec c s = .next (s.amdRefuse 0x15)) ∧
        ((a.take = 0 ∨ serialNewer 48 a.take s.clock.stroke.toNat = true) → s.rolesIdle b = true →
          completes (.amdStaged (some image) guard tags) s fun t => t = { s.wr Reg.chtAmdStatus 2 with loader := { s.loader with amd := some b } }))) ∧
    (∀ code, (s.amdRefuse code).rd Reg.chtAmdStatus = BitVec.ofNat 32 (code * 65536 + 4) ∧ (s.amdRefuse code).loader.amd = none)

/-! ### References, the Cox, strokes and synthesizers (chapters 1, 3 and 4) -/

/-- R62: the winner is the manual choice when it is qualified, else the enabled and qualified reference of the highest QL and, among
equals, of the lowest `PRIO`; there is none only when no reference is qualified. -/
def Obligations.TheWinnerIsTheManualChoiceOrTheBest : Prop :=
  ∀ s : State,
    (s.qualified (s.f Reg.coxSel 2 0) = true → s.coxWinner = some (s.f Reg.coxSel 2 0)) ∧
    (s.qualified (s.f Reg.coxSel 2 0) = false →
      (s.coxWinner = none ↔ ∀ n < 8, s.qualified n = false) ∧
      ∀ w, s.coxWinner = some w → w < 8 ∧ s.qualified w = true ∧ ∀ n < 8, s.qualified n = true →
        s.ql n < s.ql w ∨ (s.ql n = s.ql w ∧
          (s.f (Reg.coxRefCfg w) 6 4 < s.f (Reg.coxRefCfg n) 6 4 ∨ (s.f (Reg.coxRefCfg w) 6 4 = s.f (Reg.coxRefCfg n) 6 4 ∧ w ≤ n))))

/-- R57 to R59: a gate shows the offset it measured and the hard alarm of each enabled reference; outside ±9.2 ppm the reference is
disqualified at once; a reference that is not enabled keeps its bits. No memory changes, and the Cox changes state at boundaries only. -/
def Obligations.GatesJudgeEveryReference : Prop :=
  ∀ (g : GateIn) (s : State), s.matrixUp = true →
    completes (.coxGate g) s fun t =>
      (∀ n < 8, ∀ o, s.refOn n = true → gateOffset g n = some o →
        t.rd (Reg.coxRefFofs n) = BitVec.ofInt 32 o ∧ t.b (Reg.coxRefStat n) 2 = decide (9200000 < o.natAbs) ∧
        (9200000 < o.natAbs → t.qualified n = false)) ∧
      (∀ n < 8, s.refOn n = false → t.f (Reg.coxRefStat n) 3 0 = s.f (Reg.coxRefStat n) 3 0) ∧
      t.rd Reg.coxPhaseErr = BitVec.ofInt 32 g.phaseErr ∧ t.coxState = s.coxState ∧ t.inUse = s.inUse ∧ sameMemory s t

/-- R53 to R55, R59: loss of activity disqualifies a reference, and the next edge shows activity again; a QL byte with a wrong complement or
framing is only counted; a second valid byte with the same value puts the pin's QL in force, and 5 s without one the register's. -/
def Obligations.ActivityAndQualityFollowThePins : Prop :=
  ∀ (n : Fin 8) (s : State), s.matrixUp = true →
    (completes (.refActivityLoss n) s fun t =>
      t.b (Reg.coxRefStat n) 0 = false ∧ t.qualified n = false ∧ t.coxState = s.coxState ∧ sameMemory s t) ∧
    (completes (.refActivityReturn n) s fun t => t = s.setB (Reg.coxRefStat n) 0 true) ∧
    (∀ (byte : BitVec 8) (framed : Bool),
      (s.b (Reg.coxRefCfg n) 1 = false → exec (.qlMessage n byte framed) s = .next s) ∧
      (s.b (Reg.coxRefCfg n) 1 = true → (framed = false ∨ byte.toNat / 16 ≠ 15 - byte.toNat % 16) →
        completes (.qlMessage n byte framed) s fun t =>
          t.f (Reg.coxRefStat n) 23 16 = min 255 (s.f (Reg.coxRefStat n) 23 16 + 1) ∧ t.ql n = s.ql n ∧ t.cox = s.cox ∧ sameMemory s t) ∧
      (n.val < 6 → s.b (Reg.coxRefCfg n) 1 = true → framed = true → byte.toNat / 16 = 15 - byte.toNat % 16 →
        (s.ref n).lastQl = byte.toNat % 16 → 0 < (s.ref n).qlRun →
        completes (.qlMessage n byte framed) s fun t =>
          t.ql n = byte.toNat % 16 ∧ t.f (Reg.coxRefStat n) 11 10 = 1 ∧ sameMemory s t)) ∧
    (n.val < 6 → s.b (Reg.coxRefCfg n) 1 = true → completes (.qlTimeout n) s fun t =>
      t.ql n = s.f (Reg.coxRefQl n) 3 0 ∧ t.f (Reg.coxRefStat n) 11 10 = 0 ∧ (t.ref n).pinQl = none ∧ sameMemory s t)

/-- R61, R63, R65, R66, R71: writes of the Cox's registers: the mode, the manual choice (stored during a switch), the steering held to
±200,000,000, a slew that starts or grows; the Cox's state and the reference in use wait for the boundary. -/
def Obligations.CoxWritesWaitForTheBoundary : Prop :=
  ∀ (m : Master) (w : Word) (s : State),
    let moded := fun (k : Nat) (t : State) => t.rd Reg.coxCtrl = mergeMask 0x33 (s.rd Reg.coxCtrl) (setFld w 1 0 k) ∧ t.coxMode = k ∧
      t.coxState = s.coxState ∧ t.inUse = s.inUse ∧ sameMemory s t
    (s.takesWrite m Reg.coxCtrl (setFld w 1 0 0) → completes (.coxManual m w) s (moded 0)) ∧
    (s.takesWrite m Reg.coxCtrl (setFld w 1 0 1) → completes (.coxForceHold m w) s (moded 1)) ∧
    (s.takesWrite m Reg.coxCtrl (setFld w 1 0 2) → completes (.coxForceFree m w) s (moded 2)) ∧
    (s.takesWrite m Reg.coxSel w → completes (.coxSelWrite m w) s fun t =>
      t.f Reg.coxSel 2 0 = bf w 2 0 ∧ t.coxState = s.coxState ∧ t.inUse = s.inUse ∧ sameMemory s t ∧
        (s.cox.switch.isSome = true → t.cox = { s.cox with storedSel := true } ∧ sameRegs s t [Reg.coxSel])) ∧
    (s.takesWrite m Reg.coxSteer w → completes (.coxSteerWrite m w) s fun t =>
      t.i32 Reg.coxSteer = clampI (-200000000) 200000000 w.toInt ∧ t.coxState = s.coxState ∧ sameMemory s t) ∧
    (s.takesWrite m Reg.coxSlewCtrl (w ||| 0x10000) → completes (.slewGo m w) s fun t =>
      t.cox = { s.cox with slewLeft := s.cox.slewLeft + s.i32 Reg.coxSlewTarget } ∧ t.b Reg.coxSlewCtrl 31 = true ∧
        t.f Reg.coxSlewCtrl 9 0 = bf w 9 0 ∧ sameRegs s t [Reg.coxSlewCtrl] ∧ sameMemory s t)

/-- R63, R65, R69, R72, R74: the Cox's timers: a wait-to-restore that ends makes the switch due if its reference still wins; a slew that is
done is in the build-out and has moved the end of the stroke; a holdover value is valid after 10 s in LOCKED, in units of 50 ps with the
present stroke; the compensation is recomputed, or lost with every
sensor broken; a `SYNC_OUT` pulse ends at the inactive level. -/
def Obligations.CoxTimersHaveTheirEffect : Prop :=
  ∀ s : State, s.matrixUp = true →
    (∀ n : Fin 8, (s.cox.wtr ≠ some n.val → exec (.wtrExpiry n) s = .next s) ∧
      (s.cox.wtr = some n.val → completes (.wtrExpiry n) s fun t =>
        t.cox.wtr = none ∧ t.b Reg.coxState 10 = false ∧ t.b (Reg.coxRefStat n) 8 = false ∧
          t.cox.due = (if s.coxWinner = some n.val then some n.val else s.cox.due) ∧ sameRegs s t [Reg.coxState, Reg.coxRefStat n])) ∧
    ((s.b Reg.coxSlewCtrl 31 = false ∨ s.cox.switch ≠ none → exec .slewDone s = .next s) ∧
      (s.b Reg.coxSlewCtrl 31 = true → s.cox.switch = none → completes .slewDone s fun t =>
        t.rd Reg.coxBuildout = BitVec.ofInt 32 (s.i32 Reg.coxBuildout + s.cox.slewLeft) ∧ t.cox.slewLeft = 0 ∧
          t.b Reg.coxSlewCtrl 31 = false ∧ (t.clock.len : Int) = max 0 (s.clock.len + s.cox.slewLeft) ∧
          sameRegs s t [Reg.coxBuildout, Reg.coxSlewCtrl] ∧ sameMemory s t)) ∧
    (completes .holdValid s fun t => t = if s.coxState = 2 ∧ 200000000000 ≤ s.cox.lockedTime + s.clock.len then s.setB Reg.coxState 11 true else s) ∧
    (let good := s.tcSensors.filter fun c => !s.b (sensorReg c) 31
      let sum := good.foldl (fun a c => a + tempOf (s.rd (sensorReg c))) 0
      completes .tcompUpdate s fun t => sameMemory s t ∧ t.cox.tcLost = good.isEmpty ∧
        (good = [] → t.rd Reg.coxTcomp = s.rd Reg.coxTcomp) ∧
        (good ≠ [] → t.rd Reg.coxTcomp = BitVec.ofInt 32 (tcPoly (s.i32 (Reg.coxTcC 0)) (s.i32 (Reg.coxTcC 1)) (s.i32 (Reg.coxTcC 2))
          (s.i32 (Reg.coxTcC 3)) (sum - 250 * good.length) (10 * good.length)))) ∧
    ∀ n : Fin 2, completes (.syncOutPulseEnd n) s fun t =>
      t = { s with pins := t.pins } ∧ (if n = 0 then t.pins.syncOut0 else t.pins.syncOut1) = s.b (Reg.coxSyncOut n) 30 ∧
        (if n = 0 then t.pins.syncOut1 else t.pins.syncOut0) = (if n = 0 then s.pins.syncOut1 else s.pins.syncOut0)

/-- R14, R61, R69, R75: at a stroke boundary the stroke number goes up by 1, or becomes the number adopted before RUNNING; the boundary
moves by the stroke's length (a slew in progress moves it further); the guard interval ends; `FORCE_FREE` enters FREE_RUN, `FORCE_HOLD` HOLDOVER, or FREE_RUN with no valid holdover value; the status
pins show the state. With `SYN_CORE` stopped the Cox, its rate, the markers, the ports and the heads' groups go on, and the rest waits (R88). -/
def Obligations.StrokeBoundariesStepTheCox : Prop :=
  ∀ (ps : List RefPhase) (s : State), s.matrixUp = true →
    let t := coxBoundary ps s
    (s.coreUp = true → exec (.strokeBoundary ps) s =
      .next ((s.pastDeadline.boundaryFirst ps).boundaryMiddle.jikNewStroke.guardEntries).lightStep) ∧
    (s.coreUp = false → exec (.strokeBoundary ps) s = .next (s.boundaryStill ps)) ∧
    (s.coreUp = false → s.clock.rateNext = none → s.cox.adopt = false ∨ s.cox.adoptNum = none → s.cox.slewLeft = 0 →
      completes (.strokeBoundary ps) s fun u => u.clock.stroke = s.clock.stroke + 1 ∧ u.clock.boundary = s.clock.boundary + s.clock.len) ∧
    (∀ n d, s.coreUp = false → s.clock.rateNext = some (n, d) → completes (.strokeBoundary ps) s fun u =>
      u.clock.rateNum = n ∧ u.clock.rateDen = max 1 d ∧ u.clock.rateNext = none) ∧
    (s.coreUp = true → s.loader.flNext = none → s.clock.rateNext = none → s.cox.adopt = false ∨ s.cox.adoptNum = none → s.cox.slewLeft = 0 →
      completes (.strokeBoundary ps) s fun u => u.clock.stroke = s.clock.stroke + 1 ∧ u.clock.boundary = s.clock.boundary + s.clock.len ∧
        u.jik.guard = false ∧ u.lgt.inFlight.isSome = true) ∧
    (s.cox.adopt = false ∨ s.running = true ∨ s.cox.adoptNum = none → t.clock.stroke = s.clock.stroke + 1) ∧
    (∀ k, s.cox.adopt = true → s.running = false → s.cox.adoptNum = some k → t.clock.stroke = k) ∧
    (s.cox.slewLeft = 0 → t.clock.boundary = s.clock.boundary + s.clock.len) ∧
    (s.cox.switch = none → s.cox.failDue = false → s.coxMode = 2 → t.coxState = 0) ∧
    (s.cox.switch = none → s.cox.failDue = false → s.coxMode = 1 → t.coxState = if s.b Reg.coxState 11 then 3 else 0) ∧
    t.pins.coxLock = (t.coxState == 2) ∧ t.pins.coxHold = (t.coxState == 3) ∧ t.pins.coxSel = (if t.coxState = 0 then 0 else t.inUse) ∧
    sameMemory s t

/-- R84 to R90: a synthesizer that acquires, coasts or has stopped locks on lock, but for a stopped `SYN_CORE`; a locked one that loses its
lock or reference coasts and counts it, and a muted one never coasts; a coasting one reports its error and stops beyond ±0.5 %, `SYN_CORE`
with the fabric and `FAULT_N`; `RELOCK` acquires anew unless R90 ignores it. -/
def Obligations.SynthesizersLockCoastAndStop : Prop :=
  ∀ (k : Fin 136) (s : State), s.matrixUp = true → k ≠ 7 →
    (∀ lost : Bool, completes (.synLockLoss k lost) s fun t =>
      (s.synState k = 2 → t.synState k = 3) ∧ (s.synState k ≠ 2 → t.synState k = s.synState k ∧ sameRegs s t [Reg.synStat k]) ∧
        (lost = true → t.b (Reg.synStat k) 21 = true) ∧ sameMemory s t) ∧
    (∀ err : Int, (s.synState k ≠ 3 → exec (.synFerrMeasure k err) s = .next s) ∧
      (s.synState k = 3 → err.natAbs ≤ 50000 → exec (.synFerrMeasure k err) s = .next (s.setI32 (Reg.synFerr k) err)) ∧
      (s.synState k = 3 → 50000 < err.natAbs → exec (.synFerrMeasure k err) s =
        .next ((((s.setI32 (Reg.synFerr k) err).setSynState k 4).raise .synCoastLimit k k).stopDomains k true) ∧
        (k = 0 → completes (.synFerrMeasure k err) s fun t => t.synState 0 = 4 ∧ t.coreUp = false ∧ t.pwr.fault = true))) ∧
    (¬ (s.synState k = 1 ∨ s.synState k = 3 ∨ s.synState k = 4) ∨ (k = 0 ∧ s.synState 0 = 4) → exec (.synLock k) s = .next s) ∧
    (s.synState k = 1 ∨ s.synState k = 3 ∨ (s.synState k = 4 ∧ k ≠ 0) → k = 0 ∨ k = 1 ∨ k = 6 →
      completes (.synLock k) s fun t => t.synState k = 2 ∧ t.b (Reg.synStat k) 21 = false ∧ (t.synOf k).relock = false ∧ sameMemory s t) ∧
    (s.synState k = 1 ∨ s.synState k = 3 ∨ s.synState k = 4 → k ≠ 0 →
      let u := ((s.setSynState k 2).setB (Reg.synStat k) 21 false).onSyn k fun x =>
        { x with relock := false, halted := x.halted && k != 0, again := x.halted }
      let v := if s.synState k ≠ 1 ∨ (s.synOf k).relock = true then u.raise .synRelocked k k else u
      exec (.synLock k) s = .next (State.synStaleCheck (if synVid k then v.timingCleared k else if 8 ≤ k.val then v.wakePorts k else v) k)) ∧
    ∀ m : Master, s.takesWrite m (Reg.synCtrl k) 1 →
      ((s.running = true ∧ s.feedsWatch k = true) ∨ (k = 0 ∧ s.synState 0 = 4) → exec (.synRelock m k) s = .next s) ∧
      (¬ ((s.running = true ∧ s.feedsWatch k = true) ∨ (k = 0 ∧ s.synState 0 = 4)) →
        completes (.synRelock m k) s fun t => t.synState k = 1 ∨ t.synState k = 5)

/-! ### Ports and the link protocol (chapters 5 and 6) -/

/-- R95, R104 to R107, R110, R119, R123 to R125, R148: what each rung of the ladder waits for, and where its end leads: a lane's completion
counts while the TAP does not hold its pads, and moves the group once every lane has completed, a bonded group in TRAIN once it also has
a buoy on every lane and a skew of at most 64; TRAIN returns to DETECT after 100 ms, or goes on with lane index 0 alone; a failed step
falls back one rate, or runs on where no rate has changed. -/
def Obligations.PortsClimbTheLadder : Prop :=
  ∀ (p : Fin 512) (s : State), s.matrixUp = true →
    let l := s.lead p
    let x := s.port l
    let free := s.pins.extest = false
    let done := (s.setLock p true).onPort p fun x => { x with laneDone := true }
    let all := ∀ q ∈ s.lanes l, q = p.val ∨ (s.port q).laneDone = true
    let aligned := (s.grouped l = false ∨ ∀ q ∈ s.lanes l, (s.port q).buoy = true) ∧ s.f (Reg.prtGrpStat l) 6 0 ≤ 64
    let tries := fun (r : Nat) => nget (fun _ => 0) x.tries r
    let kept := fun (t : State) => ∀ q, t.ladder q = s.ladder q
    (s.ladder p ≠ 1 ∨ ¬ free → exec (.detectDone p) s = .next s) ∧
    (s.ladder p = 1 → free → ¬ all → completes (.detectDone p) s fun t => t = s.onPort p fun x => { x with laneDone := true }) ∧
    (s.ladder p = 1 → free → all → completes (.detectDone p) s fun t => t.groupAt l 2 ∧ ∀ q ∈ t.lanes l, (t.port q).retrain = false) ∧
    (∀ inv : Bool, (s.ladder p ≠ 2 ∨ ¬ free → exec (.trainDone p inv) s = .next s) ∧
      (s.ladder p = 2 → free → s.ladder l = 2 → completes (.trainDone p inv) s fun t =>
        t.b (Reg.prtStat p) 13 = inv ∧ t.b (Reg.prtStat p) 12 = true ∧
        (all → aligned → if x.retrain then (t.port l).resumeDue = true ∧ t.ladder p = 2 else t.groupAt l 3) ∧
        (¬ all ∨ ¬ aligned → kept t))) ∧
    (∀ al : Bool, (s.ladder l ≠ 2 ∨ x.relock = true ∨ x.resumeDue = true → exec (.trainTimeout p al) s = .next s) ∧
      (s.ladder l = 2 → x.relock = false → x.resumeDue = false →
        if al = true ∧ s.grouped l = true ∧ ∀ q ∈ s.lanes l, (s.port q).buoy = false then
          completes (.trainTimeout p al) s fun t => t.groupAt l 3 ∧ (t.port l).alone = true ∧
            ∀ q ∈ (s.lanes l).drop 1, (t.port q).txIdle = true ∧ t.ladder q = 6 ∧ (s.laneSends q = true → sends (.idleCode q) s t)
        else completes (.trainTimeout p al) s fun t => t.groupAt l 1 ∧ t.rd (Reg.prtGrpStat l) = 0 ∧ ∀ q ∈ t.lanes l, t.rate q = 0)) ∧
    (s.ladder l ≠ 3 → exec (.negTransmit p) s = .next s ∧ exec (.negotiateDone p) s = .next s ∧ exec (.negotiateTimeout p) s = .next s) ∧
    (s.ladder l = 3 →
      (completes (.negTransmit p) s fun t => (t.port l).txAck = (x.txAck || x.neg.isSome) ∧ kept t ∧ (s.heard l → sends
        (.message l (Msg.bytes { mtype := 0, tag := 0, op := 0, mlen := 4, addr := 0, payload := negPayload x.neg.isSome }) 0) s t)) ∧
      (x.neg = none ∨ x.rxAck = false ∨ x.txAck = false → exec (.negotiateDone p) s = .next s) ∧
      (∀ pl, x.neg = some pl → x.rxAck = true → x.txAck = true → x.txIdle = false → completes (.negotiateDone p) s fun t =>
        t.version l = min 3 ((pl.getD 0 0).toNat % 4) ∧ t.f (Reg.prtLinkStat l) 31 24 = (pl.getD 3 0).toNat ∧
          t.f (Reg.prtLinkStat l) 23 16 = enabledFeatures (min 3 ((pl.getD 0 0).toNat % 4)) (pl.getD 3 0).toNat ∧ (t.groupAt l 4 ∨ t.groupAt l 5)) ∧
      completes (.negotiateTimeout p) s fun t => t.groupAt l 1) ∧
    (x.step = none → (∀ eye, exec (.stepDone p eye) s = .next s) ∧ exec (.stepTimeout p) s = .next s ∧
      exec (.rateAgreeTimeout p) s = .next s) ∧
    (∀ st, x.step = some st → st.changed = true → st.rate ≤ 2 →
      (completes (.stepTimeout p) s fun t => t.groupAt l 2 ∧ (t.port l).failRate = some st.rate ∧
        t.f (Reg.prtStat l) 18 16 = min 3 (tries st.rate + 1) ∧ nget (fun _ => 0) (t.port l).tries st.rate = min 3 (tries st.rate + 1) ∧
        ∀ q ∈ t.lanes l, t.rate q = (if s.generating l = true then s.rate q else st.rate - 1) ∧ (t.port q).retrain = true) ∧
      ∀ eye : Nat, s.ladder p = 4 → free →
        (eye < 2 * s.f (Reg.prtCfg p) 15 8 → exec (.stepDone p eye) s = exec (.stepTimeout p) s) ∧
        (2 * s.f (Reg.prtCfg p) 15 8 ≤ eye → ¬ all → completes (.stepDone p eye) s fun t => t = done) ∧
        (2 * s.f (Reg.prtCfg p) 15 8 ≤ eye → all → x.txIdle = false → completes (.stepDone p eye) s fun t =>
          t.f (Reg.prtStat l) 18 16 = s.f (Reg.prtStat l) 18 16 ∧ (t.port l).tries = x.tries ∧ (t.groupAt l 4 ∨ t.groupAt l 5) ∧
            ∀ q, t.rate q = s.rate q)) ∧
    (∀ st, x.step = some st → (st.agreed = true → exec (.rateAgreeTimeout p) s = .next s) ∧
      (st.agreed = false → st.changed = false → s.ladder l = 4 → x.txIdle = false → completes (.rateAgreeTimeout p) s fun t =>
        t.groupAt l 5 ∧ (t.port l).step = none ∧ (t.port l).failRate = some st.rate ∧ ∀ q, t.rate q = s.rate q)) ∧
    (∀ r, x.failRate = some r →
      if s.ladder l = 5 ∧ x.step = none ∧ tries r < 3 ∧ (s.watchPort l = false ∨ s.running = false) ∧
          s.generating l = false ∧ (s.portIdle l = true ∨ s.b (Reg.prtCfg l) 30 = true) ∧ s.stepAllowed l r = true ∧ s.proposes l = true then
        completes (.stepRetry p) s fun t => kept t ∧
          (t.port l).step = some { rate := r, stroke := s.clock.stroke.toNat + 2, agreed := false, changed := false }
      else exec (.stepRetry p) s = .next s)

/-- R53, R88, R100 to R103, R106, R110 to R114, R119: a lane lost in RUN drops an unbonded port to TRAIN and starts the count of a group, which
narrows after eight boundaries to the largest power of two of its good lanes; a reference on the port loses its activity; relock,
buoys, `WIDEN`, `RETRAIN`, `RESTEP` and electrical idle. -/
def Obligations.PortsLoseLanesAndRest : Prop :=
  ∀ (m : Master) (p : Fin 512) (s : State), s.matrixUp = true →
    let l := s.lead p
    let i := s.laneIndex p
    let G := Reg.prtGrpStat l
    let x := s.port l
    let kept := fun (t : State) => ∀ q, t.ladder q = s.ladder q
    (completes (.laneLockLoss p) s fun t =>
      (s.ladder p ≠ 5 ∨ s.grouped l = false ∨ s.b G (24 + i) = true → t.b (Reg.prtStat p) 12 = false) ∧
      (s.ladder p ≠ 5 → s.ladder p ≠ 4 → kept t ∧ (t.port p).laneDone = false) ∧
      (s.ladder p = 5 → s.grouped l = false ∨ s.b G (24 + i) = true → t.rd (Reg.prtLockCnt p) = (satAdd 16 1 (s.rd (Reg.prtLockCnt p))).1) ∧
      (s.ladder p = 5 → s.grouped l = false → t.groupAt l 2 ∧ (t.port l).xacts = [] ∧ (t.port l).relock = true ∧
        ∀ q ∈ t.lanes l, (t.port q).retrain = true) ∧
      (let up := fun (k : Nat) => ∃ q ∈ s.lanes l, q ≠ p.val ∧ s.laneIndex q = k ∧ s.b (Reg.prtStat q) 12 = true
       s.ladder p = 5 → s.grouped l = true → s.b G (24 + i) = true →
        ((∃ k < 8, up k) → t.b G (16 + i) = true ∧ (∀ k < 8, t.b G (24 + k) = true ↔ up k) ∧
          (t.port l).lossAge = some (x.lossAge.getD 0) ∧ (t.port l).resumeDue = false ∧ kept t) ∧
        ((∀ k < 8, ¬ up k) → t.groupAt l 1)) ∧
      (s.ladder p ≠ 5 ∨ s.grouped l = false ∨ s.b G (24 + i) = true →
        ∀ n ∈ [6, 7], s.f (Reg.coxRefCfg n) 28 20 = p → t.b (Reg.coxRefStat n) 0 = false ∧ t.qualified n = false)) ∧
    (if s.ladder l = 2 ∧ x.relock = true ∧ x.resumeDue = false then
      completes (.retrainTimeout p) s fun t => if s.rate l = 0 ∧ s.generating l = false then t.groupAt l 1
        else t.groupAt l 2 ∧ (t.port l).relock = true ∧
          ∀ q ∈ t.lanes l, t.rate q = (if s.generating l = true then s.rate q else s.rate l - 1) ∧ (t.port q).retrain = true
    else exec (.retrainTimeout p) s = .next s) ∧
    (if s.ladder l = 5 ∧ s.grouped l = true ∧ s.pins.extest = false then
      completes (.laneRelock p) s fun t => t.b (Reg.prtStat p) 12 = true ∧ (p.val ∈ s.lanes l → i < 8 → t.b G (24 + i) = true) ∧ kept t ∧
        (s.b (Reg.prtStat l) 14 = true → t.grpGood l = t.allLanes l → t.b (Reg.prtStat l) 15 = true)
    else exec (.laneRelock p) s = .next s) ∧
    (∀ skew (index : Fin 8) (count : BitVec 16),
      (s.grouped l = false → exec (.buoyReceived p skew index count) s = .next s) ∧
      (s.grouped l = true → completes (.buoyReceived p skew index count) s fun t => t.f G 6 0 = max (s.f G 6 0) (min 127 skew) ∧
        (t.port p).place = some (index.val % (s.lanes l).length) ∧ (t.port p).farBuoy = count.toNat ∧ (s.ladder l ≠ 2 → kept t) ∧
        (s.ladder l = 2 → (t.port p).buoy = true) ∧
        (s.ladder l = 5 → x.lossAge.isSome = true → x.offer = none → t.laneOut l = false → (t.port l).resumeDue = true))) ∧
    (if s.ladder l = 5 ∧ x.offer = none ∧ s.laneOut l = true ∧ ∃ n, x.lossAge = some n ∧ 8 ≤ n then
      completes (.groupNarrow p) s fun t =>
        (s.grpGood l = 0 → t.groupAt l 1) ∧
        (s.grpGood l ≠ 0 → kept t ∧ ∃ o, (t.port l).offer = some o ∧ o.widen = false ∧
          o.stroke = s.clock.stroke.toNat + 1 ∧ o.width = (maskLanes o.mask).length ∧ o.width ∈ [1, 2, 4, 8] ∧
          (∀ k ∈ maskLanes o.mask, (s.grpGood l).testBit k = true) ∧ (maskLanes (s.grpGood l)).length < 2 * o.width)
    else exec (.groupNarrow p) s = .next s) ∧
    (s.takesWrite m (Reg.prtCtrl p) 8 →
      if s.ladder l = 5 ∧ s.b (Reg.prtStat l) 15 = true ∧ x.offer = none then
        completes (.widen m p) s fun t => kept t ∧ (t.port l).offer = some
          { widen := true, width := (s.lanes l).length, mask := s.allLanes l, stroke := s.clock.stroke.toNat + 1, echoed := false }
      else exec (.widen m p) s = .next s) ∧
    (s.takesWrite m (Reg.prtCtrl p) 0x20 →
      if s.role l ≠ 0 ∧ s.ladder l ≠ 0 ∧ x.halted = false then
        completes (.retrain m p) s fun t => t.groupAt l 1 ∧ (t.port l).alone = false ∧ (t.port l).xacts = []
      else exec (.retrain m p) s = .next s) ∧
    (s.takesWrite m (Reg.prtCtrl p) 0x10 →
      if s.watchPort l = true ∧ s.running = true then exec (.restep m p) s = .next s
      else completes (.restep m p) s fun t => t.f (Reg.prtStat l) 18 16 = 0 ∧
        t = { s.onPort l fun y => { y with tries := [] } with regs := t.regs } ∧ sameRegs s t [Reg.prtStat l]) ∧
    (s.takesWrite m (Reg.prtCtrl p) 1 →
      if s.watchPort p = false ∧ s.ladder l ≠ 0 ∧ x.txIdle = false then
        completes (.idleEnter m p) s fun t => (∀ q ∈ t.lanes l, (t.port q).txIdle = true ∧ (s.laneSends q = true → sends (.idleCode q) s t)) ∧
          (s.ladder l = 5 → t.groupAt l 6) ∧ (s.ladder l ≠ 5 → kept t)
      else exec (.idleEnter m p) s = .next s) ∧
    (s.takesWrite m (Reg.prtCtrl p) 2 →
      if s.ladder l ≠ 0 ∧ x.txIdle = true ∧ x.halted = false ∧ s.pins.extest = false then
        completes (.idleExit m p) s fun t => (∀ q ∈ t.lanes l, (t.port q).txIdle = false) ∧
          (s.ladder l = 6 → x.rxIdle = false → t.groupAt l 5 ∧ (t.port l).windows = []) ∧ (s.ladder l ≠ 6 ∨ x.rxIdle = true → kept t)
      else exec (.idleExit m p) s = .next s) ∧
    (let u := s.onPort p fun x => { x with rxQuiet := true }
     completes (.rxIdleEntry p) s fun t => (t.port p).rxQuiet = true ∧
      if (s.ladder l = 5 ∨ s.ladder l = 6) ∧ u.quiet l = true then t.groupAt l 6 ∧ (t.port l).rxIdle = true else t = u) ∧
    (let u := s.onPort p fun x => { x with rxQuiet := false }
     (s.pins.extest = true → exec (.rxIdleExit p) s = .next s) ∧
     (s.pins.extest = false → completes (.rxIdleExit p) s fun t => (t.port p).rxQuiet = false ∧
       if x.rxIdle = true ∧ u.quiet l = false then
         (t.port l).rxIdle = false ∧ (s.ladder l = 6 → x.txIdle = false → t.groupAt l 5 ∧ (t.port l).windows = [])
       else t = u)) ∧
    (if s.ladder l = 6 ∧ x.rxIdle = true ∧ x.halted = false then
      completes (.idleExitTimeout p) s fun t => t.groupAt l 2 ∧ (t.port l).xacts = [] ∧ (∀ q, t.rate q = s.rate q) ∧
        ∀ q ∈ t.lanes l, (t.port q).retrain = true
    else exec (.idleExitTimeout p) s = .next s)

/-- R97, R115 to R119, R149, R150: PRBS is enabled only on an idle port that is not a watch port; eye scans; read-back receivers, locked where the
chart assigned them; the TAP takes the pads; code errors are counted; rough water needs its two keys within 1 ms, a TEST chart and no
watch port, and its control is refused while it is not armed. -/
def Obligations.TestUnitsFollowTheirControls : Prop :=
  (∀ (m : Master) (p : Fin 512) (w : Word) (s : State), s.takesWrite m (Reg.prtPrbsCtrl p) w →
    ((bit w 0 || bit w 4) = true → s.portIdle p = false → exec (.prbsCtrlWrite m p w) s = .next (s.setB (Reg.prtStat p) 19 true)) ∧
    ((bit w 0 || bit w 4) = false ∨ s.portIdle p = true → completes (.prbsCtrlWrite m p w) s fun t =>
      t.rd (Reg.prtPrbsCtrl p) = w &&& 0x77 ∧ ((bit w 0 || bit w 4) = true → t.b (Reg.prtStat p) 19 = false) ∧
        sameRegs s t [Reg.prtPrbsCtrl p, Reg.prtStat p, Reg.prtPrbsErr p])) ∧
  (∀ (p : Fin 512) (bits errs : Nat) (s : State), s.matrixUp = true →
    (s.b (Reg.prtPrbsCtrl p) 4 = false → exec (.prbsCheckerSync p bits errs) s = .next s) ∧
    (s.b (Reg.prtPrbsCtrl p) 4 = true → completes (.prbsCheckerSync p bits errs) s fun t =>
      t.b (Reg.prtPrbsErr p) 30 = true ∧ t.f (Reg.prtPrbsErr p) 29 0 = min (2 ^ 30 - 1) (s.f (Reg.prtPrbsErr p) 29 0 + errs) ∧
        t.rd (Reg.prtPrbsBitsLo p) = s.rd (Reg.prtPrbsBitsLo p) + BitVec.ofNat 32 bits) ∧
    completes (.invalidSymbol p) s fun t => t.rd (Reg.prtCodeErr p) = (satAdd 24 1 (s.rd (Reg.prtCodeErr p))).1 ∧ t.prt = s.prt) ∧
  (∀ (m : Master) (o : Fin 64) (w : Word) (s : State), s.takesWrite m (Reg.prtOctEyeCtrl o) (w ||| 1) →
    completes (.eyeScan m o w) s fun t => t.b (Reg.prtOctEyeCtrl o) 0 = true ∧ t.f (Reg.prtOctEyeCtrl o) 18 16 = bf w 18 16 ∧
      t.b (Reg.prtOctEyeRes o) 31 = false ∧ (t.eye o).scan = true ∧ sameRegs s t [Reg.prtOctEyeCtrl o, Reg.prtOctEyeRes o]) ∧
  (∀ (o : Fin 64) (hgt wid : Nat) (s : State), s.matrixUp = true →
    if (s.eye o).scan = true ∧ (upto 8).all (fun k => s.ladder (8 * o + k) != 4) = true then
      completes (.eyeScanDone o hgt wid) s fun t => (t.eye o).scan = false ∧ t.b (Reg.prtOctEyeCtrl o) 0 = false ∧
        t.b (Reg.prtOctEyeRes o) 31 = true ∧ t.f (Reg.prtOctEyeRes o) 9 0 = min 1023 hgt ∧ t.f (Reg.prtOctEyeRes o) 21 16 = min 63 wid ∧
        sameRegs s t [Reg.prtOctEyeCtrl o, Reg.prtOctEyeRes o]
    else exec (.eyeScanDone o hgt wid) s = .next s) ∧
  (∀ (m : Master) (k : Fin 32) (w : Word) (s : State), s.takesWrite m (Reg.prtRbCfg k) w →
    if s.running = true ∧ k.val ∈ s.prt.rbLocked then exec (.rbCfgWrite m k w) s = .next (s.setB (Reg.prtRbStat k) 30 true)
    else completes (.rbCfgWrite m k w) s fun t => t.rd (Reg.prtRbCfg k) = w &&& 0x800001FF ∧ t.b (Reg.prtRbStat k) 31 = false ∧
      sameRegs s t [Reg.prtRbCfg k, Reg.prtRbStat k]) ∧
  (∀ (k : Fin 32) (s : State), s.matrixUp = true →
    (completes (.rbSyncGained k) s fun t => t.b (Reg.prtRbStat k) 31 = (s.b (Reg.prtRbCfg k) 31 || s.b (Reg.prtRbStat k) 31) ∧
      sameRegs s t [Reg.prtRbStat k]) ∧
    completes (.rbSyncLost k) s fun t => t.b (Reg.prtRbStat k) 31 = false ∧ sameRegs s t [Reg.prtRbStat k] ∧
      ∀ h ∈ s.watchHeads, s.b (Reg.prtRbCfg k) 31 = true → s.f (Reg.prtRbCfg k) 8 0 ∈ s.lanes (s.outPort h) → (t.head h).rbOut = true) ∧
  (∀ (on : Bool) (s : State),
    let powered := s.pwr.phase = .hold ∨ s.pwr.phase = .running ∨ s.pwr.phase = .inReset
    (¬ powered → exec (.extest on) s = .next s) ∧
    (powered → on = false ∨ s.matrixUp = false → exec (.extest on) s = .next { s with pins := { s.pins with extest := on } }) ∧
    (s.matrixUp = true → completes (.extest true) s fun t => t.pins.extest = true ∧ sameMemory s t ∧
      ∀ p : Fin 512, s.ladder p = 1 ∨ s.ladder p = 2 → t.b (Reg.prtStat p) 12 = false)) ∧
  (∀ (m : Master) (p : Fin 512) (w : Word) (s : State), s.takesWrite m (Reg.prtRwKey p) w →
    (w = 0xB0A75EA5 → exec (.rwKey m p w) s = .next (s.onPort p fun x => { x with keyAt := some s.now })) ∧
    (w ≠ 0xB0A75EA5 →
      if w = 0x5EA5B0A7 ∧ s.running = true ∧ s.testChart = true ∧ s.watchPort p = false ∧
          ∃ k, (s.port p).keyAt = some k ∧ s.now ≤ k + 1000000 then
        completes (.rwKey m p w) s fun t => t.b (Reg.prtRwStat p) 31 = true ∧ (t.port p).keyAt = none
      else exec (.rwKey m p w) s = .next (s.onPort p fun x => { x with keyAt := none }))) ∧
  ∀ (m : Master) (p : Fin 512) (w : Word) (s : State),
    let acts := fun (c : Instr) (go : Bool) => s.takesWrite m (Reg.prtRwCtrl p) (setFld w 23 23 go.toNat) →
      (s.b (Reg.prtRwStat p) 31 = false → exec c s = .next (s.setB (Reg.prtRwStat p) 30 true)) ∧
      (s.b (Reg.prtRwStat p) 31 = true → completes c s fun t =>
        t.rd (Reg.prtRwCtrl p) = w &&& 0xE73FFFFE ∧ t.b (Reg.prtRwStat p) 30 = false ∧ t.b (Reg.prtRwStat p) 31 = bit w 31 ∧
          (bit w 29 = true → s.feature p 5 = false → t.prt = s.prt) ∧
          (go = true → bit w 31 = true → bit w 29 = false → s.ladder (s.lead p) = 5 → s.lanes (s.lead p) = [s.lead p] → bf w 26 24 = 0 →
            t.b (Reg.prtStat (s.lead p)) 12 = false))
    acts (.rwCtrlWrite m p w) false ∧ acts (.rwLossGo m p w) true

/-- R97, R128, R132, R133, R136, R139 to R144, R152, R155: markers and what is missing of them; packets and messages by their CRC-32 and their
window; a request is carried out once and answered again from the cache; a transaction is retried, then fails; a host transaction is
refused by its code or becomes an outstanding request; phase pull is due at the next boundary; a stream without a packet sends nothing. -/
def Obligations.LonanCountsAndAnswersOnce : Prop :=
  (∀ (p : Fin 512) (s : State), s.matrixUp = true →
    let missed := fun (t : State) => t.rd (Reg.prtMarkerMiss p) = (satAdd 16 1 (s.rd (Reg.prtMarkerMiss p))).1 ∧
      (t.port p).missRun = min 2 ((s.port p).missRun + 1) ∧
      (1 ≤ (s.port p).missRun → ∀ n ∈ [6, 7], s.f (Reg.coxRefCfg n) 28 20 = p →
        t.b (Reg.coxRefStat n) 0 = false ∧ t.qualified n = false)
    completes (.markerMissing p) s missed ∧
    ∀ (bs : List Byte) (errs : Nat), s.rough (s.lead p) false = false →
      (errs ≠ 0 ∨ bs.length ≠ 8 ∨ crc8 (bs.take 7) ≠ bs.getD 7 0 → completes (.markerReceived p bs errs) s fun t =>
        missed t ∧ (errs ≠ 0 → t.rd (Reg.prtCodeErr p) = (satAdd 24 errs (s.rd (Reg.prtCodeErr p))).1)) ∧
      (errs = 0 → bs.length = 8 → crc8 (bs.take 7) = bs.getD 7 0 → completes (.markerReceived p bs errs) s fun t =>
        t.rd (Reg.prtMarkerMiss p) = s.rd (Reg.prtMarkerMiss p) ∧ (t.port p).missRun = 0 ∧
          ∀ n ∈ [6, 7], s.f (Reg.coxRefCfg n) 28 20 = p → t.ql n = ((bs.getD 6 0) &&& 0xF).toNat)) ∧
  (∀ (r : RxIn) (s : State), s.fabricUp →
    let l := s.lead r.port
    let quiet := s.rough l false = false ∧ s.rough r.port false = false
    let coded := fun (t : State) => r.errs ≠ 0 → t.rd (Reg.prtCodeErr r.port) = (satAdd 24 r.errs (s.rd (Reg.prtCodeErr r.port))).1
    (s.ladder l < 3 ∨ (s.port l).rxIdle = true → exec (.packetReceived r) s = .next s) ∧
    (3 ≤ s.ladder l → (s.port l).rxIdle = false → r.aborted = true → completes (.packetReceived r) s fun t =>
      coded t ∧ t.prt = s.prt ∧ t.xtb = s.xtb ∧ (r.errs = 0 → t = s)) ∧
    (3 ≤ s.ladder l → (s.port l).rxIdle = false → r.aborted = false → quiet →
      (r.errs ≠ 0 ∨ (r.isMsg = true ∧ Msg.parse r.bytes = none) ∨ (r.isMsg = false ∧ crcGood r.bytes = false) →
        r.isMsg = true ∨ s.flowing r.port = true →
        completes (.packetReceived r) s fun t => t.rd (Reg.prtRxCrcErr l) = (satAdd 24 1 (s.rd (Reg.prtRxCrcErr l))).1 ∧ t.prt = s.prt ∧ coded t) ∧
      (r.errs = 0 → r.isMsg = false → s.flowing r.port = false → exec (.packetReceived r) s = .next s) ∧
      (r.errs = 0 → r.isMsg = true → ∀ g, Msg.parse r.bytes = some g → g.mtype = 1 →
        let crc := leNat (r.bytes.drop (r.bytes.length - 4))
        let hit := (s.port l).cache.find? fun e => e.tag == g.tag && e.crc == crc
        (∀ e rsp, hit = some e → e.resp = some rsp → completes (.packetReceived r) s fun t =>
          (s.heard l → sends (.message l rsp 0) s t) ∧ (t.port l).far = (s.port l).far ∧ (t.port l).cache = (s.port l).cache ∧ t.xtb = s.xtb) ∧
        (hit = none → g.op = 1 → g.payload.length ≤ 64 → 0x100 ≤ g.addr → g.addr + g.payload.length ≤ 0x180 →
          let rsp := Msg.bytes { mtype := 2, tag := g.tag, op := 0, mlen := 0, addr := 0, payload := [] }
          completes (.packetReceived r) s fun t =>
            (t.port l).far = writeBytes zeroByte (s.port l).far g.addr g.payload ∧ (s.heard l → sends (.message l rsp 0) s t) ∧
              ∃ e ∈ (t.port l).cache, e.tag = g.tag ∧ e.crc = crc ∧ e.resp = some rsp)))) ∧
  (∀ (p : Fin 512) (tag : Fin 256) (s : State), s.matrixUp = true →
    (((s.port p).xacts.find? fun x => x.tag == tag.val) = none → exec (.xactTimeout p tag) s = .next s) ∧
    ∀ x, ((s.port p).xacts.find? fun x => x.tag == tag.val) = some x →
      (x.retries < s.f (Reg.prtXactCfg p) 10 8 → completes (.xactTimeout p tag) s fun t => (s.heard p → sends (.message p x.msg 0) s t) ∧
        (t.port p).xacts = (s.port p).xacts.map fun z => if z.tag = tag.val then { z with retries := z.retries + 1 } else z) ∧
      (s.f (Reg.prtXactCfg p) 10 8 ≤ x.retries → (s.port p).waits = [] → completes (.xactTimeout p tag) s fun t =>
        (t.port p).xacts = (s.port p).xacts.filter (fun z => z.tag ≠ tag.val) ∧
          t.rd (Reg.prtXactFail p) = (satAdd 16 1 (s.rd (Reg.prtXactFail p))).1)) ∧
  (∀ (m : Master) (p : Fin 512) (len : BitVec 5) (s : State),
    let acts := fun (c : Instr) (k : Nat) => s.takesWrite m (Reg.prtHxCmd p) (hxWord k len) →
      let wr := k = 1 ∨ k = 3
      let data := if wr then (upto len.toNat).flatMap fun i => leBytes 4 (s.rd (Reg.prtHxData p i)).toNat else []
      let req : Msg :=
        { mtype := 1, tag := (s.port p).nextTag, op := k, mlen := len.toNat, addr := (s.rd (Reg.prtHxAddr p)).toNat, payload := data }
      (s.b (Reg.prtHxStat p) 31 = true → exec c s = .next s) ∧
      (s.b (Reg.prtHxStat p) 31 = false →
        (s.running = true ∧ s.watchPort p = true ∧ wr → exec c s = .next (s.setF (Reg.prtHxStat p) 10 8 2)) ∧
        (¬ (s.running = true ∧ s.watchPort p = true ∧ wr) →
          (len = 0 ∨ 16 < len.toNat → exec c s = .next (s.setF (Reg.prtHxStat p) 10 8 3)) ∧
          (0 < len.toNat → len.toNat ≤ 16 → s.lead p ≠ p ∨ s.ladder p ≠ 5 → exec c s = .next (s.setF (Reg.prtHxStat p) 10 8 5)) ∧
          (0 < len.toNat → len.toNat ≤ 16 → s.lead p = p → s.ladder p = 5 → completes c s fun t =>
            t.b (Reg.prtHxStat p) 31 = true ∧ t.f (Reg.prtHxStat p) 10 8 = 0 ∧
            ((s.port p).waits = [] → (s.port p).mayIssue = true → (t.port p).xacts = (s.port p).xacts ++
              [{ tag := (s.port p).nextTag, use := .host, retries := 0, msg := req.bytes }] ∧
              (s.heard p → sends (.message p req.bytes 0) s t)))))
    acts (.hxRead m p len) 0 ∧ acts (.hxWrite m p len) 1 ∧ acts (.hxReadId m p len) 2 ∧ acts (.hxWriteId m p len) 3) ∧
  (∀ (m : Master) (p : Fin 512) (w : Word) (s : State), s.takesWrite m (Reg.prtPullCfg p) w →
    completes (.pullCfgWrite m p w) s fun t => t = (s.wr (Reg.prtPullCfg p) (w &&& 0xF7FFFFFF)).onPort p fun x => { x with pullDue := true }) ∧
  ∀ (i : Fin 2048) (s : State), s.fabricUp →
    let l := s.lead (s.streamPort i)
    (s.outFeeder i = none ∨ (s.egress i).show_ = none → s.queuesTo 1 l = [] → exec (.egressPacketSend i) s = .next s) ∧
    (∀ e pk, s.outFeeder i = some e → (s.egress i).show_ = some pk → completes (.egressPacketSend i) s fun t =>
      (s.mayCarry i 1 = true → s.heard l → ∃ bs, sends (.packet l bs false 0) s t) ∧
        ((t.egress i).show_ = (s.egress i).next_ ∨ (t.egress i).line = (s.egress i).line + 1 ∨ (t.egress i).part = (s.egress i).part + 1))

/-! ### Heads and watch heads (chapters 11 and 12) -/

/-- R269, R281, R282, R284, R286, R292, R298, R306 to R308, R317: a head that runs starts its frame with the stroke's number and counts it, starts its lines in
order, and at its gate line takes the commit that waits and the icons' states, once a frame; commits of one head and of several wait for
a gate line; gangways but a running watch head's take the host's value; tell-tale pins are sampled and accepted. -/
def Obligations.HeadsScanAndCommitAtTheirGateLine : Prop :=
  (∀ (h : Fin 64) (err : Int) (s : State), s.matrixUp = true →
    (s.headRuns h = false ∨ (s.head h).due = [] → exec (.headFrameStart h err) s = .next s) ∧
    (s.headRuns h = true → (s.head h).due ≠ [] → (s.head h).scan = false ∨ ((s.head h).gated = true ∧ (s.head h).lines ≤ s.headLine h + 1) →
      completes (.headFrameStart h err) s fun t =>
        (t.head h).due = (s.head h).due.drop 1 ∧
        (t.head h).scan = true ∧ (t.head h).started = false ∧ (t.head h).gated = false ∧ (t.head h).stroke = s.clock.stroke.toNat ∧
        (t.head h).mute = (s.head h).muteNext ∧ (t.head h).onIcons = (s.icons h).filter (s.iconOn h) ∧
        t.rd (Reg.headPhaseErr h) = BitVec.ofInt 32 err ∧ t.rd (Reg.headPos h) = BitVec.ofNat 32 ((s.f (Reg.headPos h) 15 0 + 1) % 65536) ∧
        t.rd (Reg.headFrames h) = ovfAdd 31 1 (s.rd (Reg.headFrames h)))) ∧
  (∀ (h : Fin 64) (fetch : List (Fin 8 × Nat)) (broken : List (Fin 256 × BitVec 19 × Word)) (s : State), s.matrixUp = true →
    ((s.head h).scan = false ∨ s.headClock h = false → exec (.headLineStart h fetch []) s = .next s) ∧
    ((s.head h).scan = true → s.headClock h = true → completes (.headLineStart h fetch broken) s fun t =>
      let y := if (s.head h).started then s.headLine h + 1 else 0
      if (s.head h).lines ≤ y ∧ s.b (Reg.headCtrl h) 0 = false then (t.head h).scan = false ∧ (t.head h).due = [] ∧ t.out = s.out else
      (t.head h).started = true ∧ t.headLine h = min 8191 y ∧ (s.vActive h ≤ y ∨ (s.head h).gated = true → t.out = s.out))) ∧
  (∀ (h : Fin 64) (rb : List (Fin 16 × Option Word)) (sym : List (Fin 32 × Nat × Nat)) (s : State), s.matrixUp = true →
    ((s.head h).scan = false ∨ (s.head h).gated = true → exec (.gateLine h rb []) s = .next s) ∧
    ((s.head h).scan = true → (s.head h).gated = false → completes (.gateLine h rb sym) s fun t =>
      (t.head h).gated = true ∧ (t.head h).scan = true ∧
      (∀ q, s.hed.sync = none → (s.head h).pend = some q →
        (t.head h).pend = none ∧ t.b (Reg.headCommitStatus h) 31 = false ∧ t.f (Reg.headCommitStatus h) 15 0 = q % 65536) ∧
      (s.hed.sync = none → (s.head h).pend = none → (∀ z ∈ (s.head h).zones, z.1 < 1024) → ∀ i ∈ s.icons h, t.iconState h i = s.iconAsked h i))) ∧
  (∀ (m : Master) (h : Fin 64) (w : Word) (s : State), s.takesWrite m (Reg.headCommit h) (w ||| 0x80000000) → s.headOn h = true →
    completes (.headCommit m h w) s fun t => (t.head h).pend = some (bf w 15 0) ∧ sameRegs s t [Reg.headCommitStatus h] ∧
      if (s.head h).pend = none then t.b (Reg.headCommitStatus h) 31 = true ∧
        t.b (Reg.headCommitStatus h) 30 = (s.head h).gated
      else t.rd (Reg.headCommitStatus h) = s.rd (Reg.headCommitStatus h)) ∧
  (∀ (m : Master) (w : Word) (s : State), s.takesWrite m Reg.hedSyncCommit (w ||| 0x80000000) →
    let agree := ∀ a ∈ s.syncHeads, ∀ b ∈ s.syncHeads, ∀ r ∈ [Reg.headHTiming 0, Reg.headVTiming 0, Reg.headRatio 0, Reg.headOffset 0, Reg.headGate 0],
      s.rd (r + 0x4000 * a) = s.rd (r + 0x4000 * b)
    (s.syncHeads ≠ [] → agree → completes (.hedSyncCommit m w) s fun t =>
      t.hed.sync = some s.syncHeads ∧ t.hed.ready = [] ∧ t.rd Reg.hedSyncStat = BitVec.ofNat 32 (2 ^ 31 + bf w 15 0)) ∧
    (s.syncHeads = [] ∨ ¬ agree → completes (.hedSyncCommit m w) s fun t =>
      t.hed.sync = none ∧ t.rd Reg.hedSyncStat = BitVec.ofNat 32 (2 ^ 30 + bf w 15 0) ∧ sameRegs s t [Reg.hedSyncStat])) ∧
  (∀ (m : Master) (h : Fin 64) (k : Fin 8) (w : Word) (s : State), s.takesWrite m (Reg.headLayGangway h k) w →
    (s.running = true ∧ s.watchHead h = true → exec (.gangwayWrite m h k w) s = .next s) ∧
    (¬ (s.running = true ∧ s.watchHead h = true) →
      completes (.gangwayWrite m h k w) s fun t => t = s.wr (Reg.headLayGangway h k) (w &&& 0xFFFFF))) ∧
  (∀ (p : Fin 32) (s : State), s.matrixUp = true →
    (completes (.ttPinAccept p) s fun t => t.b Reg.ttPinAcc p = s.b Reg.ttPinRaw p ∧ (∀ i, i ≠ p.val → t.b Reg.ttPinAcc i = s.b Reg.ttPinAcc i) ∧
      sameRegs s t [Reg.ttPinAcc]) ∧
    ∀ level : Bool, completes (.ttPinChange p level) s fun t =>
      t.b Reg.ttPinRaw p = (level != s.b Reg.ttPinPol p) ∧ sameRegs s t [Reg.ttPinRaw, Reg.ttPinAcc] ∧
        t.b Reg.ttPinAcc p = if s.f Reg.ttFilter 3 0 = 0 then (level != s.b Reg.ttPinPol p) else s.b Reg.ttPinAcc p) ∧
  ∀ (h : Fin 64) (s : State), s.matrixUp = true →
    if s.headOn h = true ∧ s.watchHead h = true ∧ s.b (Reg.headWatchStat h) 30 = false then
      completes (.watchTiming h) s fun t => t.b (Reg.headWatchStat h) 30 = true ∧ (t.head h).late = true ∧ sameMemory s t
    else exec (.watchTiming h) s = .next s

/-! ### Crossings, queues and slips (chapters 7 and 8), audio (chapter 13) -/

/-- R160, R163, R164, R179, R181, R182, R184, R189, R191, R198, R204, R220: a write of word 3 puts a valid entry in PENDING, empties a PENDING one
that is not armed, and is refused and counted otherwise; arming and cancelling a group; pushes of the host that enter or wait, a `JOB` that enters with its tag, pops, the high-water mark; commits of slips and writes of transform descriptors. -/
def Obligations.CrossingsAndQueuesFollowTheirCommands : Prop :=
  (∀ (m : Master) (k : Fin 32768) (w : Word) (s : State), s.takesWrite m (Reg.xtbEntryWord k 3) w →
    let word := fun j => (nfind (Reg.xtbEntryWord k j) s.xtb.words).getD 0
    let c := Crossing.ofRec (rec4 (word 0) (word 1) (word 2) w)
    completes (.xtbWord3Write m k w) s fun t =>
      (∀ i, i ≠ k.val → t.entry i = s.entry i) ∧ (∀ j < 4, nfind (Reg.xtbEntryWord k j) t.xtb.words = none) ∧
      (let refused := t.entry k = { s.entry k with reason := 1 } ∧ t.crossing k = s.crossing k ∧
          t.rd Reg.xtbRefuseCnt = (satAdd 24 1 (s.rd Reg.xtbRefuseCnt)).1
       ((s.entry k).state = .empty → c.valid = false ∨ (c.group ≠ 0 ∧ s.grpArmed c.group = true) → refused) ∧
        ((s.entry k).state = .pending → c.valid = true ∨ ((s.crossing k).group ≠ 0 ∧ s.grpArmed (s.crossing k).group = true) → refused) ∧
        ((s.entry k).state = .taken ∨ (s.entry k).state = .held → refused)) ∧
      ((s.entry k).state = .empty →
        (c.valid = true → (c.group = 0 ∨ s.grpArmed c.group = false) →
          (s.entryFault c true = 0 → t.crossing k = c ∧ (t.entry k).state = .pending ∧ (t.entry k).armed = (c.group == 0)) ∧
          (s.entryFault c true ≠ 0 → (t.entry k).state = .empty ∧ (t.entry k).reason = s.entryFault c true ∧ t.crossing k = s.crossing k ∧
            t.rd Reg.xtbRefuseCnt = (satAdd 24 1 (s.rd Reg.xtbRefuseCnt)).1))) ∧
      ((s.entry k).state = .pending → c.valid = false → (s.crossing k).group = 0 ∨ s.grpArmed (s.crossing k).group = false →
        (t.entry k).state = .empty ∧ (t.entry k).reason = 9 ∧ ∀ j < 4, t.rd (Reg.xtbEntryWord k j) = 0)) ∧
  (∀ (m : Master) (w : Word) (s : State),
    let g := s.f Reg.xtbArmGroup 11 0
    let stat := fun (reason : Nat) => BitVec.ofNat 32 (2 ^ 31 + (if reason = 0 then 0 else 2 ^ 30) + reason * 2 ^ 16 + g)
    (s.takesWrite m Reg.xtbArmCtrl (setFld w 31 30 2) →
      (s.grpArmed g = true → exec (.xtbArm m w) s = .next (s.wr Reg.xtbArmStat (stat 0x0C))) ∧
      (s.grpArmed g = false → g = 0 ∨ bf w 15 0 = 0 ∨ (s.groupEntries g (· == .pending)).length ≠ bf w 15 0 →
        exec (.xtbArm m w) s = .next (s.wr Reg.xtbArmStat (stat 0x0B))) ∧
      (s.grpArmed g = false → g ≠ 0 → bf w 15 0 ≠ 0 → (s.groupEntries g (· == .pending)).length = bf w 15 0 →
        completes (.xtbArm m w) s fun t => (t.grp g).state = .armed ∧ (t.grp g).heldFor = 0 ∧ (∀ k, k ≠ g → t.grp k = s.grp k) ∧
          t.rd Reg.xtbArmStat = stat 0 ∧ t.xtb.ents = s.xtb.ents ∧ sameRegs s t [Reg.xtbArmStat])) ∧
    (s.takesWrite m Reg.xtbArmCtrl (w ||| 0x40000000) →
      (s.grpArmed g = false → exec (.xtbCancel m w) s = .next (s.wr Reg.xtbArmStat (stat 0))) ∧
      (s.grpArmed g = true → completes (.xtbCancel m w) s fun t => (t.grp g).state = .refused ∧ (t.grp g).reason = 9 ∧
        t.rd Reg.xtbArmStat = stat 0 ∧ (∀ i ∈ s.groupEntries g waitingState, (t.entry i).state = .empty) ∧
        ∀ i, i ∉ s.groupEntries g waitingState → t.entry i = s.entry i))) ∧
  (∀ (m : Master) (x : Fin 4096) (j : Fin 64) (w : Word) (s : State), s.takesWrite m (Reg.xformWord x j) w →
    let watched := s.takenEntries.any fun i => (s.crossing i).watch && (s.crossing i).xform == x.val
    (x = 0 → exec (.xformWrite m x j w) s = .next s) ∧
    let v := w &&& definedBits (Reg.xformWord x j)
    (x ≠ 0 → j.val < 4 ∨ 16 ≤ j.val → exec (.xformWrite m x j w) s = .next (s.wr (Reg.xformWord x j) v)) ∧
    (x ≠ 0 → 4 ≤ j.val → j.val < 16 → watched = false → exec (.xformWrite m x j w) s = .next (s.wrShadow (Reg.xformWord x j) v)) ∧
    (x ≠ 0 → 4 ≤ j.val → j.val < 16 → watched = true → completes (.xformWrite m x j w) s fun t =>
      t.shadow = s.shadow ∧ ∀ i, t.rd (Reg.xformWord x i) = s.rd (Reg.xformWord x i))) ∧
  (∀ (m : Master) (q : Fin 4096) (w : Word) (s : State), s.takesWrite m (Reg.quePush q 3) w →
    let word := fun j => (nfind j (s.queue q).words).getD 0
    let r := rec4 (word 0) (word 1) (word 2) w
    let shut := (s.queue q).waits ≠ [] ∨ s.queueClosed q = true
    (s.prodKind q ≠ 8 → exec (.quePush m q w) s = .next s) ∧
    (s.prodKind q = 8 → completes (.quePush m q w) s fun t => (t.queue q).words = [] ∧
      (shut ∨ (s.jobFor q r = true ∧ s.jik.guard = true) → (∀ k, k ≠ q.val → t.queue k = s.queue k) ∧
        (t.queue q).held = (s.queue q).held ∧ t.jik.flight = s.jik.flight ∧
        (t.queue q).waits = (s.queue q).waits ++ [{ desc := r, order := s.jik.pushes, by_ := .outside }]) ∧
      (¬ shut →
        (s.jobFor q r = false ∨ (s.jik.guard = false ∧ s.mtags ≤ (Desc.ofRec r).tag ∧ nfind (Desc.ofRec r).tag s.jik.flight = none) →
          (∀ k, k ≠ q.val → t.queue k = s.queue k) ∧ (t.queue q).held = (s.queue q).held ++ [r] ∧ (t.queue q).waits = (s.queue q).waits ∧
          t.rd (Reg.quePushes q) = ovfAdd 31 1 (s.rd (Reg.quePushes q)) ∧
          t.f (Reg.queHwm q) 17 0 = max (s.f (Reg.queHwm q) 17 0) ((s.queue q).held.length + 1) ∧
          if s.jobFor q r = true then ∃ x, nfind (Desc.ofRec r).tag t.jik.flight = some x ∧ x.desc = r ∧ some (x.crew, x.target) = s.jobTarget q
          else t.jik = s.jik) ∧
        (s.jobFor q r = true → s.jik.guard = false → (Desc.ofRec r).tag < s.mtags ∨ (nfind (Desc.ofRec r).tag s.jik.flight).isSome = true →
          t.jik.flight = s.jik.flight ∧ ∀ c n, s.jobTarget q = some (c, n) → s.hostDoneQ c n ≠ q.val → (t.queue q).held = (s.queue q).held)))) ∧
  (∀ (q : Fin 4096) (s : State), s.fabricUp →
    ((s.queue q).waits = [] ∨ s.queueClosed q = true → exec (.quePushRelease q) s = .next s) ∧
    ∀ w l, (s.queue q).waits = w :: l → s.queueClosed q = false →
      (s.jobFor q w.desc = true → w.by_ = .outside → s.jik.guard = true → exec (.quePushRelease q) s = .next s) ∧
      ((∀ c n, w.by_ ≠ .ended c n) → s.jobFor q w.desc = false ∨ w.by_ ≠ .outside → completes (.quePushRelease q) s fun t =>
        (t.queue q).held = (s.queue q).held ++ [w.desc] ∧ (t.queue q).waits = l ∧ t.jik = s.jik ∧ ∀ k, k ≠ q.val → t.queue k = s.queue k) ∧
      ∀ c n, w.by_ = .ended c n → completes (.quePushRelease q) s fun t =>
        (t.queue q).held = (s.queue q).held ++ [w.desc] ∧ (t.queue q).waits = l ∧ nfind (Desc.ofRec w.desc).tag t.jik.flight = none ∧
          (if c then t.crew n = CrwSt.init else (t.eng n).job = none) ∧ ∀ k, k ≠ q.val → t.queue k = s.queue k) ∧
  (∀ (m : Master) (q : Fin 4096) (s : State), s.fabricUp → nfind m.num s.quay.latches = none →
    (s.consKind q = 8 → ∀ d l, (s.queue q).held = d :: l → completes (.quePop m q) s fun t =>
      (t.queue q).held = l ∧ (∀ k, k ≠ q.val → t.queue k = s.queue k) ∧ t.out = s.out ++ [.answer m (leBytes 4 (rf d 127 96))]) ∧
    (s.consKind q ≠ 8 ∨ (s.queue q).held = [] → completes (.quePop m q) s fun t =>
      t.que = s.que ∧ t.out = s.out ++ [.answer m (leBytes 4 0)])) ∧
  (∀ (m : Master) (q : Fin 4096) (s : State), s.takesWrite m (Reg.queCtrl q) 1 → completes (.hwmClr m q) s fun t =>
    t.f (Reg.queHwm q) 17 0 = (s.queue q).held.length % 2 ^ 18 ∧ t.que = s.que ∧ sameRegs s t [Reg.queHwm q]) ∧
  ∀ (m : Master) (k : Fin 1024) (s : State), s.takesWrite m (Reg.fstSlipCommit k) 1 → completes (.slipCommit m k) s fun t =>
    t.b (Reg.fstSlipStat k) 31 = true ∧ (∀ i, i ≠ 31 → t.b (Reg.fstSlipStat k) i = s.b (Reg.fstSlipStat k) i) ∧
      sameRegs s t [Reg.fstSlipStat k] ∧ t.slips = s.slips

/-- R329, R331, R332, R335 to R337, R339: a stroke's audio blocks close once and are mixed to full-length outputs of 20-bit samples, and are sent once; a
commit waits for the boundary; frame errors and slips of converters are counted; a converter locks and unlocks by its rate. That the block
leaves on every enabled TDM port as one record is the model's form. -/
def Obligations.AudioBlocksCloseAndLeaveOnce : Prop :=
  (∀ (tdm : List (Fin 8 × List (List (Bool × Bool)))) (s : State), s.fabricUp →
    let n := s.clock.stroke.toNat - 1
    let due := s.audActive = true ∧ s.aud.start ≤ n ∧ s.clock.stroke ≠ 0 ∧ s.aud.closed ≠ some n
    (¬ due → exec (.audBlockClose tdm) s = .next s) ∧
    (due → completes (.audBlockClose tdm) s fun t =>
      t.aud.closed = some n ∧ t.aud.toSend = true ∧ t.aud.pend = s.aud.pend ∧ t.rd Reg.audBlocks = ovfAdd 31 1 (s.rd Reg.audBlocks) ∧
      t.aud.mixed.map (·.1) = s.mixOutputs ∧ ∀ e ∈ t.aud.mixed, e.2.length = s.blockLen n ∧ ∀ v ∈ e.2, -524288 ≤ v ∧ v ≤ 524287)) ∧
  (∀ s : State, s.fabricUp →
    (s.audActive = false ∨ s.aud.toSend = false → exec .audBlockSend s = .next s) ∧
    (s.audActive = true → s.aud.toSend = true → completes .audBlockSend s fun t =>
      t.aud.toSend = false ∧ t.aud.mixed = s.aud.mixed ∧ (∃ l, t.out = s.out ++ l) ∧
      ∀ k < 8, s.b (Reg.audTdmCfg k) 31 = true → ∃ slot delay rising drives ws, Out.tdm k slot delay rising drives ws ∈ t.out ∧ ws.length = s.blockLen (s.aud.closed.getD 0))) ∧
  (∀ (m : Master) (w : Word) (s : State), s.takesWrite m Reg.audCommit (w ||| 0x80000000) → completes (.audCommit m w) s fun t =>
    t.aud = { s.aud with pend := some (bf w 15 0) } ∧ t.b Reg.audCommitStat 31 = true ∧ sameRegs s t [Reg.audCommitStat]) ∧
  (∀ (n : Fin 8) (s : State), s.fabricUp →
    (s.audActive = false ∨ s.b (Reg.audTdmCfg n) 31 = false → exec (.tdmFrameError n) s = .next s) ∧
    (s.audActive = true → s.b (Reg.audTdmCfg n) 31 = true → completes (.tdmFrameError n) s fun t =>
      t.rd (Reg.audTdmFrameErr n) = (satAdd 24 1 (s.rd (Reg.audTdmFrameErr n))).1 ∧ n.val ∈ t.aud.tdmTold ∧
        (n.val ∈ s.aud.tdmTold → t.aud = s.aud))) ∧
  ∀ (u : Fin 64) (s : State), s.fabricUp →
    let on := s.audActive = true ∧ s.b (Reg.audAsrcCfg u) 31 = true
    let near := fun (rate nominal : Nat) => 999 * nominal ≤ 1000 * rate ∧ 1000 * rate ≤ 1001 * nominal
    (∀ rate : BitVec 24, (¬ on → exec (.asrcLockChange u rate) s = .next s) ∧
      (on → s.f (Reg.audAsrcCfg u) 30 29 ≠ 2 → completes (.asrcLockChange u rate) s fun t =>
        t.f (Reg.audAsrcRate u) 23 0 = rate.toNat ∧ t.aud = s.aud ∧ t.f (Reg.audAsrcStat u) 2 0 = s.f (Reg.audAsrcStat u) 2 0 ∧
        ∀ k nominal, (k, nominal) ∈ [(0, 4800000), (1, 4410000), (2, 3200000), (3, 9600000)] → s.f (Reg.audAsrcStat u) 2 0 = k →
          (t.b (Reg.audAsrcStat u) 31 = true ↔ near rate.toNat nominal))) ∧
    (¬ on → exec (.asrcSlip u) s = .next s) ∧
    (on → completes (.asrcSlip u) s fun t =>
      t.rd (Reg.audAsrcSlips u) = (satAdd 16 1 (s.rd (Reg.audAsrcSlips u))).1 ∧ t.aud = s.aud)

/-! ### Lighting, field units and parameter storage (chapters 14 to 16) -/

/-- R352, R355 to R358, R365, R368, R372, R375 to R377, R381, R382: messages of lighting and their loss, PWM periods, the boost within `VMAX`, neighbour
tests pin by pin, retests; a lamp board's serial, identity records and their trust, write-backs page by page; ledgers never go back. That
the boost of a placed lighting half starts at a value between 0 and `VMAX` is the model's reading (log entry on free values). -/
def Obligations.LightingAndFieldUnits : Prop :=
  (∀ (s : State), s.pwr.ld = .running →
    (s.lgt.inFlight = none → exec .lightMessage s = .next s) ∧
    (∀ g, s.lgt.inFlight = some g → completes .lightMessage s fun t =>
      t.lgt.waiting = some g ∧ t.lgt.inFlight = none ∧ t.lgt.lost = false ∧ t.lgt.msg = s.lgt.msg ∧
      (if s.lgt.lost = true ∧ s.lgt.placed = true ∧ s.lgt.testing = false then
          t.lgt.boostOn = (s.lgt.boostOn || !s.lgt.restart) ∧ t.b Reg.lgtState 31 = true
        else t.lgt.boostOn = s.lgt.boostOn ∧ t.regs = s.regs)) ∧
    (s.lgt.placed = false → exec .lightMsgTimeout s = .next s) ∧
    (s.lgt.placed = true → completes .lightMsgTimeout s fun t =>
      t.lgt = { s.lgt with lost := true, boostOn := false, ons := [], pre := [], spareRun := 0 } ∧ t.b Reg.lgtState 31 = false ∧
        t.b Reg.lgtState 29 = false ∧ t.b Reg.lgtHist 3 = true ∧
        sameRegs s t [Reg.lgtState, Reg.lgtHist]) ∧
    (∀ x : PwmIn,
      (s.b Reg.lgtState 31 = false → exec (.pwmPeriod x) s = .next s) ∧
      (s.b Reg.lgtState 31 = true → completes (.pwmPeriod x) s fun t =>
        t.lgt.period = (s.lgt.period + 1) % 2 ^ s.f Reg.lgtPwmCfg 2 0 ∧ t.lgt.waiting = none ∧
        t.lgt.msg = (if s.lgt.waiting.isSome then s.lgt.waiting else s.lgt.msg) ∧ t.lgt.boostOn = s.lgt.boostOn ∧
        (s.lgt.boostOn = false → t.lgt.boostMv = s.lgt.boostMv) ∧ (s.lgt.boostMv ≤ s.boostCfg.2.2 → t.lgt.boostMv ≤ s.boostCfg.2.2))) ∧
    (s.lgt.boostOn = false → exec .boostOvervoltage s = .next s) ∧
    (s.lgt.boostOn = true → completes .boostOvervoltage s fun t =>
      t.lgt = { s.lgt with boostOn := false, restart := true, spareRun := 0 } ∧ t.b Reg.lgtState 29 = false ∧ t.b Reg.lgtHist 2 = true) ∧
    (s.lgt.restart = false → exec .boostRestart s = .next s) ∧
    (s.lgt.restart = true → completes .boostRestart s fun t => t = { s with lgt := { s.lgt with boostOn := !s.lgt.lost, restart := false } })) ∧
  (∀ (high : List Nat) (s : State), s.pwr.ld = .running →
    (s.lgt.placed = false → exec (.neighbourTest high) s = .next s) ∧
    (s.lgt.placed = true → completes (.neighbourTest high) s fun t =>
      let p := s.lgt.nextPin
      t.lgt.nextPin = (p + 1) % 80 ∧ t.rd Reg.lgtTests = ovfAdd 31 1 (s.rd Reg.lgtTests) ∧
      (∀ n, (p, n) ∈ s.lgt.cfg.neighbours ∨ (n, p) ∈ s.lgt.cfg.neighbours → ((min p n, max p n) ∈ t.lgt.shorts ↔ n ∈ high)) ∧
      (∀ q, q.1 ≠ p → q.2 ≠ p → (q ∈ t.lgt.shorts ↔ q ∈ s.lgt.shorts)) ∧
      (s.lgt.testing = true → p = 79 → t.lgt.testing = false ∧ t.lgt.boostOn = !s.lgt.lost ∧ t.b Reg.lgtState 31 = !s.lgt.lost ∧
        t.lgt.boostMv ≤ s.boostCfg.2.2))) ∧
  (∀ (m : Master) (n : Fin 48) (s : State), s.takesWrite m (Reg.lgtChCtrl n) 1 → completes (.retest m n) s fun t =>
    (∀ c ∈ sinkStrings n, s.strUsed c = true → (t.str c).open_ = false ∧ ((s.str c).open_ = true → (t.str c).untested = true ∧ (t.str c).lows = 0)) ∧
    (∀ c, c ∉ sinkStrings n → t.str c = s.str c)) ∧
  (∀ (n : Fin 8) (s : State), s.pwr.ld = .running →
    let u := 512 + n.val
    (exec (.lampBoardPoll n none) s = .next s) ∧
    (∀ v, s.lgt.placed = false ∨ ((s.unit u).record ≠ [] ∧ v = le (s.unit u).record 8 8) → exec (.lampBoardPoll n (some v)) s = .next s) ∧
    (∀ v, s.lgt.placed = true → (s.unit u).record = [] ∨ v ≠ le (s.unit u).record 8 8 → completes (.lampBoardPoll n (some v)) s fun t =>
      t.unit u = UnitSt.init ∧ t.rd (Reg.fldUnitStat u) = 0 ∧ t.rd (Reg.fldUnitLedger u) = 0 ∧ u ∉ t.fld.writing ∧
        t.keep = s.keep) ∧
    ∀ ok : Bool,
      (u ∉ s.fld.writing → exec (.lampBoardWriteDone n ok) s = .next s) ∧
      (u ∈ s.fld.writing → ok = true → ∀ page, nfind u s.fld.pages = some page → completes (.lampBoardWriteDone n ok) s fun t =>
        t.out = s.out ++ [.lampWrite n 0xB0 page] ∧ t.fld.writing = s.fld.writing ∧ nfind u t.fld.pages = none) ∧
      (u ∈ s.fld.writing → ok = false ∨ nfind u s.fld.pages = none → completes (.lampBoardWriteDone n ok) s fun t =>
        t.fld.writing = s.fld.writing.filter (· ≠ u) ∧ t.out = s.out ∧ t.keep = s.keep)) ∧
  (∀ (u : Fin 520) (board : Option (List Byte)) (s : State), s.pwr.ld = .running →
    let parts := (upto 4).map fun k => nfind k (s.port (s.lead u)).ident
    let far := if (parts.map (·.getD [])).any (·.isEmpty) then none else some (parts.map (·.getD [])).flatten
    let read := if 512 ≤ u.val then board else far
    let trust := (classify s.loader.anchors (read.getD [])).1
    ((512 ≤ u.val ∧ s.lgt.placed = false) ∨ (u.val < 512 ∧ none ∈ parts) → exec (.identRecordRead u board) s = .next s) ∧
    ((512 ≤ u.val ∧ s.lgt.placed = true) ∨ (u.val < 512 ∧ none ∉ parts) → completes (.identRecordRead u board) s fun t =>
      t.b (Reg.fldUnitStat u) 31 = read.isSome ∧ t.f (Reg.fldUnitStat u) 30 29 = trust ∧ (t.unit u).record = read.getD [] ∧
        (trust ≠ 2 → (t.unit u).entry = none ∧ t.rd (Reg.fldUnitLedger u) = 0 ∧ t.keep = s.keep))) ∧
  ∀ s : State, s.pwr.ld = .running → (s.nvs.powerDown = true → exec .ledgerAdvance s = .next s) ∧
   (s.nvs.powerDown = false → completes .ledgerAdvance s fun t =>
    t.lgt = { s.lgt with duties := [] } ∧ t.keep.wakes = s.keep.wakes ∧
    ∀ k, (t.keep.entry k).serial = (s.keep.entry k).serial ∧
      ((∀ p ∈ s.fld.units, p.2.entry ≠ some k) → t.keep.entry k = s.keep.entry k) ∧
      ((s.keep.entry k).hours ≤ 0xFFFFFFFF → (s.keep.entry k).hours ≤ (t.keep.entry k).hours ∧ (t.keep.entry k).hours ≤ 0xFFFFFFFF))

/-- R387, R388, R391 to R394, R397, R399, R400, R402, R403, R405, R406: a host command is ignored while one runs, refused after a power-down and
checked in order; a record write never takes the slot that won; pages land one at a time, and the last ends the command; the device's
own records. -/
def Obligations.StorageCommandsAndPages : Prop :=
  (∀ (m : Master) (s : State),
   let acts := fun (c : Instr) (op : Nat) => s.takesWrite m Reg.nvsCmd (BitVec.ofNat 32 (2 ^ 31 + op)) →
    let ends := fun (v : Nat) (t : State) => t.rd Reg.nvsResult = BitVec.ofNat 32 (2 ^ 31 + v) ∧ t.b Reg.nvsStatus 31 = false ∧
      t.nvs = { s.nvs with reads := t.nvs.reads }
    let a := s.f Reg.nvsAddr 18 0
    let b := s.f Reg.nvsAddrB 18 0
    let len := s.f Reg.nvsLen 12 0
    let pages := s.f Reg.nvsRecCfg 28 24
    let r := (s.readRecord a b pages none 0xFF).2
    let idle := s.b Reg.nvsStatus 31 = false ∧ s.nvs.powerDown = false
    (s.b Reg.nvsStatus 31 = true → exec c s = .next s) ∧
    (s.b Reg.nvsStatus 31 = false → s.nvs.powerDown = true → completes c s (ends 6)) ∧
    (idle → op < 1 ∨ 4 < op → completes c s (ends 8)) ∧
    (idle → op = 2 → 1 ≤ len → len ≤ 4096 → a + len ≤ 524288 → a < 16384 → completes c s (ends 1)) ∧
    (idle → ∀ code, s.nvsCheck op = some code → completes c s (ends code)) ∧
    (idle → s.nvsCheck op = none →
      (op = 1 → completes c s fun t => ends 0 t ∧ t.nvsBufBytes len = s.nvBytes a len) ∧
      (op = 2 → s.nvs.cur = none → completes c s fun t => t.b Reg.nvsStatus 31 = true ∧ t.rd Reg.nvsResult = 0 ∧
        t.nvs = { s.nvs with cur := some { kind := .host false 0, plan := none, left := pageWrites 17 a (s.nvsBufBytes len), done := 0 } }) ∧
      (op = 2 → s.nvs.cur ≠ none → completes c s fun t => t.b Reg.nvsStatus 31 = true ∧ t.nvs.cur = s.nvs.cur ∧
        t.nvs.waiting.length = s.nvs.waiting.length + 1) ∧
      (op = 3 → r = none → completes c s (ends 4)) ∧
      (op = 3 → ∀ w cf v, r = some (w, cf, v) → completes c s fun t => ends (cf.toNat * 2 ^ 30 + w * 2 ^ 24) t ∧
        t.rd Reg.nvsRecSeq = BitVec.ofNat 32 v.seq ∧ t.nvsBufBytes v.data.length = v.data) ∧
      (op = 4 → s.nvs.cur = none → completes c s fun t => t.b Reg.nvsStatus 31 = true ∧ t.rd Reg.nvsRecSeq = BitVec.ofNat 32 (nextSeq r) ∧
        (∃ j, t.nvs.cur = some j ∧ j.kind = .host true (nextSeq r % 2) ∧
          j.left.head?.map (·.1) = some ((if nextSeq r % 2 = 0 then a else b) / 256)) ∧
        ∀ w cf v, r = some (w, cf, v) → nextSeq r % 2 ≠ w))
   acts (.nvsRead m) 1 ∧ acts (.nvsWrite m) 2 ∧ acts (.nvsRecRead m) 3 ∧ acts (.nvsRecWrite m) 4 ∧
     ∀ op : BitVec 4, acts (.nvsBadOp m op) op.toNat) ∧
  (∀ s : State, s.pwr.ld = .running →
    let nexts := fun (t : State) => (s.nvs.waiting = [] → t.nvs.cur = none ∧ t.nvs.waiting = []) ∧
      ∀ k l, s.nvs.waiting = k :: l → t.nvs.waiting = l ∧ ∃ c, t.nvs.cur = some c ∧ c.plan = none ∧ c.done = k.done ∧ (k.plan = none → c = k)
    (∀ low : Bool, (s.nvs.cur = none → exec (.nvsPageDone low) s = .next s) ∧
     ∀ j p ps, s.nvs.cur = some j → j.left = p :: ps → completes (.nvsPageDone low) s fun t =>
      ((∀ g ∈ s.nvs.unsure, g / 16 ≠ p.1) → t.nvsMem = writeBytes erasedByte s.nvsMem (p.1 * 256 + p.2.1) p.2.2) ∧
      (∀ x, x < p.1 * 256 + p.2.1 ∨ p.1 * 256 + p.2.1 + p.2.2.length ≤ x → x / 256 ≠ p.1 ∨ x / 16 ∉ s.nvs.unsure →
        nget erasedByte t.nvsMem x = nget erasedByte s.nvsMem x) ∧
      (p.2.1 + p.2.2.length ≤ 256 → readBytes erasedByte t.nvsMem (p.1 * 256 + p.2.1) p.2.2.length = p.2.2) ∧
      (∀ g, g ∈ t.nvs.unsure ↔ g ∈ s.nvs.unsure ∧ g / 16 ≠ p.1) ∧
      t.rd Reg.nvsPageWrites = ovfAdd 31 1 (s.rd Reg.nvsPageWrites) ∧
      (ps ≠ [] → t.nvs = { s.nvs with cur := some { j with left := ps, done := j.done + 1 }, held := low, unsure := t.nvs.unsure, reads := t.nvs.reads }) ∧
      (ps = [] → nexts t ∧ (t.nvs.held = true ↔ low = true ∧ s.nvs.waiting ≠ []) ∧
        (∀ rec_ slot, j.kind = .host rec_ slot → t.rd Reg.nvsResult = BitVec.ofNat 32 (2 ^ 31 + (slot * 2 ^ 24 + (j.done + 1) % 256 * 2 ^ 16)) ∧
          t.b Reg.nvsStatus 31 = false) ∧
        (j.kind = .keep → t.nvs.flushDone = true) ∧ (j.kind = .ledgers → t.nvs.ledgersDone = true))) ∧
    (s.nvs.ledgersDone = true ∨ (s.unitsSeen = false ∧ s.running = false) → exec .ledgersWrite s = .next s) ∧
    (s.nvs.ledgersDone = false → s.unitsSeen = true ∨ s.running = true → completes .ledgersWrite s fun t => t.nvs.ledgersDone = true ∧ t.nvsMem = s.nvsMem ∧
      (s.nvs.powerDown = true → t.nvs.cur = s.nvs.cur ∧ t.nvs.waiting = s.nvs.waiting) ∧
      (s.nvs.powerDown = false → s.nvs.cur = none → ∃ j, t.nvs.cur = some j ∧ j.kind = .ledgers ∧
        (j.left.flatMap (·.2.2)).take 6 = [0x4E, 0x56, 0x52, 0x43, 1, 2]) ∧
      (s.nvs.powerDown = false → s.nvs.cur ≠ none → t.nvs.cur = s.nvs.cur ∧ t.nvs.waiting.length = s.nvs.waiting.length + 1)) ∧
    ((∀ j, s.nvs.cur = some j → j.kind ≠ .keep) → exec .keepFlushDone s = .next s) ∧
    (∀ j, s.nvs.cur = some j → j.kind = .keep → completes .keepFlushDone s fun t =>
      (s.nvs.unsure = [] → t.nvsMem = j.left.foldl (fun d p => writeBytes erasedByte d (p.1 * 256 + p.2.1) p.2.2) s.nvsMem) ∧
      t.nvs.flushDone = true ∧ t.nvs.snapshot = none ∧ nexts t))

/-! ### Supplies, wake, sleep and power failure; resets, the watchdog and temperatures (chapters 17 and 18) -/

/-- R426 to R432, R434, R443: the enables rise one by one, each after the last supply's power-good, and fall in reverse; a power-good that does
not come in time is tried again, three times in a wake; a supply fault resets and powers down; each restart waits for its cause to be
over and for `WAKE`; `WAKE` and the sleep delay. The matrix die's RAMs come up with nothing written (log entry on memories). -/
def Obligations.SuppliesRiseAndFallInOrder : Prop :=
  ∀ s : State, s.pwr.ld = .running →
    let ph := s.pwr.phase
    let rises := fun (cause : Nat) (t : State) => t.pwr.phase = .raising 0 ∧ t.pins.pwrEn = [] ∧ t.pwr.causes.testBit cause = true ∧
      t.fstore = [] ∧ t.work = [] ∧ t.regs = s.regs
    let asleep := { s with pwr := { s.pwr with why := .asleep } }
    let clear := { s with pwr := { s.pwr with why := .asleep, fault := false } }
    let sleeps := fun (t : State) => t.pwr.phase = .dropping s.topEnable ∧ t.pwr.why = .asleep ∧ t.pwr.sleepPend = false ∧
      (∀ q ∈ s.sendingLanes, sends (.idleCode q) s t) ∧ t.prt = PrtSt.init
    ((∀ n, ph ≠ .raising n) → exec .pwrEnRise s = .next s) ∧
    (∀ n, ph = .raising n → completes .pwrEnRise s fun t =>
      t = { s with pins := { s.pins with pwrEn := s.pins.pwrEn ++ [n] }, pwr := { s.pwr with phase := .waitPg n } }) ∧
    (∀ n : Fin 4,
      (ph ≠ .waitPg n.val → exec (.pgGood n) s = .next s ∧ exec (.pgTimeout n) s = .next s) ∧
      (ph = .waitPg n.val →
        (completes (.pgGood n) s fun t => t = { s with
          pins := { s.pins with pgIn := s.pins.pgIn ++ [n.val] }
          pwr := { s.pwr with phase := if n = 3 then .hold else .raising (n + 1) } }) ∧
        completes (.pgTimeout n) s fun t => t.pwr.phase = .dropping n ∧ t.pwr.attempts = s.pwr.attempts + 1 ∧
          t.rd Reg.pwrPgFailCnt = (satAdd 16 1 (s.rd Reg.pwrPgFailCnt)).1 ∧
          (if 3 ≤ s.pwr.attempts + 1 then t.pwr.why = .lockedOut ∧ t.pwr.fault = true else t.pwr.why = .pgRetry ∧ t.pwr.fault = s.pwr.fault)) ∧
      (ph = .off ∨ (∃ k, ph = .dropping k) ∨ n.val ∉ s.pins.pgIn → exec (.supplyFault n) s = .next s) ∧
      (ph ≠ .off → (∀ k, ph ≠ .dropping k) → n.val ∈ s.pins.pgIn → completes (.supplyFault n) s fun t =>
        t.matrixUp = false ∧ t.pwr.phase = .dropping s.topEnable ∧ t.pwr.fault = true ∧ n.val ∉ t.pins.pgIn ∧ t.pwr.causes.testBit 6 = true ∧
        t.lgt = LgtSt.init ∧ t.keep.pwrHist.testBit 3 = true ∧
        t.pwr.why = (if 3 ≤ ((s.now :: s.pwr.supplyAt).filter fun x => s.now ≤ x + 60000000000).length then .lockedOut else .supply))) ∧
    (ph ≠ .off ∨ s.pwr.why ≠ .pgRetry → exec .pgRetry s = .next s) ∧
    (ph = .off → s.pwr.why = .pgRetry → if s.pins.wake then completes .pgRetry s (rises 6) else exec .pgRetry s = .next asleep) ∧
    (ph ≠ .off ∨ s.pwr.why ≠ .supply → exec .supplyRestart s = .next s) ∧
    (ph = .off → s.pwr.why = .supply → if s.pins.wake then completes .supplyRestart s (rises 6) else exec .supplyRestart s = .next clear) ∧
    (ph ≠ .off ∨ s.pwr.why ≠ .wakeReturned → exec .powerdownWakeRestart s = .next s) ∧
    (ph = .off → s.pwr.why = .wakeReturned → if s.pins.wake then completes .powerdownWakeRestart s fun t => rises 7 t ∧
        t.keep.wakes = (s.keep.wakes + 1) % 2 ^ 32
      else exec .powerdownWakeRestart s = .next asleep) ∧
    (ph ≠ .off ∨ s.pwr.why ≠ .powerFail ∨ s.nvs.flushDone = false ∨ s.pins.pfiN = false → exec .powerFailRestart s = .next s) ∧
    (ph = .off → s.pwr.why = .powerFail → s.nvs.flushDone = true → s.pins.pfiN = true →
      if s.pins.wake then completes .powerFailRestart s (rises 5) else exec .powerFailRestart s = .next clear) ∧
    ((∀ n, ph ≠ .dropping n) → exec .powerdownStep s = .next s) ∧
    (∀ n, ph = .dropping n → completes .powerdownStep s fun t => t = { s with
      pins := { s.pins with pwrEn := s.pins.pwrEn.filter (· ≠ n), pgIn := s.pins.pgIn.filter (· ≠ n) }
      pwr := { s.pwr with phase := if n = 0 then .off else .dropping (n - 1) } }) ∧
    (let cycle := s.pwr.wakeOffAt + 100000000 ≤ s.now
     (s.pins.wake = true → exec .wakeActive s = .next s) ∧
      (s.pins.wake = false → completes .wakeActive s fun t => t.pins.wake = true ∧ t.pwr.wakeAt = s.now ∧
        (cycle → t.keep.restartAt = [] ∨ s.pwr.resumed = true) ∧ (¬ cycle → s.pwr.resumed = false → t.keep.restartAt = s.keep.restartAt) ∧
        (ph = .off → s.pwr.why = .asleep ∨ s.pwr.why = .pgRetry ∨ (s.pwr.why = .lockedOut ∧ cycle) →
          rises 7 t ∧ t.pwr.attempts = 0 ∧ t.keep.wakes = (s.keep.wakes + 1) % 2 ^ 32 ∧ (s.pwr.why = .lockedOut → t.thm.lockout = false ∧ t.pwr.supplyAt = [])) ∧
        (ph = .off → s.pwr.why = .lockedOut → ¬ cycle → t.pwr = { s.pwr with wakeAt := s.now }) ∧
        (∀ k, ph = .dropping k → t.pwr = (if s.pwr.why = .asleep then { s.pwr with why := .wakeReturned, wakeAt := s.now }
          else if s.pwr.why = .lockedOut ∧ cycle then { s.pwr with why := .wakeReturned, wakeAt := s.now, supplyAt := [], attempts := 0, fault := false }
          else { s.pwr with wakeAt := s.now })) ∧
        (ph = .running ∨ ph = .inReset → t.pwr.sleepPend = false ∧ t.pwr.phase = ph))) ∧
    (s.pins.wake = false → exec .wakeInactive s = .next s) ∧
    (s.pins.wake = true → completes .wakeInactive s fun t => t.pins.wake = false ∧ t.pwr.phase = ph ∧ t.pwr.wakeOffAt = s.now ∧
      (ph = .running ∨ ph = .inReset → t.pwr.sleepPend = true) ∧ (∀ k, ph = .raising k ∨ ph = .waitPg k → t.pwr = { s.pwr with wakeOffAt := s.now })) ∧
    (s.pwr.sleepPend = false ∨ (ph ≠ .running ∧ ph ≠ .inReset) → exec .sleepDelayExpiry s = .next s) ∧
    (s.pwr.sleepPend = true → ph = .running ∨ ph = .inReset →
      if ph = .running ∧ s.b Reg.pwrSleepCfg 31 = true then exec .sleepDelayExpiry s = .next { s with pwr := { s.pwr with stayHeld := true } }
      else completes .sleepDelayExpiry s sleeps) ∧
    (s.pwr.sleepPend = false ∨ s.pwr.stayHeld = false → exec .sleepStayLimit s = .next s) ∧
    (s.pwr.sleepPend = true → s.pwr.stayHeld = true → completes .sleepStayLimit s sleeps)

/-- R389, R390, R395, R398, R399, R416 to R419, R425, R432, R436: a power-down signal drops every supply, snapshots the keep RAM and starts the `KEEP` record,
once; the collapse of `VDD_LD` ends the light die, its rise fills the keep RAM from `KEEP`; the light die's own judgement of
temperatures stops and restarts. -/
def Obligations.PowerFailuresKeepTheKeepRam : Prop :=
  (∀ s : State, completes .pfiRise s fun t => t = { s with pins := { s.pins with pfiN := true } }) ∧
  (∀ s : State, s.pwr.ld ≠ .running → exec .pfiFall s = .next { s with pins := { s.pins with pfiN := false } } ∧ exec .vddLdLow s = .next s) ∧
  (∀ s : State, s.pwr.ld = .running →
    let fails := fun (c : Instr) (u : State) => (s.nvs.flushing = true → exec c s = .next u) ∧
     (s.nvs.flushing = false → completes c s fun t =>
      t.pwr.phase = .off ∧ t.pins.pwrEn = [] ∧ t.pins.pfiN = u.pins.pfiN ∧ t.pwr.fault = true ∧ t.pwr.causes.testBit 5 = true ∧
      t.pwr.why = (if s.pwr.why = .lockedOut then .lockedOut else if s.thm.restartDue then .thermal else .powerFail) ∧ t.lgt = LgtSt.init ∧
      t.nvs.powerDown = true ∧ t.nvs.flushDone = false ∧ t.nvs.snapshot = some t.keep ∧ t.nvsMem = s.nvsMem ∧
      (s.nvs.cur = none → ∃ j, t.nvs.cur = some j ∧ j.kind = .keep) ∧
      (∀ j, s.nvs.cur = some j → ∃ k, t.nvs.cur = some k ∧ k.left = j.left.take 1 ∧ t.nvs.waiting.map (·.kind) = [.keep]))
    fails .vddLdLow s ∧ fails .pfiFall { s with pins := { s.pins with pfiN := false } }) ∧
  (∀ (cut : PageCut) (s : State),
    (s.pwr.ld = .absent → exec (.vddLdCollapse cut) s = .next s) ∧
    (s.pwr.ld ≠ .absent → completes (.vddLdCollapse cut) s fun t =>
      t.pwr.ld = .absent ∧ t.pwr.phase = .off ∧ t.keep = KeepRam.init ∧ t.nvs = { NvsSt.init with unsure := t.nvs.unsure, reads := t.nvs.reads } ∧ t.pins.pwrEn = [] ∧ t.pins.wake = false ∧
        t.loader.otpHash = s.loader.otpHash ∧ (s.nvs.cur = none → t.nvsMem = s.nvsMem))) ∧
  (∀ s : State,
    let kept := (s.readRecord 0 1024 4 (some 1) 1).2
    let starts := fun (t : State) => t.pwr.ld = .running ∧ t.pwr.phase = .off ∧ t.pwr.why = .asleep ∧ t.pins.wake = false ∧
      t.pwr.causes.testBit 8 = true ∧ t.nvs.keepDefault = kept.isNone ∧
      t.keep.poh = (match kept with | some k => le k.2.2.data 0 4 | none => 0) ∧ t.nvsMem = s.nvsMem
    (s.pwr.ld ≠ .absent → exec .vddLdRise s = .next s) ∧ (s.pwr.ld = .absent → completes .vddLdRise s starts) ∧
    (s.pwr.ld ≠ .stopped → exec .lightDieResume s = .next s) ∧
    (s.pwr.ld = .stopped → completes .lightDieResume s fun t => starts t ∧ t.keep.thmHist.testBit 4 = true ∧ t.thm.sayLockout = true)) ∧
  ∀ s : State, s.pwr.ld = .running →
    (∀ temps : List Sensed, completes (.ldThmSample temps) s fun t =>
      let hot := max (nget (fun _ => 0) t.thm.ldRead 52) (nget (fun _ => 0) t.thm.ldRead 53)
      (∀ x, temps = [x] → nget (fun _ => 0) t.thm.ldRead x.code = moveReading (nget (fun _ => 0) s.thm.ldRead x.code) x.temp) ∧
      (hot < 1400 → t.thm.ldHot = 0 ∧ t.pwr.ld = .running) ∧ (1400 ≤ hot → t.thm.ldHot = s.thm.ldHot + 1) ∧
      (1400 ≤ hot → s.thm.ldHot < 3 → t.pwr.ld = .running) ∧
      (1400 ≤ hot → 3 ≤ s.thm.ldHot → t.pwr.ld = .stopped ∧ t.pwr.phase = .off ∧ t.pwr.fault = true ∧ t.nvs.cur = none ∧ t.nvs.waiting = [])) ∧
    (if s.thm.restartDue = true ∧ 4 ≤ s.thm.cool ∧ s.pwr.phase = .off ∧ s.pwr.why = .thermal ∧ s.nvs.flushDone = true ∧ s.pins.pfiN = true then
      completes .thermalRestart s fun t => t.thm.restartDue = false ∧ t.thm.cool = 0 ∧
        if s.pins.wake then t.pwr.phase = .raising 0 ∧ t.pwr.causes.testBit 4 = true ∧ t.keep.restarts = min 65535 (s.keep.restarts + 1)
        else t.pwr.phase = .off ∧ t.pwr.why = .asleep ∧ t.pwr.fault = false ∧ t.keep = s.keep
    else exec .thermalRestart s = .next s)

/-- R10, R408, R411, R412, R415, R427, R436 to R442: resets by the pin, the watchdog, a lockstep mismatch and the host's two keys hold the matrix die with every
register but the ones that stay at its reset value; the exit releases it, records the causes and samples the straps; the watchdog counts
only once enabled, and its setting stays until the next reset; thresholds in order, asserted and released by four samples in a row; the
group offsets follow by 0.25 °C at most. -/
def Obligations.ResetsAndTemperatures : Prop :=
  let held := fun (s : State) (cause : Nat) (t : State) => t.matrixUp = false ∧ t.pwr.phase = .inReset ∧ t.pwr.causes.testBit cause = true ∧
    t.xtb = XtbSt.init ∧ t.jik = JikSt.init ∧ t.que = [] ∧ t.clock.stroke = 0 ∧ t.shadow = [] ∧
    (∀ a ∈ lightDieRegs, t.rd a = s.rd a) ∧ t.pins.pwrEn = s.pins.pwrEn
  let wiped := fun (t : State) => ∀ a, a ∉ lightDieRegs → t.rd a = regReset a
  let released := fun (s t : State) (straps : BitVec 4) => t.matrixUp = true ∧ t.pwr.causes = 0 ∧
    t.rd Reg.pwrRstCause = BitVec.ofNat 32 s.pwr.causes ∧ t.pins.straps = straps.toNat ∧ t.clock.stroke = 0 ∧ t.evt.deferred = [] ∧
    t.pwr.sleepPend = !s.pins.wake
  (∀ (straps : BitVec 4) (sris : Bool) (s : State), s.pwr.ld = .running →
    (s.pwr.phase ≠ .hold → exec (.resetRelease straps sris) s = .next s) ∧
    (s.pwr.phase = .hold → if s.pins.resetN then completes (.resetRelease straps sris) s fun t => released s t straps
      else completes (.resetRelease straps sris) s fun t => t.pwr.phase = .hold ∧ t.pwr.causes.testBit 3 = true) ∧
    (if s.pwr.phase = .inReset ∧ s.pwr.exitDue = true ∧ s.pins.resetN = true then
      completes (.resetExit straps sris) s fun t => released s t straps
    else exec (.resetExit straps sris) s = .next s)) ∧
  (∀ s : State,
    (s.pwr.ld = .running → s.pwr.phase = .running → completes .resetPinAssert s fun t => held s 3 t ∧ wiped t ∧ t.pwr.exitDue = false ∧
      t.pins.resetN = false) ∧
    (s.pwr.ld = .running → s.pwr.phase = .inReset → completes .resetPinAssert s fun t => held s 3 t ∧ wiped t ∧
      t.pwr.exitDue = false ∧ t.pins.resetN = false) ∧
    (s.pwr.ld ≠ .running ∨ (s.pwr.phase ≠ .running ∧ s.pwr.phase ≠ .inReset) →
      exec .resetPinAssert s = .next { s with pins := { s.pins with resetN := false } }) ∧
    completes .resetPinRelease s fun t => t = { s with
      pins := { s.pins with resetN := true }
      pwr := if s.pwr.ld = .running ∧ s.pwr.phase = .inReset then { s.pwr with exitDue := true } else s.pwr }) ∧
  (∀ (m : Master) (s : State), m.isHost = true →
    (s.takesWrite m Reg.pwrReset 0x7A3E0000 → s.pwr.warmKeyAt = none →
      completes (.warmResetKeyFirst m) s fun t => t = { s with pwr := { s.pwr with warmKeyAt := some s.now } }) ∧
    (s.takesWrite m Reg.pwrReset 0x3E7A0001 →
      (s.pwr.warmKeyAt = none → exec (.warmReset m) s = .next s) ∧
      (∀ k, s.pwr.warmKeyAt = some k → k + 1000000 < s.now →
        exec (.warmReset m) s = .next { s with pwr := { s.pwr with warmKeyAt := none } }) ∧
      (∀ k, s.pwr.warmKeyAt = some k → s.now ≤ k + 1000000 → completes (.warmReset m) s fun t =>
        held s 0 t ∧ t.pwr.exitDue = true ∧ (∀ a ∈ rwsRegs, t.rd a = s.rd a) ∧ t.rd (Reg.synStat 0) = s.rd (Reg.synStat 0)))) ∧
  (∀ (m : Master) (w : Word) (s : State), s.takesWrite m Reg.pwrWdtCfg (w ||| 0x80000000) →
    (s.b Reg.pwrWdtCfg 31 = true → exec (.wdtEnable m w) s = .next s) ∧
    (s.b Reg.pwrWdtCfg 31 = false → completes (.wdtEnable m w) s fun t =>
      t.b Reg.pwrWdtCfg 31 = true ∧ t.f Reg.pwrWdtCfg 15 0 = bf w 15 0 ∧ t.pwr.wdtWarned = false ∧ sameRegs s t [Reg.pwrWdtCfg])) ∧
  (∀ (m : Master) (v : BitVec 16) (s : State),
    let expires := fun (t : State) => held s 2 t ∧ wiped t ∧ t.pwr.exitDue = true ∧ t.keep.pwrHist.testBit 1 = true
    (s.takesWrite m Reg.pwrWdtKick 0xC0A5 →
      (s.b Reg.pwrWdtCfg 31 = false → exec (.wdtKick m) s = .next s) ∧
      (s.b Reg.pwrWdtCfg 31 = true → completes (.wdtKick m) s fun t => t = { s with pwr := { s.pwr with wdtWarned := false } })) ∧
    (s.takesWrite m Reg.pwrWdtKick (v.setWidth 32) → v ≠ 0xC0A5 →
      if s.b Reg.pwrWdtCfg 31 then completes (.wdtBadKick m v) s expires else exec (.wdtBadKick m v) s = .next s) ∧
    (s.pwr.ld = .running →
      (if s.b Reg.pwrWdtCfg 31 = true ∧ s.pwr.wdtWarned = false then completes .wdtWarn s fun t => t.pwr = { s.pwr with wdtWarned := true }
        else exec .wdtWarn s = .next s) ∧
      (if s.matrixUp = true ∧ s.b Reg.pwrWdtCfg 31 = true then completes .wdtExpiry s expires else exec .wdtExpiry s = .next s)) ∧
    (s.fabricUp → completes .lockstepMismatch s fun t => held s 1 t ∧ wiped t ∧ t.pwr.exitDue = true)) ∧
  (∀ (m : Master) (x : Threshold) (w : Word) (s : State), s.takesWrite m (thresholdReg x) w →
    let v := w &&& (if x = .shdn then 0x1FFF else 0xFFF)
    let thr := fun y => if y = x then bf v 7 0 else s.f (thresholdReg y) 7 0
    (x = .shdn → s.running = true → exec (.thresholdWrite m x w) s = .next s) ∧
    (x ≠ .shdn ∨ s.running = false →
      if thresholdFits x v = true ∧ thr .warn < thr .throt ∧ thr .throt < thr .shdn then
        completes (.thresholdWrite m x w) s fun t => t.rd (thresholdReg x) = v ∧ sameRegs s t [thresholdReg x]
      else exec (.thresholdWrite m x w) s = .next (s.setB Reg.thmHist 6 true))) ∧
  (∀ (k : ThrSt) (temp thr rel : Int),
    (k.on = false → temp < thr → k.sample temp thr rel = { k with up := 0 }) ∧
    (k.on = false → thr ≤ temp → k.up = 3 → k.sample temp thr rel = { up := 0, down := 0, on := true }) ∧
    (k.on = true → rel ≤ temp → k.sample temp thr rel = { k with down := 0 }) ∧
    (k.on = true → temp < rel → k.down = 3 → k.sample temp thr rel = { up := 0, down := 0, on := false }) ∧
    ((k.sample temp thr rel).on ≠ k.on → (k.on = false ∧ k.up = 3 ∧ thr ≤ temp) ∨ (k.on = true ∧ k.down = 3 ∧ temp < rel))) ∧
  ∀ s : State, s.matrixUp = true →
    (∀ temps : List Sensed, completes (.thmSample temps) s fun t => t.matrixUp = true →
      (t.b Reg.thmStat 3 = false →
        let temp := tempOf (t.rd Reg.thmTmax)
        let lw := levels (s.rd Reg.thmWarn) 11
        let lt := levels (s.rd Reg.thmThrot) 11
        t.thm.warn = s.thm.warn.sample temp lw.1 lw.2 ∧ t.thm.throt = s.thm.throt.sample temp lt.1 lt.2) ∧
      t.b Reg.thmStat 0 = t.thm.warn.on ∧ t.b Reg.thmStat 1 = t.thm.throt.on ∧ t.b Reg.lgtState 30 = t.thm.throt.on) ∧
    completes .thmOffsetUpdate s fun t => ∀ k < 4,
      (s.broken (48 + k) = true → t.groupOffset k = s.groupOffset k) ∧
      (-32000 ≤ s.groupOffset k → s.groupOffset k ≤ 32000 → (t.groupOffset k - s.groupOffset k).natAbs ≤ 25)

/-! ### The quay, the host interfaces, DMA and the event rings (chapter 19), the counters and the declared interface (chapter 20) -/

/-- R445 to R448, R453, R456, R458 to R460, R472: the layouts of the two BARs; a request from PCI Express, QSPI or I²C writes exactly its bytes or answers the
bytes it reads, is held back while R448 says so, or counts a decode error; a QSPI transfer discards a partial word and answers its
status byte; the I²C offset advances with each byte; a master that resets leaves nothing outstanding or held; the link goes up and down;
a host request that times out ends with the error of its master. -/
def Obligations.HostRequestsTakeEffectInTheirTargets : Prop :=
  let issued := fun (m : Master) (target : Nat) (late : Bool) (s t : State) => t.quay.held = s.quay.held ∧
    t.quay.outstanding = if late then s.quay.outstanding ++ [(m.num, 0, target)]
      else s.quay.outstanding.filter fun o => !(o.1 == m.num && o.2.1 == 0)
  let stored := fun (m : Master) (a : Nat) (bs : List Byte) (late : Bool) (s t : State) => ∀ x,
    (burstAt a bs.length = some (.work, x) → s.mustHold m.num 0 1 = false →
      workWritten x bs s t ∧ t.fstore = s.fstore ∧ t.regs = s.regs ∧ issued m 1 late s t) ∧
    (burstAt a bs.length = some (.fstore, x) → s.mustHold m.num 0 2 = false → fstoreWritten x bs s t ∧ t.work = s.work ∧ issued m 2 late s t)
  let cut := fun (m : Master) (a : Nat) (bs : List Byte) (s t : State) =>
    (bs = [] → masterGone m.num s t ∧ sameMemory s t) ∧
    ∀ x, bs ≠ [] → s.ifRefused = false → burstAt a bs.length = some (.work, x) → masterGone m.num s t ∧ workWritten x bs s t ∧ t.fstore = s.fstore
  (∀ (o : Nat) (s : State),
    (o < 0x4000000 → s.barAddr false o = o) ∧ (o < 0x6000000 → s.barAddr true o = 0x10000000 + o) ∧
    (0x6000000 ≤ o → o < 0x8000000 → s.barAddr true o = 0x20000000 + min 8 (s.f Reg.quayWwin 3 0) * 0x100000 + (o - 0x6000000)) ∧
    (0x4000000 ≤ o → targetAt (s.barAddr false o) = none) ∧ (0x8000000 ≤ o → targetAt (s.barAddr true o) = none)) ∧
  (∀ (bar2 : Bool) (o : BitVec 32) (bs : List Byte) (n : Nat) (late : Bool) (s : State),
    let a := s.barAddr bar2 o.toNat
    (s.b Reg.quayPcieStat 31 = false → exec (.pcieMemWrite bar2 o bs late) s = .next s ∧ exec (.pcieMemRead bar2 o n late) s = .next s ∧
      exec (.pcieLinkDown bar2 o bs) s = .next s) ∧
    (s.b Reg.quayPcieStat 31 = true → s.matrixUp = false → s.pwr.phase = .inReset →
      exec (.pcieMemWrite bar2 o bs late) s = .next { s with quay := { s.quay with
        held := s.quay.held ++ [{ master := .pcie, id := 0, bar2 := bar2, off := o.toNat, len := bs.length, write := some bs }] } }) ∧
    (s.b Reg.quayPcieStat 31 = true → s.fabricUp →
      exec (.pcieMemWrite bar2 o [] late) s = .next s ∧ exec (.pcieMemRead bar2 o 0 late) s = .next s ∧
      (s.ifRefused = false → bs ≠ [] → completes (.pcieMemWrite bar2 o bs late) s (stored .pcie a bs late s)) ∧
      (∀ x, n ≠ 0 → burstAt a n = some (.work, x) → s.mustHold 0 0 1 = false → completes (.pcieMemRead bar2 o n late) s fun t =>
        t.out = s.out ++ [.answer .pcie (readBytes zeroByte s.work x n)] ∧ sameMemory s t ∧ t.regs = s.regs ∧ issued .pcie 1 late s t) ∧
      (∀ u x, n ≠ 0 → burstAt a n = some (u, x) → s.mustHold 0 0 u.num = true → completes (.pcieMemRead bar2 o n late) s fun t =>
        t.quay = { s.quay with held := s.quay.held ++ [{ master := .pcie, id := 0, bar2 := bar2, off := o.toNat, len := n, write := none }] } ∧
        t.rd Reg.quayHoldCnt = ovfAdd 31 1 (s.rd Reg.quayHoldCnt) ∧ sameMemory s t ∧ t.out = s.out) ∧
      (n ≠ 0 → targetAt a = none → s.mustHold 0 0 6 = false → completes (.pcieMemRead bar2 o n late) s fun t =>
        t.rd Reg.quayDecerrCnt = (satAdd 24 1 (s.rd Reg.quayDecerrCnt)).1 ∧ t.f Reg.quayDecerrAddr 31 28 = 0 ∧
        t.f Reg.quayDecerrAddr 27 0 = a % 2 ^ 28 ∧ t.quay = s.quay ∧ sameMemory s t ∧ t.out = s.out)) ∧
    (s.b Reg.quayPcieStat 31 = true → completes (.pcieLinkDown bar2 o bs) s fun t => cut .pcie a bs s t ∧
      (bs = [] → t.b Reg.quayPcieStat 31 = false ∧ t.f Reg.quayPcieStat 18 0 = 0))) ∧
  (∀ (lanes speed : Fin 8) (s : State), s.matrixUp = true →
    (s.b Reg.quayPcieStat 31 = true ∨ (s.synState 6 ≠ 2 ∧ s.synState 6 ≠ 3) → exec (.pcieLinkUp lanes speed) s = .next s) ∧
    (s.b Reg.quayPcieStat 31 = false → s.synState 6 = 2 ∨ s.synState 6 = 3 → completes (.pcieLinkUp lanes speed) s fun t => t.b Reg.quayPcieStat 31 = true ∧
      t.f Reg.quayPcieStat 18 16 = lanes.val ∧ t.f Reg.quayPcieStat 2 0 = speed.val ∧ t.quay = s.quay ∧ sameMemory s t)) ∧
  (∀ (o : BitVec 32) (bs : List Byte) (n : Nat) (late : Bool) (s : State), s.fabricUp →
    let puts := fun (c : Instr) (bar2 : Bool) => let a := s.barAddr bar2 o.toNat
      (bs.length < 4 → completes c s fun t => t = { s with quay := { s.quay with qspiError := false } }) ∧
      (bs.length = 4 → targetAt a = none → completes c s fun t => t.quay.qspiError = true ∧ sameMemory s t) ∧
      (bs.length = 4 → s.ifRefused = false → completes c s fun t => stored .qspi a bs late s t ∧
        (∀ x, burstAt a 4 = some (.work, x) → t.quay.qspiError = false ∧ t.out = s.out))
    let gets := fun (c : Bool → Instr) (bar2 : Bool) =>
      (exec (c false) s = .next { s with out := s.out ++ [.answer .qspi [2]] }) ∧
      (s.qspiHeld bar2 o.toNat n = true → completes (c true) s fun t =>
        t.out = s.out ++ [.answer .qspi [2]] ∧ t.rd Reg.quayHoldCnt = ovfAdd 31 1 (s.rd Reg.quayHoldCnt) ∧ t.quay = s.quay ∧ sameMemory s t) ∧
      (s.qspiHeld bar2 o.toNat n = false →
        ((∀ i < n, (burstAt (s.barAddr bar2 (o.toNat + 4 * i)) 4).map (·.1) = some .work) →
          completes (c true) s fun t => t = { s with
            quay := { s.quay with qspiError := false, outstanding := if n = 0 then s.quay.outstanding else s.quay.outstanding.filter fun x => x.1 != 1 }
            out := s.out ++ [.answer .qspi (1 :: (upto n).flatMap fun i =>
              readBytes zeroByte s.work (s.barAddr bar2 (o.toNat + 4 * i) - 0x20000000) 4)] }) ∧
        (n ≠ 0 → targetAt (s.barAddr bar2 o.toNat) = none → completes (c true) s fun t =>
          t.quay.qspiError = true ∧ t.out = s.out ++ [.answer .qspi [4]] ∧ sameMemory s t))
    puts (.qspiWrite o bs late) false ∧ puts (.qspiWriteBar2 o bs late) true ∧ gets (.qspiRead o n) false ∧ gets (.qspiReadBar2 o n) true ∧
    completes .qspiReadStatus s (fun t => ∃ v : Byte, t = { s with out := s.out ++ [.answer .qspi [v]] } ∧ v.getLsbD 1 = s.quay.qspiError ∧
      (v.getLsbD 0 = true ↔ (∃ q ∈ s.quay.held, q.master = .qspi ∧ q.write.isSome = true) ∨ ∃ x ∈ s.quay.outstanding, x.1 = 1) ∧
      ∀ r < 4, v.getLsbD (4 + r) = decide (s.ringFill r ≠ 0)) ∧
    (∀ bar2 : Bool, completes (.qspiCsRelease bar2 o bs) s (cut .qspi (s.barAddr bar2 o.toNat) bs s)) ∧
    completes (.i2cAbort o bs) s (cut .i2c (s.barAddr false o.toNat) bs s)) ∧
  (∀ (o : BitVec 32) (bs : List Byte) (n : Nat) (late : Bool) (s : State), s.fabricUp →
    completes (.i2cWrite o bs late) s (fun t => t.quay.i2cOffset = (o.toNat + bs.length) % 2 ^ 32 ∧
      (bs.length = 4 → o.toNat % 4 = 0 → o.toNat < 0x4000000 → s.mustHold 2 0 0 = false →
        t.regs = (hostWrite .i2c o.toNat (BitVec.ofNat 32 (leNat bs)) s).regs) ∧
      (bs.length < 4 → o.toNat % 4 = 0 → t = { s with quay := t.quay } ∧ t.quay.held = s.quay.held)) ∧
    completes (.i2cRead n late) s (fun t => t.quay.i2cOffset = (s.quay.i2cOffset + n) % 2 ^ 32 ∧
      (n = 4 → s.quay.i2cOffset % 4 = 0 → s.quay.i2cOffset < 0x4000000 → s.mustHold 2 0 0 = false → s.moving s.quay.i2cOffset = none →
        nfind 2 s.quay.latches = none → t.out = s.out ++ [.answer .i2c (leBytes 4 (s.hostRead s.quay.i2cOffset).toNat)]))) ∧
  (∀ (m : Master) (late : Bool) (s : State), s.fabricUp →
    (s.quay.held.find? (fun q => q.master == m) = none → exec (.heldRequestIssue m late) s = .next s) ∧
    (∀ q x, s.quay.held.find? (fun q => q.master == m) = some q → burstAt (s.reqAddr q) q.len = some (.work, x) → s.ifRefused = false →
      completes (.heldRequestIssue m late) s fun t => t.quay.held = s.quay.held.erase q ∧ t.fstore = s.fstore ∧
        (∀ bs, q.write = some bs → workWritten x bs s t ∧ t.out = s.out) ∧
        (q.write = none → t.work = s.work ∧ t.out = s.out ++ [.answer m (readBytes zeroByte s.work x q.len)]))) ∧
  (∀ (m : Master) (w : Word) (s : State), s.takesWrite m Reg.quayWwin w → completes (.quayWwinWrite m w) s fun t =>
    t.f Reg.quayWwin 3 0 = bf w 3 0 ∧ t.f Reg.quayWwin 31 4 = s.f Reg.quayWwin 31 4 ∧ t = { s with regs := t.regs } ∧ sameRegs s t [Reg.quayWwin]) ∧
  ∀ (ring : Fin 4) (s : State), s.fabricUp →
    (∀ m : Master, m.isHost = true → exec (.pcieCompletionTimeout m ring) s = .next s) ∧
    (∀ n : Fin 8, if s.b (Reg.dmaStat n) 31 then completes (.pcieCompletionTimeout (.dma n) ring) s fun t =>
        t.rd (Reg.dmaStat n) = 0x40000002 ∧ masterGone (5 + n) s t ∧ sameMemory s t
      else exec (.pcieCompletionTimeout (.dma n) ring) s = .next s) ∧
    (s.loader.amd = none → s.loadSlot = 4 → s.loader.phase = .header → exec (.pcieCompletionTimeout .loader ring) s = .next (s.loadFail 0xB 0)) ∧
    (s.loader.amd = none → s.loadSlot ≠ 4 → exec (.pcieCompletionTimeout .loader ring) s = .next s) ∧
    (∀ x l, (s.ring ring).queue = x :: l → s.f (Reg.evtRingDrop ring) 23 0 < 0xFFFFFE → completes (.pcieCompletionTimeout .evtWriter ring) s fun t =>
      t.f (Reg.evtRingDrop ring) 23 0 = s.f (Reg.evtRingDrop ring) 23 0 + 1 ∧ sameMemory s t ∧
      (s.ringSize ring ≤ s.ringFill ring + l.length → (t.ring ring).queue = l) ∧
      (s.ringFill ring + l.length < s.ringSize ring → (t.ring ring).dropped = 0 ∧ ∃ y, (t.ring ring).queue = l ++ [y]))

/-- R453, R455, R461, R462, R466 to R469, R471, R483, R486: `GO` starts an idle channel at its head descriptor and a busy one ignores it; `ABORT` resets
the channel and writes no more than the part already accepted; a descriptor that is out of range, undecodable or refused stops the channel with
its cause; one line from working memory to working memory writes exactly its bytes and goes on to `NEXT` or ends; a written record
advances `WP`, `RP` frees slots, an enabled ring drains its boot records; messages wait for their count, their time or their mask; a
counter clear waits for the boundary and an interface of another major version is refused. -/
def Obligations.DmaAndEventRingsMoveTheirData : Prop :=
  (∀ (m : Master) (n : Fin 8) (s : State), s.takesWrite m (Reg.dmaCtrl n) 1 →
    (s.b (Reg.dmaStat n) 31 = true → exec (.dmaGo m n) s = .next s) ∧
    (s.b (Reg.dmaStat n) 31 = false → completes (.dmaGo m n) s fun t => t.rd (Reg.dmaStat n) = 0x80000000 ∧
      t.rd (Reg.dmaCurLo n) = s.rd (Reg.dmaHeadLo n) ∧ t.rd (Reg.dmaCurHi n) = s.rd (Reg.dmaHeadHi n) ∧ (t.dmaOf n).strokeSeen = false ∧
      sameRegs s t [Reg.dmaStat n, Reg.dmaCurLo n, Reg.dmaCurHi n] ∧ (∀ k, k ≠ n.val → t.dmaOf k = s.dmaOf k) ∧ sameMemory s t)) ∧
  (∀ (m : Master) (n : Fin 8) (o : BitVec 64) (bs : List Byte) (s : State), s.takesWrite m (Reg.dmaCtrl n) 2 →
    let gone := fun (t : State) => masterGone (5 + n) s t ∧ t.b (Reg.dmaStat n) 31 = false ∧ t.b (Reg.dmaStat n) 29 = false
    (bs = [] ∨ s.b (Reg.dmaStat n) 31 = false → completes (.dmaAbort m n o bs) s fun t => gone t ∧ sameMemory s t) ∧
    ∀ x, bs ≠ [] → s.b (Reg.dmaStat n) 31 = true → burstAt o.toNat bs.length = some (.work, x) →
      completes (.dmaAbort m n o bs) s fun t => gone t ∧ workWritten x bs s t ∧ t.fstore = s.fstore ∧ t.cflash = s.cflash) ∧
  (∀ (n : Fin 8) (host : List (Nat × Byte)) (fails : Bool) (s : State), s.fabricUp →
    let cur := pair64 (s.rd (Reg.dmaCurLo n)) (s.rd (Reg.dmaCurHi n))
    let stops := fun (cause : Nat) => completes (.dmaDescriptor n host fails) s fun t => t.rd (Reg.dmaStat n) = BitVec.ofNat 32 (2 ^ 30 + cause) ∧ masterGone (5 + n) s t ∧
      t.work = s.work ∧ t.fstore = s.fstore ∧ t.cflash = s.cflash
    (s.b (Reg.dmaStat n) 31 = false → exec (.dmaDescriptor n host fails) s = .next s) ∧
    (s.b (Reg.dmaStat n) 31 = true →
      (burstAt cur 48 = none → stops 1) ∧
      (∀ u x, burstAt cur 48 = some (u, x) → cur % 16 ≠ 0 ∨ (u ≠ .work ∧ u ≠ .host) → stops 3) ∧
      (∀ x, burstAt cur 48 = some (.host, x) → cur % 16 = 0 → fails = true → stops 2) ∧
      ∀ x, burstAt cur 48 = some (.work, x) → cur % 16 = 0 →
        let d := readBytes zeroByte s.work x 48
        let src := bytesAt d 0 8
        let dst := bytesAt d 8 8
        let len := bytesAt d 0x18 3
        let lines := bytesAt d 0x1C 2 % 8192
        let ctrl := BitVec.ofNat 32 (bytesAt d 0x1E 2)
        (len = 0 ∨ lines = 0 → stops 3) ∧
        (len ≠ 0 → lines ≠ 0 → bit ctrl 3 = true → (s.dmaOf n).strokeSeen = false → host = [] →
          exec (.dmaDescriptor n host fails) s = .next (s.setB (Reg.dmaStat n) 29 true)) ∧
        (bit ctrl 3 = false ∨ (s.dmaOf n).strokeSeen = true → lines = 1 → len ≠ 0 → len ≤ 512 →
          (burstAt src len = none → stops 1) ∧
          ∀ y z, burstAt src len = some (.work, y) → burstAt dst len = some (.work, z) →
            completes (.dmaDescriptor n host fails) s fun t =>
            workWritten z (readBytes zeroByte s.work y len) s t ∧ t.fstore = s.fstore ∧ t.cflash = s.cflash ∧
            (t.dmaOf n).strokeSeen = false ∧ t.b (Reg.dmaStat n) 31 = !bit ctrl 1 ∧
            (bit ctrl 1 = false → t.rd (Reg.dmaCurLo n) = BitVec.ofNat 32 (bytesAt d 0x10 4) ∧
              t.rd (Reg.dmaCurHi n) = BitVec.ofNat 32 (bytesAt d 0x14 4))))) ∧
  (∀ (r : Fin 4) (s : State), s.fabricUp →
    let v := s.f (Reg.evtRingCfg r) 21 16
    let sent := fun (t : State) => (t.ring r).unsigned = 0 ∧
      if s.b (Reg.msixTableWord v 3) 0 then t.b (Reg.msixPbaWord (v / 32)) (v % 32) = true ∧ t.out = s.out else t.out = s.out ++ [.msix v]
    ((s.ring r).queue = [] ∨ s.b (Reg.evtRingCfg r) 31 = false → exec (.eventRecordWritten r) s = .next s) ∧
    (∀ x l y, (s.ring r).queue = x :: l → s.b (Reg.evtRingCfg r) 31 = true →
      burstAt (s.ringSlot r (s.f (Reg.evtRingWp r) 15 0)) 16 = some (.work, y) →
      let wp := (s.f (Reg.evtRingWp r) 15 0 + 1) % 65536
      let moved := fun (t : State) => (t.ring r).queue = l ∧ t.f (Reg.evtRingWp r) 15 0 = wp ∧ ∀ k, k ≠ r.val → t.ring k = s.ring k
      (s.b (Reg.evtRingCfg r) 29 = false → completes (.eventRecordWritten r) s fun t =>
        moved t ∧ workWritten y (leBytes 16 x.toNat) s t ∧ t.fstore = s.fstore ∧
        (s.f (Reg.evtRingCfg r) 7 0 = 0 ∨ s.f (Reg.evtRingCfg r) 15 8 ≤ (s.ring r).unsigned + 1 → sent t) ∧
        (s.f (Reg.evtRingCfg r) 7 0 ≠ 0 → (s.ring r).unsigned + 1 < s.f (Reg.evtRingCfg r) 15 8 →
          (t.ring r).unsigned = (s.ring r).unsigned + 1 ∧ t.out = s.out)) ∧
      ∀ z, s.b (Reg.evtRingCfg r) 29 = true → s.running = false →
        burstAt (pair64 (s.rd (Reg.evtRingWpaddrLo r)) (s.rd (Reg.evtRingWpaddrHi r))) 4 = some (.work, z) →
        completes (.eventRecordWritten r) s fun t => moved t ∧ readBytes zeroByte t.work z 4 = leBytes 4 wp) ∧
    ((s.ring r).unsigned = 0 → exec (.msiCoalesceTimer r) s = .next s) ∧
    ((s.ring r).unsigned ≠ 0 → completes (.msiCoalesceTimer r) s fun t => sent t ∧ (t.ring r).queue = (s.ring r).queue ∧ sameMemory s t)) ∧
  (∀ (m : Master) (r : Fin 4) (w : Word) (s : State), s.takesWrite m (Reg.evtRingRp r) w →
    let left := (s.f (Reg.evtRingWp r) 15 0 + 65536 - bf w 15 0) % 65536
    (s.ringFill r < (bf w 15 0 + 65536 - s.f (Reg.evtRingRp r) 15 0) % 65536 → exec (.ringRpWrite m r w) s = .next s) ∧
    ((bf w 15 0 + 65536 - s.f (Reg.evtRingRp r) 15 0) % 65536 ≤ s.ringFill r → completes (.ringRpWrite m r w) s fun t =>
      t.rd (Reg.evtRingRp r) = BitVec.ofNat 32 (bf w 15 0) ∧ sameRegs s t [Reg.evtRingRp r] ∧ sameMemory s t ∧
      ((s.ring r).dropped = 0 ∨ s.ringSize r ≤ left + (s.ring r).queue.length → t.evt = s.evt) ∧
      ((s.ring r).dropped ≠ 0 → left + (s.ring r).queue.length < s.ringSize r → (t.ring r).dropped = 0 ∧
        ∃ x, (t.ring r).queue = (s.ring r).queue ++ [x] ∧ x.toNat % 2 ^ 32 = (s.ring r).dropped % 2 ^ 32))) ∧
  (∀ (m : Master) (r : Fin 4) (w : Word) (s : State), s.takesWrite m (Reg.evtRingCfg r) (w ||| 0x80000000) →
    let mine := s.evt.boot.filter fun e => e.1 == r.val
    let cfg := (w ||| 0x80000000) &&& 0xEF3FFFFF
    (s.b (Reg.evtRingCfg r) 31 = true → exec (.ringEnable m r w) s = .next (s.wr (Reg.evtRingCfg r) cfg)) ∧
    (s.b (Reg.evtRingCfg r) 31 = false → s.ringFill r + (s.ring r).queue.length + mine.length ≤ 2 ^ max 4 (min 12 (bf w 27 24)) →
      completes (.ringEnable m r w) s fun t => t.rd (Reg.evtRingCfg r) = cfg ∧ t.evt.boot = s.evt.boot.filter (fun e => e.1 != r.val) ∧
        (t.ring r).queue = (s.ring r).queue ++ mine.map (·.2) ∧ (∀ k, k ≠ r.val → t.ring k = s.ring k) ∧ sameRegs s t [Reg.evtRingCfg r] ∧
        sameMemory s t)) ∧
  (∀ (m : Master) (w : Word) (s : State), s.takesWrite m Reg.glbCntClear (w ||| 0x80000000) →
    if s.b Reg.glbCntStat 31 then exec (.cntClear m w) s = .next s else completes (.cntClear m w) s fun t =>
      t.b Reg.glbCntStat 31 = true ∧ t.rd Reg.glbCntClear = w ||| 0x80000000 ∧ sameRegs s t [Reg.glbCntStat, Reg.glbCntClear] ∧
        t = { s with regs := t.regs }) ∧
  ∀ (m : Master) (w : Word) (s : State), s.takesWrite m Reg.glbIfHost w →
    (bf w 31 16 ≤ 1 → exec (.ifDeclare m w) s = .next (s.wr Reg.glbIfHost w)) ∧
    (1 < bf w 31 16 → completes (.ifDeclare m w) s fun t => t.rd Reg.glbIfHost = w ∧ t.ifRefused = true ∧ sameMemory s t ∧
      ∀ (a : BitVec 26) (v : Word), 0x10000 ≤ a.toNat / 4 * 4 → a.toNat / 4 * 4 ≠ Reg.pwrReset → m.isHost = true →
        exec (.registerWrite m a v) t = .next t)
end

