-- ==== Sys2Proof/Laws/NMap.lean ====
section
/-! SUPPORT. The laws of sparse maps: read after write, writes elsewhere, and the canonical form that every write keeps. -/

namespace Sys2Proof.Machine

theorem nabove_trans {α : Type} {a b : Nat} {m : NMap α} (h : a ≤ b) (hm : nabove b m = true) : nabove a m = true := by
  simp only [nabove, List.all_eq_true, decide_eq_true_eq] at *
  exact fun p hp => Nat.lt_of_le_of_lt h (hm p hp)

theorem nabove_nput {α : Type} {b k : Nat} {v : α} {m : NMap α} (hk : b < k) (hm : nabove b m = true) :
    nabove b (nput k v m) = true := by
  induction m with
  | nil => simp [nput, nabove, hk]
  | cons p m ih =>
    obtain ⟨i, w⟩ := p
    simp only [nabove, List.all_cons, Bool.and_eq_true, decide_eq_true_eq] at hm
    unfold nput
    split
    · simp only [nabove, List.all_cons, Bool.and_eq_true, decide_eq_true_eq]; exact ⟨hk, hm.1, hm.2⟩
    · split
      · simp only [nabove, List.all_cons, Bool.and_eq_true, decide_eq_true_eq]; exact ⟨hk, hm.2⟩
      · simp only [nabove, List.all_cons, Bool.and_eq_true, decide_eq_true_eq]; exact ⟨hm.1, ih hm.2⟩

theorem nabove_ndel {α : Type} {b k : Nat} {m : NMap α} (hm : nabove b m = true) : nabove b (ndel k m) = true := by
  induction m with
  | nil => exact hm
  | cons p m ih =>
    obtain ⟨i, w⟩ := p
    simp only [nabove, List.all_cons, Bool.and_eq_true, decide_eq_true_eq] at hm
    unfold ndel
    split
    · exact ih hm.2
    · simp only [nabove, List.all_cons, Bool.and_eq_true, decide_eq_true_eq]; exact ⟨hm.1, ih hm.2⟩

theorem nsorted_nput {α : Type} (k : Nat) (v : α) (m : NMap α) (h : nsorted m = true) : nsorted (nput k v m) = true := by
  induction m with
  | nil => simp [nput, nsorted, nabove]
  | cons p m ih =>
    obtain ⟨i, w⟩ := p
    simp only [nsorted, Bool.and_eq_true] at h
    unfold nput
    split
    · rename_i hk
      simp only [nsorted, Bool.and_eq_true]
      refine ⟨?_, h⟩
      simp only [nabove, List.all_cons, Bool.and_eq_true, decide_eq_true_eq]
      exact ⟨hk, nabove_trans (Nat.le_of_lt hk) h.1⟩
    · split
      · rename_i hk; subst hk; simpa only [nsorted, Bool.and_eq_true] using h
      · rename_i h1 h2
        simp only [nsorted, Bool.and_eq_true]
        exact ⟨nabove_nput (by omega) h.1, ih h.2⟩

theorem nsorted_ndel {α : Type} (k : Nat) (m : NMap α) (h : nsorted m = true) : nsorted (ndel k m) = true := by
  induction m with
  | nil => exact h
  | cons p m ih =>
    obtain ⟨i, w⟩ := p
    simp only [nsorted, Bool.and_eq_true] at h
    unfold ndel
    split
    · exact ih h.2
    · simp only [nsorted, Bool.and_eq_true]; exact ⟨nabove_ndel h.1, ih h.2⟩

theorem mem_nput {α : Type} {k : Nat} {v : α} {m : NMap α} {p : Nat × α} (h : p ∈ nput k v m) : p = (k, v) ∨ p ∈ m := by
  induction m with
  | nil => simpa [nput] using h
  | cons q m ih =>
    obtain ⟨i, w⟩ := q
    unfold nput at h
    split at h
    · simpa using h
    · split at h
      · rcases List.mem_cons.1 h with h | h
        · exact .inl h
        · exact .inr (List.mem_cons_of_mem _ h)
      · rcases List.mem_cons.1 h with h | h
        · exact .inr (h ▸ List.mem_cons_self)
        · rcases ih h with h | h
          · exact .inl h
          · exact .inr (List.mem_cons_of_mem _ h)

theorem mem_ndel {α : Type} {k : Nat} {m : NMap α} {p : Nat × α} (h : p ∈ ndel k m) : p ∈ m := by
  induction m with
  | nil => exact h
  | cons q m ih =>
    obtain ⟨i, w⟩ := q
    unfold ndel at h
    split at h
    · exact List.mem_cons_of_mem _ (ih h)
    · rcases List.mem_cons.1 h with h | h
      · exact h ▸ List.mem_cons_self
      · exact List.mem_cons_of_mem _ (ih h)

/-- Every write keeps the canonical form. -/
theorem nwf_nset {α : Type} [DecidableEq α] (d : Nat → α) (m : NMap α) (k : Nat) (v : α) (h : nwf d m = true) :
    nwf d (nset d m k v) = true := by
  simp only [nwf, Bool.and_eq_true, List.all_eq_true, decide_eq_true_eq] at *
  unfold nset
  split
  · exact ⟨nsorted_ndel k m h.1, fun p hp => h.2 p (mem_ndel hp)⟩
  · rename_i hv
    refine ⟨nsorted_nput k v m h.1, fun p hp => ?_⟩
    rcases mem_nput hp with e | hp
    · subst e; exact hv
    · exact h.2 p hp

/-- Taking entries off a list keeps the canonical form. -/
theorem nwf_filter {α : Type} [DecidableEq α] (d : Nat → α) (m : NMap α) (f : Nat × α → Bool) (h : nwf d m = true) :
    nwf d (m.filter f) = true := by
  simp only [nwf, Bool.and_eq_true, List.all_eq_true, decide_eq_true_eq] at *
  refine ⟨?_, fun p hp => h.2 p ((List.mem_filter.1 hp).1)⟩
  have hs := h.1
  clear h
  induction m with
  | nil => rfl
  | cons q m ih =>
    obtain ⟨i, w⟩ := q
    simp only [nsorted, Bool.and_eq_true] at hs
    rw [List.filter_cons]
    split
    · simp only [nsorted, Bool.and_eq_true]
      refine ⟨?_, ih hs.2⟩
      simp only [nabove, List.all_eq_true] at *
      exact fun p hp => hs.1 p ((List.mem_filter.1 hp).1)
    · exact ih hs.2

theorem nwf_nil {α : Type} [DecidableEq α] (d : Nat → α) : nwf d ([] : NMap α) = true := rfl

theorem nfind_nput_self {α : Type} (k : Nat) (v : α) (m : NMap α) : nfind k (nput k v m) = some v := by
  induction m with
  | nil => simp [nput, nfind]
  | cons p m ih =>
    obtain ⟨i, w⟩ := p
    unfold nput
    split
    · simp [nfind]
    · split
      · simp [nfind]
      · rw [nfind, if_neg (by omega)]; exact ih

theorem nfind_nput_ne {α : Type} {j k : Nat} (v : α) (m : NMap α) (h : j ≠ k) : nfind j (nput k v m) = nfind j m := by
  induction m with
  | nil => simp [nput, nfind, Ne.symm h]
  | cons p m ih =>
    obtain ⟨i, w⟩ := p
    unfold nput
    split
    · rw [nfind, if_neg (Ne.symm h)]
    · split
      · rename_i hk; subst hk; rw [nfind, nfind, if_neg (Ne.symm h), if_neg (Ne.symm h)]
      · rw [nfind, nfind, ih]

theorem nfind_ndel_self {α : Type} (k : Nat) (m : NMap α) : nfind k (ndel k m) = none := by
  induction m with
  | nil => rfl
  | cons p m ih =>
    obtain ⟨i, w⟩ := p
    unfold ndel
    split
    · exact ih
    · rename_i hi; rw [nfind, if_neg hi]; exact ih

theorem nfind_ndel_ne {α : Type} {j k : Nat} (m : NMap α) (h : j ≠ k) : nfind j (ndel k m) = nfind j m := by
  induction m with
  | nil => rfl
  | cons p m ih =>
    obtain ⟨i, w⟩ := p
    unfold ndel
    split
    · rename_i hi; subst hi; rw [nfind, if_neg (Ne.symm h)]; exact ih
    · rw [nfind, nfind, ih]

/-- A read after a write to the same place gives the value written. -/
@[simp] theorem nget_nset_self {α : Type} [DecidableEq α] (d : Nat → α) (m : NMap α) (k : Nat) (v : α) :
    nget d (nset d m k v) k = v := by
  unfold nget nset
  split
  · rename_i e; rw [nfind_ndel_self, e]; rfl
  · rw [nfind_nput_self]; rfl

/-- A write leaves every other place alone. -/
theorem nget_nset_ne {α : Type} [DecidableEq α] (d : Nat → α) (m : NMap α) {j k : Nat} (v : α) (h : j ≠ k) :
    nget d (nset d m k v) j = nget d m j := by
  unfold nget nset
  split
  · rw [nfind_ndel_ne m h]
  · rw [nfind_nput_ne v m h]

end Sys2Proof.Machine
end

