-- ==== Sys2Proof/Laws/State.lean ====
section
/-! SUPPORT. One lemma per update of the state and field: what the update leaves as it was, and what it puts in its own field. -/

namespace Sys2Proof.Machine

/-! `wr` changes `regs`. -/

@[simp] theorem State.wr_regs (s : State) (a : Nat) (v : Word) : (s.wr a v).regs = nset regReset s.regs a v := rfl
@[simp] theorem State.wr_shadow (s : State) (a : Nat) (v : Word) : (s.wr a v).shadow = s.shadow := rfl
@[simp] theorem State.wr_clock (s : State) (a : Nat) (v : Word) : (s.wr a v).clock = s.clock := rfl
@[simp] theorem State.wr_pins (s : State) (a : Nat) (v : Word) : (s.wr a v).pins = s.pins := rfl
@[simp] theorem State.wr_loader (s : State) (a : Nat) (v : Word) : (s.wr a v).loader = s.loader := rfl
@[simp] theorem State.wr_cox (s : State) (a : Nat) (v : Word) : (s.wr a v).cox = s.cox := rfl
@[simp] theorem State.wr_syn (s : State) (a : Nat) (v : Word) : (s.wr a v).syn = s.syn := rfl
@[simp] theorem State.wr_prt (s : State) (a : Nat) (v : Word) : (s.wr a v).prt = s.prt := rfl
@[simp] theorem State.wr_xtb (s : State) (a : Nat) (v : Word) : (s.wr a v).xtb = s.xtb := rfl
@[simp] theorem State.wr_que (s : State) (a : Nat) (v : Word) : (s.wr a v).que = s.que := rfl
@[simp] theorem State.wr_slips (s : State) (a : Nat) (v : Word) : (s.wr a v).slips = s.slips := rfl
@[simp] theorem State.wr_jik (s : State) (a : Nat) (v : Word) : (s.wr a v).jik = s.jik := rfl
@[simp] theorem State.wr_hed (s : State) (a : Nat) (v : Word) : (s.wr a v).hed = s.hed := rfl
@[simp] theorem State.wr_egr (s : State) (a : Nat) (v : Word) : (s.wr a v).egr = s.egr := rfl
@[simp] theorem State.wr_aud (s : State) (a : Nat) (v : Word) : (s.wr a v).aud = s.aud := rfl
@[simp] theorem State.wr_lgt (s : State) (a : Nat) (v : Word) : (s.wr a v).lgt = s.lgt := rfl
@[simp] theorem State.wr_fld (s : State) (a : Nat) (v : Word) : (s.wr a v).fld = s.fld := rfl
@[simp] theorem State.wr_keep (s : State) (a : Nat) (v : Word) : (s.wr a v).keep = s.keep := rfl
@[simp] theorem State.wr_nvs (s : State) (a : Nat) (v : Word) : (s.wr a v).nvs = s.nvs := rfl
@[simp] theorem State.wr_thm (s : State) (a : Nat) (v : Word) : (s.wr a v).thm = s.thm := rfl
@[simp] theorem State.wr_pwr (s : State) (a : Nat) (v : Word) : (s.wr a v).pwr = s.pwr := rfl
@[simp] theorem State.wr_quay (s : State) (a : Nat) (v : Word) : (s.wr a v).quay = s.quay := rfl
@[simp] theorem State.wr_evt (s : State) (a : Nat) (v : Word) : (s.wr a v).evt = s.evt := rfl
@[simp] theorem State.wr_fstore (s : State) (a : Nat) (v : Word) : (s.wr a v).fstore = s.fstore := rfl
@[simp] theorem State.wr_work (s : State) (a : Nat) (v : Word) : (s.wr a v).work = s.work := rfl
@[simp] theorem State.wr_nvsMem (s : State) (a : Nat) (v : Word) : (s.wr a v).nvsMem = s.nvsMem := rfl
@[simp] theorem State.wr_cflash (s : State) (a : Nat) (v : Word) : (s.wr a v).cflash = s.cflash := rfl
@[simp] theorem State.wr_hostMem (s : State) (a : Nat) (v : Word) : (s.wr a v).hostMem = s.hostMem := rfl
@[simp] theorem State.wr_out (s : State) (a : Nat) (v : Word) : (s.wr a v).out = s.out := rfl
@[simp] theorem State.wr_pending (s : State) (a : Nat) (v : Word) : (s.wr a v).pending = s.pending := rfl

/-! `setF` changes `regs`. -/

@[simp] theorem State.setF_shadow (s : State) (a hi lo v : Nat) : (s.setF a hi lo v).shadow = s.shadow := rfl
@[simp] theorem State.setF_clock (s : State) (a hi lo v : Nat) : (s.setF a hi lo v).clock = s.clock := rfl
@[simp] theorem State.setF_pins (s : State) (a hi lo v : Nat) : (s.setF a hi lo v).pins = s.pins := rfl
@[simp] theorem State.setF_loader (s : State) (a hi lo v : Nat) : (s.setF a hi lo v).loader = s.loader := rfl
@[simp] theorem State.setF_cox (s : State) (a hi lo v : Nat) : (s.setF a hi lo v).cox = s.cox := rfl
@[simp] theorem State.setF_syn (s : State) (a hi lo v : Nat) : (s.setF a hi lo v).syn = s.syn := rfl
@[simp] theorem State.setF_prt (s : State) (a hi lo v : Nat) : (s.setF a hi lo v).prt = s.prt := rfl
@[simp] theorem State.setF_xtb (s : State) (a hi lo v : Nat) : (s.setF a hi lo v).xtb = s.xtb := rfl
@[simp] theorem State.setF_que (s : State) (a hi lo v : Nat) : (s.setF a hi lo v).que = s.que := rfl
@[simp] theorem State.setF_slips (s : State) (a hi lo v : Nat) : (s.setF a hi lo v).slips = s.slips := rfl
@[simp] theorem State.setF_jik (s : State) (a hi lo v : Nat) : (s.setF a hi lo v).jik = s.jik := rfl
@[simp] theorem State.setF_hed (s : State) (a hi lo v : Nat) : (s.setF a hi lo v).hed = s.hed := rfl
@[simp] theorem State.setF_egr (s : State) (a hi lo v : Nat) : (s.setF a hi lo v).egr = s.egr := rfl
@[simp] theorem State.setF_aud (s : State) (a hi lo v : Nat) : (s.setF a hi lo v).aud = s.aud := rfl
@[simp] theorem State.setF_lgt (s : State) (a hi lo v : Nat) : (s.setF a hi lo v).lgt = s.lgt := rfl
@[simp] theorem State.setF_fld (s : State) (a hi lo v : Nat) : (s.setF a hi lo v).fld = s.fld := rfl
@[simp] theorem State.setF_keep (s : State) (a hi lo v : Nat) : (s.setF a hi lo v).keep = s.keep := rfl
@[simp] theorem State.setF_nvs (s : State) (a hi lo v : Nat) : (s.setF a hi lo v).nvs = s.nvs := rfl
@[simp] theorem State.setF_thm (s : State) (a hi lo v : Nat) : (s.setF a hi lo v).thm = s.thm := rfl
@[simp] theorem State.setF_pwr (s : State) (a hi lo v : Nat) : (s.setF a hi lo v).pwr = s.pwr := rfl
@[simp] theorem State.setF_quay (s : State) (a hi lo v : Nat) : (s.setF a hi lo v).quay = s.quay := rfl
@[simp] theorem State.setF_evt (s : State) (a hi lo v : Nat) : (s.setF a hi lo v).evt = s.evt := rfl
@[simp] theorem State.setF_fstore (s : State) (a hi lo v : Nat) : (s.setF a hi lo v).fstore = s.fstore := rfl
@[simp] theorem State.setF_work (s : State) (a hi lo v : Nat) : (s.setF a hi lo v).work = s.work := rfl
@[simp] theorem State.setF_nvsMem (s : State) (a hi lo v : Nat) : (s.setF a hi lo v).nvsMem = s.nvsMem := rfl
@[simp] theorem State.setF_cflash (s : State) (a hi lo v : Nat) : (s.setF a hi lo v).cflash = s.cflash := rfl
@[simp] theorem State.setF_hostMem (s : State) (a hi lo v : Nat) : (s.setF a hi lo v).hostMem = s.hostMem := rfl
@[simp] theorem State.setF_out (s : State) (a hi lo v : Nat) : (s.setF a hi lo v).out = s.out := rfl
@[simp] theorem State.setF_pending (s : State) (a hi lo v : Nat) : (s.setF a hi lo v).pending = s.pending := rfl

/-! `setB` changes `regs`. -/

@[simp] theorem State.setB_shadow (s : State) (a i : Nat) (v : Bool) : (s.setB a i v).shadow = s.shadow := rfl
@[simp] theorem State.setB_clock (s : State) (a i : Nat) (v : Bool) : (s.setB a i v).clock = s.clock := rfl
@[simp] theorem State.setB_pins (s : State) (a i : Nat) (v : Bool) : (s.setB a i v).pins = s.pins := rfl
@[simp] theorem State.setB_loader (s : State) (a i : Nat) (v : Bool) : (s.setB a i v).loader = s.loader := rfl
@[simp] theorem State.setB_cox (s : State) (a i : Nat) (v : Bool) : (s.setB a i v).cox = s.cox := rfl
@[simp] theorem State.setB_syn (s : State) (a i : Nat) (v : Bool) : (s.setB a i v).syn = s.syn := rfl
@[simp] theorem State.setB_prt (s : State) (a i : Nat) (v : Bool) : (s.setB a i v).prt = s.prt := rfl
@[simp] theorem State.setB_xtb (s : State) (a i : Nat) (v : Bool) : (s.setB a i v).xtb = s.xtb := rfl
@[simp] theorem State.setB_que (s : State) (a i : Nat) (v : Bool) : (s.setB a i v).que = s.que := rfl
@[simp] theorem State.setB_slips (s : State) (a i : Nat) (v : Bool) : (s.setB a i v).slips = s.slips := rfl
@[simp] theorem State.setB_jik (s : State) (a i : Nat) (v : Bool) : (s.setB a i v).jik = s.jik := rfl
@[simp] theorem State.setB_hed (s : State) (a i : Nat) (v : Bool) : (s.setB a i v).hed = s.hed := rfl
@[simp] theorem State.setB_egr (s : State) (a i : Nat) (v : Bool) : (s.setB a i v).egr = s.egr := rfl
@[simp] theorem State.setB_aud (s : State) (a i : Nat) (v : Bool) : (s.setB a i v).aud = s.aud := rfl
@[simp] theorem State.setB_lgt (s : State) (a i : Nat) (v : Bool) : (s.setB a i v).lgt = s.lgt := rfl
@[simp] theorem State.setB_fld (s : State) (a i : Nat) (v : Bool) : (s.setB a i v).fld = s.fld := rfl
@[simp] theorem State.setB_keep (s : State) (a i : Nat) (v : Bool) : (s.setB a i v).keep = s.keep := rfl
@[simp] theorem State.setB_nvs (s : State) (a i : Nat) (v : Bool) : (s.setB a i v).nvs = s.nvs := rfl
@[simp] theorem State.setB_thm (s : State) (a i : Nat) (v : Bool) : (s.setB a i v).thm = s.thm := rfl
@[simp] theorem State.setB_pwr (s : State) (a i : Nat) (v : Bool) : (s.setB a i v).pwr = s.pwr := rfl
@[simp] theorem State.setB_quay (s : State) (a i : Nat) (v : Bool) : (s.setB a i v).quay = s.quay := rfl
@[simp] theorem State.setB_evt (s : State) (a i : Nat) (v : Bool) : (s.setB a i v).evt = s.evt := rfl
@[simp] theorem State.setB_fstore (s : State) (a i : Nat) (v : Bool) : (s.setB a i v).fstore = s.fstore := rfl
@[simp] theorem State.setB_work (s : State) (a i : Nat) (v : Bool) : (s.setB a i v).work = s.work := rfl
@[simp] theorem State.setB_nvsMem (s : State) (a i : Nat) (v : Bool) : (s.setB a i v).nvsMem = s.nvsMem := rfl
@[simp] theorem State.setB_cflash (s : State) (a i : Nat) (v : Bool) : (s.setB a i v).cflash = s.cflash := rfl
@[simp] theorem State.setB_hostMem (s : State) (a i : Nat) (v : Bool) : (s.setB a i v).hostMem = s.hostMem := rfl
@[simp] theorem State.setB_out (s : State) (a i : Nat) (v : Bool) : (s.setB a i v).out = s.out := rfl
@[simp] theorem State.setB_pending (s : State) (a i : Nat) (v : Bool) : (s.setB a i v).pending = s.pending := rfl

/-! `setI32` changes `regs`. -/

@[simp] theorem State.setI32_shadow (s : State) (a : Nat) (v : Int) : (s.setI32 a v).shadow = s.shadow := rfl
@[simp] theorem State.setI32_clock (s : State) (a : Nat) (v : Int) : (s.setI32 a v).clock = s.clock := rfl
@[simp] theorem State.setI32_pins (s : State) (a : Nat) (v : Int) : (s.setI32 a v).pins = s.pins := rfl
@[simp] theorem State.setI32_loader (s : State) (a : Nat) (v : Int) : (s.setI32 a v).loader = s.loader := rfl
@[simp] theorem State.setI32_cox (s : State) (a : Nat) (v : Int) : (s.setI32 a v).cox = s.cox := rfl
@[simp] theorem State.setI32_syn (s : State) (a : Nat) (v : Int) : (s.setI32 a v).syn = s.syn := rfl
@[simp] theorem State.setI32_prt (s : State) (a : Nat) (v : Int) : (s.setI32 a v).prt = s.prt := rfl
@[simp] theorem State.setI32_xtb (s : State) (a : Nat) (v : Int) : (s.setI32 a v).xtb = s.xtb := rfl
@[simp] theorem State.setI32_que (s : State) (a : Nat) (v : Int) : (s.setI32 a v).que = s.que := rfl
@[simp] theorem State.setI32_slips (s : State) (a : Nat) (v : Int) : (s.setI32 a v).slips = s.slips := rfl
@[simp] theorem State.setI32_jik (s : State) (a : Nat) (v : Int) : (s.setI32 a v).jik = s.jik := rfl
@[simp] theorem State.setI32_hed (s : State) (a : Nat) (v : Int) : (s.setI32 a v).hed = s.hed := rfl
@[simp] theorem State.setI32_egr (s : State) (a : Nat) (v : Int) : (s.setI32 a v).egr = s.egr := rfl
@[simp] theorem State.setI32_aud (s : State) (a : Nat) (v : Int) : (s.setI32 a v).aud = s.aud := rfl
@[simp] theorem State.setI32_lgt (s : State) (a : Nat) (v : Int) : (s.setI32 a v).lgt = s.lgt := rfl
@[simp] theorem State.setI32_fld (s : State) (a : Nat) (v : Int) : (s.setI32 a v).fld = s.fld := rfl
@[simp] theorem State.setI32_keep (s : State) (a : Nat) (v : Int) : (s.setI32 a v).keep = s.keep := rfl
@[simp] theorem State.setI32_nvs (s : State) (a : Nat) (v : Int) : (s.setI32 a v).nvs = s.nvs := rfl
@[simp] theorem State.setI32_thm (s : State) (a : Nat) (v : Int) : (s.setI32 a v).thm = s.thm := rfl
@[simp] theorem State.setI32_pwr (s : State) (a : Nat) (v : Int) : (s.setI32 a v).pwr = s.pwr := rfl
@[simp] theorem State.setI32_quay (s : State) (a : Nat) (v : Int) : (s.setI32 a v).quay = s.quay := rfl
@[simp] theorem State.setI32_evt (s : State) (a : Nat) (v : Int) : (s.setI32 a v).evt = s.evt := rfl
@[simp] theorem State.setI32_fstore (s : State) (a : Nat) (v : Int) : (s.setI32 a v).fstore = s.fstore := rfl
@[simp] theorem State.setI32_work (s : State) (a : Nat) (v : Int) : (s.setI32 a v).work = s.work := rfl
@[simp] theorem State.setI32_nvsMem (s : State) (a : Nat) (v : Int) : (s.setI32 a v).nvsMem = s.nvsMem := rfl
@[simp] theorem State.setI32_cflash (s : State) (a : Nat) (v : Int) : (s.setI32 a v).cflash = s.cflash := rfl
@[simp] theorem State.setI32_hostMem (s : State) (a : Nat) (v : Int) : (s.setI32 a v).hostMem = s.hostMem := rfl
@[simp] theorem State.setI32_out (s : State) (a : Nat) (v : Int) : (s.setI32 a v).out = s.out := rfl
@[simp] theorem State.setI32_pending (s : State) (a : Nat) (v : Int) : (s.setI32 a v).pending = s.pending := rfl

/-! `countPerf` changes `regs`. -/

@[simp] theorem State.countPerf_shadow (s : State) (a n k : Nat) : (s.countPerf a n k).shadow = s.shadow := rfl
@[simp] theorem State.countPerf_clock (s : State) (a n k : Nat) : (s.countPerf a n k).clock = s.clock := rfl
@[simp] theorem State.countPerf_pins (s : State) (a n k : Nat) : (s.countPerf a n k).pins = s.pins := rfl
@[simp] theorem State.countPerf_loader (s : State) (a n k : Nat) : (s.countPerf a n k).loader = s.loader := rfl
@[simp] theorem State.countPerf_cox (s : State) (a n k : Nat) : (s.countPerf a n k).cox = s.cox := rfl
@[simp] theorem State.countPerf_syn (s : State) (a n k : Nat) : (s.countPerf a n k).syn = s.syn := rfl
@[simp] theorem State.countPerf_prt (s : State) (a n k : Nat) : (s.countPerf a n k).prt = s.prt := rfl
@[simp] theorem State.countPerf_xtb (s : State) (a n k : Nat) : (s.countPerf a n k).xtb = s.xtb := rfl
@[simp] theorem State.countPerf_que (s : State) (a n k : Nat) : (s.countPerf a n k).que = s.que := rfl
@[simp] theorem State.countPerf_slips (s : State) (a n k : Nat) : (s.countPerf a n k).slips = s.slips := rfl
@[simp] theorem State.countPerf_jik (s : State) (a n k : Nat) : (s.countPerf a n k).jik = s.jik := rfl
@[simp] theorem State.countPerf_hed (s : State) (a n k : Nat) : (s.countPerf a n k).hed = s.hed := rfl
@[simp] theorem State.countPerf_egr (s : State) (a n k : Nat) : (s.countPerf a n k).egr = s.egr := rfl
@[simp] theorem State.countPerf_aud (s : State) (a n k : Nat) : (s.countPerf a n k).aud = s.aud := rfl
@[simp] theorem State.countPerf_lgt (s : State) (a n k : Nat) : (s.countPerf a n k).lgt = s.lgt := rfl
@[simp] theorem State.countPerf_fld (s : State) (a n k : Nat) : (s.countPerf a n k).fld = s.fld := rfl
@[simp] theorem State.countPerf_keep (s : State) (a n k : Nat) : (s.countPerf a n k).keep = s.keep := rfl
@[simp] theorem State.countPerf_nvs (s : State) (a n k : Nat) : (s.countPerf a n k).nvs = s.nvs := rfl
@[simp] theorem State.countPerf_thm (s : State) (a n k : Nat) : (s.countPerf a n k).thm = s.thm := rfl
@[simp] theorem State.countPerf_pwr (s : State) (a n k : Nat) : (s.countPerf a n k).pwr = s.pwr := rfl
@[simp] theorem State.countPerf_quay (s : State) (a n k : Nat) : (s.countPerf a n k).quay = s.quay := rfl
@[simp] theorem State.countPerf_evt (s : State) (a n k : Nat) : (s.countPerf a n k).evt = s.evt := rfl
@[simp] theorem State.countPerf_fstore (s : State) (a n k : Nat) : (s.countPerf a n k).fstore = s.fstore := rfl
@[simp] theorem State.countPerf_work (s : State) (a n k : Nat) : (s.countPerf a n k).work = s.work := rfl
@[simp] theorem State.countPerf_nvsMem (s : State) (a n k : Nat) : (s.countPerf a n k).nvsMem = s.nvsMem := rfl
@[simp] theorem State.countPerf_cflash (s : State) (a n k : Nat) : (s.countPerf a n k).cflash = s.cflash := rfl
@[simp] theorem State.countPerf_hostMem (s : State) (a n k : Nat) : (s.countPerf a n k).hostMem = s.hostMem := rfl
@[simp] theorem State.countPerf_out (s : State) (a n k : Nat) : (s.countPerf a n k).out = s.out := rfl
@[simp] theorem State.countPerf_pending (s : State) (a n k : Nat) : (s.countPerf a n k).pending = s.pending := rfl

/-! `wrShadow` changes `shadow`. -/

@[simp] theorem State.wrShadow_shadow (s : State) (a : Nat) (v : Word) : (s.wrShadow a v).shadow = nput a v s.shadow := rfl
@[simp] theorem State.wrShadow_regs (s : State) (a : Nat) (v : Word) : (s.wrShadow a v).regs = s.regs := rfl
@[simp] theorem State.wrShadow_clock (s : State) (a : Nat) (v : Word) : (s.wrShadow a v).clock = s.clock := rfl
@[simp] theorem State.wrShadow_pins (s : State) (a : Nat) (v : Word) : (s.wrShadow a v).pins = s.pins := rfl
@[simp] theorem State.wrShadow_loader (s : State) (a : Nat) (v : Word) : (s.wrShadow a v).loader = s.loader := rfl
@[simp] theorem State.wrShadow_cox (s : State) (a : Nat) (v : Word) : (s.wrShadow a v).cox = s.cox := rfl
@[simp] theorem State.wrShadow_syn (s : State) (a : Nat) (v : Word) : (s.wrShadow a v).syn = s.syn := rfl
@[simp] theorem State.wrShadow_prt (s : State) (a : Nat) (v : Word) : (s.wrShadow a v).prt = s.prt := rfl
@[simp] theorem State.wrShadow_xtb (s : State) (a : Nat) (v : Word) : (s.wrShadow a v).xtb = s.xtb := rfl
@[simp] theorem State.wrShadow_que (s : State) (a : Nat) (v : Word) : (s.wrShadow a v).que = s.que := rfl
@[simp] theorem State.wrShadow_slips (s : State) (a : Nat) (v : Word) : (s.wrShadow a v).slips = s.slips := rfl
@[simp] theorem State.wrShadow_jik (s : State) (a : Nat) (v : Word) : (s.wrShadow a v).jik = s.jik := rfl
@[simp] theorem State.wrShadow_hed (s : State) (a : Nat) (v : Word) : (s.wrShadow a v).hed = s.hed := rfl
@[simp] theorem State.wrShadow_egr (s : State) (a : Nat) (v : Word) : (s.wrShadow a v).egr = s.egr := rfl
@[simp] theorem State.wrShadow_aud (s : State) (a : Nat) (v : Word) : (s.wrShadow a v).aud = s.aud := rfl
@[simp] theorem State.wrShadow_lgt (s : State) (a : Nat) (v : Word) : (s.wrShadow a v).lgt = s.lgt := rfl
@[simp] theorem State.wrShadow_fld (s : State) (a : Nat) (v : Word) : (s.wrShadow a v).fld = s.fld := rfl
@[simp] theorem State.wrShadow_keep (s : State) (a : Nat) (v : Word) : (s.wrShadow a v).keep = s.keep := rfl
@[simp] theorem State.wrShadow_nvs (s : State) (a : Nat) (v : Word) : (s.wrShadow a v).nvs = s.nvs := rfl
@[simp] theorem State.wrShadow_thm (s : State) (a : Nat) (v : Word) : (s.wrShadow a v).thm = s.thm := rfl
@[simp] theorem State.wrShadow_pwr (s : State) (a : Nat) (v : Word) : (s.wrShadow a v).pwr = s.pwr := rfl
@[simp] theorem State.wrShadow_quay (s : State) (a : Nat) (v : Word) : (s.wrShadow a v).quay = s.quay := rfl
@[simp] theorem State.wrShadow_evt (s : State) (a : Nat) (v : Word) : (s.wrShadow a v).evt = s.evt := rfl
@[simp] theorem State.wrShadow_fstore (s : State) (a : Nat) (v : Word) : (s.wrShadow a v).fstore = s.fstore := rfl
@[simp] theorem State.wrShadow_work (s : State) (a : Nat) (v : Word) : (s.wrShadow a v).work = s.work := rfl
@[simp] theorem State.wrShadow_nvsMem (s : State) (a : Nat) (v : Word) : (s.wrShadow a v).nvsMem = s.nvsMem := rfl
@[simp] theorem State.wrShadow_cflash (s : State) (a : Nat) (v : Word) : (s.wrShadow a v).cflash = s.cflash := rfl
@[simp] theorem State.wrShadow_hostMem (s : State) (a : Nat) (v : Word) : (s.wrShadow a v).hostMem = s.hostMem := rfl
@[simp] theorem State.wrShadow_out (s : State) (a : Nat) (v : Word) : (s.wrShadow a v).out = s.out := rfl
@[simp] theorem State.wrShadow_pending (s : State) (a : Nat) (v : Word) : (s.wrShadow a v).pending = s.pending := rfl

/-! `onClock` changes `clock`. -/

@[simp] theorem State.onClock_clock (s : State) (g : Clock → Clock) : (s.onClock g).clock = g s.clock := rfl
@[simp] theorem State.onClock_regs (s : State) (g : Clock → Clock) : (s.onClock g).regs = s.regs := rfl
@[simp] theorem State.onClock_shadow (s : State) (g : Clock → Clock) : (s.onClock g).shadow = s.shadow := rfl
@[simp] theorem State.onClock_pins (s : State) (g : Clock → Clock) : (s.onClock g).pins = s.pins := rfl
@[simp] theorem State.onClock_loader (s : State) (g : Clock → Clock) : (s.onClock g).loader = s.loader := rfl
@[simp] theorem State.onClock_cox (s : State) (g : Clock → Clock) : (s.onClock g).cox = s.cox := rfl
@[simp] theorem State.onClock_syn (s : State) (g : Clock → Clock) : (s.onClock g).syn = s.syn := rfl
@[simp] theorem State.onClock_prt (s : State) (g : Clock → Clock) : (s.onClock g).prt = s.prt := rfl
@[simp] theorem State.onClock_xtb (s : State) (g : Clock → Clock) : (s.onClock g).xtb = s.xtb := rfl
@[simp] theorem State.onClock_que (s : State) (g : Clock → Clock) : (s.onClock g).que = s.que := rfl
@[simp] theorem State.onClock_slips (s : State) (g : Clock → Clock) : (s.onClock g).slips = s.slips := rfl
@[simp] theorem State.onClock_jik (s : State) (g : Clock → Clock) : (s.onClock g).jik = s.jik := rfl
@[simp] theorem State.onClock_hed (s : State) (g : Clock → Clock) : (s.onClock g).hed = s.hed := rfl
@[simp] theorem State.onClock_egr (s : State) (g : Clock → Clock) : (s.onClock g).egr = s.egr := rfl
@[simp] theorem State.onClock_aud (s : State) (g : Clock → Clock) : (s.onClock g).aud = s.aud := rfl
@[simp] theorem State.onClock_lgt (s : State) (g : Clock → Clock) : (s.onClock g).lgt = s.lgt := rfl
@[simp] theorem State.onClock_fld (s : State) (g : Clock → Clock) : (s.onClock g).fld = s.fld := rfl
@[simp] theorem State.onClock_keep (s : State) (g : Clock → Clock) : (s.onClock g).keep = s.keep := rfl
@[simp] theorem State.onClock_nvs (s : State) (g : Clock → Clock) : (s.onClock g).nvs = s.nvs := rfl
@[simp] theorem State.onClock_thm (s : State) (g : Clock → Clock) : (s.onClock g).thm = s.thm := rfl
@[simp] theorem State.onClock_pwr (s : State) (g : Clock → Clock) : (s.onClock g).pwr = s.pwr := rfl
@[simp] theorem State.onClock_quay (s : State) (g : Clock → Clock) : (s.onClock g).quay = s.quay := rfl
@[simp] theorem State.onClock_evt (s : State) (g : Clock → Clock) : (s.onClock g).evt = s.evt := rfl
@[simp] theorem State.onClock_fstore (s : State) (g : Clock → Clock) : (s.onClock g).fstore = s.fstore := rfl
@[simp] theorem State.onClock_work (s : State) (g : Clock → Clock) : (s.onClock g).work = s.work := rfl
@[simp] theorem State.onClock_nvsMem (s : State) (g : Clock → Clock) : (s.onClock g).nvsMem = s.nvsMem := rfl
@[simp] theorem State.onClock_cflash (s : State) (g : Clock → Clock) : (s.onClock g).cflash = s.cflash := rfl
@[simp] theorem State.onClock_hostMem (s : State) (g : Clock → Clock) : (s.onClock g).hostMem = s.hostMem := rfl
@[simp] theorem State.onClock_out (s : State) (g : Clock → Clock) : (s.onClock g).out = s.out := rfl
@[simp] theorem State.onClock_pending (s : State) (g : Clock → Clock) : (s.onClock g).pending = s.pending := rfl

/-! `onPins` changes `pins`. -/

@[simp] theorem State.onPins_pins (s : State) (g : Pins → Pins) : (s.onPins g).pins = g s.pins := rfl
@[simp] theorem State.onPins_regs (s : State) (g : Pins → Pins) : (s.onPins g).regs = s.regs := rfl
@[simp] theorem State.onPins_shadow (s : State) (g : Pins → Pins) : (s.onPins g).shadow = s.shadow := rfl
@[simp] theorem State.onPins_clock (s : State) (g : Pins → Pins) : (s.onPins g).clock = s.clock := rfl
@[simp] theorem State.onPins_loader (s : State) (g : Pins → Pins) : (s.onPins g).loader = s.loader := rfl
@[simp] theorem State.onPins_cox (s : State) (g : Pins → Pins) : (s.onPins g).cox = s.cox := rfl
@[simp] theorem State.onPins_syn (s : State) (g : Pins → Pins) : (s.onPins g).syn = s.syn := rfl
@[simp] theorem State.onPins_prt (s : State) (g : Pins → Pins) : (s.onPins g).prt = s.prt := rfl
@[simp] theorem State.onPins_xtb (s : State) (g : Pins → Pins) : (s.onPins g).xtb = s.xtb := rfl
@[simp] theorem State.onPins_que (s : State) (g : Pins → Pins) : (s.onPins g).que = s.que := rfl
@[simp] theorem State.onPins_slips (s : State) (g : Pins → Pins) : (s.onPins g).slips = s.slips := rfl
@[simp] theorem State.onPins_jik (s : State) (g : Pins → Pins) : (s.onPins g).jik = s.jik := rfl
@[simp] theorem State.onPins_hed (s : State) (g : Pins → Pins) : (s.onPins g).hed = s.hed := rfl
@[simp] theorem State.onPins_egr (s : State) (g : Pins → Pins) : (s.onPins g).egr = s.egr := rfl
@[simp] theorem State.onPins_aud (s : State) (g : Pins → Pins) : (s.onPins g).aud = s.aud := rfl
@[simp] theorem State.onPins_lgt (s : State) (g : Pins → Pins) : (s.onPins g).lgt = s.lgt := rfl
@[simp] theorem State.onPins_fld (s : State) (g : Pins → Pins) : (s.onPins g).fld = s.fld := rfl
@[simp] theorem State.onPins_keep (s : State) (g : Pins → Pins) : (s.onPins g).keep = s.keep := rfl
@[simp] theorem State.onPins_nvs (s : State) (g : Pins → Pins) : (s.onPins g).nvs = s.nvs := rfl
@[simp] theorem State.onPins_thm (s : State) (g : Pins → Pins) : (s.onPins g).thm = s.thm := rfl
@[simp] theorem State.onPins_pwr (s : State) (g : Pins → Pins) : (s.onPins g).pwr = s.pwr := rfl
@[simp] theorem State.onPins_quay (s : State) (g : Pins → Pins) : (s.onPins g).quay = s.quay := rfl
@[simp] theorem State.onPins_evt (s : State) (g : Pins → Pins) : (s.onPins g).evt = s.evt := rfl
@[simp] theorem State.onPins_fstore (s : State) (g : Pins → Pins) : (s.onPins g).fstore = s.fstore := rfl
@[simp] theorem State.onPins_work (s : State) (g : Pins → Pins) : (s.onPins g).work = s.work := rfl
@[simp] theorem State.onPins_nvsMem (s : State) (g : Pins → Pins) : (s.onPins g).nvsMem = s.nvsMem := rfl
@[simp] theorem State.onPins_cflash (s : State) (g : Pins → Pins) : (s.onPins g).cflash = s.cflash := rfl
@[simp] theorem State.onPins_hostMem (s : State) (g : Pins → Pins) : (s.onPins g).hostMem = s.hostMem := rfl
@[simp] theorem State.onPins_out (s : State) (g : Pins → Pins) : (s.onPins g).out = s.out := rfl
@[simp] theorem State.onPins_pending (s : State) (g : Pins → Pins) : (s.onPins g).pending = s.pending := rfl

/-! `onLoader` changes `loader`. -/

@[simp] theorem State.onLoader_loader (s : State) (g : LoaderSt → LoaderSt) : (s.onLoader g).loader = g s.loader := rfl
@[simp] theorem State.onLoader_regs (s : State) (g : LoaderSt → LoaderSt) : (s.onLoader g).regs = s.regs := rfl
@[simp] theorem State.onLoader_shadow (s : State) (g : LoaderSt → LoaderSt) : (s.onLoader g).shadow = s.shadow := rfl
@[simp] theorem State.onLoader_clock (s : State) (g : LoaderSt → LoaderSt) : (s.onLoader g).clock = s.clock := rfl
@[simp] theorem State.onLoader_pins (s : State) (g : LoaderSt → LoaderSt) : (s.onLoader g).pins = s.pins := rfl
@[simp] theorem State.onLoader_cox (s : State) (g : LoaderSt → LoaderSt) : (s.onLoader g).cox = s.cox := rfl
@[simp] theorem State.onLoader_syn (s : State) (g : LoaderSt → LoaderSt) : (s.onLoader g).syn = s.syn := rfl
@[simp] theorem State.onLoader_prt (s : State) (g : LoaderSt → LoaderSt) : (s.onLoader g).prt = s.prt := rfl
@[simp] theorem State.onLoader_xtb (s : State) (g : LoaderSt → LoaderSt) : (s.onLoader g).xtb = s.xtb := rfl
@[simp] theorem State.onLoader_que (s : State) (g : LoaderSt → LoaderSt) : (s.onLoader g).que = s.que := rfl
@[simp] theorem State.onLoader_slips (s : State) (g : LoaderSt → LoaderSt) : (s.onLoader g).slips = s.slips := rfl
@[simp] theorem State.onLoader_jik (s : State) (g : LoaderSt → LoaderSt) : (s.onLoader g).jik = s.jik := rfl
@[simp] theorem State.onLoader_hed (s : State) (g : LoaderSt → LoaderSt) : (s.onLoader g).hed = s.hed := rfl
@[simp] theorem State.onLoader_egr (s : State) (g : LoaderSt → LoaderSt) : (s.onLoader g).egr = s.egr := rfl
@[simp] theorem State.onLoader_aud (s : State) (g : LoaderSt → LoaderSt) : (s.onLoader g).aud = s.aud := rfl
@[simp] theorem State.onLoader_lgt (s : State) (g : LoaderSt → LoaderSt) : (s.onLoader g).lgt = s.lgt := rfl
@[simp] theorem State.onLoader_fld (s : State) (g : LoaderSt → LoaderSt) : (s.onLoader g).fld = s.fld := rfl
@[simp] theorem State.onLoader_keep (s : State) (g : LoaderSt → LoaderSt) : (s.onLoader g).keep = s.keep := rfl
@[simp] theorem State.onLoader_nvs (s : State) (g : LoaderSt → LoaderSt) : (s.onLoader g).nvs = s.nvs := rfl
@[simp] theorem State.onLoader_thm (s : State) (g : LoaderSt → LoaderSt) : (s.onLoader g).thm = s.thm := rfl
@[simp] theorem State.onLoader_pwr (s : State) (g : LoaderSt → LoaderSt) : (s.onLoader g).pwr = s.pwr := rfl
@[simp] theorem State.onLoader_quay (s : State) (g : LoaderSt → LoaderSt) : (s.onLoader g).quay = s.quay := rfl
@[simp] theorem State.onLoader_evt (s : State) (g : LoaderSt → LoaderSt) : (s.onLoader g).evt = s.evt := rfl
@[simp] theorem State.onLoader_fstore (s : State) (g : LoaderSt → LoaderSt) : (s.onLoader g).fstore = s.fstore := rfl
@[simp] theorem State.onLoader_work (s : State) (g : LoaderSt → LoaderSt) : (s.onLoader g).work = s.work := rfl
@[simp] theorem State.onLoader_nvsMem (s : State) (g : LoaderSt → LoaderSt) : (s.onLoader g).nvsMem = s.nvsMem := rfl
@[simp] theorem State.onLoader_cflash (s : State) (g : LoaderSt → LoaderSt) : (s.onLoader g).cflash = s.cflash := rfl
@[simp] theorem State.onLoader_hostMem (s : State) (g : LoaderSt → LoaderSt) : (s.onLoader g).hostMem = s.hostMem := rfl
@[simp] theorem State.onLoader_out (s : State) (g : LoaderSt → LoaderSt) : (s.onLoader g).out = s.out := rfl
@[simp] theorem State.onLoader_pending (s : State) (g : LoaderSt → LoaderSt) : (s.onLoader g).pending = s.pending := rfl

/-! `onCox` changes `cox`. -/

@[simp] theorem State.onCox_cox (s : State) (g : CoxSt → CoxSt) : (s.onCox g).cox = g s.cox := rfl
@[simp] theorem State.onCox_regs (s : State) (g : CoxSt → CoxSt) : (s.onCox g).regs = s.regs := rfl
@[simp] theorem State.onCox_shadow (s : State) (g : CoxSt → CoxSt) : (s.onCox g).shadow = s.shadow := rfl
@[simp] theorem State.onCox_clock (s : State) (g : CoxSt → CoxSt) : (s.onCox g).clock = s.clock := rfl
@[simp] theorem State.onCox_pins (s : State) (g : CoxSt → CoxSt) : (s.onCox g).pins = s.pins := rfl
@[simp] theorem State.onCox_loader (s : State) (g : CoxSt → CoxSt) : (s.onCox g).loader = s.loader := rfl
@[simp] theorem State.onCox_syn (s : State) (g : CoxSt → CoxSt) : (s.onCox g).syn = s.syn := rfl
@[simp] theorem State.onCox_prt (s : State) (g : CoxSt → CoxSt) : (s.onCox g).prt = s.prt := rfl
@[simp] theorem State.onCox_xtb (s : State) (g : CoxSt → CoxSt) : (s.onCox g).xtb = s.xtb := rfl
@[simp] theorem State.onCox_que (s : State) (g : CoxSt → CoxSt) : (s.onCox g).que = s.que := rfl
@[simp] theorem State.onCox_slips (s : State) (g : CoxSt → CoxSt) : (s.onCox g).slips = s.slips := rfl
@[simp] theorem State.onCox_jik (s : State) (g : CoxSt → CoxSt) : (s.onCox g).jik = s.jik := rfl
@[simp] theorem State.onCox_hed (s : State) (g : CoxSt → CoxSt) : (s.onCox g).hed = s.hed := rfl
@[simp] theorem State.onCox_egr (s : State) (g : CoxSt → CoxSt) : (s.onCox g).egr = s.egr := rfl
@[simp] theorem State.onCox_aud (s : State) (g : CoxSt → CoxSt) : (s.onCox g).aud = s.aud := rfl
@[simp] theorem State.onCox_lgt (s : State) (g : CoxSt → CoxSt) : (s.onCox g).lgt = s.lgt := rfl
@[simp] theorem State.onCox_fld (s : State) (g : CoxSt → CoxSt) : (s.onCox g).fld = s.fld := rfl
@[simp] theorem State.onCox_keep (s : State) (g : CoxSt → CoxSt) : (s.onCox g).keep = s.keep := rfl
@[simp] theorem State.onCox_nvs (s : State) (g : CoxSt → CoxSt) : (s.onCox g).nvs = s.nvs := rfl
@[simp] theorem State.onCox_thm (s : State) (g : CoxSt → CoxSt) : (s.onCox g).thm = s.thm := rfl
@[simp] theorem State.onCox_pwr (s : State) (g : CoxSt → CoxSt) : (s.onCox g).pwr = s.pwr := rfl
@[simp] theorem State.onCox_quay (s : State) (g : CoxSt → CoxSt) : (s.onCox g).quay = s.quay := rfl
@[simp] theorem State.onCox_evt (s : State) (g : CoxSt → CoxSt) : (s.onCox g).evt = s.evt := rfl
@[simp] theorem State.onCox_fstore (s : State) (g : CoxSt → CoxSt) : (s.onCox g).fstore = s.fstore := rfl
@[simp] theorem State.onCox_work (s : State) (g : CoxSt → CoxSt) : (s.onCox g).work = s.work := rfl
@[simp] theorem State.onCox_nvsMem (s : State) (g : CoxSt → CoxSt) : (s.onCox g).nvsMem = s.nvsMem := rfl
@[simp] theorem State.onCox_cflash (s : State) (g : CoxSt → CoxSt) : (s.onCox g).cflash = s.cflash := rfl
@[simp] theorem State.onCox_hostMem (s : State) (g : CoxSt → CoxSt) : (s.onCox g).hostMem = s.hostMem := rfl
@[simp] theorem State.onCox_out (s : State) (g : CoxSt → CoxSt) : (s.onCox g).out = s.out := rfl
@[simp] theorem State.onCox_pending (s : State) (g : CoxSt → CoxSt) : (s.onCox g).pending = s.pending := rfl

/-! `onRef` changes `cox`. -/

@[simp] theorem State.onRef_regs (s : State) (n : Nat) (g : RefSt → RefSt) : (s.onRef n g).regs = s.regs := rfl
@[simp] theorem State.onRef_shadow (s : State) (n : Nat) (g : RefSt → RefSt) : (s.onRef n g).shadow = s.shadow := rfl
@[simp] theorem State.onRef_clock (s : State) (n : Nat) (g : RefSt → RefSt) : (s.onRef n g).clock = s.clock := rfl
@[simp] theorem State.onRef_pins (s : State) (n : Nat) (g : RefSt → RefSt) : (s.onRef n g).pins = s.pins := rfl
@[simp] theorem State.onRef_loader (s : State) (n : Nat) (g : RefSt → RefSt) : (s.onRef n g).loader = s.loader := rfl
@[simp] theorem State.onRef_syn (s : State) (n : Nat) (g : RefSt → RefSt) : (s.onRef n g).syn = s.syn := rfl
@[simp] theorem State.onRef_prt (s : State) (n : Nat) (g : RefSt → RefSt) : (s.onRef n g).prt = s.prt := rfl
@[simp] theorem State.onRef_xtb (s : State) (n : Nat) (g : RefSt → RefSt) : (s.onRef n g).xtb = s.xtb := rfl
@[simp] theorem State.onRef_que (s : State) (n : Nat) (g : RefSt → RefSt) : (s.onRef n g).que = s.que := rfl
@[simp] theorem State.onRef_slips (s : State) (n : Nat) (g : RefSt → RefSt) : (s.onRef n g).slips = s.slips := rfl
@[simp] theorem State.onRef_jik (s : State) (n : Nat) (g : RefSt → RefSt) : (s.onRef n g).jik = s.jik := rfl
@[simp] theorem State.onRef_hed (s : State) (n : Nat) (g : RefSt → RefSt) : (s.onRef n g).hed = s.hed := rfl
@[simp] theorem State.onRef_egr (s : State) (n : Nat) (g : RefSt → RefSt) : (s.onRef n g).egr = s.egr := rfl
@[simp] theorem State.onRef_aud (s : State) (n : Nat) (g : RefSt → RefSt) : (s.onRef n g).aud = s.aud := rfl
@[simp] theorem State.onRef_lgt (s : State) (n : Nat) (g : RefSt → RefSt) : (s.onRef n g).lgt = s.lgt := rfl
@[simp] theorem State.onRef_fld (s : State) (n : Nat) (g : RefSt → RefSt) : (s.onRef n g).fld = s.fld := rfl
@[simp] theorem State.onRef_keep (s : State) (n : Nat) (g : RefSt → RefSt) : (s.onRef n g).keep = s.keep := rfl
@[simp] theorem State.onRef_nvs (s : State) (n : Nat) (g : RefSt → RefSt) : (s.onRef n g).nvs = s.nvs := rfl
@[simp] theorem State.onRef_thm (s : State) (n : Nat) (g : RefSt → RefSt) : (s.onRef n g).thm = s.thm := rfl
@[simp] theorem State.onRef_pwr (s : State) (n : Nat) (g : RefSt → RefSt) : (s.onRef n g).pwr = s.pwr := rfl
@[simp] theorem State.onRef_quay (s : State) (n : Nat) (g : RefSt → RefSt) : (s.onRef n g).quay = s.quay := rfl
@[simp] theorem State.onRef_evt (s : State) (n : Nat) (g : RefSt → RefSt) : (s.onRef n g).evt = s.evt := rfl
@[simp] theorem State.onRef_fstore (s : State) (n : Nat) (g : RefSt → RefSt) : (s.onRef n g).fstore = s.fstore := rfl
@[simp] theorem State.onRef_work (s : State) (n : Nat) (g : RefSt → RefSt) : (s.onRef n g).work = s.work := rfl
@[simp] theorem State.onRef_nvsMem (s : State) (n : Nat) (g : RefSt → RefSt) : (s.onRef n g).nvsMem = s.nvsMem := rfl
@[simp] theorem State.onRef_cflash (s : State) (n : Nat) (g : RefSt → RefSt) : (s.onRef n g).cflash = s.cflash := rfl
@[simp] theorem State.onRef_hostMem (s : State) (n : Nat) (g : RefSt → RefSt) : (s.onRef n g).hostMem = s.hostMem := rfl
@[simp] theorem State.onRef_out (s : State) (n : Nat) (g : RefSt → RefSt) : (s.onRef n g).out = s.out := rfl
@[simp] theorem State.onRef_pending (s : State) (n : Nat) (g : RefSt → RefSt) : (s.onRef n g).pending = s.pending := rfl

/-! `onSyn` changes `syn`. -/

@[simp] theorem State.onSyn_regs (s : State) (i : Nat) (g : SynSt → SynSt) : (s.onSyn i g).regs = s.regs := rfl
@[simp] theorem State.onSyn_shadow (s : State) (i : Nat) (g : SynSt → SynSt) : (s.onSyn i g).shadow = s.shadow := rfl
@[simp] theorem State.onSyn_clock (s : State) (i : Nat) (g : SynSt → SynSt) : (s.onSyn i g).clock = s.clock := rfl
@[simp] theorem State.onSyn_pins (s : State) (i : Nat) (g : SynSt → SynSt) : (s.onSyn i g).pins = s.pins := rfl
@[simp] theorem State.onSyn_loader (s : State) (i : Nat) (g : SynSt → SynSt) : (s.onSyn i g).loader = s.loader := rfl
@[simp] theorem State.onSyn_cox (s : State) (i : Nat) (g : SynSt → SynSt) : (s.onSyn i g).cox = s.cox := rfl
@[simp] theorem State.onSyn_prt (s : State) (i : Nat) (g : SynSt → SynSt) : (s.onSyn i g).prt = s.prt := rfl
@[simp] theorem State.onSyn_xtb (s : State) (i : Nat) (g : SynSt → SynSt) : (s.onSyn i g).xtb = s.xtb := rfl
@[simp] theorem State.onSyn_que (s : State) (i : Nat) (g : SynSt → SynSt) : (s.onSyn i g).que = s.que := rfl
@[simp] theorem State.onSyn_slips (s : State) (i : Nat) (g : SynSt → SynSt) : (s.onSyn i g).slips = s.slips := rfl
@[simp] theorem State.onSyn_jik (s : State) (i : Nat) (g : SynSt → SynSt) : (s.onSyn i g).jik = s.jik := rfl
@[simp] theorem State.onSyn_hed (s : State) (i : Nat) (g : SynSt → SynSt) : (s.onSyn i g).hed = s.hed := rfl
@[simp] theorem State.onSyn_egr (s : State) (i : Nat) (g : SynSt → SynSt) : (s.onSyn i g).egr = s.egr := rfl
@[simp] theorem State.onSyn_aud (s : State) (i : Nat) (g : SynSt → SynSt) : (s.onSyn i g).aud = s.aud := rfl
@[simp] theorem State.onSyn_lgt (s : State) (i : Nat) (g : SynSt → SynSt) : (s.onSyn i g).lgt = s.lgt := rfl
@[simp] theorem State.onSyn_fld (s : State) (i : Nat) (g : SynSt → SynSt) : (s.onSyn i g).fld = s.fld := rfl
@[simp] theorem State.onSyn_keep (s : State) (i : Nat) (g : SynSt → SynSt) : (s.onSyn i g).keep = s.keep := rfl
@[simp] theorem State.onSyn_nvs (s : State) (i : Nat) (g : SynSt → SynSt) : (s.onSyn i g).nvs = s.nvs := rfl
@[simp] theorem State.onSyn_thm (s : State) (i : Nat) (g : SynSt → SynSt) : (s.onSyn i g).thm = s.thm := rfl
@[simp] theorem State.onSyn_pwr (s : State) (i : Nat) (g : SynSt → SynSt) : (s.onSyn i g).pwr = s.pwr := rfl
@[simp] theorem State.onSyn_quay (s : State) (i : Nat) (g : SynSt → SynSt) : (s.onSyn i g).quay = s.quay := rfl
@[simp] theorem State.onSyn_evt (s : State) (i : Nat) (g : SynSt → SynSt) : (s.onSyn i g).evt = s.evt := rfl
@[simp] theorem State.onSyn_fstore (s : State) (i : Nat) (g : SynSt → SynSt) : (s.onSyn i g).fstore = s.fstore := rfl
@[simp] theorem State.onSyn_work (s : State) (i : Nat) (g : SynSt → SynSt) : (s.onSyn i g).work = s.work := rfl
@[simp] theorem State.onSyn_nvsMem (s : State) (i : Nat) (g : SynSt → SynSt) : (s.onSyn i g).nvsMem = s.nvsMem := rfl
@[simp] theorem State.onSyn_cflash (s : State) (i : Nat) (g : SynSt → SynSt) : (s.onSyn i g).cflash = s.cflash := rfl
@[simp] theorem State.onSyn_hostMem (s : State) (i : Nat) (g : SynSt → SynSt) : (s.onSyn i g).hostMem = s.hostMem := rfl
@[simp] theorem State.onSyn_out (s : State) (i : Nat) (g : SynSt → SynSt) : (s.onSyn i g).out = s.out := rfl
@[simp] theorem State.onSyn_pending (s : State) (i : Nat) (g : SynSt → SynSt) : (s.onSyn i g).pending = s.pending := rfl

/-! `onPort` changes `prt`. -/

@[simp] theorem State.onPort_regs (s : State) (p : Nat) (g : PortSt → PortSt) : (s.onPort p g).regs = s.regs := rfl
@[simp] theorem State.onPort_shadow (s : State) (p : Nat) (g : PortSt → PortSt) : (s.onPort p g).shadow = s.shadow := rfl
@[simp] theorem State.onPort_clock (s : State) (p : Nat) (g : PortSt → PortSt) : (s.onPort p g).clock = s.clock := rfl
@[simp] theorem State.onPort_pins (s : State) (p : Nat) (g : PortSt → PortSt) : (s.onPort p g).pins = s.pins := rfl
@[simp] theorem State.onPort_loader (s : State) (p : Nat) (g : PortSt → PortSt) : (s.onPort p g).loader = s.loader := rfl
@[simp] theorem State.onPort_cox (s : State) (p : Nat) (g : PortSt → PortSt) : (s.onPort p g).cox = s.cox := rfl
@[simp] theorem State.onPort_syn (s : State) (p : Nat) (g : PortSt → PortSt) : (s.onPort p g).syn = s.syn := rfl
@[simp] theorem State.onPort_xtb (s : State) (p : Nat) (g : PortSt → PortSt) : (s.onPort p g).xtb = s.xtb := rfl
@[simp] theorem State.onPort_que (s : State) (p : Nat) (g : PortSt → PortSt) : (s.onPort p g).que = s.que := rfl
@[simp] theorem State.onPort_slips (s : State) (p : Nat) (g : PortSt → PortSt) : (s.onPort p g).slips = s.slips := rfl
@[simp] theorem State.onPort_jik (s : State) (p : Nat) (g : PortSt → PortSt) : (s.onPort p g).jik = s.jik := rfl
@[simp] theorem State.onPort_hed (s : State) (p : Nat) (g : PortSt → PortSt) : (s.onPort p g).hed = s.hed := rfl
@[simp] theorem State.onPort_egr (s : State) (p : Nat) (g : PortSt → PortSt) : (s.onPort p g).egr = s.egr := rfl
@[simp] theorem State.onPort_aud (s : State) (p : Nat) (g : PortSt → PortSt) : (s.onPort p g).aud = s.aud := rfl
@[simp] theorem State.onPort_lgt (s : State) (p : Nat) (g : PortSt → PortSt) : (s.onPort p g).lgt = s.lgt := rfl
@[simp] theorem State.onPort_fld (s : State) (p : Nat) (g : PortSt → PortSt) : (s.onPort p g).fld = s.fld := rfl
@[simp] theorem State.onPort_keep (s : State) (p : Nat) (g : PortSt → PortSt) : (s.onPort p g).keep = s.keep := rfl
@[simp] theorem State.onPort_nvs (s : State) (p : Nat) (g : PortSt → PortSt) : (s.onPort p g).nvs = s.nvs := rfl
@[simp] theorem State.onPort_thm (s : State) (p : Nat) (g : PortSt → PortSt) : (s.onPort p g).thm = s.thm := rfl
@[simp] theorem State.onPort_pwr (s : State) (p : Nat) (g : PortSt → PortSt) : (s.onPort p g).pwr = s.pwr := rfl
@[simp] theorem State.onPort_quay (s : State) (p : Nat) (g : PortSt → PortSt) : (s.onPort p g).quay = s.quay := rfl
@[simp] theorem State.onPort_evt (s : State) (p : Nat) (g : PortSt → PortSt) : (s.onPort p g).evt = s.evt := rfl
@[simp] theorem State.onPort_fstore (s : State) (p : Nat) (g : PortSt → PortSt) : (s.onPort p g).fstore = s.fstore := rfl
@[simp] theorem State.onPort_work (s : State) (p : Nat) (g : PortSt → PortSt) : (s.onPort p g).work = s.work := rfl
@[simp] theorem State.onPort_nvsMem (s : State) (p : Nat) (g : PortSt → PortSt) : (s.onPort p g).nvsMem = s.nvsMem := rfl
@[simp] theorem State.onPort_cflash (s : State) (p : Nat) (g : PortSt → PortSt) : (s.onPort p g).cflash = s.cflash := rfl
@[simp] theorem State.onPort_hostMem (s : State) (p : Nat) (g : PortSt → PortSt) : (s.onPort p g).hostMem = s.hostMem := rfl
@[simp] theorem State.onPort_out (s : State) (p : Nat) (g : PortSt → PortSt) : (s.onPort p g).out = s.out := rfl
@[simp] theorem State.onPort_pending (s : State) (p : Nat) (g : PortSt → PortSt) : (s.onPort p g).pending = s.pending := rfl

/-! `setEye` changes `prt`. -/

@[simp] theorem State.setEye_regs (s : State) (o : Nat) (x : EyeSt) : (s.setEye o x).regs = s.regs := rfl
@[simp] theorem State.setEye_shadow (s : State) (o : Nat) (x : EyeSt) : (s.setEye o x).shadow = s.shadow := rfl
@[simp] theorem State.setEye_clock (s : State) (o : Nat) (x : EyeSt) : (s.setEye o x).clock = s.clock := rfl
@[simp] theorem State.setEye_pins (s : State) (o : Nat) (x : EyeSt) : (s.setEye o x).pins = s.pins := rfl
@[simp] theorem State.setEye_loader (s : State) (o : Nat) (x : EyeSt) : (s.setEye o x).loader = s.loader := rfl
@[simp] theorem State.setEye_cox (s : State) (o : Nat) (x : EyeSt) : (s.setEye o x).cox = s.cox := rfl
@[simp] theorem State.setEye_syn (s : State) (o : Nat) (x : EyeSt) : (s.setEye o x).syn = s.syn := rfl
@[simp] theorem State.setEye_xtb (s : State) (o : Nat) (x : EyeSt) : (s.setEye o x).xtb = s.xtb := rfl
@[simp] theorem State.setEye_que (s : State) (o : Nat) (x : EyeSt) : (s.setEye o x).que = s.que := rfl
@[simp] theorem State.setEye_slips (s : State) (o : Nat) (x : EyeSt) : (s.setEye o x).slips = s.slips := rfl
@[simp] theorem State.setEye_jik (s : State) (o : Nat) (x : EyeSt) : (s.setEye o x).jik = s.jik := rfl
@[simp] theorem State.setEye_hed (s : State) (o : Nat) (x : EyeSt) : (s.setEye o x).hed = s.hed := rfl
@[simp] theorem State.setEye_egr (s : State) (o : Nat) (x : EyeSt) : (s.setEye o x).egr = s.egr := rfl
@[simp] theorem State.setEye_aud (s : State) (o : Nat) (x : EyeSt) : (s.setEye o x).aud = s.aud := rfl
@[simp] theorem State.setEye_lgt (s : State) (o : Nat) (x : EyeSt) : (s.setEye o x).lgt = s.lgt := rfl
@[simp] theorem State.setEye_fld (s : State) (o : Nat) (x : EyeSt) : (s.setEye o x).fld = s.fld := rfl
@[simp] theorem State.setEye_keep (s : State) (o : Nat) (x : EyeSt) : (s.setEye o x).keep = s.keep := rfl
@[simp] theorem State.setEye_nvs (s : State) (o : Nat) (x : EyeSt) : (s.setEye o x).nvs = s.nvs := rfl
@[simp] theorem State.setEye_thm (s : State) (o : Nat) (x : EyeSt) : (s.setEye o x).thm = s.thm := rfl
@[simp] theorem State.setEye_pwr (s : State) (o : Nat) (x : EyeSt) : (s.setEye o x).pwr = s.pwr := rfl
@[simp] theorem State.setEye_quay (s : State) (o : Nat) (x : EyeSt) : (s.setEye o x).quay = s.quay := rfl
@[simp] theorem State.setEye_evt (s : State) (o : Nat) (x : EyeSt) : (s.setEye o x).evt = s.evt := rfl
@[simp] theorem State.setEye_fstore (s : State) (o : Nat) (x : EyeSt) : (s.setEye o x).fstore = s.fstore := rfl
@[simp] theorem State.setEye_work (s : State) (o : Nat) (x : EyeSt) : (s.setEye o x).work = s.work := rfl
@[simp] theorem State.setEye_nvsMem (s : State) (o : Nat) (x : EyeSt) : (s.setEye o x).nvsMem = s.nvsMem := rfl
@[simp] theorem State.setEye_cflash (s : State) (o : Nat) (x : EyeSt) : (s.setEye o x).cflash = s.cflash := rfl
@[simp] theorem State.setEye_hostMem (s : State) (o : Nat) (x : EyeSt) : (s.setEye o x).hostMem = s.hostMem := rfl
@[simp] theorem State.setEye_out (s : State) (o : Nat) (x : EyeSt) : (s.setEye o x).out = s.out := rfl
@[simp] theorem State.setEye_pending (s : State) (o : Nat) (x : EyeSt) : (s.setEye o x).pending = s.pending := rfl

/-! `onEntry` changes `xtb`. -/

@[simp] theorem State.onEntry_regs (s : State) (i : Nat) (g : EntSt → EntSt) : (s.onEntry i g).regs = s.regs := rfl
@[simp] theorem State.onEntry_shadow (s : State) (i : Nat) (g : EntSt → EntSt) : (s.onEntry i g).shadow = s.shadow := rfl
@[simp] theorem State.onEntry_clock (s : State) (i : Nat) (g : EntSt → EntSt) : (s.onEntry i g).clock = s.clock := rfl
@[simp] theorem State.onEntry_pins (s : State) (i : Nat) (g : EntSt → EntSt) : (s.onEntry i g).pins = s.pins := rfl
@[simp] theorem State.onEntry_loader (s : State) (i : Nat) (g : EntSt → EntSt) : (s.onEntry i g).loader = s.loader := rfl
@[simp] theorem State.onEntry_cox (s : State) (i : Nat) (g : EntSt → EntSt) : (s.onEntry i g).cox = s.cox := rfl
@[simp] theorem State.onEntry_syn (s : State) (i : Nat) (g : EntSt → EntSt) : (s.onEntry i g).syn = s.syn := rfl
@[simp] theorem State.onEntry_prt (s : State) (i : Nat) (g : EntSt → EntSt) : (s.onEntry i g).prt = s.prt := rfl
@[simp] theorem State.onEntry_que (s : State) (i : Nat) (g : EntSt → EntSt) : (s.onEntry i g).que = s.que := rfl
@[simp] theorem State.onEntry_slips (s : State) (i : Nat) (g : EntSt → EntSt) : (s.onEntry i g).slips = s.slips := rfl
@[simp] theorem State.onEntry_jik (s : State) (i : Nat) (g : EntSt → EntSt) : (s.onEntry i g).jik = s.jik := rfl
@[simp] theorem State.onEntry_hed (s : State) (i : Nat) (g : EntSt → EntSt) : (s.onEntry i g).hed = s.hed := rfl
@[simp] theorem State.onEntry_egr (s : State) (i : Nat) (g : EntSt → EntSt) : (s.onEntry i g).egr = s.egr := rfl
@[simp] theorem State.onEntry_aud (s : State) (i : Nat) (g : EntSt → EntSt) : (s.onEntry i g).aud = s.aud := rfl
@[simp] theorem State.onEntry_lgt (s : State) (i : Nat) (g : EntSt → EntSt) : (s.onEntry i g).lgt = s.lgt := rfl
@[simp] theorem State.onEntry_fld (s : State) (i : Nat) (g : EntSt → EntSt) : (s.onEntry i g).fld = s.fld := rfl
@[simp] theorem State.onEntry_keep (s : State) (i : Nat) (g : EntSt → EntSt) : (s.onEntry i g).keep = s.keep := rfl
@[simp] theorem State.onEntry_nvs (s : State) (i : Nat) (g : EntSt → EntSt) : (s.onEntry i g).nvs = s.nvs := rfl
@[simp] theorem State.onEntry_thm (s : State) (i : Nat) (g : EntSt → EntSt) : (s.onEntry i g).thm = s.thm := rfl
@[simp] theorem State.onEntry_pwr (s : State) (i : Nat) (g : EntSt → EntSt) : (s.onEntry i g).pwr = s.pwr := rfl
@[simp] theorem State.onEntry_quay (s : State) (i : Nat) (g : EntSt → EntSt) : (s.onEntry i g).quay = s.quay := rfl
@[simp] theorem State.onEntry_evt (s : State) (i : Nat) (g : EntSt → EntSt) : (s.onEntry i g).evt = s.evt := rfl
@[simp] theorem State.onEntry_fstore (s : State) (i : Nat) (g : EntSt → EntSt) : (s.onEntry i g).fstore = s.fstore := rfl
@[simp] theorem State.onEntry_work (s : State) (i : Nat) (g : EntSt → EntSt) : (s.onEntry i g).work = s.work := rfl
@[simp] theorem State.onEntry_nvsMem (s : State) (i : Nat) (g : EntSt → EntSt) : (s.onEntry i g).nvsMem = s.nvsMem := rfl
@[simp] theorem State.onEntry_cflash (s : State) (i : Nat) (g : EntSt → EntSt) : (s.onEntry i g).cflash = s.cflash := rfl
@[simp] theorem State.onEntry_hostMem (s : State) (i : Nat) (g : EntSt → EntSt) : (s.onEntry i g).hostMem = s.hostMem := rfl
@[simp] theorem State.onEntry_out (s : State) (i : Nat) (g : EntSt → EntSt) : (s.onEntry i g).out = s.out := rfl
@[simp] theorem State.onEntry_pending (s : State) (i : Nat) (g : EntSt → EntSt) : (s.onEntry i g).pending = s.pending := rfl

/-! `onGrp` changes `xtb`. -/

@[simp] theorem State.onGrp_regs (s : State) (n : Nat) (g : GrpSt → GrpSt) : (s.onGrp n g).regs = s.regs := rfl
@[simp] theorem State.onGrp_shadow (s : State) (n : Nat) (g : GrpSt → GrpSt) : (s.onGrp n g).shadow = s.shadow := rfl
@[simp] theorem State.onGrp_clock (s : State) (n : Nat) (g : GrpSt → GrpSt) : (s.onGrp n g).clock = s.clock := rfl
@[simp] theorem State.onGrp_pins (s : State) (n : Nat) (g : GrpSt → GrpSt) : (s.onGrp n g).pins = s.pins := rfl
@[simp] theorem State.onGrp_loader (s : State) (n : Nat) (g : GrpSt → GrpSt) : (s.onGrp n g).loader = s.loader := rfl
@[simp] theorem State.onGrp_cox (s : State) (n : Nat) (g : GrpSt → GrpSt) : (s.onGrp n g).cox = s.cox := rfl
@[simp] theorem State.onGrp_syn (s : State) (n : Nat) (g : GrpSt → GrpSt) : (s.onGrp n g).syn = s.syn := rfl
@[simp] theorem State.onGrp_prt (s : State) (n : Nat) (g : GrpSt → GrpSt) : (s.onGrp n g).prt = s.prt := rfl
@[simp] theorem State.onGrp_que (s : State) (n : Nat) (g : GrpSt → GrpSt) : (s.onGrp n g).que = s.que := rfl
@[simp] theorem State.onGrp_slips (s : State) (n : Nat) (g : GrpSt → GrpSt) : (s.onGrp n g).slips = s.slips := rfl
@[simp] theorem State.onGrp_jik (s : State) (n : Nat) (g : GrpSt → GrpSt) : (s.onGrp n g).jik = s.jik := rfl
@[simp] theorem State.onGrp_hed (s : State) (n : Nat) (g : GrpSt → GrpSt) : (s.onGrp n g).hed = s.hed := rfl
@[simp] theorem State.onGrp_egr (s : State) (n : Nat) (g : GrpSt → GrpSt) : (s.onGrp n g).egr = s.egr := rfl
@[simp] theorem State.onGrp_aud (s : State) (n : Nat) (g : GrpSt → GrpSt) : (s.onGrp n g).aud = s.aud := rfl
@[simp] theorem State.onGrp_lgt (s : State) (n : Nat) (g : GrpSt → GrpSt) : (s.onGrp n g).lgt = s.lgt := rfl
@[simp] theorem State.onGrp_fld (s : State) (n : Nat) (g : GrpSt → GrpSt) : (s.onGrp n g).fld = s.fld := rfl
@[simp] theorem State.onGrp_keep (s : State) (n : Nat) (g : GrpSt → GrpSt) : (s.onGrp n g).keep = s.keep := rfl
@[simp] theorem State.onGrp_nvs (s : State) (n : Nat) (g : GrpSt → GrpSt) : (s.onGrp n g).nvs = s.nvs := rfl
@[simp] theorem State.onGrp_thm (s : State) (n : Nat) (g : GrpSt → GrpSt) : (s.onGrp n g).thm = s.thm := rfl
@[simp] theorem State.onGrp_pwr (s : State) (n : Nat) (g : GrpSt → GrpSt) : (s.onGrp n g).pwr = s.pwr := rfl
@[simp] theorem State.onGrp_quay (s : State) (n : Nat) (g : GrpSt → GrpSt) : (s.onGrp n g).quay = s.quay := rfl
@[simp] theorem State.onGrp_evt (s : State) (n : Nat) (g : GrpSt → GrpSt) : (s.onGrp n g).evt = s.evt := rfl
@[simp] theorem State.onGrp_fstore (s : State) (n : Nat) (g : GrpSt → GrpSt) : (s.onGrp n g).fstore = s.fstore := rfl
@[simp] theorem State.onGrp_work (s : State) (n : Nat) (g : GrpSt → GrpSt) : (s.onGrp n g).work = s.work := rfl
@[simp] theorem State.onGrp_nvsMem (s : State) (n : Nat) (g : GrpSt → GrpSt) : (s.onGrp n g).nvsMem = s.nvsMem := rfl
@[simp] theorem State.onGrp_cflash (s : State) (n : Nat) (g : GrpSt → GrpSt) : (s.onGrp n g).cflash = s.cflash := rfl
@[simp] theorem State.onGrp_hostMem (s : State) (n : Nat) (g : GrpSt → GrpSt) : (s.onGrp n g).hostMem = s.hostMem := rfl
@[simp] theorem State.onGrp_out (s : State) (n : Nat) (g : GrpSt → GrpSt) : (s.onGrp n g).out = s.out := rfl
@[simp] theorem State.onGrp_pending (s : State) (n : Nat) (g : GrpSt → GrpSt) : (s.onGrp n g).pending = s.pending := rfl

/-! `onQueue` changes `que`. -/

@[simp] theorem State.onQueue_regs (s : State) (q : Nat) (g : QueSt → QueSt) : (s.onQueue q g).regs = s.regs := rfl
@[simp] theorem State.onQueue_shadow (s : State) (q : Nat) (g : QueSt → QueSt) : (s.onQueue q g).shadow = s.shadow := rfl
@[simp] theorem State.onQueue_clock (s : State) (q : Nat) (g : QueSt → QueSt) : (s.onQueue q g).clock = s.clock := rfl
@[simp] theorem State.onQueue_pins (s : State) (q : Nat) (g : QueSt → QueSt) : (s.onQueue q g).pins = s.pins := rfl
@[simp] theorem State.onQueue_loader (s : State) (q : Nat) (g : QueSt → QueSt) : (s.onQueue q g).loader = s.loader := rfl
@[simp] theorem State.onQueue_cox (s : State) (q : Nat) (g : QueSt → QueSt) : (s.onQueue q g).cox = s.cox := rfl
@[simp] theorem State.onQueue_syn (s : State) (q : Nat) (g : QueSt → QueSt) : (s.onQueue q g).syn = s.syn := rfl
@[simp] theorem State.onQueue_prt (s : State) (q : Nat) (g : QueSt → QueSt) : (s.onQueue q g).prt = s.prt := rfl
@[simp] theorem State.onQueue_xtb (s : State) (q : Nat) (g : QueSt → QueSt) : (s.onQueue q g).xtb = s.xtb := rfl
@[simp] theorem State.onQueue_slips (s : State) (q : Nat) (g : QueSt → QueSt) : (s.onQueue q g).slips = s.slips := rfl
@[simp] theorem State.onQueue_jik (s : State) (q : Nat) (g : QueSt → QueSt) : (s.onQueue q g).jik = s.jik := rfl
@[simp] theorem State.onQueue_hed (s : State) (q : Nat) (g : QueSt → QueSt) : (s.onQueue q g).hed = s.hed := rfl
@[simp] theorem State.onQueue_egr (s : State) (q : Nat) (g : QueSt → QueSt) : (s.onQueue q g).egr = s.egr := rfl
@[simp] theorem State.onQueue_aud (s : State) (q : Nat) (g : QueSt → QueSt) : (s.onQueue q g).aud = s.aud := rfl
@[simp] theorem State.onQueue_lgt (s : State) (q : Nat) (g : QueSt → QueSt) : (s.onQueue q g).lgt = s.lgt := rfl
@[simp] theorem State.onQueue_fld (s : State) (q : Nat) (g : QueSt → QueSt) : (s.onQueue q g).fld = s.fld := rfl
@[simp] theorem State.onQueue_keep (s : State) (q : Nat) (g : QueSt → QueSt) : (s.onQueue q g).keep = s.keep := rfl
@[simp] theorem State.onQueue_nvs (s : State) (q : Nat) (g : QueSt → QueSt) : (s.onQueue q g).nvs = s.nvs := rfl
@[simp] theorem State.onQueue_thm (s : State) (q : Nat) (g : QueSt → QueSt) : (s.onQueue q g).thm = s.thm := rfl
@[simp] theorem State.onQueue_pwr (s : State) (q : Nat) (g : QueSt → QueSt) : (s.onQueue q g).pwr = s.pwr := rfl
@[simp] theorem State.onQueue_quay (s : State) (q : Nat) (g : QueSt → QueSt) : (s.onQueue q g).quay = s.quay := rfl
@[simp] theorem State.onQueue_evt (s : State) (q : Nat) (g : QueSt → QueSt) : (s.onQueue q g).evt = s.evt := rfl
@[simp] theorem State.onQueue_fstore (s : State) (q : Nat) (g : QueSt → QueSt) : (s.onQueue q g).fstore = s.fstore := rfl
@[simp] theorem State.onQueue_work (s : State) (q : Nat) (g : QueSt → QueSt) : (s.onQueue q g).work = s.work := rfl
@[simp] theorem State.onQueue_nvsMem (s : State) (q : Nat) (g : QueSt → QueSt) : (s.onQueue q g).nvsMem = s.nvsMem := rfl
@[simp] theorem State.onQueue_cflash (s : State) (q : Nat) (g : QueSt → QueSt) : (s.onQueue q g).cflash = s.cflash := rfl
@[simp] theorem State.onQueue_hostMem (s : State) (q : Nat) (g : QueSt → QueSt) : (s.onQueue q g).hostMem = s.hostMem := rfl
@[simp] theorem State.onQueue_out (s : State) (q : Nat) (g : QueSt → QueSt) : (s.onQueue q g).out = s.out := rfl
@[simp] theorem State.onQueue_pending (s : State) (q : Nat) (g : QueSt → QueSt) : (s.onQueue q g).pending = s.pending := rfl

/-! `onSlip` changes `slips`. -/

@[simp] theorem State.onSlip_regs (s : State) (k : Nat) (g : SlipSt → SlipSt) : (s.onSlip k g).regs = s.regs := rfl
@[simp] theorem State.onSlip_shadow (s : State) (k : Nat) (g : SlipSt → SlipSt) : (s.onSlip k g).shadow = s.shadow := rfl
@[simp] theorem State.onSlip_clock (s : State) (k : Nat) (g : SlipSt → SlipSt) : (s.onSlip k g).clock = s.clock := rfl
@[simp] theorem State.onSlip_pins (s : State) (k : Nat) (g : SlipSt → SlipSt) : (s.onSlip k g).pins = s.pins := rfl
@[simp] theorem State.onSlip_loader (s : State) (k : Nat) (g : SlipSt → SlipSt) : (s.onSlip k g).loader = s.loader := rfl
@[simp] theorem State.onSlip_cox (s : State) (k : Nat) (g : SlipSt → SlipSt) : (s.onSlip k g).cox = s.cox := rfl
@[simp] theorem State.onSlip_syn (s : State) (k : Nat) (g : SlipSt → SlipSt) : (s.onSlip k g).syn = s.syn := rfl
@[simp] theorem State.onSlip_prt (s : State) (k : Nat) (g : SlipSt → SlipSt) : (s.onSlip k g).prt = s.prt := rfl
@[simp] theorem State.onSlip_xtb (s : State) (k : Nat) (g : SlipSt → SlipSt) : (s.onSlip k g).xtb = s.xtb := rfl
@[simp] theorem State.onSlip_que (s : State) (k : Nat) (g : SlipSt → SlipSt) : (s.onSlip k g).que = s.que := rfl
@[simp] theorem State.onSlip_jik (s : State) (k : Nat) (g : SlipSt → SlipSt) : (s.onSlip k g).jik = s.jik := rfl
@[simp] theorem State.onSlip_hed (s : State) (k : Nat) (g : SlipSt → SlipSt) : (s.onSlip k g).hed = s.hed := rfl
@[simp] theorem State.onSlip_egr (s : State) (k : Nat) (g : SlipSt → SlipSt) : (s.onSlip k g).egr = s.egr := rfl
@[simp] theorem State.onSlip_aud (s : State) (k : Nat) (g : SlipSt → SlipSt) : (s.onSlip k g).aud = s.aud := rfl
@[simp] theorem State.onSlip_lgt (s : State) (k : Nat) (g : SlipSt → SlipSt) : (s.onSlip k g).lgt = s.lgt := rfl
@[simp] theorem State.onSlip_fld (s : State) (k : Nat) (g : SlipSt → SlipSt) : (s.onSlip k g).fld = s.fld := rfl
@[simp] theorem State.onSlip_keep (s : State) (k : Nat) (g : SlipSt → SlipSt) : (s.onSlip k g).keep = s.keep := rfl
@[simp] theorem State.onSlip_nvs (s : State) (k : Nat) (g : SlipSt → SlipSt) : (s.onSlip k g).nvs = s.nvs := rfl
@[simp] theorem State.onSlip_thm (s : State) (k : Nat) (g : SlipSt → SlipSt) : (s.onSlip k g).thm = s.thm := rfl
@[simp] theorem State.onSlip_pwr (s : State) (k : Nat) (g : SlipSt → SlipSt) : (s.onSlip k g).pwr = s.pwr := rfl
@[simp] theorem State.onSlip_quay (s : State) (k : Nat) (g : SlipSt → SlipSt) : (s.onSlip k g).quay = s.quay := rfl
@[simp] theorem State.onSlip_evt (s : State) (k : Nat) (g : SlipSt → SlipSt) : (s.onSlip k g).evt = s.evt := rfl
@[simp] theorem State.onSlip_fstore (s : State) (k : Nat) (g : SlipSt → SlipSt) : (s.onSlip k g).fstore = s.fstore := rfl
@[simp] theorem State.onSlip_work (s : State) (k : Nat) (g : SlipSt → SlipSt) : (s.onSlip k g).work = s.work := rfl
@[simp] theorem State.onSlip_nvsMem (s : State) (k : Nat) (g : SlipSt → SlipSt) : (s.onSlip k g).nvsMem = s.nvsMem := rfl
@[simp] theorem State.onSlip_cflash (s : State) (k : Nat) (g : SlipSt → SlipSt) : (s.onSlip k g).cflash = s.cflash := rfl
@[simp] theorem State.onSlip_hostMem (s : State) (k : Nat) (g : SlipSt → SlipSt) : (s.onSlip k g).hostMem = s.hostMem := rfl
@[simp] theorem State.onSlip_out (s : State) (k : Nat) (g : SlipSt → SlipSt) : (s.onSlip k g).out = s.out := rfl
@[simp] theorem State.onSlip_pending (s : State) (k : Nat) (g : SlipSt → SlipSt) : (s.onSlip k g).pending = s.pending := rfl

/-! `onSlot` changes `slips`. -/

@[simp] theorem State.onSlot_regs (s : State) (k j : Nat) (g : SlotSt → SlotSt) : (s.onSlot k j g).regs = s.regs := rfl
@[simp] theorem State.onSlot_shadow (s : State) (k j : Nat) (g : SlotSt → SlotSt) : (s.onSlot k j g).shadow = s.shadow := rfl
@[simp] theorem State.onSlot_clock (s : State) (k j : Nat) (g : SlotSt → SlotSt) : (s.onSlot k j g).clock = s.clock := rfl
@[simp] theorem State.onSlot_pins (s : State) (k j : Nat) (g : SlotSt → SlotSt) : (s.onSlot k j g).pins = s.pins := rfl
@[simp] theorem State.onSlot_loader (s : State) (k j : Nat) (g : SlotSt → SlotSt) : (s.onSlot k j g).loader = s.loader := rfl
@[simp] theorem State.onSlot_cox (s : State) (k j : Nat) (g : SlotSt → SlotSt) : (s.onSlot k j g).cox = s.cox := rfl
@[simp] theorem State.onSlot_syn (s : State) (k j : Nat) (g : SlotSt → SlotSt) : (s.onSlot k j g).syn = s.syn := rfl
@[simp] theorem State.onSlot_prt (s : State) (k j : Nat) (g : SlotSt → SlotSt) : (s.onSlot k j g).prt = s.prt := rfl
@[simp] theorem State.onSlot_xtb (s : State) (k j : Nat) (g : SlotSt → SlotSt) : (s.onSlot k j g).xtb = s.xtb := rfl
@[simp] theorem State.onSlot_que (s : State) (k j : Nat) (g : SlotSt → SlotSt) : (s.onSlot k j g).que = s.que := rfl
@[simp] theorem State.onSlot_jik (s : State) (k j : Nat) (g : SlotSt → SlotSt) : (s.onSlot k j g).jik = s.jik := rfl
@[simp] theorem State.onSlot_hed (s : State) (k j : Nat) (g : SlotSt → SlotSt) : (s.onSlot k j g).hed = s.hed := rfl
@[simp] theorem State.onSlot_egr (s : State) (k j : Nat) (g : SlotSt → SlotSt) : (s.onSlot k j g).egr = s.egr := rfl
@[simp] theorem State.onSlot_aud (s : State) (k j : Nat) (g : SlotSt → SlotSt) : (s.onSlot k j g).aud = s.aud := rfl
@[simp] theorem State.onSlot_lgt (s : State) (k j : Nat) (g : SlotSt → SlotSt) : (s.onSlot k j g).lgt = s.lgt := rfl
@[simp] theorem State.onSlot_fld (s : State) (k j : Nat) (g : SlotSt → SlotSt) : (s.onSlot k j g).fld = s.fld := rfl
@[simp] theorem State.onSlot_keep (s : State) (k j : Nat) (g : SlotSt → SlotSt) : (s.onSlot k j g).keep = s.keep := rfl
@[simp] theorem State.onSlot_nvs (s : State) (k j : Nat) (g : SlotSt → SlotSt) : (s.onSlot k j g).nvs = s.nvs := rfl
@[simp] theorem State.onSlot_thm (s : State) (k j : Nat) (g : SlotSt → SlotSt) : (s.onSlot k j g).thm = s.thm := rfl
@[simp] theorem State.onSlot_pwr (s : State) (k j : Nat) (g : SlotSt → SlotSt) : (s.onSlot k j g).pwr = s.pwr := rfl
@[simp] theorem State.onSlot_quay (s : State) (k j : Nat) (g : SlotSt → SlotSt) : (s.onSlot k j g).quay = s.quay := rfl
@[simp] theorem State.onSlot_evt (s : State) (k j : Nat) (g : SlotSt → SlotSt) : (s.onSlot k j g).evt = s.evt := rfl
@[simp] theorem State.onSlot_fstore (s : State) (k j : Nat) (g : SlotSt → SlotSt) : (s.onSlot k j g).fstore = s.fstore := rfl
@[simp] theorem State.onSlot_work (s : State) (k j : Nat) (g : SlotSt → SlotSt) : (s.onSlot k j g).work = s.work := rfl
@[simp] theorem State.onSlot_nvsMem (s : State) (k j : Nat) (g : SlotSt → SlotSt) : (s.onSlot k j g).nvsMem = s.nvsMem := rfl
@[simp] theorem State.onSlot_cflash (s : State) (k j : Nat) (g : SlotSt → SlotSt) : (s.onSlot k j g).cflash = s.cflash := rfl
@[simp] theorem State.onSlot_hostMem (s : State) (k j : Nat) (g : SlotSt → SlotSt) : (s.onSlot k j g).hostMem = s.hostMem := rfl
@[simp] theorem State.onSlot_out (s : State) (k j : Nat) (g : SlotSt → SlotSt) : (s.onSlot k j g).out = s.out := rfl
@[simp] theorem State.onSlot_pending (s : State) (k j : Nat) (g : SlotSt → SlotSt) : (s.onSlot k j g).pending = s.pending := rfl

/-! `onJik` changes `jik`. -/

@[simp] theorem State.onJik_jik (s : State) (g : JikSt → JikSt) : (s.onJik g).jik = g s.jik := rfl
@[simp] theorem State.onJik_regs (s : State) (g : JikSt → JikSt) : (s.onJik g).regs = s.regs := rfl
@[simp] theorem State.onJik_shadow (s : State) (g : JikSt → JikSt) : (s.onJik g).shadow = s.shadow := rfl
@[simp] theorem State.onJik_clock (s : State) (g : JikSt → JikSt) : (s.onJik g).clock = s.clock := rfl
@[simp] theorem State.onJik_pins (s : State) (g : JikSt → JikSt) : (s.onJik g).pins = s.pins := rfl
@[simp] theorem State.onJik_loader (s : State) (g : JikSt → JikSt) : (s.onJik g).loader = s.loader := rfl
@[simp] theorem State.onJik_cox (s : State) (g : JikSt → JikSt) : (s.onJik g).cox = s.cox := rfl
@[simp] theorem State.onJik_syn (s : State) (g : JikSt → JikSt) : (s.onJik g).syn = s.syn := rfl
@[simp] theorem State.onJik_prt (s : State) (g : JikSt → JikSt) : (s.onJik g).prt = s.prt := rfl
@[simp] theorem State.onJik_xtb (s : State) (g : JikSt → JikSt) : (s.onJik g).xtb = s.xtb := rfl
@[simp] theorem State.onJik_que (s : State) (g : JikSt → JikSt) : (s.onJik g).que = s.que := rfl
@[simp] theorem State.onJik_slips (s : State) (g : JikSt → JikSt) : (s.onJik g).slips = s.slips := rfl
@[simp] theorem State.onJik_hed (s : State) (g : JikSt → JikSt) : (s.onJik g).hed = s.hed := rfl
@[simp] theorem State.onJik_egr (s : State) (g : JikSt → JikSt) : (s.onJik g).egr = s.egr := rfl
@[simp] theorem State.onJik_aud (s : State) (g : JikSt → JikSt) : (s.onJik g).aud = s.aud := rfl
@[simp] theorem State.onJik_lgt (s : State) (g : JikSt → JikSt) : (s.onJik g).lgt = s.lgt := rfl
@[simp] theorem State.onJik_fld (s : State) (g : JikSt → JikSt) : (s.onJik g).fld = s.fld := rfl
@[simp] theorem State.onJik_keep (s : State) (g : JikSt → JikSt) : (s.onJik g).keep = s.keep := rfl
@[simp] theorem State.onJik_nvs (s : State) (g : JikSt → JikSt) : (s.onJik g).nvs = s.nvs := rfl
@[simp] theorem State.onJik_thm (s : State) (g : JikSt → JikSt) : (s.onJik g).thm = s.thm := rfl
@[simp] theorem State.onJik_pwr (s : State) (g : JikSt → JikSt) : (s.onJik g).pwr = s.pwr := rfl
@[simp] theorem State.onJik_quay (s : State) (g : JikSt → JikSt) : (s.onJik g).quay = s.quay := rfl
@[simp] theorem State.onJik_evt (s : State) (g : JikSt → JikSt) : (s.onJik g).evt = s.evt := rfl
@[simp] theorem State.onJik_fstore (s : State) (g : JikSt → JikSt) : (s.onJik g).fstore = s.fstore := rfl
@[simp] theorem State.onJik_work (s : State) (g : JikSt → JikSt) : (s.onJik g).work = s.work := rfl
@[simp] theorem State.onJik_nvsMem (s : State) (g : JikSt → JikSt) : (s.onJik g).nvsMem = s.nvsMem := rfl
@[simp] theorem State.onJik_cflash (s : State) (g : JikSt → JikSt) : (s.onJik g).cflash = s.cflash := rfl
@[simp] theorem State.onJik_hostMem (s : State) (g : JikSt → JikSt) : (s.onJik g).hostMem = s.hostMem := rfl
@[simp] theorem State.onJik_out (s : State) (g : JikSt → JikSt) : (s.onJik g).out = s.out := rfl
@[simp] theorem State.onJik_pending (s : State) (g : JikSt → JikSt) : (s.onJik g).pending = s.pending := rfl

/-! `onEng` changes `jik`. -/

@[simp] theorem State.onEng_regs (s : State) (e : Nat) (g : EngSt → EngSt) : (s.onEng e g).regs = s.regs := rfl
@[simp] theorem State.onEng_shadow (s : State) (e : Nat) (g : EngSt → EngSt) : (s.onEng e g).shadow = s.shadow := rfl
@[simp] theorem State.onEng_clock (s : State) (e : Nat) (g : EngSt → EngSt) : (s.onEng e g).clock = s.clock := rfl
@[simp] theorem State.onEng_pins (s : State) (e : Nat) (g : EngSt → EngSt) : (s.onEng e g).pins = s.pins := rfl
@[simp] theorem State.onEng_loader (s : State) (e : Nat) (g : EngSt → EngSt) : (s.onEng e g).loader = s.loader := rfl
@[simp] theorem State.onEng_cox (s : State) (e : Nat) (g : EngSt → EngSt) : (s.onEng e g).cox = s.cox := rfl
@[simp] theorem State.onEng_syn (s : State) (e : Nat) (g : EngSt → EngSt) : (s.onEng e g).syn = s.syn := rfl
@[simp] theorem State.onEng_prt (s : State) (e : Nat) (g : EngSt → EngSt) : (s.onEng e g).prt = s.prt := rfl
@[simp] theorem State.onEng_xtb (s : State) (e : Nat) (g : EngSt → EngSt) : (s.onEng e g).xtb = s.xtb := rfl
@[simp] theorem State.onEng_que (s : State) (e : Nat) (g : EngSt → EngSt) : (s.onEng e g).que = s.que := rfl
@[simp] theorem State.onEng_slips (s : State) (e : Nat) (g : EngSt → EngSt) : (s.onEng e g).slips = s.slips := rfl
@[simp] theorem State.onEng_hed (s : State) (e : Nat) (g : EngSt → EngSt) : (s.onEng e g).hed = s.hed := rfl
@[simp] theorem State.onEng_egr (s : State) (e : Nat) (g : EngSt → EngSt) : (s.onEng e g).egr = s.egr := rfl
@[simp] theorem State.onEng_aud (s : State) (e : Nat) (g : EngSt → EngSt) : (s.onEng e g).aud = s.aud := rfl
@[simp] theorem State.onEng_lgt (s : State) (e : Nat) (g : EngSt → EngSt) : (s.onEng e g).lgt = s.lgt := rfl
@[simp] theorem State.onEng_fld (s : State) (e : Nat) (g : EngSt → EngSt) : (s.onEng e g).fld = s.fld := rfl
@[simp] theorem State.onEng_keep (s : State) (e : Nat) (g : EngSt → EngSt) : (s.onEng e g).keep = s.keep := rfl
@[simp] theorem State.onEng_nvs (s : State) (e : Nat) (g : EngSt → EngSt) : (s.onEng e g).nvs = s.nvs := rfl
@[simp] theorem State.onEng_thm (s : State) (e : Nat) (g : EngSt → EngSt) : (s.onEng e g).thm = s.thm := rfl
@[simp] theorem State.onEng_pwr (s : State) (e : Nat) (g : EngSt → EngSt) : (s.onEng e g).pwr = s.pwr := rfl
@[simp] theorem State.onEng_quay (s : State) (e : Nat) (g : EngSt → EngSt) : (s.onEng e g).quay = s.quay := rfl
@[simp] theorem State.onEng_evt (s : State) (e : Nat) (g : EngSt → EngSt) : (s.onEng e g).evt = s.evt := rfl
@[simp] theorem State.onEng_fstore (s : State) (e : Nat) (g : EngSt → EngSt) : (s.onEng e g).fstore = s.fstore := rfl
@[simp] theorem State.onEng_work (s : State) (e : Nat) (g : EngSt → EngSt) : (s.onEng e g).work = s.work := rfl
@[simp] theorem State.onEng_nvsMem (s : State) (e : Nat) (g : EngSt → EngSt) : (s.onEng e g).nvsMem = s.nvsMem := rfl
@[simp] theorem State.onEng_cflash (s : State) (e : Nat) (g : EngSt → EngSt) : (s.onEng e g).cflash = s.cflash := rfl
@[simp] theorem State.onEng_hostMem (s : State) (e : Nat) (g : EngSt → EngSt) : (s.onEng e g).hostMem = s.hostMem := rfl
@[simp] theorem State.onEng_out (s : State) (e : Nat) (g : EngSt → EngSt) : (s.onEng e g).out = s.out := rfl
@[simp] theorem State.onEng_pending (s : State) (e : Nat) (g : EngSt → EngSt) : (s.onEng e g).pending = s.pending := rfl

/-! `onCrew` changes `jik`. -/

@[simp] theorem State.onCrew_regs (s : State) (c : Nat) (g : CrwSt → CrwSt) : (s.onCrew c g).regs = s.regs := rfl
@[simp] theorem State.onCrew_shadow (s : State) (c : Nat) (g : CrwSt → CrwSt) : (s.onCrew c g).shadow = s.shadow := rfl
@[simp] theorem State.onCrew_clock (s : State) (c : Nat) (g : CrwSt → CrwSt) : (s.onCrew c g).clock = s.clock := rfl
@[simp] theorem State.onCrew_pins (s : State) (c : Nat) (g : CrwSt → CrwSt) : (s.onCrew c g).pins = s.pins := rfl
@[simp] theorem State.onCrew_loader (s : State) (c : Nat) (g : CrwSt → CrwSt) : (s.onCrew c g).loader = s.loader := rfl
@[simp] theorem State.onCrew_cox (s : State) (c : Nat) (g : CrwSt → CrwSt) : (s.onCrew c g).cox = s.cox := rfl
@[simp] theorem State.onCrew_syn (s : State) (c : Nat) (g : CrwSt → CrwSt) : (s.onCrew c g).syn = s.syn := rfl
@[simp] theorem State.onCrew_prt (s : State) (c : Nat) (g : CrwSt → CrwSt) : (s.onCrew c g).prt = s.prt := rfl
@[simp] theorem State.onCrew_xtb (s : State) (c : Nat) (g : CrwSt → CrwSt) : (s.onCrew c g).xtb = s.xtb := rfl
@[simp] theorem State.onCrew_que (s : State) (c : Nat) (g : CrwSt → CrwSt) : (s.onCrew c g).que = s.que := rfl
@[simp] theorem State.onCrew_slips (s : State) (c : Nat) (g : CrwSt → CrwSt) : (s.onCrew c g).slips = s.slips := rfl
@[simp] theorem State.onCrew_hed (s : State) (c : Nat) (g : CrwSt → CrwSt) : (s.onCrew c g).hed = s.hed := rfl
@[simp] theorem State.onCrew_egr (s : State) (c : Nat) (g : CrwSt → CrwSt) : (s.onCrew c g).egr = s.egr := rfl
@[simp] theorem State.onCrew_aud (s : State) (c : Nat) (g : CrwSt → CrwSt) : (s.onCrew c g).aud = s.aud := rfl
@[simp] theorem State.onCrew_lgt (s : State) (c : Nat) (g : CrwSt → CrwSt) : (s.onCrew c g).lgt = s.lgt := rfl
@[simp] theorem State.onCrew_fld (s : State) (c : Nat) (g : CrwSt → CrwSt) : (s.onCrew c g).fld = s.fld := rfl
@[simp] theorem State.onCrew_keep (s : State) (c : Nat) (g : CrwSt → CrwSt) : (s.onCrew c g).keep = s.keep := rfl
@[simp] theorem State.onCrew_nvs (s : State) (c : Nat) (g : CrwSt → CrwSt) : (s.onCrew c g).nvs = s.nvs := rfl
@[simp] theorem State.onCrew_thm (s : State) (c : Nat) (g : CrwSt → CrwSt) : (s.onCrew c g).thm = s.thm := rfl
@[simp] theorem State.onCrew_pwr (s : State) (c : Nat) (g : CrwSt → CrwSt) : (s.onCrew c g).pwr = s.pwr := rfl
@[simp] theorem State.onCrew_quay (s : State) (c : Nat) (g : CrwSt → CrwSt) : (s.onCrew c g).quay = s.quay := rfl
@[simp] theorem State.onCrew_evt (s : State) (c : Nat) (g : CrwSt → CrwSt) : (s.onCrew c g).evt = s.evt := rfl
@[simp] theorem State.onCrew_fstore (s : State) (c : Nat) (g : CrwSt → CrwSt) : (s.onCrew c g).fstore = s.fstore := rfl
@[simp] theorem State.onCrew_work (s : State) (c : Nat) (g : CrwSt → CrwSt) : (s.onCrew c g).work = s.work := rfl
@[simp] theorem State.onCrew_nvsMem (s : State) (c : Nat) (g : CrwSt → CrwSt) : (s.onCrew c g).nvsMem = s.nvsMem := rfl
@[simp] theorem State.onCrew_cflash (s : State) (c : Nat) (g : CrwSt → CrwSt) : (s.onCrew c g).cflash = s.cflash := rfl
@[simp] theorem State.onCrew_hostMem (s : State) (c : Nat) (g : CrwSt → CrwSt) : (s.onCrew c g).hostMem = s.hostMem := rfl
@[simp] theorem State.onCrew_out (s : State) (c : Nat) (g : CrwSt → CrwSt) : (s.onCrew c g).out = s.out := rfl
@[simp] theorem State.onCrew_pending (s : State) (c : Nat) (g : CrwSt → CrwSt) : (s.onCrew c g).pending = s.pending := rfl

/-! `setS` changes `jik`. -/

@[simp] theorem State.setS_regs (s : State) (e r : Nat) (v : Word) : (s.setS e r v).regs = s.regs := rfl
@[simp] theorem State.setS_shadow (s : State) (e r : Nat) (v : Word) : (s.setS e r v).shadow = s.shadow := rfl
@[simp] theorem State.setS_clock (s : State) (e r : Nat) (v : Word) : (s.setS e r v).clock = s.clock := rfl
@[simp] theorem State.setS_pins (s : State) (e r : Nat) (v : Word) : (s.setS e r v).pins = s.pins := rfl
@[simp] theorem State.setS_loader (s : State) (e r : Nat) (v : Word) : (s.setS e r v).loader = s.loader := rfl
@[simp] theorem State.setS_cox (s : State) (e r : Nat) (v : Word) : (s.setS e r v).cox = s.cox := rfl
@[simp] theorem State.setS_syn (s : State) (e r : Nat) (v : Word) : (s.setS e r v).syn = s.syn := rfl
@[simp] theorem State.setS_prt (s : State) (e r : Nat) (v : Word) : (s.setS e r v).prt = s.prt := rfl
@[simp] theorem State.setS_xtb (s : State) (e r : Nat) (v : Word) : (s.setS e r v).xtb = s.xtb := rfl
@[simp] theorem State.setS_que (s : State) (e r : Nat) (v : Word) : (s.setS e r v).que = s.que := rfl
@[simp] theorem State.setS_slips (s : State) (e r : Nat) (v : Word) : (s.setS e r v).slips = s.slips := rfl
@[simp] theorem State.setS_hed (s : State) (e r : Nat) (v : Word) : (s.setS e r v).hed = s.hed := rfl
@[simp] theorem State.setS_egr (s : State) (e r : Nat) (v : Word) : (s.setS e r v).egr = s.egr := rfl
@[simp] theorem State.setS_aud (s : State) (e r : Nat) (v : Word) : (s.setS e r v).aud = s.aud := rfl
@[simp] theorem State.setS_lgt (s : State) (e r : Nat) (v : Word) : (s.setS e r v).lgt = s.lgt := rfl
@[simp] theorem State.setS_fld (s : State) (e r : Nat) (v : Word) : (s.setS e r v).fld = s.fld := rfl
@[simp] theorem State.setS_keep (s : State) (e r : Nat) (v : Word) : (s.setS e r v).keep = s.keep := rfl
@[simp] theorem State.setS_nvs (s : State) (e r : Nat) (v : Word) : (s.setS e r v).nvs = s.nvs := rfl
@[simp] theorem State.setS_thm (s : State) (e r : Nat) (v : Word) : (s.setS e r v).thm = s.thm := rfl
@[simp] theorem State.setS_pwr (s : State) (e r : Nat) (v : Word) : (s.setS e r v).pwr = s.pwr := rfl
@[simp] theorem State.setS_quay (s : State) (e r : Nat) (v : Word) : (s.setS e r v).quay = s.quay := rfl
@[simp] theorem State.setS_evt (s : State) (e r : Nat) (v : Word) : (s.setS e r v).evt = s.evt := rfl
@[simp] theorem State.setS_fstore (s : State) (e r : Nat) (v : Word) : (s.setS e r v).fstore = s.fstore := rfl
@[simp] theorem State.setS_work (s : State) (e r : Nat) (v : Word) : (s.setS e r v).work = s.work := rfl
@[simp] theorem State.setS_nvsMem (s : State) (e r : Nat) (v : Word) : (s.setS e r v).nvsMem = s.nvsMem := rfl
@[simp] theorem State.setS_cflash (s : State) (e r : Nat) (v : Word) : (s.setS e r v).cflash = s.cflash := rfl
@[simp] theorem State.setS_hostMem (s : State) (e r : Nat) (v : Word) : (s.setS e r v).hostMem = s.hostMem := rfl
@[simp] theorem State.setS_out (s : State) (e r : Nat) (v : Word) : (s.setS e r v).out = s.out := rfl
@[simp] theorem State.setS_pending (s : State) (e r : Nat) (v : Word) : (s.setS e r v).pending = s.pending := rfl

/-! `setA` changes `jik`. -/

@[simp] theorem State.setA_regs (s : State) (e r : Nat) (v : List Acc) : (s.setA e r v).regs = s.regs := rfl
@[simp] theorem State.setA_shadow (s : State) (e r : Nat) (v : List Acc) : (s.setA e r v).shadow = s.shadow := rfl
@[simp] theorem State.setA_clock (s : State) (e r : Nat) (v : List Acc) : (s.setA e r v).clock = s.clock := rfl
@[simp] theorem State.setA_pins (s : State) (e r : Nat) (v : List Acc) : (s.setA e r v).pins = s.pins := rfl
@[simp] theorem State.setA_loader (s : State) (e r : Nat) (v : List Acc) : (s.setA e r v).loader = s.loader := rfl
@[simp] theorem State.setA_cox (s : State) (e r : Nat) (v : List Acc) : (s.setA e r v).cox = s.cox := rfl
@[simp] theorem State.setA_syn (s : State) (e r : Nat) (v : List Acc) : (s.setA e r v).syn = s.syn := rfl
@[simp] theorem State.setA_prt (s : State) (e r : Nat) (v : List Acc) : (s.setA e r v).prt = s.prt := rfl
@[simp] theorem State.setA_xtb (s : State) (e r : Nat) (v : List Acc) : (s.setA e r v).xtb = s.xtb := rfl
@[simp] theorem State.setA_que (s : State) (e r : Nat) (v : List Acc) : (s.setA e r v).que = s.que := rfl
@[simp] theorem State.setA_slips (s : State) (e r : Nat) (v : List Acc) : (s.setA e r v).slips = s.slips := rfl
@[simp] theorem State.setA_hed (s : State) (e r : Nat) (v : List Acc) : (s.setA e r v).hed = s.hed := rfl
@[simp] theorem State.setA_egr (s : State) (e r : Nat) (v : List Acc) : (s.setA e r v).egr = s.egr := rfl
@[simp] theorem State.setA_aud (s : State) (e r : Nat) (v : List Acc) : (s.setA e r v).aud = s.aud := rfl
@[simp] theorem State.setA_lgt (s : State) (e r : Nat) (v : List Acc) : (s.setA e r v).lgt = s.lgt := rfl
@[simp] theorem State.setA_fld (s : State) (e r : Nat) (v : List Acc) : (s.setA e r v).fld = s.fld := rfl
@[simp] theorem State.setA_keep (s : State) (e r : Nat) (v : List Acc) : (s.setA e r v).keep = s.keep := rfl
@[simp] theorem State.setA_nvs (s : State) (e r : Nat) (v : List Acc) : (s.setA e r v).nvs = s.nvs := rfl
@[simp] theorem State.setA_thm (s : State) (e r : Nat) (v : List Acc) : (s.setA e r v).thm = s.thm := rfl
@[simp] theorem State.setA_pwr (s : State) (e r : Nat) (v : List Acc) : (s.setA e r v).pwr = s.pwr := rfl
@[simp] theorem State.setA_quay (s : State) (e r : Nat) (v : List Acc) : (s.setA e r v).quay = s.quay := rfl
@[simp] theorem State.setA_evt (s : State) (e r : Nat) (v : List Acc) : (s.setA e r v).evt = s.evt := rfl
@[simp] theorem State.setA_fstore (s : State) (e r : Nat) (v : List Acc) : (s.setA e r v).fstore = s.fstore := rfl
@[simp] theorem State.setA_work (s : State) (e r : Nat) (v : List Acc) : (s.setA e r v).work = s.work := rfl
@[simp] theorem State.setA_nvsMem (s : State) (e r : Nat) (v : List Acc) : (s.setA e r v).nvsMem = s.nvsMem := rfl
@[simp] theorem State.setA_cflash (s : State) (e r : Nat) (v : List Acc) : (s.setA e r v).cflash = s.cflash := rfl
@[simp] theorem State.setA_hostMem (s : State) (e r : Nat) (v : List Acc) : (s.setA e r v).hostMem = s.hostMem := rfl
@[simp] theorem State.setA_out (s : State) (e r : Nat) (v : List Acc) : (s.setA e r v).out = s.out := rfl
@[simp] theorem State.setA_pending (s : State) (e r : Nat) (v : List Acc) : (s.setA e r v).pending = s.pending := rfl

/-! `setV` changes `jik`. -/

@[simp] theorem State.setV_regs (s : State) (e : Nat) (f : EngFields) (v : List Lane) : (s.setV e f v).regs = s.regs := rfl
@[simp] theorem State.setV_shadow (s : State) (e : Nat) (f : EngFields) (v : List Lane) : (s.setV e f v).shadow = s.shadow := rfl
@[simp] theorem State.setV_clock (s : State) (e : Nat) (f : EngFields) (v : List Lane) : (s.setV e f v).clock = s.clock := rfl
@[simp] theorem State.setV_pins (s : State) (e : Nat) (f : EngFields) (v : List Lane) : (s.setV e f v).pins = s.pins := rfl
@[simp] theorem State.setV_loader (s : State) (e : Nat) (f : EngFields) (v : List Lane) : (s.setV e f v).loader = s.loader := rfl
@[simp] theorem State.setV_cox (s : State) (e : Nat) (f : EngFields) (v : List Lane) : (s.setV e f v).cox = s.cox := rfl
@[simp] theorem State.setV_syn (s : State) (e : Nat) (f : EngFields) (v : List Lane) : (s.setV e f v).syn = s.syn := rfl
@[simp] theorem State.setV_prt (s : State) (e : Nat) (f : EngFields) (v : List Lane) : (s.setV e f v).prt = s.prt := rfl
@[simp] theorem State.setV_xtb (s : State) (e : Nat) (f : EngFields) (v : List Lane) : (s.setV e f v).xtb = s.xtb := rfl
@[simp] theorem State.setV_que (s : State) (e : Nat) (f : EngFields) (v : List Lane) : (s.setV e f v).que = s.que := rfl
@[simp] theorem State.setV_slips (s : State) (e : Nat) (f : EngFields) (v : List Lane) : (s.setV e f v).slips = s.slips := rfl
@[simp] theorem State.setV_hed (s : State) (e : Nat) (f : EngFields) (v : List Lane) : (s.setV e f v).hed = s.hed := rfl
@[simp] theorem State.setV_egr (s : State) (e : Nat) (f : EngFields) (v : List Lane) : (s.setV e f v).egr = s.egr := rfl
@[simp] theorem State.setV_aud (s : State) (e : Nat) (f : EngFields) (v : List Lane) : (s.setV e f v).aud = s.aud := rfl
@[simp] theorem State.setV_lgt (s : State) (e : Nat) (f : EngFields) (v : List Lane) : (s.setV e f v).lgt = s.lgt := rfl
@[simp] theorem State.setV_fld (s : State) (e : Nat) (f : EngFields) (v : List Lane) : (s.setV e f v).fld = s.fld := rfl
@[simp] theorem State.setV_keep (s : State) (e : Nat) (f : EngFields) (v : List Lane) : (s.setV e f v).keep = s.keep := rfl
@[simp] theorem State.setV_nvs (s : State) (e : Nat) (f : EngFields) (v : List Lane) : (s.setV e f v).nvs = s.nvs := rfl
@[simp] theorem State.setV_thm (s : State) (e : Nat) (f : EngFields) (v : List Lane) : (s.setV e f v).thm = s.thm := rfl
@[simp] theorem State.setV_pwr (s : State) (e : Nat) (f : EngFields) (v : List Lane) : (s.setV e f v).pwr = s.pwr := rfl
@[simp] theorem State.setV_quay (s : State) (e : Nat) (f : EngFields) (v : List Lane) : (s.setV e f v).quay = s.quay := rfl
@[simp] theorem State.setV_evt (s : State) (e : Nat) (f : EngFields) (v : List Lane) : (s.setV e f v).evt = s.evt := rfl
@[simp] theorem State.setV_fstore (s : State) (e : Nat) (f : EngFields) (v : List Lane) : (s.setV e f v).fstore = s.fstore := rfl
@[simp] theorem State.setV_work (s : State) (e : Nat) (f : EngFields) (v : List Lane) : (s.setV e f v).work = s.work := rfl
@[simp] theorem State.setV_nvsMem (s : State) (e : Nat) (f : EngFields) (v : List Lane) : (s.setV e f v).nvsMem = s.nvsMem := rfl
@[simp] theorem State.setV_cflash (s : State) (e : Nat) (f : EngFields) (v : List Lane) : (s.setV e f v).cflash = s.cflash := rfl
@[simp] theorem State.setV_hostMem (s : State) (e : Nat) (f : EngFields) (v : List Lane) : (s.setV e f v).hostMem = s.hostMem := rfl
@[simp] theorem State.setV_out (s : State) (e : Nat) (f : EngFields) (v : List Lane) : (s.setV e f v).out = s.out := rfl
@[simp] theorem State.setV_pending (s : State) (e : Nat) (f : EngFields) (v : List Lane) : (s.setV e f v).pending = s.pending := rfl

/-! `onHead` changes `hed`. -/

@[simp] theorem State.onHead_regs (s : State) (h : Nat) (g : HeadSt → HeadSt) : (s.onHead h g).regs = s.regs := rfl
@[simp] theorem State.onHead_shadow (s : State) (h : Nat) (g : HeadSt → HeadSt) : (s.onHead h g).shadow = s.shadow := rfl
@[simp] theorem State.onHead_clock (s : State) (h : Nat) (g : HeadSt → HeadSt) : (s.onHead h g).clock = s.clock := rfl
@[simp] theorem State.onHead_pins (s : State) (h : Nat) (g : HeadSt → HeadSt) : (s.onHead h g).pins = s.pins := rfl
@[simp] theorem State.onHead_loader (s : State) (h : Nat) (g : HeadSt → HeadSt) : (s.onHead h g).loader = s.loader := rfl
@[simp] theorem State.onHead_cox (s : State) (h : Nat) (g : HeadSt → HeadSt) : (s.onHead h g).cox = s.cox := rfl
@[simp] theorem State.onHead_syn (s : State) (h : Nat) (g : HeadSt → HeadSt) : (s.onHead h g).syn = s.syn := rfl
@[simp] theorem State.onHead_prt (s : State) (h : Nat) (g : HeadSt → HeadSt) : (s.onHead h g).prt = s.prt := rfl
@[simp] theorem State.onHead_xtb (s : State) (h : Nat) (g : HeadSt → HeadSt) : (s.onHead h g).xtb = s.xtb := rfl
@[simp] theorem State.onHead_que (s : State) (h : Nat) (g : HeadSt → HeadSt) : (s.onHead h g).que = s.que := rfl
@[simp] theorem State.onHead_slips (s : State) (h : Nat) (g : HeadSt → HeadSt) : (s.onHead h g).slips = s.slips := rfl
@[simp] theorem State.onHead_jik (s : State) (h : Nat) (g : HeadSt → HeadSt) : (s.onHead h g).jik = s.jik := rfl
@[simp] theorem State.onHead_egr (s : State) (h : Nat) (g : HeadSt → HeadSt) : (s.onHead h g).egr = s.egr := rfl
@[simp] theorem State.onHead_aud (s : State) (h : Nat) (g : HeadSt → HeadSt) : (s.onHead h g).aud = s.aud := rfl
@[simp] theorem State.onHead_lgt (s : State) (h : Nat) (g : HeadSt → HeadSt) : (s.onHead h g).lgt = s.lgt := rfl
@[simp] theorem State.onHead_fld (s : State) (h : Nat) (g : HeadSt → HeadSt) : (s.onHead h g).fld = s.fld := rfl
@[simp] theorem State.onHead_keep (s : State) (h : Nat) (g : HeadSt → HeadSt) : (s.onHead h g).keep = s.keep := rfl
@[simp] theorem State.onHead_nvs (s : State) (h : Nat) (g : HeadSt → HeadSt) : (s.onHead h g).nvs = s.nvs := rfl
@[simp] theorem State.onHead_thm (s : State) (h : Nat) (g : HeadSt → HeadSt) : (s.onHead h g).thm = s.thm := rfl
@[simp] theorem State.onHead_pwr (s : State) (h : Nat) (g : HeadSt → HeadSt) : (s.onHead h g).pwr = s.pwr := rfl
@[simp] theorem State.onHead_quay (s : State) (h : Nat) (g : HeadSt → HeadSt) : (s.onHead h g).quay = s.quay := rfl
@[simp] theorem State.onHead_evt (s : State) (h : Nat) (g : HeadSt → HeadSt) : (s.onHead h g).evt = s.evt := rfl
@[simp] theorem State.onHead_fstore (s : State) (h : Nat) (g : HeadSt → HeadSt) : (s.onHead h g).fstore = s.fstore := rfl
@[simp] theorem State.onHead_work (s : State) (h : Nat) (g : HeadSt → HeadSt) : (s.onHead h g).work = s.work := rfl
@[simp] theorem State.onHead_nvsMem (s : State) (h : Nat) (g : HeadSt → HeadSt) : (s.onHead h g).nvsMem = s.nvsMem := rfl
@[simp] theorem State.onHead_cflash (s : State) (h : Nat) (g : HeadSt → HeadSt) : (s.onHead h g).cflash = s.cflash := rfl
@[simp] theorem State.onHead_hostMem (s : State) (h : Nat) (g : HeadSt → HeadSt) : (s.onHead h g).hostMem = s.hostMem := rfl
@[simp] theorem State.onHead_out (s : State) (h : Nat) (g : HeadSt → HeadSt) : (s.onHead h g).out = s.out := rfl
@[simp] theorem State.onHead_pending (s : State) (h : Nat) (g : HeadSt → HeadSt) : (s.onHead h g).pending = s.pending := rfl

/-! `onLay` changes `hed`. -/

@[simp] theorem State.onLay_regs (s : State) (h k : Nat) (g : LaySt → LaySt) : (s.onLay h k g).regs = s.regs := rfl
@[simp] theorem State.onLay_shadow (s : State) (h k : Nat) (g : LaySt → LaySt) : (s.onLay h k g).shadow = s.shadow := rfl
@[simp] theorem State.onLay_clock (s : State) (h k : Nat) (g : LaySt → LaySt) : (s.onLay h k g).clock = s.clock := rfl
@[simp] theorem State.onLay_pins (s : State) (h k : Nat) (g : LaySt → LaySt) : (s.onLay h k g).pins = s.pins := rfl
@[simp] theorem State.onLay_loader (s : State) (h k : Nat) (g : LaySt → LaySt) : (s.onLay h k g).loader = s.loader := rfl
@[simp] theorem State.onLay_cox (s : State) (h k : Nat) (g : LaySt → LaySt) : (s.onLay h k g).cox = s.cox := rfl
@[simp] theorem State.onLay_syn (s : State) (h k : Nat) (g : LaySt → LaySt) : (s.onLay h k g).syn = s.syn := rfl
@[simp] theorem State.onLay_prt (s : State) (h k : Nat) (g : LaySt → LaySt) : (s.onLay h k g).prt = s.prt := rfl
@[simp] theorem State.onLay_xtb (s : State) (h k : Nat) (g : LaySt → LaySt) : (s.onLay h k g).xtb = s.xtb := rfl
@[simp] theorem State.onLay_que (s : State) (h k : Nat) (g : LaySt → LaySt) : (s.onLay h k g).que = s.que := rfl
@[simp] theorem State.onLay_slips (s : State) (h k : Nat) (g : LaySt → LaySt) : (s.onLay h k g).slips = s.slips := rfl
@[simp] theorem State.onLay_jik (s : State) (h k : Nat) (g : LaySt → LaySt) : (s.onLay h k g).jik = s.jik := rfl
@[simp] theorem State.onLay_egr (s : State) (h k : Nat) (g : LaySt → LaySt) : (s.onLay h k g).egr = s.egr := rfl
@[simp] theorem State.onLay_aud (s : State) (h k : Nat) (g : LaySt → LaySt) : (s.onLay h k g).aud = s.aud := rfl
@[simp] theorem State.onLay_lgt (s : State) (h k : Nat) (g : LaySt → LaySt) : (s.onLay h k g).lgt = s.lgt := rfl
@[simp] theorem State.onLay_fld (s : State) (h k : Nat) (g : LaySt → LaySt) : (s.onLay h k g).fld = s.fld := rfl
@[simp] theorem State.onLay_keep (s : State) (h k : Nat) (g : LaySt → LaySt) : (s.onLay h k g).keep = s.keep := rfl
@[simp] theorem State.onLay_nvs (s : State) (h k : Nat) (g : LaySt → LaySt) : (s.onLay h k g).nvs = s.nvs := rfl
@[simp] theorem State.onLay_thm (s : State) (h k : Nat) (g : LaySt → LaySt) : (s.onLay h k g).thm = s.thm := rfl
@[simp] theorem State.onLay_pwr (s : State) (h k : Nat) (g : LaySt → LaySt) : (s.onLay h k g).pwr = s.pwr := rfl
@[simp] theorem State.onLay_quay (s : State) (h k : Nat) (g : LaySt → LaySt) : (s.onLay h k g).quay = s.quay := rfl
@[simp] theorem State.onLay_evt (s : State) (h k : Nat) (g : LaySt → LaySt) : (s.onLay h k g).evt = s.evt := rfl
@[simp] theorem State.onLay_fstore (s : State) (h k : Nat) (g : LaySt → LaySt) : (s.onLay h k g).fstore = s.fstore := rfl
@[simp] theorem State.onLay_work (s : State) (h k : Nat) (g : LaySt → LaySt) : (s.onLay h k g).work = s.work := rfl
@[simp] theorem State.onLay_nvsMem (s : State) (h k : Nat) (g : LaySt → LaySt) : (s.onLay h k g).nvsMem = s.nvsMem := rfl
@[simp] theorem State.onLay_cflash (s : State) (h k : Nat) (g : LaySt → LaySt) : (s.onLay h k g).cflash = s.cflash := rfl
@[simp] theorem State.onLay_hostMem (s : State) (h k : Nat) (g : LaySt → LaySt) : (s.onLay h k g).hostMem = s.hostMem := rfl
@[simp] theorem State.onLay_out (s : State) (h k : Nat) (g : LaySt → LaySt) : (s.onLay h k g).out = s.out := rfl
@[simp] theorem State.onLay_pending (s : State) (h k : Nat) (g : LaySt → LaySt) : (s.onLay h k g).pending = s.pending := rfl

/-! `onEgress` changes `egr`. -/

@[simp] theorem State.onEgress_regs (s : State) (i : Nat) (g : EgrSt → EgrSt) : (s.onEgress i g).regs = s.regs := rfl
@[simp] theorem State.onEgress_shadow (s : State) (i : Nat) (g : EgrSt → EgrSt) : (s.onEgress i g).shadow = s.shadow := rfl
@[simp] theorem State.onEgress_clock (s : State) (i : Nat) (g : EgrSt → EgrSt) : (s.onEgress i g).clock = s.clock := rfl
@[simp] theorem State.onEgress_pins (s : State) (i : Nat) (g : EgrSt → EgrSt) : (s.onEgress i g).pins = s.pins := rfl
@[simp] theorem State.onEgress_loader (s : State) (i : Nat) (g : EgrSt → EgrSt) : (s.onEgress i g).loader = s.loader := rfl
@[simp] theorem State.onEgress_cox (s : State) (i : Nat) (g : EgrSt → EgrSt) : (s.onEgress i g).cox = s.cox := rfl
@[simp] theorem State.onEgress_syn (s : State) (i : Nat) (g : EgrSt → EgrSt) : (s.onEgress i g).syn = s.syn := rfl
@[simp] theorem State.onEgress_prt (s : State) (i : Nat) (g : EgrSt → EgrSt) : (s.onEgress i g).prt = s.prt := rfl
@[simp] theorem State.onEgress_xtb (s : State) (i : Nat) (g : EgrSt → EgrSt) : (s.onEgress i g).xtb = s.xtb := rfl
@[simp] theorem State.onEgress_que (s : State) (i : Nat) (g : EgrSt → EgrSt) : (s.onEgress i g).que = s.que := rfl
@[simp] theorem State.onEgress_slips (s : State) (i : Nat) (g : EgrSt → EgrSt) : (s.onEgress i g).slips = s.slips := rfl
@[simp] theorem State.onEgress_jik (s : State) (i : Nat) (g : EgrSt → EgrSt) : (s.onEgress i g).jik = s.jik := rfl
@[simp] theorem State.onEgress_hed (s : State) (i : Nat) (g : EgrSt → EgrSt) : (s.onEgress i g).hed = s.hed := rfl
@[simp] theorem State.onEgress_aud (s : State) (i : Nat) (g : EgrSt → EgrSt) : (s.onEgress i g).aud = s.aud := rfl
@[simp] theorem State.onEgress_lgt (s : State) (i : Nat) (g : EgrSt → EgrSt) : (s.onEgress i g).lgt = s.lgt := rfl
@[simp] theorem State.onEgress_fld (s : State) (i : Nat) (g : EgrSt → EgrSt) : (s.onEgress i g).fld = s.fld := rfl
@[simp] theorem State.onEgress_keep (s : State) (i : Nat) (g : EgrSt → EgrSt) : (s.onEgress i g).keep = s.keep := rfl
@[simp] theorem State.onEgress_nvs (s : State) (i : Nat) (g : EgrSt → EgrSt) : (s.onEgress i g).nvs = s.nvs := rfl
@[simp] theorem State.onEgress_thm (s : State) (i : Nat) (g : EgrSt → EgrSt) : (s.onEgress i g).thm = s.thm := rfl
@[simp] theorem State.onEgress_pwr (s : State) (i : Nat) (g : EgrSt → EgrSt) : (s.onEgress i g).pwr = s.pwr := rfl
@[simp] theorem State.onEgress_quay (s : State) (i : Nat) (g : EgrSt → EgrSt) : (s.onEgress i g).quay = s.quay := rfl
@[simp] theorem State.onEgress_evt (s : State) (i : Nat) (g : EgrSt → EgrSt) : (s.onEgress i g).evt = s.evt := rfl
@[simp] theorem State.onEgress_fstore (s : State) (i : Nat) (g : EgrSt → EgrSt) : (s.onEgress i g).fstore = s.fstore := rfl
@[simp] theorem State.onEgress_work (s : State) (i : Nat) (g : EgrSt → EgrSt) : (s.onEgress i g).work = s.work := rfl
@[simp] theorem State.onEgress_nvsMem (s : State) (i : Nat) (g : EgrSt → EgrSt) : (s.onEgress i g).nvsMem = s.nvsMem := rfl
@[simp] theorem State.onEgress_cflash (s : State) (i : Nat) (g : EgrSt → EgrSt) : (s.onEgress i g).cflash = s.cflash := rfl
@[simp] theorem State.onEgress_hostMem (s : State) (i : Nat) (g : EgrSt → EgrSt) : (s.onEgress i g).hostMem = s.hostMem := rfl
@[simp] theorem State.onEgress_out (s : State) (i : Nat) (g : EgrSt → EgrSt) : (s.onEgress i g).out = s.out := rfl
@[simp] theorem State.onEgress_pending (s : State) (i : Nat) (g : EgrSt → EgrSt) : (s.onEgress i g).pending = s.pending := rfl

/-! `onAud` changes `aud`. -/

@[simp] theorem State.onAud_aud (s : State) (g : AudSt → AudSt) : (s.onAud g).aud = g s.aud := rfl
@[simp] theorem State.onAud_regs (s : State) (g : AudSt → AudSt) : (s.onAud g).regs = s.regs := rfl
@[simp] theorem State.onAud_shadow (s : State) (g : AudSt → AudSt) : (s.onAud g).shadow = s.shadow := rfl
@[simp] theorem State.onAud_clock (s : State) (g : AudSt → AudSt) : (s.onAud g).clock = s.clock := rfl
@[simp] theorem State.onAud_pins (s : State) (g : AudSt → AudSt) : (s.onAud g).pins = s.pins := rfl
@[simp] theorem State.onAud_loader (s : State) (g : AudSt → AudSt) : (s.onAud g).loader = s.loader := rfl
@[simp] theorem State.onAud_cox (s : State) (g : AudSt → AudSt) : (s.onAud g).cox = s.cox := rfl
@[simp] theorem State.onAud_syn (s : State) (g : AudSt → AudSt) : (s.onAud g).syn = s.syn := rfl
@[simp] theorem State.onAud_prt (s : State) (g : AudSt → AudSt) : (s.onAud g).prt = s.prt := rfl
@[simp] theorem State.onAud_xtb (s : State) (g : AudSt → AudSt) : (s.onAud g).xtb = s.xtb := rfl
@[simp] theorem State.onAud_que (s : State) (g : AudSt → AudSt) : (s.onAud g).que = s.que := rfl
@[simp] theorem State.onAud_slips (s : State) (g : AudSt → AudSt) : (s.onAud g).slips = s.slips := rfl
@[simp] theorem State.onAud_jik (s : State) (g : AudSt → AudSt) : (s.onAud g).jik = s.jik := rfl
@[simp] theorem State.onAud_hed (s : State) (g : AudSt → AudSt) : (s.onAud g).hed = s.hed := rfl
@[simp] theorem State.onAud_egr (s : State) (g : AudSt → AudSt) : (s.onAud g).egr = s.egr := rfl
@[simp] theorem State.onAud_lgt (s : State) (g : AudSt → AudSt) : (s.onAud g).lgt = s.lgt := rfl
@[simp] theorem State.onAud_fld (s : State) (g : AudSt → AudSt) : (s.onAud g).fld = s.fld := rfl
@[simp] theorem State.onAud_keep (s : State) (g : AudSt → AudSt) : (s.onAud g).keep = s.keep := rfl
@[simp] theorem State.onAud_nvs (s : State) (g : AudSt → AudSt) : (s.onAud g).nvs = s.nvs := rfl
@[simp] theorem State.onAud_thm (s : State) (g : AudSt → AudSt) : (s.onAud g).thm = s.thm := rfl
@[simp] theorem State.onAud_pwr (s : State) (g : AudSt → AudSt) : (s.onAud g).pwr = s.pwr := rfl
@[simp] theorem State.onAud_quay (s : State) (g : AudSt → AudSt) : (s.onAud g).quay = s.quay := rfl
@[simp] theorem State.onAud_evt (s : State) (g : AudSt → AudSt) : (s.onAud g).evt = s.evt := rfl
@[simp] theorem State.onAud_fstore (s : State) (g : AudSt → AudSt) : (s.onAud g).fstore = s.fstore := rfl
@[simp] theorem State.onAud_work (s : State) (g : AudSt → AudSt) : (s.onAud g).work = s.work := rfl
@[simp] theorem State.onAud_nvsMem (s : State) (g : AudSt → AudSt) : (s.onAud g).nvsMem = s.nvsMem := rfl
@[simp] theorem State.onAud_cflash (s : State) (g : AudSt → AudSt) : (s.onAud g).cflash = s.cflash := rfl
@[simp] theorem State.onAud_hostMem (s : State) (g : AudSt → AudSt) : (s.onAud g).hostMem = s.hostMem := rfl
@[simp] theorem State.onAud_out (s : State) (g : AudSt → AudSt) : (s.onAud g).out = s.out := rfl
@[simp] theorem State.onAud_pending (s : State) (g : AudSt → AudSt) : (s.onAud g).pending = s.pending := rfl

/-! `onAudIn` changes `aud`. -/

@[simp] theorem State.onAudIn_regs (s : State) (i : Nat) (g : AudIn → AudIn) : (s.onAudIn i g).regs = s.regs := rfl
@[simp] theorem State.onAudIn_shadow (s : State) (i : Nat) (g : AudIn → AudIn) : (s.onAudIn i g).shadow = s.shadow := rfl
@[simp] theorem State.onAudIn_clock (s : State) (i : Nat) (g : AudIn → AudIn) : (s.onAudIn i g).clock = s.clock := rfl
@[simp] theorem State.onAudIn_pins (s : State) (i : Nat) (g : AudIn → AudIn) : (s.onAudIn i g).pins = s.pins := rfl
@[simp] theorem State.onAudIn_loader (s : State) (i : Nat) (g : AudIn → AudIn) : (s.onAudIn i g).loader = s.loader := rfl
@[simp] theorem State.onAudIn_cox (s : State) (i : Nat) (g : AudIn → AudIn) : (s.onAudIn i g).cox = s.cox := rfl
@[simp] theorem State.onAudIn_syn (s : State) (i : Nat) (g : AudIn → AudIn) : (s.onAudIn i g).syn = s.syn := rfl
@[simp] theorem State.onAudIn_prt (s : State) (i : Nat) (g : AudIn → AudIn) : (s.onAudIn i g).prt = s.prt := rfl
@[simp] theorem State.onAudIn_xtb (s : State) (i : Nat) (g : AudIn → AudIn) : (s.onAudIn i g).xtb = s.xtb := rfl
@[simp] theorem State.onAudIn_que (s : State) (i : Nat) (g : AudIn → AudIn) : (s.onAudIn i g).que = s.que := rfl
@[simp] theorem State.onAudIn_slips (s : State) (i : Nat) (g : AudIn → AudIn) : (s.onAudIn i g).slips = s.slips := rfl
@[simp] theorem State.onAudIn_jik (s : State) (i : Nat) (g : AudIn → AudIn) : (s.onAudIn i g).jik = s.jik := rfl
@[simp] theorem State.onAudIn_hed (s : State) (i : Nat) (g : AudIn → AudIn) : (s.onAudIn i g).hed = s.hed := rfl
@[simp] theorem State.onAudIn_egr (s : State) (i : Nat) (g : AudIn → AudIn) : (s.onAudIn i g).egr = s.egr := rfl
@[simp] theorem State.onAudIn_lgt (s : State) (i : Nat) (g : AudIn → AudIn) : (s.onAudIn i g).lgt = s.lgt := rfl
@[simp] theorem State.onAudIn_fld (s : State) (i : Nat) (g : AudIn → AudIn) : (s.onAudIn i g).fld = s.fld := rfl
@[simp] theorem State.onAudIn_keep (s : State) (i : Nat) (g : AudIn → AudIn) : (s.onAudIn i g).keep = s.keep := rfl
@[simp] theorem State.onAudIn_nvs (s : State) (i : Nat) (g : AudIn → AudIn) : (s.onAudIn i g).nvs = s.nvs := rfl
@[simp] theorem State.onAudIn_thm (s : State) (i : Nat) (g : AudIn → AudIn) : (s.onAudIn i g).thm = s.thm := rfl
@[simp] theorem State.onAudIn_pwr (s : State) (i : Nat) (g : AudIn → AudIn) : (s.onAudIn i g).pwr = s.pwr := rfl
@[simp] theorem State.onAudIn_quay (s : State) (i : Nat) (g : AudIn → AudIn) : (s.onAudIn i g).quay = s.quay := rfl
@[simp] theorem State.onAudIn_evt (s : State) (i : Nat) (g : AudIn → AudIn) : (s.onAudIn i g).evt = s.evt := rfl
@[simp] theorem State.onAudIn_fstore (s : State) (i : Nat) (g : AudIn → AudIn) : (s.onAudIn i g).fstore = s.fstore := rfl
@[simp] theorem State.onAudIn_work (s : State) (i : Nat) (g : AudIn → AudIn) : (s.onAudIn i g).work = s.work := rfl
@[simp] theorem State.onAudIn_nvsMem (s : State) (i : Nat) (g : AudIn → AudIn) : (s.onAudIn i g).nvsMem = s.nvsMem := rfl
@[simp] theorem State.onAudIn_cflash (s : State) (i : Nat) (g : AudIn → AudIn) : (s.onAudIn i g).cflash = s.cflash := rfl
@[simp] theorem State.onAudIn_hostMem (s : State) (i : Nat) (g : AudIn → AudIn) : (s.onAudIn i g).hostMem = s.hostMem := rfl
@[simp] theorem State.onAudIn_out (s : State) (i : Nat) (g : AudIn → AudIn) : (s.onAudIn i g).out = s.out := rfl
@[simp] theorem State.onAudIn_pending (s : State) (i : Nat) (g : AudIn → AudIn) : (s.onAudIn i g).pending = s.pending := rfl

/-! `onChime` changes `aud`. -/

@[simp] theorem State.onChime_regs (s : State) (c : Nat) (g : ChimeSt → ChimeSt) : (s.onChime c g).regs = s.regs := rfl
@[simp] theorem State.onChime_shadow (s : State) (c : Nat) (g : ChimeSt → ChimeSt) : (s.onChime c g).shadow = s.shadow := rfl
@[simp] theorem State.onChime_clock (s : State) (c : Nat) (g : ChimeSt → ChimeSt) : (s.onChime c g).clock = s.clock := rfl
@[simp] theorem State.onChime_pins (s : State) (c : Nat) (g : ChimeSt → ChimeSt) : (s.onChime c g).pins = s.pins := rfl
@[simp] theorem State.onChime_loader (s : State) (c : Nat) (g : ChimeSt → ChimeSt) : (s.onChime c g).loader = s.loader := rfl
@[simp] theorem State.onChime_cox (s : State) (c : Nat) (g : ChimeSt → ChimeSt) : (s.onChime c g).cox = s.cox := rfl
@[simp] theorem State.onChime_syn (s : State) (c : Nat) (g : ChimeSt → ChimeSt) : (s.onChime c g).syn = s.syn := rfl
@[simp] theorem State.onChime_prt (s : State) (c : Nat) (g : ChimeSt → ChimeSt) : (s.onChime c g).prt = s.prt := rfl
@[simp] theorem State.onChime_xtb (s : State) (c : Nat) (g : ChimeSt → ChimeSt) : (s.onChime c g).xtb = s.xtb := rfl
@[simp] theorem State.onChime_que (s : State) (c : Nat) (g : ChimeSt → ChimeSt) : (s.onChime c g).que = s.que := rfl
@[simp] theorem State.onChime_slips (s : State) (c : Nat) (g : ChimeSt → ChimeSt) : (s.onChime c g).slips = s.slips := rfl
@[simp] theorem State.onChime_jik (s : State) (c : Nat) (g : ChimeSt → ChimeSt) : (s.onChime c g).jik = s.jik := rfl
@[simp] theorem State.onChime_hed (s : State) (c : Nat) (g : ChimeSt → ChimeSt) : (s.onChime c g).hed = s.hed := rfl
@[simp] theorem State.onChime_egr (s : State) (c : Nat) (g : ChimeSt → ChimeSt) : (s.onChime c g).egr = s.egr := rfl
@[simp] theorem State.onChime_lgt (s : State) (c : Nat) (g : ChimeSt → ChimeSt) : (s.onChime c g).lgt = s.lgt := rfl
@[simp] theorem State.onChime_fld (s : State) (c : Nat) (g : ChimeSt → ChimeSt) : (s.onChime c g).fld = s.fld := rfl
@[simp] theorem State.onChime_keep (s : State) (c : Nat) (g : ChimeSt → ChimeSt) : (s.onChime c g).keep = s.keep := rfl
@[simp] theorem State.onChime_nvs (s : State) (c : Nat) (g : ChimeSt → ChimeSt) : (s.onChime c g).nvs = s.nvs := rfl
@[simp] theorem State.onChime_thm (s : State) (c : Nat) (g : ChimeSt → ChimeSt) : (s.onChime c g).thm = s.thm := rfl
@[simp] theorem State.onChime_pwr (s : State) (c : Nat) (g : ChimeSt → ChimeSt) : (s.onChime c g).pwr = s.pwr := rfl
@[simp] theorem State.onChime_quay (s : State) (c : Nat) (g : ChimeSt → ChimeSt) : (s.onChime c g).quay = s.quay := rfl
@[simp] theorem State.onChime_evt (s : State) (c : Nat) (g : ChimeSt → ChimeSt) : (s.onChime c g).evt = s.evt := rfl
@[simp] theorem State.onChime_fstore (s : State) (c : Nat) (g : ChimeSt → ChimeSt) : (s.onChime c g).fstore = s.fstore := rfl
@[simp] theorem State.onChime_work (s : State) (c : Nat) (g : ChimeSt → ChimeSt) : (s.onChime c g).work = s.work := rfl
@[simp] theorem State.onChime_nvsMem (s : State) (c : Nat) (g : ChimeSt → ChimeSt) : (s.onChime c g).nvsMem = s.nvsMem := rfl
@[simp] theorem State.onChime_cflash (s : State) (c : Nat) (g : ChimeSt → ChimeSt) : (s.onChime c g).cflash = s.cflash := rfl
@[simp] theorem State.onChime_hostMem (s : State) (c : Nat) (g : ChimeSt → ChimeSt) : (s.onChime c g).hostMem = s.hostMem := rfl
@[simp] theorem State.onChime_out (s : State) (c : Nat) (g : ChimeSt → ChimeSt) : (s.onChime c g).out = s.out := rfl
@[simp] theorem State.onChime_pending (s : State) (c : Nat) (g : ChimeSt → ChimeSt) : (s.onChime c g).pending = s.pending := rfl

/-! `onLgt` changes `lgt`. -/

@[simp] theorem State.onLgt_lgt (s : State) (g : LgtSt → LgtSt) : (s.onLgt g).lgt = g s.lgt := rfl
@[simp] theorem State.onLgt_regs (s : State) (g : LgtSt → LgtSt) : (s.onLgt g).regs = s.regs := rfl
@[simp] theorem State.onLgt_shadow (s : State) (g : LgtSt → LgtSt) : (s.onLgt g).shadow = s.shadow := rfl
@[simp] theorem State.onLgt_clock (s : State) (g : LgtSt → LgtSt) : (s.onLgt g).clock = s.clock := rfl
@[simp] theorem State.onLgt_pins (s : State) (g : LgtSt → LgtSt) : (s.onLgt g).pins = s.pins := rfl
@[simp] theorem State.onLgt_loader (s : State) (g : LgtSt → LgtSt) : (s.onLgt g).loader = s.loader := rfl
@[simp] theorem State.onLgt_cox (s : State) (g : LgtSt → LgtSt) : (s.onLgt g).cox = s.cox := rfl
@[simp] theorem State.onLgt_syn (s : State) (g : LgtSt → LgtSt) : (s.onLgt g).syn = s.syn := rfl
@[simp] theorem State.onLgt_prt (s : State) (g : LgtSt → LgtSt) : (s.onLgt g).prt = s.prt := rfl
@[simp] theorem State.onLgt_xtb (s : State) (g : LgtSt → LgtSt) : (s.onLgt g).xtb = s.xtb := rfl
@[simp] theorem State.onLgt_que (s : State) (g : LgtSt → LgtSt) : (s.onLgt g).que = s.que := rfl
@[simp] theorem State.onLgt_slips (s : State) (g : LgtSt → LgtSt) : (s.onLgt g).slips = s.slips := rfl
@[simp] theorem State.onLgt_jik (s : State) (g : LgtSt → LgtSt) : (s.onLgt g).jik = s.jik := rfl
@[simp] theorem State.onLgt_hed (s : State) (g : LgtSt → LgtSt) : (s.onLgt g).hed = s.hed := rfl
@[simp] theorem State.onLgt_egr (s : State) (g : LgtSt → LgtSt) : (s.onLgt g).egr = s.egr := rfl
@[simp] theorem State.onLgt_aud (s : State) (g : LgtSt → LgtSt) : (s.onLgt g).aud = s.aud := rfl
@[simp] theorem State.onLgt_fld (s : State) (g : LgtSt → LgtSt) : (s.onLgt g).fld = s.fld := rfl
@[simp] theorem State.onLgt_keep (s : State) (g : LgtSt → LgtSt) : (s.onLgt g).keep = s.keep := rfl
@[simp] theorem State.onLgt_nvs (s : State) (g : LgtSt → LgtSt) : (s.onLgt g).nvs = s.nvs := rfl
@[simp] theorem State.onLgt_thm (s : State) (g : LgtSt → LgtSt) : (s.onLgt g).thm = s.thm := rfl
@[simp] theorem State.onLgt_pwr (s : State) (g : LgtSt → LgtSt) : (s.onLgt g).pwr = s.pwr := rfl
@[simp] theorem State.onLgt_quay (s : State) (g : LgtSt → LgtSt) : (s.onLgt g).quay = s.quay := rfl
@[simp] theorem State.onLgt_evt (s : State) (g : LgtSt → LgtSt) : (s.onLgt g).evt = s.evt := rfl
@[simp] theorem State.onLgt_fstore (s : State) (g : LgtSt → LgtSt) : (s.onLgt g).fstore = s.fstore := rfl
@[simp] theorem State.onLgt_work (s : State) (g : LgtSt → LgtSt) : (s.onLgt g).work = s.work := rfl
@[simp] theorem State.onLgt_nvsMem (s : State) (g : LgtSt → LgtSt) : (s.onLgt g).nvsMem = s.nvsMem := rfl
@[simp] theorem State.onLgt_cflash (s : State) (g : LgtSt → LgtSt) : (s.onLgt g).cflash = s.cflash := rfl
@[simp] theorem State.onLgt_hostMem (s : State) (g : LgtSt → LgtSt) : (s.onLgt g).hostMem = s.hostMem := rfl
@[simp] theorem State.onLgt_out (s : State) (g : LgtSt → LgtSt) : (s.onLgt g).out = s.out := rfl
@[simp] theorem State.onLgt_pending (s : State) (g : LgtSt → LgtSt) : (s.onLgt g).pending = s.pending := rfl

/-! `onFld` changes `fld`. -/

@[simp] theorem State.onFld_fld (s : State) (g : FldSt → FldSt) : (s.onFld g).fld = g s.fld := rfl
@[simp] theorem State.onFld_regs (s : State) (g : FldSt → FldSt) : (s.onFld g).regs = s.regs := rfl
@[simp] theorem State.onFld_shadow (s : State) (g : FldSt → FldSt) : (s.onFld g).shadow = s.shadow := rfl
@[simp] theorem State.onFld_clock (s : State) (g : FldSt → FldSt) : (s.onFld g).clock = s.clock := rfl
@[simp] theorem State.onFld_pins (s : State) (g : FldSt → FldSt) : (s.onFld g).pins = s.pins := rfl
@[simp] theorem State.onFld_loader (s : State) (g : FldSt → FldSt) : (s.onFld g).loader = s.loader := rfl
@[simp] theorem State.onFld_cox (s : State) (g : FldSt → FldSt) : (s.onFld g).cox = s.cox := rfl
@[simp] theorem State.onFld_syn (s : State) (g : FldSt → FldSt) : (s.onFld g).syn = s.syn := rfl
@[simp] theorem State.onFld_prt (s : State) (g : FldSt → FldSt) : (s.onFld g).prt = s.prt := rfl
@[simp] theorem State.onFld_xtb (s : State) (g : FldSt → FldSt) : (s.onFld g).xtb = s.xtb := rfl
@[simp] theorem State.onFld_que (s : State) (g : FldSt → FldSt) : (s.onFld g).que = s.que := rfl
@[simp] theorem State.onFld_slips (s : State) (g : FldSt → FldSt) : (s.onFld g).slips = s.slips := rfl
@[simp] theorem State.onFld_jik (s : State) (g : FldSt → FldSt) : (s.onFld g).jik = s.jik := rfl
@[simp] theorem State.onFld_hed (s : State) (g : FldSt → FldSt) : (s.onFld g).hed = s.hed := rfl
@[simp] theorem State.onFld_egr (s : State) (g : FldSt → FldSt) : (s.onFld g).egr = s.egr := rfl
@[simp] theorem State.onFld_aud (s : State) (g : FldSt → FldSt) : (s.onFld g).aud = s.aud := rfl
@[simp] theorem State.onFld_lgt (s : State) (g : FldSt → FldSt) : (s.onFld g).lgt = s.lgt := rfl
@[simp] theorem State.onFld_keep (s : State) (g : FldSt → FldSt) : (s.onFld g).keep = s.keep := rfl
@[simp] theorem State.onFld_nvs (s : State) (g : FldSt → FldSt) : (s.onFld g).nvs = s.nvs := rfl
@[simp] theorem State.onFld_thm (s : State) (g : FldSt → FldSt) : (s.onFld g).thm = s.thm := rfl
@[simp] theorem State.onFld_pwr (s : State) (g : FldSt → FldSt) : (s.onFld g).pwr = s.pwr := rfl
@[simp] theorem State.onFld_quay (s : State) (g : FldSt → FldSt) : (s.onFld g).quay = s.quay := rfl
@[simp] theorem State.onFld_evt (s : State) (g : FldSt → FldSt) : (s.onFld g).evt = s.evt := rfl
@[simp] theorem State.onFld_fstore (s : State) (g : FldSt → FldSt) : (s.onFld g).fstore = s.fstore := rfl
@[simp] theorem State.onFld_work (s : State) (g : FldSt → FldSt) : (s.onFld g).work = s.work := rfl
@[simp] theorem State.onFld_nvsMem (s : State) (g : FldSt → FldSt) : (s.onFld g).nvsMem = s.nvsMem := rfl
@[simp] theorem State.onFld_cflash (s : State) (g : FldSt → FldSt) : (s.onFld g).cflash = s.cflash := rfl
@[simp] theorem State.onFld_hostMem (s : State) (g : FldSt → FldSt) : (s.onFld g).hostMem = s.hostMem := rfl
@[simp] theorem State.onFld_out (s : State) (g : FldSt → FldSt) : (s.onFld g).out = s.out := rfl
@[simp] theorem State.onFld_pending (s : State) (g : FldSt → FldSt) : (s.onFld g).pending = s.pending := rfl

/-! `setUnit` changes `fld`. -/

@[simp] theorem State.setUnit_regs (s : State) (u : Nat) (x : UnitSt) : (s.setUnit u x).regs = s.regs := rfl
@[simp] theorem State.setUnit_shadow (s : State) (u : Nat) (x : UnitSt) : (s.setUnit u x).shadow = s.shadow := rfl
@[simp] theorem State.setUnit_clock (s : State) (u : Nat) (x : UnitSt) : (s.setUnit u x).clock = s.clock := rfl
@[simp] theorem State.setUnit_pins (s : State) (u : Nat) (x : UnitSt) : (s.setUnit u x).pins = s.pins := rfl
@[simp] theorem State.setUnit_loader (s : State) (u : Nat) (x : UnitSt) : (s.setUnit u x).loader = s.loader := rfl
@[simp] theorem State.setUnit_cox (s : State) (u : Nat) (x : UnitSt) : (s.setUnit u x).cox = s.cox := rfl
@[simp] theorem State.setUnit_syn (s : State) (u : Nat) (x : UnitSt) : (s.setUnit u x).syn = s.syn := rfl
@[simp] theorem State.setUnit_prt (s : State) (u : Nat) (x : UnitSt) : (s.setUnit u x).prt = s.prt := rfl
@[simp] theorem State.setUnit_xtb (s : State) (u : Nat) (x : UnitSt) : (s.setUnit u x).xtb = s.xtb := rfl
@[simp] theorem State.setUnit_que (s : State) (u : Nat) (x : UnitSt) : (s.setUnit u x).que = s.que := rfl
@[simp] theorem State.setUnit_slips (s : State) (u : Nat) (x : UnitSt) : (s.setUnit u x).slips = s.slips := rfl
@[simp] theorem State.setUnit_jik (s : State) (u : Nat) (x : UnitSt) : (s.setUnit u x).jik = s.jik := rfl
@[simp] theorem State.setUnit_hed (s : State) (u : Nat) (x : UnitSt) : (s.setUnit u x).hed = s.hed := rfl
@[simp] theorem State.setUnit_egr (s : State) (u : Nat) (x : UnitSt) : (s.setUnit u x).egr = s.egr := rfl
@[simp] theorem State.setUnit_aud (s : State) (u : Nat) (x : UnitSt) : (s.setUnit u x).aud = s.aud := rfl
@[simp] theorem State.setUnit_lgt (s : State) (u : Nat) (x : UnitSt) : (s.setUnit u x).lgt = s.lgt := rfl
@[simp] theorem State.setUnit_keep (s : State) (u : Nat) (x : UnitSt) : (s.setUnit u x).keep = s.keep := rfl
@[simp] theorem State.setUnit_nvs (s : State) (u : Nat) (x : UnitSt) : (s.setUnit u x).nvs = s.nvs := rfl
@[simp] theorem State.setUnit_thm (s : State) (u : Nat) (x : UnitSt) : (s.setUnit u x).thm = s.thm := rfl
@[simp] theorem State.setUnit_pwr (s : State) (u : Nat) (x : UnitSt) : (s.setUnit u x).pwr = s.pwr := rfl
@[simp] theorem State.setUnit_quay (s : State) (u : Nat) (x : UnitSt) : (s.setUnit u x).quay = s.quay := rfl
@[simp] theorem State.setUnit_evt (s : State) (u : Nat) (x : UnitSt) : (s.setUnit u x).evt = s.evt := rfl
@[simp] theorem State.setUnit_fstore (s : State) (u : Nat) (x : UnitSt) : (s.setUnit u x).fstore = s.fstore := rfl
@[simp] theorem State.setUnit_work (s : State) (u : Nat) (x : UnitSt) : (s.setUnit u x).work = s.work := rfl
@[simp] theorem State.setUnit_nvsMem (s : State) (u : Nat) (x : UnitSt) : (s.setUnit u x).nvsMem = s.nvsMem := rfl
@[simp] theorem State.setUnit_cflash (s : State) (u : Nat) (x : UnitSt) : (s.setUnit u x).cflash = s.cflash := rfl
@[simp] theorem State.setUnit_hostMem (s : State) (u : Nat) (x : UnitSt) : (s.setUnit u x).hostMem = s.hostMem := rfl
@[simp] theorem State.setUnit_out (s : State) (u : Nat) (x : UnitSt) : (s.setUnit u x).out = s.out := rfl
@[simp] theorem State.setUnit_pending (s : State) (u : Nat) (x : UnitSt) : (s.setUnit u x).pending = s.pending := rfl

/-! `setLedger` changes `keep`. -/

@[simp] theorem State.setLedger_regs (s : State) (k : Nat) (l : Ledger) : (s.setLedger k l).regs = s.regs := rfl
@[simp] theorem State.setLedger_shadow (s : State) (k : Nat) (l : Ledger) : (s.setLedger k l).shadow = s.shadow := rfl
@[simp] theorem State.setLedger_clock (s : State) (k : Nat) (l : Ledger) : (s.setLedger k l).clock = s.clock := rfl
@[simp] theorem State.setLedger_pins (s : State) (k : Nat) (l : Ledger) : (s.setLedger k l).pins = s.pins := rfl
@[simp] theorem State.setLedger_loader (s : State) (k : Nat) (l : Ledger) : (s.setLedger k l).loader = s.loader := rfl
@[simp] theorem State.setLedger_cox (s : State) (k : Nat) (l : Ledger) : (s.setLedger k l).cox = s.cox := rfl
@[simp] theorem State.setLedger_syn (s : State) (k : Nat) (l : Ledger) : (s.setLedger k l).syn = s.syn := rfl
@[simp] theorem State.setLedger_prt (s : State) (k : Nat) (l : Ledger) : (s.setLedger k l).prt = s.prt := rfl
@[simp] theorem State.setLedger_xtb (s : State) (k : Nat) (l : Ledger) : (s.setLedger k l).xtb = s.xtb := rfl
@[simp] theorem State.setLedger_que (s : State) (k : Nat) (l : Ledger) : (s.setLedger k l).que = s.que := rfl
@[simp] theorem State.setLedger_slips (s : State) (k : Nat) (l : Ledger) : (s.setLedger k l).slips = s.slips := rfl
@[simp] theorem State.setLedger_jik (s : State) (k : Nat) (l : Ledger) : (s.setLedger k l).jik = s.jik := rfl
@[simp] theorem State.setLedger_hed (s : State) (k : Nat) (l : Ledger) : (s.setLedger k l).hed = s.hed := rfl
@[simp] theorem State.setLedger_egr (s : State) (k : Nat) (l : Ledger) : (s.setLedger k l).egr = s.egr := rfl
@[simp] theorem State.setLedger_aud (s : State) (k : Nat) (l : Ledger) : (s.setLedger k l).aud = s.aud := rfl
@[simp] theorem State.setLedger_lgt (s : State) (k : Nat) (l : Ledger) : (s.setLedger k l).lgt = s.lgt := rfl
@[simp] theorem State.setLedger_fld (s : State) (k : Nat) (l : Ledger) : (s.setLedger k l).fld = s.fld := rfl
@[simp] theorem State.setLedger_nvs (s : State) (k : Nat) (l : Ledger) : (s.setLedger k l).nvs = s.nvs := rfl
@[simp] theorem State.setLedger_thm (s : State) (k : Nat) (l : Ledger) : (s.setLedger k l).thm = s.thm := rfl
@[simp] theorem State.setLedger_pwr (s : State) (k : Nat) (l : Ledger) : (s.setLedger k l).pwr = s.pwr := rfl
@[simp] theorem State.setLedger_quay (s : State) (k : Nat) (l : Ledger) : (s.setLedger k l).quay = s.quay := rfl
@[simp] theorem State.setLedger_evt (s : State) (k : Nat) (l : Ledger) : (s.setLedger k l).evt = s.evt := rfl
@[simp] theorem State.setLedger_fstore (s : State) (k : Nat) (l : Ledger) : (s.setLedger k l).fstore = s.fstore := rfl
@[simp] theorem State.setLedger_work (s : State) (k : Nat) (l : Ledger) : (s.setLedger k l).work = s.work := rfl
@[simp] theorem State.setLedger_nvsMem (s : State) (k : Nat) (l : Ledger) : (s.setLedger k l).nvsMem = s.nvsMem := rfl
@[simp] theorem State.setLedger_cflash (s : State) (k : Nat) (l : Ledger) : (s.setLedger k l).cflash = s.cflash := rfl
@[simp] theorem State.setLedger_hostMem (s : State) (k : Nat) (l : Ledger) : (s.setLedger k l).hostMem = s.hostMem := rfl
@[simp] theorem State.setLedger_out (s : State) (k : Nat) (l : Ledger) : (s.setLedger k l).out = s.out := rfl
@[simp] theorem State.setLedger_pending (s : State) (k : Nat) (l : Ledger) : (s.setLedger k l).pending = s.pending := rfl

/-! `onNvs` changes `nvs`. -/

@[simp] theorem State.onNvs_nvs (s : State) (g : NvsSt → NvsSt) : (s.onNvs g).nvs = g s.nvs := rfl
@[simp] theorem State.onNvs_regs (s : State) (g : NvsSt → NvsSt) : (s.onNvs g).regs = s.regs := rfl
@[simp] theorem State.onNvs_shadow (s : State) (g : NvsSt → NvsSt) : (s.onNvs g).shadow = s.shadow := rfl
@[simp] theorem State.onNvs_clock (s : State) (g : NvsSt → NvsSt) : (s.onNvs g).clock = s.clock := rfl
@[simp] theorem State.onNvs_pins (s : State) (g : NvsSt → NvsSt) : (s.onNvs g).pins = s.pins := rfl
@[simp] theorem State.onNvs_loader (s : State) (g : NvsSt → NvsSt) : (s.onNvs g).loader = s.loader := rfl
@[simp] theorem State.onNvs_cox (s : State) (g : NvsSt → NvsSt) : (s.onNvs g).cox = s.cox := rfl
@[simp] theorem State.onNvs_syn (s : State) (g : NvsSt → NvsSt) : (s.onNvs g).syn = s.syn := rfl
@[simp] theorem State.onNvs_prt (s : State) (g : NvsSt → NvsSt) : (s.onNvs g).prt = s.prt := rfl
@[simp] theorem State.onNvs_xtb (s : State) (g : NvsSt → NvsSt) : (s.onNvs g).xtb = s.xtb := rfl
@[simp] theorem State.onNvs_que (s : State) (g : NvsSt → NvsSt) : (s.onNvs g).que = s.que := rfl
@[simp] theorem State.onNvs_slips (s : State) (g : NvsSt → NvsSt) : (s.onNvs g).slips = s.slips := rfl
@[simp] theorem State.onNvs_jik (s : State) (g : NvsSt → NvsSt) : (s.onNvs g).jik = s.jik := rfl
@[simp] theorem State.onNvs_hed (s : State) (g : NvsSt → NvsSt) : (s.onNvs g).hed = s.hed := rfl
@[simp] theorem State.onNvs_egr (s : State) (g : NvsSt → NvsSt) : (s.onNvs g).egr = s.egr := rfl
@[simp] theorem State.onNvs_aud (s : State) (g : NvsSt → NvsSt) : (s.onNvs g).aud = s.aud := rfl
@[simp] theorem State.onNvs_lgt (s : State) (g : NvsSt → NvsSt) : (s.onNvs g).lgt = s.lgt := rfl
@[simp] theorem State.onNvs_fld (s : State) (g : NvsSt → NvsSt) : (s.onNvs g).fld = s.fld := rfl
@[simp] theorem State.onNvs_keep (s : State) (g : NvsSt → NvsSt) : (s.onNvs g).keep = s.keep := rfl
@[simp] theorem State.onNvs_thm (s : State) (g : NvsSt → NvsSt) : (s.onNvs g).thm = s.thm := rfl
@[simp] theorem State.onNvs_pwr (s : State) (g : NvsSt → NvsSt) : (s.onNvs g).pwr = s.pwr := rfl
@[simp] theorem State.onNvs_quay (s : State) (g : NvsSt → NvsSt) : (s.onNvs g).quay = s.quay := rfl
@[simp] theorem State.onNvs_evt (s : State) (g : NvsSt → NvsSt) : (s.onNvs g).evt = s.evt := rfl
@[simp] theorem State.onNvs_fstore (s : State) (g : NvsSt → NvsSt) : (s.onNvs g).fstore = s.fstore := rfl
@[simp] theorem State.onNvs_work (s : State) (g : NvsSt → NvsSt) : (s.onNvs g).work = s.work := rfl
@[simp] theorem State.onNvs_nvsMem (s : State) (g : NvsSt → NvsSt) : (s.onNvs g).nvsMem = s.nvsMem := rfl
@[simp] theorem State.onNvs_cflash (s : State) (g : NvsSt → NvsSt) : (s.onNvs g).cflash = s.cflash := rfl
@[simp] theorem State.onNvs_hostMem (s : State) (g : NvsSt → NvsSt) : (s.onNvs g).hostMem = s.hostMem := rfl
@[simp] theorem State.onNvs_out (s : State) (g : NvsSt → NvsSt) : (s.onNvs g).out = s.out := rfl
@[simp] theorem State.onNvs_pending (s : State) (g : NvsSt → NvsSt) : (s.onNvs g).pending = s.pending := rfl

/-! `onThm` changes `thm`. -/

@[simp] theorem State.onThm_thm (s : State) (g : ThmSt → ThmSt) : (s.onThm g).thm = g s.thm := rfl
@[simp] theorem State.onThm_regs (s : State) (g : ThmSt → ThmSt) : (s.onThm g).regs = s.regs := rfl
@[simp] theorem State.onThm_shadow (s : State) (g : ThmSt → ThmSt) : (s.onThm g).shadow = s.shadow := rfl
@[simp] theorem State.onThm_clock (s : State) (g : ThmSt → ThmSt) : (s.onThm g).clock = s.clock := rfl
@[simp] theorem State.onThm_pins (s : State) (g : ThmSt → ThmSt) : (s.onThm g).pins = s.pins := rfl
@[simp] theorem State.onThm_loader (s : State) (g : ThmSt → ThmSt) : (s.onThm g).loader = s.loader := rfl
@[simp] theorem State.onThm_cox (s : State) (g : ThmSt → ThmSt) : (s.onThm g).cox = s.cox := rfl
@[simp] theorem State.onThm_syn (s : State) (g : ThmSt → ThmSt) : (s.onThm g).syn = s.syn := rfl
@[simp] theorem State.onThm_prt (s : State) (g : ThmSt → ThmSt) : (s.onThm g).prt = s.prt := rfl
@[simp] theorem State.onThm_xtb (s : State) (g : ThmSt → ThmSt) : (s.onThm g).xtb = s.xtb := rfl
@[simp] theorem State.onThm_que (s : State) (g : ThmSt → ThmSt) : (s.onThm g).que = s.que := rfl
@[simp] theorem State.onThm_slips (s : State) (g : ThmSt → ThmSt) : (s.onThm g).slips = s.slips := rfl
@[simp] theorem State.onThm_jik (s : State) (g : ThmSt → ThmSt) : (s.onThm g).jik = s.jik := rfl
@[simp] theorem State.onThm_hed (s : State) (g : ThmSt → ThmSt) : (s.onThm g).hed = s.hed := rfl
@[simp] theorem State.onThm_egr (s : State) (g : ThmSt → ThmSt) : (s.onThm g).egr = s.egr := rfl
@[simp] theorem State.onThm_aud (s : State) (g : ThmSt → ThmSt) : (s.onThm g).aud = s.aud := rfl
@[simp] theorem State.onThm_lgt (s : State) (g : ThmSt → ThmSt) : (s.onThm g).lgt = s.lgt := rfl
@[simp] theorem State.onThm_fld (s : State) (g : ThmSt → ThmSt) : (s.onThm g).fld = s.fld := rfl
@[simp] theorem State.onThm_keep (s : State) (g : ThmSt → ThmSt) : (s.onThm g).keep = s.keep := rfl
@[simp] theorem State.onThm_nvs (s : State) (g : ThmSt → ThmSt) : (s.onThm g).nvs = s.nvs := rfl
@[simp] theorem State.onThm_pwr (s : State) (g : ThmSt → ThmSt) : (s.onThm g).pwr = s.pwr := rfl
@[simp] theorem State.onThm_quay (s : State) (g : ThmSt → ThmSt) : (s.onThm g).quay = s.quay := rfl
@[simp] theorem State.onThm_evt (s : State) (g : ThmSt → ThmSt) : (s.onThm g).evt = s.evt := rfl
@[simp] theorem State.onThm_fstore (s : State) (g : ThmSt → ThmSt) : (s.onThm g).fstore = s.fstore := rfl
@[simp] theorem State.onThm_work (s : State) (g : ThmSt → ThmSt) : (s.onThm g).work = s.work := rfl
@[simp] theorem State.onThm_nvsMem (s : State) (g : ThmSt → ThmSt) : (s.onThm g).nvsMem = s.nvsMem := rfl
@[simp] theorem State.onThm_cflash (s : State) (g : ThmSt → ThmSt) : (s.onThm g).cflash = s.cflash := rfl
@[simp] theorem State.onThm_hostMem (s : State) (g : ThmSt → ThmSt) : (s.onThm g).hostMem = s.hostMem := rfl
@[simp] theorem State.onThm_out (s : State) (g : ThmSt → ThmSt) : (s.onThm g).out = s.out := rfl
@[simp] theorem State.onThm_pending (s : State) (g : ThmSt → ThmSt) : (s.onThm g).pending = s.pending := rfl

/-! `onPwr` changes `pwr`. -/

@[simp] theorem State.onPwr_pwr (s : State) (g : PwrSt → PwrSt) : (s.onPwr g).pwr = g s.pwr := rfl
@[simp] theorem State.onPwr_regs (s : State) (g : PwrSt → PwrSt) : (s.onPwr g).regs = s.regs := rfl
@[simp] theorem State.onPwr_shadow (s : State) (g : PwrSt → PwrSt) : (s.onPwr g).shadow = s.shadow := rfl
@[simp] theorem State.onPwr_clock (s : State) (g : PwrSt → PwrSt) : (s.onPwr g).clock = s.clock := rfl
@[simp] theorem State.onPwr_pins (s : State) (g : PwrSt → PwrSt) : (s.onPwr g).pins = s.pins := rfl
@[simp] theorem State.onPwr_loader (s : State) (g : PwrSt → PwrSt) : (s.onPwr g).loader = s.loader := rfl
@[simp] theorem State.onPwr_cox (s : State) (g : PwrSt → PwrSt) : (s.onPwr g).cox = s.cox := rfl
@[simp] theorem State.onPwr_syn (s : State) (g : PwrSt → PwrSt) : (s.onPwr g).syn = s.syn := rfl
@[simp] theorem State.onPwr_prt (s : State) (g : PwrSt → PwrSt) : (s.onPwr g).prt = s.prt := rfl
@[simp] theorem State.onPwr_xtb (s : State) (g : PwrSt → PwrSt) : (s.onPwr g).xtb = s.xtb := rfl
@[simp] theorem State.onPwr_que (s : State) (g : PwrSt → PwrSt) : (s.onPwr g).que = s.que := rfl
@[simp] theorem State.onPwr_slips (s : State) (g : PwrSt → PwrSt) : (s.onPwr g).slips = s.slips := rfl
@[simp] theorem State.onPwr_jik (s : State) (g : PwrSt → PwrSt) : (s.onPwr g).jik = s.jik := rfl
@[simp] theorem State.onPwr_hed (s : State) (g : PwrSt → PwrSt) : (s.onPwr g).hed = s.hed := rfl
@[simp] theorem State.onPwr_egr (s : State) (g : PwrSt → PwrSt) : (s.onPwr g).egr = s.egr := rfl
@[simp] theorem State.onPwr_aud (s : State) (g : PwrSt → PwrSt) : (s.onPwr g).aud = s.aud := rfl
@[simp] theorem State.onPwr_lgt (s : State) (g : PwrSt → PwrSt) : (s.onPwr g).lgt = s.lgt := rfl
@[simp] theorem State.onPwr_fld (s : State) (g : PwrSt → PwrSt) : (s.onPwr g).fld = s.fld := rfl
@[simp] theorem State.onPwr_keep (s : State) (g : PwrSt → PwrSt) : (s.onPwr g).keep = s.keep := rfl
@[simp] theorem State.onPwr_nvs (s : State) (g : PwrSt → PwrSt) : (s.onPwr g).nvs = s.nvs := rfl
@[simp] theorem State.onPwr_thm (s : State) (g : PwrSt → PwrSt) : (s.onPwr g).thm = s.thm := rfl
@[simp] theorem State.onPwr_quay (s : State) (g : PwrSt → PwrSt) : (s.onPwr g).quay = s.quay := rfl
@[simp] theorem State.onPwr_evt (s : State) (g : PwrSt → PwrSt) : (s.onPwr g).evt = s.evt := rfl
@[simp] theorem State.onPwr_fstore (s : State) (g : PwrSt → PwrSt) : (s.onPwr g).fstore = s.fstore := rfl
@[simp] theorem State.onPwr_work (s : State) (g : PwrSt → PwrSt) : (s.onPwr g).work = s.work := rfl
@[simp] theorem State.onPwr_nvsMem (s : State) (g : PwrSt → PwrSt) : (s.onPwr g).nvsMem = s.nvsMem := rfl
@[simp] theorem State.onPwr_cflash (s : State) (g : PwrSt → PwrSt) : (s.onPwr g).cflash = s.cflash := rfl
@[simp] theorem State.onPwr_hostMem (s : State) (g : PwrSt → PwrSt) : (s.onPwr g).hostMem = s.hostMem := rfl
@[simp] theorem State.onPwr_out (s : State) (g : PwrSt → PwrSt) : (s.onPwr g).out = s.out := rfl
@[simp] theorem State.onPwr_pending (s : State) (g : PwrSt → PwrSt) : (s.onPwr g).pending = s.pending := rfl

/-! `onQuay` changes `quay`. -/

@[simp] theorem State.onQuay_quay (s : State) (g : QuaySt → QuaySt) : (s.onQuay g).quay = g s.quay := rfl
@[simp] theorem State.onQuay_regs (s : State) (g : QuaySt → QuaySt) : (s.onQuay g).regs = s.regs := rfl
@[simp] theorem State.onQuay_shadow (s : State) (g : QuaySt → QuaySt) : (s.onQuay g).shadow = s.shadow := rfl
@[simp] theorem State.onQuay_clock (s : State) (g : QuaySt → QuaySt) : (s.onQuay g).clock = s.clock := rfl
@[simp] theorem State.onQuay_pins (s : State) (g : QuaySt → QuaySt) : (s.onQuay g).pins = s.pins := rfl
@[simp] theorem State.onQuay_loader (s : State) (g : QuaySt → QuaySt) : (s.onQuay g).loader = s.loader := rfl
@[simp] theorem State.onQuay_cox (s : State) (g : QuaySt → QuaySt) : (s.onQuay g).cox = s.cox := rfl
@[simp] theorem State.onQuay_syn (s : State) (g : QuaySt → QuaySt) : (s.onQuay g).syn = s.syn := rfl
@[simp] theorem State.onQuay_prt (s : State) (g : QuaySt → QuaySt) : (s.onQuay g).prt = s.prt := rfl
@[simp] theorem State.onQuay_xtb (s : State) (g : QuaySt → QuaySt) : (s.onQuay g).xtb = s.xtb := rfl
@[simp] theorem State.onQuay_que (s : State) (g : QuaySt → QuaySt) : (s.onQuay g).que = s.que := rfl
@[simp] theorem State.onQuay_slips (s : State) (g : QuaySt → QuaySt) : (s.onQuay g).slips = s.slips := rfl
@[simp] theorem State.onQuay_jik (s : State) (g : QuaySt → QuaySt) : (s.onQuay g).jik = s.jik := rfl
@[simp] theorem State.onQuay_hed (s : State) (g : QuaySt → QuaySt) : (s.onQuay g).hed = s.hed := rfl
@[simp] theorem State.onQuay_egr (s : State) (g : QuaySt → QuaySt) : (s.onQuay g).egr = s.egr := rfl
@[simp] theorem State.onQuay_aud (s : State) (g : QuaySt → QuaySt) : (s.onQuay g).aud = s.aud := rfl
@[simp] theorem State.onQuay_lgt (s : State) (g : QuaySt → QuaySt) : (s.onQuay g).lgt = s.lgt := rfl
@[simp] theorem State.onQuay_fld (s : State) (g : QuaySt → QuaySt) : (s.onQuay g).fld = s.fld := rfl
@[simp] theorem State.onQuay_keep (s : State) (g : QuaySt → QuaySt) : (s.onQuay g).keep = s.keep := rfl
@[simp] theorem State.onQuay_nvs (s : State) (g : QuaySt → QuaySt) : (s.onQuay g).nvs = s.nvs := rfl
@[simp] theorem State.onQuay_thm (s : State) (g : QuaySt → QuaySt) : (s.onQuay g).thm = s.thm := rfl
@[simp] theorem State.onQuay_pwr (s : State) (g : QuaySt → QuaySt) : (s.onQuay g).pwr = s.pwr := rfl
@[simp] theorem State.onQuay_evt (s : State) (g : QuaySt → QuaySt) : (s.onQuay g).evt = s.evt := rfl
@[simp] theorem State.onQuay_fstore (s : State) (g : QuaySt → QuaySt) : (s.onQuay g).fstore = s.fstore := rfl
@[simp] theorem State.onQuay_work (s : State) (g : QuaySt → QuaySt) : (s.onQuay g).work = s.work := rfl
@[simp] theorem State.onQuay_nvsMem (s : State) (g : QuaySt → QuaySt) : (s.onQuay g).nvsMem = s.nvsMem := rfl
@[simp] theorem State.onQuay_cflash (s : State) (g : QuaySt → QuaySt) : (s.onQuay g).cflash = s.cflash := rfl
@[simp] theorem State.onQuay_hostMem (s : State) (g : QuaySt → QuaySt) : (s.onQuay g).hostMem = s.hostMem := rfl
@[simp] theorem State.onQuay_out (s : State) (g : QuaySt → QuaySt) : (s.onQuay g).out = s.out := rfl
@[simp] theorem State.onQuay_pending (s : State) (g : QuaySt → QuaySt) : (s.onQuay g).pending = s.pending := rfl

/-! `onDma` changes `quay`. -/

@[simp] theorem State.onDma_regs (s : State) (n : Nat) (g : DmaSt → DmaSt) : (s.onDma n g).regs = s.regs := rfl
@[simp] theorem State.onDma_shadow (s : State) (n : Nat) (g : DmaSt → DmaSt) : (s.onDma n g).shadow = s.shadow := rfl
@[simp] theorem State.onDma_clock (s : State) (n : Nat) (g : DmaSt → DmaSt) : (s.onDma n g).clock = s.clock := rfl
@[simp] theorem State.onDma_pins (s : State) (n : Nat) (g : DmaSt → DmaSt) : (s.onDma n g).pins = s.pins := rfl
@[simp] theorem State.onDma_loader (s : State) (n : Nat) (g : DmaSt → DmaSt) : (s.onDma n g).loader = s.loader := rfl
@[simp] theorem State.onDma_cox (s : State) (n : Nat) (g : DmaSt → DmaSt) : (s.onDma n g).cox = s.cox := rfl
@[simp] theorem State.onDma_syn (s : State) (n : Nat) (g : DmaSt → DmaSt) : (s.onDma n g).syn = s.syn := rfl
@[simp] theorem State.onDma_prt (s : State) (n : Nat) (g : DmaSt → DmaSt) : (s.onDma n g).prt = s.prt := rfl
@[simp] theorem State.onDma_xtb (s : State) (n : Nat) (g : DmaSt → DmaSt) : (s.onDma n g).xtb = s.xtb := rfl
@[simp] theorem State.onDma_que (s : State) (n : Nat) (g : DmaSt → DmaSt) : (s.onDma n g).que = s.que := rfl
@[simp] theorem State.onDma_slips (s : State) (n : Nat) (g : DmaSt → DmaSt) : (s.onDma n g).slips = s.slips := rfl
@[simp] theorem State.onDma_jik (s : State) (n : Nat) (g : DmaSt → DmaSt) : (s.onDma n g).jik = s.jik := rfl
@[simp] theorem State.onDma_hed (s : State) (n : Nat) (g : DmaSt → DmaSt) : (s.onDma n g).hed = s.hed := rfl
@[simp] theorem State.onDma_egr (s : State) (n : Nat) (g : DmaSt → DmaSt) : (s.onDma n g).egr = s.egr := rfl
@[simp] theorem State.onDma_aud (s : State) (n : Nat) (g : DmaSt → DmaSt) : (s.onDma n g).aud = s.aud := rfl
@[simp] theorem State.onDma_lgt (s : State) (n : Nat) (g : DmaSt → DmaSt) : (s.onDma n g).lgt = s.lgt := rfl
@[simp] theorem State.onDma_fld (s : State) (n : Nat) (g : DmaSt → DmaSt) : (s.onDma n g).fld = s.fld := rfl
@[simp] theorem State.onDma_keep (s : State) (n : Nat) (g : DmaSt → DmaSt) : (s.onDma n g).keep = s.keep := rfl
@[simp] theorem State.onDma_nvs (s : State) (n : Nat) (g : DmaSt → DmaSt) : (s.onDma n g).nvs = s.nvs := rfl
@[simp] theorem State.onDma_thm (s : State) (n : Nat) (g : DmaSt → DmaSt) : (s.onDma n g).thm = s.thm := rfl
@[simp] theorem State.onDma_pwr (s : State) (n : Nat) (g : DmaSt → DmaSt) : (s.onDma n g).pwr = s.pwr := rfl
@[simp] theorem State.onDma_evt (s : State) (n : Nat) (g : DmaSt → DmaSt) : (s.onDma n g).evt = s.evt := rfl
@[simp] theorem State.onDma_fstore (s : State) (n : Nat) (g : DmaSt → DmaSt) : (s.onDma n g).fstore = s.fstore := rfl
@[simp] theorem State.onDma_work (s : State) (n : Nat) (g : DmaSt → DmaSt) : (s.onDma n g).work = s.work := rfl
@[simp] theorem State.onDma_nvsMem (s : State) (n : Nat) (g : DmaSt → DmaSt) : (s.onDma n g).nvsMem = s.nvsMem := rfl
@[simp] theorem State.onDma_cflash (s : State) (n : Nat) (g : DmaSt → DmaSt) : (s.onDma n g).cflash = s.cflash := rfl
@[simp] theorem State.onDma_hostMem (s : State) (n : Nat) (g : DmaSt → DmaSt) : (s.onDma n g).hostMem = s.hostMem := rfl
@[simp] theorem State.onDma_out (s : State) (n : Nat) (g : DmaSt → DmaSt) : (s.onDma n g).out = s.out := rfl
@[simp] theorem State.onDma_pending (s : State) (n : Nat) (g : DmaSt → DmaSt) : (s.onDma n g).pending = s.pending := rfl

/-! `setRing` changes `evt`. -/

@[simp] theorem State.setRing_regs (s : State) (r : Nat) (x : RingSt) : (s.setRing r x).regs = s.regs := rfl
@[simp] theorem State.setRing_shadow (s : State) (r : Nat) (x : RingSt) : (s.setRing r x).shadow = s.shadow := rfl
@[simp] theorem State.setRing_clock (s : State) (r : Nat) (x : RingSt) : (s.setRing r x).clock = s.clock := rfl
@[simp] theorem State.setRing_pins (s : State) (r : Nat) (x : RingSt) : (s.setRing r x).pins = s.pins := rfl
@[simp] theorem State.setRing_loader (s : State) (r : Nat) (x : RingSt) : (s.setRing r x).loader = s.loader := rfl
@[simp] theorem State.setRing_cox (s : State) (r : Nat) (x : RingSt) : (s.setRing r x).cox = s.cox := rfl
@[simp] theorem State.setRing_syn (s : State) (r : Nat) (x : RingSt) : (s.setRing r x).syn = s.syn := rfl
@[simp] theorem State.setRing_prt (s : State) (r : Nat) (x : RingSt) : (s.setRing r x).prt = s.prt := rfl
@[simp] theorem State.setRing_xtb (s : State) (r : Nat) (x : RingSt) : (s.setRing r x).xtb = s.xtb := rfl
@[simp] theorem State.setRing_que (s : State) (r : Nat) (x : RingSt) : (s.setRing r x).que = s.que := rfl
@[simp] theorem State.setRing_slips (s : State) (r : Nat) (x : RingSt) : (s.setRing r x).slips = s.slips := rfl
@[simp] theorem State.setRing_jik (s : State) (r : Nat) (x : RingSt) : (s.setRing r x).jik = s.jik := rfl
@[simp] theorem State.setRing_hed (s : State) (r : Nat) (x : RingSt) : (s.setRing r x).hed = s.hed := rfl
@[simp] theorem State.setRing_egr (s : State) (r : Nat) (x : RingSt) : (s.setRing r x).egr = s.egr := rfl
@[simp] theorem State.setRing_aud (s : State) (r : Nat) (x : RingSt) : (s.setRing r x).aud = s.aud := rfl
@[simp] theorem State.setRing_lgt (s : State) (r : Nat) (x : RingSt) : (s.setRing r x).lgt = s.lgt := rfl
@[simp] theorem State.setRing_fld (s : State) (r : Nat) (x : RingSt) : (s.setRing r x).fld = s.fld := rfl
@[simp] theorem State.setRing_keep (s : State) (r : Nat) (x : RingSt) : (s.setRing r x).keep = s.keep := rfl
@[simp] theorem State.setRing_nvs (s : State) (r : Nat) (x : RingSt) : (s.setRing r x).nvs = s.nvs := rfl
@[simp] theorem State.setRing_thm (s : State) (r : Nat) (x : RingSt) : (s.setRing r x).thm = s.thm := rfl
@[simp] theorem State.setRing_pwr (s : State) (r : Nat) (x : RingSt) : (s.setRing r x).pwr = s.pwr := rfl
@[simp] theorem State.setRing_quay (s : State) (r : Nat) (x : RingSt) : (s.setRing r x).quay = s.quay := rfl
@[simp] theorem State.setRing_fstore (s : State) (r : Nat) (x : RingSt) : (s.setRing r x).fstore = s.fstore := rfl
@[simp] theorem State.setRing_work (s : State) (r : Nat) (x : RingSt) : (s.setRing r x).work = s.work := rfl
@[simp] theorem State.setRing_nvsMem (s : State) (r : Nat) (x : RingSt) : (s.setRing r x).nvsMem = s.nvsMem := rfl
@[simp] theorem State.setRing_cflash (s : State) (r : Nat) (x : RingSt) : (s.setRing r x).cflash = s.cflash := rfl
@[simp] theorem State.setRing_hostMem (s : State) (r : Nat) (x : RingSt) : (s.setRing r x).hostMem = s.hostMem := rfl
@[simp] theorem State.setRing_out (s : State) (r : Nat) (x : RingSt) : (s.setRing r x).out = s.out := rfl
@[simp] theorem State.setRing_pending (s : State) (r : Nat) (x : RingSt) : (s.setRing r x).pending = s.pending := rfl

/-! `send` changes `out`. -/

@[simp] theorem State.send_out (s : State) (o : Out) : (s.send o).out = s.out ++ [o] := rfl
@[simp] theorem State.send_regs (s : State) (o : Out) : (s.send o).regs = s.regs := rfl
@[simp] theorem State.send_shadow (s : State) (o : Out) : (s.send o).shadow = s.shadow := rfl
@[simp] theorem State.send_clock (s : State) (o : Out) : (s.send o).clock = s.clock := rfl
@[simp] theorem State.send_pins (s : State) (o : Out) : (s.send o).pins = s.pins := rfl
@[simp] theorem State.send_loader (s : State) (o : Out) : (s.send o).loader = s.loader := rfl
@[simp] theorem State.send_cox (s : State) (o : Out) : (s.send o).cox = s.cox := rfl
@[simp] theorem State.send_syn (s : State) (o : Out) : (s.send o).syn = s.syn := rfl
@[simp] theorem State.send_prt (s : State) (o : Out) : (s.send o).prt = s.prt := rfl
@[simp] theorem State.send_xtb (s : State) (o : Out) : (s.send o).xtb = s.xtb := rfl
@[simp] theorem State.send_que (s : State) (o : Out) : (s.send o).que = s.que := rfl
@[simp] theorem State.send_slips (s : State) (o : Out) : (s.send o).slips = s.slips := rfl
@[simp] theorem State.send_jik (s : State) (o : Out) : (s.send o).jik = s.jik := rfl
@[simp] theorem State.send_hed (s : State) (o : Out) : (s.send o).hed = s.hed := rfl
@[simp] theorem State.send_egr (s : State) (o : Out) : (s.send o).egr = s.egr := rfl
@[simp] theorem State.send_aud (s : State) (o : Out) : (s.send o).aud = s.aud := rfl
@[simp] theorem State.send_lgt (s : State) (o : Out) : (s.send o).lgt = s.lgt := rfl
@[simp] theorem State.send_fld (s : State) (o : Out) : (s.send o).fld = s.fld := rfl
@[simp] theorem State.send_keep (s : State) (o : Out) : (s.send o).keep = s.keep := rfl
@[simp] theorem State.send_nvs (s : State) (o : Out) : (s.send o).nvs = s.nvs := rfl
@[simp] theorem State.send_thm (s : State) (o : Out) : (s.send o).thm = s.thm := rfl
@[simp] theorem State.send_pwr (s : State) (o : Out) : (s.send o).pwr = s.pwr := rfl
@[simp] theorem State.send_quay (s : State) (o : Out) : (s.send o).quay = s.quay := rfl
@[simp] theorem State.send_evt (s : State) (o : Out) : (s.send o).evt = s.evt := rfl
@[simp] theorem State.send_fstore (s : State) (o : Out) : (s.send o).fstore = s.fstore := rfl
@[simp] theorem State.send_work (s : State) (o : Out) : (s.send o).work = s.work := rfl
@[simp] theorem State.send_nvsMem (s : State) (o : Out) : (s.send o).nvsMem = s.nvsMem := rfl
@[simp] theorem State.send_cflash (s : State) (o : Out) : (s.send o).cflash = s.cflash := rfl
@[simp] theorem State.send_hostMem (s : State) (o : Out) : (s.send o).hostMem = s.hostMem := rfl
@[simp] theorem State.send_pending (s : State) (o : Out) : (s.send o).pending = s.pending := rfl

end Sys2Proof.Machine
end

