-- ==== Sys2Proof/Laws/Ops.lean ====
section
/-! SUPPORT. What each shared operation does: register reads after writes, bit fields, wrappers of the meanings, folds of effects. -/

namespace Sys2Proof.Machine

/-! ### Registers -/

@[simp] theorem State.rd_wr_self (s : State) (a : Nat) (v : Word) : (s.wr a v).rd a = v := by
  simp [State.rd, State.wr]

theorem State.rd_wr_ne (s : State) {a b : Nat} (v : Word) (h : b ≠ a) : (s.wr a v).rd b = s.rd b := by
  simp only [State.rd, State.wr]; exact nget_nset_ne _ _ _ h

theorem State.rd_congr {s t : State} (h : t.regs = s.regs) (a : Nat) : t.rd a = s.rd a := by rw [State.rd, State.rd, h]

theorem State.b_congr {s t : State} (h : t.regs = s.regs) (a i : Nat) : t.b a i = s.b a i := by rw [State.b, State.b, State.rd_congr h]

theorem State.f_congr {s t : State} (h : t.regs = s.regs) (a hi lo : Nat) : t.f a hi lo = s.f a hi lo := by
  rw [State.f, State.f, State.rd_congr h]

theorem State.rd_setF_ne (s : State) {a b : Nat} (hi lo v : Nat) (h : b ≠ a) : (s.setF a hi lo v).rd b = s.rd b := s.rd_wr_ne _ h

theorem State.rd_setB_ne (s : State) {a b : Nat} (i : Nat) (v : Bool) (h : b ≠ a) : (s.setB a i v).rd b = s.rd b := s.rd_wr_ne _ h

@[simp] theorem State.rd_setF_self (s : State) (a hi lo v : Nat) : (s.setF a hi lo v).rd a = setFld (s.rd a) hi lo v := s.rd_wr_self _ _

@[simp] theorem State.rd_setB_self (s : State) (a i : Nat) (v : Bool) : (s.setB a i v).rd a = setBit (s.rd a) i v := s.rd_wr_self _ _

@[simp] theorem State.rd_setI32_self (s : State) (a : Nat) (v : Int) : (s.setI32 a v).rd a = BitVec.ofInt 32 v := s.rd_wr_self _ _

/-! ### Bit fields -/

theorem getLsbD_fmask (hi lo i : Nat) : (fmask hi lo).getLsbD i = (decide (i < 32) && decide (lo ≤ i) && decide (i < hi + 1 - lo + lo)) := by
  unfold fmask
  rw [BitVec.getLsbD_ofNat, Nat.testBit_mul_two_pow, Nat.testBit_two_pow_sub_one]
  by_cases h : lo ≤ i
  · have e : (i - lo < hi + 1 - lo) ↔ (i < hi + 1 - lo + lo) := by omega
    simp [h, e]
  · simp [h]

/-- Bits of a word with a field replaced. -/
theorem getLsbD_setFld (w : Word) (hi lo v i : Nat) : (setFld w hi lo v).getLsbD i =
    if i < 32 ∧ lo ≤ i ∧ i < hi + 1 - lo + lo then v.testBit (i - lo) else w.getLsbD i := by
  unfold setFld
  simp only [BitVec.getLsbD_or, BitVec.getLsbD_and, BitVec.getLsbD_not, getLsbD_fmask, BitVec.getLsbD_ofNat, Nat.testBit_mul_two_pow]
  by_cases h1 : i < 32
  · by_cases h2 : lo ≤ i
    · by_cases h3 : i < hi + 1 - lo + lo <;> simp [h1, h2, h3]
    · simp [h1, h2]
  · have : w.getLsbD i = false := BitVec.getLsbD_of_ge w i (by omega)
    simp [h1, this]

/-- A bit set is read back. -/
theorem bit_setBit_self (w : Word) (i : Nat) (v : Bool) (h : i < 32) : bit (setBit w i v) i = v := by
  unfold bit setBit
  rw [getLsbD_setFld, if_pos ⟨h, Nat.le_refl _, by omega⟩]
  cases v <;> simp

theorem bit_setBit_ne (w : Word) {i j : Nat} (v : Bool) (h : j ≠ i) : bit (setBit w i v) j = bit w j := by
  unfold bit setBit
  rw [getLsbD_setFld, if_neg (by omega)]

theorem bit_setFld_outside (w : Word) (hi lo v : Nat) {j : Nat} (h : j < lo ∨ hi < j) (hl : lo ≤ hi) : bit (setFld w hi lo v) j = bit w j := by
  unfold bit
  rw [getLsbD_setFld, if_neg (by omega)]

/-- A field written is read back, cut to its width. -/
theorem bf_setFld_self (w : Word) (hi lo v : Nat) (hl : lo ≤ hi) (hh : hi < 32) : bf (setFld w hi lo v) hi lo = v % 2 ^ (hi + 1 - lo) := by
  unfold bf
  apply Nat.eq_of_testBit_eq
  intro i
  rw [← BitVec.getLsbD, BitVec.getLsbD_extractLsb', getLsbD_setFld, Nat.testBit_mod_two_pow]
  by_cases h : i < hi + 1 - lo
  · rw [if_pos ⟨by omega, by omega, by omega⟩]
    simp [h]
  · simp [h]

theorem bf_congr_bits {w x : Word} {hi lo : Nat} (h : ∀ i, lo ≤ i → i ≤ hi → w.getLsbD i = x.getLsbD i) : bf w hi lo = bf x hi lo := by
  unfold bf
  apply Nat.eq_of_testBit_eq
  intro i
  rw [← BitVec.getLsbD, ← BitVec.getLsbD, BitVec.getLsbD_extractLsb', BitVec.getLsbD_extractLsb']
  by_cases hi' : i < hi + 1 - lo
  · rw [h (lo + i) (by omega) (by omega)]
  · simp [hi']

/-- A field beside the one written keeps its value. -/
theorem bf_setFld_ne (w : Word) (hi lo v h2 l2 : Nat) (hl : lo ≤ hi) (h : h2 < lo ∨ hi < l2) : bf (setFld w hi lo v) h2 l2 = bf w h2 l2 :=
  bf_congr_bits fun i h1 h3 => by rw [getLsbD_setFld, if_neg (by omega)]

@[simp] theorem State.b_setB_self (s : State) (a i : Nat) (v : Bool) (h : i < 32) : (s.setB a i v).b a i = v := by
  rw [State.b, State.rd_setB_self, bit_setBit_self _ _ _ h]

theorem State.f_setF_self (s : State) (a hi lo v : Nat) (hl : lo ≤ hi) (hh : hi < 32) : (s.setF a hi lo v).f a hi lo = v % 2 ^ (hi + 1 - lo) := by
  rw [State.f, State.rd_setF_self, bf_setFld_self _ _ _ _ hl hh]

/-! ### Whether the dies run -/

theorem State.matrixUp_congr {s t : State} (h : t.pwr = s.pwr) : t.matrixUp = s.matrixUp := by rw [State.matrixUp, State.matrixUp, h]

theorem State.coreUp_congr {s t : State} (h : t.syn = s.syn) (hr : t.rd (Reg.synStat 0) = s.rd (Reg.synStat 0)) : t.coreUp = s.coreUp := by
  simp only [State.coreUp, State.synState, State.f, State.synOf, h, hr]

/-! ### Wrappers of the meanings -/

theorem onMatrix_up (g : State → State) {s : State} (h : s.matrixUp = true) : onMatrix g s = .next (g s) := by rw [onMatrix, h]; rfl
theorem onMatrix_down (g : State → State) {s : State} (h : s.matrixUp = false) : onMatrix g s = .next s := by rw [onMatrix, h]; rfl
theorem onCore_up (g : State → State) {s : State} (h : s.matrixUp = true) (hc : s.coreUp = true) : onCore g s = .next (g s) := by
  rw [onCore, h, hc]; rfl
theorem onCore_down (g : State → State) {s : State} (h : (s.matrixUp && s.coreUp) = false) : onCore g s = .next s := by rw [onCore, h]; rfl
theorem onLightDie_up (g : State → State) {s : State} (h : s.pwr.ld = .running) : onLightDie g s = .next (g s) := by rw [onLightDie, h]; rfl
theorem onPin_up (pin : Pins → Pins) (g : State → State) {s : State} (h : s.pwr.ld = .running) : onPin pin g s = .next (g s) := by
  rw [onPin, h]; rfl

/-- The matrix die is out of reset only while the light die runs. -/
theorem State.matrixUp_ld {s : State} (h : s.matrixUp = true) : s.pwr.ld = .running := by
  simp only [State.matrixUp, Bool.and_eq_true, beq_iff_eq] at h; exact h.1

/-! ### Repeated effects -/

@[simp] theorem forAll_nil {α : Type} (g : α → State → State) (s : State) : forAll [] g s = s := rfl
@[simp] theorem forAll_cons {α : Type} (a : α) (l : List α) (g : α → State → State) (s : State) :
    forAll (a :: l) g s = forAll l g (g a s) := rfl

/-- A property that each effect keeps, all of them keep. -/
theorem forAll_keeps {α : Type} (P : State → Prop) (g : α → State → State) (l : List α) :
    ∀ s, (∀ a ∈ l, ∀ t, P t → P (g a t)) → P s → P (forAll l g s) := by
  induction l with
  | nil => exact fun _ _ h => h
  | cons a l ih =>
    exact fun s h hs => ih _ (fun b hb => h b (List.mem_cons_of_mem _ hb)) (h a List.mem_cons_self s hs)

/-- A field that no effect of the list changes. -/
theorem forAll_field {α β : Type} (π : State → β) (g : α → State → State) (l : List α) (h : ∀ a ∈ l, ∀ t, π (g a t) = π t) (s : State) :
    π (forAll l g s) = π s :=
  forAll_keeps (fun t => π t = π s) g l s (fun a ha t ht => (h a ha t).trans ht) rfl

@[simp] theorem onlyIf_true (g : State → State) (s : State) : onlyIf true g s = g s := rfl
@[simp] theorem onlyIf_false (g : State → State) (s : State) : onlyIf false g s = s := rfl

theorem onlyIf_field {β : Type} (π : State → β) (c : Bool) (g : State → State) (s : State) (h : π (g s) = π s) : π (onlyIf c g s) = π s := by
  cases c
  · rfl
  · exact h

/-! ### Free values -/

@[simp] theorem State.fresh_regs (s : State) (w : Nat) : (s.fresh w).2.regs = s.regs := rfl
@[simp] theorem State.fresh_pwr (s : State) (w : Nat) : (s.fresh w).2.pwr = s.pwr := rfl
@[simp] theorem State.fresh_syn (s : State) (w : Nat) : (s.fresh w).2.syn = s.syn := rfl
@[simp] theorem State.fresh_evt (s : State) (w : Nat) : (s.fresh w).2.evt = s.evt := rfl

/-! ### A step -/

theorem step_nil {s : State} (h : s.pending = []) : step s = .next (tick s) := by rw [step, h]

theorem step_cons {s : State} {c : Instr} {cs : List Instr} (h : s.pending = c :: cs) : step s = exec c { s with pending := cs } := by
  rw [step, h]

end Sys2Proof.Machine
end

