-- ==== Sys2Proof/Laws/Memory.lean ====
section
/-! SUPPORT. Every operation on the memories keeps their canonical form; bytes read back after a write. -/

namespace Sys2Proof.Machine

/-! ### Runs of bytes -/

theorem writeBytes_wf (d : Nat → Byte) (bs : List Byte) : ∀ (m : NMap Byte) (a : Nat), nwf d m = true → nwf d (writeBytes d m a bs) = true := by
  induction bs with
  | nil => exact fun _ _ h => h
  | cons b bs ih => exact fun m a h => ih _ _ (nwf_nset d m a b h)

/-- A run of bytes written leaves every byte outside it alone. -/
theorem writeBytes_outside (d : Nat → Byte) (bs : List Byte) : ∀ (m : NMap Byte) (a x : Nat), x < a ∨ a + bs.length ≤ x →
    nget d (writeBytes d m a bs) x = nget d m x := by
  induction bs with
  | nil => exact fun _ _ _ _ => rfl
  | cons b bs ih =>
    intro m a x h
    simp only [List.length_cons] at h
    rw [writeBytes, ih _ _ _ (by omega), nget_nset_ne d m b (by omega)]

/-- A run of bytes reads back as written. -/
theorem writeBytes_inside (d : Nat → Byte) (bs : List Byte) : ∀ (m : NMap Byte) (a i : Nat) (h : i < bs.length),
    nget d (writeBytes d m a bs) (a + i) = bs[i] := by
  induction bs with
  | nil => intro _ _ _ h; exact absurd h (Nat.not_lt_zero _)
  | cons b bs ih =>
    intro m a i h
    cases i with
    | zero => rw [writeBytes, Nat.add_zero, writeBytes_outside _ _ _ _ _ (by omega)]; simp
    | succ i =>
      rw [writeBytes, show a + (i + 1) = a + 1 + i by omega, ih _ _ _ (by simpa using h)]
      rfl

/-- A write of bytes one by one, each at its own address, keeps the canonical form. -/
theorem foldl_nset_wf {β : Type} (d : Nat → Byte) (key : β → Nat) (val : β → Byte) (l : List β) :
    ∀ m : NMap Byte, nwf d m = true → nwf d (l.foldl (fun m e => nset d m (key e) (val e)) m) = true := by
  induction l with
  | nil => exact fun _ h => h
  | cons e l ih => exact fun m h => ih _ (nwf_nset d m _ _ h)

/-- The same where some bytes are passed over. -/
theorem foldl_nset_if_wf {β : Type} (d : Nat → Byte) (skip : β → Bool) (key : β → Nat) (val : β → Byte) (l : List β) :
    ∀ m : NMap Byte, nwf d m = true →
      nwf d (l.foldl (fun m e => if skip e = true then m else nset d m (key e) (val e)) m) = true := by
  induction l with
  | nil => exact fun _ h => h
  | cons e l ih =>
    intro m h
    refine ih _ ?_
    show nwf d (if skip e = true then m else nset d m (key e) (val e)) = true
    split
    · exact h
    · exact nwf_nset d m _ _ h

theorem foldl_writeBytes_wf {β : Type} (d : Nat → Byte) (key : β → Nat) (val : β → List Byte) (l : List β) :
    ∀ m : NMap Byte, nwf d m = true → nwf d (l.foldl (fun m e => writeBytes d m (key e) (val e)) m) = true := by
  induction l with
  | nil => exact fun _ h => h
  | cons e l ih => exact fun m h => ih _ (writeBytes_wf d _ m _ h)

theorem putPacked_wf (m : NMap Byte) (b : Nat) (w : Lane) (j : Nat) (h : nwf zeroByte m = true) : nwf zeroByte (putPacked m b w j) = true :=
  writeBytes_wf zeroByte _ m _ h

theorem putWords_wf (m : NMap Byte) (b : Nat) (ws : List Lane) (j : Nat) (h : nwf zeroByte m = true) :
    nwf zeroByte (putWords m b ws j) = true := by
  unfold putWords
  generalize ws.zipIdx j = l
  induction l generalizing m with
  | nil => exact h
  | cons e l ih => exact ih _ (putPacked_wf m b e.1 e.2 h)

/-! ### The whole state -/

/-- The five memories, as `Memory.wf` lists them. -/
theorem Memory.wf_iff (s : State) : Memory.wf s = true ↔ nwf zeroByte s.fstore = true ∧ nwf zeroByte s.work = true ∧
    nwf erasedByte s.nvsMem = true ∧ nwf erasedByte s.cflash = true ∧ nwf zeroByte s.hostMem = true := by
  simp [Memory.wf, and_assoc]

/-- An update that leaves the memories alone keeps their form. -/
theorem Memory.wf_congr {s t : State} (h : Memory.wf s = true) (h1 : t.fstore = s.fstore) (h2 : t.work = s.work)
    (h3 : t.nvsMem = s.nvsMem) (h4 : t.cflash = s.cflash) (h5 : t.hostMem = s.hostMem) : Memory.wf t = true := by
  rw [Memory.wf_iff] at *; rw [h1, h2, h3, h4, h5]; exact h

theorem reset_memory_wf : Memory.wf State.reset = true := rfl

theorem reset_registers_wf : Registers.wf State.reset = true := rfl

theorem wr_registers_wf (s : State) (a : Nat) (v : Word) (h : Registers.wf s = true) : Registers.wf (s.wr a v) = true :=
  nwf_nset regReset s.regs a v h

theorem fresh_memory_wf {s : State} (w : Nat) (h : Memory.wf s = true) : Memory.wf (s.fresh w).2 = true := h

theorem fstore_wf {s : State} {m : NMap Byte} (h : Memory.wf s = true) (hm : nwf zeroByte m = true) :
    Memory.wf { s with fstore := m } = true := by
  rw [Memory.wf_iff] at *
  exact ⟨hm, h.2⟩

theorem moveBeats_wf (s : State) (k j l i n : Nat) (h : Memory.wf s = true) : Memory.wf (s.moveBeats k j l i n) = true :=
  forAll_keeps (fun t => Memory.wf t = true) _ _ _
    (fun _ _ _ ht => Memory.wf_congr ht (State.countPerf_fstore ..) (State.countPerf_work ..) (State.countPerf_nvsMem ..)
      (State.countPerf_cflash ..) (State.countPerf_hostMem ..)) h

theorem storeLine_wf (s : State) (k j l i : Nat) (bs : List Byte) (h : Memory.wf s = true) : Memory.wf (s.storeLine k j l i bs) = true := by
  unfold State.storeLine
  exact moveBeats_wf _ _ _ _ _ _ (fstore_wf h (foldl_nset_wf zeroByte (fun e : Byte × Nat => s.lineAddr k j l e.2) (fun e => e.1) _ _ ((Memory.wf_iff _).1 h).1))

theorem nvsMem_wf {s : State} {m : NMap Byte} (h : Memory.wf s = true) (hm : nwf erasedByte m = true) :
    Memory.wf { s with nvsMem := m } = true := by
  rw [Memory.wf_iff] at *
  exact ⟨h.1, h.2.1, hm, h.2.2.2⟩

theorem cflash_wf {s : State} {m : NMap Byte} (h : Memory.wf s = true) (hm : nwf erasedByte m = true) :
    Memory.wf { s with cflash := m } = true := by
  rw [Memory.wf_iff] at *
  exact ⟨h.1, h.2.1, h.2.2.1, hm, h.2.2.2.2⟩

theorem programByte_wf (s : State) (a : Nat) (b : Byte) (h : Memory.wf s = true) : Memory.wf (s.programByte a b) = true := by
  unfold State.programByte
  generalize hr : s.fresh 8 = r
  have hf : Memory.wf r.2 = true := hr ▸ fresh_memory_wf 8 h
  clear hr
  split
  · exact cflash_wf h (nwf_nset erasedByte _ _ _ ((Memory.wf_iff _).1 h).2.2.2.1)
  · exact cflash_wf hf (nwf_nset erasedByte _ _ _ ((Memory.wf_iff _).1 hf).2.2.2.1)

theorem landPage_wf (s : State) (p : Nat × Nat × List Byte) (h : Memory.wf s = true) : Memory.wf (s.landPage p) = true := by
  have hw : ∀ a bs, Memory.wf { s with nvsMem := writeBytes erasedByte s.nvsMem a bs } = true :=
    fun a bs => nvsMem_wf h (writeBytes_wf erasedByte bs _ a ((Memory.wf_iff _).1 h).2.2.1)
  unfold State.landPage
  dsimp only
  split
  · exact Memory.wf_congr (hw (p.1 * 256) (s.pageBuffer p))
      (State.countPerf_fstore ..) (State.countPerf_work ..) (State.countPerf_nvsMem ..) (State.countPerf_cflash ..) (State.countPerf_hostMem ..)
  · exact Memory.wf_congr (hw (p.1 * 256 + p.2.1) p.2.2)
      (State.countPerf_fstore ..) (State.countPerf_work ..) (State.countPerf_nvsMem ..) (State.countPerf_cflash ..) (State.countPerf_hostMem ..)

theorem onNvs_wf (s : State) (f : NvsSt → NvsSt) : Memory.wf (s.onNvs f) = Memory.wf s := rfl

theorem tearPage_wf (s : State) (cut : PageCut) (h : Memory.wf s = true) : Memory.wf (s.tearPage cut) = true := by
  unfold State.tearPage
  generalize hr : s.fresh 2048 = r
  have hf : Memory.wf r.2 = true := hr ▸ fresh_memory_wf 2048 h
  clear hr
  split
  · exact h
  · split
    · exact h
    · have hw : ∀ a bs, Memory.wf { r.2 with nvsMem := writeBytes erasedByte r.2.nvsMem a bs } = true :=
        fun a bs => nvsMem_wf hf (writeBytes_wf erasedByte bs _ a ((Memory.wf_iff _).1 hf).2.2.1)
      cases cut with
      | merging => exact hf
      | erasing => rw [onNvs_wf]; exact hw _ _
      | group g => rw [onNvs_wf]; exact hw _ _

end Sys2Proof.Machine
end

