-- ==== Sys2Proof/Laws/Kept.lean ====
section
/-! SUPPORT. What every shared operation that touches no memory keeps: the five memories, the queue of commands, the key hash and the
stroke number. One lemma for each operation. -/

namespace Sys2Proof.Machine
/-- What `kept` holds. -/
abbrev Kept := (NMap Byte × NMap Byte × NMap Byte × NMap Byte × NMap Byte × List Instr) × Option (List Byte) × Bool
def State.kept (s : State) : Kept :=
  ((s.fstore, s.work, s.nvsMem, s.cflash, s.hostMem, s.pending), s.loader.otpHash, s.loader.otpTest)
@[simp] theorem forAll_kept {α : Type} (l : List α) (g : α → State → State) (s : State) (h : ∀ a ∈ l, ∀ t, (g a t).kept = t.kept) : (forAll l g s).kept = s.kept := forAll_field State.kept g l h s
@[simp] theorem foldl_kept {α : Type} (l : List α) (g : State → α → State) (s : State) (h : ∀ a ∈ l, ∀ t, (g t a).kept = t.kept) : (l.foldl g s).kept = s.kept := forAll_field State.kept (fun a t => g t a) l h s
theorem foldl_proj {α β γ : Type} (π : β → γ) (g : β → α → β) (l : List α) (b : β) (h : ∀ b a, π (g b a) = π b) : π (l.foldl g b) = π b := by
  induction l generalizing b with
  | nil => rfl
  | cons a l ih => rw [List.foldl_cons, ih, h]
@[simp] theorem ite_kept (c : Prop) [Decidable c] (a b : State) : (if c then a else b).kept = if c then a.kept else b.kept := by split <;> rfl
@[simp] theorem kept_with_regs (s : State) x : ({ s with regs := x } : State).kept = s.kept := rfl
@[simp] theorem kept_with_shadow (s : State) x : ({ s with shadow := x } : State).kept = s.kept := rfl
@[simp] theorem kept_with_clock (s : State) x : ({ s with clock := x } : State).kept = s.kept := rfl
@[simp] theorem kept_with_cox (s : State) x : ({ s with cox := x } : State).kept = s.kept := rfl
@[simp] theorem kept_with_syn (s : State) x : ({ s with syn := x } : State).kept = s.kept := rfl
@[simp] theorem kept_with_prt (s : State) x : ({ s with prt := x } : State).kept = s.kept := rfl
@[simp] theorem kept_with_xtb (s : State) x : ({ s with xtb := x } : State).kept = s.kept := rfl
@[simp] theorem kept_with_que (s : State) x : ({ s with que := x } : State).kept = s.kept := rfl
@[simp] theorem kept_with_slips (s : State) x : ({ s with slips := x } : State).kept = s.kept := rfl
@[simp] theorem kept_with_jik (s : State) x : ({ s with jik := x } : State).kept = s.kept := rfl
@[simp] theorem kept_with_hed (s : State) x : ({ s with hed := x } : State).kept = s.kept := rfl
@[simp] theorem kept_with_egr (s : State) x : ({ s with egr := x } : State).kept = s.kept := rfl
@[simp] theorem kept_with_aud (s : State) x : ({ s with aud := x } : State).kept = s.kept := rfl
@[simp] theorem kept_with_lgt (s : State) x : ({ s with lgt := x } : State).kept = s.kept := rfl
@[simp] theorem kept_with_fld (s : State) x : ({ s with fld := x } : State).kept = s.kept := rfl
@[simp] theorem kept_with_keep (s : State) x : ({ s with keep := x } : State).kept = s.kept := rfl
@[simp] theorem kept_with_nvs (s : State) x : ({ s with nvs := x } : State).kept = s.kept := rfl
@[simp] theorem kept_with_thm (s : State) x : ({ s with thm := x } : State).kept = s.kept := rfl
@[simp] theorem kept_with_pwr (s : State) x : ({ s with pwr := x } : State).kept = s.kept := rfl
@[simp] theorem kept_with_quay (s : State) x : ({ s with quay := x } : State).kept = s.kept := rfl
@[simp] theorem kept_with_evt (s : State) x : ({ s with evt := x } : State).kept = s.kept := rfl
@[simp] theorem kept_with_out (s : State) x : ({ s with out := x } : State).kept = s.kept := rfl
@[simp] theorem kept_with_pins (s : State) x : ({ s with pins := x } : State).kept = s.kept := rfl
@[simp] theorem kept_with_fresh (s : State) (n : Nat) : ({ s with clock := { s.clock with free := n } } : State).kept = s.kept := rfl
@[simp] theorem kept_with_keep_nvs (s : State) x y : ({ s with keep := x, nvs := y } : State).kept = s.kept := rfl

@[simp] theorem kept_with_any (s : State) (a1 a2 a3 a4 a6 a7 a8 a9 a10 a11 a12 a13 a14 a15 a16 a17 a18 a19 a20 a21 a22 a23 a24) :
    ({ s with regs := a1, shadow := a2, clock := a3, pins := a4, cox := a6, syn := a7, prt := a8, xtb := a9, que := a10, slips := a11, jik := a12,
              hed := a13, egr := a14, aud := a15, lgt := a16, fld := a17, keep := a18, nvs := a19, thm := a20, pwr := a21, quay := a22,
              evt := a23, out := a24 } : State).kept = s.kept := rfl

@[simp] theorem State.wr_kept (s : State) (a : Nat) (v : Word) : (State.wr s a v).kept = s.kept := by
  simp [State.wr]
@[simp] theorem State.putWord_kept (s : State) (a : Nat) (w : Word) : (State.putWord s a w).kept = s.kept := by
  simp [State.putWord]
@[simp] theorem State.setF_kept (s : State) (a : Nat) (hi : Nat) (lo : Nat) (v : Nat) : (State.setF s a hi lo v).kept = s.kept := by
  simp [State.setF]
@[simp] theorem State.setB_kept (s : State) (a : Nat) (i : Nat) (v : Bool) : (State.setB s a i v).kept = s.kept := by
  simp [State.setB]
@[simp] theorem State.setI32_kept (s : State) (a : Nat) (v : Int) : (State.setI32 s a v).kept = s.kept := by
  simp [State.setI32]
@[simp] theorem State.wrShadow_kept (s : State) (a : Nat) (v : Word) : (State.wrShadow s a v).kept = s.kept := by
  simp [State.wrShadow]
@[simp] theorem State.reloadShadows_kept (s : State) (p : Nat → Bool) : (State.reloadShadows s p).kept = s.kept := by
  simp [State.reloadShadows]
@[simp] theorem State.takeShadows_kept (s : State) (p : Nat → Bool) : (State.takeShadows s p).kept = s.kept := by
  simp [State.takeShadows]
@[simp] theorem State.fresh_kept (s : State) (w : Nat) : (State.fresh s w).2.kept = s.kept := by
  simp [State.fresh]
@[simp] theorem State.onClock_kept (s : State) (g : Clock → Clock) : (State.onClock s g).kept = s.kept := by
  simp [State.onClock]
@[simp] theorem onlyIf_kept (c : Bool) (g : State → State) (s : State) (h : (g s).kept = s.kept) : (onlyIf c g s).kept = s.kept := by
  cases c <;> simp [onlyIf, h]
@[simp] theorem State.setRing_kept (s : State) (r : Nat) (x : RingSt) : (State.setRing s r x).kept = s.kept := by
  simp [State.setRing]
@[simp] theorem State.satQuiet_kept (s : State) (a : Nat) (n : Nat) (k : Nat) : (State.satQuiet s a n k).kept = s.kept := by
  simp [State.satQuiet]
@[simp] theorem State.noteTail_kept (s : State) (k : Nat) : (State.noteTail s k).kept = s.kept := by
  simp [State.noteTail]
@[simp] theorem State.inOrder_kept (s : State) : (State.inOrder s).kept = s.kept := by
  simp [State.inOrder]
@[simp] theorem State.deliverQuiet_kept (s : State) (r : Nat) (x : Rec) : (State.deliverQuiet s r x).kept = s.kept := by
  simp [State.deliverQuiet]
@[simp] theorem State.dropSat_kept (s : State) (old : State) (a : Nat) : (State.dropSat s old a).kept = s.kept := by
  unfold State.dropSat
  (repeat' split) <;> simp
@[simp] theorem State.deliver_kept (s : State) (r : Nat) (x : Rec) : (State.deliver s r x).kept = s.kept := by
  simp [State.deliver]
@[simp] theorem State.raiseRaw_kept (s : State) (src : Nat) (code : Nat) (inst : Nat) (line : Nat) (data : Nat) : (State.raiseRaw s src code inst line data).kept = s.kept := by
  unfold State.raiseRaw
  (repeat' split) <;> simp
@[simp] theorem State.raise_kept (s : State) (e : Ev) (inst : Nat) (data : Nat) : (State.raise s e inst data).kept = s.kept := by
  simp [State.raise]
@[simp] theorem State.raiseFree_kept (s : State) (e : Ev) (inst : Nat) : (State.raiseFree s e inst).kept = s.kept := by
  simp [State.raiseFree]
@[simp] theorem State.raiseDeferred_kept (s : State) : (State.raiseDeferred s).kept = s.kept := by
  simp [State.raiseDeferred]
@[simp] theorem State.countErr_kept (s : State) (a : Nat) (n : Nat) (k : Nat) : (State.countErr s a n k).kept = s.kept := by
  simp [State.countErr]
@[simp] theorem State.countPerf_kept (s : State) (a : Nat) (n : Nat) (k : Nat) : (State.countPerf s a n k).kept = s.kept := by
  simp [State.countPerf]
@[simp] theorem State.send_kept (s : State) (o : Out) : (State.send s o).kept = s.kept := by
  simp [State.send]
@[simp] theorem State.onPins_kept (s : State) (g : Pins → Pins) : (State.onPins s g).kept = s.kept := by
  simp [State.onPins]
@[simp] theorem State.onEntry_kept (s : State) (i : Nat) (g : EntSt → EntSt) : (State.onEntry s i g).kept = s.kept := by
  simp [State.onEntry]
@[simp] theorem State.onPort_kept (s : State) (p : Nat) (g : PortSt → PortSt) : (State.onPort s p g).kept = s.kept := by
  simp [State.onPort]
@[simp] theorem State.sendLane_kept (s : State) (p : Nat) (syms : List Sym) (masks : List (BitVec 10)) : (State.sendLane s p syms masks).kept = s.kept := by
  simp [State.sendLane]
@[simp] theorem State.sendFrame_kept (s : State) (l : Nat) (o : Out) (syms : List Sym) (masks : List (BitVec 10)) : (State.sendFrame s l o syms masks).kept = s.kept := by
  simp [State.sendFrame]
@[simp] theorem State.laneIdle_kept (s : State) (p : Nat) : (State.laneIdle s p).kept = s.kept := by
  simp [State.laneIdle]
@[simp] theorem State.laneWake_kept (s : State) (p : Nat) : (State.laneWake s p).kept = s.kept := by
  simp [State.laneWake]
@[simp] theorem State.fillWith_kept (s : State) (l : Nat) (c : Sym) : (State.fillWith s l c).kept = s.kept := by
  simp [State.fillWith]
@[simp] theorem State.sendBuoys_kept (s : State) (stroke : Nat) : (State.sendBuoys s stroke).kept = s.kept := by
  simp [State.sendBuoys]
@[simp] theorem State.onCox_kept (s : State) (g : CoxSt → CoxSt) : (State.onCox s g).kept = s.kept := by
  simp [State.onCox]
@[simp] theorem State.onRef_kept (s : State) (n : Nat) (g : RefSt → RefSt) : (State.onRef s n g).kept = s.kept := by
  simp [State.onRef]
@[simp] theorem State.coxNote_kept (s : State) (i : Nat) (e : Ev) : (State.coxNote s i e).kept = s.kept := by
  simp [State.coxNote]
@[simp] theorem State.wtrStop_kept (s : State) : (State.wtrStop s).kept = s.kept := by
  unfold State.wtrStop
  (repeat' split) <;> simp
@[simp] theorem State.wtrStart_kept (s : State) (n : Nat) : (State.wtrStart s n).kept = s.kept := by
  simp [State.wtrStart]
@[simp] theorem State.coxJudge_kept (s : State) (sel : Bool) (fell : Bool) : (State.coxJudge s sel fell).kept = s.kept := by
  unfold State.coxJudge
  (repeat' split) <;> simp
@[simp] theorem State.disqualify_kept (s : State) (n : Nat) : (State.disqualify s n).kept = s.kept := by
  simp [State.disqualify]
@[simp] theorem State.setQl_kept (s : State) (n : Nat) (q : Nat) (src : Nat) : (State.setQl s n q src).kept = s.kept := by
  simp [State.setQl]
@[simp] theorem State.refreshQl_kept (s : State) (n : Nat) : (State.refreshQl s n).kept = s.kept := by
  unfold State.refreshQl
  (repeat' split) <;> simp
@[simp] theorem State.refreshClip_kept (s : State) (n : Nat) : (State.refreshClip s n).kept = s.kept := by
  simp [State.refreshClip]
@[simp] theorem State.refCfgWritten_kept (s : State) (n : Nat) : (State.refCfgWritten s n).kept = s.kept := by
  simp [State.refCfgWritten]
@[simp] theorem State.gateRef_kept (s : State) (n : Nat) (o : Option Int) : (State.gateRef s n o).kept = s.kept := by
  unfold State.gateRef
  (repeat' split) <;> simp
@[simp] theorem State.coxTotal_kept (s : State) : (State.coxTotal s).kept = s.kept := by
  simp [State.coxTotal]
@[simp] theorem coxGate_kept (g : GateIn) (s : State) : (coxGate g s).kept = s.kept := by
  unfold coxGate
  dsimp only
  (repeat' split) <;> simp
@[simp] theorem State.activityLoss_kept (s : State) (n : Nat) : (State.activityLoss s n).kept = s.kept := by
  simp [State.activityLoss]
@[simp] theorem State.activityBack_kept (s : State) (n : Nat) : (State.activityBack s n).kept = s.kept := by
  simp [State.activityBack]
@[simp] theorem qlMessage_kept (n : Nat) (byte : BitVec 8) (framed : Bool) (s : State) : (qlMessage n byte framed s).kept = s.kept := by
  simp [qlMessage]
@[simp] theorem qlTimeout_kept (n : Nat) (s : State) : (qlTimeout n s).kept = s.kept := by
  simp [qlTimeout]
@[simp] theorem coxSelWrite_kept (v : Word) (s : State) : (coxSelWrite v s).kept = s.kept := by
  unfold coxSelWrite
  dsimp only
  (repeat' split) <;> simp
@[simp] theorem coxCtrlWrite_kept (v : Word) (s : State) : (coxCtrlWrite v s).kept = s.kept := by
  simp [coxCtrlWrite]
@[simp] theorem wtrExpiry_kept (n : Nat) (s : State) : (wtrExpiry n s).kept = s.kept := by
  simp [wtrExpiry]
@[simp] theorem State.addBuildout_kept (s : State) (d : Int) : (State.addBuildout s d).kept = s.kept := by
  simp [State.addBuildout]
@[simp] theorem State.slewBy_kept (s : State) (d : Int) : (State.slewBy s d).kept = s.kept := by
  simp [State.slewBy]
@[simp] theorem State.slewUntil_kept (s : State) (t : Nat) : (State.slewUntil s t).kept = s.kept := by
  simp [State.slewUntil]
@[simp] theorem slewWrite_kept (v : Word) (s : State) : (slewWrite v s).kept = s.kept := by
  simp [slewWrite]
@[simp] theorem slewDone_kept (s : State) : (slewDone s).kept = s.kept := by
  simp [slewDone]
@[simp] theorem holdValid_kept (s : State) : (holdValid s).kept = s.kept := by
  simp [holdValid]
@[simp] theorem coxSteerWrite_kept (v : Word) (s : State) : (coxSteerWrite v s).kept = s.kept := by
  simp [coxSteerWrite]
@[simp] theorem tcompUpdate_kept (s : State) : (tcompUpdate s).kept = s.kept := by
  simp [tcompUpdate]
@[simp] theorem State.coxMarker_kept (s : State) (port : Nat) (num : Stroke) (ql : Nat) : (State.coxMarker s port num ql).kept = s.kept := by
  simp [State.coxMarker]
@[simp] theorem State.setInUse_kept (s : State) (n : Nat) : (State.setInUse s n).kept = s.kept := by
  simp [State.setInUse]
@[simp] theorem State.acquire_kept (s : State) (ps : List RefPhase) (n : Nat) : (State.acquire s ps n).kept = s.kept := by
  simp [State.acquire]
@[simp] theorem State.coxLeave_kept (s : State) (dst : Nat) : (State.coxLeave s dst).kept = s.kept := by
  simp [State.coxLeave]
@[simp] theorem State.coxFall_kept (s : State) : (State.coxFall s).kept = s.kept := by
  simp [State.coxFall]
@[simp] theorem State.enterLocked_kept (s : State) : (State.enterLocked s).kept = s.kept := by
  simp [State.enterLocked]
@[simp] theorem State.startSwitch_kept (s : State) (n : Nat) : (State.startSwitch s n).kept = s.kept := by
  simp [State.startSwitch]
@[simp] theorem State.switchStep_kept (s : State) (ps : List RefPhase) (w : Switch) : (State.switchStep s ps w).kept = s.kept := by
  unfold State.switchStep
  dsimp only
  (repeat' split) <;> simp
@[simp] theorem State.switchDrop_kept (s : State) : (State.switchDrop s).kept = s.kept := by
  simp [State.switchDrop]
@[simp] theorem State.coxTransition_kept (s : State) (ps : List RefPhase) : (State.coxTransition s ps).kept = s.kept := by
  unfold State.coxTransition
  dsimp only
  (repeat' split) <;> simp
@[simp] theorem State.coxPins_kept (s : State) : (State.coxPins s).kept = s.kept := by
  simp [State.coxPins]
@[simp] theorem State.syncPin_kept (s : State) (n : Nat) (active : Bool) : (State.syncPin s n active).kept = s.kept := by
  simp [State.syncPin]
@[simp] theorem State.syncPulse_kept (s : State) (n : Nat) : (State.syncPulse s n).kept = s.kept := by
  simp [State.syncPulse]
@[simp] theorem syncPulseEnd_kept (n : Nat) (s : State) : (syncPulseEnd n s).kept = s.kept := by
  simp [syncPulseEnd]
@[simp] theorem syncOutWrite_kept (n : Nat) (w : Word) (s : State) : (syncOutWrite n w s).kept = s.kept := by
  simp [syncOutWrite]
@[simp] theorem coxBoundary_kept (ps : List RefPhase) (s : State) : (coxBoundary ps s).kept = s.kept := by
  unfold coxBoundary
  dsimp only
  (repeat' split) <;> simp
@[simp] theorem State.onNvs_kept (s : State) (g : NvsSt → NvsSt) : (State.onNvs s g).kept = s.kept := by
  simp [State.onNvs]
@[simp] theorem State.nvRead_kept (s : State) : (State.nvRead s).kept = s.kept := by
  simp [State.nvRead]
@[simp] theorem State.noteTorn_kept (s : State) (v : SlotView) (a : Nat) : (State.noteTorn s v a).kept = s.kept := by
  simp [State.noteTorn]
@[simp] theorem State.readRecord_kept (s : State) (a : Nat) (b : Nat) (pages : Nat) (dev : Option Nat) (who : Nat) : (State.readRecord s a b pages dev who).1.kept = s.kept := by
  unfold State.readRecord
  dsimp only
  (repeat' split) <;> simp
@[simp] theorem State.beginJob_kept (s : State) (j : NvsJob) : (State.beginJob s j).kept = s.kept := by
  unfold State.beginJob
  dsimp only
  (repeat' split) <;> simp
@[simp] theorem State.startJob_kept (s : State) (j : NvsJob) : (State.startJob s j).kept = s.kept := by
  unfold State.startJob
  (repeat' split) <;> simp
@[simp] theorem State.nextJob_kept (s : State) : (State.nextJob s).kept = s.kept := by
  unfold State.nextJob
  dsimp only
  (repeat' split) <;> simp
@[simp] theorem State.setPg_kept (s : State) (g : List Nat → List Nat) : (State.setPg s g).kept = s.kept := by
  simp [State.setPg]
@[simp] theorem State.fillKeep_kept (s : State) : s.fillKeep.kept = s.kept := by
  have h : ∀ a b n k j, (s.readRecord a b n k j).1.kept = s.kept := fun a b n k j => State.readRecord_kept s a b n k j
  have h' : ∀ (t : State) a b n k j, (t.readRecord a b n k j).1.kept = t.kept := fun t a b n k j => State.readRecord_kept t a b n k j
  unfold State.fillKeep
  dsimp only
  rw [kept_with_keep_nvs]
  (repeat' split) <;> simp [h']
@[simp] theorem State.writeKeep_kept (s : State) (k : KeepRam) : (State.writeKeep s k).kept = s.kept := by
  simp [State.writeKeep]
@[simp] theorem State.writeLedgers_kept (s : State) : (State.writeLedgers s).kept = s.kept := by
  simp [State.writeLedgers]
@[simp] theorem State.nvsEnd_kept (s : State) (code : Nat) (extra : Nat) : (State.nvsEnd s code extra).kept = s.kept := by
  simp [State.nvsEnd]
@[simp] theorem State.toNvsBuf_kept (s : State) (bs : List Byte) : (State.toNvsBuf s bs).kept = s.kept := by
  simp [State.toNvsBuf]
@[simp] theorem State.nvsCommand_kept (s : State) (op : Nat) : (State.nvsCommand s op).kept = s.kept := by
  unfold State.nvsCommand
  dsimp only
  (repeat' split) <;> simp
@[simp] theorem State.nvsCmdWrite_kept (s : State) (v : Word) : (State.nvsCmdWrite s v).kept = s.kept := by
  simp [State.nvsCmdWrite]
@[simp] theorem State.jobEnd_kept (s : State) (j : NvsJob) : (State.jobEnd s j).kept = s.kept := by
  unfold State.jobEnd
  (repeat' split) <;> simp
@[simp] theorem State.cutJob_kept (s : State) (kind : NvsJobKind → NvsJobKind) : (State.cutJob s kind).kept = s.kept := by
  simp [State.cutJob]
@[simp] theorem State.nvsMatrixReset_kept (s : State) : (State.nvsMatrixReset s).kept = s.kept := by
  unfold State.nvsMatrixReset
  (repeat' split) <;> simp
@[simp] theorem State.abortHost_kept (s : State) : (State.abortHost s).kept = s.kept := by
  simp [State.abortHost]
@[simp] theorem State.signalPowerDown_kept (s : State) (src : Nat) : (State.signalPowerDown s src).kept = s.kept := by
  simp [State.signalPowerDown]
@[simp] theorem State.resetRegs_kept (s : State) (warm : Bool) : (State.resetRegs s warm).kept = s.kept := by
  simp [State.resetRegs]
@[simp] theorem State.warmKept_kept (s t : State) : (s.warmKept t).kept = t.kept := by
  unfold State.warmKept
  dsimp only
  rw [kept_with_syn, State.wr_kept, State.wr_kept]
  exact forAll_kept _ _ _ fun _ _ _ => State.wr_kept _ _ _
@[simp] theorem State.onPwr_kept (s : State) (g : PwrSt → PwrSt) : (State.onPwr s g).kept = s.kept := by
  simp [State.onPwr]
@[simp] theorem State.addCause_kept (s : State) (i : Nat) : (State.addCause s i).kept = s.kept := by
  simp [State.addCause]
@[simp] theorem State.holdHist_kept (s : State) (i : Nat) : (State.holdHist s i).kept = s.kept := by
  simp [State.holdHist]
@[simp] theorem State.countRestart_kept (s : State) : (State.countRestart s).kept = s.kept := by
  unfold State.countRestart
  repeat' first | rfl | dsimp only | (simp; done) | (rename_i heq; have hk := congrArg (fun p => p.2.kept) heq; simp at hk; simp [← hk]; done) | (refine (forAll_kept _ _ _ fun _ _ _ => ?_).trans ?_) | (refine (onlyIf_kept _ _ _ ?_).trans ?_) | (refine (foldl_kept _ _ _ fun _ _ _ => ?_).trans ?_) | split
@[simp] theorem State.lightsOff_kept (s : State) : (State.lightsOff s).kept = s.kept := by
  simp [State.lightsOff]
@[simp] theorem State.dropAll_kept (s : State) (why : OffWhy) : (State.dropAll s why).kept = s.kept := by
  simp [State.dropAll]
@[simp] theorem State.powerDownFrom_kept (s : State) (n : Nat) (why : OffWhy) : (State.powerDownFrom s n why).kept = s.kept := by
  simp [State.powerDownFrom]
@[simp] theorem State.wakeSeen_kept (s : State) : s.wakeSeen.kept = s.kept := by
  simp [State.wakeSeen]
@[simp] theorem State.endLockout_kept (s : State) : s.endLockout.kept = s.kept := by
  unfold State.endLockout
  dsimp only
  split <;> simp
@[simp] theorem State.wakeInactive_kept (s : State) : (State.wakeInactive s).kept = s.kept := by
  unfold State.wakeInactive
  dsimp only
  (repeat' split) <;> simp
@[simp] theorem pwrEnRise_kept (s : State) : (pwrEnRise s).kept = s.kept := by
  unfold pwrEnRise
  (repeat' split) <;> simp
@[simp] theorem pgGood_kept (n : Nat) (s : State) : (pgGood n s).kept = s.kept := by
  simp [pgGood]
@[simp] theorem pgTimeout_kept (n : Nat) (s : State) : (pgTimeout n s).kept = s.kept := by
  simp [pgTimeout]
@[simp] theorem powerdownStep_kept (s : State) : (powerdownStep s).kept = s.kept := by
  unfold powerdownStep
  (repeat' split) <;> simp
@[simp] theorem resetPinRelease_kept (s : State) : (resetPinRelease s).kept = s.kept := by
  unfold resetPinRelease
  dsimp only
  (repeat' split) <;> simp
@[simp] theorem wdtCfgWrite_kept (v : Word) (s : State) : (wdtCfgWrite v s).kept = s.kept := by
  simp [wdtCfgWrite]
@[simp] theorem wdtWarn_kept (s : State) : (wdtWarn s).kept = s.kept := by
  simp [wdtWarn]
@[simp] theorem pfiRise_kept (s : State) : (pfiRise s).kept = s.kept := by
  simp [pfiRise]
@[simp] theorem State.lightDieStart_kept (s : State) (shdn : Word) : (State.lightDieStart s shdn).kept = s.kept := by
  simp [State.lightDieStart]
@[simp] theorem vddLdRise_kept (s : State) : (vddLdRise s).kept = s.kept := by
  simp [vddLdRise]
@[simp] theorem lightDieResume_kept (s : State) : (lightDieResume s).kept = s.kept := by
  simp [lightDieResume]
@[simp] theorem State.onThm_kept (s : State) (g : ThmSt → ThmSt) : (State.onThm s g).kept = s.kept := by
  simp [State.onThm]
@[simp] theorem State.takeReading_kept (s : State) (c : Nat) (temp : Int) : (State.takeReading s c temp).kept = s.kept := by
  simp [State.takeReading]
@[simp] theorem State.markBroken_kept (s : State) (c : Nat) : (State.markBroken s c).kept = s.kept := by
  simp [State.markBroken]
@[simp] theorem State.crossCheck_kept (s : State) (v : State) (c : Nat) : (State.crossCheck s v c).kept = s.kept := by
  simp [State.crossCheck]
@[simp] theorem State.showThrottle_kept (s : State) (on : Bool) : (State.showThrottle s on).kept = s.kept := by
  simp [State.showThrottle]
@[simp] theorem thmOffsetUpdate_kept (s : State) : (thmOffsetUpdate s).kept = s.kept := by
  simp [thmOffsetUpdate]
@[simp] theorem State.thmHistBit_kept (s : State) (i : Nat) : (State.thmHistBit s i).kept = s.kept := by
  simp [State.thmHistBit]
@[simp] theorem State.takeThreshold_kept (s : State) (t : Threshold) (v : Word) : (State.takeThreshold s t v).kept = s.kept := by
  simp [State.takeThreshold]
@[simp] theorem State.putThreshold_kept (s : State) (t : Threshold) (v : Word) : (State.putThreshold s t v).kept = s.kept := by
  simp [State.putThreshold]
@[simp] theorem State.placeThresholds_kept (s : State) (ws : List (Nat × Word)) : (State.placeThresholds s ws).kept = s.kept := by
  unfold State.placeThresholds
  repeat' first | rfl | dsimp only | (simp; done) | (rename_i heq; have hk := congrArg (fun p => p.2.kept) heq; simp at hk; simp [← hk]; done) | (refine (forAll_kept _ _ _ fun _ _ _ => ?_).trans ?_) | (refine (onlyIf_kept _ _ _ ?_).trans ?_) | (refine (foldl_kept _ _ _ fun _ _ _ => ?_).trans ?_) | split
@[simp] theorem thresholdWrite_kept (t : Threshold) (v : Word) (s : State) : (thresholdWrite t v s).kept = s.kept := by
  simp [thresholdWrite]
@[simp] theorem State.onLgt_kept (s : State) (g : LgtSt → LgtSt) : (State.onLgt s g).kept = s.kept := by
  simp [State.onLgt]
@[simp] theorem State.refreshAmps_kept (s : State) : (State.refreshAmps s).kept = s.kept := by
  unfold State.refreshAmps
  repeat' first | rfl | dsimp only | (simp; done) | (refine (forAll_kept _ _ _ fun _ _ _ => ?_).trans ?_) | (refine (onlyIf_kept _ _ _ ?_).trans ?_) | split
@[simp] theorem State.lampLevel_kept (s : State) (old : Option LightMsg) (m : LightMsg) (l : Nat) : (State.lampLevel s old m l).kept = s.kept := by
  simp [State.lampLevel]
@[simp] theorem State.fadeStep_kept (s : State) : (State.fadeStep s).kept = s.kept := by
  simp [State.fadeStep]
@[simp] theorem State.showStr_kept (s : State) (c : Nat) (x : StringSt) : (State.showStr s c x).kept = s.kept := by
  simp [State.showStr]
@[simp] theorem State.showLampFault_kept (s : State) : (State.showLampFault s).kept = s.kept := by
  simp [State.showLampFault]
@[simp] theorem State.setStr_kept (s : State) (c : Nat) (x : StringSt) : (State.setStr s c x).kept = s.kept := by
  unfold State.setStr
  (repeat' split) <;> simp
@[simp] theorem State.measure_kept (s : State) (m : StringMeas) : (State.measure s m).kept = s.kept := by
  simp [State.measure]
@[simp] theorem State.unmeasured_kept (s : State) (c : Nat) : (State.unmeasured s c).kept = s.kept := by
  simp [State.unmeasured]
@[simp] theorem State.countPeriod_kept (s : State) (c : Nat) (pulse : Bool) : (State.countPeriod s c pulse).kept = s.kept := by
  simp [State.countPeriod]
@[simp] theorem State.spreadShorts_kept (s : State) : (State.spreadShorts s).kept = s.kept := by
  simp [State.spreadShorts]
@[simp] theorem neighbourTest_kept (high : List Nat) (s : State) : (neighbourTest high s).kept = s.kept := by
  simp [neighbourTest]
@[simp] theorem retest_kept (n : Nat) (v : Word) (s : State) : (retest n v s).kept = s.kept := by
  simp [retest]
@[simp] theorem lightMessage_kept (s : State) : (lightMessage s).kept = s.kept := by
  unfold lightMessage
  (repeat' split) <;> simp
@[simp] theorem lightMsgTimeout_kept (s : State) : (lightMsgTimeout s).kept = s.kept := by
  simp [lightMsgTimeout]
@[simp] theorem State.boostStep_kept (s : State) : (State.boostStep s).kept = s.kept := by
  unfold State.boostStep
  (repeat' split) <;> simp
@[simp] theorem State.raiseString_kept (s : State) (e : Ev) : (State.raiseString s e).kept = s.kept := by
  simp [State.raiseString]
@[simp] theorem State.takeNtc_kept (s : State) (n : Nat) (v : Option Int) : (State.takeNtc s n v).kept = s.kept := by
  unfold State.takeNtc
  dsimp only
  (repeat' split) <;> simp
@[simp] theorem State.drive_kept (s : State) (ms : List StringMeas) (start : Nat) (c : Nat) : (State.drive s ms start c).kept = s.kept := by
  unfold State.drive
  (repeat' split) <;> simp
@[simp] theorem pwmPeriod_kept (m : PwmIn) (s : State) : (pwmPeriod m s).kept = s.kept := by
  unfold pwmPeriod
  (repeat' split) <;> simp
@[simp] theorem boostOvervoltage_kept (s : State) : (boostOvervoltage s).kept = s.kept := by
  simp [boostOvervoltage]
@[simp] theorem boostRestart_kept (s : State) : (boostRestart s).kept = s.kept := by
  simp [boostRestart]
@[simp] theorem State.lightStart_kept (s : State) (cfg : LightCfg) : (State.lightStart s cfg).kept = s.kept := by
  simp [State.lightStart]
@[simp] theorem State.injected_kept (s : State) (p : Nat) (n : Nat) : (State.injected s p n).kept = s.kept := by
  simp [State.injected]
@[simp] theorem State.flipMasks_kept (n : Nat) : ∀ s : State, (s.flipMasks n).2.kept = s.kept := by
  induction n with
  | zero => exact fun _ => rfl
  | succ n ih => intro s; unfold State.flipMasks; simp [ih]
@[simp] theorem State.corrupted_kept (s : State) (p : Nat) (tx : Bool) (n : Nat) : (State.corrupted s p tx n).2.2.kept = s.kept := by
  unfold State.corrupted
  split
  · simp
  · rfl
@[simp] theorem State.transmit_kept (s : State) (p : Nat) (stream : Option Nat) (poison : Bool) (bs : List Byte) : (State.transmit s p stream poison bs).kept = s.kept := by
  simp [State.transmit]
@[simp] theorem State.sendMsg_kept (s : State) (p : Nat) (m : Msg) : (State.sendMsg s p m).kept = s.kept := by
  simp [State.sendMsg]
@[simp] theorem State.issueNow_kept (s : State) (p : Nat) (q : XactWait) : (State.issueNow s p q).kept = s.kept := by
  simp [State.issueNow]
@[simp] theorem State.issueWaits_kept (s : State) (p : Nat) : (s.issueWaits p).kept = s.kept := by
  unfold State.issueWaits
  exact foldl_proj State.kept _ _ _ fun t _ => by (repeat' split) <;> simp
@[simp] theorem State.request_kept (s : State) (p : Nat) (q : XactWait) : (State.request s p q).kept = s.kept := by
  simp [State.request]
@[simp] theorem State.writeBackFailed_kept (s : State) (u : Nat) : (State.writeBackFailed s u).kept = s.kept := by
  simp [State.writeBackFailed]
@[simp] theorem State.xactResult_kept (s : State) (p : Nat) (use : XactUse) (code : Nat) (data : List Byte) : (State.xactResult s p use code data).kept = s.kept := by
  unfold State.xactResult
  (repeat' split) <;> simp
@[simp] theorem State.xactFail_kept (s : State) (p : Nat) (code : Nat) (x : Xact) : (State.xactFail s p code x).kept = s.kept := by
  simp [State.xactFail]
@[simp] theorem State.linkDown_kept (s : State) (p : Nat) : (State.linkDown s p).kept = s.kept := by
  simp [State.linkDown]
@[simp] theorem xactTimeout_kept (p : Nat) (tag : Nat) (s : State) : (xactTimeout p tag s).kept = s.kept := by
  unfold xactTimeout
  (repeat' split) <;> simp
@[simp] theorem State.response_kept (s : State) (p : Nat) (m : Msg) : (State.response s p m).kept = s.kept := by
  unfold State.response
  (repeat' split) <;> simp
@[simp] theorem State.serve_kept (s : State) (p : Nat) (m : Msg) : (State.serve s p m).2.2.kept = s.kept := by
  unfold State.serve
  dsimp only
  (repeat' split) <;> simp
@[simp] theorem State.serveOnce_kept (s : State) (p : Nat) (m : Msg) (crc : Nat) : (State.serveOnce s p m crc).2.kept = s.kept := by
  unfold State.serveOnce
  dsimp only
  (repeat' split) <;> simp
@[simp] theorem State.windowTake_kept (s : State) (p : Nat) (stream : Nat) (seq : Nat) : (State.windowTake s p stream seq).2.kept = s.kept := by
  unfold State.windowTake
  dsimp only
  (repeat' split) <;> simp
@[simp] theorem State.clearWindows_kept (s : State) (p : Nat) : (State.clearWindows s p).kept = s.kept := by
  simp [State.clearWindows]
@[simp] theorem State.corruptFill_kept (s : State) (l : Nat) (tx : Bool) : (State.corruptFill s l tx).kept = s.kept := by
  simp [State.corruptFill]
@[simp] theorem State.corruptFills_kept (s : State) : (State.corruptFills s).kept = s.kept := by
  simp [State.corruptFills]
@[simp] theorem State.refsSilent_kept (s : State) (p : Nat) : (State.refsSilent s p).kept = s.kept := by
  simp [State.refsSilent]
@[simp] theorem State.markerMiss_kept (s : State) (p : Nat) : (State.markerMiss s p).kept = s.kept := by
  simp [State.markerMiss]
@[simp] theorem markerReceived_kept (p : Nat) (bs : List Byte) (errs : Nat) (s : State) : (markerReceived p bs errs s).kept = s.kept := by
  simp [markerReceived]
@[simp] theorem markerMissing_kept (p : Nat) (s : State) : (markerMissing p s).kept = s.kept := by
  simp [markerMissing]
@[simp] theorem State.sendMarkers_kept (s : State) : (State.sendMarkers s).kept = s.kept := by
  simp [State.sendMarkers]
@[simp] theorem State.onSyn_kept (s : State) (i : Nat) (g : SynSt → SynSt) : (State.onSyn s i g).kept = s.kept := by
  simp [State.onSyn]
@[simp] theorem State.setSynState_kept (s : State) (i : Nat) (v : Nat) : (State.setSynState s i v).kept = s.kept := by
  simp [State.setSynState]
@[simp] theorem State.settleSyn_kept (s : State) (p : Nat) : (State.settleSyn s p).kept = s.kept := by
  simp [State.settleSyn]
@[simp] theorem State.bandPlaced_kept (s : State) (a : Nat) : (State.bandPlaced s a).kept = s.kept := by
  simp [State.bandPlaced]
@[simp] theorem State.synAcquireOn_kept (s : State) (i : Nat) (k : Nat) (b : Nat) (rg : Int × Int) : (State.synAcquireOn s i k b rg).kept = s.kept := by
  simp [State.synAcquireOn]
@[simp] theorem State.synAcquire_kept (s : State) (i : Nat) : (State.synAcquire s i).kept = s.kept := by
  unfold State.synAcquire
  (repeat' split) <;> simp
@[simp] theorem State.synStaleCheck_kept (s : State) (i : Nat) : (State.synStaleCheck s i).kept = s.kept := by
  simp [State.synStaleCheck]
@[simp] theorem State.synStaleAll_kept (s : State) : (State.synStaleAll s).kept = s.kept := by
  simp [State.synStaleAll]
@[simp] theorem synLockLoss_kept (i : Nat) (refLost : Bool) (s : State) : (synLockLoss i refLost s).kept = s.kept := by
  simp [synLockLoss]
@[simp] theorem State.engDivider_kept (s : State) (half : Bool) : (State.engDivider s half).kept = s.kept := by
  simp [State.engDivider]
@[simp] theorem State.setLadder_kept (s : State) (l : Nat) (rung : Nat) : (State.setLadder s l rung).kept = s.kept := by
  simp [State.setLadder]
@[simp] theorem State.setRate_kept (s : State) (l : Nat) (r : Nat) : (State.setRate s l r).kept = s.kept := by
  simp [State.setRate]
@[simp] theorem State.showGood_kept (s : State) (l : Nat) : (State.showGood s l).kept = s.kept := by
  simp [State.showGood]
@[simp] theorem State.setLock_kept (s : State) (p : Nat) (on : Bool) : (State.setLock s p on).kept = s.kept := by
  simp [State.setLock]
@[simp] theorem State.onLanes_kept (s : State) (l : Nat) (g : PortSt → PortSt) : (State.onLanes s l g).kept = s.kept := by
  simp [State.onLanes]
@[simp] theorem State.enterDetect_kept (s : State) (l : Nat) : (State.enterDetect s l).kept = s.kept := by
  simp [State.enterDetect]
@[simp] theorem State.portStart_kept (s : State) (p : Nat) : (State.portStart s p).kept = s.kept := by
  simp [State.portStart]
@[simp] theorem State.trainWith_kept (s : State) (l : Nat) (retrain : Bool) (c : Sym) : (State.trainWith s l retrain c).kept = s.kept := by
  simp [State.trainWith]
@[simp] theorem State.enterTrain_kept (s : State) (l : Nat) (retrain : Bool) : (State.enterTrain s l retrain).kept = s.kept := by
  simp [State.enterTrain]
@[simp] theorem State.trainEnds_kept (s : State) (l : Nat) : (State.trainEnds s l).kept = s.kept := by
  simp [State.trainEnds]
@[simp] theorem State.glassSetup_kept (s : State) (l : Nat) : (State.glassSetup s l).kept = s.kept := by
  simp [State.glassSetup]
@[simp] theorem State.enterRun_kept (s : State) (l : Nat) : (State.enterRun s l).kept = s.kept := by
  simp [State.enterRun]
@[simp] theorem State.offerStep_kept (s : State) (l : Nat) (r : Nat) : (State.offerStep s l r).kept = s.kept := by
  simp [State.offerStep]
@[simp] theorem State.stepOrRun_kept (s : State) (l : Nat) : (State.stepOrRun s l).kept = s.kept := by
  simp [State.stepOrRun]
@[simp] theorem State.stepFail_kept (s : State) (l : Nat) (lost : Bool) : (State.stepFail s l lost).kept = s.kept := by
  unfold State.stepFail
  (repeat' split) <;> simp
@[simp] theorem State.stepBoundary_kept (s : State) (l : Nat) : (State.stepBoundary s l).kept = s.kept := by
  unfold State.stepBoundary
  (repeat' split) <;> simp
@[simp] theorem State.rateReceived_kept (s : State) (l : Nat) (pl : List Byte) : (State.rateReceived s l pl).kept = s.kept := by
  simp [State.rateReceived]
@[simp] theorem detectDone_kept (p : Nat) (s : State) : (detectDone p s).kept = s.kept := by
  simp [detectDone]
@[simp] theorem State.trainCheck_kept (s : State) (l : Nat) : (State.trainCheck s l).kept = s.kept := by
  simp [State.trainCheck]
@[simp] theorem trainDone_kept (p : Nat) (inverted : Bool) (s : State) : (trainDone p inverted s).kept = s.kept := by
  simp [trainDone]
@[simp] theorem trainTimeout_kept (p : Nat) (aligned : Bool) (s : State) : (trainTimeout p aligned s).kept = s.kept := by
  simp [trainTimeout]
@[simp] theorem negTransmit_kept (p : Nat) (s : State) : (negTransmit p s).kept = s.kept := by
  simp [negTransmit]
@[simp] theorem State.negReceived_kept (s : State) (l : Nat) (pl : List Byte) : (State.negReceived s l pl).kept = s.kept := by
  simp [State.negReceived]
@[simp] theorem State.pullApply_kept (s : State) (l : Nat) (w : Word) : (State.pullApply s l w).kept = s.kept := by
  simp [State.pullApply]
@[simp] theorem State.statusReceived_kept (s : State) (l : Nat) (pl : List Byte) : (State.statusReceived s l pl).kept = s.kept := by
  simp [State.statusReceived]
@[simp] theorem State.pullJudge_kept (s : State) (l : Nat) : (State.pullJudge s l).kept = s.kept := by
  simp [State.pullJudge]
@[simp] theorem pullCfgWrite_kept (p : Nat) (w : Word) (s : State) : (pullCfgWrite p w s).kept = s.kept := by
  simp [pullCfgWrite]
@[simp] theorem State.backTo_kept (s : State) (l : Nat) (i : Nat) : (State.backTo s l i).kept = s.kept := by
  simp [State.backTo]
@[simp] theorem State.backMove_kept (s : State) (l : Nat) : (State.backMove s l).kept = s.kept := by
  unfold State.backMove
  (repeat' split) <;> simp
@[simp] theorem State.negotiated_kept (s : State) (l : Nat) (pl : List Byte) : (State.negotiated s l pl).kept = s.kept := by
  simp [State.negotiated]
@[simp] theorem negotiateDone_kept (p : Nat) (s : State) : (negotiateDone p s).kept = s.kept := by
  unfold negotiateDone
  dsimp only
  (repeat' split) <;> simp
@[simp] theorem negotiateTimeout_kept (p : Nat) (s : State) : (negotiateTimeout p s).kept = s.kept := by
  simp [negotiateTimeout]
@[simp] theorem stepDone_kept (p : Nat) (eye : Nat) (s : State) : (stepDone p eye s).kept = s.kept := by
  unfold stepDone
  dsimp only
  (repeat' split) <;> simp
@[simp] theorem stepTimeout_kept (p : Nat) (s : State) : (stepTimeout p s).kept = s.kept := by
  unfold stepTimeout
  (repeat' split) <;> simp
@[simp] theorem rateAgreeTimeout_kept (p : Nat) (s : State) : (rateAgreeTimeout p s).kept = s.kept := by
  unfold rateAgreeTimeout
  (repeat' split) <;> simp
@[simp] theorem stepRetry_kept (p : Nat) (s : State) : (stepRetry p s).kept = s.kept := by
  unfold stepRetry
  dsimp only
  (repeat' split) <;> simp
@[simp] theorem restep_kept (p : Nat) (s : State) : (restep p s).kept = s.kept := by
  simp [restep]
@[simp] theorem State.relockTrain_kept (s : State) (l : Nat) : (State.relockTrain s l).kept = s.kept := by
  simp [State.relockTrain]
@[simp] theorem laneLockLoss_kept (p : Nat) (s : State) : (laneLockLoss p s).kept = s.kept := by
  simp [laneLockLoss]
@[simp] theorem retrainTimeout_kept (p : Nat) (s : State) : (retrainTimeout p s).kept = s.kept := by
  simp [retrainTimeout]
@[simp] theorem laneRelock_kept (p : Nat) (s : State) : (laneRelock p s).kept = s.kept := by
  simp [laneRelock]
@[simp] theorem buoyReceived_kept (p : Nat) (skew : Nat) (index : Nat) (count : Nat) (s : State) : (buoyReceived p skew index count s).kept = s.kept := by
  simp [buoyReceived]
@[simp] theorem State.offerStripe_kept (s : State) (l : Nat) (widen : Bool) (width : Nat) (mask : Nat) : (State.offerStripe s l widen width mask).kept = s.kept := by
  simp [State.offerStripe]
@[simp] theorem groupNarrow_kept (p : Nat) (s : State) : (groupNarrow p s).kept = s.kept := by
  simp [groupNarrow]
@[simp] theorem widen_kept (p : Nat) (s : State) : (widen p s).kept = s.kept := by
  simp [widen]
@[simp] theorem State.stripeReceived_kept (s : State) (l : Nat) (m : Msg) : (State.stripeReceived s l m).kept = s.kept := by
  unfold State.stripeReceived
  (repeat' split) <;> simp
@[simp] theorem State.restripe_kept (s : State) (l : Nat) (o : Offer) : (State.restripe s l o).kept = s.kept := by
  simp [State.restripe]
@[simp] theorem State.stripeBoundary_kept (s : State) (l : Nat) : (State.stripeBoundary s l).kept = s.kept := by
  unfold State.stripeBoundary
  dsimp only
  (repeat' split) <;> simp
@[simp] theorem State.portBoundary_kept (s : State) (l : Nat) : (State.portBoundary s l).kept = s.kept := by
  simp [State.portBoundary]
@[simp] theorem State.portsBoundary_kept (s : State) : (State.portsBoundary s).kept = s.kept := by
  simp [State.portsBoundary]
@[simp] theorem State.txIdleEnter_kept (s : State) (l : Nat) : (State.txIdleEnter s l).kept = s.kept := by
  simp [State.txIdleEnter]
@[simp] theorem idleEnter_kept (p : Nat) (s : State) : (idleEnter p s).kept = s.kept := by
  simp [idleEnter]
@[simp] theorem State.idleOver_kept (s : State) (l : Nat) : (State.idleOver s l).kept = s.kept := by
  simp [State.idleOver]
@[simp] theorem idleExit_kept (p : Nat) (s : State) : (idleExit p s).kept = s.kept := by
  simp [idleExit]
@[simp] theorem rxIdleEntry_kept (p : Nat) (s : State) : (rxIdleEntry p s).kept = s.kept := by
  simp [rxIdleEntry]
@[simp] theorem rxIdleExit_kept (p : Nat) (s : State) : (rxIdleExit p s).kept = s.kept := by
  simp [rxIdleExit]
@[simp] theorem idleExitTimeout_kept (p : Nat) (s : State) : (idleExitTimeout p s).kept = s.kept := by
  simp [idleExitTimeout]
@[simp] theorem retrain_kept (p : Nat) (s : State) : (retrain p s).kept = s.kept := by
  simp [retrain]
@[simp] theorem State.wakePort_kept (s : State) (l : Nat) : (State.wakePort s l).kept = s.kept := by
  simp [State.wakePort]
@[simp] theorem State.haltPorts_kept (s : State) (i : Nat) : (State.haltPorts s i).kept = s.kept := by
  refine forAll_kept _ _ _ fun l _ t => ?_
  dsimp only
  split
  · simp
  · (repeat' split) <;> simp
@[simp] theorem State.wakePorts_kept (s : State) (i : Nat) : (State.wakePorts s i).kept = s.kept := by
  simp [State.wakePorts]
@[simp] theorem prbsCtrlWrite_kept (p : Nat) (w : Word) (s : State) : (prbsCtrlWrite p w s).kept = s.kept := by
  simp [prbsCtrlWrite]
@[simp] theorem prbsCheckerSync_kept (p : Nat) (bits : Nat) (errs : Nat) (s : State) : (prbsCheckerSync p bits errs s).kept = s.kept := by
  simp [prbsCheckerSync]
@[simp] theorem State.setEye_kept (s : State) (o : Nat) (x : EyeSt) : (State.setEye s o x).kept = s.kept := by
  simp [State.setEye]
@[simp] theorem eyeScan_kept (o : Nat) (w : Word) (s : State) : (eyeScan o w s).kept = s.kept := by
  simp [eyeScan]
@[simp] theorem eyeScanDone_kept (o : Nat) (height : Nat) (width : Nat) (s : State) : (eyeScanDone o height width s).kept = s.kept := by
  simp [eyeScanDone]
@[simp] theorem rbCfgWrite_kept (k : Nat) (w : Word) (s : State) : (rbCfgWrite k w s).kept = s.kept := by
  simp [rbCfgWrite]
@[simp] theorem rbSyncGained_kept (k : Nat) (s : State) : (rbSyncGained k s).kept = s.kept := by
  simp [rbSyncGained]
@[simp] theorem State.rbCounts_kept (s : State) (k : Nat) (mism : Nat) (inval : Nat) : (State.rbCounts s k mism inval).kept = s.kept := by
  simp [State.rbCounts]
@[simp] theorem extest_kept (on : Bool) (s : State) : (extest on s).kept = s.kept := by
  simp [extest]
@[simp] theorem invalidSymbol_kept (p : Nat) (s : State) : (invalidSymbol p s).kept = s.kept := by
  simp [invalidSymbol]
@[simp] theorem hostXact_kept (op : Nat) (p : Nat) (w : Word) (s : State) : (hostXact op p w s).kept = s.kept := by
  simp [hostXact]
@[simp] theorem rwKey_kept (p : Nat) (w : Word) (s : State) : (rwKey p w s).kept = s.kept := by
  simp [rwKey]
@[simp] theorem State.roughWork_kept (s : State) (p : Nat) (w : Word) : (State.roughWork s p w).kept = s.kept := by
  simp [State.roughWork]
@[simp] theorem State.farRough_kept (s : State) (p : Nat) : (State.farRough s p).kept = s.kept := by
  simp [State.farRough]
@[simp] theorem rwCtrlWrite_kept (p : Nat) (w : Word) (s : State) : (rwCtrlWrite p w s).kept = s.kept := by
  simp [rwCtrlWrite]
@[simp] theorem rwLossGo_kept (p : Nat) (w : Word) (s : State) : (rwLossGo p w s).kept = s.kept := by
  simp [rwLossGo]
@[simp] theorem State.onSlip_kept (s : State) (k : Nat) (g : SlipSt → SlipSt) : (State.onSlip s k g).kept = s.kept := by
  simp [State.onSlip]
@[simp] theorem State.onSlot_kept (s : State) (k : Nat) (j : Nat) (g : SlotSt → SlotSt) : (State.onSlot s k j g).kept = s.kept := by
  simp [State.onSlot]
@[simp] theorem State.moveBeats_kept (s : State) (k : Nat) (j : Nat) (l : Nat) (i : Nat) (n : Nat) : (State.moveBeats s k j l i n).kept = s.kept := by
  simp [State.moveBeats]
@[simp] theorem State.fetchLine_kept (s : State) (k : Nat) (j : Nat) (l : Nat) : (State.fetchLine s k j l).kept = s.kept := by
  simp [State.fetchLine]
@[simp] theorem State.slipCoding_kept (s : State) (k : Nat) : (State.slipCoding s k).kept = s.kept := by
  simp [State.slipCoding]
@[simp] theorem State.showSlip_kept (s : State) (k : Nat) : (State.showSlip s k).kept = s.kept := by
  unfold State.showSlip
  (repeat' split) <;> simp
@[simp] theorem State.dropFrame_kept (s : State) (k : Nat) (j : Nat) : (State.dropFrame s k j).kept = s.kept := by
  simp [State.dropFrame]
@[simp] theorem State.completeFrame_kept (s : State) (k : Nat) (j : Nat) : (State.completeFrame s k j).kept = s.kept := by
  simp [State.completeFrame]
@[simp] theorem State.discardFilling_kept (s : State) (k : Nat) : (State.discardFilling s k).kept = s.kept := by
  unfold State.discardFilling
  (repeat' split) <;> simp
@[simp] theorem State.skipFrame_kept (s : State) (k : Nat) : (State.skipFrame s k).kept = s.kept := by
  simp [State.skipFrame]
@[simp] theorem State.phaseKnown_kept (s : State) (k : Nat) (t : Nat) : (State.phaseKnown s k t).kept = s.kept := by
  simp [State.phaseKnown]
@[simp] theorem State.captureStart_kept (s : State) (k : Nat) (frame : Nat) (start : Bool) : (State.captureStart s k frame start).kept = s.kept := by
  unfold State.captureStart
  dsimp only
  (repeat' split) <;> simp
@[simp] theorem State.slipOpen_kept (s : State) (k : Nat) (frame : Nat) (start : Bool) : (State.slipOpen s k frame start).kept = s.kept := by
  unfold State.slipOpen
  (repeat' split) <;> simp
@[simp] theorem State.slipClose_kept (s : State) (k : Nat) (frame : Nat) : (State.slipClose s k frame).kept = s.kept := by
  unfold State.slipClose
  (repeat' split) <;> simp
@[simp] theorem State.pin_kept (s : State) (k : Nat) (j : Nat) (r : Nat) : (State.pin s k j r).kept = s.kept := by
  simp [State.pin]
@[simp] theorem State.pinPick_kept (s : State) (p : Pick) (r : Nat) : (State.pinPick s p r).kept = s.kept := by
  simp [State.pinPick]
@[simp] theorem State.unpin_kept (s : State) (k : Nat) (r : Nat) : (State.unpin s k r).kept = s.kept := by
  simp [State.unpin]
@[simp] theorem State.selectFrame_kept (s : State) (k : Nat) (x : Nat) (r : Nat) (last : Option Pick) : (State.selectFrame s k x r last).2.kept = s.kept := by
  unfold State.selectFrame
  (repeat' split) <;> simp
@[simp] theorem State.fetchPick_kept (s : State) (p : Pick) (l : Nat) : (State.fetchPick s p l).kept = s.kept := by
  simp [State.fetchPick]
@[simp] theorem slipCommit_kept (k : Nat) (s : State) : (slipCommit k s).kept = s.kept := by
  simp [slipCommit]
@[simp] theorem xformWrite_kept (x : Nat) (j : Nat) (w : Word) (s : State) : (xformWrite x j w s).kept = s.kept := by
  simp [xformWrite]
@[simp] theorem State.slipsNewStroke_kept (s : State) : (State.slipsNewStroke s).kept = s.kept := by
  simp [State.slipsNewStroke]
@[simp] theorem State.onGrp_kept (s : State) (g : Nat) (f : GrpSt → GrpSt) : (State.onGrp s g f).kept = s.kept := by
  simp [State.onGrp]
@[simp] theorem State.entryTo_kept (s : State) (i : Nat) (st : EntState) (reason : Nat) : (State.entryTo s i st reason).kept = s.kept := by
  simp [State.entryTo]
@[simp] theorem State.noteBlank_kept (s : State) (n : Nat) (blank : Bool) : (State.noteBlank s n blank).kept = s.kept := by
  simp [State.noteBlank]
@[simp] theorem State.emptyEntry_kept (s : State) (i : Nat) (reason : Nat) : (State.emptyEntry s i reason).kept = s.kept := by
  simp [State.emptyEntry]
@[simp] theorem State.countRefused_kept (s : State) (n : Nat) : (State.countRefused s n).kept = s.kept := by
  simp [State.countRefused]
@[simp] theorem State.grpTo_kept (s : State) (g : Nat) (st : GrpState) (reason : Nat) : (State.grpTo s g st reason).kept = s.kept := by
  simp [State.grpTo]
@[simp] theorem State.refuse_kept (s : State) (g : Nat) (es : List Nat) (reason : Nat) (dropped : Bool) : (State.refuse s g es reason dropped).kept = s.kept := by
  simp [State.refuse]
@[simp] theorem State.writeEntry_kept (s : State) (i : Nat) (w0 : Word) (w1 : Word) (w2 : Word) (w3 : Word) : (State.writeEntry s i w0 w1 w2 w3).kept = s.kept := by
  simp [State.writeEntry]
@[simp] theorem xtbWord3Write_kept (i : Nat) (w : Word) (s : State) : (xtbWord3Write i w s).kept = s.kept := by
  unfold xtbWord3Write
  (repeat' split) <;> first | (simp; done) | (simp; rfl)
@[simp] theorem State.armStat_kept (s : State) (g : Nat) (reason : Nat) : (State.armStat s g reason).kept = s.kept := by
  simp [State.armStat]
@[simp] theorem xtbCancel_kept (s : State) : (xtbCancel s).kept = s.kept := by
  simp [xtbCancel]
@[simp] theorem xtbArm_kept (w : Word) (s : State) : (xtbArm w s).kept = s.kept := by
  simp [xtbArm]
@[simp] theorem State.degrade_kept (s : State) (i : Nat) (reason : Nat) : (State.degrade s i reason).kept = s.kept := by
  simp [State.degrade]
@[simp] theorem State.suspend_kept (s : State) (i : Nat) (reason : Nat) : (State.suspend s i reason).kept = s.kept := by
  simp [State.suspend]
@[simp] theorem State.judgeFeatures_kept (s : State) : (State.judgeFeatures s).kept = s.kept := by
  simp [State.judgeFeatures]
@[simp] theorem State.takeEntries_kept (s : State) (g : Nat) (es : List Nat) : (State.takeEntries s g es).kept = s.kept := by
  simp [State.takeEntries]
@[simp] theorem State.sendJoinHold_kept (s : State) (g : Nat) (take : Nat) (but : Option Nat) : (State.sendJoinHold s g take but).kept = s.kept := by
  simp [State.sendJoinHold]
@[simp] theorem State.joinHoldReceived_kept (s : State) (p : Nat) (v : Nat) : (State.joinHoldReceived s p v).kept = s.kept := by
  simp [State.joinHoldReceived]
@[simp] theorem State.consider_kept (s : State) (claimed : List (Nat × Nat)) (g : Nat) (es : List Nat) : (s.consider claimed g es).2.kept = s.kept := by
  unfold State.consider
  extract_lets c e seen held wasHeld s1 s2 set split_ limit n
  split
  · split <;> simp
  · have h2 : s2.kept = s.kept := by simp [s2, s1]
    clear_value s1 s2 set limit n
    split
    · split <;> simp [h2]
    · split
      · simp [h2]
      · split
        · simp [h2]
        · split
          · simp [h2]
          · extract_lets s4 s5
            have h4 : s4.kept = s.kept := by simp [s4, h2]
            have h5 : s5.kept = s.kept := (forAll_kept _ _ _ fun _ _ _ => by split <;> simp).trans h4
            clear_value s4 s5
            split
            · exact h5
            · split <;> simp [h5]
@[simp] theorem State.setCheck_kept (s : State) : (State.setCheck s).kept = s.kept := by
  simp [State.setCheck]
@[simp] theorem State.takeCrossings_kept (s : State) : (State.takeCrossings s).kept = s.kept := by
  unfold State.takeCrossings
  dsimp only
  rw [foldl_proj (fun a : List (Nat × Nat) × State => a.2.kept) _ _ _ (fun a i => by split <;> simp)]
  exact foldl_proj (fun a : List (Nat × Nat) × State => a.2.kept) _ _ _ (fun a i => by simp)
@[simp] theorem State.placeCrossing_kept (s : State) (i : Nat) (w0 : Word) (w1 : Word) (w2 : Word) (w3 : Word) : (State.placeCrossing s i w0 w1 w2 w3).kept = s.kept := by
  simp [State.placeCrossing]
@[simp] theorem State.armChart_kept (s : State) (p : Nat → Bool) : (State.armChart s p).kept = s.kept := by
  simp [State.armChart]
@[simp] theorem State.amendClear_kept (s : State) (es : List Nat) : (State.amendClear s es).kept = s.kept := by
  unfold State.amendClear
  repeat' first | rfl | dsimp only | (simp; done) | (rename_i heq; have hk := congrArg (fun p => p.2.kept) heq; simp at hk; simp [← hk]; done) | (refine (forAll_kept _ _ _ fun _ _ _ => ?_).trans ?_) | (refine (onlyIf_kept _ _ _ ?_).trans ?_) | (refine (foldl_kept _ _ _ fun _ _ _ => ?_).trans ?_) | split
@[simp] theorem State.amendEntry_kept (s : State) (i : Nat) (w0 : Word) (w1 : Word) (w2 : Word) (w3 : Word) : (State.amendEntry s i w0 w1 w2 w3).kept = s.kept := by
  unfold State.amendEntry
  dsimp only
  (repeat' split) <;> simp
@[simp] theorem State.armAmended_kept (s : State) (gs : List Nat) : (State.armAmended s gs).kept = s.kept := by
  simp [State.armAmended]
@[simp] theorem State.movePaths_kept (s : State) : (State.movePaths s).kept = s.kept := by
  simp [State.movePaths]
@[simp] theorem State.judgeSources_kept (s : State) : (State.judgeSources s).kept = s.kept := by
  simp [State.judgeSources]
@[simp] theorem State.admission_kept (s : State) : (State.admission s).kept = s.kept := by
  unfold State.admission
  exact foldl_proj (fun a : NMap Nat × NMap Nat × State => a.2.2.kept) _ _ _ (fun a i => by
    dsimp only
    split
    · rfl
    · split
      · dsimp only; split <;> simp
      · dsimp only; split <;> simp)
@[simp] theorem State.crossingsBoundary_kept (s : State) : (State.crossingsBoundary s).kept = s.kept := by
  simp [State.crossingsBoundary]
@[simp] theorem State.onQueue_kept (s : State) (q : Nat) (g : QueSt → QueSt) : (State.onQueue s q g).kept = s.kept := by
  simp [State.onQueue]
@[simp] theorem State.append_kept (s : State) (q : Nat) (d : Rec) : (State.append s q d).kept = s.kept := by
  simp [State.append]
@[simp] theorem State.dropDesc_kept (s : State) (q : Nat) : (State.dropDesc s q).kept = s.kept := by
  simp [State.dropDesc]
@[simp] theorem State.pushFree_kept (s : State) (q : Nat) (d : Rec) : (State.pushFree s q d).kept = s.kept := by
  simp [State.pushFree]
@[simp] theorem State.pop_kept (s : State) (q : Nat) : (State.pop s q).2.kept = s.kept := by
  unfold State.pop
  (repeat' split) <;> simp
@[simp] theorem State.stale_kept (s : State) (q : Nat) : (State.stale s q).kept = s.kept := by
  simp [State.stale]
@[simp] theorem quePop_kept (q : Nat) (s : State) : (quePop q s).kept = s.kept := by
  simp [quePop]
@[simp] theorem hwmClr_kept (q : Nat) (s : State) : (hwmClr q s).kept = s.kept := by
  simp [hwmClr]
@[simp] theorem State.queuesNewStroke_kept (s : State) : (State.queuesNewStroke s).kept = s.kept := by
  simp [State.queuesNewStroke]
@[simp] theorem State.sendPacket_kept (s : State) (i typ line : Nat) (first last : Bool) (flags : Nat) (ws : List Lane) (poison : Bool) :
    (s.sendPacket i typ line first last flags ws poison).kept = s.kept := by
  simp [State.sendPacket]
@[simp] theorem State.sendLine_kept (s : State) (i : Nat) (line : Nat) (frame : Nat) (eof : Bool) (ws : List Lane) : (State.sendLine s i line frame eof ws).kept = s.kept := by
  simp [State.sendLine]
@[simp] theorem State.onEgress_kept (s : State) (i : Nat) (g : EgrSt → EgrSt) : (State.onEgress s i g).kept = s.kept := by
  simp [State.onEgress]
@[simp] theorem State.egressDrop_kept (s : State) (i : Nat) : (State.egressDrop s i).kept = s.kept := by
  simp [State.egressDrop]
@[simp] theorem State.egressSelect_kept (s : State) : (State.egressSelect s).kept = s.kept := by
  unfold State.egressSelect
  refine forAll_kept _ _ _ fun e _ t => ?_
  dsimp only
  split
  · split
    · rfl
    · split
      · simp
      · split
        · rfl
        · split
          · rename_i heq; have hk := congrArg (fun p => p.2.kept) heq; simp at hk; exact hk.symm
          · rename_i heq
            have hk := congrArg (fun p => p.2.kept) heq
            simp at hk
            split <;> simp [← hk]
  · simp
@[simp] theorem State.dropStale_kept (n : Nat) : ∀ (s : State) (q stroke : Nat), (State.dropStale n s q stroke).kept = s.kept := by
  induction n with
  | zero => intros; rfl
  | succ n ih => intros; unfold State.dropStale; dsimp only; (repeat' split) <;> simp [ih]
@[simp] theorem State.takeLine_kept (s : State) (q : Nat) (stroke : Nat) (ok : Desc → Bool) : (State.takeLine s q stroke ok).2.kept = s.kept := by
  unfold State.takeLine
  dsimp only
  (repeat' split) <;> simp
@[simp] theorem State.sendFromSlip_kept (s : State) (i : Nat) (e : Nat) (p : Pick) : (State.sendFromSlip s i e p).kept = s.kept := by
  unfold State.sendFromSlip
  dsimp only
  (repeat' split) <;> simp
@[simp] theorem egressPacketSend_kept (i : Nat) (s : State) : (egressPacketSend i s).kept = s.kept := by
  unfold egressPacketSend
  split
  · simp
  · dsimp only
    have h1 : (forAll (s.queuesTo 1 (s.lead (s.streamPort i))) (fun q t => t.dropStale 131072 q t.clock.stroke.toNat) s).kept = s.kept := by simp
    generalize (forAll (s.queuesTo 1 (s.lead (s.streamPort i))) (fun q t => t.dropStale 131072 q t.clock.stroke.toNat) s) = t at h1
    split
    · rename_i q _
      have h2 := State.takeLine_kept t q t.clock.stroke.toNat fun d => d.stream == i
      generalize t.takeLine q t.clock.stroke.toNat (fun d => d.stream == i) = r at h2
      obtain ⟨o, u⟩ := r
      cases o with
      | none => exact h2.trans h1
      | some d => simpa using h2.trans h1
    · exact h1
@[simp] theorem State.onHead_kept (s : State) (h : Nat) (g : HeadSt → HeadSt) : (State.onHead s h g).kept = s.kept := by
  simp [State.onHead]
@[simp] theorem State.onLay_kept (s : State) (h : Nat) (k : Nat) (g : LaySt → LaySt) : (State.onLay s h k g).kept = s.kept := by
  simp [State.onLay]
@[simp] theorem State.raiseHead_kept (s : State) (e : Ev) (h : Nat) (data : Nat) : (State.raiseHead s e h data).kept = s.kept := by
  simp [State.raiseHead]
@[simp] theorem State.newGroup_kept (s : State) (h : Nat) : (State.newGroup s h).kept = s.kept := by
  simp [State.newGroup]
@[simp] theorem State.discardStopped_kept (s : State) : (State.discardStopped s).kept = s.kept := by
  simp [State.discardStopped]
@[simp] theorem State.layUnpin_kept (s : State) (h : Nat) (k : Nat) (keep : List LayShow) : (State.layUnpin s h k keep).kept = s.kept := by
  unfold State.layUnpin
  repeat' first | rfl | dsimp only | (simp; done) | (refine (forAll_kept _ _ _ fun _ _ _ => ?_).trans ?_) | (refine (onlyIf_kept _ _ _ ?_).trans ?_) | split
@[simp] theorem State.showHeld_kept (s : State) (h : Nat) (k : Nat) (cause : Nat) : (State.showHeld s h k cause).kept = s.kept := by
  simp [State.showHeld]
@[simp] theorem State.flipLayer_kept (s : State) (h : Nat) (k : Nat) (cause : Nat) (off : Bool) : (State.flipLayer s h k cause off).kept = s.kept := by
  unfold State.flipLayer
  repeat' first | rfl | dsimp only | (simp; done) | (rename_i heq; have hk := congrArg (fun p => p.2.kept) heq; simp at hk; simp [← hk]; done) | (refine (forAll_kept _ _ _ fun _ _ _ => ?_).trans ?_) | (refine (onlyIf_kept _ _ _ ?_).trans ?_) | split
@[simp] theorem State.layPath_kept (s : State) (h : Nat) (k : Nat) : (State.layPath s h k).kept = s.kept := by
  unfold State.layPath
  (repeat' split) <;> simp
@[simp] theorem State.repeatLayer_kept (s : State) (h : Nat) (k : Nat) : (State.repeatLayer s h k).kept = s.kept := by
  simp [State.repeatLayer]
@[simp] theorem State.layMarkGone_kept (s : State) (h : Nat) (k : Nat) : (State.layMarkGone s h k).kept = s.kept := by
  unfold State.layMarkGone
  (repeat' split) <;> simp
@[simp] theorem State.flipHead_kept (s : State) (h : Nat) : (State.flipHead s h).kept = s.kept := by
  simp [State.flipHead]
@[simp] theorem State.putRow_kept (s : State) (h : Nat) (k : Nat) (key : Nat) (r : RowSt) : (State.putRow s h k key r).kept = s.kept := by
  simp [State.putRow]
@[simp] theorem State.closeRow_kept (s : State) (h : Nat) (k : Nat) (v : View) (l : Nat) : (State.closeRow s h k v l).kept = s.kept := by
  simp [State.closeRow]
@[simp] theorem State.closeRows_kept (s : State) (h : Nat) (k : Nat) (v : View) (l : Nat) : (State.closeRows s h k v l).kept = s.kept := by
  unfold State.closeRows
  (repeat' split) <;> simp
@[simp] theorem State.liveRow_kept (s : State) (h : Nat) (k : Nat) (e : Nat) (frame : Nat) (l : Nat) (part : Nat) (last : Bool) (ws : List Lane) : (State.liveRow s h k e frame l part last ws).kept = s.kept := by
  simp [State.liveRow]
@[simp] theorem State.fetchRow_kept (s : State) (h : Nat) (k : Nat) (p : Pick) (v : View) (need : List Nat) (l : Nat) : (State.fetchRow s h k p v need l).kept = s.kept := by
  simp [State.fetchRow]
@[simp] theorem State.fetchRows_kept (s : State) (h : Nat) (k : Nat) (y : Nat) : (State.fetchRows s h k y).kept = s.kept := by
  unfold State.fetchRows
  (repeat' split) <;> simp
@[simp] theorem State.prefetch_kept (s : State) (h : Nat) : (State.prefetch s h).kept = s.kept := by
  unfold State.prefetch
  repeat' first | rfl | dsimp only | (simp; done) | (rename_i heq; have hk := congrArg (fun p => p.2.kept) heq; simp at hk; simp [← hk]; done) | (refine (forAll_kept _ _ _ fun _ _ _ => ?_).trans ?_) | (refine (onlyIf_kept _ _ _ ?_).trans ?_) | (refine (foldl_kept _ _ _ fun _ _ _ => ?_).trans ?_) | split
@[simp] theorem State.fetchNext_kept (s : State) (h : Nat) (y : Nat) : (State.fetchNext s h y).kept = s.kept := by
  simp [State.fetchNext]
@[simp] theorem State.sigLine_kept (s : State) (h : Nat) (y : Nat) (ws : List Lane) : (State.sigLine s h y ws).kept = s.kept := by
  simp [State.sigLine]
@[simp] theorem State.zoneLine_kept (s : State) (h : Nat) (y : Nat) (l : List Pix) : (State.zoneLine s h y l).kept = s.kept := by
  simp [State.zoneLine]
@[simp] theorem State.readBack_kept (s : State) (was : State) (h : Nat) (y : Nat) (parts : Nat) : (State.readBack s was h y parts).kept = s.kept := by
  simp [State.readBack]
@[simp] theorem State.scanLine_kept (s : State) (h : Nat) (y : Nat) : (State.scanLine s h y).kept = s.kept := by
  simp [State.scanLine]
@[simp] theorem State.raiseGated_kept (s : State) (e : Ev) (h : Nat) (b : Nat) (data : Nat) : (State.raiseGated s e h b data).kept = s.kept := by
  simp [State.raiseGated]
@[simp] theorem State.lineMatch_kept (s : State) (h : Nat) : (State.lineMatch s h).kept = s.kept := by
  simp [State.lineMatch]
@[simp] theorem State.crabs_kept (s : State) (h : Nat) (y : Nat) (ks : List Nat) : (State.crabs s h y ks).kept = s.kept := by
  simp [State.crabs]
@[simp] theorem State.descRow_kept (s : State) (h : Nat) (k : Nat) (e : Nat) (d : Desc) (ws : List Lane) : (State.descRow s h k e d ws).kept = s.kept := by
  simp [State.descRow]
@[simp] theorem State.headQueues_kept (s : State) (h : Nat) : (State.headQueues s h).kept = s.kept := by
  unfold State.headQueues
  repeat' first | rfl | dsimp only | (simp; done) | (rename_i heq; have hk := congrArg (fun p => p.2.kept) heq; simp at hk; simp [← hk]; done) | (refine (forAll_kept _ _ _ fun _ _ _ => ?_).trans ?_) | (refine (onlyIf_kept _ _ _ ?_).trans ?_) | split
@[simp] theorem State.copied_kept (s : State) (h : Nat) : (State.copied s h).kept = s.kept := by
  simp [State.copied]
@[simp] theorem State.judgeOutside_kept (s : State) (h : Nat) : (State.judgeOutside s h).kept = s.kept := by
  simp [State.judgeOutside]
@[simp] theorem State.applyCommit_kept (s : State) (h : Nat) (bad : List Nat) : (State.applyCommit s h bad).kept = s.kept := by
  simp [State.applyCommit]
@[simp] theorem State.reportCommit_kept (s : State) (h : Nat) (seq : Nat) (whole : Bool) (bad : List (Nat × Nat)) : (State.reportCommit s h seq whole bad).kept = s.kept := by
  simp [State.reportCommit]
@[simp] theorem State.commitHeads_kept (s : State) (hs : List Nat) (seq : Nat) (sync : Bool) : (State.commitHeads s hs seq sync).2.kept = s.kept := by
  simp [State.commitHeads]
@[simp] theorem headCommit_kept (h : Nat) (w : Word) (s : State) : (headCommit h w s).kept = s.kept := by
  simp [headCommit]
@[simp] theorem hedSyncCommit_kept (w : Word) (s : State) : (hedSyncCommit w s).kept = s.kept := by
  simp [hedSyncCommit]
@[simp] theorem gangwayWrite_kept (h : Nat) (k : Nat) (w : Word) (s : State) : (gangwayWrite h k w s).kept = s.kept := by
  simp [gangwayWrite]
@[simp] theorem State.gangwayPacket_kept (s : State) (i : Nat) (v : Nat) : (State.gangwayPacket s i v).kept = s.kept := by
  unfold State.gangwayPacket
  repeat' first | rfl | dsimp only | (simp; done) | (refine (forAll_kept _ _ _ fun _ _ _ => ?_).trans ?_) | (refine (onlyIf_kept _ _ _ ?_).trans ?_) | split
@[simp] theorem State.closeZones_kept (s : State) (h : Nat) : (State.closeZones s h).kept = s.kept := by
  simp [State.closeZones]
@[simp] theorem State.layDrop_kept (s : State) (h : Nat) (k : Nat) : (State.layDrop s h k).kept = s.kept := by
  simp [State.layDrop]
@[simp] theorem State.judgeCovered_kept (s : State) (h : Nat) : (State.judgeCovered s h).kept = s.kept := by
  simp [State.judgeCovered]
@[simp] theorem State.releasePins_kept (s : State) (h : Nat) : (State.releasePins s h).kept = s.kept := by
  simp [State.releasePins]
@[simp] theorem State.takeCommit_kept (s : State) (h : Nat) : (State.takeCommit s h).kept = s.kept := by
  unfold State.takeCommit
  (repeat' split) <;> simp
@[simp] theorem State.stopDisabled_kept (s : State) (h : Nat) : (State.stopDisabled s h).kept = s.kept := by
  simp [State.stopDisabled]
@[simp] theorem State.haltHead_kept (s : State) (h : Nat) : (State.haltHead s h).kept = s.kept := by
  simp [State.haltHead]
@[simp] theorem State.haltHeads_kept (s : State) (i : Nat) : (State.haltHeads s i).kept = s.kept := by
  simp [State.haltHeads]
@[simp] theorem State.rowsDue_kept (s : State) (h : Nat) (y : Nat) (fetch : List (Fin 8 × Nat)) : (State.rowsDue s h y fetch).kept = s.kept := by
  simp [State.rowsDue]
@[simp] theorem headLineStart_kept (h : Nat) (fetch : List (Fin 8 × Nat)) (s : State) : (headLineStart h fetch s).kept = s.kept := by
  simp [headLineStart]
@[simp] theorem ttPinAccept_kept (p : Nat) (s : State) : (ttPinAccept p s).kept = s.kept := by
  simp [ttPinAccept]
@[simp] theorem ttPinChange_kept (p : Nat) (level : Bool) (s : State) : (ttPinChange p level s).kept = s.kept := by
  simp [ttPinChange]
@[simp] theorem State.takeIcons_kept (s : State) (h : Nat) : (State.takeIcons s h).kept = s.kept := by
  simp [State.takeIcons]
@[simp] theorem State.showFault_kept (s : State) : (State.showFault s).kept = s.kept := by
  simp [State.showFault]
@[simp] theorem State.levelTake_kept (s : State) (h : Nat) (level : Nat) (avail : Nat) : (State.levelTake s h level avail).kept = s.kept := by
  simp [State.levelTake]
@[simp] theorem State.final_kept (s : State) (h : Nat) (f : WFrame) : (State.final s h f).kept = s.kept := by
  simp [State.final]
@[simp] theorem State.settle_kept (n : Nat) : ∀ (s : State) (h : Nat), (State.settle n s h).kept = s.kept := by
  induction n with
  | zero => intros; rfl
  | succ n ih => intros; unfold State.settle; (repeat' split) <;> simp [ih]
@[simp] theorem State.settleAll_kept (s : State) (h : Nat) : (State.settleAll s h).kept = s.kept := by
  simp [State.settleAll]
@[simp] theorem State.showSigs_kept (s : State) (h : Nat) : (State.showSigs s h).kept = s.kept := by
  simp [State.showSigs]
@[simp] theorem State.showOn_kept (s : State) (h : Nat) : (State.showOn s h).kept = s.kept := by
  simp [State.showOn]
@[simp] theorem State.sigOpen_kept (s : State) (a : Nat) : (State.sigOpen s a).kept = s.kept := by
  simp [State.sigOpen]
@[simp] theorem State.showGlass_kept (s : State) (h : Nat) (mask : Nat) (crcs : Nat → Nat) : (State.showGlass s h mask crcs).kept = s.kept := by
  simp [State.showGlass]
@[simp] theorem State.showProof_kept (s : State) (h : Nat) (rb : List (Fin 16 × Option Word)) : (State.showProof s h rb).kept = s.kept := by
  unfold State.showProof
  repeat' first | rfl | dsimp only | (simp; done) | (rename_i heq; have hk := congrArg (fun p => p.2.kept) heq; simp at hk; simp [← hk]; done) | (refine (forAll_kept _ _ _ fun _ _ _ => ?_).trans ?_) | (refine (onlyIf_kept _ _ _ ?_).trans ?_) | (refine (foldl_kept _ _ _ fun _ _ _ => ?_).trans ?_) | split
@[simp] theorem State.compareWatch_kept (s : State) (h : Nat) (rb : List (Fin 16 × Option Word)) : (State.compareWatch s h rb).kept = s.kept := by
  simp [State.compareWatch]
@[simp] theorem State.compareOther_kept (s : State) (h : Nat) : (State.compareOther s h).kept = s.kept := by
  simp [State.compareOther]
@[simp] theorem State.compareFrame_kept (s : State) (h : Nat) (cut : Bool) (rb : List (Fin 16 × Option Word)) : (State.compareFrame s h cut rb).kept = s.kept := by
  simp [State.compareFrame]
@[simp] theorem State.showLayers_kept (s : State) (h : Nat) : (State.showLayers s h).kept = s.kept := by
  simp [State.showLayers]
@[simp] theorem State.gateActions_kept (s : State) (h : Nat) (cut : Bool) (rb : List (Fin 16 × Option Word)) : (State.gateActions s h cut rb).kept = s.kept := by
  simp [State.gateActions]
@[simp] theorem gateLine_kept (h : Nat) (rb : List (Fin 16 × Option Word)) (s : State) : (gateLine h rb s).kept = s.kept := by
  simp [gateLine]
@[simp] theorem State.cutFrame_kept (s : State) (h : Nat) : (State.cutFrame s h).kept = s.kept := by
  simp [State.cutFrame]
@[simp] theorem State.flipHeads_kept (s : State) : (State.flipHeads s).kept = s.kept := by
  simp [State.flipHeads]
@[simp] theorem State.countHeld_kept (s : State) (h : Nat) : (State.countHeld s h).kept = s.kept := by
  simp [State.countHeld]
@[simp] theorem headFrameStart_kept (h : Nat) (err : Int) (s : State) : (headFrameStart h err s).kept = s.kept := by
  unfold headFrameStart
  dsimp only
  (repeat' split) <;> simp
@[simp] theorem State.glassReceived_kept (s : State) (p : Nat) (pl : List Byte) : (State.glassReceived s p pl).kept = s.kept := by
  simp [State.glassReceived]
@[simp] theorem State.glassLimit_kept (s : State) : (State.glassLimit s).kept = s.kept := by
  simp [State.glassLimit]
@[simp] theorem watchTiming_kept (h : Nat) (s : State) : (watchTiming h s).kept = s.kept := by
  simp [watchTiming]
@[simp] theorem State.timingCleared_kept (s : State) (i : Nat) : (State.timingCleared s i).kept = s.kept := by
  simp [State.timingCleared]
@[simp] theorem rbSyncLost_kept (k : Nat) (s : State) : (rbSyncLost k s).kept = s.kept := by
  simp [rbSyncLost]
@[simp] theorem State.storeError_kept (s : State) (m : Nat) (word : Nat) (v : Word) : (State.storeError s m word v).kept = s.kept := by
  simp [State.storeError]
@[simp] theorem State.clearZones_kept (s : State) : (State.clearZones s).kept = s.kept := by
  simp [State.clearZones]
@[simp] theorem State.markZones_kept (s : State) (h : Nat) : (State.markZones s h).kept = s.kept := by
  simp [State.markZones]
@[simp] theorem State.onAud_kept (s : State) (g : AudSt → AudSt) : (State.onAud s g).kept = s.kept := by
  simp [State.onAud]
@[simp] theorem State.onAudIn_kept (s : State) (i : Nat) (g : AudIn → AudIn) : (State.onAudIn s i g).kept = s.kept := by
  simp [State.onAudIn]
@[simp] theorem State.onChime_kept (s : State) (c : Nat) (g : ChimeSt → ChimeSt) : (State.onChime s c g).kept = s.kept := by
  simp [State.onChime]
@[simp] theorem State.asrcJudge_kept (s : State) (u : Nat) : (State.asrcJudge s u).kept = s.kept := by
  unfold State.asrcJudge
  dsimp only
  (repeat' split) <;> simp
@[simp] theorem State.audPacket_kept (s : State) (i : Nat) (line : Nat) (last : Bool) (flags : Nat) (ws : List Lane) : (State.audPacket s i line last flags ws).kept = s.kept := by
  unfold State.audPacket
  dsimp only
  (repeat' split) <;> simp
@[simp] theorem State.pathFor_kept (s : State) (i : Nat) (n : Nat) : (State.pathFor s i n).2.kept = s.kept := by
  unfold State.pathFor
  (repeat' split) <;> simp
@[simp] theorem State.judgePath_kept (s : State) (i : Nat) (n : Nat) : (State.judgePath s i n).kept = s.kept := by
  simp [State.judgePath]
@[simp] theorem State.countZeros_kept (s : State) (i : Nat) (n : Nat) : (State.countZeros s i n).kept = s.kept := by
  simp [State.countZeros]
@[simp] theorem State.dither_kept (s : State) (n : Nat) : (State.dither s n).2.kept = s.kept := by
  simp [State.dither]
@[simp] theorem State.tdmIn_kept (s : State) (n : Nat) (w : Nat) : (State.tdmIn s n w).2.kept = s.kept := by
  unfold State.tdmIn
  dsimp only
  (repeat' split) <;> simp
@[simp] theorem State.tdmOut_kept (s : State) (n : Nat) (v : Int) : (State.tdmOut s n v).2.kept = s.kept := by
  unfold State.tdmOut
  dsimp only
  (repeat' split) <;> simp
@[simp] theorem mapState_kept {α β : Type} (g : α → State → β × State) (l : List α) : ∀ (s : State), (∀ a t, (g a t).2.kept = t.kept) →
    (mapState g l s).2.kept = s.kept := by
  induction l with
  | nil => intros; rfl
  | cons a l ih => intro s h; simp [mapState, ih _ h, h]
@[simp] theorem State.tdmLoss_kept (s : State) (n : Nat) (k : Nat) (stop : Bool) : (State.tdmLoss s n k stop).kept = s.kept := by
  simp [State.tdmLoss]
@[simp] theorem State.tdmBlock_kept (s : State) (n : Nat) (k : Nat) (len : Nat) (raw : List (List (Bool × Bool))) : (State.tdmBlock s n k len raw).2.kept = s.kept := by
  unfold State.tdmBlock
  dsimp only
  (repeat' split) <;> simp
@[simp] theorem State.chimeBlock_kept (s : State) (c : Nat) (n : Nat) (len : Nat) : (State.chimeBlock s c n len).2.kept = s.kept := by
  unfold State.chimeBlock
  dsimp only
  (repeat' split) <;> simp
@[simp] theorem State.showProtected_kept (s : State) : (State.showProtected s).kept = s.kept := by
  simp [State.showProtected]
@[simp] theorem State.mixOutput_kept (s : State) (o : Nat) (len : Nat) (input : Nat → List Int) (plays : Nat → Bool) : (State.mixOutput s o len input plays).2.2.kept = s.kept := by
  simp [State.mixOutput]
@[simp] theorem audBlockClose_kept (tdm : List (Fin 8 × List (List (Bool × Bool)))) (s : State) : (audBlockClose tdm s).kept = s.kept := by
  unfold audBlockClose
  dsimp only
  (repeat' split) <;> simp
@[simp] theorem audBlockSend_kept (s : State) : (audBlockSend s).kept = s.kept := by
  unfold audBlockSend
  repeat' first | rfl | dsimp only | (simp; done) | (refine (forAll_kept _ _ _ fun _ _ _ => ?_).trans ?_) | (refine (onlyIf_kept _ _ _ ?_).trans ?_) | split
@[simp] theorem audCommit_kept (w : Word) (s : State) : (audCommit w s).kept = s.kept := by
  simp [audCommit]
@[simp] theorem State.audTakeCommit_kept (s : State) : (State.audTakeCommit s).kept = s.kept := by
  unfold State.audTakeCommit
  (repeat' split) <;> simp
@[simp] theorem State.audLoss_kept (s : State) (i : Nat) (stop : Bool) : (State.audLoss s i stop).kept = s.kept := by
  simp [State.audLoss]
@[simp] theorem State.audPathEvent_kept (s : State) (i : Nat) : (State.audPathEvent s i).kept = s.kept := by
  simp [State.audPathEvent]
@[simp] theorem State.chimeStep_kept (s : State) (c : Nat) : (State.chimeStep s c).kept = s.kept := by
  simp [State.chimeStep]
@[simp] theorem State.audDisplace_kept (s : State) : (State.audDisplace s).kept = s.kept := by
  simp [State.audDisplace]
@[simp] theorem State.audBoundary_kept (s : State) : (State.audBoundary s).kept = s.kept := by
  simp [State.audBoundary]
@[simp] theorem State.audStart_kept (s : State) : (State.audStart s).kept = s.kept := by
  simp [State.audStart]
@[simp] theorem asrcLockChange_kept (u : Nat) (rate : Nat) (s : State) : (asrcLockChange u rate s).kept = s.kept := by
  simp [asrcLockChange]
@[simp] theorem asrcSlip_kept (u : Nat) (s : State) : (asrcSlip u s).kept = s.kept := by
  simp [asrcSlip]
@[simp] theorem tdmFrameError_kept (n : Nat) (s : State) : (tdmFrameError n s).kept = s.kept := by
  simp [tdmFrameError]
@[simp] theorem State.onEng_kept (s : State) (e : Nat) (g : EngSt → EngSt) : (State.onEng s e g).kept = s.kept := by
  simp [State.onEng]
@[simp] theorem State.onCrew_kept (s : State) (c : Nat) (g : CrwSt → CrwSt) : (State.onCrew s c g).kept = s.kept := by
  simp [State.onCrew]
@[simp] theorem State.onJik_kept (s : State) (g : JikSt → JikSt) : (State.onJik s g).kept = s.kept := by
  simp [State.onJik]
@[simp] theorem State.releaseCrew_kept (s : State) (c : Nat) : (State.releaseCrew s c).kept = s.kept := by
  simp [State.releaseCrew]
@[simp] theorem State.hold_kept (s : State) (q : Nat) (r : Rec) (origin : PushFrom) : (State.hold s q r origin).kept = s.kept := by
  simp [State.hold]
@[simp] theorem State.pushOr_kept (s : State) (q : Nat) (r : Rec) (origin : PushFrom) : (State.pushOr s q r origin).kept = s.kept := by
  simp [State.pushOr]
@[simp] theorem State.pushDone_kept (s : State) (q : Nat) (r : Rec) : (State.pushDone s q r).kept = s.kept := by
  simp [State.pushDone]
@[simp] theorem State.jobOver_kept (s : State) (x : Flight) (status : Nat) : (State.jobOver s x status).kept = s.kept := by
  unfold State.jobOver
  (repeat' split) <;> simp
@[simp] theorem State.freeTag_kept (s : State) (tag : Nat) : (State.freeTag s tag).kept = s.kept := by
  simp [State.freeTag]
@[simp] theorem State.jobDone_kept (s : State) (tag : Nat) (status : Nat) (result : Nat) : (State.jobDone s tag status result).kept = s.kept := by
  unfold State.jobDone
  (repeat' split) <;> simp
@[simp] theorem State.showCrew_kept (s : State) (c : Nat) : (State.showCrew s c).kept = s.kept := by
  simp [State.showCrew]
@[simp] theorem State.countBusy_kept (s : State) (e : Nat) : (State.countBusy s e).kept = s.kept := by
  simp [State.countBusy]
@[simp] theorem State.bankBusy_kept (s : State) : (State.bankBusy s).kept = s.kept := by
  simp [State.bankBusy]
@[simp] theorem State.freeEngine_kept (s : State) (e : Nat) : (State.freeEngine s e).kept = s.kept := by
  simp [State.freeEngine]
@[simp] theorem State.vacate_kept (s : State) (isCrew : Bool) (n : Nat) : (State.vacate s isCrew n).kept = s.kept := by
  simp [State.vacate]
@[simp] theorem State.finishJob_kept (s : State) (isCrew : Bool) (n : Nat) (tag : Nat) (status : Nat) (result : Nat) : (State.finishJob s isCrew n tag status result).kept = s.kept := by
  unfold State.finishJob
  (repeat' split) <;> simp
@[simp] theorem State.partOver_kept (n : Nat) : ∀ (s : State) (crew : Bool) (k tag status result : Nat),
    (State.partOver n s crew k tag status result).kept = s.kept := by
  induction n with
  | zero => intros; rfl
  | succ n ih => intros; unfold State.partOver; (repeat' split) <;> simp [ih]
@[simp] theorem State.endJob_kept (s : State) (e status result : Nat) : (State.endJob s e status result).kept = s.kept := by
  unfold State.endJob
  (repeat' split) <;> simp
@[simp] theorem State.engFaultAt_kept (s : State) (e code : Nat) : (State.engFaultAt s e code).kept = s.kept := by
  unfold State.engFaultAt
  (repeat' split) <;> simp
@[simp] theorem State.takeJob_kept (s : State) (q : Nat) (r : Rec) : (State.takeJob s q r).kept = s.kept := by
  simp [State.takeJob]
@[simp] theorem State.jobStarts_kept (s : State) (tag : Nat) (part : Bool) : (State.jobStarts s tag part).kept = s.kept := by
  unfold State.jobStarts
  (repeat' split) <;> simp
@[simp] theorem engineTakeJob_kept (e : Nat) (s : State) : (engineTakeJob e s).kept = s.kept := by
  unfold engineTakeJob
  dsimp only
  (repeat' split) <;> simp
@[simp] theorem crewTakeJob_kept (c : Nat) (s : State) : (crewTakeJob c s).kept = s.kept := by
  unfold crewTakeJob
  dsimp only
  (repeat' split) <;> simp
@[simp] theorem crewLineRoute_kept (c : Nat) (s : State) : (crewLineRoute c s).kept = s.kept := by
  unfold crewLineRoute
  dsimp only
  (repeat' split) <;> simp
@[simp] theorem State.enterJob_kept (s : State) (q : Nat) (r : Rec) : (State.enterJob s q r).kept = s.kept := by
  unfold State.enterJob
  (repeat' split) <;> simp
@[simp] theorem State.pushHeld_kept (s : State) (q : Nat) (r : Rec) : (State.pushHeld s q r).kept = s.kept := by
  simp [State.pushHeld]
@[simp] theorem quePush_kept (q : Nat) (w : Word) (s : State) : (quePush q w s).kept = s.kept := by
  simp [quePush]
@[simp] theorem quePushRelease_kept (q : Nat) (s : State) : (quePushRelease q s).kept = s.kept := by
  unfold quePushRelease
  (repeat' split) <;> simp
@[simp] theorem State.guardEntries_kept (s : State) : (State.guardEntries s).kept = s.kept := by
  simp [State.guardEntries]
@[simp] theorem State.recDone_kept (s : State) (r : Nat) (status : Nat) : (State.recDone s r status).kept = s.kept := by
  simp [State.recDone]
@[simp] theorem State.claimSlot_kept (s : State) (k : Nat) : (State.claimSlot s k).2.kept = s.kept := by
  unfold State.claimSlot
  (repeat' split) <;> simp
@[simp] theorem State.recSkip_kept (s : State) (r : Nat) : (State.recSkip s r).kept = s.kept := by
  simp [State.recSkip]
@[simp] theorem State.recPush_kept (s : State) (r : Nat) (out : Option (Nat × Nat)) : (State.recPush s r out).kept = s.kept := by
  simp [State.recPush]
@[simp] theorem manifestRecordStart_kept (r : Nat) (s : State) : (manifestRecordStart r s).kept = s.kept := by
  unfold manifestRecordStart
  repeat' first | rfl | dsimp only | (simp; done) | (rename_i heq; have hk := congrArg (fun p => p.2.kept) heq; simp at hk; simp [← hk]; done) | (refine (forAll_kept _ _ _ fun _ _ _ => ?_).trans ?_) | (refine (onlyIf_kept _ _ _ ?_).trans ?_) | (refine (foldl_kept _ _ _ fun _ _ _ => ?_).trans ?_) | split
@[simp] theorem State.cancelJob_kept (s : State) (tag : Nat) : (State.cancelJob s tag).kept = s.kept := by
  unfold State.cancelJob
  (repeat' split) <;> simp
@[simp] theorem State.cutEngine_kept (s : State) (e : Nat) : (State.cutEngine s e).kept = s.kept := by
  unfold State.cutEngine
  (repeat' split) <;> simp
@[simp] theorem State.letGo_kept (s : State) (q : Nat) : (State.letGo s q).kept = s.kept := by
  unfold State.letGo
  repeat' first | rfl | dsimp only | (simp; done) | (rename_i heq; have hk := congrArg (fun p => p.2.kept) heq; simp at hk; simp [← hk]; done) | (refine (forAll_kept _ _ _ fun _ _ _ => ?_).trans ?_) | (refine (onlyIf_kept _ _ _ ?_).trans ?_) | (refine (foldl_kept _ _ _ fun _ _ _ => ?_).trans ?_) | split
@[simp] theorem State.dropJobs_kept (s : State) (q : Nat) : (State.dropJobs s q).kept = s.kept := by
  simp [State.dropJobs]
@[simp] theorem deadline_kept (s : State) : (deadline s).kept = s.kept := by
  simp [deadline]
@[simp] theorem State.jikNewStroke_kept (s : State) : (State.jikNewStroke s).kept = s.kept := by
  simp [State.jikNewStroke]
@[simp] theorem State.markThrottled_kept (s : State) : (State.markThrottled s).kept = s.kept := by
  simp [State.markThrottled]
@[simp] theorem State.stopEngine_kept (s : State) (e : Nat) : (State.stopEngine s e).kept = s.kept := by
  simp [State.stopEngine]
@[simp] theorem State.stopEngines_kept (s : State) : (State.stopEngines s).kept = s.kept := by
  simp [State.stopEngines]
@[simp] theorem State.onFld_kept (s : State) (g : FldSt → FldSt) : (State.onFld s g).kept = s.kept := by
  simp [State.onFld]
@[simp] theorem State.setUnit_kept (s : State) (u : Nat) (x : UnitSt) : (State.setUnit s u x).kept = s.kept := by
  simp [State.setUnit]
@[simp] theorem State.setLedger_kept (s : State) (k : Nat) (l : Ledger) : (State.setLedger s k l).kept = s.kept := by
  simp [State.setLedger]
@[simp] theorem State.ledgerShows_kept (s : State) (u : Nat) (k : Nat) : (State.ledgerShows s u k).kept = s.kept := by
  simp [State.ledgerShows]
@[simp] theorem State.writeBack_kept (s : State) (u : Nat) : (State.writeBack s u).kept = s.kept := by
  unfold State.writeBack
  (repeat' split) <;> simp
@[simp] theorem lampBoardWriteDone_kept (n : Nat) (ok : Bool) (s : State) : (lampBoardWriteDone n ok s).kept = s.kept := by
  unfold lampBoardWriteDone
  dsimp only
  (repeat' split) <;> simp
@[simp] theorem State.dropLedger_kept (s : State) (u : Nat) : (State.dropLedger s u).kept = s.kept := by
  unfold State.dropLedger
  (repeat' split) <;> simp
@[simp] theorem State.keyLedger_kept (s : State) (u : Nat) (rec_ : List Byte) : (State.keyLedger s u rec_).kept = s.kept := by
  simp [State.keyLedger]
@[simp] theorem State.unitRead_kept (s : State) (u : Nat) (rec_ : Option (List Byte)) : (State.unitRead s u rec_).kept = s.kept := by
  simp [State.unitRead]
@[simp] theorem State.keyUnits_kept (s : State) : (State.keyUnits s).kept = s.kept := by
  simp [State.keyUnits]
@[simp] theorem State.dropLedgers_kept (s : State) : (State.dropLedgers s).kept = s.kept := by
  simp [State.dropLedgers]
@[simp] theorem identRecordRead_kept (u : Nat) (board : Option (List Byte)) (s : State) : (identRecordRead u board s).kept = s.kept := by
  simp [identRecordRead]
@[simp] theorem lampBoardPoll_kept (n : Nat) (serial : Option Nat) (s : State) : (lampBoardPoll n serial s).kept = s.kept := by
  unfold lampBoardPoll
  (repeat' split) <;> simp
@[simp] theorem ledgersWrite_kept (s : State) : (ledgersWrite s).kept = s.kept := by
  simp [ledgersWrite]
@[simp] theorem State.ledgerSecond_kept (s : State) (u : Nat) (k : Nat) : (State.ledgerSecond s u k).kept = s.kept := by
  simp [State.ledgerSecond]
@[simp] theorem ledgerAdvance_kept (s : State) : (ledgerAdvance s).kept = s.kept := by
  simp [ledgerAdvance]
@[simp] theorem State.onQuay_kept (s : State) (g : QuaySt → QuaySt) : (State.onQuay s g).kept = s.kept := by
  simp [State.onQuay]
@[simp] theorem State.showHeldBack_kept (s : State) : (State.showHeldBack s).kept = s.kept := by
  simp [State.showHeldBack]
@[simp] theorem State.masterReset_kept (s : State) (m : Nat) : (State.masterReset s m).kept = s.kept := by
  simp [State.masterReset]
@[simp] theorem State.linkLost_kept (s : State) : (State.linkLost s).kept = s.kept := by
  simp [State.linkLost]
@[simp] theorem pcieLinkUp_kept (lanes : Nat) (speed : Nat) (s : State) : (pcieLinkUp lanes speed s).kept = s.kept := by
  simp [pcieLinkUp]
@[simp] theorem State.stopDomains_kept (s : State) (i : Nat) (limit : Bool) : (State.stopDomains s i limit).kept = s.kept := by
  simp [State.stopDomains]
@[simp] theorem synLock_kept (i : Nat) (s : State) : (synLock i s).kept = s.kept := by
  simp [synLock]
@[simp] theorem synFerrMeasure_kept (i : Nat) (err : Int) (s : State) : (synFerrMeasure i err s).kept = s.kept := by
  simp [synFerrMeasure]
@[simp] theorem synRelock_kept (i : Nat) (w : Word) (s : State) : (synRelock i w s).kept = s.kept := by
  simp [synRelock]
@[simp] theorem bandWrite_kept (i : Nat) (a : Nat) (mask : Word) (w : Word) (s : State) : (bandWrite i a mask w s).kept = s.kept := by
  simp [bandWrite]
@[simp] theorem State.onLoader_kept (s : State) (g : LoaderSt → LoaderSt) (h : ∀ l, (g l).otpHash = l.otpHash) (h2 : ∀ l, (g l).otpTest = l.otpTest) :
    (s.onLoader g).kept = s.kept := by simp [State.kept, State.onLoader, h, h2]
@[simp] theorem State.setLoad_kept (s : State) (st : Nat) : (State.setLoad s st).kept = s.kept := by
  simp [State.setLoad]
@[simp] theorem State.loadStart_kept (s : State) (slot : Nat) : (s.loadStart slot).kept = s.kept := by
  unfold State.loadStart
  refine (State.onLoader_kept _ _ (fun _ => ?_) (fun _ => ?_)).trans (by simp) <;> rfl
@[simp] theorem State.clearRegs_kept (s : State) (a : Nat) (b : Nat) : (State.clearRegs s a b).kept = s.kept := by
  simp [State.clearRegs]
@[simp] theorem State.portOff_kept (s : State) (p : Nat) : (State.portOff s p).kept = s.kept := by
  simp [State.portOff]
@[simp] theorem State.synOff_kept (s : State) (i : Nat) : (State.synOff s i).kept = s.kept := by
  simp [State.synOff]
@[simp] theorem State.bandsPlaced_kept (s : State) : (State.bandsPlaced s).kept = s.kept := by
  simp [State.bandsPlaced]
@[simp] theorem State.undoWord_kept (s : State) (a : Nat) : (State.undoWord s a).kept = s.kept := by
  simp [State.undoWord]
@[simp] theorem State.refsUndone_kept (s : State) (drop : List (Nat × Nat × Word)) : (State.refsUndone s drop).kept = s.kept := by
  simp [State.refsUndone]
@[simp] theorem State.storeWord_kept (s : State) (a : Nat) (w : Word) : (State.storeWord s a w).kept = s.kept := by
  unfold State.storeWord
  (repeat' split) <;> simp
@[simp] theorem State.placeWord_kept (s : State) (typ : Nat) (a : Nat) (w : Word) : (State.placeWord s typ a w).kept = s.kept := by
  simp [State.placeWord]
@[simp] theorem State.fills_kept (s : State) (typ : Nat) (store : Bool) (a : Nat) (n : Nat) : (State.fills s typ store a n).kept = s.kept := by
  simp [State.fills]
@[simp] theorem State.placePort_kept (s : State) (typ : Nat) (p : PortPlan) : (State.placePort s typ p).kept = s.kept := by
  simp [State.placePort]
@[simp] theorem State.startClocks_kept (s : State) : (State.startClocks s).kept = s.kept := by
  simp [State.startClocks]
@[simp] theorem State.firstLightDerived_kept (s : State) : (State.firstLightDerived s).kept = s.kept := by
  simp [State.firstLightDerived]
@[simp] theorem State.takeRate_kept (s : State) (r : Option (Nat × Nat)) : (State.takeRate s r).kept = s.kept := by
  unfold State.takeRate
  (repeat' split) <;> simp
@[simp] theorem State.retarget_kept (s : State) (i : Nat) : (State.retarget s i).kept = s.kept := by
  simp [State.retarget]
@[simp] theorem State.restartMoved_kept (s was : State) : (s.restartMoved was).kept = s.kept := by
  simp [State.restartMoved]
@[simp] theorem State.enterRunning_kept (s : State) : (State.enterRunning s).kept = s.kept := by
  unfold State.enterRunning
  (repeat' split) <;> simp
@[simp] theorem pushData_kept (w : Word) (qspi : Bool) (s : State) : (pushData w qspi s).kept = s.kept := by
  unfold pushData
  repeat' first | rfl | dsimp only | (simp; done) | (refine (forAll_kept _ _ _ fun _ _ _ => ?_).trans ?_) | (refine (onlyIf_kept _ _ _ ?_).trans ?_) | split
@[simp] theorem chtCtrlWrite_kept (w : Word) (s : State) : (chtCtrlWrite w s).kept = s.kept := by
  simp [chtCtrlWrite]
@[simp] theorem otpDataWrite_kept (w : Word) (s : State) : (otpDataWrite w s).kept = s.kept := by
  simp [otpDataWrite]
@[simp] theorem State.loaderRelease_kept (s : State) : (State.loaderRelease s).kept = s.kept := by
  unfold State.loaderRelease
  (repeat' split) <;> simp
@[simp] theorem State.roleChanged_kept (s : State) (p : Nat) (w : Word) : (State.roleChanged s p w).kept = s.kept := by
  simp [State.roleChanged]
@[simp] theorem State.applyPatch_kept (s : State) (p : Patch) : (State.applyPatch s p).kept = s.kept := by
  simp [State.applyPatch]
@[simp] theorem State.putManifest_kept (s : State) (bs : List Byte) (guard : Nat) (mtags : Nat) : (State.putManifest s bs guard mtags).kept = s.kept := by
  simp [State.putManifest]
@[simp] theorem State.amdRefuse_kept (s : State) (code : Nat) : (State.amdRefuse s code).kept = s.kept := by
  simp [State.amdRefuse]
@[simp] theorem State.amdApply_kept (s : State) : (State.amdApply s).kept = s.kept := by
  unfold State.amdApply
  (repeat' split) <;> simp
@[simp] theorem amdCtrlWrite_kept (w : Word) (s : State) : (amdCtrlWrite w s).kept = s.kept := by
  simp [amdCtrlWrite]
@[simp] theorem amdStaged_kept (got : Option (List Byte)) (guard : Nat) (mtags : Nat) (s : State) : (amdStaged got guard mtags s).kept = s.kept := by
  unfold amdStaged
  (repeat' split) <;> simp
@[simp] theorem State.setA_kept (s : State) (e : Nat) (r : Nat) (v : List Acc) : (State.setA s e r v).kept = s.kept := by
  simp [State.setA]
@[simp] theorem State.setS_kept (s : State) (e : Nat) (r : Nat) (v : Word) : (State.setS s e r v).kept = s.kept := by
  simp [State.setS]
@[simp] theorem State.setV_kept (s : State) (e : Nat) (f : EngFields) (v : List Lane) : (State.setV s e f v).kept = s.kept := by
  simp [State.setV]
@[simp] theorem State.lanewise_kept (s : State) (e : Nat) (f : EngFields) (g : Nat → Nat → Nat → Nat) : (State.lanewise s e f g).kept = s.kept := by
  simp [State.lanewise]
@[simp] theorem State.goTo_kept (s : State) (e : Nat) (pc : Nat) : (State.goTo s e pc).kept = s.kept := by
  simp [State.goTo]
@[simp] theorem State.advance_kept (s : State) (e : Nat) : (State.advance s e).kept = s.kept := by
  simp [State.advance]
@[simp] theorem State.issue_kept (s : State) (e : Nat) (op : EngOp) (f : EngFields) (g : State → State) (h : ∀ t, (g t).kept = t.kept) :
    (s.issue e op f g).kept = s.kept := by unfold State.issue; (repeat' split) <;> simp [h]
@[simp] theorem State.simple_kept (s : State) (e : Nat) (op : EngOp) (f : EngFields) (g : State → State) (h : ∀ t, (g t).kept = t.kept) :
    (s.simple e op f g).kept = s.kept := by simp [State.simple, h]
@[simp] theorem State.memory_kept (s : State) (e : Nat) (op : EngOp) (f : EngFields) (base n : Nat) (store : Bool) (g : State → State)
    (h : ∀ t, (g t).kept = t.kept) : (s.memory e op f base n store g).kept = s.kept := by
  unfold State.memory; apply State.issue_kept; intro t; split <;> simp [h]
@[simp] theorem State.qoutPost_kept (s : State) (e : Nat) (f : EngFields) : (State.qoutPost s e f).kept = s.kept := by
  unfold State.qoutPost
  (repeat' split) <;> simp
@[simp] theorem State.pushPosted_kept (s : State) (q : Nat) (l : List Rec) : (s.pushPosted q l).2.kept = s.kept := by
  induction l generalizing s with
  | nil => rfl
  | cons d r ih =>
    unfold State.pushPosted
    (repeat' split) <;> simp [ih]
@[simp] theorem State.tsigPush_kept (s : State) (e : Nat) (f : EngFields) : (State.tsigPush s e f).kept = s.kept := by
  simp [State.tsigPush]
@[simp] theorem engNop_kept (e : Nat) (f : EngFields) (s : State) : (engNop e f s).kept = s.kept := by
  simp [engNop]
@[simp] theorem engBr_kept (e : Nat) (f : EngFields) (s : State) : (engBr e f s).kept = s.kept := by
  simp [engBr]
@[simp] theorem engLoop_kept (e : Nat) (f : EngFields) (s : State) : (engLoop e f s).kept = s.kept := by
  simp [engLoop]
@[simp] theorem engJend_kept (e : Nat) (f : EngFields) (s : State) : (engJend e f s).kept = s.kept := by
  simp [engJend]
@[simp] theorem engJfld_kept (e : Nat) (f : EngFields) (s : State) : (engJfld e f s).kept = s.kept := by
  simp [engJfld]
@[simp] theorem engTsig_kept (e : Nat) (f : EngFields) (s : State) : (engTsig e f s).kept = s.kept := by
  simp [engTsig]
@[simp] theorem engVld_kept (e : Nat) (f : EngFields) (s : State) : (engVld e f s).kept = s.kept := by
  simp [engVld]
@[simp] theorem engVlds_kept (e : Nat) (f : EngFields) (s : State) : (engVlds e f s).kept = s.kept := by
  simp [engVlds]
@[simp] theorem engSld_kept (e : Nat) (f : EngFields) (s : State) : (engSld e f s).kept = s.kept := by
  simp [engSld]
@[simp] theorem engQin_kept (e : Nat) (f : EngFields) (s : State) : (engQin e f s).kept = s.kept := by
  simp [engQin]
@[simp] theorem engQout_kept (e : Nat) (f : EngFields) (s : State) : (engQout e f s).kept = s.kept := by
  simp [engQout]
@[simp] theorem engQwait_kept (e : Nat) (f : EngFields) (s : State) : (engQwait e f s).kept = s.kept := by
  simp [engQwait]
@[simp] theorem engLdp_kept (e : Nat) (f : EngFields) (s : State) : (engLdp e f s).kept = s.kept := by
  simp [engLdp]
@[simp] theorem ldpWordArrive_kept (e : Nat) (s : State) : (ldpWordArrive e s).kept = s.kept := by
  unfold ldpWordArrive
  (repeat' split) <;> simp
@[simp] theorem queueXonRelease_kept (q : Nat) (s : State) : (queueXonRelease q s).kept = s.kept := by
  unfold queueXonRelease
  repeat' first | rfl | dsimp only | (simp; done) | (refine (forAll_kept _ _ _ fun _ _ _ => ?_).trans ?_) | (refine (onlyIf_kept _ _ _ ?_).trans ?_) | split
@[simp] theorem engVadd_kept (e : Nat) (f : EngFields) (s : State) : (engVadd e f s).kept = s.kept := by
  simp [engVadd]
@[simp] theorem engVsub_kept (e : Nat) (f : EngFields) (s : State) : (engVsub e f s).kept = s.kept := by
  simp [engVsub]
@[simp] theorem engVmin_kept (e : Nat) (f : EngFields) (s : State) : (engVmin e f s).kept = s.kept := by
  simp [engVmin]
@[simp] theorem engVmax_kept (e : Nat) (f : EngFields) (s : State) : (engVmax e f s).kept = s.kept := by
  simp [engVmax]
@[simp] theorem engVabsd_kept (e : Nat) (f : EngFields) (s : State) : (engVabsd e f s).kept = s.kept := by
  simp [engVabsd]
@[simp] theorem engVsh_kept (e : Nat) (f : EngFields) (s : State) : (engVsh e f s).kept = s.kept := by
  simp [engVsh]
@[simp] theorem engVlog_kept (e : Nat) (f : EngFields) (s : State) : (engVlog e f s).kept = s.kept := by
  simp [engVlog]
@[simp] theorem engVmov_kept (e : Nat) (f : EngFields) (s : State) : (engVmov e f s).kept = s.kept := by
  simp [engVmov]
@[simp] theorem engVmul_kept (e : Nat) (f : EngFields) (s : State) : (engVmul e f s).kept = s.kept := by
  simp [engVmul]
@[simp] theorem State.scalar_kept (s : State) (e : Nat) (op : EngOp) (f : EngFields) (g : Word → Word → Word) : (State.scalar s e op f g).kept = s.kept := by
  simp [State.scalar]
@[simp] theorem engSadd_kept (e : Nat) (f : EngFields) (s : State) : (engSadd e f s).kept = s.kept := by
  simp [engSadd]
@[simp] theorem engSsub_kept (e : Nat) (f : EngFields) (s : State) : (engSsub e f s).kept = s.kept := by
  simp [engSsub]
@[simp] theorem engSmul_kept (e : Nat) (f : EngFields) (s : State) : (engSmul e f s).kept = s.kept := by
  simp [engSmul]
@[simp] theorem engSand_kept (e : Nat) (f : EngFields) (s : State) : (engSand e f s).kept = s.kept := by
  simp [engSand]
@[simp] theorem engSor_kept (e : Nat) (f : EngFields) (s : State) : (engSor e f s).kept = s.kept := by
  simp [engSor]
@[simp] theorem engSsh_kept (e : Nat) (f : EngFields) (s : State) : (engSsh e f s).kept = s.kept := by
  simp [engSsh]
@[simp] theorem engSmov_kept (e : Nat) (f : EngFields) (s : State) : (engSmov e f s).kept = s.kept := by
  simp [engSmov]
@[simp] theorem State.accumulate_kept (s : State) (e : Nat) (op : EngOp) (f : EngFields) (sign : Int) : (State.accumulate s e op f sign).kept = s.kept := by
  simp [State.accumulate]
@[simp] theorem engMac_kept (e : Nat) (f : EngFields) (s : State) : (engMac e f s).kept = s.kept := by
  simp [engMac]
@[simp] theorem engMsu_kept (e : Nat) (f : EngFields) (s : State) : (engMsu e f s).kept = s.kept := by
  simp [engMsu]
@[simp] theorem engAset_kept (e : Nat) (f : EngFields) (s : State) : (engAset e f s).kept = s.kept := by
  simp [engAset]
@[simp] theorem engArd_kept (e : Nat) (f : EngFields) (s : State) : (engArd e f s).kept = s.kept := by
  simp [engArd]
@[simp] theorem engAsum_kept (e : Nat) (f : EngFields) (s : State) : (engAsum e f s).kept = s.kept := by
  simp [engAsum]
@[simp] theorem engVperm_kept (e : Nat) (f : EngFields) (s : State) : (engVperm e f s).kept = s.kept := by
  simp [engVperm]
@[simp] theorem engVsld_kept (e : Nat) (f : EngFields) (s : State) : (engVsld e f s).kept = s.kept := by
  simp [engVsld]
@[simp] theorem engVilv_kept (e : Nat) (f : EngFields) (s : State) : (engVilv e f s).kept = s.kept := by
  simp [engVilv]
@[simp] theorem engVext_kept (e : Nat) (f : EngFields) (s : State) : (engVext e f s).kept = s.kept := by
  simp [engVext]
@[simp] theorem engVlut_kept (e : Nat) (f : EngFields) (s : State) : (engVlut e f s).kept = s.kept := by
  simp [engVlut]
@[simp] theorem engVluti_kept (e : Nat) (f : EngFields) (s : State) : (engVluti e f s).kept = s.kept := by
  simp [engVluti]
@[simp] theorem engVcmp_kept (e : Nat) (f : EngFields) (s : State) : (engVcmp e f s).kept = s.kept := by
  simp [engVcmp]
@[simp] theorem engVsel_kept (e : Nat) (f : EngFields) (s : State) : (engVsel e f s).kept = s.kept := by
  simp [engVsel]
@[simp] theorem undefinedEncoding_kept (e : Nat) (s : State) : (undefinedEncoding e s).kept = s.kept := by
  simp [undefinedEncoding]
@[simp] theorem State.pushLine_kept (s : State) (q : Nat) (r : Rec) : (State.pushLine s q r).kept = s.kept := by
  simp [State.pushLine]
@[simp] theorem State.messageGood_kept (s : State) (l : Nat) (m : Msg) (crc : Nat) : (State.messageGood s l m crc).kept = s.kept := by
  unfold State.messageGood
  dsimp only
  (repeat' split) <;> simp
@[simp] theorem State.messageIn_kept (s : State) (q : Nat) (bad : Bool) (bs : List Byte) : (State.messageIn s q bad bs).kept = s.kept := by
  unfold State.messageIn
  (repeat' split) <;> simp
@[simp] theorem State.strayPins_kept (s : State) : (State.strayPins s).kept = s.kept := by
  simp [State.strayPins]
@[simp] theorem State.sendVector_kept (s : State) (v : Nat) : (State.sendVector s v).kept = s.kept := by
  simp [State.sendVector]
@[simp] theorem msixWrite_kept (v : Nat) (j : Nat) (w : Word) (s : State) : (msixWrite v j w s).kept = s.kept := by
  simp [msixWrite]
@[simp] theorem State.signalRing_kept (s : State) (r : Nat) : (State.signalRing s r).kept = s.kept := by
  simp [State.signalRing]
@[simp] theorem State.noteWritten_kept (s : State) (r : Nat) : (State.noteWritten s r).kept = s.kept := by
  simp [State.noteWritten]
@[simp] theorem msiCoalesceTimer_kept (r : Nat) (s : State) : (msiCoalesceTimer r s).kept = s.kept := by
  simp [msiCoalesceTimer]
@[simp] theorem State.recordLost_kept (s : State) (r : Nat) : (State.recordLost s r).kept = s.kept := by
  unfold State.recordLost
  dsimp only
  (repeat' split) <;> simp
@[simp] theorem State.overflowRecord_kept (s : State) (r : Nat) : (State.overflowRecord s r).kept = s.kept := by
  simp [State.overflowRecord]
@[simp] theorem ringRpWrite_kept (r : Nat) (w : Word) (s : State) : (ringRpWrite r w s).kept = s.kept := by
  simp [ringRpWrite]
@[simp] theorem State.drainBoot_kept (s : State) (r : Nat) : (State.drainBoot s r).kept = s.kept := by
  simp [State.drainBoot]
@[simp] theorem ringCfgWrite_kept (r : Nat) (w : Word) (s : State) : (ringCfgWrite r w s).kept = s.kept := by
  simp [ringCfgWrite]
@[simp] theorem State.counterClear_kept (s : State) : (State.counterClear s).kept = s.kept := by
  unfold State.counterClear
  repeat' first | rfl | dsimp only | (simp; done) | (refine (forAll_kept _ _ _ fun _ _ _ => ?_).trans ?_) | (refine (onlyIf_kept _ _ _ ?_).trans ?_) | split
@[simp] theorem State.slipCommitTake_kept (s : State) (k : Nat) : (State.slipCommitTake s k).kept = s.kept := by
  simp [State.slipCommitTake]
@[simp] theorem State.registerStep_kept (s : State) : (State.registerStep s).kept = s.kept := by
  simp [State.registerStep]
@[simp] theorem State.lightStep_kept (s : State) : (State.lightStep s).kept = s.kept := by
  simp [State.lightStep]
@[simp] theorem State.newStroke_kept (s : State) : (State.newStroke s).kept = s.kept := by
  simp [State.newStroke]
@[simp] theorem State.pastDeadline_kept (s : State) : (State.pastDeadline s).kept = s.kept := by
  simp [State.pastDeadline]
@[simp] theorem State.boundaryStill_kept (s : State) (ps : List RefPhase) : (State.boundaryStill s ps).kept = s.kept := by
  simp [State.boundaryStill]
@[simp] theorem State.release_kept (s : State) (straps : BitVec 4) (sris : Bool) : (s.release straps sris).kept = s.kept := by
  unfold State.release
  extract_lets causes warm s1 s2 s3 s4 s5 s6 s7 x1 s8 s9 s10 s11 s12 x2 s13 s14 s15
  have h3 : s3.kept = s.kept := by simp [s3, s2, s1]
  clear_value s3
  have h7 : s7.kept = s.kept := by simp [s7, s6, s5, s4, h3]
  clear_value s7
  have h8 : s8.kept = s.kept := h7
  clear_value s8
  have h12 : s12.kept = s.kept := by simp [s12, s11, s10, s9, h8]
  clear_value s12
  have h13 : s13.kept = s.kept := h12
  clear_value s13
  have h14 : s14.kept = s.kept := by
    simp only [s14]
    split
    · exact h13
    · simpa using h13
  clear_value s14
  simpa [s15] using h14
@[simp] theorem resetRelease_kept (straps : BitVec 4) (srisClock : Bool) (s : State) : (resetRelease straps srisClock s).kept = s.kept := by
  unfold resetRelease
  (repeat' split) <;> simp
@[simp] theorem resetExit_kept (straps : BitVec 4) (srisClock : Bool) (s : State) : (resetExit straps srisClock s).kept = s.kept := by
  unfold resetExit
  (repeat' split) <;> simp
@[simp] theorem State.bankCount_kept (s : State) (a : Nat) : (State.bankCount s a).kept = s.kept := by
  simp [State.bankCount]
@[simp] theorem State.regRead_kept (s : State) (m : Master) (a : Nat) : (State.regRead s m a).2.kept = s.kept := by
  unfold State.regRead
  dsimp only
  (repeat' split) <;> simp
@[simp] theorem State.dmaStart_kept (s : State) (n : Nat) : (State.dmaStart s n).kept = s.kept := by
  simp [State.dmaStart]
@[simp] theorem State.dmaStop_kept (s : State) (n : Nat) : (State.dmaStop s n).kept = s.kept := by
  simp [State.dmaStop]
@[simp] theorem dmaCtrlWrite_kept (n : Nat) (w : Word) (s : State) : (dmaCtrlWrite n w s).kept = s.kept := by
  simp [dmaCtrlWrite]
@[simp] theorem State.earlyWrite_kept (s : State) : (State.earlyWrite s).kept = s.kept := by
  simp [State.earlyWrite]
@[simp] theorem State.plainWrite_kept (s : State) (r : RegRow) (a : Nat) (w : Word) : (State.plainWrite s r a w).kept = s.kept := by
  unfold State.plainWrite
  (repeat' split) <;> simp
@[simp] theorem ifHostWrite_kept (w : Word) (s : State) : (ifHostWrite w s).kept = s.kept := by
  simp [ifHostWrite]
@[simp] theorem cntClearWrite_kept (w : Word) (s : State) : (cntClearWrite w s).kept = s.kept := by
  simp [cntClearWrite]
@[simp] theorem prtCtrlWrite_kept (p : Nat) (w : Word) (s : State) : (prtCtrlWrite p w s).kept = s.kept := by
  simp [prtCtrlWrite]
@[simp] theorem hxCmdWrite_kept (p : Nat) (w : Word) (s : State) : (hxCmdWrite p w s).kept = s.kept := by
  simp [hxCmdWrite]
@[simp] theorem State.writePrt_kept (s : State) (r : RegRow) (i : List Nat) (a : Nat) (w : Word) : (State.writePrt s r i a w).kept = s.kept := by
  simp [State.writePrt]
@[simp] theorem State.writeHed_kept (s : State) (r : RegRow) (i : List Nat) (a : Nat) (w : Word) : (State.writeHed s r i a w).kept = s.kept := by
  simp [State.writeHed]
@[simp] theorem State.writeQue_kept (s : State) (r : RegRow) (i : List Nat) (a : Nat) (w : Word) : (State.writeQue s r i a w).kept = s.kept := by
  simp [State.writeQue]
@[simp] theorem State.writeTables_kept (s : State) (r : RegRow) (i : List Nat) (a : Nat) (w : Word) : (State.writeTables s r i a w).kept = s.kept := by
  simp [State.writeTables]
@[simp] theorem State.writeMid_kept (s : State) (r : RegRow) (i : List Nat) (a : Nat) (w : Word) : (State.writeMid s r i a w).kept = s.kept := by
  simp [State.writeMid]
@[simp] theorem State.decodeError_kept (s : State) (m : Nat) (a : Nat) : (State.decodeError s m a).kept = s.kept := by
  simp [State.decodeError]
@[simp] theorem State.targetRead_kept (s : State) (m : Master) (t : QTarget) (o n : Nat) : (s.targetRead m t o n).2.kept = s.kept := by
  unfold State.targetRead
  split <;> try rfl
  exact foldl_proj (fun a : List Byte × State => a.2.kept) _ _ _ fun a k => by simp
@[simp] theorem State.qspiGet_kept (s : State) (bar2 : Bool) (o n : Nat) (ready : Bool) : (s.qspiGet bar2 o n ready).kept = s.kept := by
  unfold State.qspiGet
  split
  · simp
  · split
    · simp
    · have hf := foldl_proj (fun a : List Byte × State × Bool => a.2.1.kept) (fun (a : List Byte × State × Bool) i =>
        let addr := a.2.1.barAddr bar2 (o + 4 * i)
        match burstAt addr 4 with
        | some (t, x) =>
          let (w, u) := a.2.1.targetRead .qspi t x 4
          (a.1 ++ w, u, a.2.2)
        | none => (a.1, a.2.1.decodeError 1 addr, false)) (upto n) ([], s, true) fun a k => by dsimp only; split <;> simp
      generalize (upto n).foldl _ ([], s, true) = r at hf ⊢
      obtain ⟨bs, t, ok⟩ := r
      dsimp only at hf ⊢
      split <;> simp [hf]
@[simp] theorem qspiRead_kept (o : BitVec 32) (n : Nat) (ready : Bool) (s : State) : (qspiRead o n ready s).kept = s.kept := by
  simp [qspiRead]
@[simp] theorem qspiReadBar2_kept (o : BitVec 32) (n : Nat) (ready : Bool) (s : State) : (qspiReadBar2 o n ready s).kept = s.kept := by
  simp [qspiReadBar2]
@[simp] theorem qspiReadStatus_kept (s : State) : (qspiReadStatus s).kept = s.kept := by
  simp [qspiReadStatus]
@[simp] theorem State.onDma_kept (s : State) (n : Nat) (g : DmaSt → DmaSt) : (State.onDma s n g).kept = s.kept := by
  simp [State.onDma]
@[simp] theorem State.dmaFail_kept (s : State) (n : Nat) (cause : Nat) : (State.dmaFail s n cause).kept = s.kept := by
  simp [State.dmaFail]
@[simp] theorem State.dmaMoved_kept (s : State) (n : Nat) (k : Nat) : (State.dmaMoved s n k).kept = s.kept := by
  simp [State.dmaMoved]
@[simp] theorem tick_kept (s : State) : (tick s).kept = s.kept := by
  simp [tick]
@[simp] theorem readAndAnswer_kept (m : Master) (a : Nat) (s : State) : (readAndAnswer m a s).kept = s.kept := by
  simp [readAndAnswer]
@[simp] theorem iconReads_kept (broken : List (Fin 256 × BitVec 19 × Word)) (s : State) : (iconReads broken s).kept = s.kept := by
  simp [iconReads]
@[simp] theorem symbolCounts_kept (sym : List (Fin 32 × Nat × Nat)) (s : State) : (symbolCounts sym s).kept = s.kept := by
  simp [symbolCounts]
@[simp] theorem State.withFetchWord_kept (s : State) (nbits : Nat) (w : Nat) : (State.withFetchWord s nbits w).kept = s.kept := by
  unfold State.withFetchWord
  repeat' first | rfl | dsimp only | (simp; done) | (rename_i heq; have hk := congrArg (fun p => p.2.kept) heq; simp at hk; simp [← hk]; done) | (refine (forAll_kept _ _ _ fun _ _ _ => ?_).trans ?_) | (refine (onlyIf_kept _ _ _ ?_).trans ?_) | (refine (foldl_kept _ _ _ fun _ _ _ => ?_).trans ?_) | split

end Sys2Proof.Machine
end

