-- ==== Sys2Proof/Laws/Clock.lean ====
section
/-! SUPPORT. What the shared operations of a stroke boundary keep: the number and the moment of the boundary, which the Cox alone moves
(R13, R14, R75). One lemma for each operation. -/

namespace Sys2Proof.Machine
/-- The number and the moment of the current stroke's boundary (R13, R75). -/
def State.clk (s : State) : Stroke × Nat := (s.clock.stroke, s.clock.boundary)
@[simp] theorem forAll_clk {α : Type} (l : List α) (g : α → State → State) (s : State) (h : ∀ a ∈ l, ∀ t, (g a t).clk = t.clk) : (forAll l g s).clk = s.clk := forAll_field State.clk g l h s
@[simp] theorem foldl_clk {α : Type} (l : List α) (g : State → α → State) (s : State) (h : ∀ a ∈ l, ∀ t, (g t a).clk = t.clk) : (l.foldl g s).clk = s.clk := forAll_field State.clk (fun a t => g t a) l h s
@[simp] theorem ite_clk (c : Prop) [Decidable c] (a b : State) : (if c then a else b).clk = if c then a.clk else b.clk := by split <;> rfl
@[simp] theorem clk_with_regs (s : State) x : ({ s with regs := x } : State).clk = s.clk := rfl
@[simp] theorem clk_with_shadow (s : State) x : ({ s with shadow := x } : State).clk = s.clk := rfl
@[simp] theorem clk_with_cox (s : State) x : ({ s with cox := x } : State).clk = s.clk := rfl
@[simp] theorem clk_with_syn (s : State) x : ({ s with syn := x } : State).clk = s.clk := rfl
@[simp] theorem clk_with_prt (s : State) x : ({ s with prt := x } : State).clk = s.clk := rfl
@[simp] theorem clk_with_xtb (s : State) x : ({ s with xtb := x } : State).clk = s.clk := rfl
@[simp] theorem clk_with_que (s : State) x : ({ s with que := x } : State).clk = s.clk := rfl
@[simp] theorem clk_with_slips (s : State) x : ({ s with slips := x } : State).clk = s.clk := rfl
@[simp] theorem clk_with_jik (s : State) x : ({ s with jik := x } : State).clk = s.clk := rfl
@[simp] theorem clk_with_hed (s : State) x : ({ s with hed := x } : State).clk = s.clk := rfl
@[simp] theorem clk_with_egr (s : State) x : ({ s with egr := x } : State).clk = s.clk := rfl
@[simp] theorem clk_with_aud (s : State) x : ({ s with aud := x } : State).clk = s.clk := rfl
@[simp] theorem clk_with_lgt (s : State) x : ({ s with lgt := x } : State).clk = s.clk := rfl
@[simp] theorem clk_with_fld (s : State) x : ({ s with fld := x } : State).clk = s.clk := rfl
@[simp] theorem clk_with_keep (s : State) x : ({ s with keep := x } : State).clk = s.clk := rfl
@[simp] theorem clk_with_nvs (s : State) x : ({ s with nvs := x } : State).clk = s.clk := rfl
@[simp] theorem clk_with_thm (s : State) x : ({ s with thm := x } : State).clk = s.clk := rfl
@[simp] theorem clk_with_pwr (s : State) x : ({ s with pwr := x } : State).clk = s.clk := rfl
@[simp] theorem clk_with_quay (s : State) x : ({ s with quay := x } : State).clk = s.clk := rfl
@[simp] theorem clk_with_evt (s : State) x : ({ s with evt := x } : State).clk = s.clk := rfl
@[simp] theorem clk_with_out (s : State) x : ({ s with out := x } : State).clk = s.clk := rfl
@[simp] theorem clk_with_pins (s : State) x : ({ s with pins := x } : State).clk = s.clk := rfl
@[simp] theorem clk_with_fresh (s : State) (n : Nat) : ({ s with clock := { s.clock with free := n } } : State).clk = s.clk := rfl
@[simp] theorem clk_with_keep_nvs (s : State) x y : ({ s with keep := x, nvs := y } : State).clk = s.clk := rfl

@[simp] theorem clk_with_any (s : State) (a1 a2 a4 a5 a6 a7 a8 a9 a10 a11 a12 a13 a14 a15 a16 a17 a18 a19 a20 a21 a22 a23 a24 a25 a26 a27 a28 a29 a30) :
    ({ s with regs := a1, shadow := a2, pins := a4, loader := a5, cox := a6, syn := a7, prt := a8, xtb := a9, que := a10, slips := a11, jik := a12,
              hed := a13, egr := a14, aud := a15, lgt := a16, fld := a17, keep := a18, nvs := a19, thm := a20, pwr := a21, quay := a22,
              evt := a23, out := a24, fstore := a25, work := a26, nvsMem := a27, cflash := a28, hostMem := a29, pending := a30 } : State).clk = s.clk := rfl
@[simp] theorem onClock_clk (s : State) (g : Clock → Clock) (h : (g s.clock).stroke = s.clock.stroke) (hb : (g s.clock).boundary = s.clock.boundary) :
    (s.onClock g).clk = s.clk := by
  simp [State.clk, State.onClock, h, hb]
@[simp] theorem State.wr_clk (s : State) (a : Nat) (v : Word) : (State.wr s a v).clk = s.clk := by
  simp [State.wr]
@[simp] theorem State.putWord_clk (s : State) (a : Nat) (w : Word) : (State.putWord s a w).clk = s.clk := by
  simp [State.putWord]
@[simp] theorem State.setF_clk (s : State) (a : Nat) (hi : Nat) (lo : Nat) (v : Nat) : (State.setF s a hi lo v).clk = s.clk := by
  simp [State.setF]
@[simp] theorem State.setB_clk (s : State) (a : Nat) (i : Nat) (v : Bool) : (State.setB s a i v).clk = s.clk := by
  simp [State.setB]
@[simp] theorem State.setI32_clk (s : State) (a : Nat) (v : Int) : (State.setI32 s a v).clk = s.clk := by
  simp [State.setI32]
@[simp] theorem State.reloadShadows_clk (s : State) (p : Nat → Bool) : (State.reloadShadows s p).clk = s.clk := by
  simp [State.reloadShadows]
@[simp] theorem State.takeShadows_clk (s : State) (p : Nat → Bool) : (State.takeShadows s p).clk = s.clk := by
  simp [State.takeShadows]
@[simp] theorem State.fresh_clk (s : State) (w : Nat) : (State.fresh s w).2.clk = s.clk := by
  simp [State.fresh]
@[simp] theorem onlyIf_clk (c : Bool) (g : State → State) (s : State) (h : (g s).clk = s.clk) : (onlyIf c g s).clk = s.clk := by
  cases c <;> simp [onlyIf, h]
@[simp] theorem State.setRing_clk (s : State) (r : Nat) (x : RingSt) : (State.setRing s r x).clk = s.clk := by
  simp [State.setRing]
@[simp] theorem State.satQuiet_clk (s : State) (a : Nat) (n : Nat) (k : Nat) : (State.satQuiet s a n k).clk = s.clk := by
  simp [State.satQuiet]
@[simp] theorem State.noteTail_clk (s : State) (k : Nat) : (State.noteTail s k).clk = s.clk := by
  simp [State.noteTail]
@[simp] theorem State.deliverQuiet_clk (s : State) (r : Nat) (x : Rec) : (State.deliverQuiet s r x).clk = s.clk := by
  simp [State.deliverQuiet]
@[simp] theorem State.dropSat_clk (s : State) (old : State) (a : Nat) : (State.dropSat s old a).clk = s.clk := by
  unfold State.dropSat
  (repeat' split) <;> simp
@[simp] theorem State.deliver_clk (s : State) (r : Nat) (x : Rec) : (State.deliver s r x).clk = s.clk := by
  simp [State.deliver]
@[simp] theorem State.raiseRaw_clk (s : State) (src : Nat) (code : Nat) (inst : Nat) (line : Nat) (data : Nat) : (State.raiseRaw s src code inst line data).clk = s.clk := by
  unfold State.raiseRaw
  (repeat' split) <;> simp
@[simp] theorem State.raise_clk (s : State) (e : Ev) (inst : Nat) (data : Nat) : (State.raise s e inst data).clk = s.clk := by
  simp [State.raise]
@[simp] theorem State.raiseFree_clk (s : State) (e : Ev) (inst : Nat) : (State.raiseFree s e inst).clk = s.clk := by
  simp [State.raiseFree]
@[simp] theorem State.countErr_clk (s : State) (a : Nat) (n : Nat) (k : Nat) : (State.countErr s a n k).clk = s.clk := by
  simp [State.countErr]
@[simp] theorem State.countPerf_clk (s : State) (a : Nat) (n : Nat) (k : Nat) : (State.countPerf s a n k).clk = s.clk := by
  simp [State.countPerf]
@[simp] theorem State.send_clk (s : State) (o : Out) : (State.send s o).clk = s.clk := by
  simp [State.send]
@[simp] theorem State.onPins_clk (s : State) (g : Pins → Pins) : (State.onPins s g).clk = s.clk := by
  simp [State.onPins]
@[simp] theorem State.onEntry_clk (s : State) (i : Nat) (g : EntSt → EntSt) : (State.onEntry s i g).clk = s.clk := by
  simp [State.onEntry]
@[simp] theorem State.onPort_clk (s : State) (p : Nat) (g : PortSt → PortSt) : (State.onPort s p g).clk = s.clk := by
  simp [State.onPort]
@[simp] theorem State.sendLane_clk (s : State) (p : Nat) (syms : List Sym) (masks : List (BitVec 10)) : (State.sendLane s p syms masks).clk = s.clk := by
  simp [State.sendLane]
@[simp] theorem State.sendFrame_clk (s : State) (l : Nat) (o : Out) (syms : List Sym) (masks : List (BitVec 10)) : (State.sendFrame s l o syms masks).clk = s.clk := by
  simp [State.sendFrame]
@[simp] theorem State.laneIdle_clk (s : State) (p : Nat) : (State.laneIdle s p).clk = s.clk := by
  simp [State.laneIdle]
@[simp] theorem State.laneWake_clk (s : State) (p : Nat) : (State.laneWake s p).clk = s.clk := by
  simp [State.laneWake]
@[simp] theorem State.fillWith_clk (s : State) (l : Nat) (c : Sym) : (State.fillWith s l c).clk = s.clk := by
  simp [State.fillWith]
@[simp] theorem State.sendBuoys_clk (s : State) (stroke : Nat) : (State.sendBuoys s stroke).clk = s.clk := by
  simp [State.sendBuoys]
@[simp] theorem State.onCox_clk (s : State) (g : CoxSt → CoxSt) : (State.onCox s g).clk = s.clk := by
  simp [State.onCox]
@[simp] theorem State.onRef_clk (s : State) (n : Nat) (g : RefSt → RefSt) : (State.onRef s n g).clk = s.clk := by
  simp [State.onRef]
@[simp] theorem State.coxNote_clk (s : State) (i : Nat) (e : Ev) : (State.coxNote s i e).clk = s.clk := by
  simp [State.coxNote]
@[simp] theorem State.wtrStop_clk (s : State) : (State.wtrStop s).clk = s.clk := by
  unfold State.wtrStop
  (repeat' split) <;> simp
@[simp] theorem State.wtrStart_clk (s : State) (n : Nat) : (State.wtrStart s n).clk = s.clk := by
  simp [State.wtrStart]
@[simp] theorem State.coxJudge_clk (s : State) (sel : Bool) (fell : Bool) : (State.coxJudge s sel fell).clk = s.clk := by
  unfold State.coxJudge
  (repeat' split) <;> simp
@[simp] theorem State.disqualify_clk (s : State) (n : Nat) : (State.disqualify s n).clk = s.clk := by
  simp [State.disqualify]
@[simp] theorem State.setQl_clk (s : State) (n : Nat) (q : Nat) (src : Nat) : (State.setQl s n q src).clk = s.clk := by
  simp [State.setQl]
@[simp] theorem State.refreshQl_clk (s : State) (n : Nat) : (State.refreshQl s n).clk = s.clk := by
  unfold State.refreshQl
  (repeat' split) <;> simp
@[simp] theorem State.refreshClip_clk (s : State) (n : Nat) : (State.refreshClip s n).clk = s.clk := by
  simp [State.refreshClip]
@[simp] theorem State.refCfgWritten_clk (s : State) (n : Nat) : (State.refCfgWritten s n).clk = s.clk := by
  simp [State.refCfgWritten]
@[simp] theorem State.coxTotal_clk (s : State) : (State.coxTotal s).clk = s.clk := by
  simp [State.coxTotal]
@[simp] theorem State.activityLoss_clk (s : State) (n : Nat) : (State.activityLoss s n).clk = s.clk := by
  simp [State.activityLoss]
@[simp] theorem State.addBuildout_clk (s : State) (d : Int) : (State.addBuildout s d).clk = s.clk := by
  simp [State.addBuildout]
@[simp] theorem State.slewBy_clk (s : State) (d : Int) : (s.slewBy d).clk = s.clk := by
  simp [State.slewBy]
@[simp] theorem State.slewUntil_clk (s : State) (t : Nat) : (State.slewUntil s t).clk = s.clk := by
  simp [State.slewUntil]
@[simp] theorem State.setInUse_clk (s : State) (n : Nat) : (State.setInUse s n).clk = s.clk := by
  simp [State.setInUse]
@[simp] theorem State.acquire_clk (s : State) (ps : List RefPhase) (n : Nat) : (s.acquire ps n).clk = s.clk := by
  have h : ((((s.setInUse n).setF Reg.coxState 1 0 1).wtrStop).onCox fun c => { c with lockGates := 0, due := none }).clk = s.clk := by simp
  unfold State.acquire
  dsimp only
  split
  · rw [State.coxNote_clk, onClock_clk _ _ rfl rfl]; exact h
  · rw [State.addBuildout_clk]; exact h
@[simp] theorem State.coxLeave_clk (s : State) (dst : Nat) : (State.coxLeave s dst).clk = s.clk := by
  simp [State.coxLeave]
@[simp] theorem State.coxFall_clk (s : State) : (State.coxFall s).clk = s.clk := by
  simp [State.coxFall]
@[simp] theorem State.enterLocked_clk (s : State) : (State.enterLocked s).clk = s.clk := by
  simp [State.enterLocked]
@[simp] theorem State.startSwitch_clk (s : State) (n : Nat) : (State.startSwitch s n).clk = s.clk := by
  simp [State.startSwitch]
@[simp] theorem State.switchStep_clk (s : State) (ps : List RefPhase) (w : Switch) : (State.switchStep s ps w).clk = s.clk := by
  unfold State.switchStep
  dsimp only
  (repeat' split) <;> simp
@[simp] theorem State.switchDrop_clk (s : State) : (State.switchDrop s).clk = s.clk := by
  simp [State.switchDrop]
@[simp] theorem State.coxTransition_clk (s : State) (ps : List RefPhase) : (State.coxTransition s ps).clk = s.clk := by
  unfold State.coxTransition
  dsimp only
  (repeat' split) <;> simp
@[simp] theorem State.coxPins_clk (s : State) : (State.coxPins s).clk = s.clk := by
  simp [State.coxPins]
@[simp] theorem State.syncPin_clk (s : State) (n : Nat) (active : Bool) : (State.syncPin s n active).clk = s.clk := by
  simp [State.syncPin]
@[simp] theorem State.syncPulse_clk (s : State) (n : Nat) : (State.syncPulse s n).clk = s.clk := by
  simp [State.syncPulse]
@[simp] theorem syncOutWrite_clk (n : Nat) (w : Word) (s : State) : (syncOutWrite n w s).clk = s.clk := by
  simp [syncOutWrite]
@[simp] theorem State.onNvs_clk (s : State) (g : NvsSt → NvsSt) : (State.onNvs s g).clk = s.clk := by
  simp [State.onNvs]
@[simp] theorem State.nvRead_clk (s : State) : (State.nvRead s).clk = s.clk := by
  simp [State.nvRead]
@[simp] theorem State.noteTorn_clk (s : State) (v : SlotView) (a : Nat) : (State.noteTorn s v a).clk = s.clk := by
  simp [State.noteTorn]
@[simp] theorem State.readRecord_clk (s : State) (a : Nat) (b : Nat) (pages : Nat) (dev : Option Nat) (who : Nat) : (State.readRecord s a b pages dev who).1.clk = s.clk := by
  unfold State.readRecord
  dsimp only
  (repeat' split) <;> simp
@[simp] theorem State.beginJob_clk (s : State) (j : NvsJob) : (State.beginJob s j).clk = s.clk := by
  unfold State.beginJob
  dsimp only
  (repeat' split) <;> simp
@[simp] theorem State.startJob_clk (s : State) (j : NvsJob) : (State.startJob s j).clk = s.clk := by
  unfold State.startJob
  (repeat' split) <;> simp
@[simp] theorem State.setPg_clk (s : State) (g : List Nat → List Nat) : (State.setPg s g).clk = s.clk := by
  simp [State.setPg]
@[simp] theorem State.writeKeep_clk (s : State) (k : KeepRam) : (State.writeKeep s k).clk = s.clk := by
  simp [State.writeKeep]
@[simp] theorem State.writeLedgers_clk (s : State) : (State.writeLedgers s).clk = s.clk := by
  simp [State.writeLedgers]
@[simp] theorem State.nvsEnd_clk (s : State) (code : Nat) (extra : Nat) : (State.nvsEnd s code extra).clk = s.clk := by
  simp [State.nvsEnd]
@[simp] theorem State.jobEnd_clk (s : State) (j : NvsJob) : (State.jobEnd s j).clk = s.clk := by
  unfold State.jobEnd
  (repeat' split) <;> simp
@[simp] theorem State.cutJob_clk (s : State) (kind : NvsJobKind → NvsJobKind) : (State.cutJob s kind).clk = s.clk := by
  simp [State.cutJob]
@[simp] theorem State.nvsMatrixReset_clk (s : State) : (State.nvsMatrixReset s).clk = s.clk := by
  unfold State.nvsMatrixReset
  (repeat' split) <;> simp
@[simp] theorem State.abortHost_clk (s : State) : (State.abortHost s).clk = s.clk := by
  simp [State.abortHost]
@[simp] theorem State.signalPowerDown_clk (s : State) (src : Nat) : (State.signalPowerDown s src).clk = s.clk := by
  simp [State.signalPowerDown]
@[simp] theorem State.resetRegs_clk (s : State) (warm : Bool) : (State.resetRegs s warm).clk = s.clk := by
  simp [State.resetRegs]
@[simp] theorem State.wipe_clk (s : State) (p : Nat → Bool) : (s.wipe p).clk = s.clk := rfl
@[simp] theorem State.onPwr_clk (s : State) (g : PwrSt → PwrSt) : (State.onPwr s g).clk = s.clk := by
  simp [State.onPwr]
@[simp] theorem State.addCause_clk (s : State) (i : Nat) : (State.addCause s i).clk = s.clk := by
  simp [State.addCause]
@[simp] theorem State.holdHist_clk (s : State) (i : Nat) : (State.holdHist s i).clk = s.clk := by
  simp [State.holdHist]
@[simp] theorem State.powerUp_clk (s : State) (cause : Nat) : (State.powerUp s cause).clk = s.clk := by
  simp [State.powerUp]
@[simp] theorem State.countRestart_clk (s : State) : (State.countRestart s).clk = s.clk := by
  unfold State.countRestart
  repeat' first | rfl | dsimp only | (simp; done) | (rename_i heq; have hk := congrArg (fun p => p.2.clk) heq; simp at hk; simp [← hk]; done) | (refine (forAll_clk _ _ _ fun _ _ _ => ?_).trans ?_) | (refine (onlyIf_clk _ _ _ ?_).trans ?_) | (refine (foldl_clk _ _ _ fun _ _ _ => ?_).trans ?_) | split
@[simp] theorem State.wakeUp_clk (s : State) : (State.wakeUp s).clk = s.clk := by
  simp [State.wakeUp]
@[simp] theorem State.lightsOff_clk (s : State) : (State.lightsOff s).clk = s.clk := by
  simp [State.lightsOff]
@[simp] theorem State.dropAll_clk (s : State) (why : OffWhy) : (State.dropAll s why).clk = s.clk := by
  simp [State.dropAll]
@[simp] theorem State.wakeSeen_clk (s : State) : (State.wakeSeen s).clk = s.clk := by
  simp [State.wakeSeen]
@[simp] theorem State.endLockout_clk (s : State) : (State.endLockout s).clk = s.clk := by
  simp [State.endLockout]
@[simp] theorem State.wakeActive_clk (s : State) : (State.wakeActive s).clk = s.clk := by
  unfold State.wakeActive
  dsimp only
  (repeat' split) <;> simp
@[simp] theorem State.wakeInactive_clk (s : State) : (State.wakeInactive s).clk = s.clk := by
  unfold State.wakeInactive
  dsimp only
  (repeat' split) <;> simp
@[simp] theorem State.onThm_clk (s : State) (g : ThmSt → ThmSt) : (State.onThm s g).clk = s.clk := by
  simp [State.onThm]
@[simp] theorem State.takeThreshold_clk (s : State) (t : Threshold) (v : Word) : (State.takeThreshold s t v).clk = s.clk := by
  simp [State.takeThreshold]
@[simp] theorem State.placeThresholds_clk (s : State) (ws : List (Nat × Word)) : (State.placeThresholds s ws).clk = s.clk := by
  unfold State.placeThresholds
  repeat' first | rfl | dsimp only | (simp; done) | (rename_i heq; have hk := congrArg (fun p => p.2.clk) heq; simp at hk; simp [← hk]; done) | (refine (forAll_clk _ _ _ fun _ _ _ => ?_).trans ?_) | (refine (onlyIf_clk _ _ _ ?_).trans ?_) | (refine (foldl_clk _ _ _ fun _ _ _ => ?_).trans ?_) | split
@[simp] theorem State.onLgt_clk (s : State) (g : LgtSt → LgtSt) : (State.onLgt s g).clk = s.clk := by
  simp [State.onLgt]
@[simp] theorem State.refreshAmps_clk (s : State) : (State.refreshAmps s).clk = s.clk := by
  unfold State.refreshAmps
  repeat' first | rfl | dsimp only | (simp; done) | (refine (forAll_clk _ _ _ fun _ _ _ => ?_).trans ?_) | (refine (onlyIf_clk _ _ _ ?_).trans ?_) | split
@[simp] theorem State.showStr_clk (s : State) (c : Nat) (x : StringSt) : (State.showStr s c x).clk = s.clk := by
  simp [State.showStr]
@[simp] theorem State.showLampFault_clk (s : State) : (State.showLampFault s).clk = s.clk := by
  simp [State.showLampFault]
@[simp] theorem State.lightStart_clk (s : State) (cfg : LightCfg) : (State.lightStart s cfg).clk = s.clk := by
  simp [State.lightStart]
@[simp] theorem State.injected_clk (s : State) (p : Nat) (n : Nat) : (State.injected s p n).clk = s.clk := by
  simp [State.injected]
@[simp] theorem State.flipMasks_clk (n : Nat) : ∀ s : State, (s.flipMasks n).2.clk = s.clk := by
  induction n with
  | zero => exact fun _ => rfl
  | succ n ih => intro s; unfold State.flipMasks; simp [ih]
@[simp] theorem State.corrupted_clk (s : State) (p : Nat) (tx : Bool) (n : Nat) : (State.corrupted s p tx n).2.2.clk = s.clk := by
  unfold State.corrupted
  split
  · simp
  · rfl
@[simp] theorem State.transmit_clk (s : State) (p : Nat) (stream : Option Nat) (poison : Bool) (bs : List Byte) : (State.transmit s p stream poison bs).clk = s.clk := by
  simp [State.transmit]
@[simp] theorem State.sendMsg_clk (s : State) (p : Nat) (m : Msg) : (State.sendMsg s p m).clk = s.clk := by
  simp [State.sendMsg]
@[simp] theorem State.issueNow_clk (s : State) (p : Nat) (q : XactWait) : (State.issueNow s p q).clk = s.clk := by
  simp [State.issueNow]
@[simp] theorem State.issueWaits_clk (s : State) (p : Nat) : (s.issueWaits p).clk = s.clk := by
  unfold State.issueWaits
  exact foldl_proj State.clk _ _ _ fun t _ => by (repeat' split) <;> simp
@[simp] theorem State.request_clk (s : State) (p : Nat) (q : XactWait) : (State.request s p q).clk = s.clk := by
  simp [State.request]
@[simp] theorem State.writeBackFailed_clk (s : State) (u : Nat) : (State.writeBackFailed s u).clk = s.clk := by
  simp [State.writeBackFailed]
@[simp] theorem State.xactResult_clk (s : State) (p : Nat) (use : XactUse) (code : Nat) (data : List Byte) : (State.xactResult s p use code data).clk = s.clk := by
  unfold State.xactResult
  (repeat' split) <;> simp
@[simp] theorem State.xactFail_clk (s : State) (p : Nat) (code : Nat) (x : Xact) : (State.xactFail s p code x).clk = s.clk := by
  simp [State.xactFail]
@[simp] theorem State.linkDown_clk (s : State) (p : Nat) : (State.linkDown s p).clk = s.clk := by
  simp [State.linkDown]
@[simp] theorem State.corruptFill_clk (s : State) (l : Nat) (tx : Bool) : (State.corruptFill s l tx).clk = s.clk := by
  simp [State.corruptFill]
@[simp] theorem State.corruptFills_clk (s : State) : (State.corruptFills s).clk = s.clk := by
  simp [State.corruptFills]
@[simp] theorem State.refsSilent_clk (s : State) (p : Nat) : (State.refsSilent s p).clk = s.clk := by
  simp [State.refsSilent]
@[simp] theorem State.sendMarkers_clk (s : State) : (State.sendMarkers s).clk = s.clk := by
  simp [State.sendMarkers]
@[simp] theorem State.onSyn_clk (s : State) (i : Nat) (g : SynSt → SynSt) : (State.onSyn s i g).clk = s.clk := by
  simp [State.onSyn]
@[simp] theorem State.setSynState_clk (s : State) (i : Nat) (v : Nat) : (State.setSynState s i v).clk = s.clk := by
  simp [State.setSynState]
@[simp] theorem State.settleSyn_clk (s : State) (p : Nat) : (State.settleSyn s p).clk = s.clk := by
  simp [State.settleSyn]
@[simp] theorem State.bandPlaced_clk (s : State) (a : Nat) : (State.bandPlaced s a).clk = s.clk := by
  simp [State.bandPlaced]
@[simp] theorem State.synAcquireOn_clk (s : State) (i : Nat) (k : Nat) (b : Nat) (rg : Int × Int) : (State.synAcquireOn s i k b rg).clk = s.clk := by
  simp [State.synAcquireOn]
@[simp] theorem State.synAcquire_clk (s : State) (i : Nat) : (State.synAcquire s i).clk = s.clk := by
  unfold State.synAcquire
  (repeat' split) <;> simp
@[simp] theorem State.setLadder_clk (s : State) (l : Nat) (rung : Nat) : (State.setLadder s l rung).clk = s.clk := by
  simp [State.setLadder]
@[simp] theorem State.setRate_clk (s : State) (l : Nat) (r : Nat) : (State.setRate s l r).clk = s.clk := by
  simp [State.setRate]
@[simp] theorem State.showGood_clk (s : State) (l : Nat) : (State.showGood s l).clk = s.clk := by
  simp [State.showGood]
@[simp] theorem State.setLock_clk (s : State) (p : Nat) (on : Bool) : (State.setLock s p on).clk = s.clk := by
  simp [State.setLock]
@[simp] theorem State.onLanes_clk (s : State) (l : Nat) (g : PortSt → PortSt) : (State.onLanes s l g).clk = s.clk := by
  simp [State.onLanes]
@[simp] theorem State.enterDetect_clk (s : State) (l : Nat) : (State.enterDetect s l).clk = s.clk := by
  simp [State.enterDetect]
@[simp] theorem State.portStart_clk (s : State) (p : Nat) : (State.portStart s p).clk = s.clk := by
  simp [State.portStart]
@[simp] theorem State.trainWith_clk (s : State) (l : Nat) (retrain : Bool) (c : Sym) : (State.trainWith s l retrain c).clk = s.clk := by
  simp [State.trainWith]
@[simp] theorem State.enterTrain_clk (s : State) (l : Nat) (retrain : Bool) : (State.enterTrain s l retrain).clk = s.clk := by
  simp [State.enterTrain]
@[simp] theorem State.glassSetup_clk (s : State) (l : Nat) : (State.glassSetup s l).clk = s.clk := by
  simp [State.glassSetup]
@[simp] theorem State.enterRun_clk (s : State) (l : Nat) : (State.enterRun s l).clk = s.clk := by
  simp [State.enterRun]
@[simp] theorem State.offerStep_clk (s : State) (l : Nat) (r : Nat) : (State.offerStep s l r).clk = s.clk := by
  simp [State.offerStep]
@[simp] theorem State.stepFail_clk (s : State) (l : Nat) (lost : Bool) : (State.stepFail s l lost).clk = s.clk := by
  unfold State.stepFail
  (repeat' split) <;> simp
@[simp] theorem State.stepBoundary_clk (s : State) (l : Nat) : (State.stepBoundary s l).clk = s.clk := by
  unfold State.stepBoundary
  (repeat' split) <;> simp
@[simp] theorem State.pullApply_clk (s : State) (l : Nat) (w : Word) : (State.pullApply s l w).clk = s.clk := by
  simp [State.pullApply]
@[simp] theorem State.pullJudge_clk (s : State) (l : Nat) : (State.pullJudge s l).clk = s.clk := by
  simp [State.pullJudge]
@[simp] theorem State.backTo_clk (s : State) (l : Nat) (i : Nat) : (State.backTo s l i).clk = s.clk := by
  simp [State.backTo]
@[simp] theorem State.backMove_clk (s : State) (l : Nat) : (State.backMove s l).clk = s.clk := by
  unfold State.backMove
  (repeat' split) <;> simp
@[simp] theorem State.relockTrain_clk (s : State) (l : Nat) : (State.relockTrain s l).clk = s.clk := by
  simp [State.relockTrain]
@[simp] theorem laneLockLoss_clk (p : Nat) (s : State) : (laneLockLoss p s).clk = s.clk := by
  simp [laneLockLoss]
@[simp] theorem State.offerStripe_clk (s : State) (l : Nat) (widen : Bool) (width : Nat) (mask : Nat) : (State.offerStripe s l widen width mask).clk = s.clk := by
  simp [State.offerStripe]
@[simp] theorem widen_clk (p : Nat) (s : State) : (widen p s).clk = s.clk := by
  simp [widen]
@[simp] theorem State.restripe_clk (s : State) (l : Nat) (o : Offer) : (State.restripe s l o).clk = s.clk := by
  simp [State.restripe]
@[simp] theorem State.stripeBoundary_clk (s : State) (l : Nat) : (State.stripeBoundary s l).clk = s.clk := by
  unfold State.stripeBoundary
  dsimp only
  (repeat' split) <;> simp
@[simp] theorem State.portBoundary_clk (s : State) (l : Nat) : (State.portBoundary s l).clk = s.clk := by
  simp [State.portBoundary]
@[simp] theorem State.portsBoundary_clk (s : State) : (State.portsBoundary s).clk = s.clk := by
  simp [State.portsBoundary]
@[simp] theorem State.txIdleEnter_clk (s : State) (l : Nat) : (State.txIdleEnter s l).clk = s.clk := by
  simp [State.txIdleEnter]
@[simp] theorem retrain_clk (p : Nat) (s : State) : (retrain p s).clk = s.clk := by
  simp [retrain]
@[simp] theorem State.wakePort_clk (s : State) (l : Nat) : (State.wakePort s l).clk = s.clk := by
  simp [State.wakePort]
@[simp] theorem State.haltPorts_clk (s : State) (i : Nat) : (s.haltPorts i).clk = s.clk := by
  unfold State.haltPorts
  refine forAll_clk _ _ _ fun l _ t => ?_
  dsimp only
  split
  · rfl
  · (repeat' split) <;> simp
@[simp] theorem extest_clk (on : Bool) (s : State) : (extest on s).clk = s.clk := by
  simp [extest]
@[simp] theorem State.onSlip_clk (s : State) (k : Nat) (g : SlipSt → SlipSt) : (State.onSlip s k g).clk = s.clk := by
  simp [State.onSlip]
@[simp] theorem State.onSlot_clk (s : State) (k : Nat) (j : Nat) (g : SlotSt → SlotSt) : (State.onSlot s k j g).clk = s.clk := by
  simp [State.onSlot]
@[simp] theorem State.moveBeats_clk (s : State) (k : Nat) (j : Nat) (l : Nat) (i : Nat) (n : Nat) : (State.moveBeats s k j l i n).clk = s.clk := by
  simp [State.moveBeats]
@[simp] theorem State.fetchLine_clk (s : State) (k : Nat) (j : Nat) (l : Nat) : (State.fetchLine s k j l).clk = s.clk := by
  simp [State.fetchLine]
@[simp] theorem State.storeLine_clk (s : State) (k : Nat) (j : Nat) (l : Nat) (i : Nat) (bs : List Byte) : (State.storeLine s k j l i bs).clk = s.clk := by
  simp [State.storeLine]
@[simp] theorem State.placeBlocks_clk (s : State) (k j l b : Nat) (ws : List Lane) : (s.placeBlocks k j l b ws).clk = s.clk := by
  unfold State.placeBlocks
  exact forAll_clk _ _ _ fun e _ t => by simp
@[simp] theorem State.placeWords_clk (s : State) (k j l part : Nat) (ws : List Lane) : (s.placeWords k j l part ws).clk = s.clk := by
  unfold State.placeWords
  split <;> simp
@[simp] theorem State.slipCoding_clk (s : State) (k : Nat) : (State.slipCoding s k).clk = s.clk := by
  simp [State.slipCoding]
@[simp] theorem State.showSlip_clk (s : State) (k : Nat) : (State.showSlip s k).clk = s.clk := by
  unfold State.showSlip
  (repeat' split) <;> simp
@[simp] theorem State.completeFrame_clk (s : State) (k : Nat) (j : Nat) : (State.completeFrame s k j).clk = s.clk := by
  simp [State.completeFrame]
@[simp] theorem State.discardFilling_clk (s : State) (k : Nat) : (State.discardFilling s k).clk = s.clk := by
  unfold State.discardFilling
  (repeat' split) <;> simp
@[simp] theorem State.pin_clk (s : State) (k : Nat) (j : Nat) (r : Nat) : (State.pin s k j r).clk = s.clk := by
  simp [State.pin]
@[simp] theorem State.pinPick_clk (s : State) (p : Pick) (r : Nat) : (State.pinPick s p r).clk = s.clk := by
  simp [State.pinPick]
@[simp] theorem State.unpin_clk (s : State) (k : Nat) (r : Nat) : (State.unpin s k r).clk = s.clk := by
  simp [State.unpin]
@[simp] theorem State.selectFrame_clk (s : State) (k : Nat) (x : Nat) (r : Nat) (last : Option Pick) : (State.selectFrame s k x r last).2.clk = s.clk := by
  unfold State.selectFrame
  (repeat' split) <;> simp
@[simp] theorem State.fetchPick_clk (s : State) (p : Pick) (l : Nat) : (State.fetchPick s p l).clk = s.clk := by
  simp [State.fetchPick]
@[simp] theorem State.slipsNewStroke_clk (s : State) : (State.slipsNewStroke s).clk = s.clk := by
  simp [State.slipsNewStroke]
@[simp] theorem State.onGrp_clk (s : State) (g : Nat) (f : GrpSt → GrpSt) : (State.onGrp s g f).clk = s.clk := by
  simp [State.onGrp]
@[simp] theorem State.entryTo_clk (s : State) (i : Nat) (st : EntState) (reason : Nat) : (State.entryTo s i st reason).clk = s.clk := by
  simp [State.entryTo]
@[simp] theorem State.noteBlank_clk (s : State) (n : Nat) (blank : Bool) : (State.noteBlank s n blank).clk = s.clk := by
  simp [State.noteBlank]
@[simp] theorem State.emptyEntry_clk (s : State) (i : Nat) (reason : Nat) : (State.emptyEntry s i reason).clk = s.clk := by
  simp [State.emptyEntry]
@[simp] theorem State.countRefused_clk (s : State) (n : Nat) : (State.countRefused s n).clk = s.clk := by
  simp [State.countRefused]
@[simp] theorem State.grpTo_clk (s : State) (g : Nat) (st : GrpState) (reason : Nat) : (State.grpTo s g st reason).clk = s.clk := by
  simp [State.grpTo]
@[simp] theorem State.refuse_clk (s : State) (g : Nat) (es : List Nat) (reason : Nat) (dropped : Bool) : (State.refuse s g es reason dropped).clk = s.clk := by
  simp [State.refuse]
@[simp] theorem State.writeEntry_clk (s : State) (i : Nat) (w0 : Word) (w1 : Word) (w2 : Word) (w3 : Word) : (State.writeEntry s i w0 w1 w2 w3).clk = s.clk := by
  simp [State.writeEntry]
@[simp] theorem State.degrade_clk (s : State) (i : Nat) (reason : Nat) : (State.degrade s i reason).clk = s.clk := by
  simp [State.degrade]
@[simp] theorem State.suspend_clk (s : State) (i : Nat) (reason : Nat) : (State.suspend s i reason).clk = s.clk := by
  simp [State.suspend]
@[simp] theorem State.judgeFeatures_clk (s : State) : (State.judgeFeatures s).clk = s.clk := by
  simp [State.judgeFeatures]
@[simp] theorem State.takeEntries_clk (s : State) (g : Nat) (es : List Nat) : (State.takeEntries s g es).clk = s.clk := by
  simp [State.takeEntries]
@[simp] theorem State.sendJoinHold_clk (s : State) (g : Nat) (take : Nat) (but : Option Nat) : (State.sendJoinHold s g take but).clk = s.clk := by
  simp [State.sendJoinHold]
@[simp] theorem State.consider_clk (s : State) (claimed : List (Nat × Nat)) (g : Nat) (es : List Nat) : (s.consider claimed g es).2.clk = s.clk := by
  unfold State.consider
  extract_lets c e seen held wasHeld s1 s2 set split_ limit n
  split
  · split <;> simp
  · have h2 : s2.clk = s.clk := by simp [s2, s1]
    clear_value s1 s2 set limit n
    split
    · split <;> simp [h2]
    · split
      · simp [h2]
      · split
        · simp [h2]
        · split
          · simp [h2]
          · extract_lets s4 s5
            have h4 : s4.clk = s.clk := by simp [s4, h2]
            have h5 : s5.clk = s.clk := (forAll_clk _ _ _ fun _ _ _ => by split <;> simp).trans h4
            clear_value s4 s5
            split
            · exact h5
            · split <;> simp [h5]
@[simp] theorem State.setCheck_clk (s : State) : (State.setCheck s).clk = s.clk := by
  simp [State.setCheck]
@[simp] theorem State.takeCrossings_clk (s : State) : (State.takeCrossings s).clk = s.clk := by
  unfold State.takeCrossings
  dsimp only
  rw [foldl_proj (fun a : List (Nat × Nat) × State => a.2.clk) _ _ _ (fun a i => by split <;> simp)]
  exact foldl_proj (fun a : List (Nat × Nat) × State => a.2.clk) _ _ _ (fun a i => by simp)
@[simp] theorem State.placeCrossing_clk (s : State) (i : Nat) (w0 : Word) (w1 : Word) (w2 : Word) (w3 : Word) : (State.placeCrossing s i w0 w1 w2 w3).clk = s.clk := by
  simp [State.placeCrossing]
@[simp] theorem State.armChart_clk (s : State) (p : Nat → Bool) : (State.armChart s p).clk = s.clk := by
  simp [State.armChart]
@[simp] theorem State.amendClear_clk (s : State) (es : List Nat) : (State.amendClear s es).clk = s.clk := by
  unfold State.amendClear
  repeat' first | rfl | dsimp only | (simp; done) | (rename_i heq; have hk := congrArg (fun p => p.2.clk) heq; simp at hk; simp [← hk]; done) | (refine (forAll_clk _ _ _ fun _ _ _ => ?_).trans ?_) | (refine (onlyIf_clk _ _ _ ?_).trans ?_) | (refine (foldl_clk _ _ _ fun _ _ _ => ?_).trans ?_) | split
@[simp] theorem State.amendEntry_clk (s : State) (i : Nat) (w0 : Word) (w1 : Word) (w2 : Word) (w3 : Word) : (State.amendEntry s i w0 w1 w2 w3).clk = s.clk := by
  unfold State.amendEntry
  dsimp only
  (repeat' split) <;> simp
@[simp] theorem State.armAmended_clk (s : State) (gs : List Nat) : (State.armAmended s gs).clk = s.clk := by
  simp [State.armAmended]
@[simp] theorem State.movePaths_clk (s : State) : (State.movePaths s).clk = s.clk := by
  simp [State.movePaths]
@[simp] theorem State.judgeSources_clk (s : State) : (State.judgeSources s).clk = s.clk := by
  simp [State.judgeSources]
@[simp] theorem State.admission_clk (s : State) : (State.admission s).clk = s.clk := by
  unfold State.admission
  exact foldl_proj (fun a : NMap Nat × NMap Nat × State => a.2.2.clk) _ _ _ (fun a i => by
    dsimp only
    split
    · rfl
    · split
      · dsimp only; split <;> simp
      · dsimp only; split <;> simp)
@[simp] theorem State.crossingsBoundary_clk (s : State) : (State.crossingsBoundary s).clk = s.clk := by
  simp [State.crossingsBoundary]
@[simp] theorem State.onQueue_clk (s : State) (q : Nat) (g : QueSt → QueSt) : (State.onQueue s q g).clk = s.clk := by
  simp [State.onQueue]
@[simp] theorem State.append_clk (s : State) (q : Nat) (d : Rec) : (State.append s q d).clk = s.clk := by
  simp [State.append]
@[simp] theorem State.dropDesc_clk (s : State) (q : Nat) : (State.dropDesc s q).clk = s.clk := by
  simp [State.dropDesc]
@[simp] theorem State.pushFree_clk (s : State) (q : Nat) (d : Rec) : (State.pushFree s q d).clk = s.clk := by
  simp [State.pushFree]
@[simp] theorem State.queuesNewStroke_clk (s : State) : (State.queuesNewStroke s).clk = s.clk := by
  simp [State.queuesNewStroke]
@[simp] theorem State.onEgress_clk (s : State) (i : Nat) (g : EgrSt → EgrSt) : (State.onEgress s i g).clk = s.clk := by
  simp [State.onEgress]
@[simp] theorem State.egressDrop_clk (s : State) (i : Nat) : (State.egressDrop s i).clk = s.clk := by
  simp [State.egressDrop]
@[simp] theorem State.egressSelect_clk (s : State) : (State.egressSelect s).clk = s.clk := by
  unfold State.egressSelect
  refine forAll_clk _ _ _ fun e _ t => ?_
  dsimp only
  split
  · split
    · rfl
    · split
      · simp
      · split
        · rfl
        · split
          · rename_i heq; have hk := congrArg (fun p => p.2.clk) heq; simp at hk; exact hk.symm
          · rename_i heq
            have hk := congrArg (fun p => p.2.clk) heq
            simp at hk
            split <;> simp [← hk]
  · simp
@[simp] theorem State.onHead_clk (s : State) (h : Nat) (g : HeadSt → HeadSt) : (State.onHead s h g).clk = s.clk := by
  simp [State.onHead]
@[simp] theorem State.onLay_clk (s : State) (h : Nat) (k : Nat) (g : LaySt → LaySt) : (State.onLay s h k g).clk = s.clk := by
  simp [State.onLay]
@[simp] theorem State.raiseHead_clk (s : State) (e : Ev) (h : Nat) (data : Nat) : (State.raiseHead s e h data).clk = s.clk := by
  simp [State.raiseHead]
@[simp] theorem State.newGroup_clk (s : State) (h : Nat) : (State.newGroup s h).clk = s.clk := by
  simp [State.newGroup]
@[simp] theorem State.discardStopped_clk (s : State) : (State.discardStopped s).clk = s.clk := by
  simp [State.discardStopped]
@[simp] theorem State.layUnpin_clk (s : State) (h : Nat) (k : Nat) (keep : List LayShow) : (State.layUnpin s h k keep).clk = s.clk := by
  unfold State.layUnpin
  repeat' first | rfl | dsimp only | (simp; done) | (refine (forAll_clk _ _ _ fun _ _ _ => ?_).trans ?_) | (refine (onlyIf_clk _ _ _ ?_).trans ?_) | split
@[simp] theorem State.showHeld_clk (s : State) (h : Nat) (k : Nat) (cause : Nat) : (State.showHeld s h k cause).clk = s.clk := by
  simp [State.showHeld]
@[simp] theorem State.flipLayer_clk (s : State) (h : Nat) (k : Nat) (cause : Nat) (off : Bool) : (State.flipLayer s h k cause off).clk = s.clk := by
  unfold State.flipLayer
  repeat' first | rfl | dsimp only | (simp; done) | (rename_i heq; have hk := congrArg (fun p => p.2.clk) heq; simp at hk; simp [← hk]; done) | (refine (forAll_clk _ _ _ fun _ _ _ => ?_).trans ?_) | (refine (onlyIf_clk _ _ _ ?_).trans ?_) | split
@[simp] theorem State.layPath_clk (s : State) (h : Nat) (k : Nat) : (State.layPath s h k).clk = s.clk := by
  unfold State.layPath
  (repeat' split) <;> simp
@[simp] theorem State.repeatLayer_clk (s : State) (h : Nat) (k : Nat) : (State.repeatLayer s h k).clk = s.clk := by
  simp [State.repeatLayer]
@[simp] theorem State.layMarkGone_clk (s : State) (h : Nat) (k : Nat) : (State.layMarkGone s h k).clk = s.clk := by
  unfold State.layMarkGone
  (repeat' split) <;> simp
@[simp] theorem State.flipHead_clk (s : State) (h : Nat) : (State.flipHead s h).clk = s.clk := by
  simp [State.flipHead]
@[simp] theorem State.copied_clk (s : State) (h : Nat) : (State.copied s h).clk = s.clk := by
  simp [State.copied]
@[simp] theorem State.judgeOutside_clk (s : State) (h : Nat) : (State.judgeOutside s h).clk = s.clk := by
  simp [State.judgeOutside]
@[simp] theorem State.applyCommit_clk (s : State) (h : Nat) (bad : List Nat) : (State.applyCommit s h bad).clk = s.clk := by
  simp [State.applyCommit]
@[simp] theorem State.reportCommit_clk (s : State) (h : Nat) (seq : Nat) (whole : Bool) (bad : List (Nat × Nat)) : (State.reportCommit s h seq whole bad).clk = s.clk := by
  simp [State.reportCommit]
@[simp] theorem State.commitHeads_clk (s : State) (hs : List Nat) (seq : Nat) (sync : Bool) : (State.commitHeads s hs seq sync).2.clk = s.clk := by
  simp [State.commitHeads]
@[simp] theorem State.closeZones_clk (s : State) (h : Nat) : (State.closeZones s h).clk = s.clk := by
  simp [State.closeZones]
@[simp] theorem State.layDrop_clk (s : State) (h : Nat) (k : Nat) : (State.layDrop s h k).clk = s.clk := by
  simp [State.layDrop]
@[simp] theorem State.judgeCovered_clk (s : State) (h : Nat) : (State.judgeCovered s h).clk = s.clk := by
  simp [State.judgeCovered]
@[simp] theorem State.releasePins_clk (s : State) (h : Nat) : (State.releasePins s h).clk = s.clk := by
  simp [State.releasePins]
@[simp] theorem State.takeCommit_clk (s : State) (h : Nat) : (State.takeCommit s h).clk = s.clk := by
  unfold State.takeCommit
  (repeat' split) <;> simp
@[simp] theorem State.stopDisabled_clk (s : State) (h : Nat) : (State.stopDisabled s h).clk = s.clk := by
  simp [State.stopDisabled]
@[simp] theorem State.haltHead_clk (s : State) (h : Nat) : (State.haltHead s h).clk = s.clk := by
  simp [State.haltHead]
@[simp] theorem State.haltHeads_clk (s : State) (i : Nat) : (State.haltHeads s i).clk = s.clk := by
  simp [State.haltHeads]
@[simp] theorem State.takeIcons_clk (s : State) (h : Nat) : (State.takeIcons s h).clk = s.clk := by
  simp [State.takeIcons]
@[simp] theorem State.showFault_clk (s : State) : (State.showFault s).clk = s.clk := by
  simp [State.showFault]
@[simp] theorem State.levelTake_clk (s : State) (h : Nat) (level : Nat) (avail : Nat) : (State.levelTake s h level avail).clk = s.clk := by
  simp [State.levelTake]
@[simp] theorem State.final_clk (s : State) (h : Nat) (f : WFrame) : (State.final s h f).clk = s.clk := by
  simp [State.final]
@[simp] theorem State.settle_clk (n : Nat) : ∀ (s : State) (h : Nat), (State.settle n s h).clk = s.clk := by
  induction n with
  | zero => intros; rfl
  | succ n ih => intros; unfold State.settle; (repeat' split) <;> simp [ih]
@[simp] theorem State.settleAll_clk (s : State) (h : Nat) : (State.settleAll s h).clk = s.clk := by
  simp [State.settleAll]
@[simp] theorem State.showSigs_clk (s : State) (h : Nat) : (State.showSigs s h).clk = s.clk := by
  simp [State.showSigs]
@[simp] theorem State.showOn_clk (s : State) (h : Nat) : (State.showOn s h).clk = s.clk := by
  simp [State.showOn]
@[simp] theorem State.sigOpen_clk (s : State) (a : Nat) : (State.sigOpen s a).clk = s.clk := by
  simp [State.sigOpen]
@[simp] theorem State.showGlass_clk (s : State) (h : Nat) (mask : Nat) (crcs : Nat → Nat) : (State.showGlass s h mask crcs).clk = s.clk := by
  simp [State.showGlass]
@[simp] theorem State.showProof_clk (s : State) (h : Nat) (rb : List (Fin 16 × Option Word)) : (State.showProof s h rb).clk = s.clk := by
  unfold State.showProof
  repeat' first | rfl | dsimp only | (simp; done) | (rename_i heq; have hk := congrArg (fun p => p.2.clk) heq; simp at hk; simp [← hk]; done) | (refine (forAll_clk _ _ _ fun _ _ _ => ?_).trans ?_) | (refine (onlyIf_clk _ _ _ ?_).trans ?_) | (refine (foldl_clk _ _ _ fun _ _ _ => ?_).trans ?_) | split
@[simp] theorem State.compareWatch_clk (s : State) (h : Nat) (rb : List (Fin 16 × Option Word)) : (State.compareWatch s h rb).clk = s.clk := by
  simp [State.compareWatch]
@[simp] theorem State.compareOther_clk (s : State) (h : Nat) : (State.compareOther s h).clk = s.clk := by
  simp [State.compareOther]
@[simp] theorem State.compareFrame_clk (s : State) (h : Nat) (cut : Bool) (rb : List (Fin 16 × Option Word)) : (State.compareFrame s h cut rb).clk = s.clk := by
  simp [State.compareFrame]
@[simp] theorem State.showLayers_clk (s : State) (h : Nat) : (State.showLayers s h).clk = s.clk := by
  simp [State.showLayers]
@[simp] theorem State.gateActions_clk (s : State) (h : Nat) (cut : Bool) (rb : List (Fin 16 × Option Word)) : (State.gateActions s h cut rb).clk = s.clk := by
  simp [State.gateActions]
@[simp] theorem State.cutFrame_clk (s : State) (h : Nat) : (State.cutFrame s h).clk = s.clk := by
  simp [State.cutFrame]
@[simp] theorem State.flipHeads_clk (s : State) : (State.flipHeads s).clk = s.clk := by
  simp [State.flipHeads]
@[simp] theorem State.glassLimit_clk (s : State) : (State.glassLimit s).clk = s.clk := by
  simp [State.glassLimit]
@[simp] theorem State.clearZones_clk (s : State) : (State.clearZones s).clk = s.clk := by
  simp [State.clearZones]
@[simp] theorem State.markZones_clk (s : State) (h : Nat) : (State.markZones s h).clk = s.clk := by
  simp [State.markZones]
@[simp] theorem State.onAud_clk (s : State) (g : AudSt → AudSt) : (State.onAud s g).clk = s.clk := by
  simp [State.onAud]
@[simp] theorem State.onAudIn_clk (s : State) (i : Nat) (g : AudIn → AudIn) : (State.onAudIn s i g).clk = s.clk := by
  simp [State.onAudIn]
@[simp] theorem State.onChime_clk (s : State) (c : Nat) (g : ChimeSt → ChimeSt) : (State.onChime s c g).clk = s.clk := by
  simp [State.onChime]
@[simp] theorem State.showProtected_clk (s : State) : (State.showProtected s).clk = s.clk := by
  simp [State.showProtected]
@[simp] theorem State.audTakeCommit_clk (s : State) : (State.audTakeCommit s).clk = s.clk := by
  unfold State.audTakeCommit
  (repeat' split) <;> simp
@[simp] theorem State.audLoss_clk (s : State) (i : Nat) (stop : Bool) : (State.audLoss s i stop).clk = s.clk := by
  simp [State.audLoss]
@[simp] theorem State.audPathEvent_clk (s : State) (i : Nat) : (State.audPathEvent s i).clk = s.clk := by
  simp [State.audPathEvent]
@[simp] theorem State.chimeStep_clk (s : State) (c : Nat) : (State.chimeStep s c).clk = s.clk := by
  simp [State.chimeStep]
@[simp] theorem State.audDisplace_clk (s : State) : (State.audDisplace s).clk = s.clk := by
  simp [State.audDisplace]
@[simp] theorem State.audBoundary_clk (s : State) : (State.audBoundary s).clk = s.clk := by
  simp [State.audBoundary]
@[simp] theorem State.audStart_clk (s : State) : (State.audStart s).clk = s.clk := by
  simp [State.audStart]
@[simp] theorem State.onEng_clk (s : State) (e : Nat) (g : EngSt → EngSt) : (State.onEng s e g).clk = s.clk := by
  simp [State.onEng]
@[simp] theorem State.onCrew_clk (s : State) (c : Nat) (g : CrwSt → CrwSt) : (State.onCrew s c g).clk = s.clk := by
  simp [State.onCrew]
@[simp] theorem State.onJik_clk (s : State) (g : JikSt → JikSt) : (State.onJik s g).clk = s.clk := by
  simp [State.onJik]
@[simp] theorem State.releaseCrew_clk (s : State) (c : Nat) : (State.releaseCrew s c).clk = s.clk := by
  simp [State.releaseCrew]
@[simp] theorem State.hold_clk (s : State) (q : Nat) (r : Rec) (origin : PushFrom) : (State.hold s q r origin).clk = s.clk := by
  simp [State.hold]
@[simp] theorem State.pushOr_clk (s : State) (q : Nat) (r : Rec) (origin : PushFrom) : (State.pushOr s q r origin).clk = s.clk := by
  simp [State.pushOr]
@[simp] theorem State.pushDone_clk (s : State) (q : Nat) (r : Rec) : (State.pushDone s q r).clk = s.clk := by
  simp [State.pushDone]
@[simp] theorem State.jobOver_clk (s : State) (x : Flight) (status : Nat) : (State.jobOver s x status).clk = s.clk := by
  unfold State.jobOver
  (repeat' split) <;> simp
@[simp] theorem State.freeTag_clk (s : State) (tag : Nat) : (State.freeTag s tag).clk = s.clk := by
  simp [State.freeTag]
@[simp] theorem State.jobDone_clk (s : State) (tag : Nat) (status : Nat) (result : Nat) : (State.jobDone s tag status result).clk = s.clk := by
  unfold State.jobDone
  (repeat' split) <;> simp
@[simp] theorem State.showCrew_clk (s : State) (c : Nat) : (State.showCrew s c).clk = s.clk := by
  simp [State.showCrew]
@[simp] theorem State.countBusy_clk (s : State) (e : Nat) : (State.countBusy s e).clk = s.clk := by
  simp [State.countBusy]
@[simp] theorem State.bankBusy_clk (s : State) : (State.bankBusy s).clk = s.clk := by
  simp [State.bankBusy]
@[simp] theorem State.freeEngine_clk (s : State) (e : Nat) : (State.freeEngine s e).clk = s.clk := by
  simp [State.freeEngine]
@[simp] theorem State.vacate_clk (s : State) (isCrew : Bool) (n : Nat) : (State.vacate s isCrew n).clk = s.clk := by
  simp [State.vacate]
@[simp] theorem State.enterJob_clk (s : State) (q : Nat) (r : Rec) : (State.enterJob s q r).clk = s.clk := by
  unfold State.enterJob
  (repeat' split) <;> simp
@[simp] theorem State.pushHeld_clk (s : State) (q : Nat) (r : Rec) : (State.pushHeld s q r).clk = s.clk := by
  simp [State.pushHeld]
@[simp] theorem quePushRelease_clk (q : Nat) (s : State) : (quePushRelease q s).clk = s.clk := by
  unfold quePushRelease
  (repeat' split) <;> simp
@[simp] theorem State.guardEntries_clk (s : State) : (State.guardEntries s).clk = s.clk := by
  simp [State.guardEntries]
@[simp] theorem State.cancelJob_clk (s : State) (tag : Nat) : (State.cancelJob s tag).clk = s.clk := by
  unfold State.cancelJob
  (repeat' split) <;> simp
@[simp] theorem State.cutEngine_clk (s : State) (e : Nat) : (State.cutEngine s e).clk = s.clk := by
  unfold State.cutEngine
  (repeat' split) <;> simp
@[simp] theorem State.letGo_clk (s : State) (q : Nat) : (State.letGo s q).clk = s.clk := by
  unfold State.letGo
  repeat' first | rfl | dsimp only | (simp; done) | (rename_i heq; have hk := congrArg (fun p => p.2.clk) heq; simp at hk; simp [← hk]; done) | (refine (forAll_clk _ _ _ fun _ _ _ => ?_).trans ?_) | (refine (onlyIf_clk _ _ _ ?_).trans ?_) | (refine (foldl_clk _ _ _ fun _ _ _ => ?_).trans ?_) | split
@[simp] theorem State.dropJobs_clk (s : State) (q : Nat) : (State.dropJobs s q).clk = s.clk := by
  simp [State.dropJobs]
@[simp] theorem deadline_clk (s : State) : (deadline s).clk = s.clk := by
  simp [deadline]
@[simp] theorem State.jikNewStroke_clk (s : State) : (State.jikNewStroke s).clk = s.clk := by
  simp [State.jikNewStroke]
@[simp] theorem State.stopEngine_clk (s : State) (e : Nat) : (State.stopEngine s e).clk = s.clk := by
  simp [State.stopEngine]
@[simp] theorem State.stopEngines_clk (s : State) : (State.stopEngines s).clk = s.clk := by
  simp [State.stopEngines]
@[simp] theorem State.onFld_clk (s : State) (g : FldSt → FldSt) : (State.onFld s g).clk = s.clk := by
  simp [State.onFld]
@[simp] theorem State.setUnit_clk (s : State) (u : Nat) (x : UnitSt) : (State.setUnit s u x).clk = s.clk := by
  simp [State.setUnit]
@[simp] theorem State.setLedger_clk (s : State) (k : Nat) (l : Ledger) : (State.setLedger s k l).clk = s.clk := by
  simp [State.setLedger]
@[simp] theorem State.ledgerShows_clk (s : State) (u : Nat) (k : Nat) : (State.ledgerShows s u k).clk = s.clk := by
  simp [State.ledgerShows]
@[simp] theorem State.writeBack_clk (s : State) (u : Nat) : (State.writeBack s u).clk = s.clk := by
  unfold State.writeBack
  (repeat' split) <;> simp
@[simp] theorem State.dropLedger_clk (s : State) (u : Nat) : (State.dropLedger s u).clk = s.clk := by
  unfold State.dropLedger
  (repeat' split) <;> simp
@[simp] theorem State.keyLedger_clk (s : State) (u : Nat) (rec_ : List Byte) : (State.keyLedger s u rec_).clk = s.clk := by
  simp [State.keyLedger]
@[simp] theorem State.keyUnits_clk (s : State) : (State.keyUnits s).clk = s.clk := by
  simp [State.keyUnits]
@[simp] theorem State.onQuay_clk (s : State) (g : QuaySt → QuaySt) : (State.onQuay s g).clk = s.clk := by
  simp [State.onQuay]
@[simp] theorem State.showHeldBack_clk (s : State) : (State.showHeldBack s).clk = s.clk := by
  simp [State.showHeldBack]
@[simp] theorem State.masterReset_clk (s : State) (m : Nat) : (State.masterReset s m).clk = s.clk := by
  simp [State.masterReset]
@[simp] theorem State.linkLost_clk (s : State) : (State.linkLost s).clk = s.clk := by
  simp [State.linkLost]
@[simp] theorem State.stopDomains_clk (s : State) (i : Nat) (limit : Bool) : (State.stopDomains s i limit).clk = s.clk := by
  simp [State.stopDomains]
@[simp] theorem State.onLoader_clk (s : State) (g : LoaderSt → LoaderSt) (h : ∀ l, (g l).otpHash = l.otpHash) (h2 : ∀ l, (g l).otpTest = l.otpTest) :
    (s.onLoader g).clk = s.clk := by simp [State.clk, State.onLoader, h, h2]
@[simp] theorem State.setLoad_clk (s : State) (st : Nat) : (State.setLoad s st).clk = s.clk := by
  simp [State.setLoad]
@[simp] theorem State.clearRegs_clk (s : State) (a : Nat) (b : Nat) : (State.clearRegs s a b).clk = s.clk := by
  simp [State.clearRegs]
@[simp] theorem State.portOff_clk (s : State) (p : Nat) : (State.portOff s p).clk = s.clk := by
  simp [State.portOff]
@[simp] theorem State.synOff_clk (s : State) (i : Nat) : (State.synOff s i).clk = s.clk := by
  simp [State.synOff]
@[simp] theorem State.bandsPlaced_clk (s : State) : (State.bandsPlaced s).clk = s.clk := by
  simp [State.bandsPlaced]
@[simp] theorem State.undoWord_clk (s : State) (a : Nat) : (State.undoWord s a).clk = s.clk := by
  simp [State.undoWord]
@[simp] theorem State.refsUndone_clk (s : State) (drop : List (Nat × Nat × Word)) : (State.refsUndone s drop).clk = s.clk := by
  simp [State.refsUndone]
@[simp] theorem State.storeWord_clk (s : State) (a : Nat) (w : Word) : (State.storeWord s a w).clk = s.clk := by
  unfold State.storeWord
  (repeat' split) <;> simp
@[simp] theorem State.placeWord_clk (s : State) (typ : Nat) (a : Nat) (w : Word) : (State.placeWord s typ a w).clk = s.clk := by
  simp [State.placeWord]
@[simp] theorem State.fills_clk (s : State) (typ : Nat) (store : Bool) (a : Nat) (n : Nat) : (State.fills s typ store a n).clk = s.clk := by
  simp [State.fills]
@[simp] theorem State.placeKernel_clk (s : State) (typ : Nat) (k : KernelImage) : (s.placeKernel typ k).clk = s.clk :=
  forAll_clk _ _ _ fun e _ t => by simp [State.onEng, State.fills, State.clk]
@[simp] theorem State.placePreload_clk (s : State) (typ q : Nat) (lines : List (List Lane)) : (s.placePreload typ q lines).clk = s.clk := by
  unfold State.placePreload
  dsimp only
  rw [State.showSlip_clk]
  exact (forAll_clk _ _ _ fun e _ t => State.placeWords_clk ..).trans (by simp)
@[simp] theorem State.placePort_clk (s : State) (typ : Nat) (p : PortPlan) : (State.placePort s typ p).clk = s.clk := by
  simp [State.placePort]
@[simp] theorem State.placeContent_clk (s : State) (typ : Nat) (c : SegContent) : (s.placeContent typ c).clk = s.clk := by
  unfold State.placeContent
  extract_lets s1 s2 x1 s3 s4 x2 s5 s6 s7 s8 s9
  have h2 : s2.clk = s.clk := by simp [s2, s1]
  have h5 : s5.clk = s.clk := by rw [← h2]; rfl
  have h6 : s6.clk = s.clk := (forAll_clk _ _ _ fun _ _ t => State.placeKernel_clk ..).trans h5
  have h7 : s7.clk = s.clk := (forAll_clk _ _ _ fun _ _ t => State.placePreload_clk ..).trans h6
  clear_value s7
  have h9 : s9.clk = s.clk := by simpa [s9, s8] using h7
  clear_value s9
  split
  · simpa using h9
  · exact h9
@[simp] theorem State.startClocks_clk (s : State) : (State.startClocks s).clk = s.clk := by
  simp [State.startClocks]
@[simp] theorem State.firstLightDerived_clk (s : State) : (State.firstLightDerived s).clk = s.clk := by
  simp [State.firstLightDerived]
@[simp] theorem State.takeRate_clk (s : State) (r : Option (Nat × Nat)) : (s.takeRate r).clk = s.clk := by
  unfold State.takeRate; split <;> rfl
@[simp] theorem State.retarget_clk (s : State) (i : Nat) : (State.retarget s i).clk = s.clk := by
  simp [State.retarget]
@[simp] theorem State.undoFirstLight_clk (s : State) : (State.undoFirstLight s).clk = s.clk := by
  simp [State.undoFirstLight]
@[simp] theorem State.restartMoved_clk (s was : State) : (s.restartMoved was).clk = s.clk := by
  unfold State.restartMoved
  dsimp only
  rw [forAll_clk _ _ _ fun _ _ _ => State.retarget_clk ..]
  exact forAll_clk _ _ _ fun _ _ _ => by simp
@[simp] theorem State.applyGolden_clk (s : State) (c : SegContent) : (s.applyGolden c).clk = s.clk := by
  simp [State.applyGolden]
@[simp] theorem State.enterRunning_clk (s : State) : (State.enterRunning s).clk = s.clk := by
  unfold State.enterRunning
  (repeat' split) <;> simp
@[simp] theorem State.roleChanged_clk (s : State) (p : Nat) (w : Word) : (State.roleChanged s p w).clk = s.clk := by
  simp [State.roleChanged]
@[simp] theorem State.applyPatch_clk (s : State) (p : Patch) : (State.applyPatch s p).clk = s.clk := by
  simp [State.applyPatch]
@[simp] theorem State.putManifest_clk (s : State) (bs : List Byte) (guard : Nat) (mtags : Nat) : (State.putManifest s bs guard mtags).clk = s.clk := by
  simp [State.putManifest]
@[simp] theorem State.amdRefuse_clk (s : State) (code : Nat) : (State.amdRefuse s code).clk = s.clk := by
  simp [State.amdRefuse]
@[simp] theorem State.amdApply_clk (s : State) : (State.amdApply s).clk = s.clk := by
  unfold State.amdApply
  (repeat' split) <;> simp
@[simp] theorem State.pushLine_clk (s : State) (q : Nat) (r : Rec) : (State.pushLine s q r).clk = s.clk := by
  simp [State.pushLine]
@[simp] theorem State.offerWords_clk (s : State) (q stream line : Nat) (first last eof : Bool) (at_ : Option Nat) (ws : List Lane) :
    (s.offerWords q stream line first last eof at_ ws).clk = s.clk := by
  have hf : (s.fresh 25).2.clk = s.clk := State.fresh_clk s 25
  unfold State.offerWords
  generalize s.fresh 25 = r at hf ⊢
  obtain ⟨v, t⟩ := r
  dsimp only at hf ⊢
  cases at_ with
  | some a => simp
  | none =>
    dsimp only
    rw [State.pushLine_clk]
    split <;> exact hf
@[simp] theorem State.strayPins_clk (s : State) : (State.strayPins s).clk = s.clk := by
  simp [State.strayPins]
@[simp] theorem State.crewFrame_clk (s : State) (e : Nat) (k : Nat) (p : Pick) : (State.crewFrame s e k p).clk = s.clk := by
  simp [State.crewFrame]
@[simp] theorem State.crewInput_clk (s : State) (e : Nat) (k : Nat) : (State.crewInput s e k).clk = s.clk := by
  unfold State.crewInput
  repeat' first | rfl | dsimp only | (simp; done) | (rename_i heq; have hk := congrArg (fun p => p.2.clk) heq; simp at hk; simp [← hk]; done) | (refine (forAll_clk _ _ _ fun _ _ _ => ?_).trans ?_) | (refine (onlyIf_clk _ _ _ ?_).trans ?_) | (refine (foldl_clk _ _ _ fun _ _ _ => ?_).trans ?_) | split
@[simp] theorem State.crewSelect_clk (s : State) : (State.crewSelect s).clk = s.clk := by
  unfold State.crewSelect
  repeat' first | rfl | dsimp only | (simp; done) | (rename_i heq; have hk := congrArg (fun p => p.2.clk) heq; simp at hk; simp [← hk]; done) | (refine (forAll_clk _ _ _ fun _ _ _ => ?_).trans ?_) | (refine (onlyIf_clk _ _ _ ?_).trans ?_) | (refine (foldl_clk _ _ _ fun _ _ _ => ?_).trans ?_) | split
@[simp] theorem State.counterClear_clk (s : State) : (State.counterClear s).clk = s.clk := by
  unfold State.counterClear
  repeat' first | rfl | dsimp only | (simp; done) | (refine (forAll_clk _ _ _ fun _ _ _ => ?_).trans ?_) | (refine (onlyIf_clk _ _ _ ?_).trans ?_) | split
@[simp] theorem State.slipCommitTake_clk (s : State) (k : Nat) : (State.slipCommitTake s k).clk = s.clk := by
  simp [State.slipCommitTake]
@[simp] theorem State.registerStep_clk (s : State) : (State.registerStep s).clk = s.clk := by
  simp [State.registerStep]
@[simp] theorem State.lightStep_clk (s : State) : (State.lightStep s).clk = s.clk := by
  simp [State.lightStep]
@[simp] theorem State.newStroke_clk (s : State) : (State.newStroke s).clk = s.clk := by
  simp [State.newStroke]
@[simp] theorem State.boundaryMiddle_clk (s : State) : s.boundaryMiddle.clk = s.clk := by
  simp [State.boundaryMiddle]
@[simp] theorem State.pastDeadline_clk (s : State) : (State.pastDeadline s).clk = s.clk := by
  simp [State.pastDeadline]
/-- R14: what the first steps of a boundary leave of the clock is the Cox's doing. -/
theorem State.boundaryFirst_clk (s : State) (ps : List RefPhase) :
    (s.boundaryFirst ps).clk =
      (coxBoundary ps (let t := s.takeRate s.clock.rateNext
                       let t := match t.loader.flNext with | some c => t.applyGolden c | none => t
                       (t.sendBuoys t.clock.len).corruptFills)).clk := by
  unfold State.boundaryFirst
  extract_lets s1 s2 s3 s4
  rw [State.discardStopped_clk, State.crossingsBoundary_clk, State.portsBoundary_clk, State.judgeSources_clk, State.amdApply_clk,
    State.enterRunning_clk, State.sendMarkers_clk]
  simp only [s4, State.queuesNewStroke_clk, State.slipsNewStroke_clk, State.newStroke_clk]
  rfl
/-- R14, R88: the same where `SYN_CORE` is stopped. -/
theorem State.boundaryStill_clk (s : State) (ps : List RefPhase) :
    (s.boundaryStill ps).clk =
      (coxBoundary ps (let t := s.takeRate s.clock.rateNext
                       (t.sendBuoys t.clock.len).corruptFills)).clk := by
  unfold State.boundaryStill
  extract_lets s1 s2
  rw [State.glassLimit_clk, State.portsBoundary_clk, State.flipHeads_clk, State.sendMarkers_clk, State.newStroke_clk]
/-- R14: a stroke boundary moves the clock by its first steps alone. -/
theorem strokeBoundary_clk (ps : List RefPhase) (s : State) :
    (strokeBoundary ps s).clk = if s.coreUp then (s.pastDeadline.boundaryFirst ps).clk else (s.boundaryStill ps).clk := by
  unfold strokeBoundary
  split
  · rw [State.lightStep_clk, State.guardEntries_clk, State.jikNewStroke_clk, State.boundaryMiddle_clk]
  · rfl

/-- What paces the strokes: the Cox and the clock, but for the counter of free values. -/
def State.pace (s : State) : CoxSt × Clock := (s.cox, { s.clock with free := 0 })
@[simp] theorem forAll_pace {α : Type} (l : List α) (g : α → State → State) (s : State) (h : ∀ a ∈ l, ∀ t, (g a t).pace = t.pace) : (forAll l g s).pace = s.pace := forAll_field State.pace g l h s
@[simp] theorem foldl_pace {α : Type} (l : List α) (g : State → α → State) (s : State) (h : ∀ a ∈ l, ∀ t, (g t a).pace = t.pace) : (l.foldl g s).pace = s.pace := forAll_field State.pace (fun a t => g t a) l h s
@[simp] theorem ite_pace (c : Prop) [Decidable c] (a b : State) : (if c then a else b).pace = if c then a.pace else b.pace := by split <;> rfl
@[simp] theorem pace_with_regs (s : State) x : ({ s with regs := x } : State).pace = s.pace := rfl
@[simp] theorem pace_with_shadow (s : State) x : ({ s with shadow := x } : State).pace = s.pace := rfl
@[simp] theorem pace_with_syn (s : State) x : ({ s with syn := x } : State).pace = s.pace := rfl
@[simp] theorem pace_with_prt (s : State) x : ({ s with prt := x } : State).pace = s.pace := rfl
@[simp] theorem pace_with_xtb (s : State) x : ({ s with xtb := x } : State).pace = s.pace := rfl
@[simp] theorem pace_with_que (s : State) x : ({ s with que := x } : State).pace = s.pace := rfl
@[simp] theorem pace_with_slips (s : State) x : ({ s with slips := x } : State).pace = s.pace := rfl
@[simp] theorem pace_with_jik (s : State) x : ({ s with jik := x } : State).pace = s.pace := rfl
@[simp] theorem pace_with_hed (s : State) x : ({ s with hed := x } : State).pace = s.pace := rfl
@[simp] theorem pace_with_egr (s : State) x : ({ s with egr := x } : State).pace = s.pace := rfl
@[simp] theorem pace_with_aud (s : State) x : ({ s with aud := x } : State).pace = s.pace := rfl
@[simp] theorem pace_with_lgt (s : State) x : ({ s with lgt := x } : State).pace = s.pace := rfl
@[simp] theorem pace_with_fld (s : State) x : ({ s with fld := x } : State).pace = s.pace := rfl
@[simp] theorem pace_with_keep (s : State) x : ({ s with keep := x } : State).pace = s.pace := rfl
@[simp] theorem pace_with_nvs (s : State) x : ({ s with nvs := x } : State).pace = s.pace := rfl
@[simp] theorem pace_with_thm (s : State) x : ({ s with thm := x } : State).pace = s.pace := rfl
@[simp] theorem pace_with_pwr (s : State) x : ({ s with pwr := x } : State).pace = s.pace := rfl
@[simp] theorem pace_with_quay (s : State) x : ({ s with quay := x } : State).pace = s.pace := rfl
@[simp] theorem pace_with_evt (s : State) x : ({ s with evt := x } : State).pace = s.pace := rfl
@[simp] theorem pace_with_out (s : State) x : ({ s with out := x } : State).pace = s.pace := rfl
@[simp] theorem pace_with_pins (s : State) x : ({ s with pins := x } : State).pace = s.pace := rfl
@[simp] theorem pace_with_fresh (s : State) (n : Nat) : ({ s with clock := { s.clock with free := n } } : State).pace = s.pace := rfl
@[simp] theorem pace_with_keep_nvs (s : State) x y : ({ s with keep := x, nvs := y } : State).pace = s.pace := rfl

@[simp] theorem pace_with_any (s : State) (a1 a2 a4 a5 a7 a8 a9 a10 a11 a12 a13 a14 a15 a16 a17 a18 a19 a20 a21 a22 a23 a24 a25 a26 a27 a28 a29 a30) :
    ({ s with regs := a1, shadow := a2, pins := a4, loader := a5, syn := a7, prt := a8, xtb := a9, que := a10, slips := a11, jik := a12,
              hed := a13, egr := a14, aud := a15, lgt := a16, fld := a17, keep := a18, nvs := a19, thm := a20, pwr := a21, quay := a22,
              evt := a23, out := a24, fstore := a25, work := a26, nvsMem := a27, cflash := a28, hostMem := a29, pending := a30 } : State).pace = s.pace := rfl
@[simp] theorem onClock_pace (s : State) (g : Clock → Clock) (h : { g s.clock with free := 0 } = { s.clock with free := 0 }) : (s.onClock g).pace = s.pace := by
  simp [State.pace, State.onClock, h]
@[simp] theorem State.wr_pace (s : State) (a : Nat) (v : Word) : (State.wr s a v).pace = s.pace := by
  simp [State.wr]
@[simp] theorem State.setF_pace (s : State) (a : Nat) (hi : Nat) (lo : Nat) (v : Nat) : (State.setF s a hi lo v).pace = s.pace := by
  simp [State.setF]
@[simp] theorem State.setB_pace (s : State) (a : Nat) (i : Nat) (v : Bool) : (State.setB s a i v).pace = s.pace := by
  simp [State.setB]
@[simp] theorem State.fresh_pace (s : State) (w : Nat) : (State.fresh s w).2.pace = s.pace := by
  simp [State.fresh]
@[simp] theorem onlyIf_pace (c : Bool) (g : State → State) (s : State) (h : (g s).pace = s.pace) : (onlyIf c g s).pace = s.pace := by
  cases c <;> simp [onlyIf, h]
@[simp] theorem State.setRing_pace (s : State) (r : Nat) (x : RingSt) : (State.setRing s r x).pace = s.pace := by
  simp [State.setRing]
@[simp] theorem State.satQuiet_pace (s : State) (a : Nat) (n : Nat) (k : Nat) : (State.satQuiet s a n k).pace = s.pace := by
  simp [State.satQuiet]
@[simp] theorem State.noteTail_pace (s : State) (k : Nat) : (State.noteTail s k).pace = s.pace := by
  simp [State.noteTail]
@[simp] theorem State.deliverQuiet_pace (s : State) (r : Nat) (x : Rec) : (State.deliverQuiet s r x).pace = s.pace := by
  simp [State.deliverQuiet]
@[simp] theorem State.dropSat_pace (s : State) (old : State) (a : Nat) : (State.dropSat s old a).pace = s.pace := by
  unfold State.dropSat
  (repeat' split) <;> simp
@[simp] theorem State.deliver_pace (s : State) (r : Nat) (x : Rec) : (State.deliver s r x).pace = s.pace := by
  simp [State.deliver]
@[simp] theorem State.raiseRaw_pace (s : State) (src : Nat) (code : Nat) (inst : Nat) (line : Nat) (data : Nat) : (State.raiseRaw s src code inst line data).pace = s.pace := by
  unfold State.raiseRaw
  (repeat' split) <;> simp
@[simp] theorem State.raise_pace (s : State) (e : Ev) (inst : Nat) (data : Nat) : (State.raise s e inst data).pace = s.pace := by
  simp [State.raise]
@[simp] theorem State.raiseFree_pace (s : State) (e : Ev) (inst : Nat) : (State.raiseFree s e inst).pace = s.pace := by
  simp [State.raiseFree]
@[simp] theorem State.countErr_pace (s : State) (a : Nat) (n : Nat) (k : Nat) : (State.countErr s a n k).pace = s.pace := by
  simp [State.countErr]
@[simp] theorem State.countPerf_pace (s : State) (a : Nat) (n : Nat) (k : Nat) : (State.countPerf s a n k).pace = s.pace := by
  simp [State.countPerf]
@[simp] theorem State.send_pace (s : State) (o : Out) : (State.send s o).pace = s.pace := by
  simp [State.send]
@[simp] theorem State.onPins_pace (s : State) (g : Pins → Pins) : (State.onPins s g).pace = s.pace := by
  simp [State.onPins]
@[simp] theorem State.onPort_pace (s : State) (p : Nat) (g : PortSt → PortSt) : (State.onPort s p g).pace = s.pace := by
  simp [State.onPort]
@[simp] theorem State.sendLane_pace (s : State) (p : Nat) (syms : List Sym) (masks : List (BitVec 10)) : (State.sendLane s p syms masks).pace = s.pace := by
  simp [State.sendLane]
@[simp] theorem State.sendFrame_pace (s : State) (l : Nat) (o : Out) (syms : List Sym) (masks : List (BitVec 10)) : (State.sendFrame s l o syms masks).pace = s.pace := by
  simp [State.sendFrame]
@[simp] theorem State.fillWith_pace (s : State) (l : Nat) (c : Sym) : (State.fillWith s l c).pace = s.pace := by
  simp [State.fillWith]
@[simp] theorem State.coxNote_pace (s : State) (i : Nat) (e : Ev) : (State.coxNote s i e).pace = s.pace := by
  simp [State.coxNote]
@[simp] theorem State.onNvs_pace (s : State) (g : NvsSt → NvsSt) : (State.onNvs s g).pace = s.pace := by
  simp [State.onNvs]
@[simp] theorem State.nvRead_pace (s : State) : (State.nvRead s).pace = s.pace := by
  simp [State.nvRead]
@[simp] theorem State.noteTorn_pace (s : State) (v : SlotView) (a : Nat) : (State.noteTorn s v a).pace = s.pace := by
  simp [State.noteTorn]
@[simp] theorem State.readRecord_pace (s : State) (a : Nat) (b : Nat) (pages : Nat) (dev : Option Nat) (who : Nat) : (State.readRecord s a b pages dev who).1.pace = s.pace := by
  unfold State.readRecord
  dsimp only
  (repeat' split) <;> simp
@[simp] theorem State.beginJob_pace (s : State) (j : NvsJob) : (State.beginJob s j).pace = s.pace := by
  unfold State.beginJob
  dsimp only
  (repeat' split) <;> simp
@[simp] theorem State.startJob_pace (s : State) (j : NvsJob) : (State.startJob s j).pace = s.pace := by
  unfold State.startJob
  (repeat' split) <;> simp
@[simp] theorem State.setPg_pace (s : State) (g : List Nat → List Nat) : (State.setPg s g).pace = s.pace := by
  simp [State.setPg]
@[simp] theorem State.writeKeep_pace (s : State) (k : KeepRam) : (State.writeKeep s k).pace = s.pace := by
  simp [State.writeKeep]
@[simp] theorem State.nvsEnd_pace (s : State) (code : Nat) (extra : Nat) : (State.nvsEnd s code extra).pace = s.pace := by
  simp [State.nvsEnd]
@[simp] theorem State.jobEnd_pace (s : State) (j : NvsJob) : (State.jobEnd s j).pace = s.pace := by
  unfold State.jobEnd
  (repeat' split) <;> simp
@[simp] theorem State.cutJob_pace (s : State) (kind : NvsJobKind → NvsJobKind) : (State.cutJob s kind).pace = s.pace := by
  simp [State.cutJob]
@[simp] theorem State.nvsMatrixReset_pace (s : State) : (State.nvsMatrixReset s).pace = s.pace := by
  unfold State.nvsMatrixReset
  (repeat' split) <;> simp
@[simp] theorem State.abortHost_pace (s : State) : (State.abortHost s).pace = s.pace := by
  simp [State.abortHost]
@[simp] theorem State.signalPowerDown_pace (s : State) (src : Nat) : (State.signalPowerDown s src).pace = s.pace := by
  simp [State.signalPowerDown]
@[simp] theorem State.resetRegs_pace (s : State) (warm : Bool) : (State.resetRegs s warm).pace = s.pace := by
  simp [State.resetRegs]
@[simp] theorem State.wipe_pace (s : State) (p : Nat → Bool) : (State.wipe s p).pace = s.pace := by
  simp [State.wipe]
@[simp] theorem State.onPwr_pace (s : State) (g : PwrSt → PwrSt) : (State.onPwr s g).pace = s.pace := by
  simp [State.onPwr]
@[simp] theorem State.addCause_pace (s : State) (i : Nat) : (State.addCause s i).pace = s.pace := by
  simp [State.addCause]
@[simp] theorem State.holdHist_pace (s : State) (i : Nat) : (State.holdHist s i).pace = s.pace := by
  simp [State.holdHist]
@[simp] theorem State.powerUp_pace (s : State) (cause : Nat) : (State.powerUp s cause).pace = s.pace := by
  simp [State.powerUp]
@[simp] theorem State.countRestart_pace (s : State) : (State.countRestart s).pace = s.pace := by
  unfold State.countRestart
  repeat' first | rfl | dsimp only | (simp; done) | (rename_i heq; have hk := congrArg (fun p => p.2.pace) heq; simp at hk; simp [← hk]; done) | (refine (forAll_pace _ _ _ fun _ _ _ => ?_).trans ?_) | (refine (onlyIf_pace _ _ _ ?_).trans ?_) | (refine (foldl_pace _ _ _ fun _ _ _ => ?_).trans ?_) | split
@[simp] theorem State.wakeUp_pace (s : State) : (State.wakeUp s).pace = s.pace := by
  simp [State.wakeUp]
@[simp] theorem State.lightsOff_pace (s : State) : (State.lightsOff s).pace = s.pace := by
  simp [State.lightsOff]
@[simp] theorem State.dropAll_pace (s : State) (why : OffWhy) : (State.dropAll s why).pace = s.pace := by
  simp [State.dropAll]
@[simp] theorem State.wakeSeen_pace (s : State) : (State.wakeSeen s).pace = s.pace := by
  simp [State.wakeSeen]
@[simp] theorem State.endLockout_pace (s : State) : (State.endLockout s).pace = s.pace := by
  simp [State.endLockout]
@[simp] theorem State.wakeActive_pace (s : State) : (State.wakeActive s).pace = s.pace := by
  unfold State.wakeActive
  dsimp only
  (repeat' split) <;> simp
@[simp] theorem State.wakeInactive_pace (s : State) : (State.wakeInactive s).pace = s.pace := by
  unfold State.wakeInactive
  dsimp only
  (repeat' split) <;> simp
@[simp] theorem State.injected_pace (s : State) (p : Nat) (n : Nat) : (State.injected s p n).pace = s.pace := by
  simp [State.injected]
@[simp] theorem State.writeBackFailed_pace (s : State) (u : Nat) : (State.writeBackFailed s u).pace = s.pace := by
  simp [State.writeBackFailed]
@[simp] theorem State.xactResult_pace (s : State) (p : Nat) (use : XactUse) (code : Nat) (data : List Byte) : (State.xactResult s p use code data).pace = s.pace := by
  unfold State.xactResult
  (repeat' split) <;> simp
@[simp] theorem State.xactFail_pace (s : State) (p : Nat) (code : Nat) (x : Xact) : (State.xactFail s p code x).pace = s.pace := by
  simp [State.xactFail]
@[simp] theorem State.linkDown_pace (s : State) (p : Nat) : (State.linkDown s p).pace = s.pace := by
  simp [State.linkDown]
@[simp] theorem State.setLadder_pace (s : State) (l : Nat) (rung : Nat) : (State.setLadder s l rung).pace = s.pace := by
  simp [State.setLadder]
@[simp] theorem State.setRate_pace (s : State) (l : Nat) (r : Nat) : (State.setRate s l r).pace = s.pace := by
  simp [State.setRate]
@[simp] theorem State.showGood_pace (s : State) (l : Nat) : (State.showGood s l).pace = s.pace := by
  simp [State.showGood]
@[simp] theorem State.onLanes_pace (s : State) (l : Nat) (g : PortSt → PortSt) : (State.onLanes s l g).pace = s.pace := by
  simp [State.onLanes]
@[simp] theorem State.onSlip_pace (s : State) (k : Nat) (g : SlipSt → SlipSt) : (State.onSlip s k g).pace = s.pace := by
  simp [State.onSlip]
@[simp] theorem State.onSlot_pace (s : State) (k : Nat) (j : Nat) (g : SlotSt → SlotSt) : (State.onSlot s k j g).pace = s.pace := by
  simp [State.onSlot]
@[simp] theorem State.showSlip_pace (s : State) (k : Nat) : (State.showSlip s k).pace = s.pace := by
  unfold State.showSlip
  (repeat' split) <;> simp
@[simp] theorem State.completeFrame_pace (s : State) (k : Nat) (j : Nat) : (State.completeFrame s k j).pace = s.pace := by
  simp [State.completeFrame]
@[simp] theorem State.unpin_pace (s : State) (k : Nat) (r : Nat) : (State.unpin s k r).pace = s.pace := by
  simp [State.unpin]
@[simp] theorem State.onQueue_pace (s : State) (q : Nat) (g : QueSt → QueSt) : (State.onQueue s q g).pace = s.pace := by
  simp [State.onQueue]
@[simp] theorem State.append_pace (s : State) (q : Nat) (d : Rec) : (State.append s q d).pace = s.pace := by
  simp [State.append]
@[simp] theorem State.dropDesc_pace (s : State) (q : Nat) : (State.dropDesc s q).pace = s.pace := by
  simp [State.dropDesc]
@[simp] theorem State.pushFree_pace (s : State) (q : Nat) (d : Rec) : (State.pushFree s q d).pace = s.pace := by
  simp [State.pushFree]
@[simp] theorem State.onEng_pace (s : State) (e : Nat) (g : EngSt → EngSt) : (State.onEng s e g).pace = s.pace := by
  simp [State.onEng]
@[simp] theorem State.onCrew_pace (s : State) (c : Nat) (g : CrwSt → CrwSt) : (State.onCrew s c g).pace = s.pace := by
  simp [State.onCrew]
@[simp] theorem State.onJik_pace (s : State) (g : JikSt → JikSt) : (State.onJik s g).pace = s.pace := by
  simp [State.onJik]
@[simp] theorem State.releaseCrew_pace (s : State) (c : Nat) : (State.releaseCrew s c).pace = s.pace := by
  simp [State.releaseCrew]
@[simp] theorem State.hold_pace (s : State) (q : Nat) (r : Rec) (origin : PushFrom) : (State.hold s q r origin).pace = s.pace := by
  simp [State.hold]
@[simp] theorem State.pushOr_pace (s : State) (q : Nat) (r : Rec) (origin : PushFrom) : (State.pushOr s q r origin).pace = s.pace := by
  simp [State.pushOr]
@[simp] theorem State.pushDone_pace (s : State) (q : Nat) (r : Rec) : (State.pushDone s q r).pace = s.pace := by
  simp [State.pushDone]
@[simp] theorem State.jobOver_pace (s : State) (x : Flight) (status : Nat) : (State.jobOver s x status).pace = s.pace := by
  unfold State.jobOver
  (repeat' split) <;> simp
@[simp] theorem State.freeTag_pace (s : State) (tag : Nat) : (State.freeTag s tag).pace = s.pace := by
  simp [State.freeTag]
@[simp] theorem State.jobDone_pace (s : State) (tag : Nat) (status : Nat) (result : Nat) : (State.jobDone s tag status result).pace = s.pace := by
  unfold State.jobDone
  (repeat' split) <;> simp
@[simp] theorem State.showCrew_pace (s : State) (c : Nat) : (State.showCrew s c).pace = s.pace := by
  simp [State.showCrew]
@[simp] theorem State.countBusy_pace (s : State) (e : Nat) : (State.countBusy s e).pace = s.pace := by
  simp [State.countBusy]
@[simp] theorem State.freeEngine_pace (s : State) (e : Nat) : (State.freeEngine s e).pace = s.pace := by
  simp [State.freeEngine]
@[simp] theorem State.vacate_pace (s : State) (isCrew : Bool) (n : Nat) : (State.vacate s isCrew n).pace = s.pace := by
  simp [State.vacate]
@[simp] theorem State.cancelJob_pace (s : State) (tag : Nat) : (State.cancelJob s tag).pace = s.pace := by
  unfold State.cancelJob
  (repeat' split) <;> simp
@[simp] theorem State.cutEngine_pace (s : State) (e : Nat) : (State.cutEngine s e).pace = s.pace := by
  unfold State.cutEngine
  (repeat' split) <;> simp
@[simp] theorem State.letGo_pace (s : State) (q : Nat) : (State.letGo s q).pace = s.pace := by
  unfold State.letGo
  repeat' first | rfl | dsimp only | (simp; done) | (rename_i heq; have hk := congrArg (fun p => p.2.pace) heq; simp at hk; simp [← hk]; done) | (refine (forAll_pace _ _ _ fun _ _ _ => ?_).trans ?_) | (refine (onlyIf_pace _ _ _ ?_).trans ?_) | (refine (foldl_pace _ _ _ fun _ _ _ => ?_).trans ?_) | split
@[simp] theorem State.dropJobs_pace (s : State) (q : Nat) : (State.dropJobs s q).pace = s.pace := by
  simp [State.dropJobs]
@[simp] theorem deadline_pace (s : State) : (deadline s).pace = s.pace := by
  simp [deadline]
@[simp] theorem State.onFld_pace (s : State) (g : FldSt → FldSt) : (State.onFld s g).pace = s.pace := by
  simp [State.onFld]
@[simp] theorem State.setLedger_pace (s : State) (k : Nat) (l : Ledger) : (State.setLedger s k l).pace = s.pace := by
  simp [State.setLedger]
@[simp] theorem State.onLoader_pace (s : State) (g : LoaderSt → LoaderSt) : (State.onLoader s g).pace = s.pace := by
  simp [State.onLoader]
@[simp] theorem State.fills_pace (s : State) (typ : Nat) (store : Bool) (a : Nat) (n : Nat) : (State.fills s typ store a n).pace = s.pace := by
  simp [State.fills]
@[simp] theorem State.pastDeadline_pace (s : State) : s.pastDeadline.pace = s.pace := by
  simp [State.pastDeadline]

end Sys2Proof.Machine
end

