-- ==== Sys2Proof/Laws/Engines.lean ====
section
/-! SUPPORT. What the shared operations of the engine instructions do: an instruction that issues, and what a write of one engine
register, or a store, followed by the step to the next instruction, leaves in the state. -/

namespace Sys2Proof.Machine

theorem State.eng_onEng_self (s : State) (e : Nat) (g : EngSt → EngSt) : (s.onEng e g).eng e = g (s.eng e) := by
  simp only [State.eng, State.onEng, nget_nset_self]

theorem State.eng_onEng_ne (s : State) {k e : Nat} (g : EngSt → EngSt) (h : k ≠ e) : (s.onEng e g).eng k = s.eng k := by
  simp only [State.eng, State.onEng, nget_nset_ne _ _ _ h]

theorem State.eng_goTo_self (s : State) (e pc : Nat) :
    (s.goTo e pc).eng e = (s.eng e).moved (loopNext pc (s.eng e).loops).1 (loopNext pc (s.eng e).loops).2 := by
  unfold State.goTo
  rw [State.eng_onEng_self]

theorem State.eng_goTo_ne (s : State) {k e : Nat} (pc : Nat) (h : k ≠ e) : (s.goTo e pc).eng k = s.eng k := by
  unfold State.goTo
  rw [State.eng_onEng_ne _ _ h]

theorem State.eng_advance_self (s : State) (e : Nat) : (s.advance e).eng e = (s.eng e).onwards := by
  unfold State.advance
  rw [State.eng_goTo_self]
  rfl

theorem State.eng_advance_ne (s : State) {k e : Nat} (h : k ≠ e) : (s.advance e).eng k = s.eng k := State.eng_goTo_ne s _ h

/-- A change of one engine, then the step to the next instruction, changes that engine only. -/
theorem engineOnly_advance (s : State) (e : Nat) (g : EngSt → EngSt) : engineOnly e (g (s.eng e)).onwards s ((s.onEng e g).advance e) := by
  refine ⟨?_, fun k h => ?_, rfl⟩
  · rw [State.eng_advance_self, State.eng_onEng_self]
  · rw [State.eng_advance_ne _ h, State.eng_onEng_ne _ _ h]

/-- A change of one engine changes that engine only. -/
theorem engineOnly_onEng (s : State) (e : Nat) (g : EngSt → EngSt) : engineOnly e (g (s.eng e)) s (s.onEng e g) :=
  ⟨State.eng_onEng_self s e g, fun _ h => State.eng_onEng_ne s g h, rfl⟩

/-- An instruction that issues, and whose encoding and place are right, has its effect (R219, R245). -/
theorem issue_ok {s : State} {e : Nat} {op : EngOp} {f : EngFields} (g : State → State) (h : s.issues e op f) : s.issue e op f g = g s := by
  obtain ⟨-, hc, hl, hp⟩ := h
  simp only [State.issue, hc, hl, decide_eq_true hp, Bool.and_self, if_true]

/-- One with an undefined encoding, or from at or above `CODE_TOP`, faults with code 1 (R225, R245). -/
theorem issue_bad {s : State} {e : Nat} {op : EngOp} {f : EngFields} (g : State → State) (hc : s.canIssue e = true)
    (h : op.legal f = false ∨ s.codeTop e ≤ (s.eng e).pc) : s.issue e op f g = s.engFaultAt e 1 := by
  have : (op.legal f && decide ((s.eng e).pc < s.codeTop e)) = false := by
    rcases h with h | h
    · rw [h]; rfl
    · rw [decide_eq_false (by omega), Bool.and_false]
  simp only [State.issue, hc, this, if_true]
  rfl

/-- An engine that holds no job, has stopped or waits issues nothing (R243, R244). -/
theorem issue_none {s : State} {e : Nat} (op : EngOp) (f : EngFields) (g : State → State) (hc : s.canIssue e = false) : s.issue e op f g = s := by
  simp only [State.issue, hc]
  rfl

theorem simple_ok {s : State} {e : Nat} {op : EngOp} {f : EngFields} (g : State → State) (h : s.issues e op f) :
    s.simple e op f g = (g s).advance e := by rw [State.simple, issue_ok _ h]

/-- A memory access inside local memory has its effect (R252). -/
theorem memory_ok {s : State} {e : Nat} {op : EngOp} {f : EngFields} {base n : Nat} {store : Bool} (g : State → State) (h : s.issues e op f)
    (hm : s.inLocal e base n store = true) : s.memory e op f base n store g = (g s).advance e := by
  rw [State.memory, issue_ok _ h]
  simp only [hm, if_true]

/-- One that touches a byte outside, or stores below `CODE_TOP`, faults with code 2 (R252). -/
theorem memory_bad {s : State} {e : Nat} {op : EngOp} {f : EngFields} {base n : Nat} {store : Bool} (g : State → State) (h : s.issues e op f)
    (hm : s.inLocal e base n store = false) : s.memory e op f base n store g = s.engFaultAt e 2 := by
  rw [State.memory, issue_ok _ h]
  simp only [hm]
  rfl

theorem scalarOnly_setS (s : State) (e d : Nat) (v : Word) : scalarOnly e d v s ((s.setS e d v).advance e) := by
  have h := engineOnly_advance s e fun x => { x with s := nset (fun _ => (0 : Word)) x.s d v }
  have he : ((s.setS e d v).advance e).eng e = { (s.eng e).onwards with s := nset (fun _ => (0 : Word)) (s.eng e).s d v } := h.1
  refine ⟨?_, fun r hr => ?_, ?_, h.2⟩
  · simp only [State.sreg, he, nget_nset_self]
  · simp only [State.sreg, he, nget_nset_ne _ _ _ hr]
  · rw [he]

theorem accOnly_setA (s : State) (e d : Nat) (v : List Acc) : accOnly e d v s ((s.setA e d v).advance e) := by
  have h := engineOnly_advance s e fun x => { x with a := nset (fun _ => zeroA) x.a d v }
  have he : ((s.setA e d v).advance e).eng e = { (s.eng e).onwards with a := nset (fun _ => zeroA) (s.eng e).a d v } := h.1
  refine ⟨?_, fun r hr => ?_, ?_, h.2⟩
  · simp only [State.areg, he, nget_nset_self]
  · simp only [State.areg, he, nget_nset_ne _ _ _ hr]
  · rw [he]

theorem vectorOnly_setV (s : State) (e : Nat) (f : EngFields) (v : List Lane) : vectorOnly e f v s ((s.setV e f v).advance e) := by
  have h := engineOnly_advance s e fun x => { x with v := nset (fun _ => zeroV) x.v f.d.toNat (s.masked e f v) }
  have he : ((s.setV e f v).advance e).eng e = { (s.eng e).onwards with v := nset (fun _ => zeroV) (s.eng e).v f.d.toNat (s.masked e f v) } := h.1
  refine ⟨?_, fun r hr => ?_, ?_, h.2⟩
  · simp only [State.vreg, he, nget_nset_self]
  · simp only [State.vreg, he, nget_nset_ne _ _ _ hr]
  · rw [he]

/-- A store into working memory, then the step to the next instruction. -/
theorem storeOnly_work (s : State) (e : Nat) (m : NMap Byte) :
    storeOnly e s (State.advance { s with work := m } e) ∧ (State.advance { s with work := m } e).work = m := by
  refine ⟨⟨?_, fun k h => ?_, rfl⟩, rfl⟩
  · rw [State.eng_advance_self]; rfl
  · rw [State.eng_advance_ne _ h]; rfl

end Sys2Proof.Machine
end

