-- ==== Sys2Proof/Laws/Events.lean ====
section
/-! SUPPORT. What raising an event leaves as it was: everything but the event writer's state, the drop counters and, where the data word
is free, the counter of free values (R463 to R468, R484). -/

namespace Sys2Proof.Machine

/-- The registers that raising an event can write: the drop counters of the rings and of the boot buffer. -/
def dropCounter (a : Nat) : Prop := a = Reg.evtBootDrop ∨ ∃ r < 4, a = Reg.evtRingDrop r

/-- Only the event writer's state and the drop counters differ. -/
def eventsOnly (s t : State) : Prop := t = { s with regs := t.regs, evt := t.evt } ∧ ∀ a, ¬ dropCounter a → t.rd a = s.rd a

theorem eventsOnly.refl (s : State) : eventsOnly s s := ⟨rfl, fun _ _ => rfl⟩

theorem eventsOnly.trans {s t u : State} (h : eventsOnly s t) (h2 : eventsOnly t u) : eventsOnly s u := by
  obtain ⟨e1, r1⟩ := h
  obtain ⟨e2, r2⟩ := h2
  refine ⟨?_, fun a ha => (r2 a ha).trans (r1 a ha)⟩
  rw [e2, e1]

theorem eventsOnly_wr (s : State) {a : Nat} (v : Word) (h : dropCounter a) : eventsOnly s (s.wr a v) :=
  ⟨rfl, fun _ hb => s.rd_wr_ne v (fun e => hb (e ▸ h))⟩

theorem eventsOnly_setRing (s : State) (r : Nat) (x : RingSt) : eventsOnly s (s.setRing r x) := ⟨rfl, fun _ _ => rfl⟩

theorem bf_lt (w : Word) (hi lo : Nat) : bf w hi lo < 2 ^ (hi + 1 - lo) := BitVec.isLt _

theorem State.routeOf_lt (s : State) {src code r : Nat} (h : s.routeOf src code = some r) : r < 4 := by
  unfold State.routeOf at h
  split at h
  · cases h; exact bf_lt _ 1 0
  · split at h
    · cases h; exact bf_lt _ 1 0
    · cases h

theorem State.deliverQuiet_only (s : State) {r : Nat} (x : Rec) (hr : r < 4) : eventsOnly s (s.deliverQuiet r x) := by
  unfold State.deliverQuiet
  dsimp only
  split
  · split
    · exact ⟨rfl, fun _ _ => rfl⟩
    · exact (eventsOnly_setRing _ _ _).trans (eventsOnly_wr _ _ (.inr ⟨r, hr, rfl⟩))
  · split
    · exact ⟨rfl, fun _ _ => rfl⟩
    · exact eventsOnly_wr _ _ (.inl rfl)

theorem State.dropSat_only (s old : State) (a : Nat) : eventsOnly s (s.dropSat old a) := by
  unfold State.dropSat
  split
  · split
    · exact State.deliverQuiet_only _ _ (State.routeOf_lt _ ‹_›)
    · exact eventsOnly.refl _
  · exact eventsOnly.refl _

theorem State.deliver_only (s : State) {r : Nat} (x : Rec) (hr : r < 4) : eventsOnly s (s.deliver r x) :=
  ((State.deliverQuiet_only _ _ hr).trans (State.dropSat_only _ _ _)).trans (State.dropSat_only _ _ _)

theorem State.raiseRaw_only (s : State) (src code inst line data : Nat) : eventsOnly s (s.raiseRaw src code inst line data) := by
  unfold State.raiseRaw
  split
  · exact State.deliver_only _ _ (State.routeOf_lt _ ‹_›)
  · exact eventsOnly.refl _

/-- What raising an event changes. -/
theorem State.raise_only (s : State) (e : Ev) (inst data : Nat) : eventsOnly s (s.raise e inst data) := by
  unfold State.raise
  split
  · exact State.raiseRaw_only _ _ _ _ _ _
  · exact ⟨rfl, fun _ _ => rfl⟩

theorem State.raise_rd (s : State) (e : Ev) (inst data : Nat) {a : Nat} (h : ¬ dropCounter a) : (s.raise e inst data).rd a = s.rd a :=
  (s.raise_only e inst data).2 a h

theorem State.raiseFree_rd (s : State) (e : Ev) (inst : Nat) {a : Nat} (h : ¬ dropCounter a) : (s.raiseFree e inst).rd a = s.rd a :=
  ((s.fresh 32).2.raise_rd e inst _ h).trans rfl

@[simp] theorem State.raise_clock (s : State) (e : Ev) (inst data : Nat) : (s.raise e inst data).clock = s.clock :=
  (congrArg State.clock (s.raise_only e inst data).1 :)

@[simp] theorem State.raiseFree_stroke (s : State) (e : Ev) (inst : Nat) : (s.raiseFree e inst).clock.stroke = s.clock.stroke :=
  (congrArg Clock.stroke ((s.fresh 32).2.raise_clock e inst _) :)

@[simp] theorem State.raiseFree_time (s : State) (e : Ev) (inst : Nat) : (s.raiseFree e inst).clock.time = s.clock.time :=
  (congrArg Clock.time ((s.fresh 32).2.raise_clock e inst _) :)

theorem State.countErr_rd (s : State) {c : Nat} (n k : Nat) {a : Nat} (h : ¬ dropCounter a) (hc : a ≠ c) : (s.countErr c n k).rd a = s.rd a := by
  unfold State.countErr onlyIf
  dsimp only
  split
  · rw [State.raise_rd _ _ _ _ h, State.rd_wr_ne _ _ hc]
  · rw [State.rd_wr_ne _ _ hc]

/-- Where the events of a source are routed, they do not depend on what is raised: the address of a drop counter apart. -/
theorem notDrop {a : Nat} (h : a < 0x70000 ∨ 0x80000 ≤ a) : ¬ dropCounter a := by
  rintro (h' | ⟨r, hr, h'⟩) <;> simp only [Reg.evtBootDrop, Reg.evtRingDrop] at h' <;> omega

@[simp] theorem State.raise_shadow (s : State) (e : Ev) (inst data : Nat) : (s.raise e inst data).shadow = s.shadow :=
  (congrArg State.shadow (s.raise_only e inst data).1 :)
@[simp] theorem State.raiseFree_shadow (s : State) (e : Ev) (inst : Nat) : (s.raiseFree e inst).shadow = s.shadow :=
  (congrArg State.shadow ((s.fresh 32).2.raise_only e inst _).1 :)

@[simp] theorem State.raise_pins (s : State) (e : Ev) (inst data : Nat) : (s.raise e inst data).pins = s.pins :=
  (congrArg State.pins (s.raise_only e inst data).1 :)
@[simp] theorem State.raiseFree_pins (s : State) (e : Ev) (inst : Nat) : (s.raiseFree e inst).pins = s.pins :=
  (congrArg State.pins ((s.fresh 32).2.raise_only e inst _).1 :)

@[simp] theorem State.raise_loader (s : State) (e : Ev) (inst data : Nat) : (s.raise e inst data).loader = s.loader :=
  (congrArg State.loader (s.raise_only e inst data).1 :)
@[simp] theorem State.raiseFree_loader (s : State) (e : Ev) (inst : Nat) : (s.raiseFree e inst).loader = s.loader :=
  (congrArg State.loader ((s.fresh 32).2.raise_only e inst _).1 :)

@[simp] theorem State.raise_cox (s : State) (e : Ev) (inst data : Nat) : (s.raise e inst data).cox = s.cox :=
  (congrArg State.cox (s.raise_only e inst data).1 :)
@[simp] theorem State.raiseFree_cox (s : State) (e : Ev) (inst : Nat) : (s.raiseFree e inst).cox = s.cox :=
  (congrArg State.cox ((s.fresh 32).2.raise_only e inst _).1 :)

@[simp] theorem State.raise_syn (s : State) (e : Ev) (inst data : Nat) : (s.raise e inst data).syn = s.syn :=
  (congrArg State.syn (s.raise_only e inst data).1 :)
@[simp] theorem State.raiseFree_syn (s : State) (e : Ev) (inst : Nat) : (s.raiseFree e inst).syn = s.syn :=
  (congrArg State.syn ((s.fresh 32).2.raise_only e inst _).1 :)

@[simp] theorem State.raise_prt (s : State) (e : Ev) (inst data : Nat) : (s.raise e inst data).prt = s.prt :=
  (congrArg State.prt (s.raise_only e inst data).1 :)
@[simp] theorem State.raiseFree_prt (s : State) (e : Ev) (inst : Nat) : (s.raiseFree e inst).prt = s.prt :=
  (congrArg State.prt ((s.fresh 32).2.raise_only e inst _).1 :)

@[simp] theorem State.raise_xtb (s : State) (e : Ev) (inst data : Nat) : (s.raise e inst data).xtb = s.xtb :=
  (congrArg State.xtb (s.raise_only e inst data).1 :)
@[simp] theorem State.raiseFree_xtb (s : State) (e : Ev) (inst : Nat) : (s.raiseFree e inst).xtb = s.xtb :=
  (congrArg State.xtb ((s.fresh 32).2.raise_only e inst _).1 :)

@[simp] theorem State.raise_que (s : State) (e : Ev) (inst data : Nat) : (s.raise e inst data).que = s.que :=
  (congrArg State.que (s.raise_only e inst data).1 :)
@[simp] theorem State.raiseFree_que (s : State) (e : Ev) (inst : Nat) : (s.raiseFree e inst).que = s.que :=
  (congrArg State.que ((s.fresh 32).2.raise_only e inst _).1 :)

@[simp] theorem State.raise_slips (s : State) (e : Ev) (inst data : Nat) : (s.raise e inst data).slips = s.slips :=
  (congrArg State.slips (s.raise_only e inst data).1 :)
@[simp] theorem State.raiseFree_slips (s : State) (e : Ev) (inst : Nat) : (s.raiseFree e inst).slips = s.slips :=
  (congrArg State.slips ((s.fresh 32).2.raise_only e inst _).1 :)

@[simp] theorem State.raise_jik (s : State) (e : Ev) (inst data : Nat) : (s.raise e inst data).jik = s.jik :=
  (congrArg State.jik (s.raise_only e inst data).1 :)
@[simp] theorem State.raiseFree_jik (s : State) (e : Ev) (inst : Nat) : (s.raiseFree e inst).jik = s.jik :=
  (congrArg State.jik ((s.fresh 32).2.raise_only e inst _).1 :)

@[simp] theorem State.raise_hed (s : State) (e : Ev) (inst data : Nat) : (s.raise e inst data).hed = s.hed :=
  (congrArg State.hed (s.raise_only e inst data).1 :)
@[simp] theorem State.raiseFree_hed (s : State) (e : Ev) (inst : Nat) : (s.raiseFree e inst).hed = s.hed :=
  (congrArg State.hed ((s.fresh 32).2.raise_only e inst _).1 :)

@[simp] theorem State.raise_egr (s : State) (e : Ev) (inst data : Nat) : (s.raise e inst data).egr = s.egr :=
  (congrArg State.egr (s.raise_only e inst data).1 :)
@[simp] theorem State.raiseFree_egr (s : State) (e : Ev) (inst : Nat) : (s.raiseFree e inst).egr = s.egr :=
  (congrArg State.egr ((s.fresh 32).2.raise_only e inst _).1 :)

@[simp] theorem State.raise_aud (s : State) (e : Ev) (inst data : Nat) : (s.raise e inst data).aud = s.aud :=
  (congrArg State.aud (s.raise_only e inst data).1 :)
@[simp] theorem State.raiseFree_aud (s : State) (e : Ev) (inst : Nat) : (s.raiseFree e inst).aud = s.aud :=
  (congrArg State.aud ((s.fresh 32).2.raise_only e inst _).1 :)

@[simp] theorem State.raise_lgt (s : State) (e : Ev) (inst data : Nat) : (s.raise e inst data).lgt = s.lgt :=
  (congrArg State.lgt (s.raise_only e inst data).1 :)
@[simp] theorem State.raiseFree_lgt (s : State) (e : Ev) (inst : Nat) : (s.raiseFree e inst).lgt = s.lgt :=
  (congrArg State.lgt ((s.fresh 32).2.raise_only e inst _).1 :)

@[simp] theorem State.raise_fld (s : State) (e : Ev) (inst data : Nat) : (s.raise e inst data).fld = s.fld :=
  (congrArg State.fld (s.raise_only e inst data).1 :)
@[simp] theorem State.raiseFree_fld (s : State) (e : Ev) (inst : Nat) : (s.raiseFree e inst).fld = s.fld :=
  (congrArg State.fld ((s.fresh 32).2.raise_only e inst _).1 :)

@[simp] theorem State.raise_keep (s : State) (e : Ev) (inst data : Nat) : (s.raise e inst data).keep = s.keep :=
  (congrArg State.keep (s.raise_only e inst data).1 :)
@[simp] theorem State.raiseFree_keep (s : State) (e : Ev) (inst : Nat) : (s.raiseFree e inst).keep = s.keep :=
  (congrArg State.keep ((s.fresh 32).2.raise_only e inst _).1 :)

@[simp] theorem State.raise_nvs (s : State) (e : Ev) (inst data : Nat) : (s.raise e inst data).nvs = s.nvs :=
  (congrArg State.nvs (s.raise_only e inst data).1 :)
@[simp] theorem State.raiseFree_nvs (s : State) (e : Ev) (inst : Nat) : (s.raiseFree e inst).nvs = s.nvs :=
  (congrArg State.nvs ((s.fresh 32).2.raise_only e inst _).1 :)

@[simp] theorem State.raise_thm (s : State) (e : Ev) (inst data : Nat) : (s.raise e inst data).thm = s.thm :=
  (congrArg State.thm (s.raise_only e inst data).1 :)
@[simp] theorem State.raiseFree_thm (s : State) (e : Ev) (inst : Nat) : (s.raiseFree e inst).thm = s.thm :=
  (congrArg State.thm ((s.fresh 32).2.raise_only e inst _).1 :)

@[simp] theorem State.raise_pwr (s : State) (e : Ev) (inst data : Nat) : (s.raise e inst data).pwr = s.pwr :=
  (congrArg State.pwr (s.raise_only e inst data).1 :)
@[simp] theorem State.raiseFree_pwr (s : State) (e : Ev) (inst : Nat) : (s.raiseFree e inst).pwr = s.pwr :=
  (congrArg State.pwr ((s.fresh 32).2.raise_only e inst _).1 :)

@[simp] theorem State.raise_quay (s : State) (e : Ev) (inst data : Nat) : (s.raise e inst data).quay = s.quay :=
  (congrArg State.quay (s.raise_only e inst data).1 :)
@[simp] theorem State.raiseFree_quay (s : State) (e : Ev) (inst : Nat) : (s.raiseFree e inst).quay = s.quay :=
  (congrArg State.quay ((s.fresh 32).2.raise_only e inst _).1 :)

@[simp] theorem State.raise_fstore (s : State) (e : Ev) (inst data : Nat) : (s.raise e inst data).fstore = s.fstore :=
  (congrArg State.fstore (s.raise_only e inst data).1 :)
@[simp] theorem State.raiseFree_fstore (s : State) (e : Ev) (inst : Nat) : (s.raiseFree e inst).fstore = s.fstore :=
  (congrArg State.fstore ((s.fresh 32).2.raise_only e inst _).1 :)

@[simp] theorem State.raise_work (s : State) (e : Ev) (inst data : Nat) : (s.raise e inst data).work = s.work :=
  (congrArg State.work (s.raise_only e inst data).1 :)
@[simp] theorem State.raiseFree_work (s : State) (e : Ev) (inst : Nat) : (s.raiseFree e inst).work = s.work :=
  (congrArg State.work ((s.fresh 32).2.raise_only e inst _).1 :)

@[simp] theorem State.raise_nvsMem (s : State) (e : Ev) (inst data : Nat) : (s.raise e inst data).nvsMem = s.nvsMem :=
  (congrArg State.nvsMem (s.raise_only e inst data).1 :)
@[simp] theorem State.raiseFree_nvsMem (s : State) (e : Ev) (inst : Nat) : (s.raiseFree e inst).nvsMem = s.nvsMem :=
  (congrArg State.nvsMem ((s.fresh 32).2.raise_only e inst _).1 :)

@[simp] theorem State.raise_cflash (s : State) (e : Ev) (inst data : Nat) : (s.raise e inst data).cflash = s.cflash :=
  (congrArg State.cflash (s.raise_only e inst data).1 :)
@[simp] theorem State.raiseFree_cflash (s : State) (e : Ev) (inst : Nat) : (s.raiseFree e inst).cflash = s.cflash :=
  (congrArg State.cflash ((s.fresh 32).2.raise_only e inst _).1 :)

@[simp] theorem State.raise_hostMem (s : State) (e : Ev) (inst data : Nat) : (s.raise e inst data).hostMem = s.hostMem :=
  (congrArg State.hostMem (s.raise_only e inst data).1 :)
@[simp] theorem State.raiseFree_hostMem (s : State) (e : Ev) (inst : Nat) : (s.raiseFree e inst).hostMem = s.hostMem :=
  (congrArg State.hostMem ((s.fresh 32).2.raise_only e inst _).1 :)

@[simp] theorem State.raise_out (s : State) (e : Ev) (inst data : Nat) : (s.raise e inst data).out = s.out :=
  (congrArg State.out (s.raise_only e inst data).1 :)
@[simp] theorem State.raiseFree_out (s : State) (e : Ev) (inst : Nat) : (s.raiseFree e inst).out = s.out :=
  (congrArg State.out ((s.fresh 32).2.raise_only e inst _).1 :)

@[simp] theorem State.raise_pending (s : State) (e : Ev) (inst data : Nat) : (s.raise e inst data).pending = s.pending :=
  (congrArg State.pending (s.raise_only e inst data).1 :)
@[simp] theorem State.raiseFree_pending (s : State) (e : Ev) (inst : Nat) : (s.raiseFree e inst).pending = s.pending :=
  (congrArg State.pending ((s.fresh 32).2.raise_only e inst _).1 :)

end Sys2Proof.Machine
end

