-- ==== Sys2Proof/Laws/Regs.lean ====
section
/-! SUPPORT. The rows of the register map that commands write, and what a write that reaches its register does there. -/

namespace Sys2Proof.Machine

/-! ### Rows of the map -/

theorem unused_neg {a : Nat} (h : (a < 0x302C0 ∨ 0x30300 ≤ a) ∧ (a < 0x34380 ∨ 0x34400 ≤ a)) : ¬ unusedSyn a = true := by
  unfold unusedSyn
  simp only [Bool.or_eq_true, Bool.and_eq_true, decide_eq_true_eq]
  omega

variable {nm : String} {acc : Access} {base rw' w1 rs c st d su a : Nat} {l : List RegRow}
theorem skip0 (h : base ≠ a) : findRow a (⟨nm, acc, base, [], rw', w1, rs⟩ :: l) = findRow a l := by
  simp only [findRow, RegRow.at?, rowIndex]
  split
  · rename_i h'; split at h' 
    · split at h'
      · omega
      · cases h'
    · cases h'
  · rfl
theorem skip1 (h : base ≤ a → (a - base) / st < c → (a - base) % st ≠ 0) : findRow a (⟨nm, acc, base, [(c, st)], rw', w1, rs⟩ :: l) = findRow a l := by
  simp only [findRow, RegRow.at?, rowIndex]
  by_cases h1 : base ≤ a <;> by_cases h2 : (a - base) / st < c <;> simp [h1, h2]
  simp [h h1 h2]
theorem skip2 (h : base ≤ a → (a - base) / st < c → (a - base) % st / su < d → (a - base) % st % su ≠ 0) : findRow a (⟨nm, acc, base, [(c, st), (d, su)], rw', w1, rs⟩ :: l) = findRow a l := by
  simp only [findRow, RegRow.at?, rowIndex]
  by_cases h1 : base ≤ a <;> by_cases h2 : (a - base) / st < c <;> by_cases h3 : (a - base) % st / su < d <;> simp [h1, h2, h3]
  simp [h h1 h2 h3]
theorem hit0 (h : a = base) : findRow a (⟨nm, acc, base, [], rw', w1, rs⟩ :: l) = some (⟨nm, acc, base, [], rw', w1, rs⟩, []) := by
  subst h
  simp only [findRow, RegRow.at?, rowIndex]
  simp
theorem hit1 (i : Nat) (h : a = base + i * st) (hi : i < c) (hs : 0 < st) : findRow a (⟨nm, acc, base, [(c, st)], rw', w1, rs⟩ :: l) =
    some (⟨nm, acc, base, [(c, st)], rw', w1, rs⟩, [i]) := by
  subst h
  simp only [findRow, RegRow.at?, rowIndex]
  simp [Nat.mul_div_cancel _ hs, hi]
theorem hit2 (i j : Nat) (h : a = base + i * st + j * su) (hi : i < c) (hj : j < d) (hs : 0 < su) (hj' : j * su < st) : findRow a (⟨nm, acc, base, [(c, st), (d, su)], rw', w1, rs⟩ :: l) =
    some (⟨nm, acc, base, [(c, st), (d, su)], rw', w1, rs⟩, [i, j]) := by
  subst h
  have e : base + i * st + j * su - base = i * st + j * su := by omega
  have e1 : (i * st + j * su) / st = i := by
    rw [Nat.add_comm, Nat.add_mul_div_right _ _ (by omega), Nat.div_eq_of_lt hj']; omega
  have e2 : (i * st + j * su) % st = j * su := by rw [Nat.add_comm, Nat.add_mul_mod_self_right, Nat.mod_eq_of_lt hj']
  have e3 : base ≤ base + i * st + j * su := by omega
  simp only [findRow, RegRow.at?, rowIndex]
  simp [e, e1, e2, e3, hi, hj, Nat.mul_div_cancel _ hs]

theorem rowsOf_chtRows {a : Nat} (h : 0x10000 ≤ a) (h2 : a ≤ 0x1FFFF) : rowsOf a regBlocks = chtRows := by
  simp only [regBlocks, rowsOf]
  repeat' (first | (rw [if_pos (by omega)]) | rw [if_neg (by omega)])

theorem rowsOf_coxRows {a : Nat} (h : 0x20000 ≤ a) (h2 : a ≤ 0x2FFFF) : rowsOf a regBlocks = coxRows := by
  simp only [regBlocks, rowsOf]
  repeat' (first | (rw [if_pos (by omega)]) | rw [if_neg (by omega)])

theorem rowsOf_synRows {a : Nat} (h : 0x30000 ≤ a) (h2 : a ≤ 0x3FFFF) : rowsOf a regBlocks = synRows := by
  simp only [regBlocks, rowsOf]
  repeat' (first | (rw [if_pos (by omega)]) | rw [if_neg (by omega)])

theorem rowsOf_prtRows {a : Nat} (h : 0x100000 ≤ a) (h2 : a ≤ 0x1FFFFF) : rowsOf a regBlocks = prtRows := by
  simp only [regBlocks, rowsOf]
  repeat' (first | (rw [if_pos (by omega)]) | rw [if_neg (by omega)])

theorem rowsOf_tabRows {a : Nat} (h : 0x800000 ≤ a) (h2 : a ≤ 0xFFFFFF) : rowsOf a regBlocks = tabRows := by
  simp only [regBlocks, rowsOf]
  repeat' (first | (rw [if_pos (by omega)]) | rw [if_neg (by omega)])

theorem rowsOf_queRows {a : Nat} (h : 0x400000 ≤ a) (h2 : a ≤ 0x4FFFFF) : rowsOf a regBlocks = queRows := by
  simp only [regBlocks, rowsOf]
  repeat' (first | (rw [if_pos (by omega)]) | rw [if_neg (by omega)])

theorem rowsOf_audRows {a : Nat} (h : 0x80000 ≤ a) (h2 : a ≤ 0x8FFFF) : rowsOf a regBlocks = audRows := by
  simp only [regBlocks, rowsOf]
  repeat' (first | (rw [if_pos (by omega)]) | rw [if_neg (by omega)])

theorem rowsOf_lgtRows {a : Nat} (h : 0x90000 ≤ a) (h2 : a ≤ 0x9FFFF) : rowsOf a regBlocks = lgtRows := by
  simp only [regBlocks, rowsOf]
  repeat' (first | (rw [if_pos (by omega)]) | rw [if_neg (by omega)])

theorem rowsOf_nvsRows {a : Nat} (h : 0xA0000 ≤ a) (h2 : a ≤ 0xAFFFF) : rowsOf a regBlocks = nvsRows := by
  simp only [regBlocks, rowsOf]
  repeat' (first | (rw [if_pos (by omega)]) | rw [if_neg (by omega)])

theorem rowsOf_thmRows {a : Nat} (h : 0x40000 ≤ a) (h2 : a ≤ 0x4FFFF) : rowsOf a regBlocks = thmRows := by
  simp only [regBlocks, rowsOf]
  repeat' (first | (rw [if_pos (by omega)]) | rw [if_neg (by omega)])

theorem rowsOf_pwrRows {a : Nat} (h : 0x50000 ≤ a) (h2 : a ≤ 0x5FFFF) : rowsOf a regBlocks = pwrRows := by
  simp only [regBlocks, rowsOf]
  repeat' (first | (rw [if_pos (by omega)]) | rw [if_neg (by omega)])

theorem rowsOf_quayRows {a : Nat} (h : 0x60000 ≤ a) (h2 : a ≤ 0x6FFFF) : rowsOf a regBlocks = quayRows := by
  simp only [regBlocks, rowsOf]
  repeat' (first | (rw [if_pos (by omega)]) | rw [if_neg (by omega)])

theorem rowsOf_evtRows {a : Nat} (h : 0x70000 ≤ a) (h2 : a ≤ 0x7FFFF) : rowsOf a regBlocks = evtRows := by
  simp only [regBlocks, rowsOf]
  repeat' (first | (rw [if_pos (by omega)]) | rw [if_neg (by omega)])

theorem rowsOf_glbRows {a : Nat} (h : 0x0 ≤ a) (h2 : a ≤ 0xFFFF) : rowsOf a regBlocks = glbRows := by
  simp only [regBlocks, rowsOf]
  repeat' (first | (rw [if_pos (by omega)]) | rw [if_neg (by omega)])

theorem rowsOf_hedRows {a : Nat} (h : 0x200000 ≤ a) (h2 : a ≤ 0x2FFFFF) : rowsOf a regBlocks = hedRows := by
  simp only [regBlocks, rowsOf]
  repeat' (first | (rw [if_pos (by omega)]) | rw [if_neg (by omega)])

theorem regRow_chtCtrl : regRow? Reg.chtCtrl = some (⟨"CHT_CTRL", .wo, 0x10008, [], 0x0, 0x0, 0x0⟩, []) := by
  obtain ⟨a, ha⟩ : ∃ a, a = Reg.chtCtrl := ⟨_, rfl⟩
  rw [← ha]; unfold Reg.chtCtrl at ha
  rw [regRow?, if_neg (unused_neg (by omega)), rowsOf_chtRows (by omega) (by omega)]
  simp (disch := omega) only [chtRows, skip0, skip1]
  exact hit0 ha

theorem regWrite_chtCtrl (s : State) (m : Master) (w : Word) : s.regWrite m Reg.chtCtrl w = chtCtrlWrite w s := by
  have hr := regRow_chtCtrl 
  obtain ⟨a, ha⟩ : ∃ a, a = Reg.chtCtrl := ⟨_, rfl⟩
  rw [← ha] at hr ⊢
  unfold Reg.chtCtrl at ha
  rw [State.regWrite, hr]
  dsimp only
  repeat' first | rw [if_neg (by omega)] | rw [if_pos (by omega)]
  unfold State.writeLow
  dsimp only [List.headD_cons, List.getD_cons_zero, List.getD_cons_succ, Reg.chtAmdCtrl, Reg.chtCtrl, Reg.chtFlashCtrl, Reg.chtOtpCtrl, Reg.chtOtpData, Reg.chtPushData, Reg.coxCtrl, Reg.coxRefCfg, Reg.coxRefQl, Reg.coxSel, Reg.coxSlewCtrl, Reg.coxSteer, Reg.coxSyncOut, Reg.coxWtr, Reg.dmaCtrl, Reg.evtRingCfg, Reg.evtRingRp, Reg.glbCntClear, Reg.glbIfHost, Reg.pwrReset, Reg.pwrSleepCfg, Reg.pwrWdtCfg, Reg.pwrWdtKick, Reg.synBandHi, Reg.synBandLo, Reg.synCtrl, Reg.thmShdn, Reg.thmThrot, Reg.thmWarn]
  repeat' first | rw [if_pos (by first | exact ha | rfl)] | rw [if_neg (by omega)]

theorem regRow_chtPushData (i : Nat) (hi : i < 1024) : regRow? (Reg.chtPushData i) = some (⟨"CHT_PUSH_DATA", .wo, 0x11000, [(1024, 0x4)], 0x0, 0x0, 0x0⟩, [i]) := by
  obtain ⟨a, ha⟩ : ∃ a, a = Reg.chtPushData i := ⟨_, rfl⟩
  rw [← ha]; unfold Reg.chtPushData at ha
  rw [regRow?, if_neg (unused_neg (by omega)), rowsOf_chtRows (by omega) (by omega)]
  simp (disch := omega) only [chtRows, skip0, skip1]
  exact hit1 i ha hi (by omega)

theorem regWrite_chtPushData (s : State) (m : Master) (i : Nat) (w : Word) (hi : i < 1024) : s.regWrite m (Reg.chtPushData i) w = pushData w (decide (m = .qspi)) s := by
  have hr := regRow_chtPushData i hi
  obtain ⟨a, ha⟩ : ∃ a, a = Reg.chtPushData i := ⟨_, rfl⟩
  rw [← ha] at hr ⊢
  unfold Reg.chtPushData at ha
  rw [State.regWrite, hr]
  dsimp only
  repeat' first | rw [if_neg (by omega)] | rw [if_pos (by omega)]
  unfold State.writeLow
  dsimp only [List.headD_cons, List.getD_cons_zero, List.getD_cons_succ, Reg.chtAmdCtrl, Reg.chtCtrl, Reg.chtFlashCtrl, Reg.chtOtpCtrl, Reg.chtOtpData, Reg.chtPushData, Reg.coxCtrl, Reg.coxRefCfg, Reg.coxRefQl, Reg.coxSel, Reg.coxSlewCtrl, Reg.coxSteer, Reg.coxSyncOut, Reg.coxWtr, Reg.dmaCtrl, Reg.evtRingCfg, Reg.evtRingRp, Reg.glbCntClear, Reg.glbIfHost, Reg.pwrReset, Reg.pwrSleepCfg, Reg.pwrWdtCfg, Reg.pwrWdtKick, Reg.synBandHi, Reg.synBandLo, Reg.synCtrl, Reg.thmShdn, Reg.thmThrot, Reg.thmWarn]
  repeat' first | rw [if_pos (by first | exact ha | rfl)] | rw [if_neg (by omega)]

theorem regRow_chtOtpCtrl : regRow? Reg.chtOtpCtrl = some (⟨"CHT_OTP_CTRL", .wo, 0x10064, [], 0x0, 0x0, 0x0⟩, []) := by
  obtain ⟨a, ha⟩ : ∃ a, a = Reg.chtOtpCtrl := ⟨_, rfl⟩
  rw [← ha]; unfold Reg.chtOtpCtrl at ha
  rw [regRow?, if_neg (unused_neg (by omega)), rowsOf_chtRows (by omega) (by omega)]
  simp (disch := omega) only [chtRows, skip0, skip1]
  exact hit0 ha

theorem regWrite_chtOtpCtrl (s : State) (m : Master) (w : Word) : s.regWrite m Reg.chtOtpCtrl w = otpCtrlWrite w s := by
  have hr := regRow_chtOtpCtrl 
  obtain ⟨a, ha⟩ : ∃ a, a = Reg.chtOtpCtrl := ⟨_, rfl⟩
  rw [← ha] at hr ⊢
  unfold Reg.chtOtpCtrl at ha
  rw [State.regWrite, hr]
  dsimp only
  repeat' first | rw [if_neg (by omega)] | rw [if_pos (by omega)]
  unfold State.writeLow
  dsimp only [List.headD_cons, List.getD_cons_zero, List.getD_cons_succ, Reg.chtAmdCtrl, Reg.chtCtrl, Reg.chtFlashCtrl, Reg.chtOtpCtrl, Reg.chtOtpData, Reg.chtPushData, Reg.coxCtrl, Reg.coxRefCfg, Reg.coxRefQl, Reg.coxSel, Reg.coxSlewCtrl, Reg.coxSteer, Reg.coxSyncOut, Reg.coxWtr, Reg.dmaCtrl, Reg.evtRingCfg, Reg.evtRingRp, Reg.glbCntClear, Reg.glbIfHost, Reg.pwrReset, Reg.pwrSleepCfg, Reg.pwrWdtCfg, Reg.pwrWdtKick, Reg.synBandHi, Reg.synBandLo, Reg.synCtrl, Reg.thmShdn, Reg.thmThrot, Reg.thmWarn]
  repeat' first | rw [if_pos (by first | exact ha | rfl)] | rw [if_neg (by omega)]

theorem regRow_chtOtpData : regRow? Reg.chtOtpData = some (⟨"CHT_OTP_DATA", .wo, 0x10068, [], 0x0, 0x0, 0x0⟩, []) := by
  obtain ⟨a, ha⟩ : ∃ a, a = Reg.chtOtpData := ⟨_, rfl⟩
  rw [← ha]; unfold Reg.chtOtpData at ha
  rw [regRow?, if_neg (unused_neg (by omega)), rowsOf_chtRows (by omega) (by omega)]
  simp (disch := omega) only [chtRows, skip0, skip1]
  exact hit0 ha

theorem regWrite_chtOtpData (s : State) (m : Master) (w : Word) : s.regWrite m Reg.chtOtpData w = otpDataWrite w s := by
  have hr := regRow_chtOtpData 
  obtain ⟨a, ha⟩ : ∃ a, a = Reg.chtOtpData := ⟨_, rfl⟩
  rw [← ha] at hr ⊢
  unfold Reg.chtOtpData at ha
  rw [State.regWrite, hr]
  dsimp only
  repeat' first | rw [if_neg (by omega)] | rw [if_pos (by omega)]
  unfold State.writeLow
  dsimp only [List.headD_cons, List.getD_cons_zero, List.getD_cons_succ, Reg.chtAmdCtrl, Reg.chtCtrl, Reg.chtFlashCtrl, Reg.chtOtpCtrl, Reg.chtOtpData, Reg.chtPushData, Reg.coxCtrl, Reg.coxRefCfg, Reg.coxRefQl, Reg.coxSel, Reg.coxSlewCtrl, Reg.coxSteer, Reg.coxSyncOut, Reg.coxWtr, Reg.dmaCtrl, Reg.evtRingCfg, Reg.evtRingRp, Reg.glbCntClear, Reg.glbIfHost, Reg.pwrReset, Reg.pwrSleepCfg, Reg.pwrWdtCfg, Reg.pwrWdtKick, Reg.synBandHi, Reg.synBandLo, Reg.synCtrl, Reg.thmShdn, Reg.thmThrot, Reg.thmWarn]
  repeat' first | rw [if_pos (by first | exact ha | rfl)] | rw [if_neg (by omega)]

theorem regRow_chtFlashCtrl : regRow? Reg.chtFlashCtrl = some (⟨"CHT_FLASH_CTRL", .wo, 0x10070, [], 0x0, 0x0, 0x0⟩, []) := by
  obtain ⟨a, ha⟩ : ∃ a, a = Reg.chtFlashCtrl := ⟨_, rfl⟩
  rw [← ha]; unfold Reg.chtFlashCtrl at ha
  rw [regRow?, if_neg (unused_neg (by omega)), rowsOf_chtRows (by omega) (by omega)]
  simp (disch := omega) only [chtRows, skip0, skip1]
  exact hit0 ha

theorem regWrite_chtFlashCtrl (s : State) (m : Master) (w : Word) : s.regWrite m Reg.chtFlashCtrl w = flashCtrlWrite w s := by
  have hr := regRow_chtFlashCtrl 
  obtain ⟨a, ha⟩ : ∃ a, a = Reg.chtFlashCtrl := ⟨_, rfl⟩
  rw [← ha] at hr ⊢
  unfold Reg.chtFlashCtrl at ha
  rw [State.regWrite, hr]
  dsimp only
  repeat' first | rw [if_neg (by omega)] | rw [if_pos (by omega)]
  unfold State.writeLow
  dsimp only [List.headD_cons, List.getD_cons_zero, List.getD_cons_succ, Reg.chtAmdCtrl, Reg.chtCtrl, Reg.chtFlashCtrl, Reg.chtOtpCtrl, Reg.chtOtpData, Reg.chtPushData, Reg.coxCtrl, Reg.coxRefCfg, Reg.coxRefQl, Reg.coxSel, Reg.coxSlewCtrl, Reg.coxSteer, Reg.coxSyncOut, Reg.coxWtr, Reg.dmaCtrl, Reg.evtRingCfg, Reg.evtRingRp, Reg.glbCntClear, Reg.glbIfHost, Reg.pwrReset, Reg.pwrSleepCfg, Reg.pwrWdtCfg, Reg.pwrWdtKick, Reg.synBandHi, Reg.synBandLo, Reg.synCtrl, Reg.thmShdn, Reg.thmThrot, Reg.thmWarn]
  repeat' first | rw [if_pos (by first | exact ha | rfl)] | rw [if_neg (by omega)]

theorem regRow_chtAmdCtrl : regRow? Reg.chtAmdCtrl = some (⟨"CHT_AMD_CTRL", .wo, 0x10040, [], 0x0, 0x0, 0x0⟩, []) := by
  obtain ⟨a, ha⟩ : ∃ a, a = Reg.chtAmdCtrl := ⟨_, rfl⟩
  rw [← ha]; unfold Reg.chtAmdCtrl at ha
  rw [regRow?, if_neg (unused_neg (by omega)), rowsOf_chtRows (by omega) (by omega)]
  simp (disch := omega) only [chtRows, skip0, skip1]
  exact hit0 ha

theorem regWrite_chtAmdCtrl (s : State) (m : Master) (w : Word) : s.regWrite m Reg.chtAmdCtrl w = amdCtrlWrite w s := by
  have hr := regRow_chtAmdCtrl 
  obtain ⟨a, ha⟩ : ∃ a, a = Reg.chtAmdCtrl := ⟨_, rfl⟩
  rw [← ha] at hr ⊢
  unfold Reg.chtAmdCtrl at ha
  rw [State.regWrite, hr]
  dsimp only
  repeat' first | rw [if_neg (by omega)] | rw [if_pos (by omega)]
  unfold State.writeLow
  dsimp only [List.headD_cons, List.getD_cons_zero, List.getD_cons_succ, Reg.chtAmdCtrl, Reg.chtCtrl, Reg.chtFlashCtrl, Reg.chtOtpCtrl, Reg.chtOtpData, Reg.chtPushData, Reg.coxCtrl, Reg.coxRefCfg, Reg.coxRefQl, Reg.coxSel, Reg.coxSlewCtrl, Reg.coxSteer, Reg.coxSyncOut, Reg.coxWtr, Reg.dmaCtrl, Reg.evtRingCfg, Reg.evtRingRp, Reg.glbCntClear, Reg.glbIfHost, Reg.pwrReset, Reg.pwrSleepCfg, Reg.pwrWdtCfg, Reg.pwrWdtKick, Reg.synBandHi, Reg.synBandLo, Reg.synCtrl, Reg.thmShdn, Reg.thmThrot, Reg.thmWarn]
  repeat' first | rw [if_pos (by first | exact ha | rfl)] | rw [if_neg (by omega)]

theorem regRow_coxSel : regRow? Reg.coxSel = some (⟨"COX_SEL", .rw, 0x20008, [], 0x7, 0x0, 0x0⟩, []) := by
  obtain ⟨a, ha⟩ : ∃ a, a = Reg.coxSel := ⟨_, rfl⟩
  rw [← ha]; unfold Reg.coxSel at ha
  rw [regRow?, if_neg (unused_neg (by omega)), rowsOf_coxRows (by omega) (by omega)]
  simp (disch := omega) only [coxRows, skip0, skip1]
  exact hit0 ha

theorem regWrite_coxSel (s : State) (m : Master) (w : Word) : s.regWrite m Reg.coxSel w = coxSelWrite w s := by
  have hr := regRow_coxSel 
  obtain ⟨a, ha⟩ : ∃ a, a = Reg.coxSel := ⟨_, rfl⟩
  rw [← ha] at hr ⊢
  unfold Reg.coxSel at ha
  rw [State.regWrite, hr]
  dsimp only
  repeat' first | rw [if_neg (by omega)] | rw [if_pos (by omega)]
  unfold State.writeLow
  dsimp only [List.headD_cons, List.getD_cons_zero, List.getD_cons_succ, Reg.chtAmdCtrl, Reg.chtCtrl, Reg.chtFlashCtrl, Reg.chtOtpCtrl, Reg.chtOtpData, Reg.chtPushData, Reg.coxCtrl, Reg.coxRefCfg, Reg.coxRefQl, Reg.coxSel, Reg.coxSlewCtrl, Reg.coxSteer, Reg.coxSyncOut, Reg.coxWtr, Reg.dmaCtrl, Reg.evtRingCfg, Reg.evtRingRp, Reg.glbCntClear, Reg.glbIfHost, Reg.pwrReset, Reg.pwrSleepCfg, Reg.pwrWdtCfg, Reg.pwrWdtKick, Reg.synBandHi, Reg.synBandLo, Reg.synCtrl, Reg.thmShdn, Reg.thmThrot, Reg.thmWarn]
  repeat' first | rw [if_pos (by first | exact ha | rfl)] | rw [if_neg (by omega)]

theorem regRow_coxCtrl : regRow? Reg.coxCtrl = some (⟨"COX_CTRL", .rw, 0x20004, [], 0x33, 0x0, 0x0⟩, []) := by
  obtain ⟨a, ha⟩ : ∃ a, a = Reg.coxCtrl := ⟨_, rfl⟩
  rw [← ha]; unfold Reg.coxCtrl at ha
  rw [regRow?, if_neg (unused_neg (by omega)), rowsOf_coxRows (by omega) (by omega)]
  simp (disch := omega) only [coxRows, skip0, skip1]
  exact hit0 ha

theorem regWrite_coxCtrl (s : State) (m : Master) (w : Word) : s.regWrite m Reg.coxCtrl w = coxCtrlWrite w s := by
  have hr := regRow_coxCtrl 
  obtain ⟨a, ha⟩ : ∃ a, a = Reg.coxCtrl := ⟨_, rfl⟩
  rw [← ha] at hr ⊢
  unfold Reg.coxCtrl at ha
  rw [State.regWrite, hr]
  dsimp only
  repeat' first | rw [if_neg (by omega)] | rw [if_pos (by omega)]
  unfold State.writeLow
  dsimp only [List.headD_cons, List.getD_cons_zero, List.getD_cons_succ, Reg.chtAmdCtrl, Reg.chtCtrl, Reg.chtFlashCtrl, Reg.chtOtpCtrl, Reg.chtOtpData, Reg.chtPushData, Reg.coxCtrl, Reg.coxRefCfg, Reg.coxRefQl, Reg.coxSel, Reg.coxSlewCtrl, Reg.coxSteer, Reg.coxSyncOut, Reg.coxWtr, Reg.dmaCtrl, Reg.evtRingCfg, Reg.evtRingRp, Reg.glbCntClear, Reg.glbIfHost, Reg.pwrReset, Reg.pwrSleepCfg, Reg.pwrWdtCfg, Reg.pwrWdtKick, Reg.synBandHi, Reg.synBandLo, Reg.synCtrl, Reg.thmShdn, Reg.thmThrot, Reg.thmWarn]
  repeat' first | rw [if_pos (by first | exact ha | rfl)] | rw [if_neg (by omega)]

theorem regRow_coxSlewCtrl : regRow? Reg.coxSlewCtrl = some (⟨"COX_SLEW_CTRL", .rw, 0x20028, [], 0x3FF, 0x0, 0x3E8⟩, []) := by
  obtain ⟨a, ha⟩ : ∃ a, a = Reg.coxSlewCtrl := ⟨_, rfl⟩
  rw [← ha]; unfold Reg.coxSlewCtrl at ha
  rw [regRow?, if_neg (unused_neg (by omega)), rowsOf_coxRows (by omega) (by omega)]
  simp (disch := omega) only [coxRows, skip0, skip1]
  exact hit0 ha

theorem regWrite_coxSlewCtrl (s : State) (m : Master) (w : Word) : s.regWrite m Reg.coxSlewCtrl w = slewWrite w s := by
  have hr := regRow_coxSlewCtrl 
  obtain ⟨a, ha⟩ : ∃ a, a = Reg.coxSlewCtrl := ⟨_, rfl⟩
  rw [← ha] at hr ⊢
  unfold Reg.coxSlewCtrl at ha
  rw [State.regWrite, hr]
  dsimp only
  repeat' first | rw [if_neg (by omega)] | rw [if_pos (by omega)]
  unfold State.writeLow
  dsimp only [List.headD_cons, List.getD_cons_zero, List.getD_cons_succ, Reg.chtAmdCtrl, Reg.chtCtrl, Reg.chtFlashCtrl, Reg.chtOtpCtrl, Reg.chtOtpData, Reg.chtPushData, Reg.coxCtrl, Reg.coxRefCfg, Reg.coxRefQl, Reg.coxSel, Reg.coxSlewCtrl, Reg.coxSteer, Reg.coxSyncOut, Reg.coxWtr, Reg.dmaCtrl, Reg.evtRingCfg, Reg.evtRingRp, Reg.glbCntClear, Reg.glbIfHost, Reg.pwrReset, Reg.pwrSleepCfg, Reg.pwrWdtCfg, Reg.pwrWdtKick, Reg.synBandHi, Reg.synBandLo, Reg.synCtrl, Reg.thmShdn, Reg.thmThrot, Reg.thmWarn]
  repeat' first | rw [if_pos (by first | exact ha | rfl)] | rw [if_neg (by omega)]

theorem regRow_coxSteer : regRow? Reg.coxSteer = some (⟨"COX_STEER", .rw, 0x2001C, [], 0xFFFFFFFF, 0x0, 0x0⟩, []) := by
  obtain ⟨a, ha⟩ : ∃ a, a = Reg.coxSteer := ⟨_, rfl⟩
  rw [← ha]; unfold Reg.coxSteer at ha
  rw [regRow?, if_neg (unused_neg (by omega)), rowsOf_coxRows (by omega) (by omega)]
  simp (disch := omega) only [coxRows, skip0, skip1]
  exact hit0 ha

theorem regWrite_coxSteer (s : State) (m : Master) (w : Word) : s.regWrite m Reg.coxSteer w = coxSteerWrite w s := by
  have hr := regRow_coxSteer 
  obtain ⟨a, ha⟩ : ∃ a, a = Reg.coxSteer := ⟨_, rfl⟩
  rw [← ha] at hr ⊢
  unfold Reg.coxSteer at ha
  rw [State.regWrite, hr]
  dsimp only
  repeat' first | rw [if_neg (by omega)] | rw [if_pos (by omega)]
  unfold State.writeLow
  dsimp only [List.headD_cons, List.getD_cons_zero, List.getD_cons_succ, Reg.chtAmdCtrl, Reg.chtCtrl, Reg.chtFlashCtrl, Reg.chtOtpCtrl, Reg.chtOtpData, Reg.chtPushData, Reg.coxCtrl, Reg.coxRefCfg, Reg.coxRefQl, Reg.coxSel, Reg.coxSlewCtrl, Reg.coxSteer, Reg.coxSyncOut, Reg.coxWtr, Reg.dmaCtrl, Reg.evtRingCfg, Reg.evtRingRp, Reg.glbCntClear, Reg.glbIfHost, Reg.pwrReset, Reg.pwrSleepCfg, Reg.pwrWdtCfg, Reg.pwrWdtKick, Reg.synBandHi, Reg.synBandLo, Reg.synCtrl, Reg.thmShdn, Reg.thmThrot, Reg.thmWarn]
  repeat' first | rw [if_pos (by first | exact ha | rfl)] | rw [if_neg (by omega)]

theorem regRow_synCtrl (i : Nat) (hi : i < 136) (h7 : i ≠ 7) : regRow? (Reg.synCtrl i) = some (⟨"SYN_x_CTRL", .wo, 0x30108, [(136, 0x40)], 0x0, 0x0, 0x0⟩, [i]) := by
  obtain ⟨a, ha⟩ : ∃ a, a = Reg.synCtrl i := ⟨_, rfl⟩
  rw [← ha]; unfold Reg.synCtrl at ha
  rw [regRow?, if_neg (unused_neg (by omega)), rowsOf_synRows (by omega) (by omega)]
  simp (disch := omega) only [synRows, skip1, skip2]
  exact hit1 i ha hi (by omega)

theorem regWrite_synCtrl (s : State) (m : Master) (i : Nat) (w : Word) (hi : i < 136) (h7 : i ≠ 7) : s.regWrite m (Reg.synCtrl i) w = synRelock i w s := by
  have hr := regRow_synCtrl i hi h7
  obtain ⟨a, ha⟩ : ∃ a, a = Reg.synCtrl i := ⟨_, rfl⟩
  rw [← ha] at hr ⊢
  unfold Reg.synCtrl at ha
  rw [State.regWrite, hr]
  dsimp only
  repeat' first | rw [if_neg (by omega)] | rw [if_pos (by omega)]
  unfold State.writeLow
  dsimp only [List.headD_cons, List.getD_cons_zero, List.getD_cons_succ, Reg.chtAmdCtrl, Reg.chtCtrl, Reg.chtFlashCtrl, Reg.chtOtpCtrl, Reg.chtOtpData, Reg.chtPushData, Reg.coxCtrl, Reg.coxRefCfg, Reg.coxRefQl, Reg.coxSel, Reg.coxSlewCtrl, Reg.coxSteer, Reg.coxSyncOut, Reg.coxWtr, Reg.dmaCtrl, Reg.evtRingCfg, Reg.evtRingRp, Reg.glbCntClear, Reg.glbIfHost, Reg.pwrReset, Reg.pwrSleepCfg, Reg.pwrWdtCfg, Reg.pwrWdtKick, Reg.synBandHi, Reg.synBandLo, Reg.synCtrl, Reg.thmShdn, Reg.thmThrot, Reg.thmWarn]
  repeat' first | rw [if_pos (by first | exact ha | rfl)] | rw [if_neg (by omega)]

theorem regRow_prtCtrl (i : Nat) (hi : i < 512) : regRow? (Reg.prtCtrl i) = some (⟨"PRT_nnn_CTRL", .wo, 0x100004, [(512, 0x800)], 0x0, 0x0, 0x0⟩, [i]) := by
  obtain ⟨a, ha⟩ : ∃ a, a = Reg.prtCtrl i := ⟨_, rfl⟩
  rw [← ha]; unfold Reg.prtCtrl at ha
  rw [regRow?, if_neg (unused_neg (by omega)), rowsOf_prtRows (by omega) (by omega)]
  simp (disch := omega) only [prtRows, prtRows0, prtRows1, List.cons_append, List.nil_append, skip1, skip2]
  exact hit1 i ha hi (by omega)

theorem regWrite_prtCtrl (s : State) (m : Master) (i : Nat) (w : Word) (hi : i < 512) : s.regWrite m (Reg.prtCtrl i) w = prtCtrlWrite i w s := by
  have hr := regRow_prtCtrl i hi
  obtain ⟨a, ha⟩ : ∃ a, a = Reg.prtCtrl i := ⟨_, rfl⟩
  rw [← ha] at hr ⊢
  unfold Reg.prtCtrl at ha
  rw [State.regWrite, hr]
  dsimp only
  repeat' first | rw [if_neg (by omega)] | rw [if_pos (by omega)]
  unfold State.writePrt
  dsimp only [List.headD_cons, List.getD_cons_zero, List.getD_cons_succ, Reg.prtCtrl, Reg.prtHxCmd, Reg.prtOctEyeCtrl, Reg.prtPrbsCtrl, Reg.prtPullCfg, Reg.prtRbCfg, Reg.prtRwCtrl, Reg.prtRwKey]
  repeat' first | rw [if_pos (by first | exact ha | rfl)] | rw [if_neg (by omega)]

theorem regRow_prtPrbsCtrl (i : Nat) (hi : i < 512) : regRow? (Reg.prtPrbsCtrl i) = some (⟨"PRT_nnn_PRBS_CTRL", .rw, 0x100020, [(512, 0x800)], 0x77, 0x0, 0x0⟩, [i]) := by
  obtain ⟨a, ha⟩ : ∃ a, a = Reg.prtPrbsCtrl i := ⟨_, rfl⟩
  rw [← ha]; unfold Reg.prtPrbsCtrl at ha
  rw [regRow?, if_neg (unused_neg (by omega)), rowsOf_prtRows (by omega) (by omega)]
  simp (disch := omega) only [prtRows, prtRows0, prtRows1, List.cons_append, List.nil_append, skip1, skip2]
  exact hit1 i ha hi (by omega)

theorem regWrite_prtPrbsCtrl (s : State) (m : Master) (i : Nat) (w : Word) (hi : i < 512) : s.regWrite m (Reg.prtPrbsCtrl i) w = prbsCtrlWrite i (w &&& BitVec.ofNat 32 0x77) s := by
  have hr := regRow_prtPrbsCtrl i hi
  obtain ⟨a, ha⟩ : ∃ a, a = Reg.prtPrbsCtrl i := ⟨_, rfl⟩
  rw [← ha] at hr ⊢
  unfold Reg.prtPrbsCtrl at ha
  rw [State.regWrite, hr]
  dsimp only
  repeat' first | rw [if_neg (by omega)] | rw [if_pos (by omega)]
  unfold State.writePrt
  dsimp only [List.headD_cons, List.getD_cons_zero, List.getD_cons_succ, Reg.prtCtrl, Reg.prtHxCmd, Reg.prtOctEyeCtrl, Reg.prtPrbsCtrl, Reg.prtPullCfg, Reg.prtRbCfg, Reg.prtRwCtrl, Reg.prtRwKey]
  repeat' first | rw [if_pos (by first | exact ha | rfl)] | rw [if_neg (by omega)]

theorem regRow_prtOctEyeCtrl (i : Nat) (hi : i < 64) : regRow? (Reg.prtOctEyeCtrl i) = some (⟨"PRT_OCT_oo_EYE_CTRL", .rw, 0x100400, [(64, 0x4000)], 0x70000, 0x0, 0x0⟩, [i]) := by
  obtain ⟨a, ha⟩ : ∃ a, a = Reg.prtOctEyeCtrl i := ⟨_, rfl⟩
  rw [← ha]; unfold Reg.prtOctEyeCtrl at ha
  rw [regRow?, if_neg (unused_neg (by omega)), rowsOf_prtRows (by omega) (by omega)]
  simp (disch := omega) only [prtRows, prtRows0, prtRows1, List.cons_append, List.nil_append, skip1, skip2]
  exact hit1 i ha hi (by omega)

theorem regWrite_prtOctEyeCtrl (s : State) (m : Master) (i : Nat) (w : Word) (hi : i < 64) : s.regWrite m (Reg.prtOctEyeCtrl i) w = eyeScan i w s := by
  have hr := regRow_prtOctEyeCtrl i hi
  obtain ⟨a, ha⟩ : ∃ a, a = Reg.prtOctEyeCtrl i := ⟨_, rfl⟩
  rw [← ha] at hr ⊢
  unfold Reg.prtOctEyeCtrl at ha
  rw [State.regWrite, hr]
  dsimp only
  repeat' first | rw [if_neg (by omega)] | rw [if_pos (by omega)]
  unfold State.writePrt
  dsimp only [List.headD_cons, List.getD_cons_zero, List.getD_cons_succ, Reg.prtCtrl, Reg.prtHxCmd, Reg.prtOctEyeCtrl, Reg.prtPrbsCtrl, Reg.prtPullCfg, Reg.prtRbCfg, Reg.prtRwCtrl, Reg.prtRwKey]
  repeat' first | rw [if_pos (by first | exact ha | rfl)] | rw [if_neg (by omega)]

theorem regRow_prtRbCfg (i : Nat) (hi : i < 32) : regRow? (Reg.prtRbCfg i) = some (⟨"PRT_RB_kk_CFG", .rw, 0x100700, [(32, 0x800)], 0x800001FF, 0x0, 0x0⟩, [i]) := by
  obtain ⟨a, ha⟩ : ∃ a, a = Reg.prtRbCfg i := ⟨_, rfl⟩
  rw [← ha]; unfold Reg.prtRbCfg at ha
  rw [regRow?, if_neg (unused_neg (by omega)), rowsOf_prtRows (by omega) (by omega)]
  simp (disch := omega) only [prtRows, prtRows0, prtRows1, List.cons_append, List.nil_append, skip1, skip2]
  exact hit1 i ha hi (by omega)

theorem regWrite_prtRbCfg (s : State) (m : Master) (i : Nat) (w : Word) (hi : i < 32) : s.regWrite m (Reg.prtRbCfg i) w = rbCfgWrite i w s := by
  have hr := regRow_prtRbCfg i hi
  obtain ⟨a, ha⟩ : ∃ a, a = Reg.prtRbCfg i := ⟨_, rfl⟩
  rw [← ha] at hr ⊢
  unfold Reg.prtRbCfg at ha
  rw [State.regWrite, hr]
  dsimp only
  repeat' first | rw [if_neg (by omega)] | rw [if_pos (by omega)]
  unfold State.writePrt
  dsimp only [List.headD_cons, List.getD_cons_zero, List.getD_cons_succ, Reg.prtCtrl, Reg.prtHxCmd, Reg.prtOctEyeCtrl, Reg.prtPrbsCtrl, Reg.prtPullCfg, Reg.prtRbCfg, Reg.prtRwCtrl, Reg.prtRwKey]
  repeat' first | rw [if_pos (by first | exact ha | rfl)] | rw [if_neg (by omega)]

theorem regRow_prtHxCmd (i : Nat) (hi : i < 512) : regRow? (Reg.prtHxCmd i) = some (⟨"PRT_nnn_HX_CMD", .wo, 0x1000C4, [(512, 0x800)], 0x0, 0x0, 0x0⟩, [i]) := by
  obtain ⟨a, ha⟩ : ∃ a, a = Reg.prtHxCmd i := ⟨_, rfl⟩
  rw [← ha]; unfold Reg.prtHxCmd at ha
  rw [regRow?, if_neg (unused_neg (by omega)), rowsOf_prtRows (by omega) (by omega)]
  simp (disch := omega) only [prtRows, prtRows0, prtRows1, List.cons_append, List.nil_append, skip1, skip2]
  exact hit1 i ha hi (by omega)

theorem regWrite_prtHxCmd (s : State) (m : Master) (i : Nat) (w : Word) (hi : i < 512) : s.regWrite m (Reg.prtHxCmd i) w = hxCmdWrite i w s := by
  have hr := regRow_prtHxCmd i hi
  obtain ⟨a, ha⟩ : ∃ a, a = Reg.prtHxCmd i := ⟨_, rfl⟩
  rw [← ha] at hr ⊢
  unfold Reg.prtHxCmd at ha
  rw [State.regWrite, hr]
  dsimp only
  repeat' first | rw [if_neg (by omega)] | rw [if_pos (by omega)]
  unfold State.writePrt
  dsimp only [List.headD_cons, List.getD_cons_zero, List.getD_cons_succ, Reg.prtCtrl, Reg.prtHxCmd, Reg.prtOctEyeCtrl, Reg.prtPrbsCtrl, Reg.prtPullCfg, Reg.prtRbCfg, Reg.prtRwCtrl, Reg.prtRwKey]
  repeat' first | rw [if_pos (by first | exact ha | rfl)] | rw [if_neg (by omega)]

theorem regRow_prtPullCfg (i : Nat) (hi : i < 512) : regRow? (Reg.prtPullCfg i) = some (⟨"PRT_nnn_PULL_CFG", .rw, 0x100084, [(512, 0x800)], 0xF7FFFFFF, 0x0, 0x0⟩, [i]) := by
  obtain ⟨a, ha⟩ : ∃ a, a = Reg.prtPullCfg i := ⟨_, rfl⟩
  rw [← ha]; unfold Reg.prtPullCfg at ha
  rw [regRow?, if_neg (unused_neg (by omega)), rowsOf_prtRows (by omega) (by omega)]
  simp (disch := omega) only [prtRows, prtRows0, prtRows1, List.cons_append, List.nil_append, skip1, skip2]
  exact hit1 i ha hi (by omega)

theorem regWrite_prtPullCfg (s : State) (m : Master) (i : Nat) (w : Word) (hi : i < 512) : s.regWrite m (Reg.prtPullCfg i) w = pullCfgWrite i (w &&& BitVec.ofNat 32 0xF7FFFFFF) s := by
  have hr := regRow_prtPullCfg i hi
  obtain ⟨a, ha⟩ : ∃ a, a = Reg.prtPullCfg i := ⟨_, rfl⟩
  rw [← ha] at hr ⊢
  unfold Reg.prtPullCfg at ha
  rw [State.regWrite, hr]
  dsimp only
  repeat' first | rw [if_neg (by omega)] | rw [if_pos (by omega)]
  unfold State.writePrt
  dsimp only [List.headD_cons, List.getD_cons_zero, List.getD_cons_succ, Reg.prtCtrl, Reg.prtHxCmd, Reg.prtOctEyeCtrl, Reg.prtPrbsCtrl, Reg.prtPullCfg, Reg.prtRbCfg, Reg.prtRwCtrl, Reg.prtRwKey]
  repeat' first | rw [if_pos (by first | exact ha | rfl)] | rw [if_neg (by omega)]

theorem regRow_prtRwKey (i : Nat) (hi : i < 512) : regRow? (Reg.prtRwKey i) = some (⟨"PRT_nnn_RW_KEY", .wo, 0x100100, [(512, 0x800)], 0x0, 0x0, 0x0⟩, [i]) := by
  obtain ⟨a, ha⟩ : ∃ a, a = Reg.prtRwKey i := ⟨_, rfl⟩
  rw [← ha]; unfold Reg.prtRwKey at ha
  rw [regRow?, if_neg (unused_neg (by omega)), rowsOf_prtRows (by omega) (by omega)]
  simp (disch := omega) only [prtRows, prtRows0, prtRows1, List.cons_append, List.nil_append, skip1, skip2]
  exact hit1 i ha hi (by omega)

theorem regWrite_prtRwKey (s : State) (m : Master) (i : Nat) (w : Word) (hi : i < 512) : s.regWrite m (Reg.prtRwKey i) w = rwKey i w s := by
  have hr := regRow_prtRwKey i hi
  obtain ⟨a, ha⟩ : ∃ a, a = Reg.prtRwKey i := ⟨_, rfl⟩
  rw [← ha] at hr ⊢
  unfold Reg.prtRwKey at ha
  rw [State.regWrite, hr]
  dsimp only
  repeat' first | rw [if_neg (by omega)] | rw [if_pos (by omega)]
  unfold State.writePrt
  dsimp only [List.headD_cons, List.getD_cons_zero, List.getD_cons_succ, Reg.prtCtrl, Reg.prtHxCmd, Reg.prtOctEyeCtrl, Reg.prtPrbsCtrl, Reg.prtPullCfg, Reg.prtRbCfg, Reg.prtRwCtrl, Reg.prtRwKey]
  repeat' first | rw [if_pos (by first | exact ha | rfl)] | rw [if_neg (by omega)]

theorem regRow_prtRwCtrl (i : Nat) (hi : i < 512) : regRow? (Reg.prtRwCtrl i) = some (⟨"PRT_nnn_RW_CTRL", .rw, 0x100104, [(512, 0x800)], 0xE73FFFFE, 0x0, 0x0⟩, [i]) := by
  obtain ⟨a, ha⟩ : ∃ a, a = Reg.prtRwCtrl i := ⟨_, rfl⟩
  rw [← ha]; unfold Reg.prtRwCtrl at ha
  rw [regRow?, if_neg (unused_neg (by omega)), rowsOf_prtRows (by omega) (by omega)]
  simp (disch := omega) only [prtRows, prtRows0, prtRows1, List.cons_append, List.nil_append, skip1, skip2]
  exact hit1 i ha hi (by omega)

theorem regWrite_prtRwCtrl (s : State) (m : Master) (i : Nat) (w : Word) (hi : i < 512) : s.regWrite m (Reg.prtRwCtrl i) w = if bit w 23 then rwLossGo i (w &&& (BitVec.ofNat 32 0xE73FFFFE ||| 0x800000)) s else rwCtrlWrite i (w &&& BitVec.ofNat 32 0xE73FFFFE) s := by
  have hr := regRow_prtRwCtrl i hi
  obtain ⟨a, ha⟩ : ∃ a, a = Reg.prtRwCtrl i := ⟨_, rfl⟩
  rw [← ha] at hr ⊢
  unfold Reg.prtRwCtrl at ha
  generalize hR : (if bit w 23 then rwLossGo i (w &&& (BitVec.ofNat 32 0xE73FFFFE ||| 0x800000)) s else rwCtrlWrite i (w &&& BitVec.ofNat 32 0xE73FFFFE) s) = R
  rw [State.regWrite, hr]
  dsimp only
  repeat' first | rw [if_neg (by omega)] | rw [if_pos (by omega)]
  unfold State.writePrt
  dsimp only [List.headD_cons, List.getD_cons_zero, List.getD_cons_succ, Reg.prtCtrl, Reg.prtHxCmd, Reg.prtOctEyeCtrl, Reg.prtPrbsCtrl, Reg.prtPullCfg, Reg.prtRbCfg, Reg.prtRwCtrl, Reg.prtRwKey]
  repeat' first | exact hR | rw [if_pos (by first | exact ha | rfl)] | rw [if_neg (by omega)]

theorem regRow_xtbEntryWord (i : Nat) (j : Nat) (hi : i < 32768) (hj : j < 4) : regRow? (Reg.xtbEntryWord i j) = some (⟨"XTB_ENTRY_WORD", .rw, 0x800000, [(32768, 0x10), (4, 0x4)], 0xFFFFFFFF, 0x0, 0x0⟩, [i, j]) := by
  obtain ⟨a, ha⟩ : ∃ a, a = Reg.xtbEntryWord i j := ⟨_, rfl⟩
  rw [← ha]; unfold Reg.xtbEntryWord at ha
  rw [regRow?, if_neg (unused_neg (by omega)), rowsOf_tabRows (by omega) (by omega)]
  simp (disch := omega) only [tabRows, tabRows0, tabRows1, List.cons_append, List.nil_append, skip0, skip1, skip2]
  exact hit2 i j ha hi hj (by omega) (by omega)

theorem regWrite_xtbEntryWord (s : State) (m : Master) (i : Nat) (w : Word) (hi : i < 32768) : s.regWrite m (Reg.xtbEntryWord i 3) w = xtbWord3Write i w s := by
  have hr := regRow_xtbEntryWord i 3 hi (by decide)
  obtain ⟨a, ha⟩ : ∃ a, a = Reg.xtbEntryWord i 3 := ⟨_, rfl⟩
  rw [← ha] at hr ⊢
  unfold Reg.xtbEntryWord at ha
  rw [State.regWrite, hr]
  dsimp only
  repeat' first | rw [if_neg (by omega)] | rw [if_pos (by omega)]
  unfold State.writeTables
  dsimp only [List.headD_cons, List.getD_cons_zero, List.getD_cons_succ, Reg.fstSlipCommit, Reg.msixTableWord, Reg.xformWord, Reg.xtbArmCtrl, Reg.xtbEntryWord]
  repeat' first | rw [if_pos (by first | exact ha | rfl)] | rw [if_neg (by omega)]

theorem regRow_xtbArmCtrl : regRow? Reg.xtbArmCtrl = some (⟨"XTB_ARM_CTRL", .wo, 0xFE0008, [], 0x0, 0x0, 0x0⟩, []) := by
  obtain ⟨a, ha⟩ : ∃ a, a = Reg.xtbArmCtrl := ⟨_, rfl⟩
  rw [← ha]; unfold Reg.xtbArmCtrl at ha
  rw [regRow?, if_neg (unused_neg (by omega)), rowsOf_tabRows (by omega) (by omega)]
  simp (disch := omega) only [tabRows, tabRows0, tabRows1, List.cons_append, List.nil_append, skip0, skip1, skip2]
  exact hit0 ha

theorem regWrite_xtbArmCtrl (s : State) (m : Master) (w : Word) : s.regWrite m Reg.xtbArmCtrl w = xtbArm w s := by
  have hr := regRow_xtbArmCtrl 
  obtain ⟨a, ha⟩ : ∃ a, a = Reg.xtbArmCtrl := ⟨_, rfl⟩
  rw [← ha] at hr ⊢
  unfold Reg.xtbArmCtrl at ha
  rw [State.regWrite, hr]
  dsimp only
  repeat' first | rw [if_neg (by omega)] | rw [if_pos (by omega)]
  unfold State.writeTables
  dsimp only [List.headD_cons, List.getD_cons_zero, List.getD_cons_succ, Reg.fstSlipCommit, Reg.msixTableWord, Reg.xformWord, Reg.xtbArmCtrl, Reg.xtbEntryWord]
  repeat' first | rw [if_pos (by first | exact ha | rfl)] | rw [if_neg (by omega)]

theorem regRow_xformWord (i : Nat) (j : Nat) (hi : i < 4096) (hj : j < 64) : regRow? (Reg.xformWord i j) = some (⟨"XFORM_WORD", .rw, 0x900000, [(4096, 0x100), (64, 0x4)], 0xFFFFFFFF, 0x0, 0x0⟩, [i, j]) := by
  obtain ⟨a, ha⟩ : ∃ a, a = Reg.xformWord i j := ⟨_, rfl⟩
  rw [← ha]; unfold Reg.xformWord at ha
  rw [regRow?, if_neg (unused_neg (by omega)), rowsOf_tabRows (by omega) (by omega)]
  simp (disch := omega) only [tabRows, tabRows0, tabRows1, List.cons_append, List.nil_append, skip0, skip1, skip2]
  exact hit2 i j ha hi hj (by omega) (by omega)

theorem regWrite_xformWord (s : State) (m : Master) (i : Nat) (j : Nat) (w : Word) (hi : i < 4096) (hj : j < 64) : s.regWrite m (Reg.xformWord i j) w = xformWrite i j w s := by
  have hr := regRow_xformWord i j hi hj
  obtain ⟨a, ha⟩ : ∃ a, a = Reg.xformWord i j := ⟨_, rfl⟩
  rw [← ha] at hr ⊢
  unfold Reg.xformWord at ha
  rw [State.regWrite, hr]
  dsimp only
  repeat' first | rw [if_neg (by omega)] | rw [if_pos (by omega)]
  unfold State.writeTables
  dsimp only [List.headD_cons, List.getD_cons_zero, List.getD_cons_succ, Reg.fstSlipCommit, Reg.msixTableWord, Reg.xformWord, Reg.xtbArmCtrl, Reg.xtbEntryWord]
  repeat' first | rw [if_pos (by first | exact ha | rfl)] | rw [if_neg (by omega)]
  rfl

theorem regRow_quePush (i : Nat) (j : Nat) (hi : i < 4096) (hj : j < 4) : regRow? (Reg.quePush i j) = some (⟨"QUE_qqqq_PUSH_w", .wo, 0x400040, [(4096, 0x100), (4, 0x4)], 0x0, 0x0, 0x0⟩, [i, j]) := by
  obtain ⟨a, ha⟩ : ∃ a, a = Reg.quePush i j := ⟨_, rfl⟩
  rw [← ha]; unfold Reg.quePush at ha
  rw [regRow?, if_neg (unused_neg (by omega)), rowsOf_queRows (by omega) (by omega)]
  simp (disch := omega) only [queRows, skip1, skip2]
  exact hit2 i j ha hi hj (by omega) (by omega)

theorem regWrite_quePush (s : State) (m : Master) (i : Nat) (w : Word) (hi : i < 4096) : s.regWrite m (Reg.quePush i 3) w = quePush i w s := by
  have hr := regRow_quePush i 3 hi (by decide)
  obtain ⟨a, ha⟩ : ∃ a, a = Reg.quePush i 3 := ⟨_, rfl⟩
  rw [← ha] at hr ⊢
  unfold Reg.quePush at ha
  rw [State.regWrite, hr]
  dsimp only
  repeat' first | rw [if_neg (by omega)] | rw [if_pos (by omega)]
  unfold State.writeQue
  dsimp only [List.headD_cons, List.getD_cons_zero, List.getD_cons_succ, Reg.queCtrl, Reg.quePush]
  repeat' first | rw [if_pos (by first | exact ha | rfl)] | rw [if_neg (by omega)]

theorem regRow_queCtrl (i : Nat) (hi : i < 4096) : regRow? (Reg.queCtrl i) = some (⟨"QUE_qqqq_CTRL", .wo, 0x40001C, [(4096, 0x100)], 0x0, 0x0, 0x0⟩, [i]) := by
  obtain ⟨a, ha⟩ : ∃ a, a = Reg.queCtrl i := ⟨_, rfl⟩
  rw [← ha]; unfold Reg.queCtrl at ha
  rw [regRow?, if_neg (unused_neg (by omega)), rowsOf_queRows (by omega) (by omega)]
  simp (disch := omega) only [queRows, skip1, skip2]
  exact hit1 i ha hi (by omega)

theorem regWrite_queCtrl (s : State) (m : Master) (i : Nat) (w : Word) (hi : i < 4096) : s.regWrite m (Reg.queCtrl i) w = if bit w 0 then hwmClr i s else s := by
  have hr := regRow_queCtrl i hi
  obtain ⟨a, ha⟩ : ∃ a, a = Reg.queCtrl i := ⟨_, rfl⟩
  rw [← ha] at hr ⊢
  unfold Reg.queCtrl at ha
  generalize hR : (if bit w 0 then hwmClr i s else s) = R
  rw [State.regWrite, hr]
  dsimp only
  repeat' first | rw [if_neg (by omega)] | rw [if_pos (by omega)]
  unfold State.writeQue
  dsimp only [List.headD_cons, List.getD_cons_zero, List.getD_cons_succ, Reg.queCtrl, Reg.quePush]
  repeat' first | exact hR | rw [if_pos (by first | exact ha | rfl)] | rw [if_neg (by omega)]

theorem regRow_fstSlipCommit (i : Nat) (hi : i < 1024) : regRow? (Reg.fstSlipCommit i) = some (⟨"FST_SLIP_nnnn_COMMIT", .wo, 0xA00014, [(1024, 0x40)], 0x0, 0x0, 0x0⟩, [i]) := by
  obtain ⟨a, ha⟩ : ∃ a, a = Reg.fstSlipCommit i := ⟨_, rfl⟩
  rw [← ha]; unfold Reg.fstSlipCommit at ha
  rw [regRow?, if_neg (unused_neg (by omega)), rowsOf_tabRows (by omega) (by omega)]
  simp (disch := omega) only [tabRows, tabRows0, tabRows1, List.cons_append, List.nil_append, skip0, skip1, skip2]
  exact hit1 i ha hi (by omega)

theorem regWrite_fstSlipCommit (s : State) (m : Master) (i : Nat) (w : Word) (hi : i < 1024) : s.regWrite m (Reg.fstSlipCommit i) w = if bit w 0 then slipCommit i s else s := by
  have hr := regRow_fstSlipCommit i hi
  obtain ⟨a, ha⟩ : ∃ a, a = Reg.fstSlipCommit i := ⟨_, rfl⟩
  rw [← ha] at hr ⊢
  unfold Reg.fstSlipCommit at ha
  generalize hR : (if bit w 0 then slipCommit i s else s) = R
  rw [State.regWrite, hr]
  dsimp only
  repeat' first | rw [if_neg (by omega)] | rw [if_pos (by omega)]
  unfold State.writeTables
  dsimp only [List.headD_cons, List.getD_cons_zero, List.getD_cons_succ, Reg.fstSlipCommit, Reg.msixTableWord, Reg.xformWord, Reg.xtbArmCtrl, Reg.xtbEntryWord]
  repeat' first | exact hR | rw [if_pos (by first | exact ha | rfl)] | rw [if_neg (by omega)]

theorem regRow_audCommit : regRow? Reg.audCommit = some (⟨"AUD_COMMIT", .wo, 0x80008, [], 0x0, 0x0, 0x0⟩, []) := by
  obtain ⟨a, ha⟩ : ∃ a, a = Reg.audCommit := ⟨_, rfl⟩
  rw [← ha]; unfold Reg.audCommit at ha
  rw [regRow?, if_neg (unused_neg (by omega)), rowsOf_audRows (by omega) (by omega)]
  simp (disch := omega) only [audRows, skip0, skip1, skip2]
  exact hit0 ha

theorem regWrite_audCommit (s : State) (m : Master) (w : Word) : s.regWrite m Reg.audCommit w = audCommit w s := by
  have hr := regRow_audCommit 
  obtain ⟨a, ha⟩ : ∃ a, a = Reg.audCommit := ⟨_, rfl⟩
  rw [← ha] at hr ⊢
  unfold Reg.audCommit at ha
  rw [State.regWrite, hr]
  dsimp only
  repeat' first | rw [if_neg (by omega)] | rw [if_pos (by omega)]
  unfold State.writeMid
  dsimp only [List.headD_cons, List.getD_cons_zero, List.getD_cons_succ, Reg.audCommit, Reg.lgtChCtrl, Reg.nvsCmd]
  repeat' first | rw [if_pos (by first | exact ha | rfl)] | rw [if_neg (by omega)]

theorem regRow_lgtChCtrl (i : Nat) (hi : i < 48) : regRow? (Reg.lgtChCtrl i) = some (⟨"LGT_CH_nn_CTRL", .wo, 0x90110, [(48, 0x20)], 0x0, 0x0, 0x0⟩, [i]) := by
  obtain ⟨a, ha⟩ : ∃ a, a = Reg.lgtChCtrl i := ⟨_, rfl⟩
  rw [← ha]; unfold Reg.lgtChCtrl at ha
  rw [regRow?, if_neg (unused_neg (by omega)), rowsOf_lgtRows (by omega) (by omega)]
  simp (disch := omega) only [lgtRows, skip0, skip1]
  exact hit1 i ha hi (by omega)

theorem regWrite_lgtChCtrl (s : State) (m : Master) (i : Nat) (w : Word) (hi : i < 48) : s.regWrite m (Reg.lgtChCtrl i) w = retest i w s := by
  have hr := regRow_lgtChCtrl i hi
  obtain ⟨a, ha⟩ : ∃ a, a = Reg.lgtChCtrl i := ⟨_, rfl⟩
  rw [← ha] at hr ⊢
  unfold Reg.lgtChCtrl at ha
  rw [State.regWrite, hr]
  dsimp only
  repeat' first | rw [if_neg (by omega)] | rw [if_pos (by omega)]
  unfold State.writeMid
  dsimp only [List.headD_cons, List.getD_cons_zero, List.getD_cons_succ, Reg.audCommit, Reg.lgtChCtrl, Reg.nvsCmd]
  repeat' first | rw [if_pos (by first | exact ha | rfl)] | rw [if_neg (by omega)]

theorem regRow_nvsCmd : regRow? Reg.nvsCmd = some (⟨"NVS_CMD", .wo, 0xA0004, [], 0x0, 0x0, 0x0⟩, []) := by
  obtain ⟨a, ha⟩ : ∃ a, a = Reg.nvsCmd := ⟨_, rfl⟩
  rw [← ha]; unfold Reg.nvsCmd at ha
  rw [regRow?, if_neg (unused_neg (by omega)), rowsOf_nvsRows (by omega) (by omega)]
  simp (disch := omega) only [nvsRows, skip0, skip1]
  exact hit0 ha

theorem regWrite_nvsCmd (s : State) (m : Master) (w : Word) : s.regWrite m Reg.nvsCmd w = s.nvsCmdWrite w := by
  have hr := regRow_nvsCmd 
  obtain ⟨a, ha⟩ : ∃ a, a = Reg.nvsCmd := ⟨_, rfl⟩
  rw [← ha] at hr ⊢
  unfold Reg.nvsCmd at ha
  rw [State.regWrite, hr]
  dsimp only
  repeat' first | rw [if_neg (by omega)] | rw [if_pos (by omega)]
  unfold State.writeMid
  dsimp only [List.headD_cons, List.getD_cons_zero, List.getD_cons_succ, Reg.audCommit, Reg.lgtChCtrl, Reg.nvsCmd]
  repeat' first | rw [if_pos (by first | exact ha | rfl)] | rw [if_neg (by omega)]

theorem regRow_thmWarn : regRow? Reg.thmWarn = some (⟨"THM_WARN", .rw, 0x40008, [], 0xFFF, 0x0, 0x56E⟩, []) := by
  obtain ⟨a, ha⟩ : ∃ a, a = Reg.thmWarn := ⟨_, rfl⟩
  rw [← ha]; unfold Reg.thmWarn at ha
  rw [regRow?, if_neg (unused_neg (by omega)), rowsOf_thmRows (by omega) (by omega)]
  simp (disch := omega) only [thmRows, skip0, skip1]
  exact hit0 ha

theorem regWrite_thmWarn (s : State) (m : Master) (w : Word) : s.regWrite m Reg.thmWarn w = thresholdWrite .warn w s := by
  have hr := regRow_thmWarn 
  obtain ⟨a, ha⟩ : ∃ a, a = Reg.thmWarn := ⟨_, rfl⟩
  rw [← ha] at hr ⊢
  unfold Reg.thmWarn at ha
  rw [State.regWrite, hr]
  dsimp only
  repeat' first | rw [if_neg (by omega)] | rw [if_pos (by omega)]
  unfold State.writeLow
  dsimp only [List.headD_cons, List.getD_cons_zero, List.getD_cons_succ, Reg.chtAmdCtrl, Reg.chtCtrl, Reg.chtFlashCtrl, Reg.chtOtpCtrl, Reg.chtOtpData, Reg.chtPushData, Reg.coxCtrl, Reg.coxRefCfg, Reg.coxRefQl, Reg.coxSel, Reg.coxSlewCtrl, Reg.coxSteer, Reg.coxSyncOut, Reg.coxWtr, Reg.dmaCtrl, Reg.evtRingCfg, Reg.evtRingRp, Reg.glbCntClear, Reg.glbIfHost, Reg.pwrReset, Reg.pwrSleepCfg, Reg.pwrWdtCfg, Reg.pwrWdtKick, Reg.synBandHi, Reg.synBandLo, Reg.synCtrl, Reg.thmShdn, Reg.thmThrot, Reg.thmWarn]
  repeat' first | rw [if_pos (by first | exact ha | rfl)] | rw [if_neg (by omega)]

theorem regRow_thmThrot : regRow? Reg.thmThrot = some (⟨"THM_THROT", .rw, 0x4000C, [], 0xFFF, 0x0, 0x576⟩, []) := by
  obtain ⟨a, ha⟩ : ∃ a, a = Reg.thmThrot := ⟨_, rfl⟩
  rw [← ha]; unfold Reg.thmThrot at ha
  rw [regRow?, if_neg (unused_neg (by omega)), rowsOf_thmRows (by omega) (by omega)]
  simp (disch := omega) only [thmRows, skip0, skip1]
  exact hit0 ha

theorem regWrite_thmThrot (s : State) (m : Master) (w : Word) : s.regWrite m Reg.thmThrot w = thresholdWrite .throt w s := by
  have hr := regRow_thmThrot 
  obtain ⟨a, ha⟩ : ∃ a, a = Reg.thmThrot := ⟨_, rfl⟩
  rw [← ha] at hr ⊢
  unfold Reg.thmThrot at ha
  rw [State.regWrite, hr]
  dsimp only
  repeat' first | rw [if_neg (by omega)] | rw [if_pos (by omega)]
  unfold State.writeLow
  dsimp only [List.headD_cons, List.getD_cons_zero, List.getD_cons_succ, Reg.chtAmdCtrl, Reg.chtCtrl, Reg.chtFlashCtrl, Reg.chtOtpCtrl, Reg.chtOtpData, Reg.chtPushData, Reg.coxCtrl, Reg.coxRefCfg, Reg.coxRefQl, Reg.coxSel, Reg.coxSlewCtrl, Reg.coxSteer, Reg.coxSyncOut, Reg.coxWtr, Reg.dmaCtrl, Reg.evtRingCfg, Reg.evtRingRp, Reg.glbCntClear, Reg.glbIfHost, Reg.pwrReset, Reg.pwrSleepCfg, Reg.pwrWdtCfg, Reg.pwrWdtKick, Reg.synBandHi, Reg.synBandLo, Reg.synCtrl, Reg.thmShdn, Reg.thmThrot, Reg.thmWarn]
  repeat' first | rw [if_pos (by first | exact ha | rfl)] | rw [if_neg (by omega)]

theorem regRow_thmShdn : regRow? Reg.thmShdn = some (⟨"THM_SHDN", .rw, 0x40010, [], 0x1FFF, 0x0, 0xF82⟩, []) := by
  obtain ⟨a, ha⟩ : ∃ a, a = Reg.thmShdn := ⟨_, rfl⟩
  rw [← ha]; unfold Reg.thmShdn at ha
  rw [regRow?, if_neg (unused_neg (by omega)), rowsOf_thmRows (by omega) (by omega)]
  simp (disch := omega) only [thmRows, skip0, skip1]
  exact hit0 ha

theorem regWrite_thmShdn (s : State) (m : Master) (w : Word) : s.regWrite m Reg.thmShdn w = thresholdWrite .shdn w s := by
  have hr := regRow_thmShdn 
  obtain ⟨a, ha⟩ : ∃ a, a = Reg.thmShdn := ⟨_, rfl⟩
  rw [← ha] at hr ⊢
  unfold Reg.thmShdn at ha
  rw [State.regWrite, hr]
  dsimp only
  repeat' first | rw [if_neg (by omega)] | rw [if_pos (by omega)]
  unfold State.writeLow
  dsimp only [List.headD_cons, List.getD_cons_zero, List.getD_cons_succ, Reg.chtAmdCtrl, Reg.chtCtrl, Reg.chtFlashCtrl, Reg.chtOtpCtrl, Reg.chtOtpData, Reg.chtPushData, Reg.coxCtrl, Reg.coxRefCfg, Reg.coxRefQl, Reg.coxSel, Reg.coxSlewCtrl, Reg.coxSteer, Reg.coxSyncOut, Reg.coxWtr, Reg.dmaCtrl, Reg.evtRingCfg, Reg.evtRingRp, Reg.glbCntClear, Reg.glbIfHost, Reg.pwrReset, Reg.pwrSleepCfg, Reg.pwrWdtCfg, Reg.pwrWdtKick, Reg.synBandHi, Reg.synBandLo, Reg.synCtrl, Reg.thmShdn, Reg.thmThrot, Reg.thmWarn]
  repeat' first | rw [if_pos (by first | exact ha | rfl)] | rw [if_neg (by omega)]

theorem regRow_pwrReset : regRow? Reg.pwrReset = some (⟨"PWR_RESET", .wo, 0x50008, [], 0x0, 0x0, 0x0⟩, []) := by
  obtain ⟨a, ha⟩ : ∃ a, a = Reg.pwrReset := ⟨_, rfl⟩
  rw [← ha]; unfold Reg.pwrReset at ha
  rw [regRow?, if_neg (unused_neg (by omega)), rowsOf_pwrRows (by omega) (by omega)]
  simp (disch := omega) only [pwrRows, skip0]
  exact hit0 ha

theorem regWrite_pwrReset (s : State) (m : Master) (w : Word) : s.regWrite m Reg.pwrReset w = if m.isHost then pwrResetWrite w s else s := by
  have hr := regRow_pwrReset 
  obtain ⟨a, ha⟩ : ∃ a, a = Reg.pwrReset := ⟨_, rfl⟩
  rw [← ha] at hr ⊢
  unfold Reg.pwrReset at ha
  generalize hR : (if m.isHost then pwrResetWrite w s else s) = R
  rw [State.regWrite, hr]
  dsimp only
  repeat' first | rw [if_neg (by omega)] | rw [if_pos (by omega)]
  unfold State.writeLow
  dsimp only [List.headD_cons, List.getD_cons_zero, List.getD_cons_succ, Reg.chtAmdCtrl, Reg.chtCtrl, Reg.chtFlashCtrl, Reg.chtOtpCtrl, Reg.chtOtpData, Reg.chtPushData, Reg.coxCtrl, Reg.coxRefCfg, Reg.coxRefQl, Reg.coxSel, Reg.coxSlewCtrl, Reg.coxSteer, Reg.coxSyncOut, Reg.coxWtr, Reg.dmaCtrl, Reg.evtRingCfg, Reg.evtRingRp, Reg.glbCntClear, Reg.glbIfHost, Reg.pwrReset, Reg.pwrSleepCfg, Reg.pwrWdtCfg, Reg.pwrWdtKick, Reg.synBandHi, Reg.synBandLo, Reg.synCtrl, Reg.thmShdn, Reg.thmThrot, Reg.thmWarn]
  repeat' first | exact hR | rw [if_pos (by first | exact ha | rfl)] | rw [if_neg (by omega)]

theorem regRow_pwrWdtCfg : regRow? Reg.pwrWdtCfg = some (⟨"PWR_WDT_CFG", .rw, 0x50010, [], 0x8000FFFF, 0x0, 0x3E8⟩, []) := by
  obtain ⟨a, ha⟩ : ∃ a, a = Reg.pwrWdtCfg := ⟨_, rfl⟩
  rw [← ha]; unfold Reg.pwrWdtCfg at ha
  rw [regRow?, if_neg (unused_neg (by omega)), rowsOf_pwrRows (by omega) (by omega)]
  simp (disch := omega) only [pwrRows, skip0]
  exact hit0 ha

theorem regWrite_pwrWdtCfg (s : State) (m : Master) (w : Word) : s.regWrite m Reg.pwrWdtCfg w = wdtCfgWrite w s := by
  have hr := regRow_pwrWdtCfg 
  obtain ⟨a, ha⟩ : ∃ a, a = Reg.pwrWdtCfg := ⟨_, rfl⟩
  rw [← ha] at hr ⊢
  unfold Reg.pwrWdtCfg at ha
  rw [State.regWrite, hr]
  dsimp only
  repeat' first | rw [if_neg (by omega)] | rw [if_pos (by omega)]
  unfold State.writeLow
  dsimp only [List.headD_cons, List.getD_cons_zero, List.getD_cons_succ, Reg.chtAmdCtrl, Reg.chtCtrl, Reg.chtFlashCtrl, Reg.chtOtpCtrl, Reg.chtOtpData, Reg.chtPushData, Reg.coxCtrl, Reg.coxRefCfg, Reg.coxRefQl, Reg.coxSel, Reg.coxSlewCtrl, Reg.coxSteer, Reg.coxSyncOut, Reg.coxWtr, Reg.dmaCtrl, Reg.evtRingCfg, Reg.evtRingRp, Reg.glbCntClear, Reg.glbIfHost, Reg.pwrReset, Reg.pwrSleepCfg, Reg.pwrWdtCfg, Reg.pwrWdtKick, Reg.synBandHi, Reg.synBandLo, Reg.synCtrl, Reg.thmShdn, Reg.thmThrot, Reg.thmWarn]
  repeat' first | rw [if_pos (by first | exact ha | rfl)] | rw [if_neg (by omega)]

theorem regRow_pwrWdtKick : regRow? Reg.pwrWdtKick = some (⟨"PWR_WDT_KICK", .wo, 0x50014, [], 0x0, 0x0, 0x0⟩, []) := by
  obtain ⟨a, ha⟩ : ∃ a, a = Reg.pwrWdtKick := ⟨_, rfl⟩
  rw [← ha]; unfold Reg.pwrWdtKick at ha
  rw [regRow?, if_neg (unused_neg (by omega)), rowsOf_pwrRows (by omega) (by omega)]
  simp (disch := omega) only [pwrRows, skip0]
  exact hit0 ha

theorem regWrite_pwrWdtKick (s : State) (m : Master) (w : Word) : s.regWrite m Reg.pwrWdtKick w = wdtKickWrite w s := by
  have hr := regRow_pwrWdtKick 
  obtain ⟨a, ha⟩ : ∃ a, a = Reg.pwrWdtKick := ⟨_, rfl⟩
  rw [← ha] at hr ⊢
  unfold Reg.pwrWdtKick at ha
  rw [State.regWrite, hr]
  dsimp only
  repeat' first | rw [if_neg (by omega)] | rw [if_pos (by omega)]
  unfold State.writeLow
  dsimp only [List.headD_cons, List.getD_cons_zero, List.getD_cons_succ, Reg.chtAmdCtrl, Reg.chtCtrl, Reg.chtFlashCtrl, Reg.chtOtpCtrl, Reg.chtOtpData, Reg.chtPushData, Reg.coxCtrl, Reg.coxRefCfg, Reg.coxRefQl, Reg.coxSel, Reg.coxSlewCtrl, Reg.coxSteer, Reg.coxSyncOut, Reg.coxWtr, Reg.dmaCtrl, Reg.evtRingCfg, Reg.evtRingRp, Reg.glbCntClear, Reg.glbIfHost, Reg.pwrReset, Reg.pwrSleepCfg, Reg.pwrWdtCfg, Reg.pwrWdtKick, Reg.synBandHi, Reg.synBandLo, Reg.synCtrl, Reg.thmShdn, Reg.thmThrot, Reg.thmWarn]
  repeat' first | rw [if_pos (by first | exact ha | rfl)] | rw [if_neg (by omega)]

theorem regRow_quayWwin : regRow? Reg.quayWwin = some (⟨"QUAY_WWIN", .rw, 0x60004, [], 0xF, 0x0, 0x0⟩, []) := by
  obtain ⟨a, ha⟩ : ∃ a, a = Reg.quayWwin := ⟨_, rfl⟩
  rw [← ha]; unfold Reg.quayWwin at ha
  rw [regRow?, if_neg (unused_neg (by omega)), rowsOf_quayRows (by omega) (by omega)]
  simp (disch := omega) only [quayRows, skip0, skip1, skip2]
  exact hit0 ha

theorem regWrite_quayWwin (s : State) (m : Master) (w : Word) : s.regWrite m Reg.quayWwin w = s.wr Reg.quayWwin (mergeMask (BitVec.ofNat 32 0xF) (s.rd Reg.quayWwin) w) := by
  have hr := regRow_quayWwin 
  obtain ⟨a, ha⟩ : ∃ a, a = Reg.quayWwin := ⟨_, rfl⟩
  rw [← ha] at hr ⊢
  unfold Reg.quayWwin at ha
  rw [State.regWrite, hr]
  dsimp only
  repeat' first | rw [if_neg (by omega)] | rw [if_pos (by omega)]
  unfold State.writeLow
  dsimp only [List.headD_cons, List.getD_cons_zero, List.getD_cons_succ, Reg.chtAmdCtrl, Reg.chtCtrl, Reg.chtFlashCtrl, Reg.chtOtpCtrl, Reg.chtOtpData, Reg.chtPushData, Reg.coxCtrl, Reg.coxRefCfg, Reg.coxRefQl, Reg.coxSel, Reg.coxSlewCtrl, Reg.coxSteer, Reg.coxSyncOut, Reg.coxWtr, Reg.dmaCtrl, Reg.evtRingCfg, Reg.evtRingRp, Reg.glbCntClear, Reg.glbIfHost, Reg.pwrReset, Reg.pwrSleepCfg, Reg.pwrWdtCfg, Reg.pwrWdtKick, Reg.synBandHi, Reg.synBandLo, Reg.synCtrl, Reg.thmShdn, Reg.thmThrot, Reg.thmWarn]
  repeat' first | rw [if_pos (by first | exact ha | rfl)] | rw [if_neg (by omega)]
  rw [State.plainWrite]

theorem regRow_dmaCtrl (i : Nat) (hi : i < 8) : regRow? (Reg.dmaCtrl i) = some (⟨"DMA_n_CTRL", .wo, 0x60400, [(8, 0x40)], 0x0, 0x0, 0x0⟩, [i]) := by
  obtain ⟨a, ha⟩ : ∃ a, a = Reg.dmaCtrl i := ⟨_, rfl⟩
  rw [← ha]; unfold Reg.dmaCtrl at ha
  rw [regRow?, if_neg (unused_neg (by omega)), rowsOf_quayRows (by omega) (by omega)]
  simp (disch := omega) only [quayRows, skip0, skip1, skip2]
  exact hit1 i ha hi (by omega)

theorem regWrite_dmaCtrl (s : State) (m : Master) (i : Nat) (w : Word) (hi : i < 8) : s.regWrite m (Reg.dmaCtrl i) w = dmaCtrlWrite i w s := by
  have hr := regRow_dmaCtrl i hi
  obtain ⟨a, ha⟩ : ∃ a, a = Reg.dmaCtrl i := ⟨_, rfl⟩
  rw [← ha] at hr ⊢
  unfold Reg.dmaCtrl at ha
  rw [State.regWrite, hr]
  dsimp only
  repeat' first | rw [if_neg (by omega)] | rw [if_pos (by omega)]
  unfold State.writeLow
  dsimp only [List.headD_cons, List.getD_cons_zero, List.getD_cons_succ, Reg.chtAmdCtrl, Reg.chtCtrl, Reg.chtFlashCtrl, Reg.chtOtpCtrl, Reg.chtOtpData, Reg.chtPushData, Reg.coxCtrl, Reg.coxRefCfg, Reg.coxRefQl, Reg.coxSel, Reg.coxSlewCtrl, Reg.coxSteer, Reg.coxSyncOut, Reg.coxWtr, Reg.dmaCtrl, Reg.evtRingCfg, Reg.evtRingRp, Reg.glbCntClear, Reg.glbIfHost, Reg.pwrReset, Reg.pwrSleepCfg, Reg.pwrWdtCfg, Reg.pwrWdtKick, Reg.synBandHi, Reg.synBandLo, Reg.synCtrl, Reg.thmShdn, Reg.thmThrot, Reg.thmWarn]
  repeat' first | rw [if_pos (by first | exact ha | rfl)] | rw [if_neg (by omega)]

theorem regRow_evtRingRp (i : Nat) (hi : i < 4) : regRow? (Reg.evtRingRp i) = some (⟨"EVT_RING_r_RP", .rw, 0x71010, [(4, 0x40)], 0xFFFF, 0x0, 0x0⟩, [i]) := by
  obtain ⟨a, ha⟩ : ∃ a, a = Reg.evtRingRp i := ⟨_, rfl⟩
  rw [← ha]; unfold Reg.evtRingRp at ha
  rw [regRow?, if_neg (unused_neg (by omega)), rowsOf_evtRows (by omega) (by omega)]
  simp (disch := omega) only [evtRows, skip0, skip1]
  exact hit1 i ha hi (by omega)

theorem regWrite_evtRingRp (s : State) (m : Master) (i : Nat) (w : Word) (hi : i < 4) : s.regWrite m (Reg.evtRingRp i) w = ringRpWrite i w s := by
  have hr := regRow_evtRingRp i hi
  obtain ⟨a, ha⟩ : ∃ a, a = Reg.evtRingRp i := ⟨_, rfl⟩
  rw [← ha] at hr ⊢
  unfold Reg.evtRingRp at ha
  rw [State.regWrite, hr]
  dsimp only
  repeat' first | rw [if_neg (by omega)] | rw [if_pos (by omega)]
  unfold State.writeLow
  dsimp only [List.headD_cons, List.getD_cons_zero, List.getD_cons_succ, Reg.chtAmdCtrl, Reg.chtCtrl, Reg.chtFlashCtrl, Reg.chtOtpCtrl, Reg.chtOtpData, Reg.chtPushData, Reg.coxCtrl, Reg.coxRefCfg, Reg.coxRefQl, Reg.coxSel, Reg.coxSlewCtrl, Reg.coxSteer, Reg.coxSyncOut, Reg.coxWtr, Reg.dmaCtrl, Reg.evtRingCfg, Reg.evtRingRp, Reg.glbCntClear, Reg.glbIfHost, Reg.pwrReset, Reg.pwrSleepCfg, Reg.pwrWdtCfg, Reg.pwrWdtKick, Reg.synBandHi, Reg.synBandLo, Reg.synCtrl, Reg.thmShdn, Reg.thmThrot, Reg.thmWarn]
  repeat' first | rw [if_pos (by first | exact ha | rfl)] | rw [if_neg (by omega)]

theorem regRow_evtRingCfg (i : Nat) (hi : i < 4) : regRow? (Reg.evtRingCfg i) = some (⟨"EVT_RING_r_CFG", .rw, 0x71008, [(4, 0x40)], 0xEF3FFFFF, 0x0, 0x0⟩, [i]) := by
  obtain ⟨a, ha⟩ : ∃ a, a = Reg.evtRingCfg i := ⟨_, rfl⟩
  rw [← ha]; unfold Reg.evtRingCfg at ha
  rw [regRow?, if_neg (unused_neg (by omega)), rowsOf_evtRows (by omega) (by omega)]
  simp (disch := omega) only [evtRows, skip0, skip1]
  exact hit1 i ha hi (by omega)

theorem regWrite_evtRingCfg (s : State) (m : Master) (i : Nat) (w : Word) (hi : i < 4) : s.regWrite m (Reg.evtRingCfg i) w = ringCfgWrite i w s := by
  have hr := regRow_evtRingCfg i hi
  obtain ⟨a, ha⟩ : ∃ a, a = Reg.evtRingCfg i := ⟨_, rfl⟩
  rw [← ha] at hr ⊢
  unfold Reg.evtRingCfg at ha
  rw [State.regWrite, hr]
  dsimp only
  repeat' first | rw [if_neg (by omega)] | rw [if_pos (by omega)]
  unfold State.writeLow
  dsimp only [List.headD_cons, List.getD_cons_zero, List.getD_cons_succ, Reg.chtAmdCtrl, Reg.chtCtrl, Reg.chtFlashCtrl, Reg.chtOtpCtrl, Reg.chtOtpData, Reg.chtPushData, Reg.coxCtrl, Reg.coxRefCfg, Reg.coxRefQl, Reg.coxSel, Reg.coxSlewCtrl, Reg.coxSteer, Reg.coxSyncOut, Reg.coxWtr, Reg.dmaCtrl, Reg.evtRingCfg, Reg.evtRingRp, Reg.glbCntClear, Reg.glbIfHost, Reg.pwrReset, Reg.pwrSleepCfg, Reg.pwrWdtCfg, Reg.pwrWdtKick, Reg.synBandHi, Reg.synBandLo, Reg.synCtrl, Reg.thmShdn, Reg.thmThrot, Reg.thmWarn]
  repeat' first | rw [if_pos (by first | exact ha | rfl)] | rw [if_neg (by omega)]

theorem regRow_glbCntClear : regRow? Reg.glbCntClear = some (⟨"GLB_CNT_CLEAR", .wo, 0x28, [], 0x0, 0x0, 0x0⟩, []) := by
  obtain ⟨a, ha⟩ : ∃ a, a = Reg.glbCntClear := ⟨_, rfl⟩
  rw [← ha]; unfold Reg.glbCntClear at ha
  rw [regRow?, if_neg (unused_neg (by omega)), rowsOf_glbRows (by omega) (by omega)]
  simp (disch := omega) only [glbRows, skip0, skip1]
  exact hit0 ha

theorem regWrite_glbCntClear (s : State) (m : Master) (w : Word) : s.regWrite m Reg.glbCntClear w = cntClearWrite w s := by
  have hr := regRow_glbCntClear 
  obtain ⟨a, ha⟩ : ∃ a, a = Reg.glbCntClear := ⟨_, rfl⟩
  rw [← ha] at hr ⊢
  unfold Reg.glbCntClear at ha
  rw [State.regWrite, hr]
  dsimp only
  repeat' first | rw [if_neg (by omega)] | rw [if_pos (by omega)]
  unfold State.writeLow
  dsimp only [List.headD_cons, List.getD_cons_zero, List.getD_cons_succ, Reg.chtAmdCtrl, Reg.chtCtrl, Reg.chtFlashCtrl, Reg.chtOtpCtrl, Reg.chtOtpData, Reg.chtPushData, Reg.coxCtrl, Reg.coxRefCfg, Reg.coxRefQl, Reg.coxSel, Reg.coxSlewCtrl, Reg.coxSteer, Reg.coxSyncOut, Reg.coxWtr, Reg.dmaCtrl, Reg.evtRingCfg, Reg.evtRingRp, Reg.glbCntClear, Reg.glbIfHost, Reg.pwrReset, Reg.pwrSleepCfg, Reg.pwrWdtCfg, Reg.pwrWdtKick, Reg.synBandHi, Reg.synBandLo, Reg.synCtrl, Reg.thmShdn, Reg.thmThrot, Reg.thmWarn]
  repeat' first | rw [if_pos (by first | exact ha | rfl)] | rw [if_neg (by omega)]

theorem regRow_glbIfHost : regRow? Reg.glbIfHost = some (⟨"GLB_IF_HOST", .rws, 0x8, [], 0xFFFFFFFF, 0x0, 0x0⟩, []) := by
  obtain ⟨a, ha⟩ : ∃ a, a = Reg.glbIfHost := ⟨_, rfl⟩
  rw [← ha]; unfold Reg.glbIfHost at ha
  rw [regRow?, if_neg (unused_neg (by omega)), rowsOf_glbRows (by omega) (by omega)]
  simp (disch := omega) only [glbRows, skip0, skip1]
  exact hit0 ha

theorem regWrite_glbIfHost (s : State) (m : Master) (w : Word) : s.regWrite m Reg.glbIfHost w = ifHostWrite w s := by
  have hr := regRow_glbIfHost 
  obtain ⟨a, ha⟩ : ∃ a, a = Reg.glbIfHost := ⟨_, rfl⟩
  rw [← ha] at hr ⊢
  unfold Reg.glbIfHost at ha
  rw [State.regWrite, hr]
  dsimp only
  repeat' first | rw [if_neg (by omega)] | rw [if_pos (by omega)]
  unfold State.writeLow
  dsimp only [List.headD_cons, List.getD_cons_zero, List.getD_cons_succ, Reg.chtAmdCtrl, Reg.chtCtrl, Reg.chtFlashCtrl, Reg.chtOtpCtrl, Reg.chtOtpData, Reg.chtPushData, Reg.coxCtrl, Reg.coxRefCfg, Reg.coxRefQl, Reg.coxSel, Reg.coxSlewCtrl, Reg.coxSteer, Reg.coxSyncOut, Reg.coxWtr, Reg.dmaCtrl, Reg.evtRingCfg, Reg.evtRingRp, Reg.glbCntClear, Reg.glbIfHost, Reg.pwrReset, Reg.pwrSleepCfg, Reg.pwrWdtCfg, Reg.pwrWdtKick, Reg.synBandHi, Reg.synBandLo, Reg.synCtrl, Reg.thmShdn, Reg.thmThrot, Reg.thmWarn]
  repeat' first | rw [if_pos (by first | exact ha | rfl)] | rw [if_neg (by omega)]

theorem regRow_headCommit (i : Nat) (hi : i < 64) : regRow? (Reg.headCommit i) = some (⟨"HEAD_nn_COMMIT", .wo, 0x200008, [(64, 0x4000)], 0x0, 0x0, 0x0⟩, [i]) := by
  obtain ⟨a, ha⟩ : ∃ a, a = Reg.headCommit i := ⟨_, rfl⟩
  rw [← ha]; unfold Reg.headCommit at ha
  rw [regRow?, if_neg (unused_neg (by omega)), rowsOf_hedRows (by omega) (by omega)]
  simp (disch := omega) only [hedRows, hedRows0, hedRows1, hedRows2, List.cons_append, List.nil_append, skip0, skip1, skip2]
  exact hit1 i ha hi (by omega)

theorem regWrite_headCommit (s : State) (m : Master) (i : Nat) (w : Word) (hi : i < 64) : s.regWrite m (Reg.headCommit i) w = headCommit i w s := by
  have hr := regRow_headCommit i hi
  obtain ⟨a, ha⟩ : ∃ a, a = Reg.headCommit i := ⟨_, rfl⟩
  rw [← ha] at hr ⊢
  unfold Reg.headCommit at ha
  rw [State.regWrite, hr]
  dsimp only
  repeat' first | rw [if_neg (by omega)] | rw [if_pos (by omega)]
  unfold State.writeHed
  dsimp only [List.headD_cons, List.getD_cons_zero, List.getD_cons_succ, Reg.headCommit, Reg.headLayGangway, Reg.hedSyncCommit]
  repeat' first | rw [if_pos (by first | exact ha | rfl)] | rw [if_neg (by omega)]

theorem regRow_hedSyncCommit : regRow? Reg.hedSyncCommit = some (⟨"HED_SYNC_COMMIT", .wo, 0x203F08, [], 0x0, 0x0, 0x0⟩, []) := by
  obtain ⟨a, ha⟩ : ∃ a, a = Reg.hedSyncCommit := ⟨_, rfl⟩
  rw [← ha]; unfold Reg.hedSyncCommit at ha
  rw [regRow?, if_neg (unused_neg (by omega)), rowsOf_hedRows (by omega) (by omega)]
  simp (disch := omega) only [hedRows, hedRows0, hedRows1, hedRows2, List.cons_append, List.nil_append, skip0, skip1, skip2]
  exact hit0 ha

theorem regWrite_hedSyncCommit (s : State) (m : Master) (w : Word) : s.regWrite m Reg.hedSyncCommit w = hedSyncCommit w s := by
  have hr := regRow_hedSyncCommit 
  obtain ⟨a, ha⟩ : ∃ a, a = Reg.hedSyncCommit := ⟨_, rfl⟩
  rw [← ha] at hr ⊢
  unfold Reg.hedSyncCommit at ha
  rw [State.regWrite, hr]
  dsimp only
  repeat' first | rw [if_neg (by omega)] | rw [if_pos (by omega)]
  unfold State.writeHed
  dsimp only [List.headD_cons, List.getD_cons_zero, List.getD_cons_succ, Reg.headCommit, Reg.headLayGangway, Reg.hedSyncCommit]
  repeat' first | rw [if_pos (by first | exact ha | rfl)] | rw [if_neg (by omega)]

theorem regRow_headLayGangway (i : Nat) (j : Nat) (hi : i < 64) (hj : j < 8) : regRow? (Reg.headLayGangway i j) = some (⟨"HEAD_nn_LAY_s_GANGWAY", .rw, 0x20101C, [(64, 0x4000), (8, 0x80)], 0xFFFFF, 0x0, 0x0⟩, [i, j]) := by
  obtain ⟨a, ha⟩ : ∃ a, a = Reg.headLayGangway i j := ⟨_, rfl⟩
  rw [← ha]; unfold Reg.headLayGangway at ha
  rw [regRow?, if_neg (unused_neg (by omega)), rowsOf_hedRows (by omega) (by omega)]
  simp (disch := omega) only [hedRows, hedRows0, hedRows1, hedRows2, List.cons_append, List.nil_append, skip0, skip1, skip2]
  exact hit2 i j ha hi hj (by omega) (by omega)

theorem regWrite_headLayGangway (s : State) (m : Master) (i : Nat) (j : Nat) (w : Word) (hi : i < 64) (hj : j < 8) : s.regWrite m (Reg.headLayGangway i j) w = gangwayWrite i j w s := by
  have hr := regRow_headLayGangway i j hi hj
  obtain ⟨a, ha⟩ : ∃ a, a = Reg.headLayGangway i j := ⟨_, rfl⟩
  rw [← ha] at hr ⊢
  unfold Reg.headLayGangway at ha
  rw [State.regWrite, hr]
  dsimp only
  repeat' first | rw [if_neg (by omega)] | rw [if_pos (by omega)]
  unfold State.writeHed
  dsimp only [List.headD_cons, List.getD_cons_zero, List.getD_cons_succ, Reg.headCommit, Reg.headLayGangway, Reg.hedSyncCommit]
  repeat' first | rw [if_pos (by first | exact ha | rfl)] | rw [if_neg (by omega)]
  rfl

/-! ### Writes that reach their register -/

theorem hostWrite_takes {s : State} {m : Master} {a : Nat} {w : Word} (h : s.takesWrite m a w) : hostWrite m a w s = s.regWrite m a w := by
  obtain ⟨-, h1, h2, h3, h4⟩ := h
  have e2 : (hostSide m && !s.running && !earlyAddr a) = false := by
    cases hm : hostSide m
    · simp
    · rcases h2 hm with h | h <;> simp [h]
  have e3 : (hostSide m && s.lockedWrite a w) = false := by
    cases hm : hostSide m
    · simp
    · simp [h3 hm]
  simp [hostWrite, h1, e2, e3, h4]

theorem regCommand_takes {s : State} {m : Master} {a : Nat} {w : Word} (h : s.takesWrite m a w) : regCommand m a w s = .next (s.regWrite m a w) := by
  rw [regCommand, onCore_up _ h.1.1 h.1.2, hostWrite_takes h]

end Sys2Proof.Machine
end

