-- ==== Sys2Proof/Laws/Sound.lean ====
section
/-! SUPPORT. What every operation that touches a memory keeps: the canonical form of the memories, the queue of commands, a programmed
key hash, and, but for the operations that program it, parameter storage. One lemma for each operation. -/

namespace Sys2Proof.Machine


/-- The memories of `k` have their canonical form. -/
def keptWf (k : Kept) : Bool :=
  nwf zeroByte k.1.1 && nwf zeroByte k.1.2.1 && nwf erasedByte k.1.2.2.1 && nwf erasedByte k.1.2.2.2.1 && nwf zeroByte k.1.2.2.2.2.1

/-- From `k` to `l` the canonical form stays, the queue stays, a programmed key hash stays, and, where `n` says so, parameter storage stays. -/
def Sound (n : Bool) (k l : Kept) : Prop :=
  (keptWf k = true → keptWf l = true) ∧ l.1.2.2.2.2.2 = k.1.2.2.2.2.2 ∧ (k.2.1.isSome = true → l.2 = k.2) ∧ (n = true → l.1.2.2.1 = k.1.2.2.1)

theorem Sound.refl (n : Bool) (k : Kept) : Sound n k k := ⟨id, rfl, fun _ => rfl, fun _ => rfl⟩

theorem wf_kept (s : State) : Memory.wf s = keptWf s.kept := rfl

theorem forAll_sound {α : Type} {n : Bool} {k : Kept} (l : List α) (g : α → State → State) (s : State)
    (h : ∀ a ∈ l, ∀ t, Sound n k t.kept → Sound n k (g a t).kept) (hs : Sound n k s.kept) : Sound n k (forAll l g s).kept :=
  forAll_keeps (fun t => Sound n k t.kept) g l s h hs

theorem foldl_sound {α β : Type} {n : Bool} {k : Kept} (π : β → State) (g : β → α → β) (l : List α) (b : β)
    (h : ∀ b a, Sound n k (π b).kept → Sound n k (π (g b a)).kept) (hs : Sound n k (π b).kept) : Sound n k (π (l.foldl g b)).kept := by
  induction l generalizing b with
  | nil => exact hs
  | cons a l ih => exact ih _ (h _ _ hs)

theorem onlyIf_sound {n : Bool} {k : Kept} (c : Bool) (g : State → State) (s : State) (h : Sound n k s.kept → Sound n k (g s).kept)
    (hs : Sound n k s.kept) : Sound n k (onlyIf c g s).kept := by cases c <;> [exact hs; exact h hs]

theorem Sound.of_memory {n : Bool} {k : Kept} {s t : State} (h : Sound n k s.kept) (hw : Memory.wf s = true → Memory.wf t = true)
    (hp : t.pending = s.pending) (ho : (t.loader.otpHash, t.loader.otpTest) = (s.loader.otpHash, s.loader.otpTest)) (hn : t.nvsMem = s.nvsMem) :
    Sound n k t.kept := by
  obtain ⟨h1, h2, h3, h4⟩ := h
  exact ⟨fun x => hw (h1 x), hp.trans h2, fun x => ho.trans (h3 x), fun x => hn.trans (h4 x)⟩

theorem Sound.of_nvs {k : Kept} {s t : State} (h : Sound false k s.kept) (hw : Memory.wf s = true → Memory.wf t = true)
    (hp : t.pending = s.pending) (ho : (t.loader.otpHash, t.loader.otpTest) = (s.loader.otpHash, s.loader.otpTest)) : Sound false k t.kept := by
  obtain ⟨h1, h2, h3, -⟩ := h
  exact ⟨fun x => hw (h1 x), hp.trans h2, fun x => ho.trans (h3 x), fun x => by cases x⟩

theorem Sound.of_work {n : Bool} {k : Kept} {s : State} {m : NMap Byte} (h : Sound n k s.kept) (hm : nwf zeroByte s.work = true → nwf zeroByte m = true) :
    Sound n k ({ s with work := m } : State).kept :=
  h.of_memory (fun hw => by rw [Memory.wf_iff] at hw ⊢; exact ⟨hw.1, hm hw.2.1, hw.2.2⟩) rfl rfl rfl

theorem Sound.of_fstore {n : Bool} {k : Kept} {s : State} {m : NMap Byte} (h : Sound n k s.kept)
    (hm : nwf zeroByte s.fstore = true → nwf zeroByte m = true) : Sound n k ({ s with fstore := m } : State).kept :=
  h.of_memory (fun hw => by rw [Memory.wf_iff] at hw ⊢; exact ⟨hm hw.1, hw.2⟩) rfl rfl rfl

theorem Sound.of_cflash {n : Bool} {k : Kept} {s : State} {m : NMap Byte} (h : Sound n k s.kept)
    (hm : nwf erasedByte s.cflash = true → nwf erasedByte m = true) : Sound n k ({ s with cflash := m } : State).kept :=
  h.of_memory (fun hw => by rw [Memory.wf_iff] at hw ⊢; exact ⟨hw.1, hw.2.1, hw.2.2.1, hm hw.2.2.2.1, hw.2.2.2.2⟩) rfl rfl rfl

theorem Sound.of_hostMem {n : Bool} {k : Kept} {s : State} {m : NMap Byte} (h : Sound n k s.kept)
    (hm : nwf zeroByte s.hostMem = true → nwf zeroByte m = true) : Sound n k ({ s with hostMem := m } : State).kept :=
  h.of_memory (fun hw => by rw [Memory.wf_iff] at hw ⊢; exact ⟨hw.1, hw.2.1, hw.2.2.1, hw.2.2.2.1, hm hw.2.2.2.2⟩) rfl rfl rfl

theorem Sound.of_kept {n : Bool} {k : Kept} {s t : State} (h : Sound n k s.kept) (h1 : t.kept = s.kept) : Sound n k t.kept := by
  rw [h1]; exact h

theorem Sound.ite {n : Bool} {k : Kept} {c : Prop} [Decidable c] {a b : State} (ha : Sound n k a.kept) (hb : Sound n k b.kept) :
    Sound n k (if c then a else b).kept := by split <;> assumption


@[simp] theorem State.landPage_sound {k : Kept} (s : State) (p : Nat × Nat × List Byte) (h : Sound false k s.kept) : Sound false k (s.landPage p).kept :=
  h.of_nvs (fun hw => landPage_wf s p hw) (by simp only [State.landPage, State.countPerf_pending]; split <;> rfl)
    (by simp only [State.landPage, State.countPerf_loader]; split <;> rfl)
@[simp] theorem nvsPageDone_sound {kk : Kept} (low : Bool) (s : State) (h : Sound false kk s.kept) : Sound false kk (nvsPageDone low s).kept := by
  unfold nvsPageDone
  split
  · exact h
  · rename_i j _
    dsimp only
    rw [State.onNvs_kept]
    have h1 := forAll_sound (j.left.take 1) (fun p t => t.landPage p) s (fun p _ t h => State.landPage_sound t p h) h
    split
    · simpa using h1
    · simpa using h1
@[simp] theorem keepFlushDone_sound {k : Kept} (s : State) (h : Sound false k s.kept) : Sound false k (keepFlushDone s).kept := by
  unfold keepFlushDone
  split
  · split
    · dsimp only
      rw [State.nextJob_kept, State.jobEnd_kept]
      exact forAll_sound _ _ _ (fun p _ t h => State.landPage_sound _ _ h) h
    · exact h
  · exact h
@[simp] theorem State.tearPage_sound {k : Kept} (s : State) (cut : PageCut) (h : Sound false k s.kept) : Sound false k (s.tearPage cut).kept := by
  refine h.of_nvs (fun hw => tearPage_wf s cut hw) ?_ ?_ <;> (unfold State.tearPage; dsimp only; (repeat' split) <;> rfl)
@[simp] theorem State.wipe_sound {n : Bool} {k : Kept} (s : State) (p : Nat → Bool) (h : Sound n k s.kept) : Sound n k (State.wipe s p).kept := by
  refine h.of_memory (fun hw => ?_) rfl rfl rfl
  rw [Memory.wf_iff] at hw ⊢
  refine ⟨?_, ?_, hw.2.2⟩
  · unfold State.wipe; dsimp only; split <;> [exact nwf_filter zeroByte _ _ hw.1; exact hw.1]
  · unfold State.wipe; dsimp only; split <;> [exact nwf_filter zeroByte _ _ hw.2.1; exact hw.2.1]
@[simp] theorem State.resetMatrix_sound {n : Bool} {k : Kept} (s : State) (warm : Bool) (h : Sound n k s.kept) : Sound n k (s.resetMatrix warm).kept := by
  have h1 : Sound n k (((s.wipe fun _ => true).resetRegs warm).nvsMatrixReset).kept := by simp [h]
  cases warm with
  | true => simp only [State.resetMatrix, if_true, State.warmKept_kept]; exact h1
  | false => exact h1
@[simp] theorem State.powerUp_sound {n : Bool} {k : Kept} (s : State) (cause : Nat) (h : Sound n k s.kept) : Sound n k (s.powerUp cause).kept := by
  unfold State.powerUp
  dsimp only
  rw [State.onPwr_kept, State.onPins_kept, State.setPg_kept, State.addCause_kept]
  exact h.of_memory (fun hw => by rw [Memory.wf_iff] at hw ⊢; exact ⟨rfl, rfl, hw.2.2⟩) rfl rfl rfl
@[simp] theorem State.wakeUp_sound {nn : Bool} {kk : Kept} (s : State) (h : Sound nn kk s.kept) : Sound nn kk (State.wakeUp s).kept := by
  simp [State.wakeUp, h]
@[simp] theorem State.wakeActive_sound {n : Bool} {k : Kept} (s : State) (h : Sound n k s.kept) : Sound n k (s.wakeActive).kept := by
  unfold State.wakeActive
  dsimp only
  (repeat' split) <;> simp [h]
@[simp] theorem pgRetry_sound {nn : Bool} {kk : Kept} (s : State) (h : Sound nn kk s.kept) : Sound nn kk (pgRetry s).kept := by
  unfold pgRetry
  (repeat' split) <;> simp [h]
@[simp] theorem supplyFault_sound {nn : Bool} {k : Kept} (n : Nat) (s : State) (h : Sound nn k s.kept) : Sound nn k (supplyFault n s).kept := by
  unfold supplyFault
  dsimp only
  (repeat' split) <;> simp [h]
@[simp] theorem supplyRestart_sound {nn : Bool} {kk : Kept} (s : State) (h : Sound nn kk s.kept) : Sound nn kk (supplyRestart s).kept := by
  unfold supplyRestart
  (repeat' split) <;> simp [h]
@[simp] theorem powerdownWakeRestart_sound {nn : Bool} {kk : Kept} (s : State) (h : Sound nn kk s.kept) : Sound nn kk (powerdownWakeRestart s).kept := by
  unfold powerdownWakeRestart
  (repeat' split) <;> simp [h]
@[simp] theorem State.keepSupplyReset_sound {n : Bool} {k : Kept} (s : State) (cause : Nat) (warm : Bool) (h : Sound n k s.kept) : Sound n k (State.keepSupplyReset s cause warm).kept := by
  simp [State.keepSupplyReset, h]
@[simp] theorem resetPinAssert_sound {n : Bool} {k : Kept} (s : State) (h : Sound n k s.kept) : Sound n k (resetPinAssert s).kept := by
  unfold resetPinAssert
  dsimp only
  (repeat' split) <;> simp [h]
@[simp] theorem wdtExpire_sound {n : Bool} {k : Kept} (s : State) (h : Sound n k s.kept) : Sound n k (wdtExpire s).kept := by
  unfold wdtExpire
  (repeat' split) <;> simp [h]
@[simp] theorem lockstepMismatch_sound {n : Bool} {k : Kept} (s : State) (h : Sound n k s.kept) : Sound n k (lockstepMismatch s).kept := by
  unfold lockstepMismatch
  (repeat' split) <;> simp [h]
@[simp] theorem pwrResetWrite_sound {n : Bool} {k : Kept} (v : Word) (s : State) (h : Sound n k s.kept) : Sound n k (pwrResetWrite v s).kept := by
  unfold pwrResetWrite
  (repeat' split) <;> simp [h]
@[simp] theorem wdtKickWrite_sound {n : Bool} {k : Kept} (v : Word) (s : State) (h : Sound n k s.kept) : Sound n k (wdtKickWrite v s).kept := by
  unfold wdtKickWrite
  (repeat' split) <;> simp [h]
@[simp] theorem State.powerFail_sound {n : Bool} {k : Kept} (s : State) (src : Nat) (h : Sound n k s.kept) : Sound n k (State.powerFail s src).kept := by
  unfold State.powerFail
  (repeat' split) <;> simp [h]
@[simp] theorem pfiFall_sound {n : Bool} {k : Kept} (s : State) (h : Sound n k s.kept) : Sound n k (pfiFall s).kept := by
  simp [pfiFall, h]
@[simp] theorem powerFailRestart_sound {nn : Bool} {kk : Kept} (s : State) (h : Sound nn kk s.kept) : Sound nn kk (powerFailRestart s).kept := by
  unfold powerFailRestart
  (repeat' split) <;> simp [h]
@[simp] theorem vddLdCollapse_sound {k : Kept} (cut : PageCut) (s : State) (h : Sound false k s.kept) : Sound false k (vddLdCollapse cut s).kept := by
  unfold vddLdCollapse
  split
  · exact h
  · have h1 : Sound false k (if s.pwr.ld = .running then s.tearPage cut else s).kept := Sound.ite (State.tearPage_sound _ _ h) h
    dsimp only
    generalize (if s.pwr.ld = .running then s.tearPage cut else s) = t at h1
    have h2 : Sound false k (((t.resetMatrix false).lightsOff).dropAll .asleep).kept := by simp [h1]
    exact h2.of_kept rfl
@[simp] theorem State.startSleep_sound {n : Bool} {k : Kept} (s : State) (lanes : List Nat) (h : Sound n k s.kept) : Sound n k (State.startSleep s lanes).kept := by
  simp [State.startSleep, h]
@[simp] theorem State.thermalShutdown_sound {n : Bool} {k : Kept} (s : State) (h : Sound n k s.kept) : Sound n k (State.thermalShutdown s).kept := by
  unfold State.thermalShutdown
  split
  · exact h
  · have h1 : Sound n k (((s.abortHost.resetMatrix false).lightsOff).addCause 4).kept := by simp [h]
    extract_lets now recent lock s1 s2 x3 s3
    have h2 : Sound n k s3.kept := by
      refine Sound.of_kept (s := s2) ?_ rfl
      simpa [s2, s1] using h1
    rw [State.signalPowerDown_kept]
    exact h2
@[simp] theorem thermalRestart_sound {nn : Bool} {kk : Kept} (s : State) (h : Sound nn kk s.kept) : Sound nn kk (thermalRestart s).kept := by
  unfold thermalRestart
  dsimp only
  (repeat' split) <;> simp [h]
@[simp] theorem State.lightDieStop_sound {k : Kept} (s : State) (h : Sound false k s.kept) : Sound false k s.lightDieStop.kept := by
  have h1 : Sound false k (((s.resetMatrix false).lightsOff).dropAll .asleep).kept := by simp [h]
  unfold State.lightDieStop
  generalize ((s.resetMatrix false).lightsOff).dropAll .asleep = t at h1
  dsimp only
  rw [State.onPwr_kept, State.onNvs_kept]
  split
  · exact forAll_sound _ _ _ (fun p _ t h => State.landPage_sound _ _ h) (by simpa using h1)
  · simpa using h1
@[simp] theorem thmSample_sound {n : Bool} {k : Kept} (temps : List Sensed) (s : State) (h : Sound n k s.kept) : Sound n k (thmSample temps s).kept := by
  unfold thmSample
  dsimp only
  (repeat' split) <;> simp [h]
@[simp] theorem State.storeLine_sound {n : Bool} {k : Kept} (s : State) (q j l i : Nat) (bs : List Byte) (h : Sound n k s.kept) :
    Sound n k (s.storeLine q j l i bs).kept := by
  unfold State.storeLine
  rw [State.moveBeats_kept]
  exact h.of_fstore fun hm => foldl_nset_wf zeroByte _ _ _ _ hm
@[simp] theorem State.placeBlocks_sound {nn : Bool} {kk : Kept} (s : State) (k : Nat) (j : Nat) (l : Nat) (b : Nat) (ws : List Lane) (h : Sound nn kk s.kept) : Sound nn kk (State.placeBlocks s k j l b ws).kept := by
  unfold State.placeBlocks
  dsimp only
  repeat' first | assumption | (simp; done) | (simp [*]; done) | (refine forAll_sound _ _ _ (fun _ _ _ _ => ?_) ?_)
@[simp] theorem State.placeWords_sound {nn : Bool} {kk : Kept} (s : State) (k : Nat) (j : Nat) (l : Nat) (part : Nat) (ws : List Lane) (h : Sound nn kk s.kept) : Sound nn kk (State.placeWords s k j l part ws).kept := by
  unfold State.placeWords
  (repeat' split) <;> simp [h]
@[simp] theorem State.slipPlace_sound {nn : Bool} {kk : Kept} (s : State) (k : Nat) (frame : Nat) (l : Nat) (part : Nat) (ws : List Lane) (h : Sound nn kk s.kept) : Sound nn kk (State.slipPlace s k frame l part ws).kept := by
  unfold State.slipPlace
  (repeat' split) <;> simp [h]
@[simp] theorem State.slipPacket_sound {nn : Bool} {kk : Kept} (s : State) (k : Nat) (frame : Nat) (l : Nat) (part : Nat) (start : Bool) (eof : Bool) (ws : List Lane) (h : Sound nn kk s.kept) : Sound nn kk (State.slipPacket s k frame l part start eof ws).kept := by
  simp [State.slipPacket, h]
@[simp] theorem engHeldWrite_sound {n : Bool} {k : Kept} (e : Nat) (s : State) (h : Sound n k s.kept) : Sound n k (engHeldWrite e s).kept := by
  unfold engHeldWrite
  split
  · exact h
  · dsimp only
    rw [State.onEng_kept]
    exact h.of_work fun hm => foldl_writeBytes_wf zeroByte (fun w : Nat × List Byte => w.1) (fun w => w.2) _ _ hm
@[simp] theorem thmSampleAll_sound {n : Bool} {k : Kept} (temps : List Sensed) (s : State) (h : Sound n k s.kept) : Sound n k (thmSampleAll temps s).kept := by
  simp [thmSampleAll, h]
@[simp] theorem State.unplace_sound {n : Bool} {k : Kept} (s : State) (keep : Bool) (h : Sound n k s.kept) : Sound n k (State.unplace s keep).kept := by
  simp [State.unplace, h]
@[simp] theorem State.placeKernel_sound {n : Bool} {k : Kept} (s : State) (typ : Nat) (i : KernelImage) (h : Sound n k s.kept) :
    Sound n k (s.placeKernel typ i).kept :=
  forAll_sound _ _ _ (fun e _ t h => by
    dsimp only
    rw [State.onEng_kept]
    exact Sound.of_work (s := t.fills typ false (e.val * 0x10000 + i.addr) i.bytes.length) (by simpa using h)
      fun hm => writeBytes_wf zeroByte _ _ _ hm) h
@[simp] theorem State.placePreload_sound {n : Bool} {k : Kept} (s : State) (typ q : Nat) (lines : List (List Lane)) (h : Sound n k s.kept) :
    Sound n k (s.placePreload typ q lines).kept := by
  unfold State.placePreload
  dsimp only
  rw [State.showSlip_kept]
  exact forAll_sound _ _ _ (fun e _ t h => State.placeWords_sound _ _ _ _ _ _ h) (by simpa using h)
@[simp] theorem State.placeContent_sound {n : Bool} {k : Kept} (s : State) (typ : Nat) (c : SegContent) (h : Sound n k s.kept) :
    Sound n k (s.placeContent typ c).kept := by
  unfold State.placeContent
  extract_lets s1 s2 x1 s3 s4 x2 s5 s6 s7 s8 s9
  have h2 : Sound n k s2.kept := by simpa [s2, s1] using h
  clear_value s2
  have h3 : Sound n k s3.kept := h2.of_kept rfl
  clear_value s3
  have h5 : Sound n k s5.kept := by
    have : Sound n k s4.kept := h3.of_kept rfl
    exact this.of_kept rfl
  clear_value s5
  have h6 : Sound n k s6.kept := forAll_sound _ _ _ (fun _ _ t h => State.placeKernel_sound _ _ _ h) h5
  clear_value s6
  have h7 : Sound n k s7.kept := forAll_sound _ _ _ (fun _ _ t h => State.placePreload_sound _ _ _ _ h) h6
  clear_value s7
  have h9 : Sound n k s9.kept := by simpa [s9, s8] using h7
  clear_value s9
  split
  · simpa using h9
  · exact h9
@[simp] theorem State.enterFirstLight_sound {nn : Bool} {kk : Kept} (s : State) (c : SegContent) (h : Sound nn kk s.kept) : Sound nn kk (State.enterFirstLight s c).kept := by
  simp [State.enterFirstLight, h]
@[simp] theorem State.undoFirstLight_sound {n : Bool} {k : Kept} (s : State) (h : Sound n k s.kept) : Sound n k s.undoFirstLight.kept := by
  unfold State.undoFirstLight
  extract_lets old ents x1 s1 s2 s3 x2
  have h1 : Sound n k s1.kept := by
    simp only [s1]
    rw [forAll_kept _ _ _ fun _ _ _ => by simp]
    exact h.of_kept (kept_with_any ..)
  clear_value s1
  have h2 : Sound n k s2.kept := by
    simp only [s2, State.bandsPlaced_kept]
    exact (State.wipe_sound _ _ (by simpa using h1)).of_kept (State.onLoader_kept _ _ (fun _ => rfl) (fun _ => rfl))
  clear_value s2
  have h3 : Sound n k s3.kept := by
    simp only [s3]
    rw [forAll_kept _ _ _ fun _ _ _ => by split <;> simp]
    exact h2
  clear_value s3
  exact h3.of_kept (kept_with_any ..)
@[simp] theorem State.applyGolden_sound {n : Bool} {k : Kept} (s : State) (c : SegContent) (h : Sound n k s.kept) : Sound n k (State.applyGolden s c).kept := by
  have h1 : Sound n k (s.undoFirstLight.placeContent 1 c).kept := State.placeContent_sound _ _ _ (State.undoFirstLight_sound s h)
  simpa [State.applyGolden] using h1
@[simp] theorem State.enterFailed_sound {n : Bool} {k : Kept} (s : State) (code : Nat) (typ : Nat) (h : Sound n k s.kept) : Sound n k (State.enterFailed s code typ).kept := by
  simp [State.enterFailed, h]
@[simp] theorem State.loadFail_sound {n : Bool} {k : Kept} (s : State) (code : Nat) (typ : Nat) (h : Sound n k s.kept) : Sound n k (State.loadFail s code typ).kept := by
  unfold State.loadFail
  (repeat' split) <;> simp [h]
@[simp] theorem headerRead_sound {n : Bool} {k : Kept} (got : Option (List Byte)) (s : State) (h : Sound n k s.kept) : Sound n k (headerRead got s).kept := by
  unfold headerRead
  split
  · exact h
  · dsimp only
    refine Sound.ite (State.loadFail_sound _ _ _ h) ?_
    rw [State.setF_kept]
    exact h.of_kept (State.onLoader_kept _ _ (fun _ => rfl) (fun _ => rfl))
@[simp] theorem segmentRead_sound {n : Bool} {k : Kept} (got : Option (List Byte)) (content : Option SegContent) (s : State) (h : Sound n k s.kept) :
    Sound n k (segmentRead got content s).kept := by
  unfold segmentRead
  split
  · split
    · exact h
    · refine Sound.ite h ?_
      extract_lets bs trust signed
      refine Sound.ite (State.loadFail_sound _ _ _ h) (Sound.ite (Sound.ite (State.loadFail_sound _ _ _ h) ?_) ?_)
      · refine Sound.of_kept (s := s.countErr Reg.chtRetryCnt 16 1) ?_ (State.onLoader_kept _ _ (fun _ => rfl) (fun _ => rfl))
        simpa using h
      · extract_lets others k c
        exact Sound.ite (State.loadFail_sound _ _ _ h) (h.of_kept (State.onLoader_kept _ _ (fun _ => rfl) (fun _ => rfl)))
  · exact h
@[simp] theorem segmentPlaced_sound {n : Bool} {k : Kept} (s : State) (h : Sound n k s.kept) : Sound n k (segmentPlaced s).kept := by
  unfold segmentPlaced
  extract_lets c
  split
  · split
    · exact h
    · extract_lets s1 s2
      have h1 : Sound n k s1.kept := by
        simp only [s1]
        split
        · split
          · split
            · exact h
            · simpa using h
          · exact State.enterFirstLight_sound _ _ h
        · split
          · exact h
          · rw [State.startClocks_kept]
            exact State.placeContent_sound _ _ _ h
      clear_value s1
      have h2 : Sound n k s2.kept := h1.of_kept (State.onLoader_kept _ _ (fun _ => rfl) (fun _ => rfl))
      clear_value s2
      split
      · rw [State.setF_kept]
        exact h2.of_kept (State.onLoader_kept _ _ (fun _ => rfl) (fun _ => rfl))
      · exact h2.of_kept (State.onLoader_kept _ _ (fun _ => rfl) (fun _ => rfl))
  · exact h
@[simp] theorem otpCtrlWrite_sound {n : Bool} {k : Kept} (w : Word) (s : State) (h : Sound n k s.kept) : Sound n k (otpCtrlWrite w s).kept := by
  unfold otpCtrlWrite
  extract_lets inTime s1
  have h1 : Sound n k s1.kept := by rw [show s1.kept = s.kept from rfl]; exact h
  split
  · exact h.of_kept rfl
  · clear_value s1
    split
    · rename_i hc
      obtain ⟨a, b, c, d⟩ := h1
      refine ⟨a, b, fun x => ?_, d⟩
      have := congrArg (·.1) (c x)
      have hn := hc.2.2.2.1
      rw [← this] at x
      simp only [State.kept] at x
      rw [Option.isNone_iff_eq_none] at hn
      rw [hn] at x
      cases x
    · exact h1
@[simp] theorem State.flashOp_sound {n : Bool} {k : Kept} (s : State) (op : Nat) (golden : Bool) (h : Sound n k s.kept) : Sound n k (s.flashOp op golden).kept := by
  unfold State.flashOp
  split
  · exact h
  · split
    · simpa using h
    · dsimp only
      split
      · exact (h.of_cflash fun hm => nwf_filter erasedByte _ _ hm).of_kept rfl
      · exact h.of_kept rfl
@[simp] theorem flashCtrlWrite_sound {nn : Bool} {kk : Kept} (w : Word) (s : State) (h : Sound nn kk s.kept) : Sound nn kk (flashCtrlWrite w s).kept := by
  unfold flashCtrlWrite
  dsimp only
  (repeat' split) <;> simp [h]
@[simp] theorem State.programByte_sound {n : Bool} {k : Kept} (s : State) (a : Nat) (b : Byte) (h : Sound n k s.kept) :
    Sound n k (s.programByte a b).kept := by
  have hf : Sound n k (s.fresh 8).2.kept := by simpa using h
  unfold State.programByte
  generalize s.fresh 8 = r at hf ⊢
  obtain ⟨v, t⟩ := r
  dsimp only at hf ⊢
  split
  · exact h.of_cflash fun hm => nwf_nset erasedByte _ _ _ hm
  · exact hf.of_cflash fun hm => nwf_nset erasedByte _ _ _ hm
@[simp] theorem State.flashWrite_sound {n : Bool} {k : Kept} (s : State) (a : Nat) (bs : List Byte) (h : Sound n k s.kept) :
    Sound n k (s.flashWrite a bs).kept := by
  unfold State.flashWrite
  extract_lets s1
  have h1 : Sound n k s1.kept := by simp only [s1]; split <;> simp [h]
  clear_value s1
  split
  · exact h1
  · exact forAll_sound _ _ _ (fun e _ t h => by split <;> [exact State.programByte_sound _ _ _ h; exact h]) h1
theorem State.issue_sound {n : Bool} {k : Kept} (s : State) (e : Nat) (op : EngOp) (f : EngFields) (g : State → State)
    (hg : ∀ t, Sound n k t.kept → Sound n k (g t).kept) (h : Sound n k s.kept) : Sound n k (s.issue e op f g).kept := by
  unfold State.issue
  (repeat' split)
  · exact hg _ h
  · simpa using h
  · exact h
theorem State.memory_sound {n : Bool} {k : Kept} (s : State) (e : Nat) (op : EngOp) (f : EngFields) (base c : Nat) (store : Bool) (g : State → State)
    (hg : ∀ t, Sound n k t.kept → Sound n k (g t).kept) (h : Sound n k s.kept) : Sound n k (s.memory e op f base c store g).kept := by
  unfold State.memory
  refine State.issue_sound _ _ _ _ _ (fun t h => ?_) h
  split
  · simpa using hg _ h
  · simpa using h
@[simp] theorem State.qinTake_sound {n : Bool} {k : Kept} (s : State) (e var sa words : Nat) (started : Bool) (st : Word) (r : Rec) (h : Sound n k s.kept) :
    Sound n k (s.qinTake e var sa words started st r).2.2.2.2.kept := by
  unfold State.qinTake
  dsimp only
  (repeat' split) <;> first | exact h | (simp; exact h) | exact h.of_work fun hm => putWords_wf _ _ _ _ hm
@[simp] theorem State.qinRun_sound {n : Bool} {k : Kept} (i : Nat) : ∀ (s : State) (e : Nat) (w : BitVec 64) (var dreg sa c : Nat) (started : Bool) (st : Word)
    (_ : Sound n k s.kept), Sound n k (State.qinRun i s e w var dreg sa c started st).kept := by
  induction i with
  | zero => intro s e w var dreg sa c started st h; simpa [State.qinRun] using h
  | succ i ih =>
    intro s e w var dreg sa c started st h
    unfold State.qinRun
    have hp : Sound n k (s.pop (s.dataQ false e)).2.kept := by simpa using h
    generalize s.pop (s.dataQ false e) = r at hp ⊢
    obtain ⟨o, u⟩ := r
    cases o with
    | none => simpa using hp
    | some r =>
      dsimp only at hp ⊢
      split
      · simpa using hp
      · have ht := State.qinTake_sound u e var sa c started st r hp
        generalize u.qinTake e var sa c started st r = x at ht ⊢
        obtain ⟨fin, c, started, st, v⟩ := x
        dsimp only at ht ⊢
        split
        · simpa using ht
        · exact ih _ _ _ _ _ _ _ _ _ ht
@[simp] theorem State.putLine_sound {n : Bool} {k : Kept} (s : State) (q j l off : Nat) (ws : List Lane) (h : Sound n k s.kept) :
    Sound n k (s.putLine q j l off ws).kept := by
  unfold State.putLine
  split
  · exact h
  · split
    · exact foldl_sound id _ _ _ (fun t w h => State.storeLine_sound _ _ _ _ _ _ h) h
    · split
      · exact h
      · exact State.placeBlocks_sound _ _ _ _ _ _ h
@[simp] theorem State.landOne_sound {n : Bool} {k : Kept} (s : State) (e : Nat) (p : Posted) (h : Sound n k s.kept) : Sound n k (s.landOne e p).kept := by
  unfold State.landOne
  dsimp only
  split <;> simp [h]
@[simp] theorem State.land_sound {n : Bool} {k : Kept} (s : State) (e : Nat) (h : Sound n k s.kept) : Sound n k (State.land s e).kept := by
  unfold State.land
  exact forAll_sound _ _ _ (fun p _ t h => State.landOne_sound t e p h) (by simpa using h)
@[simp] theorem engVst_sound {n : Bool} {k : Kept} (e : Nat) (f : EngFields) (s : State) (h : Sound n k s.kept) : Sound n k (engVst e f s).kept := by
  refine State.memory_sound s e .vst f _ 80 true _ (fun t h => ?_) h
  exact h.of_work fun hm => putWords_wf _ _ _ _ hm
@[simp] theorem engSst_sound {n : Bool} {k : Kept} (e : Nat) (f : EngFields) (s : State) (h : Sound n k s.kept) : Sound n k (engSst e f s).kept := by
  refine State.memory_sound s e .sst f _ 4 true _ (fun t h => ?_) h
  exact h.of_work fun hm => writeBytes_wf zeroByte _ _ _ hm
@[simp] theorem qinDataArrive_sound {n : Bool} {k : Kept} (e : Nat) (s : State) (h : Sound n k s.kept) : Sound n k (qinDataArrive e s).kept := by
  unfold qinDataArrive
  split
  · exact State.qinRun_sound _ _ _ _ _ _ _ _ _ _ h
  · exact h
@[simp] theorem postedWritesLanded_sound {n : Bool} {k : Kept} (e : Nat) (s : State) (h : Sound n k s.kept) : Sound n k (postedWritesLanded e s).kept := by
  unfold postedWritesLanded
  have := State.land_sound (n := n) (k := k) s e h
  dsimp only
  (repeat' split) <;> simp [this, h]
@[simp] theorem State.offerWords_sound {n : Bool} {k : Kept} (s : State) (q stream line : Nat) (first last eof : Bool) (at_ : Option Nat) (ws : List Lane)
    (h : Sound n k s.kept) : Sound n k (s.offerWords q stream line first last eof at_ ws).kept := by
  have hf : Sound n k (s.fresh 25).2.kept := by simpa using h
  unfold State.offerWords
  generalize s.fresh 25 = r at hf ⊢
  obtain ⟨v, t⟩ := r
  dsimp only at hf ⊢
  cases at_ with
  | some a => simpa using h
  | none =>
    dsimp only
    rw [State.pushLine_kept]
    split
    · exact hf.of_fstore fun hm => writeBytes_wf zeroByte _ _ _ hm
    · exact hf.of_work fun hm => writeBytes_wf zeroByte _ _ _ hm
@[simp] theorem State.deliverPart_sound {nn : Bool} {kk : Kept} (s : State) (c : Crossing) (j : Nat) (frame : Nat) (l : Nat) (part : Nat) (first : Bool) (last : Bool) (eof : Bool) (ws : List Lane) (h : Sound nn kk s.kept) : Sound nn kk (State.deliverPart s c j frame l part first last eof ws).kept := by
  unfold State.deliverPart
  (repeat' split) <;> simp [h]
@[simp] theorem State.deliverLine_sound {nn : Bool} {kk : Kept} (s : State) (c : Crossing) (j : Nat) (frame : Nat) (l : Nat) (eof : Bool) (ws : List Lane) (h : Sound nn kk s.kept) : Sound nn kk (State.deliverLine s c j frame l eof ws).kept := by
  unfold State.deliverLine
  dsimp only
  repeat' first | assumption | (simp; done) | (simp [*]; done) | (refine forAll_sound _ _ _ (fun _ _ _ _ => ?_) ?_)
@[simp] theorem State.passLine_sound {n : Bool} {k : Kept} (s : State) (e j frame l : Nat) (h : Sound n k s.kept) : Sound n k (s.passLine e j frame l).kept := by
  unfold State.passLine
  dsimp only
  split
  · exact forAll_sound _ _ _ (fun y _ t h => State.deliverLine_sound _ _ _ _ _ _ _ h) h
  · exact State.deliverLine_sound _ _ _ _ _ _ _ h
@[simp] theorem State.passOpen_sound {n : Bool} {k : Kept} (s : State) (e j : Nat) (due : Nat → Bool) (h : Sound n k s.kept) :
    Sound n k (s.passOpen e j due).kept := by
  unfold State.passOpen
  dsimp only
  exact forAll_sound _ _ _ (fun y _ t h => State.passLine_sound _ _ _ _ _ h) (h.of_kept (kept_with_any ..))
@[simp] theorem State.passFrame_sound {n : Bool} {k : Kept} (s : State) (e : Nat) (j : Nat) (h : Sound n k s.kept) : Sound n k (State.passFrame s e j).kept := by
  unfold State.passFrame
  dsimp only
  (repeat' split) <;> simp [h]
@[simp] theorem State.gather_sound {n : Bool} {k : Kept} (s : State) (e j frame l part : Nat) (ws : List Lane) (h : Sound n k s.kept) :
    Sound n k (s.gather e j frame l part ws).kept := by
  unfold State.gather
  extract_lets s1 x2 s2 open_ old got m x3 s3
  have h1 : Sound n k s1.kept := by
    simp only [s1]
    exact Sound.ite (State.passOpen_sound _ _ _ _ h) (State.passFrame_sound _ _ _ h)
  have h3 : Sound n k s3.kept := h1.of_kept (by simp only [s3, s2, kept_with_any])
  have last : ∀ (t : State) (m got : Nat), Sound n k t.kept → Sound n k (if got + 1 = 2 ^ m then t.passOpen e j (· == l) else t).kept :=
    fun t m got h => Sound.ite (State.passOpen_sound _ _ _ _ h) h
  exact last _ _ _ h3
@[simp] theorem State.crossVideo_sound {n : Bool} {k : Kept} (s : State) (e j : Nat) (p : Packet) (h : Sound n k s.kept) :
    Sound n k (s.crossVideo e j p).kept := by
  unfold State.crossVideo
  extract_lets c frame part eof s1
  split
  rename_i wx wy ww wh _
  extract_lets l s2 s3
  have h1 : Sound n k s1.kept := by
    simp only [s1]
    exact onlyIf_sound _ _ _ (by intro h; simpa using h) h
  clear_value s1
  have h2 : Sound n k s2.kept := by
    simp only [s2]
    split
    · exact h1
    · split
      · exact State.deliverPart_sound _ _ _ _ _ _ _ _ _ _ h1
      · exact State.gather_sound _ _ _ _ _ _ _ h1
  clear_value s2
  have h3 : Sound n k s3.kept := by
    simp only [s3]
    exact onlyIf_sound _ _ _ (fun h => State.passFrame_sound _ _ _ h) h2
  clear_value s3
  exact onlyIf_sound _ _ _ (by intro h; simpa using h) h3
@[simp] theorem State.crossLayer_sound {nn : Bool} {kk : Kept} (s : State) (e : Nat) (j : Nat) (p : Packet) (h : Sound nn kk s.kept) : Sound nn kk (State.crossLayer s e j p).kept := by
  unfold State.crossLayer
  dsimp only
  (repeat' split) <;> simp [h]
@[simp] theorem State.crossPacket_sound {n : Bool} {k : Kept} (s : State) (j : Nat) (p : Packet) (h : Sound n k s.kept) :
    Sound n k (s.crossPacket j p).kept := by
  unfold State.crossPacket
  refine forAll_sound _ _ _ (fun e _ t h => ?_) h
  dsimp only
  split
  · exact h
  · split
    · simpa using h
    · split
      · split
        · exact State.crossLayer_sound _ _ _ _ h
        · exact State.crossVideo_sound _ _ _ _ h
      · exact h
@[simp] theorem State.placePacket_sound {n : Bool} {k : Kept} (s : State) (p : Packet) (h : Sound n k s.kept) : Sound n k (State.placePacket s p).kept := by
  unfold State.placePacket
  dsimp only
  (repeat' split) <;> simp [h]
@[simp] theorem State.packetGood_sound {n : Bool} {k : Kept} (s : State) (q : Nat) (bs : List Byte) (h : Sound n k s.kept) :
    Sound n k (State.packetGood s q bs).kept := by
  unfold State.packetGood
  dsimp only
  (repeat' split) <;> simp [h]
@[simp] theorem State.arrive_sound {n : Bool} {k : Kept} (s : State) (q : Nat) (isMsg bad : Bool) (bs : List Byte) (h : Sound n k s.kept) :
    Sound n k (State.arrive s q isMsg bad bs).kept := by
  unfold State.arrive
  have hc := State.corrupted_kept s (s.lead q) false (bs.length + 2)
  generalize s.corrupted (s.lead q) false (bs.length + 2) = r at hc
  obtain ⟨_, flips, t⟩ := r
  dsimp only at hc ⊢
  have ht : Sound n k (onlyIf (flips ≠ 0) (fun t => t.countErr (Reg.prtCodeErr q) 24 flips) t).kept := by
    rw [onlyIf_kept _ _ _ (by simp), hc]
    exact h
  generalize onlyIf (flips ≠ 0) (fun t => t.countErr (Reg.prtCodeErr q) 24 flips) t = u at ht
  (repeat' split) <;> simp [ht]
@[simp] theorem packetReceived_sound {n : Bool} {k : Kept} (r : RxIn) (s : State) (h : Sound n k s.kept) : Sound n k (packetReceived r s).kept := by
  unfold packetReceived
  extract_lets q l s1
  split
  · exact h
  · have h1 : Sound n k s1.kept := by simpa [s1] using h
    clear_value s1
    split
    · exact h1
    · split
      · refine forAll_sound _ _ _ (fun b _ t h => State.arrive_sound _ _ _ _ _ h) ?_
        simpa using h1
      · exact State.arrive_sound _ _ _ _ _ h1
@[simp] theorem State.crewFrame_sound {n : Bool} {k : Kept} (s : State) (e q : Nat) (p : Pick) (h : Sound n k s.kept) : Sound n k (s.crewFrame e q p).kept := by
  unfold State.crewFrame
  dsimp only
  refine forAll_sound _ _ _ (fun l _ v h => ?_) h
  exact forAll_sound _ _ _ (fun x _ w h => State.offerWords_sound _ _ _ _ _ _ _ _ _ h) (by simpa using h)
@[simp] theorem State.crewInput_sound {n : Bool} {k : Kept} (s : State) (e q : Nat) (h : Sound n k s.kept) : Sound n k (s.crewInput e q).kept := by
  unfold State.crewInput
  have hk : (s.selectFrame q (s.crossing e).xform (crewReader e) (s.egress (crewReader e)).show_).2.kept = s.kept := by simp
  dsimp only
  generalize s.selectFrame q (s.crossing e).xform (crewReader e) (s.egress (crewReader e)).show_ = r at hk
  obtain ⟨o, u⟩ := r
  dsimp only at hk
  have hu : Sound n k u.kept := h.of_kept hk
  (repeat' split) <;> simp_all
@[simp] theorem State.crewSelect_sound {n : Bool} {k : Kept} (s : State) (h : Sound n k s.kept) : Sound n k s.crewSelect.kept := by
  refine forAll_sound _ _ _ (fun e _ t h => ?_) (by simpa using h)
  split <;> simp [h]
@[simp] theorem State.boundaryFirst_sound {n : Bool} {k : Kept} (s : State) (ps : List RefPhase) (h : Sound n k s.kept) :
    Sound n k (State.boundaryFirst s ps).kept := by
  unfold State.boundaryFirst
  extract_lets s1 s2 s3 s4
  have h1 : Sound n k s1.kept := by simpa [s1] using h
  clear_value s1
  have h2 : Sound n k s2.kept := by simp only [s2]; split <;> simp [h1]
  clear_value s2
  have h4 : Sound n k s4.kept := by simpa [s4, s3] using h2
  clear_value s4
  simpa using h4
@[simp] theorem State.boundaryMiddle_sound {n : Bool} {k : Kept} (s : State) (h : Sound n k s.kept) : Sound n k (State.boundaryMiddle s).kept := by
  simp [State.boundaryMiddle, h]
@[simp] theorem strokeBoundary_sound {nn : Bool} {kk : Kept} (ps : List RefPhase) (s : State) (h : Sound nn kk s.kept) : Sound nn kk (strokeBoundary ps s).kept := by
  unfold strokeBoundary
  (repeat' split) <;> simp [h]
@[simp] theorem sleepCfgWrite_sound {n : Bool} {k : Kept} (w : Word) (s : State) (h : Sound n k s.kept) : Sound n k (sleepCfgWrite w s).kept := by
  unfold sleepCfgWrite
  dsimp only
  (repeat' split) <;> simp [h]
@[simp] theorem sleepDelayExpiry_sound {n : Bool} {k : Kept} (s : State) (h : Sound n k s.kept) : Sound n k (sleepDelayExpiry s).kept := by
  unfold sleepDelayExpiry
  dsimp only
  (repeat' split) <;> simp [h]
@[simp] theorem sleepStayLimit_sound {n : Bool} {k : Kept} (s : State) (h : Sound n k s.kept) : Sound n k (sleepStayLimit s).kept := by
  unfold sleepStayLimit
  (repeat' split) <;> simp [h]
@[simp] theorem State.writeLow_sound {n : Bool} {k : Kept} (s : State) (m : Master) (r : RegRow) (i : List Nat) (a : Nat) (w : Word) (h : Sound n k s.kept) :
    Sound n k (s.writeLow m r i a w).kept := by
  unfold State.writeLow
  dsimp only
  repeat' with_reducible apply Sound.ite
  all_goals first | exact h | (simp [h]; done)
@[simp] theorem State.regWrite_sound {nn : Bool} {kk : Kept} (s : State) (m : Master) (a : Nat) (w : Word) (h : Sound nn kk s.kept) : Sound nn kk (State.regWrite s m a w).kept := by
  unfold State.regWrite
  (repeat' split) <;> simp [h]
@[simp] theorem hostWrite_sound {nn : Bool} {kk : Kept} (m : Master) (a : Nat) (w : Word) (s : State) (h : Sound nn kk s.kept) : Sound nn kk (hostWrite m a w s).kept := by
  unfold hostWrite
  (repeat' split) <;> simp [h]
@[simp] theorem State.writeRegs_sound {nn : Bool} {kk : Kept} (s : State) (m : Master) (a : Nat) (bs : List Byte) (h : Sound nn kk s.kept) : Sound nn kk (State.writeRegs s m a bs).kept := by
  unfold State.writeRegs
  dsimp only
  repeat' first | assumption | (simp; done) | (simp [*]; done) | (refine forAll_sound _ _ _ (fun _ _ _ _ => ?_) ?_)
@[simp] theorem State.writeFstore_sound {n : Bool} {k : Kept} (s : State) (m : Master) (o : Nat) (bs : List Byte) (h : Sound n k s.kept) :
    Sound n k (s.writeFstore m o bs).kept := by
  unfold State.writeFstore
  extract_lets denied s1 t
  have h1 : Sound n k s1.kept := h.of_fstore fun hm =>
    foldl_nset_if_wf zeroByte (fun e : Byte × Nat => denied e.2) (fun e => e.2) (fun e => e.1) _ _ hm
  clear_value s1 denied
  have ht : t.kept = s1.kept := by simp [t]
  clear_value t
  (repeat' split) <;> simp [ht, h1]
@[simp] theorem State.writeWork_sound {n : Bool} {k : Kept} (s : State) (o : Nat) (bs : List Byte) (h : Sound n k s.kept) : Sound n k (s.writeWork o bs).kept := by
  unfold State.writeWork
  extract_lets all code waits now s1
  clear_value all code waits now
  have h1 : Sound n k s1.kept := h.of_work fun hm => foldl_nset_wf zeroByte (fun e : Byte × Nat => e.2) (fun e => e.1) now _ hm
  clear_value s1
  exact forAll_sound _ _ _ (fun _ _ t h => by dsimp only; split <;> simpa using h) h1
@[simp] theorem State.targetWrite_sound {n : Bool} {k : Kept} (s : State) (m : Master) (t : QTarget) (o : Nat) (bs : List Byte) (h : Sound n k s.kept) :
    Sound n k (s.targetWrite m t o bs).kept := by
  unfold State.targetWrite
  cases t with
  | reg => exact State.writeRegs_sound _ _ _ _ h
  | fstore => exact Sound.ite h (State.writeFstore_sound _ _ _ _ h)
  | work => exact Sound.ite h (State.writeWork_sound _ _ _ h)
  | nvs => exact h
  | cflash => exact Sound.ite h (State.flashWrite_sound _ _ _ h)
  | host => exact h.of_hostMem fun hm => writeBytes_wf zeroByte _ _ _ hm
@[simp] theorem State.carryOut_sound {nn : Bool} {kk : Kept} (s : State) (q : QuayReq) (late : Bool) (h : Sound nn kk s.kept) : Sound nn kk (State.carryOut s q late).kept := by
  unfold State.carryOut
  dsimp only
  (repeat' split) <;> simp [h]
@[simp] theorem State.quayRequest_sound {nn : Bool} {kk : Kept} (s : State) (q : QuayReq) (late : Bool) (h : Sound nn kk s.kept) : Sound nn kk (State.quayRequest s q late).kept := by
  unfold State.quayRequest
  dsimp only
  (repeat' split) <;> simp [h]
@[simp] theorem heldRequestIssue_sound {nn : Bool} {kk : Kept} (m : Master) (late : Bool) (s : State) (h : Sound nn kk s.kept) : Sound nn kk (heldRequestIssue m late s).kept := by
  unfold heldRequestIssue
  (repeat' split) <;> simp [h]
@[simp] theorem State.cutBurst_sound {nn : Bool} {kk : Kept} (s : State) (m : Master) (addr : Nat) (accepted : List Byte) (h : Sound nn kk s.kept) : Sound nn kk (State.cutBurst s m addr accepted).kept := by
  unfold State.cutBurst
  (repeat' split) <;> simp [h]
@[simp] theorem State.pcieRequest_sound {nn : Bool} {kk : Kept} (s : State) (bar2 : Bool) (o : Nat) (len : Nat) (w : Option (List Byte)) (late : Bool) (h : Sound nn kk s.kept) : Sound nn kk (State.pcieRequest s bar2 o len w late).kept := by
  unfold State.pcieRequest
  (repeat' split) <;> simp [h]
@[simp] theorem pcieMemWrite_sound {nn : Bool} {kk : Kept} (bar2 : Bool) (o : Nat) (bs : List Byte) (late : Bool) (s : State) (h : Sound nn kk s.kept) : Sound nn kk (pcieMemWrite bar2 o bs late s).kept := by
  simp [pcieMemWrite, h]
@[simp] theorem pcieMemRead_sound {nn : Bool} {kk : Kept} (bar2 : Bool) (o : Nat) (n : Nat) (late : Bool) (s : State) (h : Sound nn kk s.kept) : Sound nn kk (pcieMemRead bar2 o n late s).kept := by
  simp [pcieMemRead, h]
@[simp] theorem pcieLinkDown_sound {nn : Bool} {kk : Kept} (bar2 : Bool) (o : Nat) (accepted : List Byte) (s : State) (h : Sound nn kk s.kept) : Sound nn kk (pcieLinkDown bar2 o accepted s).kept := by
  unfold pcieLinkDown
  (repeat' split) <;> simp [h]
@[simp] theorem State.qspiPut_sound {nn : Bool} {kk : Kept} (s : State) (bar2 : Bool) (o : Nat) (bs : List Byte) (late : Bool) (h : Sound nn kk s.kept) : Sound nn kk (State.qspiPut s bar2 o bs late).kept := by
  unfold State.qspiPut
  dsimp only
  repeat' first | assumption | (simp; done) | (simp [*]; done) | (refine forAll_sound _ _ _ (fun _ _ _ _ => ?_) ?_)
@[simp] theorem qspiWrite_sound {nn : Bool} {kk : Kept} (o : BitVec 32) (bs : List Byte) (late : Bool) (s : State) (h : Sound nn kk s.kept) : Sound nn kk (qspiWrite o bs late s).kept := by
  simp [qspiWrite, h]
@[simp] theorem qspiWriteBar2_sound {nn : Bool} {kk : Kept} (o : BitVec 32) (bs : List Byte) (late : Bool) (s : State) (h : Sound nn kk s.kept) : Sound nn kk (qspiWriteBar2 o bs late s).kept := by
  simp [qspiWriteBar2, h]
@[simp] theorem qspiCsRelease_sound {nn : Bool} {kk : Kept} (bar2 : Bool) (o : Nat) (accepted : List Byte) (s : State) (h : Sound nn kk s.kept) : Sound nn kk (qspiCsRelease bar2 o accepted s).kept := by
  simp [qspiCsRelease, h]
@[simp] theorem i2cWrite_sound {nn : Bool} {kk : Kept} (offset : BitVec 32) (bs : List Byte) (late : Bool) (s : State) (h : Sound nn kk s.kept) : Sound nn kk (i2cWrite offset bs late s).kept := by
  unfold i2cWrite
  dsimp only
  repeat' first | assumption | (simp; done) | (simp [*]; done) | (refine forAll_sound _ _ _ (fun _ _ _ _ => ?_) ?_)
@[simp] theorem i2cRead_sound {nn : Bool} {kk : Kept} (n : Nat) (late : Bool) (s : State) (h : Sound nn kk s.kept) : Sound nn kk (i2cRead n late s).kept := by
  simp [i2cRead, h]
@[simp] theorem i2cAbort_sound {nn : Bool} {kk : Kept} (o : Nat) (accepted : List Byte) (s : State) (h : Sound nn kk s.kept) : Sound nn kk (i2cAbort o accepted s).kept := by
  simp [i2cAbort, h]
@[simp] theorem State.dmaBurst_sound {nn : Bool} {kk : Kept} (s : State) (n : Fin 8) (src : Nat) (dst : Nat) (k : Nat) (hostFails : Bool) (h : Sound nn kk s.kept) : Sound nn kk (State.dmaBurst s n src dst k hostFails).2.kept := by
  unfold State.dmaBurst
  dsimp only
  (repeat' split) <;> simp [h]
@[simp] theorem dmaDescriptor_sound {k : Bool} {l : Kept} (n : Fin 8) (hostData : List (Nat × Byte)) (hostFails : Bool) (s : State) (h : Sound k l s.kept) :
    Sound k l (dmaDescriptor n hostData hostFails s).kept := by
  unfold dmaDescriptor
  refine Sound.ite h ?_
  extract_lets s1 cur
  have h1 : Sound k l s1.kept := h.of_hostMem fun hm => foldl_nset_wf zeroByte (fun e : Nat × Byte => e.1) (fun e => e.2) _ _ hm
  clear_value s1 cur
  split
  · simpa using h1
  · rename_i t o _
    refine Sound.ite (by simpa using h1) (Sound.ite (by simpa using h1) ?_)
    have h2 : Sound k l (s1.targetRead (.dma n) t o 48).2.kept := by simpa using h1
    generalize s1.targetRead (.dma n) t o 48 = r at h2 ⊢
    obtain ⟨d, u⟩ := r
    dsimp only at h2 ⊢
    refine Sound.ite (by simpa using h2) (Sound.ite (by simpa using h2) ?_)
    have h3 := foldl_sound (n := k) (k := l) (fun a : Nat × State => a.2) (fun (a : Nat × State) i =>
      (lineBursts (bytesAt d 0x18 3)).foldl (fun (a : Nat × State) (b : Nat × Nat) =>
        if a.1 ≠ 0 then a
        else a.2.dmaBurst n ((bytesAt d 0 8 + i * bytesAt d 0x20 4 + b.1) % 2 ^ 64) ((bytesAt d 8 8 + i * bytesAt d 0x24 4 + b.1) % 2 ^ 64) b.2 hostFails) a)
      (upto (bytesAt d 0x1C 2 % 8192)) (0, u)
      (fun a i h => foldl_sound (n := k) (k := l) (fun a : Nat × State => a.2) _ _ _ (fun a b h => by
        split
        · exact h
        · exact State.dmaBurst_sound _ _ _ _ _ _ h) h) h2
    generalize (upto (bytesAt d 0x1C 2 % 8192)).foldl _ (0, u) = x at h3 ⊢
    obtain ⟨err, v⟩ := x
    dsimp only at h3 ⊢
    refine Sound.ite (by simpa using h3) ?_
    have h4 : Sound k l (v.targetRead (.dma n) t (o + 0x10) 8).2.kept := by simpa using h3
    generalize v.targetRead (.dma n) t (o + 0x10) 8 = y at h4 ⊢
    obtain ⟨link, w⟩ := y
    dsimp only at h4 ⊢
    split <;> split <;> simp [h4] <;> (repeat' split) <;> simp [h4]
@[simp] theorem dmaAbort_sound {nn : Bool} {kk : Kept} (m : Master) (n : Fin 8) (addr : Nat) (accepted : List Byte) (s : State) (h : Sound nn kk s.kept) : Sound nn kk (dmaAbort m n addr accepted s).kept := by
  unfold dmaAbort
  dsimp only
  (repeat' split) <;> simp [h]
@[simp] theorem State.copyWp_sound {n : Bool} {k : Kept} (s : State) (r wp : Nat) (h : Sound n k s.kept) : Sound n k (s.copyWp r wp).kept := by
  unfold State.copyWp
  split
  · dsimp only
    split
    · exact State.targetWrite_sound _ _ _ _ _ h
    · rw [State.decodeError_kept]; exact h
  · exact h
@[simp] theorem State.putRecord_sound {n : Bool} {k : Kept} (s : State) (r : Nat) (x : BitVec 128) (rest : List (BitVec 128)) (wp : Nat) (t : QTarget) (o : Nat)
    (h : Sound n k s.kept) : Sound n k (s.putRecord r x rest wp t o).kept := by
  unfold State.putRecord
  dsimp only
  rw [State.noteWritten_kept]
  refine State.copyWp_sound _ _ _ ?_
  rw [State.wr_kept, State.setRing_kept]
  exact State.targetWrite_sound _ _ _ _ _ h
@[simp] theorem eventRecordWritten_sound {n : Bool} {k : Kept} (r : Nat) (s : State) (h : Sound n k s.kept) : Sound n k (eventRecordWritten r s).kept := by
  unfold eventRecordWritten
  split
  · exact h
  · refine Sound.ite h ?_
    dsimp only
    split
    · exact State.putRecord_sound _ _ _ _ _ _ _ h
    · exact State.putRecord_sound _ _ _ _ _ _ _ h
    · simpa using h
    · simpa using h
@[simp] theorem pcieCompletionTimeout_sound {n : Bool} {k : Kept} (m : Master) (ring : Fin 4) (s : State) (h : Sound n k s.kept) : Sound n k (pcieCompletionTimeout m ring s).kept := by
  unfold pcieCompletionTimeout
  (repeat' split) <;> simp [h]
@[simp] theorem ldThmSample_sound {kk : Kept} (temps : List Sensed) (s : State) (h : Sound false kk s.kept) : Sound false kk (ldThmSample temps s).kept := by
  have key : ∀ (t : State) (a b : Prop) [Decidable a] [Decidable b], Sound false kk t.kept →
      Sound false kk (if a then t.lightDieStop else if b then t.thermalShutdown else t).kept := fun t a b _ _ ht =>
    Sound.ite (State.lightDieStop_sound _ ht) (Sound.ite (State.thermalShutdown_sound _ ht) ht)
  exact key _ _ _ (by simp [h])

end Sys2Proof.Machine
end

