-- ==== Sys2Proof/Laws/Steps.lean ====
section
/-! SUPPORT. What one command and one step can do to the memories, the queue, the key hash and parameter storage. -/

namespace Sys2Proof.Machine

/-- Every command answers a next state. -/
theorem exec_next (c : Instr) (s : State) : ∃ t, exec c s = .next t := by
  cases c <;> exact ⟨_, rfl⟩

theorem onMatrix_sound {n : Bool} {g : State → State} {s t : State} (h : onMatrix g s = .next t) (hg : Sound n s.kept (g s).kept) : Sound n s.kept t.kept := by
  obtain rfl := Host.Outcome.next.inj h
  exact Sound.ite hg (Sound.refl _ _)

theorem onCore_sound {n : Bool} {g : State → State} {s t : State} (h : onCore g s = .next t) (hg : Sound n s.kept (g s).kept) : Sound n s.kept t.kept := by
  obtain rfl := Host.Outcome.next.inj h
  exact Sound.ite hg (Sound.refl _ _)

theorem onLightDie_sound {n : Bool} {g : State → State} {s t : State} (h : onLightDie g s = .next t) (hg : Sound n s.kept (g s).kept) :
    Sound n s.kept t.kept := by
  obtain rfl := Host.Outcome.next.inj h
  exact Sound.ite hg (Sound.refl _ _)

theorem onPin_sound {n : Bool} {p : Pins → Pins} {g : State → State} {s t : State} (h : onPin p g s = .next t) (hg : Sound n s.kept (g s).kept) :
    Sound n s.kept t.kept := by
  obtain rfl := Host.Outcome.next.inj h
  exact Sound.ite hg (by simp [Sound.refl])

theorem always_sound {n : Bool} {g : State → State} {s t : State} (h : always g s = .next t) (hg : Sound n s.kept (g s).kept) : Sound n s.kept t.kept := by
  obtain rfl := Host.Outcome.next.inj h
  exact hg

theorem regCommand_sound {n : Bool} {m : Master} {a : Nat} {w : Word} {s t : State} (h : regCommand m a w s = .next t) : Sound n s.kept t.kept :=
  onCore_sound h (hostWrite_sound _ _ _ _ (Sound.refl _ _))

/-- What a command can do. -/
theorem exec_sound (c : Instr) (s t : State) (hx : exec c s = .next t) : Sound (!programsStorage c) s.kept t.kept := by
  cases c with
  | strokeBoundary ps => exact onMatrix_sound (g := strokeBoundary ps) hx (by simp [programsStorage, Sound.refl])
  | deadline => exact onCore_sound (g := deadline) hx (by simp [programsStorage, Sound.refl])
  | manifestRecordStart r => exact onCore_sound (g := manifestRecordStart r) hx (by simp [programsStorage, Sound.refl])
  | engineTakeJob e => exact onCore_sound (g := engineTakeJob e) hx (by simp [programsStorage, Sound.refl])
  | crewTakeJob c => exact onCore_sound (g := crewTakeJob c) hx (by simp [programsStorage, Sound.refl])
  | crewLineRoute c => exact onCore_sound (g := crewLineRoute c) hx (by simp [programsStorage, Sound.refl])
  | engHeldWrite e => exact onCore_sound (g := engHeldWrite e) hx (by simp [programsStorage, Sound.refl])
  | nop e f => exact onMatrix_sound (g := engNop e f) hx (by simp [programsStorage, Sound.refl])
  | br e f => exact onMatrix_sound (g := engBr e f) hx (by simp [programsStorage, Sound.refl])
  | loop e f => exact onMatrix_sound (g := engLoop e f) hx (by simp [programsStorage, Sound.refl])
  | jend e f => exact onCore_sound (g := engJend e f) hx (by simp [programsStorage, Sound.refl])
  | jfld e f => exact onMatrix_sound (g := engJfld e f) hx (by simp [programsStorage, Sound.refl])
  | tsig e f => exact onCore_sound (g := engTsig e f) hx (by simp [programsStorage, Sound.refl])
  | vld e f => exact onMatrix_sound (g := engVld e f) hx (by simp [programsStorage, Sound.refl])
  | vst e f => exact onMatrix_sound (g := engVst e f) hx (by simp [programsStorage, Sound.refl])
  | vlds e f => exact onMatrix_sound (g := engVlds e f) hx (by simp [programsStorage, Sound.refl])
  | sld e f => exact onMatrix_sound (g := engSld e f) hx (by simp [programsStorage, Sound.refl])
  | sst e f => exact onMatrix_sound (g := engSst e f) hx (by simp [programsStorage, Sound.refl])
  | qin e f => exact onCore_sound (g := engQin e f) hx (by simp [programsStorage, Sound.refl])
  | qout e f => exact onCore_sound (g := engQout e f) hx (by simp [programsStorage, Sound.refl])
  | qwait e f => exact onCore_sound (g := engQwait e f) hx (by simp [programsStorage, Sound.refl])
  | ldp e f => exact onCore_sound (g := engLdp e f) hx (by simp [programsStorage, Sound.refl])
  | vadd e f => exact onMatrix_sound (g := engVadd e f) hx (by simp [programsStorage, Sound.refl])
  | vsub e f => exact onMatrix_sound (g := engVsub e f) hx (by simp [programsStorage, Sound.refl])
  | vmin e f => exact onMatrix_sound (g := engVmin e f) hx (by simp [programsStorage, Sound.refl])
  | vmax e f => exact onMatrix_sound (g := engVmax e f) hx (by simp [programsStorage, Sound.refl])
  | vabsd e f => exact onMatrix_sound (g := engVabsd e f) hx (by simp [programsStorage, Sound.refl])
  | vsh e f => exact onMatrix_sound (g := engVsh e f) hx (by simp [programsStorage, Sound.refl])
  | vlog e f => exact onMatrix_sound (g := engVlog e f) hx (by simp [programsStorage, Sound.refl])
  | vmov e f => exact onMatrix_sound (g := engVmov e f) hx (by simp [programsStorage, Sound.refl])
  | vmul e f => exact onMatrix_sound (g := engVmul e f) hx (by simp [programsStorage, Sound.refl])
  | sadd e f => exact onMatrix_sound (g := engSadd e f) hx (by simp [programsStorage, Sound.refl])
  | ssub e f => exact onMatrix_sound (g := engSsub e f) hx (by simp [programsStorage, Sound.refl])
  | smul e f => exact onMatrix_sound (g := engSmul e f) hx (by simp [programsStorage, Sound.refl])
  | sand e f => exact onMatrix_sound (g := engSand e f) hx (by simp [programsStorage, Sound.refl])
  | sor e f => exact onMatrix_sound (g := engSor e f) hx (by simp [programsStorage, Sound.refl])
  | ssh e f => exact onMatrix_sound (g := engSsh e f) hx (by simp [programsStorage, Sound.refl])
  | smov e f => exact onMatrix_sound (g := engSmov e f) hx (by simp [programsStorage, Sound.refl])
  | mac e f => exact onMatrix_sound (g := engMac e f) hx (by simp [programsStorage, Sound.refl])
  | msu e f => exact onMatrix_sound (g := engMsu e f) hx (by simp [programsStorage, Sound.refl])
  | aset e f => exact onMatrix_sound (g := engAset e f) hx (by simp [programsStorage, Sound.refl])
  | ard e f => exact onMatrix_sound (g := engArd e f) hx (by simp [programsStorage, Sound.refl])
  | asum e f => exact onMatrix_sound (g := engAsum e f) hx (by simp [programsStorage, Sound.refl])
  | vperm e f => exact onMatrix_sound (g := engVperm e f) hx (by simp [programsStorage, Sound.refl])
  | vsld e f => exact onMatrix_sound (g := engVsld e f) hx (by simp [programsStorage, Sound.refl])
  | vilv e f => exact onMatrix_sound (g := engVilv e f) hx (by simp [programsStorage, Sound.refl])
  | vext e f => exact onMatrix_sound (g := engVext e f) hx (by simp [programsStorage, Sound.refl])
  | vlut e f => exact onMatrix_sound (g := engVlut e f) hx (by simp [programsStorage, Sound.refl])
  | vluti e f => exact onMatrix_sound (g := engVluti e f) hx (by simp [programsStorage, Sound.refl])
  | vcmp e f => exact onMatrix_sound (g := engVcmp e f) hx (by simp [programsStorage, Sound.refl])
  | vsel e f => exact onMatrix_sound (g := engVsel e f) hx (by simp [programsStorage, Sound.refl])
  | undefinedEncoding e => exact onMatrix_sound (g := undefinedEncoding e) hx (by simp [programsStorage, Sound.refl])
  | qinDataArrive e => exact onCore_sound (g := qinDataArrive e) hx (by simp [programsStorage, Sound.refl])
  | ldpWordArrive e => exact onCore_sound (g := ldpWordArrive e) hx (by simp [programsStorage, Sound.refl])
  | postedWritesLanded e => exact onCore_sound (g := postedWritesLanded e) hx (by simp [programsStorage, Sound.refl])
  | queueXonRelease q => exact onCore_sound (g := queueXonRelease q) hx (by simp [programsStorage, Sound.refl])
  | headFrameStart h err => exact onMatrix_sound (g := headFrameStart h err) hx (by simp [programsStorage, Sound.refl])
  | headLineStart h late broken => exact onMatrix_sound (g := headLineStart h late ∘ iconReads broken) hx (by simp [programsStorage, Sound.refl])
  | gateLine h rb sym => exact onMatrix_sound (g := gateLine h rb ∘ symbolCounts sym) hx (by simp [programsStorage, Sound.refl])
  | headCommit m h w => exact regCommand_sound hx
  | hedSyncCommit m w => exact regCommand_sound hx
  | gangwayWrite m h k w => exact regCommand_sound hx
  | ttPinAccept p => exact onMatrix_sound (g := ttPinAccept p) hx (by simp [programsStorage, Sound.refl])
  | watchTiming h => exact onMatrix_sound (g := watchTiming h) hx (by simp [programsStorage, Sound.refl])
  | resetRelease straps sris => exact onLightDie_sound (g := resetRelease straps sris) hx (by simp [programsStorage, Sound.refl])
  | headerRead got => exact onCore_sound (g := headerRead got) hx (by simp [programsStorage, Sound.refl])
  | segmentRead got ok => exact onCore_sound (g := segmentRead got ok) hx (by simp [programsStorage, Sound.refl])
  | segmentPlaced => exact onCore_sound (g := segmentPlaced) hx (by simp [programsStorage, Sound.refl])
  | pullGo m => exact regCommand_sound hx
  | chtPushData m k w => exact regCommand_sound hx
  | otpKeyFirst m => exact regCommand_sound hx
  | otpBurn m => exact regCommand_sound hx
  | otpTestAllow m => exact regCommand_sound hx
  | chtOtpData m w => exact regCommand_sound hx
  | flashKeyFirst m => exact regCommand_sound hx
  | flashErase m golden => exact regCommand_sound hx
  | flashProgram m golden => exact regCommand_sound hx
  | amdGo m path => exact regCommand_sound hx
  | amdAbort m => exact regCommand_sound hx
  | amdStaged got manifest ok => exact onCore_sound (g := amdStaged got manifest ok) hx (by simp [programsStorage, Sound.refl])
  | coxGate g => exact onMatrix_sound (g := coxGate g) hx (by simp [programsStorage, Sound.refl])
  | refActivityLoss n => exact onMatrix_sound (g := (State.activityLoss · n)) hx (by simp [programsStorage, Sound.refl])
  | qlMessage n byte framed => exact onMatrix_sound (g := qlMessage n byte framed) hx (by simp [programsStorage, Sound.refl])
  | qlTimeout n => exact onMatrix_sound (g := qlTimeout n) hx (by simp [programsStorage, Sound.refl])
  | coxSelWrite m w => exact regCommand_sound hx
  | coxManual m w => exact regCommand_sound hx
  | coxForceHold m w => exact regCommand_sound hx
  | coxForceFree m w => exact regCommand_sound hx
  | wtrExpiry n => exact onMatrix_sound (g := wtrExpiry n) hx (by simp [programsStorage, Sound.refl])
  | slewGo m w => exact regCommand_sound hx
  | slewDone => exact onMatrix_sound (g := slewDone) hx (by simp [programsStorage, Sound.refl])
  | holdValid => exact onMatrix_sound (g := holdValid) hx (by simp [programsStorage, Sound.refl])
  | tcompUpdate => exact onMatrix_sound (g := tcompUpdate) hx (by simp [programsStorage, Sound.refl])
  | coxSteerWrite m w => exact regCommand_sound hx
  | markerReceived p bs errs => exact onMatrix_sound (g := markerReceived p bs errs) hx (by simp [programsStorage, Sound.refl])
  | markerMissing p => exact onMatrix_sound (g := markerMissing p) hx (by simp [programsStorage, Sound.refl])
  | synLock k => exact onMatrix_sound (g := synLock k) hx (by simp [programsStorage, Sound.refl])
  | synLockLoss k refLost => exact onMatrix_sound (g := synLockLoss k refLost) hx (by simp [programsStorage, Sound.refl])
  | synFerrMeasure k err => exact onMatrix_sound (g := synFerrMeasure k err) hx (by simp [programsStorage, Sound.refl])
  | synRelock m k => exact regCommand_sound hx
  | detectDone p => exact onMatrix_sound (g := detectDone p) hx (by simp [programsStorage, Sound.refl])
  | trainDone p inverted => exact onMatrix_sound (g := trainDone p inverted) hx (by simp [programsStorage, Sound.refl])
  | trainTimeout p aligned => exact onMatrix_sound (g := trainTimeout p aligned) hx (by simp [programsStorage, Sound.refl])
  | negTransmit p => exact onMatrix_sound (g := negTransmit p) hx (by simp [programsStorage, Sound.refl])
  | negotiateDone p => exact onMatrix_sound (g := negotiateDone p) hx (by simp [programsStorage, Sound.refl])
  | negotiateTimeout p => exact onMatrix_sound (g := negotiateTimeout p) hx (by simp [programsStorage, Sound.refl])
  | stepDone p eye => exact onMatrix_sound (g := stepDone p eye) hx (by simp [programsStorage, Sound.refl])
  | stepTimeout p => exact onMatrix_sound (g := stepTimeout p) hx (by simp [programsStorage, Sound.refl])
  | rateAgreeTimeout p => exact onMatrix_sound (g := rateAgreeTimeout p) hx (by simp [programsStorage, Sound.refl])
  | stepRetry p => exact onMatrix_sound (g := stepRetry p) hx (by simp [programsStorage, Sound.refl])
  | laneLockLoss p => exact onMatrix_sound (g := laneLockLoss p) hx (by simp [programsStorage, Sound.refl])
  | retrainTimeout p => exact onMatrix_sound (g := retrainTimeout p) hx (by simp [programsStorage, Sound.refl])
  | laneRelock p => exact onMatrix_sound (g := laneRelock p) hx (by simp [programsStorage, Sound.refl])
  | buoyReceived p skew i n => exact onMatrix_sound (g := buoyReceived p skew i n.toNat) hx (by simp [programsStorage, Sound.refl])
  | groupNarrow p => exact onMatrix_sound (g := groupNarrow p) hx (by simp [programsStorage, Sound.refl])
  | widen m p => exact regCommand_sound hx
  | retrain m p => exact regCommand_sound hx
  | restep m p => exact regCommand_sound hx
  | idleEnter m p => exact regCommand_sound hx
  | idleExit m p => exact regCommand_sound hx
  | rxIdleEntry p => exact onMatrix_sound (g := rxIdleEntry p) hx (by simp [programsStorage, Sound.refl])
  | rxIdleExit p => exact onMatrix_sound (g := rxIdleExit p) hx (by simp [programsStorage, Sound.refl])
  | idleExitTimeout p => exact onMatrix_sound (g := idleExitTimeout p) hx (by simp [programsStorage, Sound.refl])
  | prbsCtrlWrite m p w => exact regCommand_sound hx
  | eyeScan m o w => exact regCommand_sound hx
  | eyeScanDone o height width => exact onMatrix_sound (g := eyeScanDone o height width) hx (by simp [programsStorage, Sound.refl])
  | rbCfgWrite m k w => exact regCommand_sound hx
  | extest on => exact always_sound (g := extest on) hx (by simp [programsStorage, Sound.refl])
  | packetReceived r => exact onCore_sound (g := packetReceived r) hx (by simp [programsStorage, Sound.refl])
  | xactTimeout p tag => exact onMatrix_sound (g := xactTimeout p tag) hx (by simp [programsStorage, Sound.refl])
  | hxRead m p len => exact regCommand_sound hx
  | hxWrite m p len => exact regCommand_sound hx
  | hxReadId m p len => exact regCommand_sound hx
  | hxWriteId m p len => exact regCommand_sound hx
  | pullCfgWrite m p w => exact regCommand_sound hx
  | rwKey m p w => exact regCommand_sound hx
  | rwCtrlWrite m p w => exact regCommand_sound hx
  | rwLossGo m p w => exact regCommand_sound hx
  | xtbWord3Write m k w => exact regCommand_sound hx
  | xtbArm m w => exact regCommand_sound hx
  | xtbCancel m w => exact regCommand_sound hx
  | xformWrite m x j w => exact regCommand_sound hx
  | quePush m q w => exact regCommand_sound hx
  | quePushRelease q => exact onCore_sound (g := quePushRelease q) hx (by simp [programsStorage, Sound.refl])
  | quePop m q => exact onCore_sound (g := readAndAnswer m (Reg.quePop q 3)) hx (by simp [programsStorage, Sound.refl])
  | hwmClr m q => exact regCommand_sound hx
  | slipCommit m k => exact regCommand_sound hx
  | audBlockClose tdm => exact onCore_sound (g := audBlockClose tdm) hx (by simp [programsStorage, Sound.refl])
  | audBlockSend => exact onCore_sound (g := audBlockSend) hx (by simp [programsStorage, Sound.refl])
  | audCommit m w => exact regCommand_sound hx
  | tdmFrameError n => exact onCore_sound (g := tdmFrameError n) hx (by simp [programsStorage, Sound.refl])
  | lightMessage => exact onLightDie_sound (g := lightMessage) hx (by simp [programsStorage, Sound.refl])
  | lightMsgTimeout => exact onLightDie_sound (g := lightMsgTimeout) hx (by simp [programsStorage, Sound.refl])
  | pwmPeriod x => exact onLightDie_sound (g := pwmPeriod x) hx (by simp [programsStorage, Sound.refl])
  | boostOvervoltage => exact onLightDie_sound (g := boostOvervoltage) hx (by simp [programsStorage, Sound.refl])
  | boostRestart => exact onLightDie_sound (g := boostRestart) hx (by simp [programsStorage, Sound.refl])
  | neighbourTest high => exact onLightDie_sound (g := neighbourTest high) hx (by simp [programsStorage, Sound.refl])
  | retest m n => exact regCommand_sound hx
  | lampBoardPoll n serial => exact onLightDie_sound (g := lampBoardPoll n serial) hx (by simp [programsStorage, Sound.refl])
  | identRecordRead u board => exact onLightDie_sound (g := identRecordRead u board) hx (by simp [programsStorage, Sound.refl])
  | ledgerAdvance => exact onLightDie_sound (g := ledgerAdvance) hx (by simp [programsStorage, Sound.refl])
  | nvsRead m => exact regCommand_sound hx
  | nvsWrite m => exact regCommand_sound hx
  | nvsRecRead m => exact regCommand_sound hx
  | nvsRecWrite m => exact regCommand_sound hx
  | nvsBadOp m op => exact regCommand_sound hx
  | nvsPageDone low => exact onLightDie_sound (g := nvsPageDone low) hx (by simp [programsStorage, Sound.refl])
  | ledgersWrite => exact onLightDie_sound (g := ledgersWrite) hx (by simp [programsStorage, Sound.refl])
  | pfiFall => exact onPin_sound (p := fun p => { p with pfiN := false }) (g := pfiFall) hx (by simp [programsStorage, Sound.refl])
  | pfiRise => exact onPin_sound (p := fun p => { p with pfiN := true }) (g := pfiRise) hx (by simp [programsStorage, Sound.refl])
  | vddLdLow => exact onLightDie_sound (g := (State.powerFail · 1)) hx (by simp [programsStorage, Sound.refl])
  | vddLdCollapse cut => exact always_sound (g := vddLdCollapse cut) hx (by simp [programsStorage, Sound.refl])
  | vddLdRise => exact always_sound (g := vddLdRise) hx (by simp [programsStorage, Sound.refl])
  | keepFlushDone => exact onLightDie_sound (g := keepFlushDone) hx (by simp [programsStorage, Sound.refl])
  | powerFailRestart => exact onLightDie_sound (g := powerFailRestart) hx (by simp [programsStorage, Sound.refl])
  | thmSample temps => exact onMatrix_sound (g := thmSampleAll temps) hx (by simp [programsStorage, Sound.refl])
  | thmOffsetUpdate => exact onMatrix_sound (g := thmOffsetUpdate) hx (by simp [programsStorage, Sound.refl])
  | ldThmSample temps => exact onLightDie_sound (g := ldThmSample temps) hx (by simp [programsStorage, Sound.refl])
  | thermalRestart => exact onLightDie_sound (g := thermalRestart) hx (by simp [programsStorage, Sound.refl])
  | lightDieResume => exact always_sound (g := lightDieResume) hx (by simp [programsStorage, Sound.refl])
  | thresholdWrite m t w => exact regCommand_sound hx
  | wakeActive => exact onLightDie_sound (g := State.wakeActive) hx (by simp [programsStorage, Sound.refl])
  | wakeInactive => exact onLightDie_sound (g := State.wakeInactive) hx (by simp [programsStorage, Sound.refl])
  | sleepDelayExpiry => exact onLightDie_sound (g := sleepDelayExpiry) hx (by simp [programsStorage, Sound.refl])
  | sleepStayLimit => exact onLightDie_sound (g := sleepStayLimit) hx (by simp [programsStorage, Sound.refl])
  | pgGood n => exact onLightDie_sound (g := pgGood n) hx (by simp [programsStorage, Sound.refl])
  | pwrEnRise => exact onLightDie_sound (g := pwrEnRise) hx (by simp [programsStorage, Sound.refl])
  | pgTimeout n => exact onLightDie_sound (g := pgTimeout n) hx (by simp [programsStorage, Sound.refl])
  | pgRetry => exact onLightDie_sound (g := pgRetry) hx (by simp [programsStorage, Sound.refl])
  | supplyFault n => exact onLightDie_sound (g := supplyFault n) hx (by simp [programsStorage, Sound.refl])
  | supplyRestart => exact onLightDie_sound (g := supplyRestart) hx (by simp [programsStorage, Sound.refl])
  | powerdownStep => exact onLightDie_sound (g := powerdownStep) hx (by simp [programsStorage, Sound.refl])
  | resetPinAssert => exact onPin_sound (p := fun p => { p with resetN := false }) (g := resetPinAssert) hx (by simp [programsStorage, Sound.refl])
  | resetPinRelease => exact onPin_sound (p := fun p => { p with resetN := true }) (g := resetPinRelease) hx (by simp [programsStorage, Sound.refl])
  | resetExit straps sris => exact onLightDie_sound (g := resetExit straps sris) hx (by simp [programsStorage, Sound.refl])
  | warmResetKeyFirst m => exact regCommand_sound hx
  | warmReset m => exact regCommand_sound hx
  | wdtEnable m w => exact regCommand_sound hx
  | wdtKick m => exact regCommand_sound hx
  | wdtBadKick m v => exact regCommand_sound hx
  | wdtWarn => exact onLightDie_sound (g := wdtWarn) hx (by simp [programsStorage, Sound.refl])
  | wdtExpiry => exact onLightDie_sound (g := wdtExpire) hx (by simp [programsStorage, Sound.refl])
  | lockstepMismatch => exact onCore_sound (g := lockstepMismatch) hx (by simp [programsStorage, Sound.refl])
  | pcieMemWrite bar2 o bs late => exact always_sound (g := pcieMemWrite bar2 o.toNat bs late) hx (by simp [programsStorage, Sound.refl])
  | pcieMemRead bar2 o n late => exact always_sound (g := pcieMemRead bar2 o.toNat n late) hx (by simp [programsStorage, Sound.refl])
  | pcieLinkUp lanes speed => exact onMatrix_sound (g := pcieLinkUp lanes speed) hx (by simp [programsStorage, Sound.refl])
  | pcieLinkDown bar2 o accepted => exact always_sound (g := pcieLinkDown bar2 o.toNat accepted) hx (by simp [programsStorage, Sound.refl])
  | pcieCompletionTimeout m ring => exact onCore_sound (g := pcieCompletionTimeout m ring) hx (by simp [programsStorage, Sound.refl])
  | qspiWrite o bs late => exact onCore_sound (g := qspiWrite o bs late) hx (by simp [programsStorage, Sound.refl])
  | qspiRead o n ready => exact onCore_sound (g := qspiRead o n ready) hx (by simp [programsStorage, Sound.refl])
  | qspiWriteBar2 o bs late => exact onCore_sound (g := qspiWriteBar2 o bs late) hx (by simp [programsStorage, Sound.refl])
  | qspiReadBar2 o n ready => exact onCore_sound (g := qspiReadBar2 o n ready) hx (by simp [programsStorage, Sound.refl])
  | qspiReadStatus => exact onCore_sound (g := qspiReadStatus) hx (by simp [programsStorage, Sound.refl])
  | qspiCsRelease bar2 o accepted => exact onCore_sound (g := qspiCsRelease bar2 o.toNat accepted) hx (by simp [programsStorage, Sound.refl])
  | i2cWrite o bs late => exact onCore_sound (g := i2cWrite o bs late) hx (by simp [programsStorage, Sound.refl])
  | i2cRead n late => exact onCore_sound (g := i2cRead n late) hx (by simp [programsStorage, Sound.refl])
  | i2cAbort o accepted => exact onCore_sound (g := i2cAbort o.toNat accepted) hx (by simp [programsStorage, Sound.refl])
  | heldRequestIssue m late => exact onCore_sound (g := heldRequestIssue m late) hx (by simp [programsStorage, Sound.refl])
  | quayWwinWrite m w => exact regCommand_sound hx
  | dmaGo m n => exact regCommand_sound hx
  | dmaAbort m n o accepted => exact onCore_sound (g := dmaAbort m n o.toNat accepted) hx (by simp [programsStorage, Sound.refl])
  | dmaDescriptor n host fails => exact onCore_sound (g := dmaDescriptor n host fails) hx (by simp [programsStorage, Sound.refl])
  | eventRecordWritten r => exact onCore_sound (g := eventRecordWritten r) hx (by simp [programsStorage, Sound.refl])
  | ringRpWrite m r w => exact regCommand_sound hx
  | ringEnable m r w => exact regCommand_sound hx
  | msiCoalesceTimer r => exact onCore_sound (g := msiCoalesceTimer r) hx (by simp [programsStorage, Sound.refl])
  | cntClear m w => exact regCommand_sound hx
  | ifDeclare m w => exact regCommand_sound hx
  | loRead m a => exact onCore_sound (g := readAndAnswer m a.toNat) hx (by simp [programsStorage, Sound.refl])
  | registerWrite m a w => exact regCommand_sound hx
  | ttPinChange p level => exact onMatrix_sound (g := ttPinChange p level) hx (by simp [programsStorage, Sound.refl])
  | refActivityReturn n => exact onMatrix_sound (g := (State.activityBack · n)) hx (by simp [programsStorage, Sound.refl])
  | syncOutPulseEnd n => exact onMatrix_sound (g := syncPulseEnd n) hx (by simp [programsStorage, Sound.refl])
  | invalidSymbol p => exact onMatrix_sound (g := invalidSymbol p) hx (by simp [programsStorage, Sound.refl])
  | prbsCheckerSync p bits errs => exact onMatrix_sound (g := prbsCheckerSync p bits errs) hx (by simp [programsStorage, Sound.refl])
  | rbSyncLost k => exact onMatrix_sound (g := rbSyncLost k) hx (by simp [programsStorage, Sound.refl])
  | rbSyncGained k => exact onMatrix_sound (g := rbSyncGained k) hx (by simp [programsStorage, Sound.refl])
  | egressPacketSend k => exact onCore_sound (g := egressPacketSend k) hx (by simp [programsStorage, Sound.refl])
  | asrcLockChange u rate => exact onCore_sound (g := asrcLockChange u rate.toNat) hx (by simp [programsStorage, Sound.refl])
  | asrcSlip u => exact onCore_sound (g := asrcSlip u) hx (by simp [programsStorage, Sound.refl])
  | lampBoardWriteDone n ok => exact onLightDie_sound (g := lampBoardWriteDone n ok) hx (by simp [programsStorage, Sound.refl])
  | powerdownWakeRestart => exact onLightDie_sound (g := powerdownWakeRestart) hx (by simp [programsStorage, Sound.refl])

end Sys2Proof.Machine
end

