-- ==== Sys2Proof/Tests/Slice0.lean ====
section
/-! SUPPORT. Small tests: terms that are not well formed, one step on small states, and states that meet the hypotheses of the
statements. Each value expected comes from the rule of the spec named in the docstring. -/

namespace Sys2Proof.Tests

open Sys2Proof Sys2Proof.Machine

set_option Elab.async false

/-! ### States to test on -/

/-- The fabric runs, `SYN_CORE` locked; nothing else is written yet. -/
def up : State := ({ State.reset with pwr := { PwrSt.init with ld := .running, phase := .running } }).wr (Reg.synStat 0) 2

/-- Registers of `up` written. -/
def up! (l : List (Nat × Word)) : State := l.foldl (fun s x => s.wr x.1 x.2) up

/-- The device is in RUNNING. -/
def run! (l : List (Nat × Word)) : State := up! ((Reg.chtState, 3) :: l)

/-- The light die runs, and the matrix die is in the phase given. -/
def light (p : Phase) : State := { State.reset with pwr := { PwrSt.init with ld := .running, phase := p } }

/-- What a command leaves of a state, or the state itself. -/
def after (c : Instr) (s : State) : State := match exec c s with | .next t => t | _ => s

/-- The command changes nothing. -/
def idle (c : Instr) (s : State) : Bool := decide (after c s = s)

/-- A write reaches its register (`State.takesWrite`, as a Bool). -/
def takes (s : State) (m : Master) (a : Nat) (w : Word) : Bool :=
  s.matrixUp && s.coreUp && !s.refusesWrite m a && (!hostSide m || s.running || earlyAddr a) && (!hostSide m || !s.lockedWrite a w) &&
    !s.undefinedUnit a

theorem takes_iff (s : State) (m : Master) (a : Nat) (w : Word) : takes s m a w = true → s.takesWrite m a w := by
  simp only [takes, State.takesWrite, State.fabricUp, Bool.and_eq_true, Bool.or_eq_true, Bool.not_eq_true']
  rintro ⟨⟨⟨⟨⟨h1, h2⟩, h3⟩, h4⟩, h5⟩, h6⟩
  refine ⟨⟨h1, h2⟩, h3, fun h => ?_, fun h => ?_, h6⟩
  · rcases h4 with (h4 | h4) | h4
    · simp [h] at h4
    · exact .inl h4
    · exact .inr h4
  · rcases h5 with h5 | h5
    · simp [h] at h5
    · exact h5

/-- Engine 0 holds a job, with `CODE_TOP` 0x100. -/
def engine (x : EngSt) : State := (up! [(Reg.engCfg 0, 0x80000010)]).onEng 0 fun _ => x

/-- An engine with a job. -/
def busy : EngSt := { EngSt.init with job := some 0 }

/-- An instruction with every field 0. -/
def op0 : EngFields := { d := 0, a := 0, b := 0, c := 0, sgn := false, sat := false, hlf := false, msk := false, var := 0, imm := 0 }

/-- Engine `e` issues the instruction (`State.issues`, as a Bool). -/
def issue (s : State) (e : Nat) (op : EngOp) (f : EngFields) : Bool :=
  s.matrixUp && s.canIssue e && op.legal f && decide ((s.eng e).pc < s.codeTop e)

theorem issue_iff (s : State) (e : Nat) (op : EngOp) (f : EngFields) : issue s e op f = true → s.issues e op f := by
  simp only [issue, State.issues, Bool.and_eq_true, decide_eq_true_eq]
  exact fun ⟨⟨⟨h1, h2⟩, h3⟩, h4⟩ => ⟨h1, h2, h3, h4⟩

/-! ### Well-formed commands -/

theorem test_wf_encoding_reserved_field : Instr.wellFormed (.nop 0 { op0 with imm := 1 }) = false := by decide +kernel
theorem test_wf_encoding_reserved_bsel : Instr.wellFormed (.sadd 0 { op0 with imm := 0xC0000000 }) = false := by decide +kernel
theorem test_wf_reference_measured_twice : Instr.wellFormed (.strokeBoundary [⟨0, 1, 1⟩, ⟨0, 2, 1⟩]) = false := by decide +kernel
theorem test_wf_offset_measured_twice : Instr.wellFormed (.coxGate ⟨[(3, 1), (3, 2)], 0, 0, 0⟩) = false := by decide +kernel
theorem test_wf_marker_of_seven_bytes : Instr.wellFormed (.markerReceived 0 [1, 2, 3, 4, 5, 6, 7] 0) = false := by decide +kernel
theorem test_wf_measured_twice : Instr.wellFormed (.headLineStart 0 [(1, 0), (1, 0)] []) = false ∧ Instr.wellFormed (.gateLine 0 [(1, none), (1, none)] []) = false ∧
    Instr.wellFormed (.gateLine 0 [] [(2, 0, 0), (2, 1, 1)]) = false ∧ Instr.wellFormed (.audBlockClose [(0, []), (0, [])]) = false ∧
    Instr.wellFormed (.pwmPeriod ⟨[], [(0, none), (0, none)]⟩) = false ∧
    Instr.wellFormed (.pwmPeriod ⟨[⟨5, 1, true⟩, ⟨5, 2, true⟩], []⟩) = false := by decide +kernel
theorem test_wf_bad_op_is_bad : Instr.wellFormed (.nvsBadOp .pcie 4) = false ∧ Instr.wellFormed (.nvsBadOp .pcie 5) = true := by decide +kernel
theorem test_wf_bad_kick_is_bad : Instr.wellFormed (.wdtBadKick .pcie 0xC0A5) = false := by decide +kernel
theorem test_wf_neighbour_pins : Instr.wellFormed (.neighbourTest [80]) = false ∧ Instr.wellFormed (.neighbourTest [1, 1]) = false ∧
    Instr.wellFormed (.neighbourTest [0, 79]) = true := by decide +kernel
theorem test_wf_record_of_256_bytes : Instr.wellFormed (.identRecordRead 512 (some [1])) = false := by decide +kernel
theorem test_wf_sensors : Instr.wellFormed (.thmSample [⟨52, 0⟩]) = false ∧ Instr.wellFormed (.ldThmSample [⟨47, 0⟩]) = false ∧
    Instr.wellFormed (.thmSample [⟨1, 0⟩, ⟨1, 5⟩]) = false := by decide +kernel
theorem test_wf_empty_transfers : Instr.wellFormed (.pcieMemWrite false 0 [] false) = false ∧
    Instr.wellFormed (.pcieMemRead false 0 0 false) = false ∧ Instr.wellFormed (.qspiRead 0 0 true) = false ∧
    Instr.wellFormed (.qspiReadBar2 0 0 true) = false ∧ Instr.wellFormed (.i2cRead 0 false) = false := by decide +kernel
theorem test_wf_good : Instr.wellFormed (.vadd 3 { op0 with d := 31, a := 30, b := 29 }) = true ∧ Instr.wellFormed (.pcieMemRead true 0 4 false) = true :=
  by decide +kernel

/-! ### The module as a whole -/

theorem test_reset_memory_canonical : Memory.wf State.reset = true ∧ Registers.wf State.reset = true := by decide +kernel
theorem test_step_runs_the_front : step { up with pending := [.deadline, .resetPinRelease] } = exec .deadline { up with pending := [.resetPinRelease] } := rfl
theorem witness_canonical_step : Memory.wf { up with work := [(3, 1)] } = true ∧
    step { up with work := [(3, 1)] } = .next (tick { up with work := [(3, 1)] }) := ⟨by decide +kernel, rfl⟩
theorem witness_key_hash : ∃ s t : State, ∃ k, s.loader.otpHash = some k ∧ step s = .next t :=
  ⟨{ up with loader := { up.loader with otpHash := some [1] } }, tick { up with loader := { up.loader with otpHash := some [1] } }, [1], rfl, rfl⟩
theorem witness_storage_kept : programsStorage .pfiRise = false ∧ touchesMemory .pfiRise = false ∧ writesRegister .pfiRise = false ∧
    after .pfiRise up = { up with pins := { up.pins with pfiN := true } } := by decide +kernel
/-- R480, R487, R42, R320, R479: a write at each gate, and one that reaches its register. -/
theorem witness_register_gates :
    (up! [(Reg.glbIfHost, 0x20000)]).refusesWrite .pcie 0x20008 = true ∧
    (up.refusesWrite .pcie 0x20008 = false ∧ hostSide .pcie = true ∧ up.running = false ∧ earlyAddr 0x20008 = false) ∧
    ((run! []).running = true ∧ (run! []).refusesWrite .pcie 0xA00008 = false ∧ (run! []).lockedWrite 0xA00008 0 = false ∧
      (run! []).undefinedUnit 0xA00008 = true) ∧
    ((run! [(Reg.headCfg 0, 0xC0000000)]).refusesWrite .pcie (Reg.headWatch 0) = false ∧
      (run! [(Reg.headCfg 0, 0xC0000000)]).lockedWrite (Reg.headWatch 0) 0 = true) ∧
    takes (run! []) .pcie 0x20008 5 = true ∧ takes (run! []) .pcie 0x300000 5 = true := by decide +kernel
theorem test_plain_write_outside_running_is_lost : (after (.registerWrite .pcie 0x20040 7) up).loader.early = true ∧
    (after (.registerWrite .pcie 0x20040 7) up).rd 0x20040 = up.rd 0x20040 := by decide +kernel
/-- R477: `STROKE_LO` fills the latch, `STROKE_HI` answers from it. -/
theorem test_latch : isLo Reg.strokeLo = true ∧ up.moving Reg.strokeLo = none ∧
    (let s := { up with clock := { up.clock with stroke := 0x300000004 } }
     let t := after (.loRead .pcie (BitVec.ofNat 26 Reg.strokeLo)) s
     let u := after (.loRead .pcie (BitVec.ofNat 26 Reg.strokeHi)) { t with clock := { t.clock with stroke := 0x500000000 } }
     u.out = [.answer .pcie [4, 0, 0, 0], .answer .pcie [3, 0, 0, 0]]) := by decide +kernel

/-! ### Engines -/

/-- A vector register file entry with every lane equal. -/
def lanes (r : Nat) (v : Lane) : Nat × List Lane := (r, List.replicate 32 v)

/-- Engine 0 with V1, V2 and S1, S2. -/
def regs4 (v1 v2 : Lane) (s1 s2 : Word) : EngSt := { busy with v := [lanes 1 v1, lanes 2 v2], s := [(1, s1), (2, s2)] }

/-- Fields with d = 3, a = 1, b = 2. -/
def f312 : EngFields := { op0 with d := 3, a := 1, b := 2 }

/-- Lane 0 of `Vd` after an instruction. -/
def lane0 (c : Instr) (x : EngSt) : Lane := ((after c (engine x)).vreg 0 3).getD 0 0

/-- Sd after an instruction. -/
def scal (c : Instr) (x : EngSt) : Word := (after c (engine x)).sreg 0 3

/-- Every operation issues with these fields. -/
theorem witness_issue : (EngOp.all.all fun op => issue (engine busy) 0 op
    { op0 with imm := if op = .loop then 1 else if op = .vlut ∨ op = .vluti then 0x10000 else 0 }) = true := by decide +kernel
theorem test_word_of_vadd : engWord .vadd { op0 with d := 3, a := 1, b := 2, sgn := true } = 0x6061102000000000 := by decide +kernel
theorem test_vadd_saturates : lane0 (.vadd 0 { f312 with sgn := true, sat := true }) (regs4 0x7FFFF 1 0 0) = 0x7FFFF ∧
    lane0 (.vadd 0 { f312 with sgn := true }) (regs4 0x7FFFF 1 0 0) = 0x80000 := by decide +kernel
theorem test_vsub_halves : lane0 (.vsub 0 { f312 with sat := true, hlf := true }) (regs4 0x00401 0x00802 0 0) = 0 := by decide +kernel
theorem test_vmul_rounds : lane0 (.vmul 0 { f312 with imm := 0x00100000 }) (regs4 3 1 0 0) = 2 ∧
    lane0 (.vmul 0 { f312 with imm := 0x00100000, var := 1 }) (regs4 3 1 0 0) = 1 ∧
    lane0 (.vmul 0 { f312 with imm := 0x00100000, var := 2 }) (regs4 5 1 0 0) = 2 ∧
    EngOp.legal .vmul { f312 with var := 3 } = false := by decide +kernel
theorem test_vmin_signed : lane0 (.vmin 0 { f312 with sgn := true }) (regs4 0xFFFFF 1 0 0) = 0xFFFFF ∧
    lane0 (.vmax 0 f312) (regs4 0xFFFFF 1 0 0) = 0xFFFFF := by decide +kernel
theorem test_vabsd : lane0 (.vabsd 0 f312) (regs4 2 5 0 0) = 3 := by decide +kernel
theorem test_vsh_right : lane0 (.vsh 0 { f312 with sgn := true, var := 1 }) (regs4 0xFFFFD 0x3F 0 0) = 0xFFFFE ∧
    lane0 (.vsh 0 f312) (regs4 3 4 0 0) = 0x30 := by decide +kernel
theorem test_vlog_and_not : lane0 (.vlog 0 { f312 with var := 3 }) (regs4 0xF 0x3 0 0) = 0xC := by decide +kernel
theorem test_vmov_broadcast : lane0 (.vmov 0 { op0 with d := 3, imm := 0x80012345 }) busy = 0x12345 ∧
    lane0 (.vmov 0 { op0 with d := 3, b := 2, imm := 0x40000000 }) (regs4 0 0 0 0x00ABCDEF) = 0xBCDEF := by decide +kernel
theorem test_mask_keeps_lanes : lane0 (.vadd 0 { f312 with msk := true, c := 1 }) (regs4 7 7 0xFFFFFFFE 0) = 0 := by decide +kernel
theorem test_sadd_val_signed : scal (.sadd 0 { op0 with d := 3, a := 1, imm := 0x800FFFFF }) (regs4 0 0 5 0) = 4 := by decide +kernel
theorem test_ssh_arithmetic : scal (.ssh 0 { f312 with var := 2 }) (regs4 0 0 0x80000000 31) = 0xFFFFFFFF ∧
    scal (.ssh 0 { f312 with var := 1 }) (regs4 0 0 0x80000000 31) = 1 := by decide +kernel
theorem test_scalars : scal (.ssub 0 f312) (regs4 0 0 3 5) = 0xFFFFFFFE ∧ scal (.smul 0 f312) (regs4 0 0 0x10001 0x10001) = 0x20001 ∧
    scal (.sand 0 f312) (regs4 0 0 12 10) = 8 ∧ scal (.sor 0 f312) (regs4 0 0 12 10) = 14 ∧
    scal (.smov 0 { op0 with d := 3, imm := 0xDEADBEEF }) busy = 0xDEADBEEF := by decide +kernel
theorem test_vext_signed : scal (.vext 0 { op0 with d := 3, a := 1, sgn := true, imm := 31 }) (regs4 0xFFFFE 0 0 0) = 0xFFFFFFFE := by decide +kernel
theorem test_vcmp_less : scal (.vcmp 0 { f312 with var := 2, sgn := true }) (regs4 0xFFFFF 0 0 0) = 0xFFFFFFFF ∧
    scal (.vcmp 0 { f312 with var := 2 }) (regs4 0xFFFFF 0 0 0) = 0 := by decide +kernel
/-- Accumulators: A3 += V1 × V2, then `ASUM` and `ARD`. -/
theorem test_mac_asum_ard : (let s := after (.mac 0 { f312 with sgn := true }) (engine (regs4 0xFFFFF 6 0 0))
    (s.areg 0 3).getD 31 0 = 0xFFFFFFFFFFFA ∧ (after (.asum 0 { op0 with d := 4, a := 3 }) s).sreg 0 4 = 0xFFFFFF40 ∧
      ((after (.ard 0 { op0 with d := 4, a := 3, sgn := true, imm := 0x00200000 }) s).vreg 0 4).getD 0 0 = 0xFFFFF ∧
      ((after (.msu 0 { f312 with sgn := true }) s).areg 0 3).getD 0 0 = 0) ∧
    ((after (.aset 0 { op0 with d := 1, imm := 0x80300005 }) (engine busy)).areg 0 1).getD 0 0 = 40 := by decide +kernel
theorem test_lane_moves : ((after (.vsld 0 { f312 with imm := 31 }) (engine (regs4 1 2 0 0))).vreg 0 3).take 2 = [1, 2] ∧
    ((after (.vilv 0 f312) (engine (regs4 1 2 0 0))).vreg 0 3).take 2 = [1, 2] ∧
    lane0 (.vperm 0 f312) (regs4 1 2 0 0) = 1 ∧ lane0 (.vsel 0 { f312 with c := 1 }) (regs4 1 2 0xFFFFFFFE 0) = 2 := by decide +kernel
/-- R252: the last vector address of local memory, and the first byte of the data region. -/
theorem witness_loads_and_stores : (let s := engine (regs4 9 9 0xFFB0 0x100)
    issue s 0 .vld { op0 with d := 3, a := 1 } = true ∧ s.address 0 1 (fOff op0) 16 + 80 = 0x10000 ∧
    issue s 0 .vst { op0 with d := 2, a := 2 } = true ∧ s.codeTop 0 = s.address 0 2 (fOff op0) 16 ∧
    s.address 0 1 (fOff { op0 with imm := 0x4C }) 4 + 4 = 0x10000 ∧
    s.address 0 1 0 16 + packedBytes (31 * bf (s.sreg 0 0) 11 0 + 1) ≤ 0x10000 ∧
    issue s 0 .vlut { op0 with d := 3, a := 1, b := 2, imm := 0x10000 } = true ∧
    s.address 0 2 0 16 + packedBytes (2 ^ 1) ≤ 0x10000 ∧
    nget zeroByte (after (.vst 0 { op0 with d := 2, a := 2 }) s).work 0x100 = 9 ∧
    nget zeroByte (after (.sst 0 { op0 with d := 1, a := 2 }) s).work 0x101 = 0xFF) := by decide +kernel
/-- R252: one byte below the data region, and one line too high. -/
theorem witness_store_faults : (let s := engine (regs4 9 9 0xF0 0xFFC0)
    issue s 0 .vst { op0 with d := 2, a := 1 } = true ∧ s.address 0 1 0 16 < s.codeTop 0 ∧ 0x10000 < s.address 0 2 0 16 + 80 ∧
    (after (.vst 0 { op0 with d := 2, a := 1 }) s).work = [] ∧ (after (.vst 0 { op0 with d := 2, a := 1 }) s).f (Reg.engStat 0) 2 0 = s.f (Reg.engStat 0) 2 0 ∧
    0x10000 < (engine (regs4 0 0 0xFFFFFFFC 0)).address 0 1 0 4 + 4 ∧ (s.canIssue 0 = true ∧ EngOp.legal .nop { op0 with imm := 1 } = false) ∧
    (engine { busy with pc := 0x100 }).codeTop 0 ≤ ((engine { busy with pc := 0x100 }).eng 0).pc) := by decide +kernel
theorem test_vlut_clamps : ((after (.vlut 0 { op0 with d := 3, a := 1, b := 2, imm := 0x10000 })
    { engine (regs4 9 0 0 0x100) with work := [(0x102, 0x70)] }).vreg 0 3).getD 0 0 = 7 := by decide +kernel
theorem test_control : ((after (.br 0 { op0 with a := 1, var := 1, imm := 0x0005FFFE }) (engine { regs4 0 0 5 0 with pc := 0x20 })).eng 0).pc = 0x10 ∧
    ((after (.br 0 { op0 with a := 1, var := 2, imm := 0x0005FFFE }) (engine { regs4 0 0 5 0 with pc := 0x20 })).eng 0).pc = 0x28 ∧
    ((after (.loop 0 { op0 with a := 2, imm := 2 }) (engine (regs4 0 0 5 0))).eng 0).pc = 0x18 ∧
    ((after (.loop 0 { op0 with a := 1, imm := 2 }) (engine (regs4 0 0 5 0))).eng 0).loops = [⟨8, 0x18, 5⟩] := by decide +kernel
theorem test_loop_returns : ((after (.nop 0 op0) (engine { busy with pc := 0x10, loops := [⟨8, 0x18, 2⟩] })).eng 0).pc = 8 := by decide +kernel
/-- R254 to R257, R260: engines that wait and that need not. -/
theorem witness_waits : (let p : Posted := { slip := 1, slot := 0, line := 0, off := 0, words := [], queue := 5, descs := [] }
    let s := engine { busy with posted := [p] }
    issue s 0 .qwait op0 = true ∧ (s.eng 0).posted ≠ [] ∧ s.coreUp = true ∧
    ((after (.qwait 0 op0) s).eng 0).wait = some .qwait ∧ ((after (.qwait 0 op0) (engine busy)).eng 0).pc = 8 ∧
    ((after (.jend 0 op0) s).eng 0).wait = some (.jend 0) ∧ ((after (.jend 0 op0) (engine busy)).eng 0).job = none ∧
    ((after (.ldp 0 op0) s).eng 0).wait = some (.ldp (engWord .ldp op0))) := by decide +kernel
/-- R255: queue 5 is written by engine 0 and read by it; slot 0 of slip 1 is its output. -/
def qEngine (x : EngSt) : State :=
  let s := up! [(Reg.engCfg 0, 0x80000010), (Reg.engQcfg 0, 0x00050000), (Reg.queCfg 5, 0x30003000), (Reg.queSize 5, 4), (Reg.queXon 5, 1)]
  (s.onJik fun j => { j with flight := [(7, { crew := false, target := 0, desc := 0, record := none, out := some (1, 0), throttled := false, behind := false, ran := true })] }).onEng 0
    fun _ => { x with job := some (Desc.toRec { (Desc.ofRec 0) with dkind := 4, tag := 7, arg := 8 }) }
theorem witness_queues : (let s := qEngine EngSt.init
    s.dataQ false 0 = 5 ∧ s.consKind 5 = 3 ∧ s.consId 5 = 0 ∧ s.rd (Reg.queCfg 5) ≠ 0 ∧ s.mayPush 0 5 = true ∧ s.queueClosed 5 = false ∧
    s.mayPush 0 6 = false ∧ s.outSlot 0 = some (1, 0) ∧ (engine busy).outSlot 0 = none ∧
    (s.onQueue 5 fun q => { q with xoff := true }).queueClosed 5 = true ∧
    s.inLocal 0 (s.address 0 0 0 16) (packedBytes 0) false = true ∧
    ((after (.qin 0 op0) s).eng 0).wait = some (.qin (engWord .qin op0) 0 false 0) ∧
    ((after (.tsig 0 { op0 with imm := 5 }) s).queue 5).held.length = 1 ∧
    ((after (.qout 0 { op0 with var := 1, imm := 0x00050000 }) s).eng 0).posted.length = 1) := by decide +kernel
/-- R222, R255, R256: the completions of `JEND`, of `QIN` and of the posted writes that `QWAIT` waits for. -/
theorem witness_completions : (let s := (qEngine EngSt.init).wr (Reg.crwMember 0 0) 0
    let x : Flight := { crew := false, target := 0, desc := 0, record := none, out := some (1, 0), throttled := false, behind := false, ran := true }
    issue s 0 .jend op0 = true ∧ (s.eng 0).posted = [] ∧ (s.eng 0).cut = none ∧ s.parentOf false 0 (s.jobDesc 0).tag = none ∧
    nfind (s.jobDesc 0).tag s.jik.flight = some x ∧
    (let u := (s.wr (Reg.queCfg (s.doneQ x)) 0x10003000).wr (Reg.queSize (s.doneQ x)) 4
     u.queueOpen (u.doneQ x) = true ∧ u.rd (Reg.queCfg (u.doneQ x)) ≠ 0 ∧
     ((after (.jend 0 op0) u).queue (u.doneQ x)).held.length = 1 ∧ ((after (.jend 0 op0) u).eng 0).job = none ∧
     (after (.undefinedEncoding 0) u).rd (Reg.engFault 0) = 0x10070000 ∧ ((after (.undefinedEncoding 0) u).queue (u.doneQ x)).held.length = 1) ∧
    (let r := Desc.toRec { (Desc.ofRec 0) with dkind := 0, len := 2, line := 9, space := 1 }
     let t := s.onQueue 5 fun q => { q with held := [r] }
     (s.eng 0).stopped = false ∧ (Desc.ofRec r).dkind = 0 ∧ (Desc.ofRec r).poison = false ∧
     s.inLocal 0 (s.address 0 1 0 16) (packedBytes 2) true = false ∧
     (let v := t.onEng 0 fun y => { y with s := [(1, 0x100)] }
      issue v 0 .qin { op0 with d := 3, a := 1 } = true ∧ v.inLocal 0 (v.address 0 1 0 16) (packedBytes 2) true = true ∧
      ((after (.qinDataArrive 0) (after (.qin 0 { op0 with d := 3, a := 1 }) v)).sreg 0 3) = 0x00020009)) ∧
    (let p : Posted := { slip := 1, slot := 0, line := 0, off := 0, words := [], queue := 5, descs := [] }
     let w := engine { busy with posted := [p] }
     ((after (.postedWritesLanded 0) (after (.qwait 0 op0) w)).eng 0).pc = 8)) := by decide +kernel
/-- R256, R257: arrivals. -/
theorem witness_arrivals : (let w := engine { busy with wait := some (.ldp (engWord .ldp { op0 with d := 3, imm := 1 })) }
    w.matrixUp = true ∧ w.coreUp = true ∧
    ((after (.ldpWordArrive 0) { w with fstore := [(4, 0x11), (7, 0x22)] }).sreg 0 3) = 0x22000011 ∧
    ((after (.postedWritesLanded 0) (engine { busy with wait := some .qwait })).eng 0).wait = none ∧
    ((after (.postedWritesLanded 0) (engine { busy with wait := some (.jend 1) })).eng 0).job = none ∧
    (let s := qEngine { EngSt.init with wait := some (.qin (engWord .qin { op0 with d := 3 }) 0 false 0) }
     (s.pop 5).1 = none ∧ ((after (.qinDataArrive 0) s).eng 0).wait = (s.eng 0).wait ∧
     (let r := Desc.toRec { (Desc.ofRec 0) with dkind := 0, len := 2, line := 9 }
      let t := s.onQueue 5 fun q => { q with held := [r] }
      (t.pop 5).1 = some r ∧ (Desc.ofRec r).poison = false ∧ serialNewer 16 (t.jobDesc 0).stroke (Desc.ofRec r).stroke = false)) ∧
    (let q := qEngine EngSt.init
     let x := q.onQueue 5 fun y => { y with xoff := true, held := [0, 0] }
     (x.f (Reg.queXon 5) 17 0 < (x.queue 5).held.length ∧ idle (.queueXonRelease 5) x = true) ∧
     ((after (.queueXonRelease 5) (q.onQueue 5 fun y => { y with xoff := true, held := [0] })).queue 5).xoff = false)) := by decide +kernel

/-- Queue 5 in XOFF, drained to `XON`, with engine 0 waiting for it with this instruction. -/
def xonState (w : EngWait) : State := (qEngine { EngSt.init with wait := some w }).onQueue 5 fun y => { y with xoff := true, held := [0] }
/-- R183, R257: a queue that drains to `XON` releases the one engine that waits for it, in its `TSIG` or its `QOUT`. -/
theorem witness_xon_releases : (let g : EngFields := { op0 with imm := 5 }
    let s := xonState (.tsig (engWord .tsig g))
    (s.queue 5).xoff = true ∧ (s.queue 5).held.length ≤ s.f (Reg.queXon 5) 17 0 ∧ s.queueFull 5 = false ∧ engFieldsOf (engWord .tsig g) = g ∧
    bf g.imm 11 0 = 5 ∧ s.matrixUp = true ∧ s.coreUp = true ∧
    ((after (.queueXonRelease 5) s).queue 5).held.length = 2 ∧ ((after (.queueXonRelease 5) s).eng 0).pc = 8) ∧
   (let g : EngFields := { op0 with var := 1, imm := 0x00050000 }
    let s := xonState (.qout (engWord .qout g))
    s.queueFull 5 = false ∧ engFieldsOf (engWord .qout g) = g ∧ bf g.imm 27 16 = 5 ∧ g.var = 1 ∧ s.outSlot 0 = some (1, 0) ∧
    s.inLocal 0 (s.address 0 g.a 0 16) (packedBytes (min 5760 (bf (s.sreg 0 g.b.toNat) 28 16))) false = true ∧
    ((after (.queueXonRelease 5) s).eng 0).posted.length = 1 ∧ ((after (.queueXonRelease 5) s).queue 5).xoff = false) := by decide +kernel
theorem witness_one_waits (w : EngWait) (j : Nat) (h : ((xonState w).eng j).wait ≠ none) : j = 0 := by
  by_cases hj : j = 0
  · exact hj
  refine absurd ?_ h
  have : (xonState w).jik.engs = (nset (fun _ => EngSt.init) [] 0
    { EngSt.init with wait := some w, job := some (Desc.toRec { (Desc.ofRec 0) with dkind := 4, tag := 7, arg := 8 }) }) := rfl
  rw [State.eng, this, nget_nset_ne (h := hj)]
  rfl
/-- R256: the pushes of a posted write wait for their queue, and `QWAIT` with them. -/
theorem witness_pushes_wait : (let p : Posted := { slip := 1, slot := 0, line := 0, off := 0, words := [], queue := 5, descs := [0] }
    let s := (qEngine { EngSt.init with posted := [p], wait := some .qwait }).onQueue 5 fun y => { y with xoff := true }
    (s.eng 0).posted = [p] ∧ p.descs ≠ [] ∧ s.rd (Reg.queCfg p.queue) ≠ 0 ∧ s.queueOpen p.queue = false ∧
    ((after (.postedWritesLanded 0) s).eng 0).wait = some .qwait ∧ ((after (.postedWritesLanded 0) s).eng 0).posted = [p] ∧
    ((s.onQueue 5 fun y => { y with xoff := false }).land 0).eng 0 = { s.eng 0 with posted := [] }) := by decide +kernel
/-- R242, R259: the program counter wraps at 16 bits. -/
theorem test_pc_wraps : (EngSt.onwards { busy with pc := 0xFFF8 }).pc = 0 := by decide +kernel
/-! ### Jobs and crews -/

/-- The parts of a job of 7 lines from line 10 for weights 1 and 2 (R227). -/
theorem test_crew_parts : (let s := up! [(Reg.crwCfg 0, 0x82000000), (Reg.crwMember 0 0, 0x103), (Reg.crwMember 0 1, 0x204)]
    0 < s.f (Reg.crwCfg 0) 28 24 ∧ 0 < (s.member 0 0).2.2 ∧ s.divide 0 10 7 = [(false, 3, 10, 2), (false, 4, 12, 5)]) := by decide +kernel
theorem test_done_descriptor : (Desc.ofRec (doneDesc (Desc.toRec { (Desc.ofRec 0) with dkind := 4, tag := 9 }) 3 true 5)).arg = 0x38000000 ∧
    (Desc.ofRec (doneDesc (Desc.toRec { (Desc.ofRec 0) with dkind := 4, tag := 9 }) 0 false 5)).arg = 5 ∧ (3 : Nat) < 16 := by decide +kernel
/-- Engine 0 idle, its kernel 3 at 0x40, a job for it in queue 5; crew 1 with a job in queue 6 and a line in queue 7. -/
def jobs (x : EngSt) : State :=
  let s := up! [(Reg.engCfg 0, 0x80050010), (Reg.synStat 1, 2), (Reg.crwCfg 1, 0x81000000), (Reg.crwQcfg 1, 0x00060007), (Reg.crwMember 1 0, 0x100),
    (Reg.queCfg 5, 0x30003000), (Reg.queSize 5, 2)]
  ((s.onEng 0 fun _ => { x with kernels := [(3, 0x40)] }).onQueue 5 fun q =>
    { q with held := [Desc.toRec { (Desc.ofRec 0) with dkind := 1 }, Desc.toRec { (Desc.ofRec 0) with dkind := 4, tag := 2, arg := 3 * 128 }] }).onQueue 6 fun q =>
      { q with held := [Desc.toRec { (Desc.ofRec 0) with dkind := 4, line := 4, arg := 8 * 0x80000 }] }
theorem witness_engine_takes_a_job : (let s := jobs EngSt.init
    s.matrixUp = true ∧ s.coreUp = true ∧ s.jobQ false 0 = 5 ∧ s.jik.guard = false ∧ s.engClock = true ∧ s.b (Reg.engCfg 0) 31 = true ∧
    nfind (Desc.ofRec ((s.queue 5).held.getD 1 0)).kernel (s.eng 0).kernels = some 0x40 ∧
    (s.queue 5).held.map (fun r => (Desc.ofRec r).dkind) = [1, 4] ∧ ((after (.engineTakeJob 0) s).eng 0).pc = 0x40 ∧ (after (.engineTakeJob 0) s).rd (Reg.engStat 0) = 0x80020003 ∧
    idle (.engineTakeJob 0) (jobs busy) = true ∧ ((jobs busy).eng 0).job.isSome = true ∧
    idle (.engineTakeJob 0) (s.onJik fun j => { j with guard := true }) = true) := by decide +kernel
theorem witness_held_writes : (let s := engine { EngSt.init with held := [(0x200, [1, 2]), (0x201, [3])] }
    (after (.engHeldWrite 0) s).work = [(0x200, 1), (0x201, 3)] ∧ ((after (.engHeldWrite 0) s).eng 0).held = [] ∧ (s.eng 0).job = none ∧
    idle (.engHeldWrite 0) (engine { busy with held := [(0x200, [1])] }) = true ∧
    ((after (.engHeldWrite 0) (engine { busy with cut := some none, held := [(0x200, [1])] })).eng 0).held = []) := by decide +kernel
theorem witness_crews : (let s := jobs EngSt.init
    s.jobQ true 1 = 6 ∧ (s.crew 1).job = none ∧ s.b (Reg.crwCfg 1) 31 = true ∧ s.engClock = true ∧ (s.queue (s.dataQ true 1)).held = [] ∧
    ((after (.crewTakeJob 1) s).crew 1).parts = [(false, 0, 4, 8)] ∧ s.jobQ false 0 = 5 ∧ s.queueOpen 5 = false ∧
    (let e := s.onQueue 5 fun q => { q with held := [] }
     e.queueOpen 5 = true ∧ e.rd (Reg.queCfg 5) ≠ 0 ∧ ((after (.crewTakeJob 1) e).queue 5).held.length = 1) ∧
    (let r := Desc.toRec { (Desc.ofRec 0) with line := 4 }
     let u := ((after (.crewTakeJob 1) s).onQueue 7 fun q => { q with held := [r] }).wr (Reg.queCfg 0) 0x30003000
     let v := u.wr (Reg.queSize 0) 4
     u.lineMembers 1 4 = [(false, 0)] ∧ v.queueOpen 0 = true ∧ u.queueOpen 0 = false ∧ idle (.crewLineRoute 1) u = true ∧
     serialNewer 16 (Desc.ofRec (((u.crew 1).job).getD 0)).stroke (Desc.ofRec r).stroke = false ∧ (u.crew 1).job.isSome = true ∧
     ((after (.crewLineRoute 1) v).queue (v.dataQ false 0)).held = [r] ∧
     (after (.crewLineRoute 1) (v.onQueue 7 fun q => { q with held := [Desc.toRec { (Desc.ofRec 0) with line := 12 }] })).rd (Reg.queStale 7) = 1 ∧
     (after (.crewLineRoute 1) (v.onQueue 7 fun q => { q with held := [Desc.toRec { (Desc.ofRec 0) with dkind := 2 }] })).rd (Reg.queStale 7) = 0) ∧
    idle (.crewTakeJob 1) (s.onJik fun j => { j with guard := true }) = true ∧
    idle (.crewTakeJob 1) (s.wr (Reg.synStat 1) 5) = true) := by decide +kernel
theorem witness_manifest : (let s := up! [(Reg.manifestWord 0 0, 1)]
    s.recRuns 0 = true ∧ s.engClock = false ∧ s.recRuns 1 = false ∧
    (after (.manifestRecordStart 0) s).rd Reg.engSkipCnt = 1 ∧
    idle (.manifestRecordStart 0) (after (.manifestRecordStart 0) s) = true ∧
    (up! [(Reg.manifestWord 0 0, 1), (Reg.manifestWord 0 2, 16666667), (Reg.synStat 1, 2)]).deadlineNs ≤ 16666667 ∧
    (after .deadline (s.onJik fun j => { j with void := [(1, 1)] })).jik.guard = true) := by decide +kernel
/-- R231: a record that runs puts its `JOB`, with its tag, into the queue of engine 0. -/
theorem witness_record_runs : (let s := up! [(Reg.manifestWord 0 0, 1), (Reg.manifestWord 0 1, 9), (Reg.synStat 1, 2), (Reg.engCfg 0, 0x80050010),
      (Reg.queCfg 5, 0x30003000), (Reg.queSize 5, 4)]
    s.recRuns 0 = true ∧ s.jik.ran = [] ∧ s.engClock = true ∧ s.jik.guard = false ∧ (s.recWord 0 2).toNat < s.deadlineNs ∧
    s.thm.inForce = false ∧ bit (s.recWord 0 7) 11 = false ∧ bit (s.recWord 0 5) 26 = false ∧ s.queueOpen 5 = true ∧
    (after (.manifestRecordStart 0) s).jik.flight.map (·.1) = [9] ∧
    ((after (.manifestRecordStart 0) s).queue 5).held.map (fun r => ((Desc.ofRec r).dkind, (Desc.ofRec r).tag)) = [(4, 9)]) := by decide +kernel
/-! ### The chart loader -/

/-- A state with the loader changed. -/
def withLoader (s : State) (g : LoaderSt → LoaderSt) : State := s.onLoader g

/-- Eight words of a key hash, and the first key write at time 0, with the clock at `n` ns. -/
def keyed (n : Nat) (words : Nat) : State :=
  { up with clock := { up.clock with time := 20 * n }, loader := { up.loader with otpKeyAt := some 0, otpData := List.replicate words 0x01020304 } }
theorem witness_key_sequence : takes up .pcie Reg.chtOtpCtrl 0x5A0D0000 = true ∧ takes up .pcie Reg.chtOtpCtrl 0xC0DE0003 = true ∧
    takes up .pcie Reg.chtOtpCtrl 0xC0DE0001 = true ∧ takes up .pcie Reg.chtOtpData 7 = true ∧
    (after (.otpBurn .pcie) (keyed 1000000 8)).loader.otpHash = some ((List.replicate 8 [4, 3, 2, 1]).flatten) ∧
    (after (.otpTestAllow .pcie) (keyed 1000000 8)).loader.otpTest = true ∧
    (after (.otpBurn .pcie) (keyed 1000001 8)).loader.otpHash = none ∧ (after (.otpBurn .pcie) (keyed 0 7)).loader.otpHash = none ∧
    (after (.chtOtpData .pcie 9) (keyed 0 8)).loader.otpData.getLast? = some 9 := by decide +kernel
theorem witness_flash : takes up .pcie Reg.chtFlashCtrl 4 = true ∧ takes up .pcie Reg.chtFlashCtrl 8 = true ∧
    takes up .pcie Reg.chtFlashCtrl 0x5E5E0005 = true ∧ takes up .pcie Reg.chtFlashCtrl 0x5E5E0009 = true ∧ up.loadingFrom false = false ∧
    (withLoader (up! [(Reg.chtState, 0x11)]) fun l => { l with phase := .header }).loadingFrom false = true ∧
    (let s := { up! [(Reg.chtFlashAddr, 0x1FFF)] with cflash := [(0xFFF, 1), (0x1000, 2), (0x1FFF, 3), (0x2000, 4)] }
     (after (.flashErase .pcie false) s).cflash = [(0xFFF, 1), (0x2000, 4)] ∧
     (after (.flashErase .pcie true) s).cflash = s.cflash ∧
     (after (.flashProgram .pcie false) s).loader.flashOpen = some 0x1000) := by decide +kernel
theorem witness_push_and_pull : (let s := { up with pins := { up.pins with straps := 2 }, loader := { up.loader with phase := .waiting } }
    takes s .pcie Reg.chtCtrl 1 = true ∧ s.loadState = 0 ∧ s.pins.straps % 4 = 2 ∧ s.loader.phase = .waiting ∧
    (after (.pullGo .pcie) s).loadSlot = 4 ∧ up.loader.phase ≠ .waiting ∧ idle (.pullGo .pcie) up = true) ∧
    takes up .qspi (Reg.chtPushData 1023) 7 = true ∧ (up.loader.amd = none ∧ up.loader.phase ≠ .waiting ∧ up.loadSlot ≠ 3 ∧
      (after (.chtPushData .qspi 0 0x04030201) up).loader.push = [1, 2, 3, 4]) := by decide +kernel

theorem witness_push_full : 16384 < (withLoader up fun l => { l with push := List.replicate 16381 0 }).loader.push.length + 4 ∧
    (withLoader up fun l => { l with push := List.replicate 16381 0 }).takesWrite .qspi (Reg.chtPushData 1023) 7 :=
  ⟨by rw [show (withLoader up fun l => { l with push := List.replicate 16381 0 }).loader.push = List.replicate 16381 0 from rfl, List.length_replicate]; omega, takes_iff up .qspi (Reg.chtPushData 1023) 7 (by decide +kernel)⟩

/-- A chart of three segments with nothing in them but one byte each: header and directory. -/
def chart (baseId : Nat) (types : List Nat) (crc : Nat := crc32 [0]) : List Byte :=
  let dir := types.zipIdx.flatMap fun t => [BitVec.ofNat 8 t.1, BitVec.ofNat 8 t.2, 0, 0] ++ leBytes 4 (4096 * (t.2 + 1)) ++ leBytes 4 1 ++ leBytes 4 crc
  let head := [0x44, 0x47, 0x58, 0x43] ++ leBytes 2 0 ++ leBytes 2 3 ++ leBytes 4 0xD51200B0 ++ leBytes 4 0 ++ leBytes 8 1 ++ leBytes 8 baseId
    ++ leBytes 4 60 ++ leBytes 4 1 ++ leBytes 2 types.length ++ leBytes 2 0 ++ leBytes 4 0 ++ leBytes 4 (crc32 dir) ++ List.replicate 0xC8 0
  head ++ leBytes 4 (crc32 head) ++ dir

/-- The loader reads a header from PRIMARY. -/
def reading (p : LoadPhase) : State := withLoader (up! [(Reg.chtState, 0x11)]) fun l => { l with phase := p }
set_option maxRecDepth 1000000 in
theorem witness_headers : (reading .header).partHere = true ∧ (reading .header).matrixUp = true ∧
    headerCheck ((chart 0 [1, 2, 9]).take 256) true = 0 ∧ dirCheck (Header.parse (chart 0 [1, 2, 9])) ((chart 0 [1, 2, 9]).drop 256) true true = 0 ∧
    (after (.headerRead (some (chart 0 [1, 2, 9]))) (reading .header)).loader.phase = .reading 0 ∧
    headerCheck ((chart 5 [1, 2, 9]).take 256) true = 0xF ∧ headerCheck [] true = 1 ∧
    dirCheck (Header.parse (chart 0 [1, 2])) ((chart 0 [1, 2]).drop 256) true true = 7 ∧
    idle (.headerRead (some [])) up = true ∧ up.loader.phase ≠ .header := by decide +kernel
set_option maxRecDepth 1000000 in
/-- R30, R35: the loader reads the header that PRIMARY's flash holds. -/
theorem witness_header_from_flash : (let s := { reading .header with cflash := writeBytes erasedByte [] (slotBase false) (chart 0 [1, 2, 9]) }
    s.partHere = true ∧ (s.chartBytes 0 256).length = 256 ∧ headerCheck (s.chartBytes 0 256) true = 0 ∧
    (after (.headerRead none) s).loader.phase = .reading 0) := by decide +kernel
theorem witness_failed_load : (reading .header).loadSlot = 1 ∧ ((reading .header).loadFail 5 0).loadSlot = 2 ∧
    (up! [(Reg.chtState, 0x21)]).loadSlot ≠ 1 ∧ (up! [(Reg.chtState, 0x21)]).loader.placed = [] ∧
    ((up! [(Reg.chtState, 0x21)]).loadFail 31 10).rd Reg.chtReason &&& 0xFFFF = 0x0A1F := by decide +kernel
/-- In FIRST_LIGHT, with what `FIRST_LIGHT` and `KERNELS` placed in working memory. -/
def filledState : State := withLoader { up! [(Reg.chtState, 0x12)] with work := [(5, 1), (7, 2), (9, 3)], fstore := [(5, 4)] } fun l =>
  { l with filled := [(1, false, 4, 2), (9, false, 7, 2)] }
/-- R38: what the segments had placed is cleared; in FIRST_LIGHT what `FIRST_LIGHT` placed stays. -/
theorem test_failed_load_clears : (let s := filledState
    (s.loadFail 5 0).work = [(5, 1), (9, 3)] ∧ ((s.wr Reg.chtState 0x11).loadFail 5 0).work = [(9, 3)] ∧ (s.loadFail 5 0).fstore = [(5, 4)] ∧
    takes s .pcie Reg.chtFlashCtrl 4 = true ∧ takes (s.wr Reg.chtState 0x11) .pcie Reg.chtFlashCtrl 4 = true) := by
  decide +kernel
/-- A segment of order 0 of an unsigned chart, its CRC that of no byte. -/
def segment (p : LoadPhase) (reread : Bool) : State := (reading p).onLoader fun l =>
  { l with hdr := some (Header.parse []), dir := [{ typ := 9, order := 0, offset := 4096, length := 0, crc := 0 }], reread := reread }
/-- The same state with a `FIRMWARE` segment placed. -/
def placed9 : State := (segment (.reading 0) false).placeContent 9 SegContent.none
theorem test_slips_ok : placed9.slipsOk = true ∧ placed9.watchSlipsOk = true := by decide +kernel
theorem test_queues_ok : placed9.queuesOk = true := by decide +kernel
theorem test_heads_ok : placed9.headsOk = true ∧ placed9.watchHeadsOk = true ∧ placed9.regionsOk = true := by decide +kernel
theorem test_manifest_ok : placed9.crewsOk = true ∧ placed9.manifestOk = true := by decide +kernel
theorem test_audio_ok : placed9.recordsOk SegContent.none = true ∧ placed9.tdmOk = true ∧ placed9.clipsOk = true := by decide +kernel
theorem witness_content : (segment (.reading 0) false).segmentOk 9 (some SegContent.none) = true := by
  have h : (segment (.reading 0) false).segmentOk 9 (some SegContent.none) = placed9.contentOk SegContent.none := rfl
  rw [h]; unfold State.contentOk
  rw [test_slips_ok.1, test_slips_ok.2, test_queues_ok, test_heads_ok.1, test_heads_ok.2.1, test_heads_ok.2.2,
    test_manifest_ok.1, test_manifest_ok.2, test_audio_ok.1, test_audio_ok.2.1, test_audio_ok.2.2]
  rfl
theorem witness_segments : (let s := segment (.reading 0) false
    s.loader.dir.find? (fun d => d.order == 0) = some { typ := 9, order := 0, offset := 4096, length := 0, crc := 0 } ∧ s.partHere = true ∧
    (Header.parse []).signed = false ∧ crc32 [] = 0 ∧ crc32 [1] ≠ 0 ∧
    (after (.segmentRead (some [1]) (some SegContent.none)) s).loader.reread = true ∧
    (after (.segmentRead (some [1]) none) (segment (.reading 0) true)).loadSlot = 2 ∧
    (after (.segmentRead (some []) none) s).f Reg.chtReason 20 16 = 0xD) := by decide +kernel
/-- `TRUST` of a signed chart with a programmed key hash (R34): another key is refused 9. -/
def trust (signed : Bool) : State := (reading (.reading 0)).onLoader fun l =>
  { l with hdr := some (Header.parse (if signed then List.replicate 40 0 ++ [0, 0, 1, 0] else [])), otpHash := some [1]
           dir := [{ typ := 10, order := 0, offset := 4096, length := 0x600, crc := crc32 (List.replicate 4 0) }] }
set_option maxRecDepth 1000000 in
theorem witness_trust : (let s := trust false
    (after (.segmentRead (some (List.replicate 4 0)) none) s).loader.phase = .placing 0 ∧ bytesAt (List.replicate 4 0) 0x44 4 ≤ 16 ∧
    s.loader.trustCheck (Header.parse []) [] (List.replicate 4 0) = 0) := by decide +kernel
/-- Content that places nothing. -/
def noContent : SegContent :=
  { regs := [], crossings := [], ports := [], stages := [], rbLocked := [], kernels := [], light := none, preloads := [], clips := [] }
set_option maxRecDepth 1000000 in
theorem witness_placed_segments : (let s := (segment (.placing 0) false).onLoader fun l => { l with content := some SegContent.none }
    let u := (s.placeContent 9 SegContent.none).startClocks
    u.loader.dir.length ≤ 0 + 1 ∧ (after .segmentPlaced s).loader.phase = .lastPlaced ∧
    (let v := s.onLoader fun l => { l with dir := l.dir ++ [{ typ := 1, order := 1, offset := 8192, length := 0, crc := 0 }] }
     (after .segmentPlaced v).loader.phase = .reading 1)) := by decide +kernel
/-- An amendment that `GO` has started. -/
def amending (take : Nat) : State := withLoader (run! [(Reg.chtRunIdLo, 1), (Reg.chtAmdShadow, 1)]) fun l =>
  { l with amd := some { path := 0, take := take, image := [], staged := false, reread := [], guard := 0, mtags := 0 } }
theorem witness_amendments : takes (run! []) .pcie Reg.chtAmdCtrl 1 = true ∧ takes (run! []) .pcie Reg.chtAmdCtrl 5 = true ∧
    takes (amending 0) .pcie Reg.chtAmdCtrl 1 = true ∧ takes (amending 0) .pcie Reg.chtAmdCtrl 2 = true ∧ takes up .pcie Reg.chtAmdCtrl 1 = true ∧
    (after (.amdGo .pcie true) (run! [])).loader.amd.isSome = true ∧ (after (.amdGo .pcie false) up).rd Reg.chtAmdStatus = 0x170004 ∧
    (after (.amdAbort .pcie) (amending 0)).loader.amd = none := by decide +kernel
set_option maxRecDepth 1000000 in
/-- Staged with its take-stroke ahead, passed, and with none. -/
theorem witness_staging : (amending 0).amdFront (chart 1 [2, 4] 0) = 0 ∧ wrongSegments (chart 1 [2, 4] 0) = [] ∧
    (amending 0).amdBack (chart 1 [2, 4] 0) 0 0 = 0 ∧
    (after (.amdStaged (some (chart 1 [2, 4] 0)) 0 0) (amending 0)).rd Reg.chtAmdStatus = 2 ∧
    (after (.amdStaged (some (chart 1 [2, 4] 0)) 0 0) (amending 5)).rd Reg.chtAmdStatus = 2 ∧
    serialNewer 48 5 (amending 5).clock.stroke.toNat = true ∧
    (after (.amdStaged (some (chart 1 [2, 4] 0)) 0 0) (amending 0x900000000000)).rd Reg.chtAmdStatus = 0x150004 := by decide +kernel
set_option maxRecDepth 1000000 in
/-- R32: wrong CRCs are read once more. -/
theorem test_amendment_reread : wrongSegments (chart 1 [2, 4]) = [2, 4] ∧
    (after (.amdStaged (some (chart 1 [2, 4])) 0 0) (amending 0)).rd Reg.chtRetryCnt = 2 ∧
    (after (.amdStaged (some (chart 1 [2, 4])) 0 0) (after (.amdStaged (some (chart 1 [2, 4])) 0 0) (amending 0))).rd Reg.chtAmdStatus =
      0xB0004 := by decide +kernel
theorem test_amendment_with_bad_header : (amending 0).amdFront [] = 1 ∧
    (after (.amdStaged (some []) 0 0) (amending 0)).rd Reg.chtAmdStatus = 0x10004 := by decide +kernel

/-! ### References, the Cox, strokes and synthesizers -/

/-- References 1 and 3 enabled and qualified, with QL 4 and 4 and priorities 2 and 1. -/
def refs (l : List (Nat × Word)) : State :=
  up! ([(Reg.coxRefCfg 1, 0x80000022), (Reg.coxRefCfg 3, 0x80000012), (Reg.coxRefStat 1, 9), (Reg.coxRefStat 3, 9), (Reg.coxRefQl 1, 4), (Reg.coxRefQl 3, 4)] ++ l)
theorem witness_winner : (refs []).qualified 1 = true ∧ (refs []).qualified 3 = true ∧ (refs []).qualified ((refs []).f Reg.coxSel 2 0) = false ∧
    (refs [(Reg.coxSel, 1)]).coxWinner = some 1 ∧ up.coxWinner = none := by decide +kernel
theorem witness_gate : gateOffset ⟨[(1, 9200001), (3, 9200000)], 7, 0, 0⟩ 1 = some 9200001 ∧
    (after (.coxGate ⟨[(1, 9200001)], 7, 0, 0⟩) (refs [])).b (Reg.coxRefStat 1) 2 = true ∧
    (after (.coxGate ⟨[(3, 9200000)], 7, 0, 0⟩) (refs [])).b (Reg.coxRefStat 3) 2 = false ∧
    (refs []).refOn 1 = true ∧ (refs []).refOn 2 = false ∧
    (after (.coxGate ⟨[], 7, 0, 0⟩) (refs [])).rd Reg.coxPhaseErr = 7 := by decide +kernel
/-- R54: the byte 0xB4 carries 4 and its complement 0xB; twice in a row it is in force. -/
theorem witness_quality : (let s := up! [(Reg.coxRefCfg 3, 0x80000002)]
    let t := after (.qlMessage 3 0xB4 true) s
    s.b (Reg.coxRefCfg 3) 1 = true ∧ (t.ref 3).lastQl = 4 ∧ 0 < (t.ref 3).qlRun ∧
    (after (.qlMessage 3 0xB4 true) t).ql 3 = 4 ∧ (after (.qlTimeout 3) (after (.qlMessage 3 0xB4 true) t)).ql 3 = s.f (Reg.coxRefQl 3) 3 0 ∧
    (after (.qlMessage 3 0xA4 true) s).f (Reg.coxRefStat 3) 23 16 = 1 ∧ (after (.qlMessage 3 0xB4 false) s).f (Reg.coxRefStat 3) 23 16 = 1 ∧
    idle (.qlMessage 0 0xB4 true) s = true ∧ (after (.refActivityLoss 1) (refs [])).qualified 1 = false ∧
    (after (.refActivityReturn 1) up).b (Reg.coxRefStat 1) 0 = true) := by decide +kernel
theorem witness_cox_writes : takes (run! []) .pcie Reg.coxCtrl (setFld 0x30 1 0 2) = true ∧ takes (run! []) .pcie Reg.coxSel 5 = true ∧
    takes (run! []) .pcie Reg.coxSteer 0x7FFFFFFF = true ∧ takes (run! []) .pcie Reg.coxSlewCtrl 0x10005 = true ∧
    (after (.coxSteerWrite .pcie 0x7FFFFFFF) (run! [])).rd Reg.coxSteer = 200000000 ∧
    (after (.coxSteerWrite .pcie 0x80000000) (run! [])).i32 Reg.coxSteer = -200000000 ∧
    (after (.coxForceFree .pcie 0) (run! [])).coxMode = 2 ∧ (after (.coxManual .pcie 0) (run! [])).coxMode = 0 ∧
    (after (.coxForceHold .pcie 0) (run! [])).coxMode = 1 ∧ (after (.coxSelWrite .pcie 5) (run! [])).f Reg.coxSel 2 0 = 5 ∧
    (after (.slewGo .pcie 5) (run! [(Reg.coxSlewTarget, 100)])).cox.slewLeft = 100 := by decide +kernel
theorem witness_cox_timers : (let s := (up! [(Reg.coxSlewCtrl, 0x80000000)]).onCox fun c => { c with wtr := some 2, slewLeft := 40 }
    s.cox.wtr = some 2 ∧ (after (.wtrExpiry 2) s).cox.wtr = none ∧ idle (.wtrExpiry 1) s = true ∧ s.cox.switch = none ∧
    (after .slewDone s).rd Reg.coxBuildout = s.rd Reg.coxBuildout + 40 ∧ idle .slewDone up = true ∧
    (after .holdValid ((up! [(Reg.coxState, 2)]).onCox fun c => { c with lockedTime := 199666666667 })).b Reg.coxState 11 = true ∧
    idle .holdValid ((up! [(Reg.coxState, 2)]).onCox fun c => { c with lockedTime := 199666666666 }) = true ∧
    (after (.syncOutPulseEnd 0) { up with pins := { up.pins with syncOut0 := true } }).pins.syncOut0 = up.b (Reg.coxSyncOut 0) 30 ∧
    (up.tcSensors.filter fun c => !up.b (sensorReg c) 31).isEmpty = false) := by decide +kernel
theorem witness_boundary : (let s := up! [(Reg.coxCtrl, 2)]
    s.cox.adopt = false ∧ s.cox.switch = none ∧ s.cox.failDue = false ∧ s.coxMode = 2 ∧ (up! [(Reg.coxCtrl, 1)]).coxMode = 1 ∧
    (coxBoundary [] s).clock.stroke = 1 ∧ (coxBoundary [] s).coxState = 0 ∧ (coxBoundary [] (up! [(Reg.coxCtrl, 1), (Reg.coxState, 0x800)])).coxState = 3 ∧
    s.coreUp = true ∧ s.loader.flNext = none ∧ s.clock.rateNext = none ∧ s.cox.slewLeft = 0 ∧
    (after (.strokeBoundary []) s).clock.stroke = 1 ∧ (after (.strokeBoundary []) s).lgt.inFlight.isSome = true ∧
    (let u := s.wr (Reg.synStat 0) 4
     u.coreUp = false ∧ (after (.strokeBoundary []) u).clock.stroke = 1 ∧
     (after (.strokeBoundary []) (u.onClock fun c => { c with rateNext := some (50, 2) })).clock.rateDen = 2) ∧
    (coxBoundary [] (s.onCox fun c => { c with adopt := true, adoptNum := some 77 })).clock.stroke = 77) := by decide +kernel
/-- Synthesizer `k` in a state. -/
def syn (k st : Nat) : State := up! [(Reg.synStat k, BitVec.ofNat 32 st)]
theorem witness_synthesizers : (syn 5 2).synState 5 = 2 ∧ (after (.synLockLoss 5 true) (syn 5 2)).synState 5 = 3 ∧
    (syn 5 3).synState 5 = 3 ∧ (after (.synFerrMeasure 5 50000) (syn 5 3)).synState 5 = 3 ∧
    (after (.synFerrMeasure 5 (-50001)) (syn 5 3)).synState 5 = 4 ∧
    (after (.synFerrMeasure 0 50001) (syn 0 3)).coreUp = false ∧ idle (.synLock 0) (after (.synFerrMeasure 0 50001) (syn 0 3)) = true := by decide +kernel
theorem witness_relock : (after (.synLock 1) (syn 1 4)).synState 1 = 2 ∧ (after (.synLock 5) (syn 5 3)).synState 5 = 2 ∧
    idle (.synLock 5) (syn 5 2) = true ∧ takes (run! []) .pcie (Reg.synCtrl 5) 1 = true ∧ (run! []).feedsWatch 5 = false := by decide +kernel

/-! ### Ports and Lonan -/

/-- Port 8 alone, enabled as a link, on a rung of the ladder, with state of its own. -/
def port (rung : Nat) (g : PortSt → PortSt) : State := ((run! [(Reg.prtCfg 8, 0x08000000)]).setLadder 8 rung).onPort 8 g

/-- `CDR_LOCK` of the lanes of group 8 that `GOOD` shows. -/
def locks (grp : Word) (ps : List Nat) : List (Nat × Word) := ps.map fun p => (Reg.prtStat p, if bit grp (16 + p) then 0x1000 else 0)

/-- Ports 8 and 9 one group of two, both on a rung. -/
def duo (rung : Nat) (grp : Word) (g : PortSt → PortSt) : State :=
  ((run! ([(Reg.prtCfg 8, 0x09000000), (Reg.prtCfg 9, 0x09000000), (Reg.prtGrpStat 8, grp)] ++ locks grp [8, 9])).setLadder 8 rung).onPort 8 g

/-- The transmitter is out of electrical idle. -/
def talks (x : PortSt) : PortSt := { x with txIdle := false }

/-- Ports 8 to 11 one group of four, on a rung. -/
def quad (rung : Nat) (grp : Word) (g : PortSt → PortSt) : State :=
  ((run! ((Reg.prtGrpStat 8, grp) :: locks grp [8, 9, 10, 11] ++ [8, 9, 10, 11].map fun p => (Reg.prtCfg p, 0x0A000000))).setLadder 8 rung).onPort 8 g

/-- The lanes of a group whose pads send nothing: the TAP holds them. -/
def padded (s : State) : State := { s with pins := { s.pins with extest := true } }
theorem witness_ladder : (port 1 id).matrixUp = true ∧ (port 1 id).lead 8 = 8 ∧ (port 1 id).lanes 8 = [8] ∧ (port 1 id).ladder 8 = 1 ∧
    (port 1 id).pins.extest = false ∧ (after (.detectDone 8) (port 1 id)).ladder 8 = 2 ∧
    idle (.detectDone 8) (padded (port 1 id)) = true ∧ idle (.detectDone 8) (port 2 id) = true ∧
    (after (.trainDone 8 true) (port 2 id)).ladder 8 = 3 ∧ (after (.trainDone 8 true) (port 2 id)).b (Reg.prtStat 8) 13 = true ∧
    (after (.trainTimeout 8 true) (port 2 id)).ladder 8 = 1 ∧ idle (.trainTimeout 8 true) (port 2 fun x => { x with relock := true }) = true ∧
    ((after (.trainDone 8 false) (port 2 fun x => { x with retrain := true })).port 8).resumeDue = true ∧
    idle (.trainTimeout 8 true) (port 2 fun x => { x with resumeDue := true }) = true := by
  decide +kernel
theorem witness_negotiation : (let s := port 3 fun x => { x with neg := some [2, 0, 0, 1], rxAck := true, txAck := true }
    s.ladder (s.lead 8) = 3 ∧ s.rough 8 true = false ∧ ((port 3 fun x => { talks x with neg := some [2, 0, 0, 1], rxAck := true, txAck := true }).port 8).txIdle = false ∧ (after (.negotiateDone 8) s).version 8 = 2 ∧
    (after (.negotiateTimeout 8) s).ladder 8 = 1 ∧ (port 3 talks).laneSends 8 = true ∧ (port 3 talks).txLanes 8 = [8] ∧
    Out.message 8 (Msg.bytes { mtype := 0, tag := 0, op := 0, mlen := 4, addr := 0, payload := negPayload false }) 0 ∈ (after (.negTransmit 8) (port 3 talks)).out ∧
    idle (.negotiateDone 8) (port 3 id) = true ∧ idle (.negTransmit 8) (port 5 id) = true) := by decide +kernel
/-- A port on STEP to rate 1, changed. -/
def stepping (changed agreed : Bool) : State :=
  port 4 fun x => { talks x with step := some { rate := 1, stroke := 2, agreed := agreed, changed := changed } }
/-- The pads of port 8 are held in `padded`, so no symbol is coded there; the rung is what R148 says either way. -/
theorem witness_steps : ((stepping true true).port 8).step = some { rate := 1, stroke := 2, agreed := true, changed := true } ∧
    (after (.stepTimeout 8) (stepping true true)).ladder 8 = 2 ∧ (after (.stepTimeout 8) (stepping true true)).rate 8 = 0 ∧
    (after (.stepDone 8 0) (stepping true true)).f (Reg.prtStat 8) 18 16 = 0 ∧ 2 * (stepping true true).f (Reg.prtCfg 8) 15 8 ≤ 0 ∧
    idle (.rateAgreeTimeout 8) (stepping true true) = true ∧ (stepping false false).ladder 8 = 4 ∧ ((stepping false false).port 8).txIdle = false ∧
    (after (.rateAgreeTimeout 8) (padded (stepping false false))).ladder 8 = 5 ∧
    2 * ((stepping true true).wr (Reg.prtCfg 8) 0x08000A00).f (Reg.prtCfg 8) 15 8 = 20 ∧
    (after (.stepDone 8 19) ((stepping true true).wr (Reg.prtCfg 8) 0x08000A00)).ladder 8 = 2 ∧
    (after (.stepDone 8 20) (padded ((stepping true true).wr (Reg.prtCfg 8) 0x08000A00))).ladder 8 = 4 ∧
    idle (.stepDone 8 0) (port 4 id) = true := by decide +kernel
theorem witness_step_retry : (let s := (port 5 fun x => { talks x with failRate := some 1, neg := some [3, 2, 0, 0] }).wr (Reg.prtCfg 8) 0x48080000
    s.stepAllowed 8 1 = true ∧ s.proposes 8 = true ∧ s.generating 8 = false ∧ s.portIdle 8 = true ∧ (s.port 8).step = none ∧
    ((after (.stepRetry 8) (padded s)).port 8).step.map (·.stroke) = some 2) ∧
    ((port 5 fun x => { x with failRate := some 1 }).port 8).failRate = some 1 ∧
    (port 5 fun x => { x with failRate := some 1 }).watchPort 8 = false ∧
    (port 4 fun x => { x with failRate := some 1 }).ladder 8 = 4 ∧ idle (.stepRetry 8) (port 4 fun x => { x with failRate := some 1 }) = true := by
  decide +kernel
theorem witness_lane_loss : (after (.laneLockLoss 8) (port 5 id)).ladder 8 = 2 ∧
    (after (.laneLockLoss 8) (port 5 id)).rd (Reg.prtLockCnt 8) = 1 ∧ (after (.laneLockLoss 8) (port 1 id)).ladder 8 = 1 ∧
    (after (.retrainTimeout 8) (port 2 fun x => { x with relock := true })).ladder 8 = 1 ∧ idle (.retrainTimeout 8) (port 2 id) = true ∧
    idle (.laneRelock 8) (port 5 id) = true ∧ (after (.buoyReceived 9 200 1 7) (duo 2 0 id)).f (Reg.prtGrpStat 8) 6 0 = 127 ∧
    ((after (.buoyReceived 9 3 1 7) (duo 2 0 id)).port 9).farBuoy = 7 ∧ ((after (.buoyReceived 9 3 1 7) (duo 2 0 id)).port 9).place = some 1 ∧
    ((after (.buoyReceived 9 3 1 7) (duo 2 0 id)).port 9).buoy = true ∧ idle (.buoyReceived 8 3 0 7) (port 2 id) = true ∧
    (let s := duo 5 0x03000300 fun x => { x with lossAge := some 3 }
     s.laneOut 8 = false ∧ (s.port 8).offer = none ∧ ((after (.buoyReceived 9 3 1 7) s).port 8).resumeDue = true) ∧
    (let s := (port 5 id).wr (Reg.coxRefCfg 6) 0x80800000
     s.f (Reg.coxRefCfg 6) 28 20 = 8 ∧ s.refOn 6 = true ∧ s.rate 8 = 0 ∧
       (after (.laneLockLoss 8) (s.setB (Reg.coxRefStat 6) 0 true)).b (Reg.coxRefStat 6) 0 = false) ∧ idle (.groupNarrow 8) (port 5 id) = true := by decide +kernel
/-- A group of two: lane 1 lost, then lane 0; relock; narrowing to lane 0 after eight boundaries. -/
theorem witness_groups : (duo 5 0x03000300 id).lanes 8 = [8, 9] ∧ (duo 5 0x03000300 id).b (Reg.prtGrpStat 8) 9 = true ∧
    (after (.laneLockLoss 9) (duo 5 0x03000300 id)).f (Reg.prtGrpStat 8) 31 24 = 1 ∧
    ((after (.laneLockLoss 9) (duo 5 0x03000300 id)).port 8).lossAge = some 0 ∧
    (after (.laneLockLoss 8) (duo 5 0x01000300 id)).ladder 9 = 1 ∧
    (after (.laneRelock 9) (duo 5 0x01000300 id)).f (Reg.prtGrpStat 8) 31 24 = 3 ∧
    (after (.laneRelock 9) ((duo 5 0x01000300 id).setB (Reg.prtStat 8) 14 true)).b (Reg.prtStat 8) 15 = true ∧
    ((after (.groupNarrow 9) (padded (duo 5 0x01020300 fun x => { x with lossAge := some 8 }))).port 8).offer.map (·.width) = some 1 ∧
    (duo 5 0x01020300 id).laneOut 8 = true ∧ (duo 5 0x01020300 id).grpGood 8 = 1 ∧
    (after (.groupNarrow 9) (duo 5 0x00030300 fun x => { x with lossAge := some 8 })).ladder 9 = 1 ∧
    ((after (.groupNarrow 9) (padded (quad 5 0x0E010F00 fun x => { x with lossAge := some 8 }))).port 8).offer.map (·.mask) = some 6 ∧
    idle (.groupNarrow 9) (duo 5 0x01020300 fun x => { x with lossAge := some 7 }) = true ∧
    (after (.trainTimeout 8 true) (duo 2 0 id)).ladder 8 = 3 ∧ ((after (.trainTimeout 8 true) (duo 2 0 id)).port 8).alone = true ∧
    (after (.detectDone 9) (duo 1 0 id)).ladder 9 = 1 ∧ (after (.detectDone 9) (duo 1 0 fun x => { x with laneDone := true })).ladder 8 = 2 := by decide +kernel
theorem witness_port_controls : takes (port 5 id) .pcie (Reg.prtCtrl 8) 8 = true ∧ takes (port 5 id) .pcie (Reg.prtCtrl 8) 0x20 = true ∧
    takes (port 5 id) .pcie (Reg.prtCtrl 8) 0x10 = true ∧ takes (port 5 id) .pcie (Reg.prtCtrl 8) 1 = true ∧ takes (port 6 id) .pcie (Reg.prtCtrl 8) 2 = true ∧
    (port 5 id).role 8 = 1 ∧ (after (.retrain .pcie 8) (port 5 id)).ladder 8 = 1 ∧
    (after (.idleEnter .pcie 8) (padded (port 5 talks))).ladder 8 = 6 ∧ (port 5 talks).laneSends 8 = true ∧
    (port 5 talks).watchPort 8 = false ∧ ((port 5 talks).port 8).txIdle = false ∧ idle (.idleEnter .pcie 8) (port 5 id) = true ∧
    (let s := port 6 fun x => { x with txIdle := true }
     takes s .pcie (Reg.prtCtrl 8) 2 = true ∧ (after (.idleExit .pcie 8) s).ladder 8 = 5) ∧
    (((after (.widen .pcie 8) ((port 5 id).setB (Reg.prtStat 8) 15 true)).port 8).offer.isSome = true) ∧
    (after (.restep .pcie 8) ((port 5 id).setF (Reg.prtStat 8) 18 16 3)).f (Reg.prtStat 8) 18 16 = 0 ∧
    ((after (.restep .pcie 8) (port 5 fun x => { x with tries := [(1, 3)] })).port 8).tries = [] := by decide +kernel
theorem witness_electrical_idle : (after (.rxIdleEntry 8) (port 5 id)).ladder 8 = 6 ∧ ((after (.rxIdleEntry 8) (port 3 id)).port 8).rxQuiet = true ∧ (after (.rxIdleEntry 8) (port 3 id)).ladder 8 = 3 ∧
    (after (.rxIdleExit 8) (port 6 fun x => { x with rxIdle := true, txIdle := false })).ladder 8 = 5 ∧
    (after (.idleExitTimeout 8) (port 6 fun x => { x with rxIdle := true })).ladder 8 = 2 ∧ idle (.rxIdleExit 8) (port 6 id) = true := by decide +kernel
theorem witness_prbs : takes (port 0 id) .pcie (Reg.prtPrbsCtrl 8) 0x11 = true ∧ (run! []).portIdle 8 = true ∧ (run! [(Reg.prtCfg 8, 0x0C000000)]).portIdle 8 = false ∧
    (after (.prbsCtrlWrite .pcie 8 0x11) (run! [(Reg.prtCfg 8, 0x0C000000)])).b (Reg.prtStat 8) 19 = true ∧
    (after (.prbsCtrlWrite .pcie 8 0xFF) (run! [])).rd (Reg.prtPrbsCtrl 8) = 0x77 ∧
    (after (.prbsCheckerSync 8 100 3) (run! [(Reg.prtPrbsCtrl 8, 0x10)])).f (Reg.prtPrbsErr 8) 29 0 = 3 ∧
    idle (.prbsCheckerSync 8 100 3) up = true ∧ (after (.invalidSymbol 8) up).rd (Reg.prtCodeErr 8) = 1 := by decide +kernel
theorem witness_eye : takes (run! []) .pcie (Reg.prtOctEyeCtrl 3) 0x50001 = true ∧
    (after (.eyeScan .pcie 3 0x50000) (run! [])).f (Reg.prtOctEyeCtrl 3) 18 16 = 5 ∧
    (after (.eyeScanDone 3 2000 70) (after (.eyeScan .pcie 3 0x50000) (run! []))).rd (Reg.prtOctEyeRes 3) = 0x803F03FF ∧
    idle (.eyeScanDone 3 1 1) (run! []) = true := by decide +kernel
theorem witness_readback : takes (run! []) .pcie (Reg.prtRbCfg 2) 0x80000005 = true ∧
    (after (.rbCfgWrite .pcie 2 0x80000005) (run! [])).rd (Reg.prtRbCfg 2) = 0x80000005 ∧
    (after (.rbSyncGained 2) (run! [(Reg.prtRbCfg 2, 0x80000005)])).b (Reg.prtRbStat 2) 31 = true ∧
    (after (.rbSyncLost 2) (run! [(Reg.prtRbStat 2, 0x80000000)])).b (Reg.prtRbStat 2) 31 = false ∧
    (let s := { run! [] with prt := { PrtSt.init with rbLocked := [2] } }
     s.running = true ∧ 2 ∈ s.prt.rbLocked ∧ (after (.rbCfgWrite .pcie 2 5) s).b (Reg.prtRbStat 2) 30 = true) := by decide +kernel
/-- R119: the TAP takes the pads while the die is powered. -/
theorem witness_extest : (after (.extest true) (light .hold)).pins.extest = true ∧ (light .hold).matrixUp = false ∧
    idle (.extest true) (light .off) = true ∧ (light .off).pwr.phase = .off ∧
    (after (.extest false) (padded (run! []))).pins.extest = false ∧ (port 2 id).ladder 8 = 2 ∧ (port 2 id).matrixUp = true := by decide +kernel
/-- R106, R115: a failed step counts for its rate; a generator holds the rate. -/
theorem witness_tries : (let s := (stepping true true).onPort 8 fun x => { x with tries := [(1, 1)] }
    (after (.stepTimeout 8) s).f (Reg.prtStat 8) 18 16 = 2 ∧ ((after (.stepTimeout 8) s).port 8).tries = [(1, 2)] ∧
    (let u := (s.wr (Reg.prtPrbsCtrl 8) 1).setRate 8 1
     u.generating 8 = true ∧ (after (.stepTimeout 8) u).rate 8 = 1 ∧ (after (.stepTimeout 8) u).ladder 8 = 2)) := by decide +kernel
/-- R149: with `REMOTE` and no far end that enables it, nothing acts. -/
theorem test_remote_rough_water : (let s := (port 5 id).wr (Reg.prtRwStat 8) 0x80000000
    s.feature 8 5 = false ∧ (after (.rwLossGo .pcie 8 0xA0000002) s).ladder 8 = 5 ∧
    (after (.rwLossGo .pcie 8 0xA0000002) s).rd (Reg.prtRwCtrl 8) = 0xA0000002) := by decide +kernel
/-- R149, R150: the two keys 1 ms apart on a TEST chart. -/
theorem witness_rough_water : (let s := { port 5 (fun x => { x with keyAt := some 0 }) with clock := { up.clock with time := 1000000 } }
    takes s .pcie (Reg.prtRwKey 8) 0x5EA5B0A7 = true ∧ takes s .pcie (Reg.prtRwKey 8) 0xB0A75EA5 = true ∧ takes s .pcie (Reg.prtRwCtrl 8) 0x80800002 = true ∧
    takes s .pcie (Reg.prtRwCtrl 8) 2 = true ∧ s.running = true ∧ s.watchPort 8 = false ∧
    s.testChart = false ∧ (after (.rwKey .pcie 8 0x5EA5B0A7) s).b (Reg.prtRwStat 8) 31 = false ∧
    (after (.rwCtrlWrite .pcie 8 2) s).b (Reg.prtRwStat 8) 30 = true ∧
    (after (.rwCtrlWrite .pcie 8 0x80000002) (s.wr (Reg.prtRwStat 8) 0x80000000)).rd (Reg.prtRwCtrl 8) = 0x80000002 ∧
    (after (.rwLossGo .pcie 8 0x80000002) (s.wr (Reg.prtRwStat 8) 0x80000000)).b (Reg.prtStat 8) 12 = false) := by decide +kernel

/-- R131, R132: seven bytes of 0 have the CRC-8 0. -/
theorem witness_markers : crc8 [0, 0, 0, 0, 0, 0, 0] = 0 ∧ up.rough 8 false = false ∧
    (after (.markerReceived 8 [0, 0, 0, 0, 0, 0, 0, 1] 0) up).rd (Reg.prtMarkerMiss 8) = 1 ∧
    (after (.markerReceived 8 [0, 0, 0, 0, 0, 0, 0, 0] 0) up).rd (Reg.prtMarkerMiss 8) = 0 ∧
    (after (.markerReceived 8 [0, 0, 0, 0, 0, 0, 0, 0] 5) up).rd (Reg.prtCodeErr 8) = 5 ∧
    (after (.markerMissing 8) up).rd (Reg.prtMarkerMiss 8) = 1 ∧ ((after (.markerMissing 8) up).port 8).missRun = 1 ∧
    (let s := ((up! [(Reg.coxRefCfg 6, 0x80800000), (Reg.coxRefStat 6, 1)]).onPort 8 fun x => { x with missRun := 1 })
     (after (.markerMissing 8) s).b (Reg.coxRefStat 6) 0 = false) ∧
    (up! [(Reg.coxRefCfg 6, 0x80800000)]).f (Reg.coxRefCfg 6) 28 20 = 8 ∧ (up! [(Reg.coxRefCfg 6, 0x80800000)]).refOn 6 = true := by decide +kernel
/-- A write request of four bytes at 0x100, tag 5. -/
def request : Msg := { mtype := 1, tag := 5, op := 1, mlen := 4, addr := 0x100, payload := [1, 2, 3, 4] }
def rx (bs : List Byte) (errs : Nat) : RxIn := { port := 8, isMsg := true, bytes := bs, errs := errs, aborted := false }
set_option maxRecDepth 1000000 in
theorem witness_requests : Msg.parse request.bytes = some request ∧ (port 5 id).ladder 8 = 5 ∧ ((port 5 id).port 8).rxIdle = false ∧
    (port 5 id).rough 8 false = false ∧ (port 5 id).rough 8 true = false ∧
    ((after (.packetReceived (rx request.bytes 0)) (port 5 id)).port 8).far = [(0x100, 1), (0x101, 2), (0x102, 3), (0x103, 4)] ∧
    Out.message 8 (Msg.bytes { mtype := 2, tag := 5, op := 0, mlen := 0, addr := 0, payload := [] }) 0 ∈ (after (.packetReceived (rx request.bytes 0)) (port 5 talks)).out ∧
    ((after (.packetReceived (rx request.bytes 0)) (port 5 id)).port 8).cache.map (·.tag) = [5] ∧
    (after (.packetReceived { rx [] 3 with aborted := true }) (port 5 id)).rd (Reg.prtCodeErr 8) = 3 ∧
    idle (.packetReceived { rx [] 0 with aborted := true }) (port 5 id) = true ∧
    (after (.packetReceived (rx [0] 0)) (port 5 id)).rd (Reg.prtRxCrcErr 8) = 1 ∧ idle (.packetReceived (rx request.bytes 0)) (port 1 id) = true ∧
    idle (.packetReceived { rx [] 0 with isMsg := false }) (port 4 id) = true := by decide +kernel
theorem witness_transactions : (let x : Xact := { tag := 9, use := .host, retries := 3, msg := [] }
    let s := (port 5 fun p => { talks p with xacts := [x] }).wr (Reg.prtXactCfg 8) 0x400
    ((s.port 8).xacts.find? fun x => x.tag == 9) = some x ∧ 3 < s.f (Reg.prtXactCfg 8) 10 8 ∧ Out.message 8 [] 0 ∈ (after (.xactTimeout 8 9) s).out ∧ s.laneSends 8 = true ∧ s.rough 8 true = false ∧
    ((after (.xactTimeout 8 9) (padded s)).port 8).xacts.map (·.retries) = [4] ∧
    (let u := s.wr (Reg.prtXactCfg 8) 0x300
     ((after (.xactTimeout 8 9) u).port 8).xacts = [] ∧ (after (.xactTimeout 8 9) u).rd (Reg.prtXactFail 8) = 1 ∧ (u.port 8).waits = []) ∧
    idle (.xactTimeout 8 10) s = true) := by decide +kernel
set_option maxRecDepth 1000000 in
theorem witness_host_transactions : takes (port 5 id) .pcie (Reg.prtHxCmd 8) (hxWord 0 16) = true ∧ takes (port 5 id) .pcie (Reg.prtHxCmd 8) (hxWord 3 16) = true ∧
    (after (.hxRead .pcie 8 16) (port 5 id)).b (Reg.prtHxStat 8) 31 = true ∧
    (after (.hxWrite .pcie 8 17) (port 5 id)).f (Reg.prtHxStat 8) 10 8 = 3 ∧ (after (.hxReadId .pcie 8 0) (port 5 id)).f (Reg.prtHxStat 8) 10 8 = 3 ∧
    (after (.hxWriteId .pcie 8 1) (port 4 id)).f (Reg.prtHxStat 8) 10 8 = 5 ∧
    (after (.hxWrite .pcie 8 1) (run! [(Reg.prtCfg 8, 0x0C000000)])).f (Reg.prtHxStat 8) 10 8 = 2 ∧
    ((port 5 id).port 8).waits = [] ∧ ((port 5 id).port 8).mayIssue = true := by decide +kernel
theorem witness_pull_and_egress : takes (port 5 id) .pcie (Reg.prtPullCfg 8) 0xFFFFFFFF = true ∧
    (after (.pullCfgWrite .pcie 8 0xFFFFFFFF) (port 5 id)).rd (Reg.prtPullCfg 8) = 0xF7FFFFFF ∧
    ((after (.pullCfgWrite .pcie 8 0xFFFFFFFF) (port 5 id)).port 8).pullDue = true ∧
    (run! []).outFeeder 3 = none ∧ idle (.egressPacketSend 3) (run! []) = true := by decide +kernel

/-! ### Heads -/

/-- Head 3 a watch head that scans 1,000 by 500 at 900 by 400 clocked by `SYN_VID_0`, with icon 0. -/
def head (g : HeadSt → HeadSt) : State :=
  (run! [(Reg.headCfg 3, 0xC0000000), (Reg.headCtrl 3, 1), (Reg.headHTiming 3, 0x03E80384), (Reg.headVTiming 3, 0x01F40190), (Reg.synStat 2, 2),
    (Reg.headTtCfg 3 0, 0x80000000), (Reg.headTtReq 3 0, 1)]).onHead 3 g
theorem witness_frames : (head id).headRuns 3 = true ∧ ((head id).head 3).scan = false ∧ ((head fun x => { x with due := [(0, 0)] }).head 3).due ≠ [] ∧ idle (.headFrameStart 3 0) (head id) = true ∧
    idle (.headFrameStart 4 0) (head id) = true ∧
    (head fun x => { x with scan := true, gated := true }).headLine 3 + 1 = 1 := by decide +kernel
theorem witness_lines : (after (.headLineStart 3 [] []) (head fun x => { x with scan := true, gated := true })).headLine 3 = 0 ∧
    (after (.headLineStart 3 [] []) (head fun x => { x with scan := true, started := true, gated := true })).headLine 3 = 1 ∧
    idle (.headLineStart 3 [] []) (head id) = true ∧ (head id).headClock 3 = true ∧
    (let s := (head fun x => { x with scan := true, due := [(0, 0)] }).wr (Reg.headCtrl 3) 0
     (s.head 3).lines ≤ 0 ∧ ((after (.headLineStart 3 [] []) s).head 3).due = []) ∧
    (let s := (head fun x => { x with scan := true }).wr (Reg.synStat 2) 1
     s.headClock 3 = false ∧ idle (.headLineStart 3 [] []) s = true) := by decide +kernel
theorem witness_gate_line : (let s := head fun x => { x with scan := true, pend := some 9 }
    (s.head 3).gated = false ∧ s.hed.sync = none ∧ (s.head 3).pend = some 9 ∧ (head fun x => { x with scan := true }).icons 3 = [0] ∧
    ((head fun x => { x with scan := true }).head 3).zones = [] ∧ (head id).iconAsked 3 0 = 1 ∧
    idle (.gateLine 3 [] []) (head fun x => { x with scan := true, gated := true }) = true) := by decide +kernel
theorem witness_commits : takes (head id) .pcie (Reg.headCommit 3) 0x80000007 = true ∧ (head id).headOn 3 = true ∧
    ((after (.headCommit .pcie 3 7) (head id)).head 3).pend = some 7 ∧ (after (.headCommit .pcie 3 7) (head id)).b (Reg.headCommitStatus 3) 31 = true ∧
    takes (head id) .pcie Reg.hedSyncCommit 0x80000007 = true ∧ (head id).syncHeads = [] ∧
    (after (.hedSyncCommit .pcie 7) (head id)).rd Reg.hedSyncStat = 0x40000007 ∧
    (after (.hedSyncCommit .pcie 7) ((head id).wr Reg.hedSyncMaskLo 8)).rd Reg.hedSyncStat = 0x80000007 := by decide +kernel
theorem witness_gangway : takes (run! [(Reg.headCfg 3, 0x80000000)]) .pcie (Reg.headLayGangway 3 7) 0xFFFFFFFF = true ∧
    (after (.gangwayWrite .pcie 3 7 0xFFFFFFFF) (run! [(Reg.headCfg 3, 0x80000000)])).rd (Reg.headLayGangway 3 7) = 0xFFFFF ∧
    takes (up! [(Reg.headCfg 3, 0xC0000000), (Reg.chtState, 2)]) .loader (Reg.headLayGangway 3 0) 5 = true := by decide +kernel
theorem witness_pins : (after (.ttPinAccept 4) (up! [(Reg.ttPinRaw, 0x10)])).rd Reg.ttPinAcc = 0x10 ∧
    (after (.ttPinChange 4 true) (up! [(Reg.ttFilter, 1)])).rd Reg.ttPinRaw = 0x10 ∧ (up! [(Reg.ttFilter, 0)]).f Reg.ttFilter 3 0 = 0 ∧
    (after (.ttPinChange 31 true) (up! [(Reg.ttFilter, 0)])).rd Reg.ttPinAcc = 0x80000000 := by decide +kernel
theorem witness_watch_timing : (after (.watchTiming 3) (head id)).b (Reg.headWatchStat 3) 30 = true ∧ idle (.watchTiming 4) (head id) = true := by decide +kernel

/-! ### Crossings, queues, slips and audio -/

/-- Stream 5 is video of 100 by 50 from port 8, and entry 9 has words 0 to 2 of a crossing to slip 0. -/
def entry (grp : Nat) (l : List (Nat × Word)) : State :=
  let s := run! ([(Reg.streamEntryWord 5 0, 0x06400000), (Reg.streamEntryWord 5 1, 0x80200190)] ++ l)
  { s with xtb := { s.xtb with words := [(Reg.xtbEntryWord 9 0, BitVec.ofNat 32 (grp * 64)), (Reg.xtbEntryWord 9 1, 0x10000000)] } }
theorem witness_entries : takes (entry 0 []) .pcie (Reg.xtbEntryWord 9 3) 0x900A0000 = true ∧
    (entry 0 []).entryFault (Crossing.ofRec (rec4 0 0x10000000 0 0x900A0000)) true = 0 ∧
    ((after (.xtbWord3Write .pcie 9 0x900A0000) (entry 0 [])).entry 9).state = .pending ∧
    ((after (.xtbWord3Write .pcie 9 0x900A0000) (entry 0 [])).entry 9).armed = true ∧
    ((after (.xtbWord3Write .pcie 9 0x900A0000) (entry 3 [])).entry 9).armed = false ∧
    ((after (.xtbWord3Write .pcie 9 0x90080000) (entry 0 [])).entry 9).reason = 1 ∧
    ((after (.xtbWord3Write .pcie 9 0) (after (.xtbWord3Write .pcie 9 0x900A0000) (entry 3 []))).entry 9).reason = 9 ∧
    ((entry 0 []).onEntry 9 fun e => { e with state := .taken }).entry 9 ≠ (entry 0 []).entry 9 := by decide +kernel
/-- The entry waits in group 3, which is selected for arming. -/
def grouped : State := after (.xtbWord3Write .pcie 9 0x900A0000) (entry 3 [(Reg.xtbArmGroup, 3)])
theorem witness_arming : takes grouped .pcie Reg.xtbArmCtrl 0x80000001 = true ∧ takes grouped .pcie Reg.xtbArmCtrl 0x40000000 = true ∧
    grouped.f Reg.xtbArmGroup 11 0 = 3 ∧ (grouped.groupEntries 3 (· == .pending)).length = 1 ∧ grouped.grpArmed 3 = false ∧
    (after (.xtbArm .pcie 1) grouped).rd Reg.xtbArmStat = 0x80000003 ∧ (after (.xtbArm .pcie 2) grouped).rd Reg.xtbArmStat = 0xC00B0003 ∧
    (after (.xtbArm .pcie 1) (after (.xtbArm .pcie 1) grouped)).rd Reg.xtbArmStat = 0xC00C0003 ∧
    ((after (.xtbCancel .pcie 0) (after (.xtbArm .pcie 1) grouped)).entry 9).state = .empty := by decide +kernel
/-- A `WATCH` crossing in force uses descriptor 2. -/
def watchX : State := (run! [(Reg.xtbEntryWord 9 0, 0x4), (Reg.xtbEntryWord 9 1, 0x20), (Reg.xtbEntryWord 9 3, 0x80000000)]).onEntry 9 fun e => { e with state := .taken }
theorem witness_watch_xform : watchX.takenEntries = [9] ∧ (watchX.crossing 9).watch = true ∧ (watchX.crossing 9).xform = 2 ∧
    takes watchX .pcie (Reg.xformWord 2 4) 5 = true ∧ (after (.xformWrite .pcie 2 4 0x30001) watchX).shadow = watchX.shadow ∧
    ((after (.xtbWord3Write .pcie 9 0) watchX).entry 9).reason = 1 := by decide +kernel
theorem witness_xform : takes (run! []) .pcie (Reg.xformWord 2 4) 5 = true ∧ takes (run! []) .pcie (Reg.xformWord 4095 63) 5 = true ∧
    (after (.xformWrite .pcie 2 3 5) (run! [])).rd (Reg.xformWord 2 3) = 0 ∧ (after (.xformWrite .pcie 2 4 0x30001) (run! [])).rd (Reg.xformWord 2 4) = 0 ∧
    (after (.xformWrite .pcie 2 4 0x30001) (run! [])).shadowOf (Reg.xformWord 2 4) = 0x30001 ∧ (after (.xformWrite .pcie 2 16 0x30001) (run! [])).rd (Reg.xformWord 2 16) = 0x30001 ∧
    idle (.xformWrite .pcie 0 0 5) (run! []) = true ∧ (run! []).takenEntries = [] := by decide +kernel
/-- Queue 7 between host and host, of 2 descriptors. -/
def hostQ (g : QueSt → QueSt) : State := (run! [(Reg.queCfg 7, 0x80008000), (Reg.queSize 7, 2), (Reg.queXoff 7, 2)]).onQueue 7 g
theorem witness_queue_pushes : takes (hostQ id) .pcie (Reg.quePush 7 3) 1 = true ∧ (hostQ id).prodKind 7 = 8 ∧ (hostQ id).jobTarget 7 = none ∧
    (hostQ id).queueClosed 7 = false ∧ ((after (.quePush .pcie 7 1) (hostQ id)).queue 7).held = [rec4 0 0 0 1] ∧
    ((after (.quePush .pcie 7 1) (hostQ fun x => { x with held := [0, 0] })).queue 7).waits = [{ desc := rec4 0 0 0 1, order := 0, by_ := .outside }] ∧
    ((after (.quePushRelease 7) (hostQ fun x => { x with waits := [{ desc := 5, order := 0, by_ := .dispatcher }], held := [4] })).queue 7).held = [4, 5] ∧
    idle (.quePushRelease 7) (hostQ id) = true ∧ (after (.quePop .pcie 7) (hostQ fun x => { x with held := [rec4 0 0 0 6, 1] })).out = [.answer .pcie [6, 0, 0, 0]] ∧
    ((after (.quePop .pcie 7) (hostQ fun x => { x with held := [rec4 0 0 0 6, 1] })).queue 7).held = [1] ∧
    (run! [(Reg.queCfg 7, 0x30003000)]).prodKind 7 ≠ 8 ∧ (run! [(Reg.queCfg 7, 0x30003000)]).consKind 7 ≠ 8 ∧
    takes (hostQ id) .pcie (Reg.queCtrl 7) 1 = true ∧
    (after (.hwmClr .pcie 7) ((hostQ fun x => { x with held := [1] }).wr (Reg.queHwm 7) 2)).rd (Reg.queHwm 7) = 1 := by decide +kernel
/-- Queue 7 is the job queue of engine 1, of 16 descriptors. -/
def jobQ7 (g : QueSt → QueSt) : State := (run! [(Reg.queCfg 7, 0x80003001), (Reg.queSize 7, 16), (Reg.queXoff 7, 12), (Reg.engCfg 1, 0x80070010)]).onQueue 7 g
theorem witness_job_pushes : (jobQ7 id).jobTarget 7 = some (false, 1) ∧ (jobQ7 id).prodKind 7 = 8 ∧ takes (jobQ7 id) .pcie (Reg.quePush 7 3) 0x40000000 = true ∧
    (jobQ7 id).jobFor 7 (rec4 0 0 0 0x40000000) = true ∧ (jobQ7 id).mtags = 0 ∧ (jobQ7 id).queueClosed 7 = false ∧ (jobQ7 id).jik.guard = false ∧
    (nfind 0 (after (.quePush .pcie 7 0x40000000) (jobQ7 id)).jik.flight).map (·.target) = some 1 ∧ (jobQ7 id).hostDoneQ false 1 ≠ 7 ∧
    (let w : Push := { desc := rec4 0 0 0 0x40000000, order := 0, by_ := .ended false 1 }
     let s := jobQ7 fun x => { x with waits := [w] }
     s.queueClosed 7 = false ∧ ((after (.quePushRelease 7) s).queue 7).held = [w.desc] ∧ ((after (.quePushRelease 7) s).eng 1).job = none) := by decide +kernel
theorem witness_slip_commit : takes (run! [(Reg.fstSlipCfg 4, 0x80000000)]) .pcie (Reg.fstSlipCommit 4) 1 = true ∧
    (after (.slipCommit .pcie 4) (run! [(Reg.fstSlipCfg 4, 0x80000000)])).b (Reg.fstSlipStat 4) 31 = true := by decide +kernel
/-- The audio block runs, in stroke 2. -/
def audio : State :=
  let s := run! [(Reg.audStat, 0x80000000), (Reg.audTdmCfg 1, 0x80000000), (Reg.audAsrcCfg 6, 0x80000000)]
  { s with clock := { s.clock with stroke := 2 } }
theorem witness_audio : audio.audActive = true ∧ audio.aud.start ≤ 1 ∧ audio.aud.closed ≠ some 1 ∧ audio.matrixUp = true ∧ audio.coreUp = true ∧
    idle (.audBlockClose []) (run! []) = true ∧ idle .audBlockSend audio = true ∧
    ({ audio with aud := { audio.aud with toSend := true } } : State).aud.toSend = true ∧
    takes (run! []) .pcie Reg.audCommit 0x80000007 = true ∧ (after (.audCommit .pcie 7) (run! [])).aud.pend = some 7 ∧
    (after (.tdmFrameError 1) audio).rd (Reg.audTdmFrameErr 1) = 1 ∧ idle (.tdmFrameError 2) audio = true ∧
    (after (.asrcSlip 6) audio).rd (Reg.audAsrcSlips 6) = 1 ∧ idle (.asrcSlip 7) audio = true ∧
    audio.f (Reg.audAsrcCfg 6) 30 29 ≠ 2 ∧ audio.f (Reg.audAsrcStat 6) 2 0 = 0 ∧
    (after (.asrcLockChange 6 4804800) audio).f (Reg.audAsrcRate 6) 23 0 = 4804800 ∧
    (after (.asrcLockChange 6 4804800) audio).b (Reg.audAsrcStat 6) 31 = true ∧
    (after (.asrcLockChange 6 4804801) audio).b (Reg.audAsrcStat 6) 31 = false ∧ idle (.asrcLockChange 7 4800000) audio = true ∧
    idle (.tdmFrameError 1) (run! [(Reg.audTdmCfg 1, 0x80000000)]) = true := by decide +kernel
/-- R335, R346: a block that closes, and is sent on the TDM port. -/
theorem witness_block_closes : (after (.audBlockClose []) audio).aud.closed = some 1 ∧ (after (.audBlockClose []) audio).aud.toSend = true := by
  decide +kernel

/-! ### Lighting, field units and storage -/

/-- Lighting placed, with more of its state. -/
def lit (g : LgtSt → LgtSt) : State := { up with lgt := g { LgtSt.init with placed := true } }
theorem witness_lighting : idle .lightMessage (lit id) = true ∧ (lit id).lgt.inFlight = none ∧ (lit id).pwr.ld = .running ∧
    idle .lightMsgTimeout up = true ∧ (after .lightMsgTimeout (lit id)).lgt.lost = true ∧
    (after .boostOvervoltage (lit fun x => { x with boostOn := true })).lgt.restart = true ∧ idle .boostOvervoltage (lit id) = true ∧ idle .boostRestart (lit id) = true ∧
    (let m : LightMsg := { zones := [], icons := [], levels := [], colours := [] }
     (after .lightMessage (lit fun x => { x with inFlight := some m, lost := true })).b Reg.lgtState 31 = true) ∧
    (after .boostRestart (lit fun x => { x with restart := true })).lgt.boostOn = true ∧
    idle (.pwmPeriod ⟨[], []⟩) (lit id) = true ∧ ((lit id).wr Reg.lgtState 0x80000000).b Reg.lgtState 31 = true := by decide +kernel
theorem witness_neighbours : (after (.neighbourTest [3]) (lit fun x => { x with nextPin := 2, cfg := { x.cfg with neighbours := [(2, 3)] } })).lgt.shorts = [(2, 3)] ∧
    (after (.neighbourTest []) (lit fun x => { x with nextPin := 79 })).lgt.nextPin = 0 ∧ idle (.neighbourTest [3]) up = true := by decide +kernel
theorem witness_retest : takes (run! []) .pcie (Reg.lgtChCtrl 47) 1 = true ∧ (sinkStrings 47).length ≠ 0 ∧ up.strUsed 0 = false := by decide +kernel
theorem witness_lamp_boards : idle (.lampBoardPoll 7 none) (lit id) = true ∧ idle (.lampBoardPoll 7 (some 5)) up = true ∧ ((lit id).unit 519).record = [] ∧
    (after (.lampBoardPoll 7 (some 5)) (lit id)).rd (Reg.fldUnitStat 519) = 0 ∧ idle (.lampBoardWriteDone 7 true) (lit id) = true ∧
    (let s := ({ lit id with fld := { FldSt.init with writing := [519], pages := [(519, [1])] } } : State)
     519 ∈ s.fld.writing ∧ nfind 519 s.fld.pages = some [1] ∧ nfind 519 (after (.lampBoardWriteDone 7 true) s).fld.pages = none ∧
     (after (.lampBoardWriteDone 7 true) s).out.length = 1 ∧ (after (.lampBoardWriteDone 7 false) s).fld.writing = [] ∧
     (after (.lampBoardWriteDone 7 true) (after (.lampBoardWriteDone 7 true) s)).fld.writing = []) := by decide +kernel
theorem witness_identity : idle (.identRecordRead 519 (some [])) up = true ∧ idle (.identRecordRead 3 none) up = true ∧
    (nfind 0 (up.port (up.lead 3)).ident = none) ∧ (after (.identRecordRead 519 none) (lit id)).b (Reg.fldUnitStat 519) 31 = false ∧
    (classify (lit id).loader.anchors []).1 ≠ 2 ∧ (after .ledgerAdvance (lit id)).lgt.duties = [] ∧ (lit id).nvs.powerDown = false ∧
    ((lit id).keep.entry 0).hours ≤ 0xFFFFFFFF := by decide +kernel

/-- Storage with its registers written. -/
def nvs (l : List (Nat × Word)) : State := run! l
theorem witness_storage_refusals : takes (nvs []) .pcie Reg.nvsCmd 0x80000002 = true ∧ takes (nvs []) .pcie Reg.nvsCmd 0x8000000F = true ∧
    idle (.nvsRead .pcie) (nvs [(Reg.nvsStatus, 0x80000000)]) = true ∧
    (after (.nvsRead .pcie) { nvs [] with nvs := { NvsSt.init with powerDown := true } }).rd Reg.nvsResult = 0x80000006 ∧
    (after (.nvsBadOp .pcie 15) (nvs [])).rd Reg.nvsResult = 0x80000008 ∧
    (after (.nvsWrite .pcie) (nvs [(Reg.nvsLen, 1), (Reg.nvsAddr, 16383)])).rd Reg.nvsResult = 0x80000001 ∧
    (nvs [(Reg.nvsLen, 4097)]).nvsCheck 1 = some 2 ∧ (nvs [(Reg.nvsLen, 4096)]).nvsCheck 1 = none ∧
    (nvs [(Reg.nvsLen, 1), (Reg.nvsAddr, 16384)]).nvsCheck 2 = none ∧
    (nvs [(Reg.nvsLen, 1), (Reg.nvsAddr, 16384), (Reg.nvsAddrB, 16640), (Reg.nvsRecCfg, 0x01000000)]).nvsCheck 4 = none := by decide +kernel
/-- Storage whose slot A at page 64 holds version 6 of a record of two bytes. -/
def recorded : State :=
  { nvs [(Reg.nvsLen, 1), (Reg.nvsAddr, 16384), (Reg.nvsAddrB, 16640), (Reg.nvsRecCfg, 0x01000000)] with
    nvsMem := writeBytes erasedByte [] 16384 (slotImage 0 0 6 [1, 2] 1) }
set_option maxRecDepth 1000000 in
theorem witness_records : (recorded.readRecord 16384 16640 1 none 0xFF).2.map (fun r => (r.1, r.2.1, r.2.2.seq)) = some (0, false, 6) ∧
    recorded.nvsCheck 3 = none ∧ recorded.nvsCheck 4 = none ∧ (after (.nvsRecRead .pcie) recorded).rd Reg.nvsRecSeq = 6 ∧
    (after (.nvsRecWrite .pcie) recorded).rd Reg.nvsRecSeq = 7 := by decide +kernel
set_option maxRecDepth 1000000 in
theorem witness_storage_pages : (let s := after (.nvsWrite .pcie) (nvs [(Reg.nvsLen, 2), (Reg.nvsAddr, 0x40FF), (Reg.nvsBuf 0, 0x0201)])
    s.b Reg.nvsStatus 31 = true ∧ s.nvs.cur.isSome = true ∧ (after (.nvsPageDone false) s).nvsMem = [(0x40FF, 1)] ∧
    (after (.nvsPageDone false) (after (.nvsPageDone true) s)).nvsMem = [(0x40FF, 1), (0x4100, 2)] ∧
    (after (.nvsPageDone false) (after (.nvsPageDone true) s)).rd Reg.nvsResult = 0x80020000 ∧ idle (.nvsPageDone false) (nvs []) = true ∧ (after (.nvsPageDone true) s).nvs.held = true) := by decide +kernel
theorem witness_last_pages : (let j : NvsJob := { kind := .ledgers, plan := none, left := [(2, 0, [7])], done := 0 }
    let s : State := { nvs [] with nvs := { NvsSt.init with cur := some j, unsure := [32] } }
    j.left = [(2, 0, [7])] ∧ (after (.nvsPageDone false) s).nvs.ledgersDone = true ∧ (after (.nvsPageDone false) s).nvs.unsure = []) ∧
    (nvs []).unitsSeen = false ∧ (nvs []).running = true := by decide +kernel
theorem witness_own_records : (nvs []).nvs.ledgersDone = false ∧ idle .ledgersWrite { nvs [] with nvs := { NvsSt.init with ledgersDone := true } } = true ∧
    idle .keepFlushDone (nvs []) = true ∧
    (after .keepFlushDone { nvs [] with nvs := { NvsSt.init with cur := some { kind := .keep, plan := none, left := [(2, 0, [7])], done := 0 } } }).nvsMem = [(512, 7)] := by decide +kernel


/-! ### Supplies, resets and temperatures -/

/-- The light die runs and the matrix die is off, or going off, for the reason given; `WAKE` as given. -/
def off (why : OffWhy) (wake : Bool) (ph : Phase := .off) : State :=
  { light ph with pins := { (light ph).pins with wake := wake }, pwr := { (light ph).pwr with why := why } }
theorem witness_supplies_rise : (after .pwrEnRise (light (.raising 0))).pins.pwrEn = [0] ∧ idle .pwrEnRise up = true ∧
    (after (.pgGood 1) (light (.waitPg 1))).pwr.phase = .raising 2 ∧ (after (.pgGood 3) (light (.waitPg 3))).pwr.phase = .hold ∧
    idle (.pgGood 2) (light (.waitPg 1)) = true ∧ (after (.pgTimeout 2) (light (.waitPg 2))).pwr.phase = .dropping 2 ∧
    (after (.pgTimeout 2) (light (.waitPg 2))).pwr.why = .pgRetry ∧ idle (.pgTimeout 0) up = true ∧
    (after (.pgTimeout 2) { light (.waitPg 2) with pwr := { (light (.waitPg 2)).pwr with attempts := 2 } }).pwr.why = .lockedOut := by decide +kernel
theorem witness_supply_faults : (let s : State := { up with pins := { up.pins with pwrEn := [0, 1, 2, 3], pgIn := [0, 1, 2, 3] } }
    2 ∈ s.pins.pgIn ∧ (after (.supplyFault 2) s).pwr.phase = .dropping 3 ∧ (after (.supplyFault 2) s).pwr.why = .supply ∧
    s.clock.time = 0 ∧ idle (.supplyFault 2) up = true ∧ idle (.supplyFault 2) (off .asleep false) = true) := by decide +kernel
theorem witness_restarts : (after .pgRetry (off .pgRetry true)).pwr.phase = .raising 0 ∧ (after .pgRetry (off .pgRetry false)).pwr.why = .asleep ∧
    (after .supplyRestart (off .supply true)).pwr.phase = .raising 0 ∧ (after .supplyRestart (off .supply false)).pwr.why = .asleep ∧
    (after .powerdownWakeRestart (off .wakeReturned true)).keep.wakes = 1 ∧ idle .powerdownWakeRestart (off .asleep true) = true ∧
    idle .powerFailRestart (off .powerFail true) = true ∧
    (let s : State := { off .powerFail true with nvs := { NvsSt.init with flushDone := true }, pins := { (off .powerFail true).pins with pfiN := true } }
     s.pins.wake = true ∧ (after .powerFailRestart s).pwr.phase = .raising 0) ∧
    (after .powerdownStep (off .asleep false (.dropping 1))).pwr.phase = .dropping 0 ∧
    (after .powerdownStep (off .asleep false (.dropping 0))).pwr.phase = .off := by decide +kernel
/-- R426: `WAKE` was inactive from time 0; 100 ms later its active level is a WAKE cycle. -/
def later (s : State) : State := { s with clock := { s.clock with time := 2000000000 } }
theorem witness_wake : (after .wakeActive (off .asleep false)).pwr.phase = .raising 0 ∧ (after .wakeActive (off .lockedOut false)).pwr.phase = .off ∧
    (off .lockedOut false).pwr.wakeOffAt + 100000000 ≤ (later (off .lockedOut false)).now ∧ (off .lockedOut false).pwr.resumed = false ∧
    (after .wakeActive (later (off .lockedOut false))).pwr.phase = .raising 0 ∧ idle .wakeActive (off .asleep true) = true ∧
    (after .wakeActive (off .asleep false (.dropping 2))).pwr.why = .wakeReturned ∧
    (after .wakeActive (later (off .lockedOut false (.dropping 2)))).pwr.why = .wakeReturned ∧ up.pins.wake = false ∧
    (after .wakeInactive (off .asleep true .running)).pwr.sleepPend = true ∧ (after .wakeInactive (off .asleep true (.waitPg 1))).pwr.sleepPend = false ∧
    (after .wakeInactive (later (off .asleep true))).pwr.wakeOffAt = 100000000 ∧
    (after .wakeActive { up with pwr := { up.pwr with sleepPend := true } }).pwr.sleepPend = false := by decide +kernel
theorem witness_sleep : (let s : State := { up with pwr := { up.pwr with sleepPend := true } }
    (after .sleepDelayExpiry s).pwr.phase = .dropping s.topEnable ∧ (after .sleepDelayExpiry (s.wr Reg.pwrSleepCfg 0x80000000)).pwr.stayHeld = true ∧
    (after .sleepStayLimit { s with pwr := { s.pwr with stayHeld := true } }).pwr.why = .asleep ∧ idle .sleepDelayExpiry up = true ∧
    idle .sleepStayLimit s = true) := by decide +kernel
theorem witness_power_fail : up.nvs.powerDown = false ∧ up.nvs.cur = none ∧ (after .pfiFall up).nvs.powerDown = true ∧ (after .vddLdLow up).pwr.why = .powerFail ∧
    (after .pfiFall up).pwr.phase = .off ∧ ((after .pfiFall up).nvs.cur.map (·.kind)) = some .keep ∧
    (after .pfiFall State.reset).pins.pfiN = false ∧ (after .pfiRise State.reset).pins.pfiN = true ∧
    ((run! [(Reg.nvsLen, 1), (Reg.nvsAddr, 0x4000)] |> after (.nvsWrite .pcie) |> after .pfiFall).nvs.waiting.map (·.kind)) = [.keep] := by decide +kernel
theorem witness_light_die : (after (.vddLdCollapse .erasing) up).pwr.ld = .absent ∧ idle (.vddLdCollapse .erasing) State.reset = true ∧
    (after .vddLdRise State.reset).pwr.ld = .running ∧ (after .vddLdRise State.reset).nvs.keepDefault = true ∧ idle .vddLdRise up = true ∧
    (after .lightDieResume { up with pwr := { up.pwr with ld := .stopped } }).thm.sayLockout = true ∧ idle .lightDieResume up = true := by decide +kernel
theorem witness_light_die_temperature : (after (.ldThmSample [⟨52, 15000⟩]) up).thm.ldHot = 1 ∧
    (after (.ldThmSample [⟨52, 15000⟩]) { up with thm := { up.thm with ldHot := 3 } }).pwr.ld = .stopped ∧
    (after (.ldThmSample [⟨53, 3000⟩]) up).thm.ldHot = 0 ∧ idle .thermalRestart up = true ∧
    (let s : State := { off .thermal true with thm := { up.thm with restartDue := true, cool := 4 },
                                               nvs := { NvsSt.init with flushDone := true }, pins := { (off .thermal true).pins with pfiN := true } }
     (after .thermalRestart s).keep.restarts = 1 ∧ (after .thermalRestart { s with pins := { s.pins with wake := false } }).pwr.why = .asleep) := by decide +kernel
theorem witness_reset_pin : (let s : State := { light .hold with pins := { up.pins with resetN := true } }
    s.pwr.phase = .hold ∧ s.pins.resetN = true ∧
    (after (.resetRelease 5 false) { s with pins := { s.pins with resetN := false } }).pwr.phase = .hold ∧ idle (.resetRelease 5 false) up = true ∧
    idle (.resetExit 5 false) up = true ∧
    (after .resetPinAssert (run! [])).pwr.phase = .inReset ∧ (after .resetPinAssert (run! [])).rd Reg.chtState = 0 ∧
    (after .resetPinAssert (light .inReset)).pwr.causes = 8 ∧ (after .resetPinAssert (light .off)).pwr.causes = 0 ∧
    (after .resetPinRelease (light .inReset)).pwr.exitDue = true) := by decide +kernel
theorem witness_warm_reset : (let s := after (.warmResetKeyFirst .pcie) up
    takes up .pcie Reg.pwrReset 0x7A3E0000 = true ∧ takes up .pcie Reg.pwrReset 0x3E7A0001 = true ∧ idle (.warmReset .pcie) up = true ∧ s.pwr.warmKeyAt = some 0 ∧
    (after (.warmReset .pcie) s).pwr.phase = .inReset ∧ (after (.warmReset .pcie) s).pwr.causes = 1 ∧
    (after (.warmReset .pcie) { s with clock := { s.clock with time := 20000000 } }).pwr.phase = .inReset ∧
    (after (.warmReset .pcie) { s with clock := { s.clock with time := 20000020 } }).pwr.phase = .running) := by decide +kernel
theorem witness_watchdog : (let s := after (.wdtEnable .pcie 0x500) up
    takes up .pcie Reg.pwrWdtCfg 0x80000500 = true ∧ s.rd Reg.pwrWdtCfg = 0x80000500 ∧ idle (.wdtEnable .pcie 7) s = true ∧
    takes s .pcie Reg.pwrWdtKick 0xC0A5 = true ∧ takes s .pcie Reg.pwrWdtKick 0xC0A6 = true ∧
    (after .wdtWarn s).pwr.wdtWarned = true ∧ (after (.wdtKick .pcie) (after .wdtWarn s)).pwr.wdtWarned = false ∧
    (after (.wdtBadKick .pcie 0xC0A6) s).pwr.causes = 4 ∧ idle (.wdtBadKick .pcie 0xC0A6) up = true ∧ (after .wdtExpiry s).pwr.phase = .inReset ∧
    idle .wdtExpiry up = true ∧ (after .lockstepMismatch up).pwr.causes = 2 ∧ up.matrixUp = true ∧ up.coreUp = true) := by decide +kernel
theorem witness_thresholds : takes up .pcie Reg.thmShdn 0x0A7D = true ∧ takes (run! []) .pcie Reg.thmShdn 0x0A7D = true ∧ up.running = false ∧
    idle (.thresholdWrite .pcie .shdn 0x0A7D) (run! []) = true ∧ (after (.thresholdWrite .pcie .shdn 0x0A7D) up).rd Reg.thmShdn = 0x0A7D ∧
    thresholdFits .warn 0x150 = true ∧ thresholdFits .warn 0x14F = false ∧ thresholdFits .warn 0xF7D = true ∧ thresholdFits .warn 0x7E = false ∧
    thresholdFits .shdn 0x1E82 = true ∧ thresholdFits .shdn 0x1F82 = false ∧ (after (.thresholdWrite .pcie .warn 0x14F) up).b Reg.thmHist 6 = true ∧
    ({ up := 3, down := 0, on := false } : ThrSt).sample 10 10 5 = { up := 0, down := 0, on := true } ∧
    ({ up := 0, down := 3, on := true } : ThrSt).sample 4 10 5 = { up := 0, down := 0, on := false } := by decide +kernel
theorem witness_matrix_temperature : up.matrixUp = true ∧ (after (.thmSample [⟨0, 4000⟩]) up).matrixUp = true ∧
    (after (.thmSample [⟨0, 4000⟩]) up).b Reg.thmStat 3 = false ∧ up.broken 48 = false ∧ -32000 ≤ up.groupOffset 0 ∧ up.groupOffset 0 ≤ 32000 ∧
    (after .thmOffsetUpdate up).groupOffset 0 - up.groupOffset 0 ≤ 25 := by decide +kernel

/-! ### The quay, DMA, the rings and the counters -/

/-- The link is up. -/
def linked : State := (run! []).setB Reg.quayPcieStat 31 true
/-- Answers of a command. -/
def said (c : Instr) (s : State) : List Out := (after c s).out
theorem witness_pcie_requests : linked.b Reg.quayPcieStat 31 = true ∧ linked.matrixUp = true ∧ linked.coreUp = true ∧ linked.ifRefused = false ∧
    linked.mustHold 0 0 1 = false ∧ linked.mustHold 0 0 2 = false ∧ linked.mustHold 0 0 6 = false ∧
    linked.barAddr true 0x6000008 = 0x20000008 ∧ linked.barAddr true 0x5FFFFFF = 0x15FFFFFF ∧ targetAt (linked.barAddr true 0x8000000) = none ∧
    targetAt (linked.barAddr false 0x4000000) = none ∧ burstAt (linked.barAddr true 0x7000000) 4 = some (.work, 0x1000000) ∧
    burstAt (linked.barAddr true 0x1000) 4 = some (.fstore, 0x1000) := by decide +kernel
theorem witness_pcie_effects : nget zeroByte (after (.pcieMemWrite true 0x7000001 [7, 8] false) linked).work 0x1000002 = 8 ∧
    nget zeroByte (after (.pcieMemWrite true 0x1000 [9] true) linked).fstore 0x1000 = 9 ∧
    (after (.pcieMemWrite true 0x1000 [9] true) linked).quay.outstanding = [(0, 0, 2)] ∧
    said (.pcieMemRead true 0x7000001 2 false) { linked with work := [(0x1000001, 5)] } = [.answer .pcie [5, 0]] ∧
    idle (.pcieMemWrite true 0x1000 [9] true) (run! []) = true := by decide +kernel
theorem witness_pcie_held : (let s := after (.pcieMemWrite true 0x1000 [9] true) linked
    s.mustHold 0 0 1 = true ∧ ((after (.pcieMemRead true 0x7000000 4 false) s).quay.held.map (·.len)) = [4] ∧
    (after (.pcieMemRead true 0x7000000 4 false) s).rd Reg.quayHoldCnt = 1 ∧
    (after (.pcieMemRead false 0x4000000 4 false) linked).rd Reg.quayDecerrCnt = 1 ∧
    (after (.pcieMemRead false 0x4000000 4 false) linked).f Reg.quayDecerrAddr 27 0 = 0xC000000 ∧
    (after (.pcieMemWrite true 4 [1] false) ((light .inReset).setB Reg.quayPcieStat 31 true)).quay.held.length = 1) := by decide +kernel
theorem witness_pcie_link : (after (.pcieLinkDown true 0x7000001 [7, 8]) linked).b Reg.quayPcieStat 31 = false ∧
    nget zeroByte (after (.pcieLinkDown true 0x7000001 [7]) linked).work 0x1000001 = 7 ∧ idle (.pcieLinkUp 4 3) linked = true ∧ idle (.pcieLinkUp 4 3) up = true ∧
    (after (.pcieLinkUp 4 3) (up! [(Reg.synStat 6, 2)])).f Reg.quayPcieStat 18 16 = 4 ∧ (after (.pcieLinkUp 4 3) (up! [(Reg.synStat 6, 2)])).f Reg.quayPcieStat 2 0 = 3 := by decide +kernel
theorem witness_qspi : (let s := run! []
    idle (.qspiWriteBar2 0x7000000 [1, 2, 3] false) s = true ∧ readBytes zeroByte (after (.qspiWriteBar2 0x7000000 [1, 2, 3, 4] false) s).work 0x1000000 4 = [1, 2, 3, 4] ∧
    (after (.qspiWrite 0x4000000 [1, 2, 3, 4] false) s).quay.qspiError = true ∧ said (.qspiRead 0 1 false) s = [.answer .qspi [2]] ∧
    said (.qspiReadBar2 0x7000000 1 true) { s with work := [(0x1000001, 5)] } = [.answer .qspi [1, 0, 5, 0, 0]] ∧
    said (.qspiRead 0x4000000 1 true) s = [.answer .qspi [4]] ∧ said .qspiReadStatus (after (.qspiWrite 0x4000000 [1, 2, 3, 4] false) s) = [.answer .qspi [2]] ∧
    s.qspiHeld false 0x60004 1 = false ∧
    said (.qspiRead 0x60004 1 true) { s with quay := { s.quay with outstanding := [(1, 0, 2)] } } = [.answer .qspi [2]] ∧
    ({ s with quay := { s.quay with outstanding := [(1, 0, 2)] } } : State).qspiHeld true 0x7000000 1 = true ∧ s.qspiHeld true 0x7000000 1 = false ∧
    nget zeroByte (after (.qspiCsRelease true 0x7000000 [1, 2, 3, 4]) s).work 0x1000003 = 4) := by decide +kernel
theorem witness_i2c : (let s := run! []
    (after (.i2cWrite 0x10 [1, 2] false) s).quay.i2cOffset = 0x12 ∧ (after (.i2cWrite 0xFFFFFFFE [1, 2] false) s).quay.i2cOffset = 0 ∧
    s.mustHold 2 0 0 = false ∧ nfind 2 s.quay.latches = none ∧ s.moving s.quay.i2cOffset = none ∧
    (after (.i2cWrite (BitVec.ofNat 32 Reg.quayWwin) [3, 0, 0, 0] false) s).f Reg.quayWwin 3 0 = 3 ∧
    (said (.i2cRead 4 false) { s with quay := { s.quay with i2cOffset := Reg.chtState } }) = [.answer .i2c [3, 0, 0, 0]] ∧
    (after (.i2cAbort 0 []) { s with quay := { s.quay with outstanding := [(2, 0, 1), (0, 0, 1)] } }).quay.outstanding = [(0, 0, 1)]) := by decide +kernel
theorem witness_held_requests : (let s : State := { linked with quay := { QuaySt.init with held := [⟨.pcie, 0, true, 0x7000000, 1, some [6]⟩, ⟨.qspi, 0, true, 0x7000000, 1, none⟩] } }
    idle (.heldRequestIssue .pcie false) linked = true ∧ burstAt (s.reqAddr ⟨.pcie, 0, true, 0x7000000, 1, some [6]⟩) 1 = some (.work, 0x1000000) ∧
    nget zeroByte (after (.heldRequestIssue .pcie false) s).work 0x1000000 = 6 ∧ (after (.heldRequestIssue .pcie false) s).quay.held.length = 1 ∧
    said (.heldRequestIssue .qspi false) s = [.answer .qspi [0]] ∧ takes linked .pcie Reg.quayWwin 5 = true ∧
    (after (.quayWwinWrite .pcie 0x15) linked).f Reg.quayWwin 3 0 = 5) := by decide +kernel
theorem witness_completion_timeout : idle (.pcieCompletionTimeout .pcie 0) up = true ∧ idle (.pcieCompletionTimeout (.dma 2) 0) up = true ∧
    (after (.pcieCompletionTimeout (.dma 2) 0) (up! [(Reg.dmaStat 2, 0x80000000)])).rd (Reg.dmaStat 2) = 0x40000002 ∧
    up.loader.amd = none ∧ up.loadSlot ≠ 4 ∧
    (let s : State := { up with evt := { EvtSt.init with rings := [(1, { RingSt.init with queue := [5] })] } }
     (s.ring 1).queue = [5] ∧ s.f (Reg.evtRingDrop 1) 23 0 < 0xFFFFFE ∧ s.ringFill 1 + 0 < s.ringSize 1 ∧
     (after (.pcieCompletionTimeout .evtWriter 1) s).f (Reg.evtRingDrop 1) 23 0 = 1) := by decide +kernel
/-- Channel 0 runs at the descriptor at byte 0x1000000 of working memory: `len` bytes from 0x1001000 to 0x1002000. -/
def chan (len lines ctrl : Nat) : State :=
  { run! [(Reg.dmaStat 0, 0x80000000), (Reg.dmaCurLo 0, 0x21000000)] with
    work := writeBytes zeroByte (writeBytes zeroByte [] 0x1000000
      (leBytes 8 0x21001000 ++ leBytes 8 0x21002000 ++ leBytes 8 0x1234 ++ leBytes 4 len ++ leBytes 2 lines ++ leBytes 2 ctrl)) 0x1001000 [1, 2, 3] }
theorem witness_dma : takes (run! []) .pcie (Reg.dmaCtrl 7) 1 = true ∧ takes (run! []) .pcie (Reg.dmaCtrl 0) 2 = true ∧
    (after (.dmaGo .pcie 7) (run! [(Reg.dmaHeadLo 7, 0x40)])).rd (Reg.dmaCurLo 7) = 0x40 ∧ idle (.dmaGo .pcie 0) (chan 3 1 2) = true ∧
    nget zeroByte (after (.dmaAbort .pcie 0 0x21000000 [77]) (chan 3 1 0)).work 0x1000000 = 77 ∧
    (after (.dmaAbort .pcie 0 0 []) (chan 3 1 0)).b (Reg.dmaStat 0) 31 = false ∧ idle (.dmaDescriptor 1 [] false) (chan 3 1 0) = true := by decide +kernel
theorem witness_dma_descriptors : (let c := Instr.dmaDescriptor 0 [] false
    readBytes zeroByte (after c (chan 3 1 2)).work 0x1002000 4 = [1, 2, 3, 0] ∧ (after c (chan 3 1 2)).b (Reg.dmaStat 0) 31 = false ∧
    (after c (chan 3 1 0)).rd (Reg.dmaCurLo 0) = 0x1234 ∧ (after c (chan 3 1 0)).b (Reg.dmaStat 0) 31 = true ∧
    (after c (chan 0 1 0)).rd (Reg.dmaStat 0) = 0x40000003 ∧ (after c (chan 3 0 0)).rd (Reg.dmaStat 0) = 0x40000003 ∧
    (after c (chan 3 1 8)).b (Reg.dmaStat 0) 29 = true ∧
    burstAt 0x21000000 48 = some (.work, 0x1000000) ∧ burstAt 0x8000000 48 = none ∧ burstAt 0x10000000 48 = some (.fstore, 0) ∧
    burstAt (2 ^ 63) 48 = some (.host, 0) ∧
    (after c ((chan 3 1 0).wr (Reg.dmaCurLo 0) 0x8000000)).rd (Reg.dmaStat 0) = 0x40000001 ∧
    (after c ((chan 3 1 0).wr (Reg.dmaCurLo 0) 0x10000000)).rd (Reg.dmaStat 0) = 0x40000003 ∧
    (after (.dmaDescriptor 0 [] true) (((chan 3 1 0).wr (Reg.dmaCurLo 0) 0).wr (Reg.dmaCurHi 0) 0x80000000)).rd (Reg.dmaStat 0) = 0x40000002) := by decide +kernel
/-- Ring 2 is enabled at byte 0x1000000 of working memory, with 16 slots, vector 3, and one record waits. -/
def ringed (cfg : Word) : State :=
  { up! [(Reg.evtRingCfg 2, 0x80030000 ||| cfg), (Reg.evtRingBaseLo 2, 0x21000000), (Reg.evtRingWpaddrLo 2, 0x21002000)] with
    evt := { EvtSt.init with rings := [(2, { RingSt.init with queue := [9, 8] })] } }
theorem witness_event_rings : (let c := Instr.eventRecordWritten 2
    ((ringed 0).ring 2).queue = [9, 8] ∧ burstAt ((ringed 0).ringSlot 2 0) 16 = some (.work, 0x1000000) ∧
    nget zeroByte (after c (ringed 0)).work 0x1000000 = 9 ∧ (after c (ringed 0)).f (Reg.evtRingWp 2) 15 0 = 1 ∧ idle c up = true ∧
    (after c (ringed 0)).b (Reg.msixPbaWord 0) 3 = true ∧ (after c ((ringed 0).wr (Reg.msixTableWord 3 3) 0)).out = [.msix 3] ∧
    ((after c (ringed 0x204)).ring 2).unsigned = 1 ∧ (after c (ringed 0x204)).b (Reg.msixPbaWord 0) 3 = false ∧
    nget zeroByte (after c (ringed 0x20000000)).work 0x1002000 = 1 ∧ (ringed 0x20000000).running = false ∧
    burstAt (pair64 ((ringed 0x20000000).rd (Reg.evtRingWpaddrLo 2)) ((ringed 0x20000000).rd (Reg.evtRingWpaddrHi 2))) 4 = some (.work, 0x1002000) ∧
    idle (.msiCoalesceTimer 2) (ringed 0) = true ∧ ((after (.msiCoalesceTimer 2) (after c (ringed 0x204))).ring 2).unsigned = 0) := by decide +kernel
theorem witness_ring_registers : (let s : State := { ringed 0 with evt := { EvtSt.init with rings := [(2, { RingSt.init with dropped := 4 })] } }
    takes s .pcie (Reg.evtRingRp 2) 2 = true ∧ takes s .pcie (Reg.evtRingCfg 2) 0x80000000 = true ∧ idle (.ringRpWrite .pcie 2 2) s = true ∧
    s.ringFill 2 = 0 ∧ ((after (.ringRpWrite .pcie 2 0) s).ring 2).dropped = 0 ∧ ((after (.ringRpWrite .pcie 2 0) s).ring 2).queue.length = 1 ∧
    (after (.ringEnable .pcie 2 7) s).rd (Reg.evtRingCfg 2) = 0x80000007 ∧
    (let t : State := { up with evt := { EvtSt.init with boot := [(0, 5), (1, 6)] } }
     (after (.ringEnable .pcie 1 0x04000000) t).evt.boot = [(0, 5)] ∧ ((after (.ringEnable .pcie 1 0x04000000) t).ring 1).queue = [6])) := by decide +kernel
theorem witness_counters : takes up .pcie Reg.glbCntClear 0x80000001 = true ∧ (after (.cntClear .pcie 1) up).b Reg.glbCntStat 31 = true ∧
    idle (.cntClear .pcie 1) (up! [(Reg.glbCntStat, 0x80000000)]) = true ∧ takes up .pcie Reg.glbIfHost 0x20000 = true ∧
    (after (.ifDeclare .pcie 0x10005) up).ifRefused = false ∧ (after (.ifDeclare .pcie 0x20000) up).ifRefused = true ∧
    (after (.ifDeclare .pcie 0x20000) up).rd Reg.glbIfHost = 0x20000 := by decide +kernel

end Sys2Proof.Tests
end

section
/-! PROOF. The right shifts of R249, the B operand of R246 and the job fields of R261. -/

namespace Sys2Proof.Machine

/-! ### Rounding (R249) -/

theorem shiftRight_zero (var : Nat) (v : Int) : shiftRight var 0 v = v := rfl

theorem two_pow_eq_two_mul_half {sh : Nat} (h : 0 < sh) : (2 : Int) ^ sh = 2 * 2 ^ (sh - 1) := by
  rw [← pow_succ', Nat.sub_add_cancel h]

/-- Half a unit of the result. -/
theorem half_unit {sh : Nat} (h : 0 < sh) : (2 : Int) ^ sh / 2 = 2 ^ (sh - 1) := by
  rw [two_pow_eq_two_mul_half h, Int.mul_ediv_cancel_left _ two_ne_zero]

theorem shiftRight_halfUp (v : Int) {sh : Nat} (h : 0 < sh) : shiftRight 0 sh v = (v + 2 ^ (sh - 1)) / 2 ^ sh := by
  simp only [shiftRight, if_neg h.ne', Nat.cast_pow, Nat.cast_ofNat, half_unit h]

theorem shiftRight_floor (v : Int) {sh : Nat} (h : 0 < sh) : shiftRight 1 sh v = v / 2 ^ sh := by
  simp only [shiftRight, if_neg h.ne', Nat.cast_pow, Nat.cast_ofNat]

theorem shiftRight_halfEven (v : Int) {sh : Nat} (h : 0 < sh) : shiftRight 2 sh v =
    if v % 2 ^ sh < 2 ^ (sh - 1) then v / 2 ^ sh
    else if 2 ^ (sh - 1) < v % 2 ^ sh then v / 2 ^ sh + 1 else v / 2 ^ sh + v / 2 ^ sh % 2 := by
  simp only [shiftRight, if_neg h.ne', Nat.cast_pow, Nat.cast_ofNat, half_unit h]

/-- Rounding half to even errs by at most half a unit, and by half a unit only towards an even result. With `r` the remainder, the
error is `r` where the quotient `q` stays, `r - 2 ^ sh` where it goes up, and at a tie half a unit of either sign. -/
theorem shiftRight_halfEven_error (v : Int) {sh : Nat} (h : 0 < sh) :
    (2 * (v - shiftRight 2 sh v * 2 ^ sh)).natAbs ≤ 2 ^ sh ∧
    ((2 * (v - shiftRight 2 sh v * 2 ^ sh)).natAbs = 2 ^ sh → shiftRight 2 sh v % 2 = 0) := by
  have hp : (2 : Int) ^ sh = 2 * 2 ^ (sh - 1) := two_pow_eq_two_mul_half h
  have hn : ((2 ^ sh : Nat) : Int) = 2 ^ sh := by push_cast; rfl
  have h0 : 0 ≤ v % 2 ^ sh := Int.emod_nonneg v (by positivity)
  have h1 : v % 2 ^ sh < 2 ^ sh := Int.emod_lt_of_pos v (by positivity)
  have hv : v = v / 2 ^ sh * 2 ^ sh + v % 2 ^ sh := (Int.ediv_mul_add_emod v _).symm
  rw [shiftRight_halfEven v h]
  split_ifs with hlow hhigh
  · have err : v - v / 2 ^ sh * 2 ^ sh = v % 2 ^ sh := by linarith
    rw [err]; omega
  · have err : v - (v / 2 ^ sh + 1) * 2 ^ sh = v % 2 ^ sh - 2 ^ sh := by linarith
    rw [err]; omega
  · rcases Int.emod_two_eq_zero_or_one (v / 2 ^ sh) with heven | hodd
    · have err : v - (v / 2 ^ sh + 0) * 2 ^ sh = v % 2 ^ sh := by linarith
      rw [heven, err]; omega
    · have err : v - (v / 2 ^ sh + 1) * 2 ^ sh = v % 2 ^ sh - 2 ^ sh := by linarith
      rw [hodd, err]; omega

theorem vshElem_eq (f : EngFields) : vshElem f = fun n a b =>
    fitTo n f.sgn f.sat (if 0 ≤ signed 6 b then elem n f.sgn a * 2 ^ (signed 6 b).toNat
      else shiftRight f.var.toNat (-signed 6 b).toNat (elem n f.sgn a)) := by
  funext n a b
  simp only [vshElem, apply_ite (fitTo n f.sgn f.sat), Nat.cast_pow, Nat.cast_ofNat]

/-! ### Encodings (R245, R246) -/

theorem legal_eq_false_of_var {op : EngOp} {f : EngFields} (h : op.row.var < f.var) : op.legal f = false := by
  simp only [EngOp.legal, decide_eq_false (BitVec.not_le.2 h), Bool.and_false, Bool.false_and]

theorem legal_eq_false_of_operandB {op : EngOp} {f : EngFields} (h : op.row.b.ok f = false) : op.legal f = false := by
  simp only [EngOp.legal, h, Bool.and_false, Bool.false_and]

theorem scalarForm_reserved {f : EngFields} (h : fBsel f = 1 ∨ fBsel f = 3) : BForm.ok f .scal = false := by
  rcases h with h | h <;> simp only [BForm.ok, h, Bool.and_false]

theorem vectorForm_reserved {f : EngFields} (h : fBsel f = 3) (sh : Bool) : BForm.ok f (.vec sh) = false := by
  simp only [BForm.ok, h, Bool.and_false]

/-! ### The B operand (R246) -/

theorem bf_low20 (w : Word) : bf w 19 0 = (w.setWidth 20).toNat := by
  rw [BitVec.setWidth_eq_extractLsb' (by decide)]; rfl

theorem signed_toNat {n : Nat} (hn : 0 < n) (x : BitVec n) : signed n x.toNat = x.toInt := by
  have hp : 2 ^ n = 2 * 2 ^ (n - 1) := by rw [← pow_succ', Nat.sub_add_cancel hn]
  rw [signed, Nat.mod_eq_of_lt x.isLt, BitVec.toInt_eq_toNat_cond]
  congr 1
  exact propext (by omega)

theorem State.bVec_register {f : EngFields} (s : State) (e : Nat) (h : fBsel f = 0) : s.bVec e f = s.vreg e f.b.toNat := by
  simp only [State.bVec, h]

theorem State.bVec_broadcast {f : EngFields} (s : State) (e : Nat) (h : fBsel f = 1) :
    s.bVec e f = List.replicate 32 ((s.sreg e f.b.toNat).setWidth 20) := by
  simp only [State.bVec, h, BitVec.ofNat_toNat]

theorem State.bVec_immediate {f : EngFields} (s : State) (e : Nat) (h : fBsel f = 2) :
    s.bVec e f = List.replicate 32 (f.imm.setWidth 20) := by
  simp only [State.bVec, h, fVal, bf_low20, BitVec.ofNat_toNat, BitVec.setWidth_eq]

theorem State.bScal_register {f : EngFields} (s : State) (e : Nat) (h : fBsel f = 0) : s.bScal e f = s.sreg e f.b.toNat := if_pos h

theorem State.bScal_immediate {f : EngFields} (s : State) (e : Nat) (h : fBsel f = 2) :
    s.bScal e f = (f.imm.setWidth 20).signExtend 32 := by
  rw [State.bScal, if_neg (by omega), fVal, bf_low20, signed_toNat (by decide)]
  rfl

/-! ### Instructions that issue -/

/-- An instruction that writes one vector and goes on completes when it issues. -/
theorem completes_vectorOnly {c : Instr} {s : State} {e : Nat} {op : EngOp} {f : EngFields} (v : State → List Lane) (h : s.issues e op f)
    (hx : exec c s = onMatrix (fun s => s.simple e op f fun t => t.setV e f (v t)) s) : completes c s (vectorOnly e f (v s) s) := by
  refine ⟨_, hx.trans (onMatrix_up _ h.1), ?_⟩
  rw [simple_ok _ h]
  exact vectorOnly_setV s e f (v s)

/-- An instruction that writes one scalar and goes on completes when it issues. -/
theorem completes_scalarOnly {c : Instr} {s : State} {e : Nat} {op : EngOp} {f : EngFields} (v : State → Word) (h : s.issues e op f)
    (hx : exec c s = onMatrix (fun s => s.simple e op f fun t => t.setS e f.d.toNat (v t)) s) :
    completes c s (scalarOnly e f.d.toNat (v s) s) := by
  refine ⟨_, hx.trans (onMatrix_up _ h.1), ?_⟩
  rw [simple_ok _ h]
  exact scalarOnly_setS s e f.d.toNat (v s)

theorem completes_lanewise {c : Instr} {s : State} {e : Nat} {op : EngOp} {f : EngFields} (g : Nat → Nat → Nat → Nat) (h : s.issues e op f)
    (hx : exec c s = onMatrix (fun s => s.simple e op f fun t => t.lanewise e f g) s) :
    completes c s (vectorOnly e f ((s.vreg e f.a.toNat).zipWith (perElem f.hlf g) (s.bVec e f)) s) :=
  completes_vectorOnly (fun t => (t.vreg e f.a.toNat).zipWith (perElem f.hlf g) (t.bVec e f)) h hx

theorem vmul_completes {e : Fin 256} {f : EngFields} {s : State} (h : s.issues e .vmul f) : completes (.vmul e f) s (vectorOnly e f
    ((s.vreg e f.a.toNat).zipWith (perElem f.hlf fun n a b => fitTo n f.sgn f.sat (shiftRight f.var.toNat (fSh f) (elem n f.sgn a * elem n f.sgn b)))
      (s.bVec e f)) s) :=
  completes_lanewise (exactOp f fun a b => shiftRight f.var.toNat (fSh f) (a * b)) h rfl

theorem ard_completes {e : Fin 256} {f : EngFields} {s : State} (h : s.issues e .ard f) : completes (.ard e f) s (vectorOnly e f
    ((s.areg e f.a.toNat).map fun a => BitVec.ofNat 20 (fitTo 20 f.sgn true (shiftRight f.var.toNat (fSh f) a.toInt))) s) :=
  completes_vectorOnly
    (fun t => (t.areg e f.a.toNat).map fun (a : Acc) => BitVec.ofNat 20 (fitTo 20 f.sgn true (shiftRight f.var.toNat (fSh f) a.toInt))) h rfl

theorem vsh_completes {e : Fin 256} {f : EngFields} {s : State} (h : s.issues e .vsh f) : completes (.vsh e f) s (vectorOnly e f
    ((s.vreg e f.a.toNat).zipWith (perElem f.hlf (vshElem f)) (s.bVec e f)) s) :=
  completes_lanewise (vshElem f) h rfl

theorem jfld_completes {e : Fin 256} {f : EngFields} {s : State} (h : s.issues e .jfld f) :
    completes (.jfld e f) s (scalarOnly e f.d.toNat (BitVec.ofNat 32 (s.jobField e (bf f.imm 3 0))) s) :=
  completes_scalarOnly (fun t => BitVec.ofNat 32 (t.jobField e (bf f.imm 3 0))) h rfl

/-! ### Job fields (R261) -/

/-- The table of R261: an index, and what it selects. -/
def State.jobFieldTable (s : State) (e : Nat) : List (Nat × Nat) :=
  [(0, (s.jobDesc e).line), (1, (s.jobDesc e).lines), (2, (s.jobDesc e).stroke), (3, (s.jobDesc e).tag),
    (4, (s.jobDesc e).kernel), (5, (s.jobDesc e).out.toNat * 8 + (s.jobDesc e).slot), (6, (s.jobDesc e).stream), (7, e),
    (8, (s.jobDesc e).space * 2 ^ 31 + (s.jobDesc e).addr), (9, s.deadlineNs - s.since),
    (10, s.throttled.toNat), (11, 0), (12, 0), (13, 0), (14, 0), (15, 0)]

/-- `State.jobField` reads every row of the table. -/
theorem State.jobField_of_mem_table {s : State} {e i n : Nat} (h : (i, n) ∈ s.jobFieldTable e) : s.jobField e i = n := by
  have rows : (s.jobFieldTable e).map (fun p => s.jobField e p.1) = (s.jobFieldTable e).map Prod.snd := rfl
  exact List.map_inj_left.1 rows (i, n) h

/-! ### The obligations -/

/-- Settles O13: each rounding from its own case of `shiftRight`, each instruction from what an issued vector write does. -/
theorem rightShiftsRoundAsVarSelects : Obligations.RightShiftsRoundAsVarSelects := by
  refine ⟨fun v var => shiftRight_zero var v, fun v sh h => ?_, fun f hvar => ?_, fun e f s => ⟨vmul_completes, ard_completes, fun h => ?_⟩⟩
  · exact ⟨shiftRight_halfUp v h, shiftRight_floor v h, shiftRight_halfEven_error v h⟩
  · have hlt : (2 : BitVec 2) < f.var := by rw [hvar]; decide
    exact ⟨legal_eq_false_of_var hlt, legal_eq_false_of_var hlt, legal_eq_false_of_var hlt⟩
  · rw [← vshElem_eq]
    exact vsh_completes h

/-- Settles O16, from the table of R261 that `State.jobField` reads row by row. -/
theorem jfldReturnsTheJobField : Obligations.JfldReturnsTheJobField := by
  intro e f s h
  obtain ⟨t, hx, ht⟩ := jfld_completes h
  have hd : t.sreg e f.d.toNat = BitVec.ofNat 32 (s.jobField e (bf f.imm 3 0)) := ht.1
  refine ⟨t, hx, hd ▸ ht, fun n hn => ?_⟩
  rw [hd, State.jobField_of_mem_table hn, BitVec.toNat_ofNat]

/-- Settles O14, one code of `BSEL` at a time. -/
theorem bselSelectsTheBOperand : Obligations.BselSelectsTheBOperand := by
  intro s e f
  refine ⟨fun h => ?_, fun h => ?_, fun h => ?_, fun h => ?_, fun h op hop => ?_⟩
  · exact ⟨s.bVec_register e h, s.bScal_register e h⟩
  · exact ⟨s.bVec_broadcast e h, scalarForm_reserved (.inl h)⟩
  · exact ⟨s.bVec_immediate e h, s.bScal_immediate e h⟩
  · exact ⟨scalarForm_reserved (.inr h), vectorForm_reserved h⟩
  · have scalarRows : ∀ op ∈ [EngOp.sadd, .ssub, .smul, .sand, .sor, .ssh], op.row.b = .scal := by decide
    exact legal_eq_false_of_operandB (by rw [scalarRows op hop, scalarForm_reserved h])

end Sys2Proof.Machine
end
section
/-! PROOF. The module as a whole: power-on, the queue, and what one step keeps of the memories, the key hash and parameter storage. -/

namespace Sys2Proof.Machine

/-! ### Commands that carry no data to a memory -/

theorem onMatrix_kept {g : State → State} {s t : State} (h : onMatrix g s = .next t) (hg : (g s).kept = s.kept) : t.kept = s.kept := by
  obtain rfl := Host.Outcome.next.inj h
  simp [hg]

theorem onCore_kept {g : State → State} {s t : State} (h : onCore g s = .next t) (hg : (g s).kept = s.kept) : t.kept = s.kept := by
  obtain rfl := Host.Outcome.next.inj h
  simp [hg]

theorem onLightDie_kept {g : State → State} {s t : State} (h : onLightDie g s = .next t) (hg : (g s).kept = s.kept) : t.kept = s.kept := by
  obtain rfl := Host.Outcome.next.inj h
  simp [hg]

theorem onPin_kept {p : Pins → Pins} {g : State → State} {s t : State} (h : onPin p g s = .next t) (hg : (g s).kept = s.kept) :
    t.kept = s.kept := by
  obtain rfl := Host.Outcome.next.inj h
  simp [hg]

theorem always_kept {g : State → State} {s t : State} (h : always g s = .next t) (hg : (g s).kept = s.kept) : t.kept = s.kept := by
  obtain rfl := Host.Outcome.next.inj h
  exact hg

/-- A read that is carried out. -/
theorem State.carryOut_read_kept (s : State) (q : QuayReq) (late : Bool) (h : q.write = none) : (s.carryOut q late).kept = s.kept := by
  unfold State.carryOut
  rw [h]
  split <;> simp

theorem State.quayRequest_read_kept (s : State) (q : QuayReq) (late : Bool) (h : q.write = none) : (s.quayRequest q late).kept = s.kept := by
  simp [State.quayRequest, State.carryOut_read_kept s q late h]

theorem i2cRead_kept (n : Nat) (late : Bool) (s : State) : (i2cRead n late s).kept = s.kept := by
  simp [i2cRead, State.quayRequest_read_kept]

/-- The commands that neither carry data to a memory nor write a register keep what `kept` holds, each by the lemma of its effect. -/
theorem exec_kept {c : Instr} {s t : State} (hc : (touchesMemory c || writesRegister c) = false) (hx : exec c s = .next t) :
    t.kept = s.kept := by
  cases c with
  | deadline => exact onCore_kept (g := deadline) hx (by simp)
  | manifestRecordStart r => exact onCore_kept (g := manifestRecordStart r) hx (by simp)
  | engineTakeJob e => exact onCore_kept (g := engineTakeJob e) hx (by simp)
  | crewTakeJob c => exact onCore_kept (g := crewTakeJob c) hx (by simp)
  | crewLineRoute c => exact onCore_kept (g := crewLineRoute c) hx (by simp)
  | nop e f => exact onMatrix_kept (g := engNop e f) hx (by simp)
  | br e f => exact onMatrix_kept (g := engBr e f) hx (by simp)
  | loop e f => exact onMatrix_kept (g := engLoop e f) hx (by simp)
  | jend e f => exact onCore_kept (g := engJend e f) hx (by simp)
  | jfld e f => exact onMatrix_kept (g := engJfld e f) hx (by simp)
  | tsig e f => exact onCore_kept (g := engTsig e f) hx (by simp)
  | vld e f => exact onMatrix_kept (g := engVld e f) hx (by simp)
  | vlds e f => exact onMatrix_kept (g := engVlds e f) hx (by simp)
  | sld e f => exact onMatrix_kept (g := engSld e f) hx (by simp)
  | qin e f => exact onCore_kept (g := engQin e f) hx (by simp)
  | qout e f => exact onCore_kept (g := engQout e f) hx (by simp)
  | qwait e f => exact onCore_kept (g := engQwait e f) hx (by simp)
  | ldp e f => exact onCore_kept (g := engLdp e f) hx (by simp)
  | vadd e f => exact onMatrix_kept (g := engVadd e f) hx (by simp)
  | vsub e f => exact onMatrix_kept (g := engVsub e f) hx (by simp)
  | vmin e f => exact onMatrix_kept (g := engVmin e f) hx (by simp)
  | vmax e f => exact onMatrix_kept (g := engVmax e f) hx (by simp)
  | vabsd e f => exact onMatrix_kept (g := engVabsd e f) hx (by simp)
  | vsh e f => exact onMatrix_kept (g := engVsh e f) hx (by simp)
  | vlog e f => exact onMatrix_kept (g := engVlog e f) hx (by simp)
  | vmov e f => exact onMatrix_kept (g := engVmov e f) hx (by simp)
  | vmul e f => exact onMatrix_kept (g := engVmul e f) hx (by simp)
  | sadd e f => exact onMatrix_kept (g := engSadd e f) hx (by simp)
  | ssub e f => exact onMatrix_kept (g := engSsub e f) hx (by simp)
  | smul e f => exact onMatrix_kept (g := engSmul e f) hx (by simp)
  | sand e f => exact onMatrix_kept (g := engSand e f) hx (by simp)
  | sor e f => exact onMatrix_kept (g := engSor e f) hx (by simp)
  | ssh e f => exact onMatrix_kept (g := engSsh e f) hx (by simp)
  | smov e f => exact onMatrix_kept (g := engSmov e f) hx (by simp)
  | mac e f => exact onMatrix_kept (g := engMac e f) hx (by simp)
  | msu e f => exact onMatrix_kept (g := engMsu e f) hx (by simp)
  | aset e f => exact onMatrix_kept (g := engAset e f) hx (by simp)
  | ard e f => exact onMatrix_kept (g := engArd e f) hx (by simp)
  | asum e f => exact onMatrix_kept (g := engAsum e f) hx (by simp)
  | vperm e f => exact onMatrix_kept (g := engVperm e f) hx (by simp)
  | vsld e f => exact onMatrix_kept (g := engVsld e f) hx (by simp)
  | vilv e f => exact onMatrix_kept (g := engVilv e f) hx (by simp)
  | vext e f => exact onMatrix_kept (g := engVext e f) hx (by simp)
  | vlut e f => exact onMatrix_kept (g := engVlut e f) hx (by simp)
  | vluti e f => exact onMatrix_kept (g := engVluti e f) hx (by simp)
  | vcmp e f => exact onMatrix_kept (g := engVcmp e f) hx (by simp)
  | vsel e f => exact onMatrix_kept (g := engVsel e f) hx (by simp)
  | undefinedEncoding e => exact onMatrix_kept (g := undefinedEncoding e) hx (by simp)
  | ldpWordArrive e => exact onCore_kept (g := ldpWordArrive e) hx (by simp)
  | queueXonRelease q => exact onCore_kept (g := queueXonRelease q) hx (by simp)
  | headFrameStart h err => exact onMatrix_kept (g := headFrameStart h err) hx (by simp)
  | headLineStart h late broken => exact onMatrix_kept (g := headLineStart h late ∘ iconReads broken) hx (by simp)
  | gateLine h rb sym => exact onMatrix_kept (g := gateLine h rb ∘ symbolCounts sym) hx (by simp)
  | ttPinAccept p => exact onMatrix_kept (g := ttPinAccept p) hx (by simp)
  | watchTiming h => exact onMatrix_kept (g := watchTiming h) hx (by simp)
  | resetRelease straps sris => exact onLightDie_kept (g := resetRelease straps sris) hx (by simp)
  | amdStaged got manifest ok => exact onCore_kept (g := amdStaged got manifest ok) hx (by simp)
  | coxGate g => exact onMatrix_kept (g := coxGate g) hx (by simp)
  | refActivityLoss n => exact onMatrix_kept (g := (State.activityLoss · n)) hx (by simp)
  | qlMessage n byte framed => exact onMatrix_kept (g := qlMessage n byte framed) hx (by simp)
  | qlTimeout n => exact onMatrix_kept (g := qlTimeout n) hx (by simp)
  | wtrExpiry n => exact onMatrix_kept (g := wtrExpiry n) hx (by simp)
  | slewDone => exact onMatrix_kept (g := slewDone) hx (by simp)
  | holdValid => exact onMatrix_kept (g := holdValid) hx (by simp)
  | tcompUpdate => exact onMatrix_kept (g := tcompUpdate) hx (by simp)
  | markerReceived p bs errs => exact onMatrix_kept (g := markerReceived p bs errs) hx (by simp)
  | markerMissing p => exact onMatrix_kept (g := markerMissing p) hx (by simp)
  | synLock k => exact onMatrix_kept (g := synLock k) hx (by simp)
  | synLockLoss k refLost => exact onMatrix_kept (g := synLockLoss k refLost) hx (by simp)
  | synFerrMeasure k err => exact onMatrix_kept (g := synFerrMeasure k err) hx (by simp)
  | detectDone p => exact onMatrix_kept (g := detectDone p) hx (by simp)
  | trainDone p inverted => exact onMatrix_kept (g := trainDone p inverted) hx (by simp)
  | trainTimeout p aligned => exact onMatrix_kept (g := trainTimeout p aligned) hx (by simp)
  | negTransmit p => exact onMatrix_kept (g := negTransmit p) hx (by simp)
  | negotiateDone p => exact onMatrix_kept (g := negotiateDone p) hx (by simp)
  | negotiateTimeout p => exact onMatrix_kept (g := negotiateTimeout p) hx (by simp)
  | stepDone p eye => exact onMatrix_kept (g := stepDone p eye) hx (by simp)
  | stepTimeout p => exact onMatrix_kept (g := stepTimeout p) hx (by simp)
  | rateAgreeTimeout p => exact onMatrix_kept (g := rateAgreeTimeout p) hx (by simp)
  | stepRetry p => exact onMatrix_kept (g := stepRetry p) hx (by simp)
  | laneLockLoss p => exact onMatrix_kept (g := laneLockLoss p) hx (by simp)
  | retrainTimeout p => exact onMatrix_kept (g := retrainTimeout p) hx (by simp)
  | laneRelock p => exact onMatrix_kept (g := laneRelock p) hx (by simp)
  | buoyReceived p skew i n => exact onMatrix_kept (g := buoyReceived p skew i n.toNat) hx (by simp)
  | groupNarrow p => exact onMatrix_kept (g := groupNarrow p) hx (by simp)
  | rxIdleEntry p => exact onMatrix_kept (g := rxIdleEntry p) hx (by simp)
  | rxIdleExit p => exact onMatrix_kept (g := rxIdleExit p) hx (by simp)
  | idleExitTimeout p => exact onMatrix_kept (g := idleExitTimeout p) hx (by simp)
  | eyeScanDone o height width => exact onMatrix_kept (g := eyeScanDone o height width) hx (by simp)
  | extest on => exact always_kept (g := extest on) hx (by simp)
  | xactTimeout p tag => exact onMatrix_kept (g := xactTimeout p tag) hx (by simp)
  | quePushRelease q => exact onCore_kept (g := quePushRelease q) hx (by simp)
  | quePop m q => exact onCore_kept (g := readAndAnswer m (Reg.quePop q 3)) hx (by simp)
  | audBlockClose tdm => exact onCore_kept (g := audBlockClose tdm) hx (by simp)
  | audBlockSend => exact onCore_kept (g := audBlockSend) hx (by simp)
  | tdmFrameError n => exact onCore_kept (g := tdmFrameError n) hx (by simp)
  | lightMessage => exact onLightDie_kept (g := lightMessage) hx (by simp)
  | lightMsgTimeout => exact onLightDie_kept (g := lightMsgTimeout) hx (by simp)
  | pwmPeriod x => exact onLightDie_kept (g := pwmPeriod x) hx (by simp)
  | boostOvervoltage => exact onLightDie_kept (g := boostOvervoltage) hx (by simp)
  | boostRestart => exact onLightDie_kept (g := boostRestart) hx (by simp)
  | neighbourTest high => exact onLightDie_kept (g := neighbourTest high) hx (by simp)
  | lampBoardPoll n serial => exact onLightDie_kept (g := lampBoardPoll n serial) hx (by simp)
  | identRecordRead u board => exact onLightDie_kept (g := identRecordRead u board) hx (by simp)
  | ledgerAdvance => exact onLightDie_kept (g := ledgerAdvance) hx (by simp)
  | ledgersWrite => exact onLightDie_kept (g := ledgersWrite) hx (by simp)
  | pfiRise => exact onPin_kept (p := fun p => { p with pfiN := true }) (g := pfiRise) hx (by simp)
  | vddLdRise => exact always_kept (g := vddLdRise) hx (by simp)
  | thmOffsetUpdate => exact onMatrix_kept (g := thmOffsetUpdate) hx (by simp)
  | lightDieResume => exact always_kept (g := lightDieResume) hx (by simp)
  | wakeInactive => exact onLightDie_kept (g := State.wakeInactive) hx (by simp)
  | pgGood n => exact onLightDie_kept (g := pgGood n) hx (by simp)
  | pwrEnRise => exact onLightDie_kept (g := pwrEnRise) hx (by simp)
  | pgTimeout n => exact onLightDie_kept (g := pgTimeout n) hx (by simp)
  | powerdownStep => exact onLightDie_kept (g := powerdownStep) hx (by simp)
  | resetPinRelease => exact onPin_kept (p := fun p => { p with resetN := true }) (g := resetPinRelease) hx (by simp)
  | resetExit straps sris => exact onLightDie_kept (g := resetExit straps sris) hx (by simp)
  | wdtWarn => exact onLightDie_kept (g := wdtWarn) hx (by simp)
  | pcieLinkUp lanes speed => exact onMatrix_kept (g := pcieLinkUp lanes speed) hx (by simp)
  | qspiRead o n ready => exact onCore_kept (g := qspiRead o n ready) hx (by simp)
  | qspiReadBar2 o n ready => exact onCore_kept (g := qspiReadBar2 o n ready) hx (by simp)
  | qspiReadStatus => exact onCore_kept (g := qspiReadStatus) hx (by simp)
  | i2cRead n late => exact onCore_kept (g := i2cRead n late) hx (i2cRead_kept n late s)
  | msiCoalesceTimer r => exact onCore_kept (g := msiCoalesceTimer r) hx (by simp)
  | loRead m a => exact onCore_kept (g := readAndAnswer m a.toNat) hx (by simp)
  | ttPinChange p level => exact onMatrix_kept (g := ttPinChange p level) hx (by simp)
  | refActivityReturn n => exact onMatrix_kept (g := (State.activityBack · n)) hx (by simp)
  | syncOutPulseEnd n => exact onMatrix_kept (g := syncPulseEnd n) hx (by simp)
  | invalidSymbol p => exact onMatrix_kept (g := invalidSymbol p) hx (by simp)
  | prbsCheckerSync p bits errs => exact onMatrix_kept (g := prbsCheckerSync p bits errs) hx (by simp)
  | rbSyncLost k => exact onMatrix_kept (g := rbSyncLost k) hx (by simp)
  | rbSyncGained k => exact onMatrix_kept (g := rbSyncGained k) hx (by simp)
  | egressPacketSend k => exact onCore_kept (g := egressPacketSend k) hx (by simp)
  | asrcLockChange u rate => exact onCore_kept (g := asrcLockChange u rate.toNat) hx (by simp)
  | asrcSlip u => exact onCore_kept (g := asrcSlip u) hx (by simp)
  | lampBoardWriteDone n ok => exact onLightDie_kept (g := lampBoardWriteDone n ok) hx (by simp)
  | _ => cases hc

/-! ### The obligations -/

/-- Settles O5: a step is the command at the front of the queue, or the idle step, and each keeps the canonical form. -/
theorem everyStepKeepsMemoriesCanonical : Obligations.EveryStepKeepsMemoriesCanonical := by
  intro s t hs hx
  cases hp : s.pending with
  | nil =>
    obtain rfl := Host.Outcome.next.inj ((step_nil hp).symm.trans hx)
    rwa [wf_kept, tick_kept, ← wf_kept]
  | cons c cs => exact (exec_sound c _ t ((step_cons hp).symm.trans hx)).1 hs

/-- Settles O6: a step is the command at the front of the queue, or the idle step, and each keeps a programmed hash. -/
theorem aProgrammedKeyHashNeverChanges : Obligations.AProgrammedKeyHashNeverChanges := by
  intro s t k hk hx
  have hsome : s.loader.otpHash.isSome = true := by rw [hk]; rfl
  have key : t.kept.2 = s.kept.2 := by
    cases hp : s.pending with
    | nil =>
      obtain rfl := Host.Outcome.next.inj ((step_nil hp).symm.trans hx)
      rw [tick_kept]
    | cons c cs =>
      obtain ⟨-, -, hhash, -⟩ := exec_sound c _ t ((step_cons hp).symm.trans hx)
      exact hhash hsome
  exact ⟨(congrArg Prod.fst key).trans hk, congrArg Prod.snd key⟩

/-- Settles O4: every command answers a next state, and none changes the queue. -/
theorem everyCommandCompletes : Obligations.EveryCommandCompletes := by
  intro c s
  obtain ⟨t, hx⟩ := exec_next c s
  obtain ⟨-, hpending, -, -⟩ := exec_sound c s t hx
  exact ⟨t, hx, hpending⟩

/-- Settles O7: a command that programs no storage keeps it. -/
theorem onlyPagesInProgressReachStorage : Obligations.OnlyPagesInProgressReachStorage := by
  intro c s t hc hx
  obtain ⟨-, -, -, hstorage⟩ := exec_sound c s t hx
  exact hstorage (by rw [hc]; rfl)

/-- Settles O8, command by command. -/
theorem otherCommandsLeaveEveryMemory : Obligations.OtherCommandsLeaveEveryMemory := by
  intro c s t hm hw hx
  have h : t.kept = s.kept := exec_kept (by rw [hm, hw]; rfl) hx
  simp only [State.kept, Prod.mk.injEq] at h
  obtain ⟨⟨hf, hk, hn, hc, hh, -⟩, -⟩ := h
  exact ⟨hf, hk, hn, hc, hh⟩

/-- Settles O1: every part of the power-on state by its definition; a register that nothing wrote reads its reset value. -/
theorem resetIsPowerOn : Obligations.ResetIsPowerOn :=
  ⟨rfl, rfl, rfl, rfl, rfl, rfl, rfl, rfl, rfl, rfl, fun _ => rfl, reset_memory_wf, reset_registers_wf⟩

/-- Settles O2. -/
theorem aStepRunsTheFrontCommand : Obligations.AStepRunsTheFrontCommand :=
  fun _ _ _ => step_cons rfl

/-- Settles O3. -/
theorem anIdleStepPassesTime : Obligations.AnIdleStepPassesTime :=
  fun _ h => step_nil h

end Sys2Proof.Machine
end
section
/-! PROOF. Engine instruction words, the arithmetic of R247 to R249, and the instructions that write one scalar, one vector or one
accumulator. -/

namespace Sys2Proof.Machine

/-! ### Instruction words (R244) -/

theorem engWord_code (op : EngOp) (f : EngFields) : (engWord op f).extractLsb' 58 6 = op.code := by
  simp (disch := decide) only [engWord, BitVec.extractLsb'_append_eq_of_le]
  exact BitVec.extractLsb'_eq_self

/-- No two operations share a code. -/
theorem find_code (op : EngOp) : (EngOp.all.find? fun o => o.code == op.code) = some op := by
  cases op <;> rfl

theorem engOpOf_engWord (op : EngOp) (f : EngFields) : engOpOf (engWord op f) = some op := by
  rw [engOpOf, engWord_code, find_code]

theorem engFieldsOf_engWord (op : EngOp) (f : EngFields) : engFieldsOf (engWord op f) = f := by
  obtain ⟨d, a, b, c, sgn, sat, hlf, msk, var, imm⟩ := f
  simp only [engFieldsOf, engWord, EngFields.mk.injEq]
  refine ⟨?_, ?_, ?_, ?_, ?_, ?_, ?_, ?_, ?_, ?_⟩
  case refine_5 | refine_6 | refine_7 | refine_8 => simp only [BitVec.getLsbD_append]; simp
  all_goals
    simp (disch := decide) only [BitVec.extractLsb'_append_eq_of_le, BitVec.extractLsb'_append_eq_of_add_le]
    exact BitVec.extractLsb'_eq_self

/-! ### Elements and results (R247, R248) -/

theorem encode_mod (n : Nat) (v : Int) : (encode n v : Int) = v % (2 ^ n : Int) := by
  rw [encode, Int.toNat_of_nonneg (Int.emod_nonneg _ (by positivity)), Nat.cast_pow, Nat.cast_ofNat]

theorem encode_lt (n : Nat) (v : Int) : encode n v < 2 ^ n := by
  have h := encode_mod n v
  have := Int.emod_lt_of_pos v (show (0 : Int) < 2 ^ n by positivity)
  zify
  omega

/-- A number that `n` unsigned bits hold is read back. -/
theorem encode_unsigned {n : Nat} {v : Int} (h0 : 0 ≤ v) (h1 : v < 2 ^ n) : ((encode n v % 2 ^ n : Nat) : Int) = v := by
  rw [Nat.mod_eq_of_lt (encode_lt n v), encode_mod, Int.emod_eq_of_lt h0 h1]

/-- A number that `n` signed bits hold is read back. -/
theorem signed_encode {n : Nat} (hn : 0 < n) {v : Int} (h0 : -2 ^ (n - 1) ≤ v) (h1 : v < 2 ^ (n - 1)) : signed n (encode n v) = v := by
  have hp : (2 : Int) ^ n = 2 * 2 ^ (n - 1) := two_pow_eq_two_mul_half hn
  have hcast : ((2 ^ (n - 1) : Nat) : Int) = 2 ^ (n - 1) := by push_cast; rfl
  have hcast' : ((2 ^ n : Nat) : Int) = 2 ^ n := by push_cast; rfl
  have hm := encode_mod n v
  rw [signed, Nat.mod_eq_of_lt (encode_lt n v)]
  rcases le_or_gt 0 v with hv | hv
  · rw [Int.emod_eq_of_lt hv (by omega)] at hm
    rw [if_pos (by omega), hm]
  · rw [← Int.add_emod_right, Int.emod_eq_of_lt (by omega) (by omega)] at hm
    rw [if_neg (by omega), hm]
    omega

theorem elem_fitTo_signed {n : Nat} (hn : 0 < n) (v : Int) :
    elem n true (fitTo n true true v) = max (-(2 ^ (n - 1) : Int)) (min (2 ^ (n - 1) - 1 : Int) v) := by
  have hpos : (0 : Int) < 2 ^ (n - 1) := by positivity
  simp only [elem, fitTo, clampI, if_true, Nat.cast_pow, Nat.cast_ofNat]
  exact signed_encode hn (by omega) (by omega)

theorem elem_fitTo_unsigned (n : Nat) (v : Int) : elem n false (fitTo n false true v) = max 0 (min (2 ^ n - 1 : Int) v) := by
  have hpos : (0 : Int) < 2 ^ n := by positivity
  simp only [elem, fitTo, clampI, if_true, Bool.false_eq_true, if_false, Nat.cast_pow, Nat.cast_ofNat]
  exact encode_unsigned (by omega) (by omega)

theorem fitTo_wraps (n : Nat) (sgn : Bool) (v : Int) : (fitTo n sgn false v : Int) = v % (2 ^ n : Int) := encode_mod n v

theorem accFit_clamps (v : Int) : (accFit true v).toInt = max (-(2 ^ 47 : Int)) (min (2 ^ 47 - 1 : Int) v) := by
  simp only [accFit, clampI, if_true, BitVec.toInt_ofInt, Int.bmod_def]
  omega

theorem accFit_wraps (v : Int) : ((accFit false v).toNat : Int) = v % (2 ^ 48 : Int) := by
  simp only [accFit, Bool.false_eq_true, if_false, BitVec.toNat_ofInt]
  omega

/-- An element without saturation is its low bits. -/
theorem encode_elem (n : Nat) (sgn : Bool) (x : Nat) : encode n (elem n sgn x) = x % 2 ^ n := by
  have hm := encode_mod n (elem n sgn x)
  have hlt : ((x % 2 ^ n : Nat) : Int) < 2 ^ n := by exact_mod_cast Nat.mod_lt x (by positivity)
  zify
  rw [hm]
  unfold elem signed
  split_ifs
  · exact Int.emod_eq_of_lt (by positivity) hlt
  · push_cast
    rw [Int.sub_emod_right, Int.emod_emod]
  · exact Int.emod_eq_of_lt (by positivity) hlt

/-! ### Encodings (R245) -/

theorem legal_sat {op : EngOp} {f : EngFields} (h : op.legal f = true) (hrow : op.row.sat = false) : f.sat = false := by
  simp only [EngOp.legal, hrow, Bool.false_or, Bool.and_eq_true, Bool.not_eq_true'] at h
  obtain ⟨⟨⟨⟨⟨⟨-, hsat⟩, -⟩, -⟩, -⟩, -⟩, -⟩ := h
  exact hsat

theorem legal_msk {op : EngOp} {f : EngFields} (h : op.legal f = true) (hrow : op.row.msk = false) : f.msk = false := by
  simp only [EngOp.legal, hrow, Bool.false_or, Bool.and_eq_true, Bool.not_eq_true'] at h
  obtain ⟨⟨⟨⟨-, hmsk⟩, -⟩, -⟩, -⟩ := h
  exact hmsk

theorem var_cases (v : BitVec 2) : v = 0 ∨ v = 1 ∨ v = 2 ∨ v = 3 := by revert v; decide

/-- The four values of `VAR`, as the model's `match` and as the statements' `if` read them. -/
theorem match_var {α : Sort*} (v : BitVec 2) (a b c d : α) :
    (match v.toNat with | 0 => a | 1 => b | 2 => c | _ => d) = if v = 0 then a else if v = 1 then b else if v = 2 then c else d := by
  obtain rfl | rfl | rfl | rfl := var_cases v
  all_goals rfl

/-! ### Scalars -/

theorem scalVal_eq_iff (sgn : Bool) (a b : Word) : (scalVal sgn a == scalVal sgn b) = (a == b) := by
  cases sgn <;> simp [scalVal, BitVec.toInt_inj, BitVec.toNat_inj, Bool.beq_eq_decide_eq]

theorem bitVec_ofInt_elem (n : Nat) (sgn : Bool) (x : Lane) :
    BitVec.ofInt n (elem 20 sgn x.toNat) = if sgn then x.signExtend n else x.setWidth n := by
  cases sgn
  · simp only [elem, Bool.false_eq_true, if_false, Nat.mod_eq_of_lt x.isLt, BitVec.ofInt_natCast, BitVec.ofNat_toNat]
  · simp only [elem, if_true, signed_toNat (show 0 < 20 by decide)]
    rfl

theorem ssh_value (f : EngFields) (a b : Word) :
    (match f.var.toNat with | 0 => a <<< (b.toNat % 32) | 1 => a >>> (b.toNat % 32) | _ => a.sshiftRight (b.toNat % 32)) =
      if f.var = 0 then a <<< (b.toNat % 32) else if f.var = 1 then a >>> (b.toNat % 32) else a.sshiftRight (b.toNat % 32) := by
  generalize f.var = v
  obtain rfl | rfl | rfl | rfl := var_cases v
  all_goals rfl

theorem foldl_add_eq_sum (l : List Acc) (n : Int) : l.foldl (fun n a => n + a.toInt) n = n + (l.map (·.toInt)).sum := by
  induction l generalizing n with
  | nil => simp
  | cons a l ih => rw [List.foldl_cons, ih, List.map_cons, List.sum_cons, add_assoc]

/-- What `ASUM` computes from an accumulator's lanes (R251). -/
def asumWord (l : List Acc) : Word := BitVec.ofNat 32 (fitTo 32 true true (l.foldl (fun n a => n + a.toInt) 0))

theorem asumWord_eq (l : List Acc) : asumWord l = BitVec.ofInt 32 (max (-2147483648) (min 2147483647 (l.map (·.toInt)).sum)) := by
  rw [asumWord, foldl_add_eq_sum, zero_add]
  apply BitVec.eq_of_toNat_eq
  simp only [fitTo, clampI, if_true, BitVec.toNat_ofNat, BitVec.toNat_ofInt]
  rw [Nat.mod_eq_of_lt (encode_lt _ _)]
  rfl

/-- The mask that `VCMP` gathers: bit `i` is the comparison of lane `i`. -/
theorem testBit_foldl_mask (l : List Bool) (k m i : Nat) (hm : m < 2 ^ k) :
    ((l.zipIdx k).foldl (fun m b => m + b.1.toNat * 2 ^ b.2) m).testBit i = if i < k then m.testBit i else l.getD (i - k) false := by
  induction l generalizing k m with
  | nil =>
    split_ifs with h
    · rfl
    · simpa using Nat.testBit_lt_two_pow (lt_of_lt_of_le hm (Nat.pow_le_pow_right (by decide) (by omega)))
  | cons b l ih =>
    have hb : b.toNat * 2 ^ k ≤ 2 ^ k := by cases b <;> simp
    have hsum : m + b.toNat * 2 ^ k < 2 ^ (k + 1) := by rw [pow_succ]; omega
    rw [List.zipIdx_cons, List.foldl_cons, ih (k + 1) _ hsum, Nat.add_comm m, Nat.mul_comm, Nat.testBit_two_pow_mul_add _ hm]
    rcases lt_trichotomy i k with h | rfl | h
    · rw [if_pos h, if_pos (by omega), if_pos h]
    · rw [if_neg (lt_irrefl _), if_pos (by omega), if_neg (lt_irrefl _)]
      cases b <;> simp
    · obtain ⟨j, rfl⟩ : ∃ j, i = k + 1 + j := ⟨i - (k + 1), by omega⟩
      rw [if_neg (by omega), if_neg (by omega), show k + 1 + j - k = j + 1 by omega, List.getD_cons_succ,
        show k + 1 + j - (k + 1) = j by omega]

/-- What `VCMP` compares in a lane (R251). -/
def vcmpLane (f : EngFields) (a b : Lane) : Bool :=
  match f.var.toNat with
  | 0 => elem 20 f.sgn a.toNat == elem 20 f.sgn b.toNat
  | 1 => elem 20 f.sgn a.toNat != elem 20 f.sgn b.toNat
  | 2 => decide (elem 20 f.sgn a.toNat < elem 20 f.sgn b.toNat)
  | _ => decide (elem 20 f.sgn a.toNat ≤ elem 20 f.sgn b.toNat)

theorem elem_lane (sgn : Bool) (a : Lane) : elem 20 sgn a.toNat = if sgn then a.toInt else (a.toNat : Int) := by
  cases sgn
  · simp only [elem, Bool.false_eq_true, if_false, Nat.mod_eq_of_lt a.isLt]
  · simp only [elem, if_true, signed_toNat (show 0 < 20 by decide)]

theorem vcmpLane_eq (f : EngFields) (a b : Lane) : vcmpLane f a b =
    if f.var = 0 then a == b else if f.var = 1 then a != b
    else if f.var = 2 then (if f.sgn then a.slt b else a.ult b) else (if f.sgn then a.sle b else a.ule b) := by
  refine (match_var f.var _ _ _ _).trans ?_
  simp only [elem_lane, bne]
  cases f.sgn <;>
    simp [BitVec.toInt_inj, BitVec.toNat_inj, Bool.beq_eq_decide_eq, BitVec.slt, BitVec.sle, BitVec.ult, BitVec.ule]

theorem vcmp_bit (f : EngFields) (va vb : List Lane) {i : Nat} {a b : Lane} (hi : i < 32) (ha : va[i]? = some a) (hb : vb[i]? = some b) :
    (BitVec.ofNat 32 ((va.zipWith (vcmpLane f) vb).zipIdx.foldl (fun m b => m + b.1.toNat * 2 ^ b.2) 0)).getLsbD i = vcmpLane f a b := by
  rw [BitVec.getLsbD_ofNat, testBit_foldl_mask _ 0 0 i (by decide)]
  simp [hi, List.getD, List.getElem?_zipWith, ha, hb]

theorem vcmp_completes {e : Fin 256} {f : EngFields} {s : State} (h : s.issues e .vcmp f) : completes (.vcmp e f) s (scalarOnly e f.d.toNat
    (BitVec.ofNat 32 (((s.vreg e f.a.toNat).zipWith (vcmpLane f) (s.bVec e f)).zipIdx.foldl (fun m b => m + b.1.toNat * 2 ^ b.2) 0)) s) :=
  completes_scalarOnly (fun t => BitVec.ofNat 32
    (((t.vreg e f.a.toNat).zipWith (vcmpLane f) (t.bVec e f)).zipIdx.foldl (fun m b => m + b.1.toNat * 2 ^ b.2) 0)) h rfl

/-! ### Vectors -/

theorem exactOp_min (f : EngFields) (hsat : f.sat = false) : exactOp f min = fun n a b =>
    if elem n f.sgn a ≤ elem n f.sgn b then a % 2 ^ n else b % 2 ^ n := by
  funext n a b
  simp only [exactOp, fitTo, hsat, Bool.false_eq_true, if_false, min_def, apply_ite (encode n), encode_elem]

theorem exactOp_max (f : EngFields) (hsat : f.sat = false) : exactOp f max = fun n a b =>
    if elem n f.sgn a ≤ elem n f.sgn b then b % 2 ^ n else a % 2 ^ n := by
  funext n a b
  simp only [exactOp, fitTo, hsat, Bool.false_eq_true, if_false, max_def, apply_ite (encode n), encode_elem]

theorem fitTo_natAbs (n : Nat) (v : Int) : fitTo n false true v.natAbs = min (2 ^ n - 1) v.natAbs := by
  have h := elem_fitTo_unsigned n v.natAbs
  have hpos : 0 < 2 ^ n := by positivity
  have hlt : fitTo n false true v.natAbs < 2 ^ n := encode_lt n _
  simp only [elem, Bool.false_eq_true, if_false, Nat.mod_eq_of_lt hlt] at h
  have hcast : ((2 ^ n : Nat) : Int) = 2 ^ n := by push_cast; rfl
  omega

/-- What `VLOG` does to a lane (R251). -/
theorem vlog_lane (f : EngFields) :
    (fun a b : Lane => match f.var.toNat with | 0 => a &&& b | 1 => a ||| b | 2 => a ^^^ b | _ => a &&& ~~~b) = fun a b =>
      if f.var = 0 then a &&& b else if f.var = 1 then a ||| b else if f.var = 2 then a ^^^ b else a &&& ~~~b := by
  funext a b
  exact match_var f.var _ _ _ _

/-- What `VILV` interleaves (R251), lane by lane. -/
def vilvLanes (f : EngFields) (a b : Nat → Lane) : List Lane :=
  (upto 32).map fun i =>
    match f.var.toNat with
    | 0 => if i % 2 = 0 then a (i / 2) else b (i / 2)
    | 1 => if i % 2 = 0 then a (16 + i / 2) else b (16 + i / 2)
    | 2 => if i < 16 then a (2 * i) else b (2 * (i - 16))
    | _ => if i < 16 then a (2 * i + 1) else b (2 * (i - 16) + 1)

theorem vilvLanes_eq (f : EngFields) (a b : Nat → Lane) : vilvLanes f a b =
    if f.var = 0 then (upto 16).flatMap fun i => [a i, b i]
    else if f.var = 1 then (upto 16).flatMap fun i => [a (16 + i), b (16 + i)]
    else if f.var = 2 then (upto 16).map (fun i => a (2 * i)) ++ (upto 16).map fun i => b (2 * i)
    else (upto 16).map (fun i => a (2 * i + 1)) ++ (upto 16).map fun i => b (2 * i + 1) := by
  unfold vilvLanes
  generalize f.var = v
  obtain rfl | rfl | rfl | rfl := var_cases v
  all_goals rfl

/-! ### Accumulators -/

/-- An instruction that writes one accumulator and goes on completes when it issues. -/
theorem completes_accOnly {c : Instr} {s : State} {e : Nat} {op : EngOp} {f : EngFields} (v : State → List Acc) (h : s.issues e op f)
    (hx : exec c s = onMatrix (fun s => s.simple e op f fun t => t.setA e f.d.toNat (v t)) s) :
    completes c s (accOnly e f.d.toNat (v s) s) := by
  refine ⟨_, hx.trans (onMatrix_up _ h.1), ?_⟩
  rw [simple_ok _ h]
  exact accOnly_setA s e f.d.toNat (v s)

/-- What an accumulator instruction puts into its lanes. -/
def macLanes (f : EngFields) (sign : Int) (a : List Acc) (va vb : List Lane) : List Acc :=
  a.zipWith (fun a v => accFit f.sat (a.toInt + sign * v)) (va.zipWith (fun a b => elem 20 f.sgn a.toNat * elem 20 f.sgn b.toNat) vb)

theorem macLanes_mac (f : EngFields) (a : List Acc) (va vb : List Lane) : macLanes f 1 a va vb =
    a.zipWith (fun a v => accFit f.sat (a.toInt + v)) (va.zipWith (fun a b => elem 20 f.sgn a.toNat * elem 20 f.sgn b.toNat) vb) := by
  simp only [macLanes, one_mul]

theorem macLanes_msu (f : EngFields) (a : List Acc) (va vb : List Lane) : macLanes f (-1) a va vb =
    a.zipWith (fun a v => accFit f.sat (a.toInt - v)) (va.zipWith (fun a b => elem 20 f.sgn a.toNat * elem 20 f.sgn b.toNat) vb) := by
  simp only [macLanes, neg_one_mul, sub_eq_add_neg]

theorem aset_lane (f : EngFields) (b : Lane) : BitVec.ofInt 48 (elem 20 f.sgn b.toNat * (2 ^ fSh f : Nat)) =
    (if f.sgn then b.signExtend 48 else b.setWidth 48 : BitVec 48) <<< fSh f := by
  rw [← bitVec_ofInt_elem, BitVec.shiftLeft_eq_mul_twoPow, BitVec.ofInt_mul, BitVec.ofInt_natCast]
  congr 1
  apply BitVec.eq_of_toNat_eq
  simp [BitVec.toNat_twoPow]

/-- What `ASET` puts into an accumulator's lanes (R251). -/
def asetLanes (f : EngFields) (l : List Lane) : List Acc := l.map fun b => BitVec.ofInt 48 (elem 20 f.sgn b.toNat * (2 ^ fSh f : Nat))

theorem asetLanes_eq (f : EngFields) (l : List Lane) :
    asetLanes f l = l.map fun b => (if f.sgn then b.signExtend 48 else b.setWidth 48 : BitVec 48) <<< fSh f :=
  List.map_congr_left fun b _ => aset_lane f b

/-! ### The obligations -/

/-- Settles O11: each part of the word is read from its own bits. -/
theorem engineWordsDecodeToWhatTheyEncode : Obligations.EngineWordsDecodeToWhatTheyEncode :=
  fun op f => ⟨engOpOf_engWord op f, engFieldsOf_engWord op f⟩

/-- Settles O12. -/
theorem resultsSaturateOrWrap : Obligations.ResultsSaturateOrWrap := by
  refine ⟨fun n hn v => ?_, fun v => ⟨accFit_clamps v, accFit_wraps v⟩⟩
  have hpos : 0 < n := by
    simp only [List.mem_cons, List.not_mem_nil, or_false] at hn
    omega
  exact ⟨elem_fitTo_signed hpos v, elem_fitTo_unsigned n v, fun sgn => fitTo_wraps n sgn v⟩

/-- Settles O15: each instruction from what an issued scalar write does. -/
theorem scalarInstructionsWriteOneScalar : Obligations.ScalarInstructionsWriteOneScalar := by
  intro e f s
  refine ⟨fun h => ?_, fun h => ?_, fun h => ?_, fun h => ?_, fun h => ?_, fun h => ?_, fun h => ?_, fun h => ?_, fun h => ?_, fun h => ?_⟩
  · exact completes_scalarOnly (fun t => scalFit f (scalVal f.sgn (t.sreg e f.a.toNat) + scalVal f.sgn (t.bScal e f))) h rfl
  · exact completes_scalarOnly (fun t => scalFit f (scalVal f.sgn (t.sreg e f.a.toNat) - scalVal f.sgn (t.bScal e f))) h rfl
  · exact completes_scalarOnly (fun t => t.sreg e f.a.toNat * t.bScal e f) h rfl
  · exact completes_scalarOnly (fun t => t.sreg e f.a.toNat &&& t.bScal e f) h rfl
  · exact completes_scalarOnly (fun t => t.sreg e f.a.toNat ||| t.bScal e f) h rfl
  · rw [← ssh_value f (s.sreg e f.a.toNat) (s.bScal e f)]
    exact completes_scalarOnly (fun t => match f.var.toNat with
      | 0 => t.sreg e f.a.toNat <<< ((t.bScal e f).toNat % 32)
      | 1 => t.sreg e f.a.toNat >>> ((t.bScal e f).toNat % 32)
      | _ => (t.sreg e f.a.toNat).sshiftRight ((t.bScal e f).toNat % 32)) h rfl
  · exact completes_scalarOnly (fun _ => f.imm) h rfl
  · rw [← bitVec_ofInt_elem]
    exact completes_scalarOnly (fun t => BitVec.ofInt 32 (elem 20 f.sgn ((t.vreg e f.a.toNat).getD (bf f.imm 4 0) 0).toNat)) h rfl
  · rw [← asumWord_eq]
    exact completes_scalarOnly (fun t => asumWord (t.areg e f.a.toNat)) h rfl
  · obtain ⟨t, hx, ht⟩ := vcmp_completes h
    have hd := ht.1
    refine ⟨t, hx, hd ▸ ht, fun i a b hi ha hb => ?_⟩
    rw [hd, vcmp_bit f _ _ hi ha hb, vcmpLane_eq]

/-- Settles O17: each instruction from what an issued vector write does. -/
theorem lanewiseInstructionsWriteOneVector : Obligations.LanewiseInstructionsWriteOneVector := by
  intro e f s
  refine ⟨fun h => ?_, fun h => ?_, fun h => ?_, fun h => ?_, fun h => ?_, fun h => ?_, fun h => ?_⟩
  · exact completes_lanewise (exactOp f (· + ·)) h rfl
  · exact completes_lanewise (exactOp f (· - ·)) h rfl
  · obtain ⟨-, -, hl, -⟩ := id h
    rw [← exactOp_min f (legal_sat hl rfl)]
    exact completes_lanewise _ h rfl
  · obtain ⟨-, -, hl, -⟩ := id h
    rw [← exactOp_max f (legal_sat hl rfl)]
    exact completes_lanewise _ h rfl
  · simp only [← fitTo_natAbs]
    exact completes_lanewise _ h rfl
  · rw [← vlog_lane]
    exact completes_vectorOnly (fun t => (t.vreg e f.a.toNat).zipWith _ (t.bVec e f)) h rfl
  · exact completes_vectorOnly (fun t => t.bVec e f) h rfl

/-- Settles O18: each instruction from what an issued vector write does. -/
theorem laneMovesWriteOneVector : Obligations.LaneMovesWriteOneVector := by
  intro e f s
  refine ⟨fun h => ?_, fun h => ?_, fun h => ?_, fun h => ?_⟩
  · exact completes_vectorOnly (fun t => (t.vreg e f.b.toNat).map fun (b : Lane) => (t.vreg e f.a.toNat).getD (b.toNat % 32) 0) h rfl
  · exact completes_vectorOnly (fun t => ((t.vreg e f.a.toNat ++ t.vreg e f.b.toNat).drop (bf f.imm 4 0)).take 32) h rfl
  · dsimp only
    rw [← vilvLanes_eq f (fun i => (s.vreg e f.a.toNat).getD i 0) fun i => (s.vreg e f.b.toNat).getD i 0]
    exact completes_vectorOnly
      (fun t => vilvLanes f (fun i => (t.vreg e f.a.toNat).getD i 0) fun i => (t.vreg e f.b.toNat).getD i 0) h rfl
  · exact completes_vectorOnly (fun t => (upto 32).map fun i =>
      if (t.sreg e f.c.toNat).getLsbD i then (t.vreg e f.a.toNat).getD i 0 else (t.vreg e f.b.toNat).getD i 0) h rfl

/-- Settles O19: each instruction from what an issued accumulator write does. -/
theorem accumulatorInstructionsWriteOneAccumulator : Obligations.AccumulatorInstructionsWriteOneAccumulator := by
  intro e f s
  refine ⟨fun h => ?_, fun h => ?_, fun h => ?_⟩
  · rw [← macLanes_mac]
    exact completes_accOnly (fun t => macLanes f 1 (t.areg e f.d.toNat) (t.vreg e f.a.toNat) (t.bVec e f)) h rfl
  · rw [← macLanes_msu]
    exact completes_accOnly (fun t => macLanes f (-1) (t.areg e f.d.toNat) (t.vreg e f.a.toNat) (t.bVec e f)) h rfl
  · rw [← asetLanes_eq]
    exact completes_accOnly (fun t => asetLanes f (t.bVec e f)) h rfl

end Sys2Proof.Machine
end
section
/-! PROOF. Packed words of local memory, loads and lookups, stores, and the control instructions (R242, R252, R253, R258, R259). -/

namespace Sys2Proof.Machine

/-! ### Bits of a memory

A packed word need not lie on a byte boundary (R196, R252), so reads and writes of one are compared bit by bit. -/

/-- Bit `p` of a memory, counted from bit 0 of byte 0. -/
def memBit (m : NMap Byte) (p : Nat) : Bool := (nget zeroByte m (p / 8)).getLsbD (p % 8)

theorem testBit_leNat (bs : List Byte) (k : Nat) : (leNat bs).testBit k = (bs.getD (k / 8) 0).getLsbD (k % 8) := by
  induction bs generalizing k with
  | nil => simp [leNat]
  | cons b bs ih =>
    rw [leNat, Nat.add_comm, show (256 : Nat) = 2 ^ 8 from rfl, Nat.testBit_two_pow_mul_add _ b.isLt]
    split_ifs with h
    · rw [Nat.div_eq_of_lt h, Nat.mod_eq_of_lt h]; rfl
    · obtain ⟨j, rfl⟩ : ∃ j, k = j + 8 := ⟨k - 8, by omega⟩
      rw [ih, Nat.add_sub_cancel, Nat.add_div_right _ (by decide), Nat.add_mod_right]; rfl

theorem getLsbD_leBytes (n v i r : Nat) (hi : i < n) (hr : r < 8) : ((leBytes n v).getD i 0).getLsbD r = v.testBit (8 * i + r) := by
  induction n generalizing v i with
  | zero => omega
  | succ n ih =>
    cases i with
    | zero => rw [leBytes, List.getD_cons_zero, BitVec.getLsbD_ofNat, Nat.mul_zero, Nat.zero_add, decide_eq_true hr, Bool.true_and]
    | succ i =>
      rw [leBytes, List.getD_cons_succ, ih _ _ (by omega), show (256 : Nat) = 2 ^ 8 from rfl, Nat.testBit_div_two_pow]
      congr 1; omega

theorem length_leBytes (n v : Nat) : (leBytes n v).length = n := by
  induction n generalizing v with
  | zero => rfl
  | succ n ih => rw [leBytes, List.length_cons, ih]

/-- A number written as bytes puts its bits into the memory. -/
theorem memBit_writeBytes (m : NMap Byte) (a n v p : Nat) : memBit (writeBytes zeroByte m a (leBytes n v)) p =
    if 8 * a ≤ p ∧ p < 8 * (a + n) then v.testBit (p - 8 * a) else memBit m p := by
  unfold memBit
  split_ifs with h
  · obtain ⟨i, hi⟩ : ∃ i, p / 8 = a + i := ⟨p / 8 - a, by omega⟩
    have hlen : i < (leBytes n v).length := by rw [length_leBytes]; omega
    rw [hi, writeBytes_inside _ _ _ _ _ hlen, ← List.getD_eq_getElem _ 0 hlen, getLsbD_leBytes _ _ _ _ (by omega) (by omega)]
    congr 1; omega
  · rw [writeBytes_outside _ _ _ _ _ (by rw [length_leBytes]; omega)]

/-- A number read from bytes has the bits of the memory. -/
theorem testBit_readBytes (m : NMap Byte) (a n k : Nat) (h : k < 8 * n) :
    (leNat (readBytes zeroByte m a n)).testBit k = memBit m (8 * a + k) := by
  rw [testBit_leNat, memBit, readBytes, List.getD_eq_getElem?_getD, List.getElem?_map, List.getElem?_range (by omega)]
  rw [show (8 * a + k) / 8 = a + k / 8 by omega, show (8 * a + k) % 8 = k % 8 by omega]
  rfl

theorem nget_eq_of_memBit {m m' : NMap Byte} {x : Nat} (h : ∀ r < 8, memBit m (8 * x + r) = memBit m' (8 * x + r)) :
    nget zeroByte m x = nget zeroByte m' x := by
  apply BitVec.eq_of_getLsbD_eq
  intro r hr
  have := h r hr
  simp only [memBit] at this
  rwa [show (8 * x + r) / 8 = x by omega, show (8 * x + r) % 8 = r by omega] at this

/-! ### Packed words (R252) -/

theorem packedWord_bit (m : NMap Byte) (b j i : Nat) (hi : i < 20) : (packedWord m b j).getLsbD i = memBit m (8 * b + 20 * j + i) := by
  simp only [packedWord, BitVec.getLsbD_ofNat, Nat.testBit_div_two_pow, hi, decide_true, Bool.true_and]
  rw [testBit_readBytes _ _ _ _ (by omega)]
  congr 1; omega

/-- A number with 20 of its bits replaced. -/
theorem testBit_splice (v w sh k : Nat) (hw : w < 2 ^ 20) :
    (v % 2 ^ sh + w * 2 ^ sh + v / 2 ^ (20 + sh) * 2 ^ (20 + sh)).testBit k =
      if sh ≤ k ∧ k < sh + 20 then w.testBit (k - sh) else v.testBit k := by
  have hlow : v % 2 ^ sh < 2 ^ sh := Nat.mod_lt _ (by positivity)
  have e : v % 2 ^ sh + w * 2 ^ sh + v / 2 ^ (20 + sh) * 2 ^ (20 + sh) =
      2 ^ sh * (2 ^ 20 * (v / 2 ^ (20 + sh)) + w) + v % 2 ^ sh := by
    rw [pow_add]; ring
  rw [e, Nat.testBit_two_pow_mul_add _ hlow, Nat.testBit_two_pow_mul_add _ hw, Nat.testBit_mod_two_pow, Nat.testBit_div_two_pow]
  rcases (by omega : k < sh ∨ (sh ≤ k ∧ k < sh + 20) ∨ sh + 20 ≤ k) with hk | ⟨hk, hk2⟩ | hk
  · rw [if_pos hk, if_neg (by omega), decide_eq_true hk, Bool.true_and]
  · rw [if_neg (by omega), if_pos (by omega), if_pos ⟨hk, hk2⟩]
  · rw [if_neg (by omega), if_neg (by omega), if_neg (by omega)]
    congr 1; omega

theorem memBit_putPacked (m : NMap Byte) (b : Nat) (w : Lane) (j p : Nat) : memBit (putPacked m b w j) p =
    if 8 * b + 20 * j ≤ p ∧ p < 8 * b + 20 * j + 20 then w.getLsbD (p - (8 * b + 20 * j)) else memBit m p := by
  simp only [putPacked, memBit_writeBytes]
  split_ifs with h h2 h2
  · rw [testBit_splice _ _ _ _ w.isLt, if_pos (by omega)]
    show w.getLsbD _ = _
    congr 1; omega
  · rw [testBit_splice _ _ _ _ w.isLt, if_neg (by omega), testBit_readBytes _ _ _ _ (by omega)]
    congr 1; omega
  · omega
  · rfl

theorem memBit_putWords (b : Nat) (ws : List Lane) (m : NMap Byte) (j p : Nat) : memBit (putWords m b ws j) p =
    if 8 * b + 20 * j ≤ p ∧ p < 8 * b + 20 * (j + ws.length) then
      (ws.getD ((p - (8 * b + 20 * j)) / 20) 0).getLsbD ((p - (8 * b + 20 * j)) % 20)
    else memBit m p := by
  induction ws generalizing m j with
  | nil => rw [if_neg (by simp only [List.length_nil]; omega)]; rfl
  | cons w ws ih =>
    have step : putWords m b (w :: ws) j = putWords (putPacked m b w j) b ws (j + 1) := rfl
    rw [step, ih, memBit_putPacked, List.length_cons]
    rcases (by omega : (8 * b + 20 * j ≤ p ∧ p < 8 * b + 20 * j + 20) ∨ (8 * b + 20 * (j + 1) ≤ p ∧ p < 8 * b + 20 * (j + 1 + ws.length)) ∨
      ¬ (8 * b + 20 * j ≤ p ∧ p < 8 * b + 20 * (j + (ws.length + 1)))) with hp | ⟨hp, hp2⟩ | hp
    · rw [if_neg (by omega), if_pos hp, if_pos (by omega), Nat.div_eq_of_lt (by omega), Nat.mod_eq_of_lt (by omega), List.getD_cons_zero]
    · rw [if_pos ⟨hp, hp2⟩, if_pos (by omega)]
      obtain ⟨q, hq⟩ : ∃ q, p = 8 * b + 20 * (j + 1) + q := ⟨p - (8 * b + 20 * (j + 1)), by omega⟩
      subst hq
      rw [show 8 * b + 20 * (j + 1) + q - (8 * b + 20 * j) = q + 20 by omega, Nat.add_div_right _ (by decide), Nat.add_mod_right,
        List.getD_cons_succ, Nat.add_sub_cancel_left]
    · rw [if_neg (by omega), if_neg (by omega), if_neg hp]

/-- Packed words read back as they were put. -/
theorem packedWord_putWords (m : NMap Byte) (b : Nat) (ws : List Lane) (j : Nat) (w : Lane) (h : ws[j]? = some w) :
    packedWord (putWords m b ws 0) b j = w := by
  have hj : j < ws.length := (List.getElem?_eq_some_iff.1 h).1
  apply BitVec.eq_of_getLsbD_eq
  intro i hi
  rw [packedWord_bit _ _ _ _ hi, memBit_putWords, if_pos (by omega), show 8 * b + 20 * j + i - (8 * b + 20 * 0) = 20 * j + i by omega,
    show (20 * j + i) / 20 = j by omega, show (20 * j + i) % 20 = i by omega, List.getD_eq_getElem?_getD, h]
  rfl

/-- Packed words leave the bytes beside them alone. -/
theorem putWords_outside (m : NMap Byte) (b : Nat) (ws : List Lane) {n : Nat} (hn : ws.length ≤ n) {x : Nat}
    (hx : x < b ∨ b + packedBytes n ≤ x) : nget zeroByte (putWords m b ws 0) x = nget zeroByte m x := by
  refine nget_eq_of_memBit fun r hr => ?_
  unfold packedBytes at hx
  rw [memBit_putWords, if_neg (by omega)]

theorem leNat_leBytes {n v : Nat} (h : v < 2 ^ (8 * n)) : leNat (leBytes n v) = v := by
  apply Nat.eq_of_testBit_eq
  intro k
  rw [testBit_leNat]
  rcases lt_or_ge k (8 * n) with hk | hk
  · rw [getLsbD_leBytes _ _ _ _ (by omega) (by omega)]
    congr 1; omega
  · rw [List.getD_eq_default _ _ (by rw [length_leBytes]; omega), Nat.testBit_lt_two_pow (h.trans_le (Nat.pow_le_pow_right (by decide) hk))]
    simp

theorem readBytes_writeBytes (d : Nat → Byte) (m : NMap Byte) (a : Nat) (bs : List Byte) :
    readBytes d (writeBytes d m a bs) a bs.length = bs := by
  refine List.ext_getElem (by simp [readBytes]) fun i h1 h2 => ?_
  simp only [readBytes, List.getElem_map, List.getElem_range]
  exact writeBytes_inside d bs m a i h2

/-! ### Loads and stores that issue -/

theorem inLocal_load {s : State} {e base n : Nat} (h : base + n ≤ 0x10000) : s.inLocal e base n false = true := by
  simp only [State.inLocal, decide_eq_true h, Bool.not_false, Bool.true_or, Bool.and_self]

theorem inLocal_store {s : State} {e base n : Nat} (h : base + n ≤ 0x10000) (ht : s.codeTop e ≤ base) : s.inLocal e base n true = true := by
  simp only [State.inLocal, decide_eq_true h, decide_eq_true ht, Bool.or_true, Bool.and_self]

/-- A load of one vector from inside local memory completes when it issues. -/
theorem completes_loadVector {c : Instr} {s : State} {e : Nat} {op : EngOp} {f : EngFields} {base n : Nat} (g : State → State)
    (v : State → List Lane) (h : s.issues e op f) (hb : base + n ≤ 0x10000) (hx : exec c s = onMatrix g s)
    (hg : g s = s.memory e op f base n false fun t => t.setV e f (v t)) : completes c s (vectorOnly e f (v s) s) := by
  refine ⟨_, hx.trans (onMatrix_up _ h.1), ?_⟩
  rw [hg, memory_ok _ h (inLocal_load hb)]
  exact vectorOnly_setV s e f (v s)

/-- What `VLUT` finds for a lane (R253). -/
def vlutLane (f : EngFields) (m : NMap Byte) (e b n : Nat) (a : Lane) : Lane :=
  if elem 20 f.sgn a.toNat < 0 then BitVec.ofNat 20 (Config.unstated 10 (a.toNat + 2 ^ 20 * b))
  else packedWord m (localAt e b) (min (n - 1) (elem 20 f.sgn a.toNat).toNat)

/-- What `VLUTI` interpolates for a lane whose element is `x` (R253). -/
def vlutiEntry (f : EngFields) (m : NMap Byte) (e b n fr x : Nat) : Lane :=
  let idx := min (x / 2 ^ fr) (n - 1)
  let nxt := min (idx + 1) (n - 1)
  let at' := fun i => elem 20 f.sgn (packedWord m (localAt e b) i).toNat
  BitVec.ofNat 20 (fitTo 20 f.sgn f.sat (at' idx + shiftRight 0 fr ((at' nxt - at' idx) * (x % 2 ^ fr : Nat))))

/-- The shift of an interpolation rounds half up; with no fraction there is nothing to interpolate. -/
theorem shiftRight_fraction (fr x : Nat) (v : Int) : shiftRight 0 fr (v * (x % 2 ^ fr : Nat)) =
    (v * (x % 2 ^ fr : Nat) + (if fr = 0 then 0 else 2 ^ (fr - 1))) / 2 ^ fr := by
  rcases Nat.eq_zero_or_pos fr with rfl | h
  · simp [shiftRight_zero, Nat.mod_one]
  · rw [shiftRight_halfUp _ h, if_neg h.ne']

theorem vlut_completes {e : Fin 256} {f : EngFields} {s : State} (h : s.issues e .vlut f)
    (hb : s.address e f.b (fOff f) 16 + packedBytes (2 ^ bf f.imm 19 16) ≤ 0x10000) :
    completes (.vlut e f) s (vectorOnly e f
      ((s.vreg e f.a.toNat).map (vlutLane f s.work e (s.address e f.b (fOff f) 16) (2 ^ bf f.imm 19 16))) s) := by
  refine completes_loadVector (engVlut e f)
    (fun t => (t.vreg e f.a.toNat).map (vlutLane f t.work e (s.address e f.b (fOff f) 16) (2 ^ bf f.imm 19 16))) h hb rfl ?_
  simp only [engVlut, vlutLane.eq_unfold, min_comm]

/-- What `VLUTI` finds for a lane (R253). -/
def vlutiLane (f : EngFields) (m : NMap Byte) (e b n fr : Nat) (a : Lane) : Lane :=
  if elem 20 f.sgn a.toNat < 0 then BitVec.ofNat 20 (Config.unstated 10 (a.toNat + 2 ^ 20 * b))
  else vlutiEntry f m e b n fr (elem 20 f.sgn a.toNat).toNat

theorem vluti_completes {e : Fin 256} {f : EngFields} {s : State} (h : s.issues e .vluti f)
    (hb : s.address e f.b (fOff f) 16 + packedBytes (2 ^ bf f.imm 19 16) ≤ 0x10000) :
    completes (.vluti e f) s (vectorOnly e f ((s.vreg e f.a.toNat).map
      (vlutiLane f s.work e (s.address e f.b (fOff f) 16) (2 ^ bf f.imm 19 16) (bf f.imm 23 20))) s) :=
  completes_loadVector (engVluti e f) (fun t => (t.vreg e f.a.toNat).map
    (vlutiLane f t.work e (s.address e f.b (fOff f) 16) (2 ^ bf f.imm 19 16) (bf f.imm 23 20))) h hb rfl rfl

/-- A store inside the data region of local memory completes when it issues. -/
theorem completes_store {c : Instr} {s : State} {e : Nat} {op : EngOp} {f : EngFields} {base n : Nat} (g : State → State)
    (m : State → NMap Byte) (h : s.issues e op f) (ht : s.codeTop e ≤ base) (hb : base + n ≤ 0x10000) (hx : exec c s = onMatrix g s)
    (hg : g s = s.memory e op f base n true fun t => { t with work := m t }) :
    completes c s fun t => storeOnly e s t ∧ t.work = m s := by
  refine ⟨_, hx.trans (onMatrix_up _ h.1), ?_⟩
  rw [hg, memory_ok _ h (inLocal_store hb ht)]
  exact storeOnly_work s e (m s)

/-! ### Control (R242, R258, R259) -/

theorem engineOnly_of_advance (s : State) (e : Nat) : engineOnly e (s.eng e).onwards s (s.advance e) :=
  ⟨s.eng_advance_self e, fun _ h => s.eng_advance_ne h, rfl⟩

/-- An instruction with no effect but the step to the next. -/
theorem completes_onwards {c : Instr} {s : State} {e : Nat} {op : EngOp} {f : EngFields} {g : State → State} (h : s.issues e op f)
    (hx : exec c s = onMatrix (fun s => s.issue e op f g) s) (hg : g s = s.advance e) : completes c s (engineOnly e (s.eng e).onwards s) := by
  refine ⟨_, hx.trans (onMatrix_up _ h.1), ?_⟩
  rw [issue_ok _ h, hg]
  exact engineOnly_of_advance s e

/-- An instruction that changes its engine alone. -/
theorem completes_onEng {c : Instr} {s : State} {e : Nat} {op : EngOp} {f : EngFields} {g : State → State} (k : EngSt → EngSt)
    (h : s.issues e op f) (hx : exec c s = onMatrix (fun s => s.issue e op f g) s) (hg : g s = s.onEng e k) :
    completes c s (engineOnly e (k (s.eng e)) s) := by
  refine ⟨_, hx.trans (onMatrix_up _ h.1), ?_⟩
  rw [issue_ok _ h, hg]
  exact engineOnly_onEng s e k

/-- Whether a branch is taken (R258). -/
def brTaken (f : EngFields) (a : Word) : Bool :=
  match f.var.toNat with
  | 0 => true
  | 1 => scalVal f.sgn a == scalVal f.sgn (BitVec.ofInt 32 (signed 16 (bf f.imm 31 16)))
  | 2 => scalVal f.sgn a != scalVal f.sgn (BitVec.ofInt 32 (signed 16 (bf f.imm 31 16)))
  | _ => decide (scalVal f.sgn a < scalVal f.sgn (BitVec.ofInt 32 (signed 16 (bf f.imm 31 16))))

theorem scalVal_lt (sgn : Bool) (a b : Word) : decide (scalVal sgn a < scalVal sgn b) = if sgn then a.slt b else a.ult b := by
  cases sgn <;> simp [scalVal, BitVec.slt, BitVec.ult]

theorem signed_bf_high16 (w : Word) : BitVec.ofInt 32 (signed 16 (bf w 31 16)) = (w.extractLsb' 16 16).signExtend 32 := by
  rw [bf, signed_toNat (by decide)]; rfl

theorem brTaken_eq (f : EngFields) (a : Word) : brTaken f a =
    if f.var = 0 then true else if f.var = 1 then a == (f.imm.extractLsb' 16 16).signExtend 32
    else if f.var = 2 then a != (f.imm.extractLsb' 16 16).signExtend 32
    else if f.sgn then a.slt ((f.imm.extractLsb' 16 16).signExtend 32) else a.ult ((f.imm.extractLsb' 16 16).signExtend 32) := by
  refine (match_var f.var _ _ _ _).trans ?_
  simp only [bne, scalVal_eq_iff, scalVal_lt, signed_bf_high16]

theorem fOff_eq (f : EngFields) : fOff f = (f.imm.setWidth 16).toInt := by
  rw [fOff, BitVec.setWidth_eq_extractLsb' (by decide), bf, signed_toNat (by decide)]

/-- The target of a branch (R258). -/
def brTarget (f : EngFields) (x : EngSt) : Nat := encode 16 ((x.pc : Int) + 8 * fOff f)

theorem brTarget_eq (f : EngFields) (x : EngSt) : brTarget f x = (((x.pc : Int) + 8 * (f.imm.setWidth 16).toInt) % 65536).toNat := by
  rw [brTarget, encode, fOff_eq]; rfl

/-- The engine after a branch that is taken. -/
def EngSt.branch (x : EngSt) (pc : Nat) : EngSt :=
  x.moved pc (x.loops.dropWhile fun l => !decide ((pc + 65536 - l.start) % 65536 < (l.stop + 65536 - l.start) % 65536))

theorem engineOnly_goTo (s : State) (e pc : Nat) :
    engineOnly e ((s.eng e).moved (loopNext pc (s.eng e).loops).1 (loopNext pc (s.eng e).loops).2) s (s.goTo e pc) :=
  ⟨s.eng_goTo_self e pc, fun _ h => s.eng_goTo_ne pc h, rfl⟩

/-- Where the body of a `LOOP` starts (R259). -/
def EngSt.loopStart (x : EngSt) : Nat := pcWrap (x.pc + 8)

/-- Where the body of a `LOOP` ends (R259). -/
def EngSt.loopStop (x : EngSt) (f : EngFields) : Nat := pcWrap (x.loopStart + 8 * bf f.imm 9 0)

theorem engLoop_issued {s : State} {e : Nat} {f : EngFields} (h : s.issues e .loop f) (hl : (s.eng e).loops.length < 2) : engLoop e f s =
    if (s.sreg e f.a.toNat).toNat = 0 then s.goTo e ((s.eng e).loopStop f)
    else s.onEng e fun x => x.moved (s.eng e).loopStart
      ({ start := (s.eng e).loopStart, stop := (s.eng e).loopStop f, left := (s.sreg e f.a.toNat).toNat } :: x.loops) := by
  rw [engLoop, issue_ok _ h, if_neg (by omega)]
  rfl

theorem loop_skips {s : State} {e : Fin 256} {f : EngFields} (h : s.issues e .loop f) (hl : (s.eng e).loops.length < 2)
    (h0 : s.sreg e f.a.toNat = 0) : completes (.loop e f) s (engineOnly e ((s.eng e).moved
      (loopNext ((s.eng e).loopStop f) (s.eng e).loops).1 (loopNext ((s.eng e).loopStop f) (s.eng e).loops).2) s) := by
  refine ⟨_, onMatrix_up (engLoop e f) h.1, ?_⟩
  rw [engLoop_issued h hl, if_pos (by rw [h0]; rfl)]
  exact engineOnly_goTo s e _

theorem loop_starts {s : State} {e : Fin 256} {f : EngFields} (h : s.issues e .loop f) (hl : (s.eng e).loops.length < 2)
    (h0 : s.sreg e f.a.toNat ≠ 0) : completes (.loop e f) s (engineOnly e ((s.eng e).moved (s.eng e).loopStart
      ({ start := (s.eng e).loopStart, stop := (s.eng e).loopStop f, left := (s.sreg e f.a.toNat).toNat } :: (s.eng e).loops)) s) := by
  have hn : (s.sreg e f.a.toNat).toNat ≠ 0 := fun hz => h0 (BitVec.eq_of_toNat_eq hz)
  refine ⟨_, onMatrix_up (engLoop e f) h.1, ?_⟩
  rw [engLoop_issued h hl, if_neg hn]
  exact engineOnly_onEng s e fun x => x.moved (s.eng e).loopStart
    ({ start := (s.eng e).loopStart, stop := (s.eng e).loopStop f, left := (s.sreg e f.a.toNat).toNat } :: x.loops)

/-! ### The obligations -/

/-- Settles O20: each load from what an issued load from inside local memory does. -/
theorem loadsReadPackedLocalMemory : Obligations.LoadsReadPackedLocalMemory := by
  intro e f s
  refine ⟨fun h hb => ?_, fun h hb => ?_, fun h hb => ?_, fun h hb => ?_, fun h hb => ?_⟩
  · exact completes_loadVector (engVld e f) (fun t => t.localWords e (s.address e f.a (fOff f) 16) 32) h hb rfl rfl
  · exact completes_loadVector (engVlds e f) (fun t => (upto 32).map fun i =>
      packedWord t.work (localAt e (s.address e f.a (fOff f) 16)) (i * bf (s.sreg e f.b.toNat) 11 0)) h hb rfl rfl
  · refine ⟨_, onMatrix_up (engSld e f) h.1, ?_⟩
    rw [engSld, memory_ok _ h (inLocal_load hb)]
    exact scalarOnly_setS s e f.d.toNat _
  · exact vlut_completes h hb
  · obtain ⟨t, hx, ht⟩ := vluti_completes h hb
    refine ⟨t, hx, ?_⟩
    convert ht using 3
    rename_i a
    simp only [vlutiLane, vlutiEntry, shiftRight_fraction, Nat.shiftRight_eq_div_pow]

/-- Settles O21: each store puts its own bits and leaves the others. -/
theorem storesWriteTheirBytesAlone : Obligations.StoresWriteTheirBytesAlone := by
  intro e f s
  refine ⟨fun h ht hb => ?_, fun h ht hb => ?_⟩
  · obtain ⟨t, hx, hs, hw⟩ := completes_store (c := .vst e f) (engVst e f)
      (fun t => putWords t.work (localAt e (s.address e f.a (fOff f) 16)) ((t.vreg e f.d.toNat).take 32) 0) h ht hb rfl rfl
    refine ⟨t, hx, hs, fun x hx => ?_, fun j w hj hv => ?_⟩
    · rw [hw, putWords_outside _ _ _ (n := 32) (by simp) hx]
    · rw [hw, packedWord_putWords _ _ _ _ w (by rw [List.getElem?_take_of_lt hj, hv])]
  · obtain ⟨t, hx, hs, hw⟩ := completes_store (c := .sst e f) (engSst e f)
      (fun t => writeBytes zeroByte t.work (localAt e (s.address e f.a (fOff f) 4)) (leBytes 4 (t.sreg e f.d.toNat).toNat)) h ht hb rfl rfl
    refine ⟨t, hx, hs, fun x hx => ?_, ?_⟩
    · rw [hw, writeBytes_outside _ _ _ _ _ (by rw [length_leBytes]; exact hx)]
    · have back := readBytes_writeBytes zeroByte s.work (localAt e (s.address e f.a (fOff f) 4)) (leBytes 4 (s.sreg e f.d.toNat).toNat)
      rw [length_leBytes] at back
      rw [hw, back, leNat_leBytes (s.sreg e f.d.toNat).isLt]

/-- Settles O23: `NOP`, `BR` taken and not taken, `LOOP` with no run and with some. -/
theorem controlInstructionsSetTheProgramCounter : Obligations.ControlInstructionsSetTheProgramCounter := by
  intro e f s
  refine ⟨fun h => ?_, fun h => ?_, fun h hl => ?_⟩
  · exact completes_onwards h (g := fun t => t.advance e) rfl rfl
  · dsimp only
    rw [← brTaken_eq, ← brTarget_eq]
    refine ⟨fun hf => completes_onwards h (g := fun t => if brTaken f (t.sreg e f.a.toNat) then
      t.onEng e fun x => x.branch (brTarget f (t.eng e)) else t.advance e) rfl (by simp only [hf]; rfl), fun ht => ?_⟩
    exact completes_onEng (fun x => x.branch (brTarget f (s.eng e))) h (g := fun t => if brTaken f (t.sreg e f.a.toNat) then
      t.onEng e fun x => x.branch (brTarget f (t.eng e)) else t.advance e) rfl (by simp only [ht]; rfl)
  · exact ⟨fun h0 => loop_skips h hl h0, fun h0 => loop_starts h hl h0⟩

end Sys2Proof.Machine
end

section
/-! PROOF. Jobs and crews (chapter 9): the fields of a descriptor, and the parts of a crew's job. -/

namespace Sys2Proof.Machine

/-! ### Descriptors -/

theorem rf_eq (r : Rec) (hi lo : Nat) : rf r hi lo = r.toNat / 2 ^ lo % 2 ^ (hi + 1 - lo) := by
  rw [rf, BitVec.extractLsb'_toNat, Nat.shiftRight_eq_div_pow]

theorem rf_lt (r : Rec) (hi lo : Nat) : rf r hi lo < 2 ^ (hi + 1 - lo) := by
  rw [rf_eq]; exact Nat.mod_lt _ (by positivity)

/-- A field's value cut to the width of the field (R180). -/
def Desc.cut (d : Desc) : Desc :=
  { dkind := d.dkind % 16, space := d.space % 2, addr := d.addr % 2 ^ 24, len := d.len % 2 ^ 11, stream := d.stream % 2 ^ 11,
    line := d.line % 2 ^ 13, stroke := d.stroke % 2 ^ 16, tag := d.tag % 2 ^ 10, dflags := d.dflags % 2 ^ 6, arg := d.arg % 2 ^ 32 }

theorem toNat_toRec (d : Desc) : d.toRec.toNat = d.dkind % 16 * 2 ^ 124 + d.space % 2 * 2 ^ 123 + d.addr % 2 ^ 24 * 2 ^ 99
    + d.len % 2 ^ 11 * 2 ^ 88 + d.stream % 2 ^ 11 * 2 ^ 77 + d.line % 2 ^ 13 * 2 ^ 64 + d.stroke % 2 ^ 16 * 2 ^ 48
    + d.tag % 2 ^ 10 * 2 ^ 38 + d.dflags % 2 ^ 6 * 2 ^ 32 + d.arg % 2 ^ 32 := by
  rw [Desc.toRec, BitVec.toNat_ofNat, Nat.mod_eq_of_lt]
  omega

/-- The fields of a descriptor are read back from its 128 bits. -/
theorem ofRec_toRec (d : Desc) : Desc.ofRec d.toRec = d.cut := by
  simp only [Desc.ofRec, Desc.cut, rf_eq, toNat_toRec, Desc.mk.injEq]
  refine ⟨?_, ?_, ?_, ?_, ?_, ?_, ?_, ?_, ?_, ?_⟩ <;> omega

theorem ofRec_cut (r : Rec) : (Desc.ofRec r).cut = Desc.ofRec r := by
  simp only [Desc.ofRec, Desc.cut, Desc.mk.injEq]
  refine ⟨?_, ?_, ?_, ?_, ?_, ?_, ?_, ?_, ?_, ?_⟩ <;> exact Nat.mod_eq_of_lt (rf_lt r _ _)

/-- Settles O26: the fields that a `DONE` copies are within their widths, so its 128 bits give them back. -/
theorem doneDescriptorsCarryTheJobsFields : Obligations.DoneDescriptorsCarryTheJobsFields := by
  intro job status thr result hs j d
  have hj : j.cut = j := ofRec_cut job
  have hd : d = Desc.cut { j with dkind := 5, len := 0, dflags := 0
                                  arg := status * 2 ^ 28 + thr.toNat * 2 ^ 27 + (if status = 0 then result % 2 ^ 27 else 0) } := ofRec_toRec _
  have ht : thr.toNat < 2 := Bool.toNat_lt thr
  have hr : (if status = 0 then result % 2 ^ 27 else 0) < 2 ^ 27 := by split <;> omega
  rw [hd]
  generalize (if status = 0 then result % 2 ^ 27 else 0) = v at *
  have hf {α : Type} (π : Desc → α) : π j.cut = π j := congrArg π hj
  refine ⟨rfl, hf Desc.space, hf Desc.addr, hf Desc.stream, hf Desc.line, hf Desc.stroke, hf Desc.tag, ?_, ?_, ?_⟩ <;>
    simp only [Desc.cut] <;> omega

/-! ### The parts of a crew's job (R227) -/

/-- Non-empty ranges, each given by its start and its length, one after another from `a` to `b`. -/
def tiles (a b : Nat) : List (Nat × Nat) → Prop
  | [] => a = b
  | p :: l => p.1 = a ∧ 0 < p.2 ∧ tiles (a + p.2) b l

theorem tiles_append {a b n : Nat} {l : List (Nat × Nat)} (h : tiles a b l) (hn : 0 < n) : tiles a (b + n) (l ++ [(b, n)]) := by
  induction l generalizing a with
  | nil => exact ⟨h.symm, hn, by rw [show a = b from h]; rfl⟩
  | cons p l ih => exact ⟨h.1, h.2.1, ih h.2.2⟩

theorem tiles_sum {a b : Nat} {l : List (Nat × Nat)} (h : tiles a b l) : a + (l.map (·.2)).sum = b := by
  induction l generalizing a with
  | nil => exact h
  | cons p l ih => rw [List.map_cons, List.sum_cons, ← Nat.add_assoc]; exact ih h.2.2

theorem tiles_bounds {a b : Nat} {l : List (Nat × Nat)} (h : tiles a b l) : ∀ p ∈ l, 0 < p.2 ∧ a ≤ p.1 ∧ p.1 + p.2 ≤ b := by
  induction l generalizing a with
  | nil => simp
  | cons q l ih =>
    obtain ⟨hq, hpos, hl⟩ := h
    intro p hp
    rcases List.mem_cons.1 hp with rfl | hp
    · have := tiles_sum hl
      exact ⟨hpos, by omega, by omega⟩
    · obtain ⟨h1, h2, h3⟩ := ih hl p hp
      exact ⟨h1, by omega, h3⟩

theorem tiles_next {a b : Nat} {l : List (Nat × Nat)} (h : tiles a b l) (i : Nat) {p q : Nat × Nat} (hp : l[i]? = some p)
    (hq : l[i + 1]? = some q) : p.1 + p.2 = q.1 := by
  induction l generalizing a i with
  | nil => simp at hp
  | cons r l ih =>
    obtain ⟨hr, -, hl⟩ := h
    cases i with
    | zero =>
      cases l with
      | nil => simp at hq
      | cons r2 l =>
        obtain ⟨h2, -⟩ := hl
        simp only [List.getElem?_cons_zero, List.getElem?_cons_succ, Option.some.injEq] at hp hq
        rw [← hp, ← hq, hr, h2]
    | succ i => exact ih hl i hp hq

/-- Where the share of the members before the weight `w` ends: the job's lines cut in proportion to the weights (R227). -/
def shareEnd (first lines wsum w : Nat) : Nat := first + lines * w / wsum

/-- One member's share follows those before it, and is left out when it is empty (R227). -/
def addShare (first lines wsum : Nat) (p : Nat × List (Bool × Nat × Nat × Nat)) (m : Bool × Nat × Nat) :
    Nat × List (Bool × Nat × Nat × Nat) :=
  (p.1 + m.2.2, if shareEnd first lines wsum p.1 < shareEnd first lines wsum (p.1 + m.2.2) then
    p.2 ++ [(m.1, m.2.1, shareEnd first lines wsum p.1, shareEnd first lines wsum (p.1 + m.2.2) - shareEnd first lines wsum p.1)] else p.2)

theorem shareEnd_mono (first lines wsum : Nat) {v w : Nat} (h : v ≤ w) : shareEnd first lines wsum v ≤ shareEnd first lines wsum w :=
  Nat.add_le_add_left (Nat.div_le_div_right (Nat.mul_le_mul_left _ h)) _

theorem tiles_addShare (first lines wsum : Nat) (ms : List (Bool × Nat × Nat)) (p : Nat × List (Bool × Nat × Nat × Nat))
    (h : tiles first (shareEnd first lines wsum p.1) (p.2.map (·.2.2))) :
    tiles first (shareEnd first lines wsum (p.1 + (ms.map (·.2.2)).sum)) ((ms.foldl (addShare first lines wsum) p).2.map (·.2.2)) := by
  induction ms generalizing p with
  | nil => exact h
  | cons m ms ih =>
    rw [List.foldl_cons, List.map_cons, List.sum_cons, ← Nat.add_assoc]
    refine ih (addShare first lines wsum p m) ?_
    have hle := shareEnd_mono first lines wsum (Nat.le_add_right p.1 m.2.2)
    simp only [addShare]
    split
    · next hlt =>
      have := tiles_append h (Nat.sub_pos_of_lt hlt)
      rw [Nat.add_sub_cancel' hle] at this
      rw [List.map_append]
      exact this
    · next hge => rwa [Nat.le_antisymm hle (Nat.le_of_not_lt hge)] at h

theorem foldl_weights (ms : List (Bool × Nat × Nat)) (n : Nat) : ms.foldl (fun a m => a + m.2.2) n = n + (ms.map (·.2.2)).sum := by
  induction ms generalizing n with
  | nil => rfl
  | cons m ms ih => rw [List.foldl_cons, ih, List.map_cons, List.sum_cons, Nat.add_assoc]

/-- The parts of a job with lines lie one after another over its whole range. -/
theorem tiles_divide (s : State) (c first : Nat) {lines : Nat} (hl : 0 < lines)
    (hm : ∃ m < s.f (Reg.crwCfg c) 28 24, 0 < (s.member c m).2.2) :
    tiles first (first + lines) ((s.divide c first lines).map (·.2.2)) := by
  obtain ⟨m, hlt, hpos⟩ := hm
  have hsum : 0 < (((upto (s.f (Reg.crwCfg c) 28 24)).map (s.member c)).map (·.2.2)).sum := by
    refine Nat.lt_of_lt_of_le hpos (List.single_le_sum (fun _ _ => Nat.zero_le _) _ ?_)
    exact List.mem_map_of_mem (List.mem_map_of_mem (List.mem_range.2 hlt))
  have h := tiles_addShare first lines (((upto (s.f (Reg.crwCfg c) 28 24)).map (s.member c)).map (·.2.2)).sum
    ((upto (s.f (Reg.crwCfg c) 28 24)).map (s.member c)) (0, []) (by simp [shareEnd, tiles])
  rw [Nat.zero_add, shareEnd, Nat.mul_div_cancel _ hsum] at h
  simp only [State.divide, if_neg (Nat.ne_of_gt hl), foldl_weights, Nat.zero_add, Nat.max_eq_right hsum]
  exact h

/-- Settles O27: the shares tile the job's range, since each ends where the next begins and the weights add up to the divisor. -/
theorem crewPartsCoverTheJob : Obligations.CrewPartsCoverTheJob := by
  intro s c first lines hl hm parts
  have h : tiles first (first + lines) parts := tiles_divide s c first hl hm
  exact ⟨tiles_bounds h, Nat.add_left_cancel (tiles_sum h), fun i p q => tiles_next h i⟩

end Sys2Proof.Machine
end

section
/-! PROOF. States a command leaves, concrete states to refute on, and what engines do between jobs (chapter 9). -/

namespace Sys2Proof.Machine

/-! ### What a command leaves -/

/-- The state a command leaves; every command leaves one (O4). -/
def left (c : Instr) (s : State) : State := match exec c s with | .next t => t | _ => s

theorem completes_left {c : Instr} {s : State} {P : State → Prop} (h : completes c s P) : P (left c s) := by
  obtain ⟨t, ht, hp⟩ := h
  rwa [left, ht]

theorem completes_of_exec {c : Instr} {s t : State} {P : State → Prop} (h : exec c s = .next t) (hp : P t) : completes c s P := ⟨t, h, hp⟩

theorem onCore_fabric (g : State → State) {s : State} (h : s.fabricUp) : onCore g s = .next (g s) := onCore_up g h.1 h.2

/-- The device with its fabric running, `SYN_CORE` locked, and these registers written. -/
def running (l : List (Nat × Word)) : State :=
  l.foldl (fun s x => s.wr x.1 x.2)
    (State.wr { State.reset with pwr := { PwrSt.init with ld := .running, phase := .running } } (Reg.synStat 0) 2)

/-! ### Jobs of engines (R218, R220) -/

/-- Engine 0 is idle with kernel 3 at an entry past its 16-bit program counter, and a job for it waits in queue 5. -/
def farKernel : State :=
  ((running [(Reg.engCfg 0, 0x80050010), (Reg.synStat 1, 2)]).onEng 0 fun x => { x with kernels := [(3, 0x10000)] }).onQueue 5 fun q =>
    { q with held := [Desc.toRec { (Desc.ofRec 0) with dkind := 4, tag := 2, arg := 3 * 128 }] }

/-- Refutes O28: an engine's table of kernels may list an entry above 65,535, which no chart places; the program counter, of 16 bits
(R242), then starts at the entry reduced modulo 2^16. -/
theorem not_enginesTakeJobsWithClearRegisters : ¬ Obligations.EnginesTakeJobsWithClearRegisters := by
  intro h
  have hup : farKernel.fabricUp := by constructor <;> decide +kernel
  obtain ⟨-, htakes⟩ := h 0 farKernel hup
  have hleft := completes_left (htakes (Desc.toRec { (Desc.ofRec 0) with dkind := 4, tag := 2, arg := 3 * 128 }) [] [] 0x10000
    (by decide +kernel) (by decide +kernel) (by decide +kernel) (by decide +kernel) (by decide +kernel) (by simp) (by decide +kernel)
    (by decide +kernel))
  obtain ⟨-, hpc, -⟩ := hleft
  exact absurd hpc (by decide +kernel)

/-- Host and DMA writes held back, performed in their order (R218). -/
def performHeld (m : NMap Byte) (l : List (Nat × List Byte)) : NMap Byte := l.foldl (fun m w => writeBytes zeroByte m w.1 w.2) m

theorem engHeldWrite_idle {e : Nat} {s : State} (h : s.holdsJob e = false) :
    engHeldWrite e s = State.onEng { s with work := performHeld s.work (s.eng e).held } e fun x => { x with held := [] } := by
  simp only [engHeldWrite, h]; rfl

theorem nget_performHeld_outside (l : List (Nat × List Byte)) (m : NMap Byte) (x : Nat)
    (h : ∀ w ∈ l, x < w.1 ∨ w.1 + w.2.length ≤ x) : nget zeroByte (performHeld m l) x = nget zeroByte m x := by
  induction l generalizing m with
  | nil => rfl
  | cons w l ih =>
    have := ih (writeBytes zeroByte m w.1 w.2) fun v hv => h v (List.mem_cons_of_mem _ hv)
    exact this.trans (writeBytes_outside _ _ _ _ _ (h w List.mem_cons_self))

theorem performHeld_last (l : List (Nat × List Byte)) (m : NMap Byte) {w : Nat × List Byte} (h : l.getLast? = some w) :
    readBytes zeroByte (performHeld m l) w.1 w.2.length = w.2 := by
  obtain ⟨l', rfl⟩ := List.getLast?_eq_some_iff.1 h
  rw [performHeld, List.foldl_append]
  exact readBytes_writeBytes _ _ _ _

/-- Settles O29: the writes held back are performed in their order, the last of them last. -/
theorem heldEngineWritesLandBetweenJobs : Obligations.HeldEngineWritesLandBetweenJobs := by
  intro e s hup
  refine ⟨fun hj hc => ?_, fun h => ?_⟩
  · refine (onCore_fabric _ hup).trans ?_
    simp [engHeldWrite, State.holdsJob, hj, hc]
  · have hidle : s.holdsJob e = false := by
      rcases h with h | h
      · simp [State.holdsJob, h]
      · obtain ⟨c, hc⟩ := Option.isSome_iff_exists.1 h
        simp [State.holdsJob, hc]
    refine completes_of_exec ((onCore_fabric _ hup).trans (congrArg _ (engHeldWrite_idle hidle))) ⟨?_, ?_, ?_⟩
    · exact engineOnly_onEng { s with work := performHeld s.work (s.eng e).held } e fun x => { x with held := [] }
    · exact fun x hx => nget_performHeld_outside _ _ x hx
    · exact fun w hw => performHeld_last _ _ hw

end Sys2Proof.Machine
end

section
/-! PROOF. What an effect leaves as it was, said of a part of the state and a set of registers; queues (R179 to R184). -/

namespace Sys2Proof.Machine

/-! ### What an effect keeps -/

/-- From `s` to `t` the part `π` of the state is the same, and every register outside `R`. -/
def keeps {β : Type} (π : State → β) (R : Nat → Prop) (s t : State) : Prop := π t = π s ∧ ∀ a, ¬ R a → t.rd a = s.rd a

/-- The part reads neither the registers nor the event writer's state. -/
def quiet {β : Type} (π : State → β) : Prop := ∀ (s : State) r e, π { s with regs := r, evt := e } = π s

section
variable {β : Type} {π : State → β} {R : Nat → Prop} {s t u : State}

theorem keeps.refl (s : State) : keeps π R s s := ⟨rfl, fun _ _ => rfl⟩

theorem keeps.trans (h : keeps π R s t) (h2 : keeps π R t u) : keeps π R s u :=
  ⟨h2.1.trans h.1, fun a ha => (h2.2 a ha).trans (h.2 a ha)⟩

theorem keeps.rd (h : keeps π R s t) {a : Nat} (ha : ¬ R a) : t.rd a = s.rd a := h.2 a ha

theorem keeps.f (h : keeps π R s t) {a : Nat} (ha : ¬ R a) (hi lo : Nat) : t.f a hi lo = s.f a hi lo := by
  rw [State.f, State.f, h.2 a ha]

theorem keeps.b (h : keeps π R s t) {a : Nat} (ha : ¬ R a) (i : Nat) : t.b a i = s.b a i := by
  rw [State.b, State.b, h.2 a ha]

/-- A part of a kept part is kept. -/
theorem keeps.part {γ : Type} (h : keeps π R s t) (q : β → γ) : keeps (fun x => q (π x)) R s t := ⟨congrArg q h.1, h.2⟩

theorem keeps.mono {R' : Nat → Prop} (h : keeps π R s t) (hR : ∀ a, R a → R' a) : keeps π R' s t :=
  ⟨h.1, fun a ha => h.2 a fun h' => ha (hR a h')⟩

theorem keeps_wr (hq : quiet π) (s : State) {a : Nat} (v : Word) (ha : R a) : keeps π R s (s.wr a v) :=
  ⟨hq s _ s.evt, fun _ hb => s.rd_wr_ne v fun e => hb (e ▸ ha)⟩

theorem keeps_of_regs (hp : π t = π s) (hr : t.regs = s.regs) : keeps π R s t := ⟨hp, fun a _ => State.rd_congr hr a⟩

theorem keeps_events (hq : quiet π) (hR : ∀ a, dropCounter a → R a) (h : eventsOnly s t) : keeps π R s t :=
  ⟨by rw [h.1]; exact hq s _ _, fun a ha => h.2 a fun hd => ha (hR a hd)⟩

theorem keeps_raise (hq : quiet π) (hR : ∀ a, dropCounter a → R a) (s : State) (e : Ev) (inst data : Nat) :
    keeps π R s (s.raise e inst data) := keeps_events hq hR (s.raise_only e inst data)

theorem keeps_onlyIf (c : Bool) (g : State → State) (h : keeps π R s (g s)) : keeps π R s (onlyIf c g s) := by
  cases c
  · exact keeps.refl s
  · exact h

theorem keeps_countErr (hq : quiet π) (hR : ∀ a, dropCounter a → R a) (s : State) {a : Nat} (n k : Nat) (ha : R a) :
    keeps π R s (s.countErr a n k) := by
  unfold State.countErr
  exact (keeps_wr hq s _ ha).trans (keeps_onlyIf _ _ (keeps_raise hq hR _ _ _ _))

theorem keeps_forAll {α : Type} (l : List α) (g : α → State → State) (h : ∀ a ∈ l, ∀ t, keeps π R t (g a t)) (s : State) :
    keeps π R s (forAll l g s) :=
  forAll_keeps (fun t => keeps π R s t) g l s (fun a ha t ht => ht.trans (h a ha t)) (keeps.refl s)

end

theorem kept_sameMemory {s t : State} (h : t.kept = s.kept) : sameMemory s t := by
  simp only [State.kept, Prod.mk.injEq] at h
  obtain ⟨⟨h1, h2, h3, h4, h5, -⟩, -, -⟩ := h
  exact ⟨h1, h2, h3, h4, h5⟩

/-! ### Queues -/

theorem State.queue_onQueue_self (s : State) (q : Nat) (g : QueSt → QueSt) : (s.onQueue q g).queue q = g (s.queue q) := by
  simp only [State.queue, State.onQueue, nget_nset_self]

theorem State.queue_onQueue_ne (s : State) {k q : Nat} (g : QueSt → QueSt) (h : k ≠ q) : (s.onQueue q g).queue k = s.queue k := by
  simp only [State.queue, State.onQueue, nget_nset_ne _ _ _ h]

theorem State.queue_congr {s t : State} (h : t.que = s.que) (q : Nat) : t.queue q = s.queue q := by rw [State.queue, State.queue, h]

/-- The registers that a push into queue `q` writes. -/
def pushReg (q a : Nat) : Prop := a = Reg.quePushes q ∨ a = Reg.queHwm q ∨ dropCounter a

/-- A descriptor enters a queue: it is counted, and the high-water mark kept. -/
def State.entered (s : State) (q : Nat) (d : Rec) : State :=
  let t := (s.onQueue q fun x => { x with held := x.held ++ [d] }).countPerf (Reg.quePushes q) 31 1
  t.setF (Reg.queHwm q) 17 0 (max (t.f (Reg.queHwm q) 17 0) (t.queue q).held.length)

/-- A push asserts back-pressure, with its event, or it does not. -/
theorem State.append_cases (s : State) (q : Nat) (d : Rec) : s.append q d = s.entered q d ∨
    s.append q d = ((s.entered q d).onQueue q fun x => { x with xoff := true }).raise .queueXoff q q := by
  unfold State.append
  dsimp only
  split
  · exact .inr rfl
  · exact .inl rfl

theorem State.entered_queue_self (s : State) (q : Nat) (d : Rec) :
    (s.entered q d).queue q = { s.queue q with held := (s.queue q).held ++ [d] } :=
  (State.queue_congr (s := s.onQueue q fun x => { x with held := x.held ++ [d] }) rfl q).trans (s.queue_onQueue_self q _)

theorem State.entered_queue_ne (s : State) {k q : Nat} (d : Rec) (hk : k ≠ q) : (s.entered q d).queue k = s.queue k :=
  (State.queue_congr (s := s.onQueue q fun x => { x with held := x.held ++ [d] }) rfl k).trans (s.queue_onQueue_ne _ hk)

/-- A push leaves everything but the queues, its queue's counters and the event writer's state. -/
theorem keeps_append {β : Type} {π : State → β} (hq : quiet π) (hque : ∀ (s : State) x, π { s with que := x } = π s) (s : State) (q : Nat)
    (d : Rec) : keeps π (pushReg q) s (s.append q d) := by
  have hin : keeps π (pushReg q) s (s.entered q d) :=
    (keeps_of_regs (t := s.onQueue q fun x => { x with held := x.held ++ [d] }) (hque s _) rfl).trans
      ((keeps_wr hq _ _ (.inl rfl)).trans (keeps_wr hq _ _ (.inr (.inl rfl))))
  obtain h | h := s.append_cases q d
  · rw [h]; exact hin
  · rw [h]
    exact (hin.trans (keeps_of_regs (t := State.onQueue _ q fun x => { x with xoff := true }) (hque _ _) rfl)).trans
      (keeps_raise hq (fun _ ha => .inr (.inr ha)) _ _ _ _)

/-- A push changes its queue's descriptors, and its mark of back-pressure. -/
theorem State.append_queue_self (s : State) (q : Nat) (d : Rec) :
    ∃ b, (s.append q d).queue q = { s.queue q with held := (s.queue q).held ++ [d], xoff := b } := by
  obtain h | h := s.append_cases q d <;> rw [h]
  · exact ⟨_, s.entered_queue_self q d⟩
  · rw [State.queue_congr (State.raise_que _ _ _ _), State.queue_onQueue_self, s.entered_queue_self]
    exact ⟨_, rfl⟩

theorem State.append_held (s : State) (q : Nat) (d : Rec) : ((s.append q d).queue q).held = (s.queue q).held ++ [d] := by
  obtain ⟨b, h⟩ := s.append_queue_self q d
  rw [h]

theorem State.append_waits (s : State) (q : Nat) (d : Rec) : ((s.append q d).queue q).waits = (s.queue q).waits := by
  obtain ⟨b, h⟩ := s.append_queue_self q d
  rw [h]

theorem State.append_words (s : State) (q : Nat) (d : Rec) : ((s.append q d).queue q).words = (s.queue q).words := by
  obtain ⟨b, h⟩ := s.append_queue_self q d
  rw [h]

theorem State.append_queue_ne (s : State) {k q : Nat} (d : Rec) (hk : k ≠ q) : (s.append q d).queue k = s.queue k := by
  obtain h | h := s.append_cases q d <;> rw [h]
  · exact s.entered_queue_ne d hk
  · rw [State.queue_congr (State.raise_que _ _ _ _), State.queue_onQueue_ne _ _ hk, s.entered_queue_ne d hk]

theorem State.append_jik (s : State) (q : Nat) (d : Rec) : (s.append q d).jik = s.jik :=
  (keeps_append (π := State.jik) (fun _ _ _ => rfl) (fun _ _ => rfl) s q d).1

theorem State.append_rd (s : State) (q : Nat) (d : Rec) {a : Nat} (ha : ¬ pushReg q a) : (s.append q d).rd a = s.rd a :=
  (keeps_append (π := State.jik) (fun _ _ _ => rfl) (fun _ _ => rfl) s q d).2 a ha

theorem queueOpen_congr {s t : State} {q : Nat} (hq : t.queue q = s.queue q) (hs : t.rd (Reg.queSize q) = s.rd (Reg.queSize q)) :
    t.queueOpen q = s.queueOpen q := by
  rw [State.queueOpen, State.queueOpen, State.queueClosed, State.queueClosed, State.queueFull, State.queueFull, State.f, State.f, hq, hs]

/-- An open queue is not full. -/
theorem State.queueOpen_iff (s : State) (q : Nat) : s.queueOpen q = true ↔ (s.queue q).waits = [] ∧ s.queueClosed q = false := by
  simp only [State.queueOpen, Bool.and_eq_true, List.isEmpty_iff, Bool.not_eq_true']

theorem State.not_full_of_open {s : State} {q : Nat} (h : s.queueOpen q = true) : s.queueFull q = false := by
  have := ((s.queueOpen_iff q).1 h).2
  simp only [State.queueClosed, Bool.or_eq_false_iff] at this
  exact this.2

theorem State.pushOr_open {s : State} {q : Nat} (r : Rec) (o : PushFrom) (hc : s.rd (Reg.queCfg q) ≠ 0) (ho : s.queueOpen q = true) :
    s.pushOr q r o = s.append q r := by
  rw [State.pushOr, if_neg hc, if_pos ho]

theorem State.pushFree_open {s : State} {q : Nat} (r : Rec) (hc : s.rd (Reg.queCfg q) ≠ 0) (ho : s.queueOpen q = true) :
    s.pushFree q r = s.append q r := by
  rw [State.pushFree, if_neg hc, State.not_full_of_open ho]; rfl

theorem State.pushDone_open {s : State} {q : Nat} (r : Rec) (hc : s.rd (Reg.queCfg q) ≠ 0) (ho : s.queueOpen q = true) :
    s.pushDone q r = s.append q r := by
  unfold State.pushDone
  split
  · exact State.pushOr_open r _ hc ho
  · exact State.pushFree_open r hc ho

end Sys2Proof.Machine
end

section
/-! PROOF. The end of an engine's job: its registers, its tag and its `DONE` (R222 to R225, R240). -/

namespace Sys2Proof.Machine

/-! ### What the end of a job writes -/

/-- The registers by which a slip shows its frames (R213). -/
def slipReg (a : Nat) : Prop := ∃ k, a = Reg.fstSlipStat k ∨ a = Reg.fstSlipCapStroke k ∨ a = Reg.fstSlipCapOfs k

/-- The registers that counting and reporting an ended job can write. -/
def overReg (a : Nat) : Prop := slipReg a ∨ dropCounter a ∨ a = Reg.engOverBudgetCnt ∨ a = Reg.engFaultCnt

/-- The registers that freeing engine `e` writes. -/
def busyReg (e a : Nat) : Prop := a = Reg.engBusyLo e ∨ a = Reg.engBusyHi e ∨ a = Reg.engStat e

/-- Queues, engines, crews and tags in flight. -/
def State.tasks (s : State) : NMap QueSt × NMap EngSt × NMap CrwSt × NMap Flight := (s.que, s.jik.engs, s.jik.crews, s.jik.flight)

theorem quiet_tasks : quiet State.tasks := fun _ _ _ => rfl

section
variable {R : Nat → Prop} {s t : State} (h : keeps State.tasks R s t)
include h

theorem keeps.queue (q : Nat) : t.queue q = s.queue q := State.queue_congr (Prod.mk.inj h.1).1 q

theorem keeps.engs : t.jik.engs = s.jik.engs := (Prod.mk.inj (Prod.mk.inj h.1).2).1

theorem keeps.crews : t.jik.crews = s.jik.crews := (Prod.mk.inj (Prod.mk.inj (Prod.mk.inj h.1).2).2).1

theorem keeps.flight : t.jik.flight = s.jik.flight := (Prod.mk.inj (Prod.mk.inj (Prod.mk.inj h.1).2).2).2

theorem keeps.eng (k : Nat) : t.eng k = s.eng k := by rw [State.eng, State.eng, h.engs]

end

theorem keeps_showSlip {R : Nat → Prop} (hR : ∀ a, slipReg a → R a) (s : State) (k : Nat) : keeps State.tasks R s (s.showSlip k) := by
  have hstat := hR _ ⟨k, .inl rfl⟩
  unfold State.showSlip
  dsimp only
  split
  · exact keeps_wr quiet_tasks _ _ hstat
  · exact (keeps_wr quiet_tasks _ _ hstat).trans ((keeps_wr quiet_tasks _ _ (hR _ ⟨k, .inr (.inl rfl)⟩)).trans
      (keeps_wr quiet_tasks _ _ (hR _ ⟨k, .inr (.inr rfl)⟩)))

theorem keeps_onSlip {R : Nat → Prop} (s : State) (k : Nat) (g : SlipSt → SlipSt) : keeps State.tasks R s (s.onSlip k g) :=
  ⟨rfl, fun _ _ => rfl⟩

theorem keeps_onSlot {R : Nat → Prop} (s : State) (k j : Nat) (g : SlotSt → SlotSt) : keeps State.tasks R s (s.onSlot k j g) :=
  ⟨rfl, fun _ _ => rfl⟩

theorem keeps_completeFrame {R : Nat → Prop} (hR : ∀ a, slipReg a → R a) (s : State) (k j : Nat) :
    keeps State.tasks R s (s.completeFrame k j) := by
  unfold State.completeFrame
  exact ((keeps_onSlot s k j _).trans (keeps_onSlip _ k _)).trans (keeps_showSlip hR _ k)

theorem keeps_unpin {R : Nat → Prop} (hR : ∀ a, slipReg a → R a) (s : State) (k r : Nat) : keeps State.tasks R s (s.unpin k r) := by
  unfold State.unpin
  exact (keeps_forAll _ _ (fun j _ t => keeps_onSlot t k j _) s).trans (keeps_showSlip hR _ k)

theorem keeps_releaseCrew {R : Nat → Prop} (hR : ∀ a, slipReg a → R a) (s : State) (c : Nat) : keeps State.tasks R s (s.releaseCrew c) := by
  unfold State.releaseCrew
  refine keeps_forAll _ _ (fun e _ t => keeps_forAll _ _ (fun k _ u => ?_) t) s
  split
  · exact keeps_unpin hR u k _
  · exact keeps.refl u

theorem overReg_slip {a : Nat} (h : slipReg a) : overReg a := .inl h
theorem overReg_drop {a : Nat} (h : dropCounter a) : overReg a := .inr (.inl h)
theorem overReg_budget : overReg Reg.engOverBudgetCnt := .inr (.inr (.inl rfl))
theorem overReg_fault : overReg Reg.engFaultCnt := .inr (.inr (.inr rfl))

/-- An ended job's output frame is COMPLETE, or void (R200, R234). -/
def State.outputOver (s : State) (out : Option (Nat × Nat)) (status : Nat) : State :=
  match out with
  | some (k, j) => if status = 0 then s.completeFrame k j else s.onJik fun y => { y with void := y.void ++ [(k, j)] }
  | none => s

theorem keeps_outputOver (s : State) (out : Option (Nat × Nat)) (status : Nat) : keeps State.tasks overReg s (s.outputOver out status) := by
  unfold State.outputOver
  split
  · split
    · exact keeps_completeFrame (fun _ => overReg_slip) _ _ _
    · exact ⟨rfl, fun _ _ => rfl⟩
  · exact keeps.refl _

/-- A run of a job past its budget (R240). -/
def State.overBudget (s : State) (x : Flight) : Bool :=
  match x.record with
  | some r => x.ran && decide (s.clock.boundary + 20 * ((s.recWord r 2).toNat + (s.recWord r 3).toNat) < s.clock.time)
  | none => false

theorem State.jobOver_eq (s : State) (x : Flight) (status : Nat) : s.jobOver x status =
    onlyIf x.crew (fun t => t.releaseCrew x.target) (onlyIf (status == 0) (fun t => t.onJik fun y => { y with okNow := y.okNow + 1 })
      (onlyIf (status == 2) (fun t => t.countErr Reg.engFaultCnt 24 1)
        ((onlyIf (s.overBudget x) (fun t => t.countPerf Reg.engOverBudgetCnt 31 1) s).outputOver x.out status))) := rfl

/-- The end of a job leaves queues, engines, crews and tags to be freed after it. -/
theorem keeps_jobOver (s : State) (x : Flight) (status : Nat) : keeps State.tasks overReg s (s.jobOver x status) := by
  rw [State.jobOver_eq]
  have hbudget : keeps State.tasks overReg s (onlyIf (s.overBudget x) (fun t => t.countPerf Reg.engOverBudgetCnt 31 1) s) :=
    keeps_onlyIf _ _ (keeps_wr quiet_tasks s _ overReg_budget)
  refine ((hbudget.trans (keeps_outputOver _ x.out status)).trans ?_).trans (keeps_onlyIf _ _ (keeps_releaseCrew (fun _ => overReg_slip) _ _))
  refine (keeps_onlyIf _ _ (keeps_countErr quiet_tasks (fun _ => overReg_drop) _ _ _ overReg_fault)).trans (keeps_onlyIf _ _ ?_)
  exact ⟨rfl, fun _ _ => rfl⟩

/-! ### An engine that holds its job no more -/

/-- The cycles since the last count in the two registers of the count (R240). -/
def State.busyCounted (s : State) (e : Nat) : State :=
  let tot := (s.rd (Reg.engBusyLo e)).toNat + s.engCycles (s.now - (s.eng e).takenAt)
  onlyIf (tot / 2 ^ 32 != 0) (fun t => t.countPerf (Reg.engBusyHi e) 31 (tot / 2 ^ 32)) (s.wr (Reg.engBusyLo e) (BitVec.ofNat 32 tot))

theorem State.countBusy_eq (s : State) (e : Nat) : s.countBusy e =
    if s.holdsJob e then (s.busyCounted e).onEng e fun x => { x with takenAt := (s.busyCounted e).now } else s := rfl

theorem keeps_busyCounted (s : State) (e : Nat) : keeps State.tasks (busyReg e) s (s.busyCounted e) := by
  have hhi : busyReg e (Reg.engBusyHi e) := .inr (.inl rfl)
  unfold State.busyCounted
  exact (keeps_wr quiet_tasks _ _ (.inl rfl)).trans (keeps_onlyIf _ _ (keeps_wr quiet_tasks _ _ hhi))

theorem busyCounted_eng (s : State) (e k : Nat) : (s.busyCounted e).eng k = s.eng k := (keeps_busyCounted s e).eng k

/-- Counting busy cycles changes the engine's time of the last count, and the two registers of the count. -/
theorem countBusy_keeps (s : State) (e : Nat) : keeps (fun s => (s.que, s.jik.crews, s.jik.flight)) (busyReg e) s (s.countBusy e) ∧
    (∃ n, (s.countBusy e).eng e = { s.eng e with takenAt := n }) ∧ ∀ k, k ≠ e → (s.countBusy e).eng k = s.eng k := by
  rw [State.countBusy_eq]
  split
  · refine ⟨(keeps_busyCounted s e).part fun m => (m.1, m.2.2), ⟨(s.busyCounted e).now, ?_⟩, fun k hk => ?_⟩
    · rw [State.eng_onEng_self, busyCounted_eng]
    · rw [State.eng_onEng_ne _ _ hk, busyCounted_eng]
  · exact ⟨keeps.refl s, ⟨(s.eng e).takenAt, rfl⟩, fun _ _ => rfl⟩

theorem freeEngine_keeps (s : State) (e : Nat) :
    keeps (fun s => (s.que, s.jik.crews, s.jik.flight)) (busyReg e) s (s.freeEngine e) := by
  refine (countBusy_keeps s e).1.trans ?_
  have hstat : keeps (fun s => (s.que, s.jik.crews, s.jik.flight)) (busyReg e) (s.countBusy e) ((s.countBusy e).wr (Reg.engStat e) 0) :=
    keeps_wr (fun _ _ _ => rfl) _ 0 (.inr (.inr rfl))
  exact hstat.trans ⟨rfl, fun _ _ => rfl⟩

theorem freeEngine_eng_self (s : State) (e : Nat) :
    (s.freeEngine e).eng e = { EngSt.init with kernels := (s.eng e).kernels, held := (s.eng e).held } := by
  obtain ⟨-, ⟨n, hn⟩, -⟩ := countBusy_keeps s e
  have h : ((s.countBusy e).wr (Reg.engStat e) 0).eng e = (s.countBusy e).eng e := rfl
  rw [State.freeEngine, State.eng_onEng_self, h, hn]

theorem freeEngine_eng_ne (s : State) {k e : Nat} (hk : k ≠ e) : (s.freeEngine e).eng k = s.eng k := by
  obtain ⟨-, -, h⟩ := countBusy_keeps s e
  exact (State.eng_onEng_ne _ _ hk).trans (h k hk)

theorem freeEngine_stat (s : State) (e : Nat) : (s.freeEngine e).rd (Reg.engStat e) = 0 :=
  (State.rd_congr rfl _).trans ((s.countBusy e).rd_wr_self _ _)

/-! ### The `DONE` of a job -/

theorem bf_queue_lt (w : Word) (lo : Nat) : bf w (lo + 11) lo < 4096 := by
  have := bf_lt w (lo + 11) lo
  rwa [show lo + 11 + 1 - lo = 12 by omega] at this

/-- The queue of a job's `DONE` is one of the 4,096. -/
theorem State.doneQ_lt (s : State) (x : Flight) : s.doneQ x < 4096 := by
  unfold State.doneQ State.hostDoneQ
  split
  · exact bf_queue_lt _ 0
  · split <;> exact bf_queue_lt _ 0

/-- The queue of a job's `DONE` is read in the registers of its target, or in its record. -/
theorem State.doneQ_congr {s t : State} (x : Flight) (he : ∀ n, t.rd (Reg.engQcfg n) = s.rd (Reg.engQcfg n))
    (hc : ∀ n, t.rd (Reg.crwHostq n) = s.rd (Reg.crwHostq n)) (hm : ∀ r, t.rd (Reg.manifestWord r 5) = s.rd (Reg.manifestWord r 5)) :
    t.doneQ x = s.doneQ x := by
  unfold State.doneQ State.hostDoneQ State.recWord State.f
  simp only [he, hc, hm]

theorem not_busyReg {e a : Nat} (h : a % 0x1000 ≠ 0x8 ∧ a % 0x1000 ≠ 0x10 ∧ a % 0x1000 ≠ 0x14) : ¬ busyReg e a := by
  rintro (rfl | rfl | rfl) <;> simp only [Reg.engBusyLo, Reg.engBusyHi, Reg.engStat] at h <;> omega

theorem freeEngine_doneQ (s : State) {e : Nat} (he : e < 256) (x : Flight) : (s.freeEngine e).doneQ x = s.doneQ x := by
  have h := freeEngine_keeps s e
  refine State.doneQ_congr x (fun n => h.rd (not_busyReg ?_)) (fun n => h.rd (not_busyReg ?_)) (fun r => h.rd ?_)
  · simp only [Reg.engQcfg]; omega
  · simp only [Reg.crwHostq]; omega
  · rintro (h | h | h) <;> simp only [Reg.manifestWord, Reg.engBusyLo, Reg.engBusyHi, Reg.engStat] at h <;> omega

/-- Engine `e` can end its job: it holds `j`, not cancelled, whose tag is `x`'s and not a part's, and the queue of its `DONE` is open
(R182, R223, R227). -/
def State.mayEnd (s : State) (e : Nat) (j : Rec) (x : Flight) : Prop :=
  (s.eng e).job = some j ∧ (s.eng e).cut = none ∧ s.parentOf false e (Desc.ofRec j).tag = none ∧
    nfind (Desc.ofRec j).tag s.jik.flight = some x ∧ s.rd (Reg.queCfg (s.doneQ x)) ≠ 0 ∧ s.queueOpen (s.doneQ x) = true

/-- The state in which the `DONE` of an engine's job is pushed: the engine and the tag are free. -/
def State.ended (s : State) (e tag : Nat) (x : Flight) (status : Nat) : State := ((s.freeEngine e).jobOver x status).freeTag tag

theorem ended_rd (s : State) (e tag : Nat) (x : Flight) (status : Nat) {a : Nat} (hb : ¬ busyReg e a) (ho : ¬ overReg a) :
    (s.ended e tag x status).rd a = s.rd a :=
  ((keeps_jobOver (s.freeEngine e) x status).rd ho).trans ((freeEngine_keeps s e).rd hb)

theorem ended_queue (s : State) (e tag : Nat) (x : Flight) (status q : Nat) : (s.ended e tag x status).queue q = s.queue q :=
  ((keeps_jobOver (s.freeEngine e) x status).queue q).trans (State.queue_congr (Prod.mk.inj (freeEngine_keeps s e).1).1 q)

theorem ended_eng (s : State) (e tag : Nat) (x : Flight) (status k : Nat) :
    (s.ended e tag x status).eng k = (s.freeEngine e).eng k := (keeps_jobOver (s.freeEngine e) x status).eng k

theorem ended_flight (s : State) (e tag : Nat) (x : Flight) (status : Nat) : nfind tag (s.ended e tag x status).jik.flight = none :=
  nfind_ndel_self _ _

theorem not_overReg {a : Nat} (h : 0x80000 ≤ a) (hu : a < 0xA00000) (hb : a ≠ Reg.engOverBudgetCnt) (hf : a ≠ Reg.engFaultCnt) :
    ¬ overReg a := by
  rintro (⟨k, h1 | h1 | h1⟩ | h1 | h1 | h1)
  · simp only [Reg.fstSlipStat] at h1; omega
  · simp only [Reg.fstSlipCapStroke] at h1; omega
  · simp only [Reg.fstSlipCapOfs] at h1; omega
  · exact notDrop (.inr h) h1
  · exact hb h1
  · exact hf h1

theorem ended_queReg (s : State) {e : Nat} (he : e < 256) (tag : Nat) (x : Flight) (status : Nat) {a : Nat} (h : 0x400000 ≤ a)
    (hu : a < 0xA00000) : (s.ended e tag x status).rd a = s.rd a := by
  refine ended_rd s e tag x status ?_ (not_overReg (by omega) hu ?_ ?_)
  · rintro (h | h | h) <;> simp only [Reg.engBusyLo, Reg.engBusyHi, Reg.engStat] at h <;> omega
  · simp only [Reg.engOverBudgetCnt]; omega
  · simp only [Reg.engFaultCnt]; omega

/-- The queue of a `DONE` is as open when the `DONE` is pushed as when its job ended. -/
theorem ended_open (s : State) {e : Nat} (he : e < 256) (tag : Nat) (x : Flight) (status : Nat) {q : Nat} (hq : q < 4096) :
    (s.ended e tag x status).rd (Reg.queCfg q) = s.rd (Reg.queCfg q) ∧ (s.ended e tag x status).queueOpen q = s.queueOpen q :=
  ⟨ended_queReg s he tag x status (by simp only [Reg.queCfg]; omega) (by simp only [Reg.queCfg]; omega),
    queueOpen_congr (ended_queue s e tag x status q)
      (ended_queReg s he tag x status (by simp only [Reg.queSize]; omega) (by simp only [Reg.queSize]; omega))⟩

/-- An engine that ends its job is free, its tag is free, and the `DONE` is in its queue. -/
theorem endJob_ended {s : State} {e : Nat} (he : e < 256) {j : Rec} {x : Flight} (h : s.mayEnd e j x) (status result : Nat) :
    s.endJob e status result = (s.ended e (Desc.ofRec j).tag x status).append (s.doneQ x) (doneDesc x.desc status x.throttled result) := by
  obtain ⟨hj, hcut, hpar, hfl, hcfg, hopen⟩ := h
  have hfree : nfind (Desc.ofRec j).tag (s.freeEngine e).jik.flight = some x := by
    rw [(Prod.mk.inj (Prod.mk.inj (freeEngine_keeps s e).1).2).2, hfl]
  have hdone : (s.freeEngine e).jobDone (Desc.ofRec j).tag status result =
      (s.ended e (Desc.ofRec j).tag x status).pushDone (s.doneQ x) (doneDesc x.desc status x.throttled result) := by
    rw [State.jobDone, hfree, ← freeEngine_doneQ s he x]; rfl
  obtain ⟨hc, ho⟩ := ended_open s he (Desc.ofRec j).tag x status (s.doneQ_lt x)
  have hclosed : ¬ (s.rd (Reg.queCfg (s.doneQ x)) ≠ 0 ∧ heldProducer (s.prodKind (s.doneQ x)) ∧ (!s.queueOpen (s.doneQ x)) = true) := by
    rw [hopen]; simp
  rw [State.endJob, hj, hcut]
  simp only [Option.isSome_none, Bool.false_eq_true, if_false]
  rw [State.partOver, hpar]
  simp only [State.finishJob, hfl, if_neg hclosed, State.vacate, Bool.false_eq_true, if_false]
  rw [hdone, State.pushDone_open _ (hc.trans_ne hcfg) (ho.trans hopen)]

/-- What an engine's ended job leaves. -/
theorem endJob_leaves {s : State} {e : Nat} (he : e < 256) {j : Rec} {x : Flight} (h : s.mayEnd e j x) (status result : Nat) :
    let t := s.endJob e status result
    (t.eng e).job = none ∧ (t.eng e).wait = none ∧ (∀ k, k ≠ e → t.eng k = s.eng k) ∧ t.rd (Reg.engStat e) = 0 ∧
      t.rd (Reg.engFault e) = s.rd (Reg.engFault e) ∧ nfind (Desc.ofRec j).tag t.jik.flight = none ∧ sameMemory s t ∧
      (t.queue (s.doneQ x)).held = (s.queue (s.doneQ x)).held ++ [doneDesc x.desc status x.throttled result] := by
  intro t
  have ht : t = (s.ended e (Desc.ofRec j).tag x status).append (s.doneQ x) (doneDesc x.desc status x.throttled result) :=
    endJob_ended he h status result
  have hq := s.doneQ_lt x
  have hjik : t.jik = (s.ended e (Desc.ofRec j).tag x status).jik := by rw [ht, State.append_jik]
  have heng (k : Nat) : t.eng k = (s.freeEngine e).eng k := by rw [State.eng, hjik]; exact ended_eng s e _ x status k
  have hrd {a : Nat} (hlo : 0x300000 ≤ a) (hhi : a < 0x400000) : t.rd a = (s.ended e (Desc.ofRec j).tag x status).rd a := by
    rw [ht]
    refine State.append_rd _ _ _ ?_
    rintro (h | h | h)
    · simp only [Reg.quePushes] at h; omega
    · simp only [Reg.queHwm] at h; omega
    · exact notDrop (.inr (by omega)) h
  have hover {n : Nat} (hn : n < 0x10) : ¬ overReg (0x300000 + n + e * 0x1000) :=
    not_overReg (by omega) (by omega) (by simp only [Reg.engOverBudgetCnt]; omega) (by simp only [Reg.engFaultCnt]; omega)
  refine ⟨?_, ?_, fun k hk => ?_, ?_, ?_, ?_, ?_, ?_⟩
  · rw [heng, freeEngine_eng_self]; rfl
  · rw [heng, freeEngine_eng_self]; rfl
  · rw [heng, freeEngine_eng_ne s hk]
  · rw [hrd (by simp only [Reg.engStat]; omega) (by simp only [Reg.engStat]; omega)]
    exact ((keeps_jobOver (s.freeEngine e) x status).rd (hover (n := 8) (by omega))).trans (freeEngine_stat s e)
  · rw [hrd (by simp only [Reg.engFault]; omega) (by simp only [Reg.engFault]; omega)]
    refine ended_rd s e _ x status (not_busyReg ?_) (hover (n := 12) (by omega))
    simp only [Reg.engFault]; omega
  · rw [hjik]; exact ended_flight s e _ x status
  · exact kept_sameMemory (State.endJob_kept s e status result)
  · rw [ht, State.append_held, ended_queue]

end Sys2Proof.Machine
end

section
/-! PROOF. Faults of engine instructions (R222, R225, R245, R252). -/

namespace Sys2Proof.Machine

/-- An instruction with an undefined encoding, or fetched from at or above `CODE_TOP`, faults with code 1 wherever it may issue; `runs`
says when the command has an effect, and `u` is what it leaves else. -/
theorem issue_faults {c : Instr} {s u : State} {e : Nat} {op : EngOp} {f : EngFields} {g : State → State} {runs : Bool}
    (hx : exec c s = .next (if runs then g s else s)) (hr : runs = true)
    (hg : g s = if s.canIssue e then if op.legal f && decide ((s.eng e).pc < s.codeTop e) then u else s.engFaultAt e 1 else s)
    (hi : s.canIssue e = true) (hb : op.legal f = false ∨ s.codeTop e ≤ (s.eng e).pc) : exec c s = .next (s.engFaultAt e 1) := by
  have h : g s = s.issue e op f fun _ => u := hg
  rw [hx, hr, if_pos rfl, h, issue_bad _ hi hb]

/-- An access that does not lie in local memory, or a store below `CODE_TOP`, faults with code 2. -/
theorem memory_faults {c : Instr} {s : State} {e : Nat} {op : EngOp} {f : EngFields} {base n : Nat} {store : Bool} {g k : State → State}
    (h : s.issues e op f) (hx : exec c s = onMatrix g s) (hg : g s = s.memory e op f base n store k)
    (hm : s.inLocal e base n store = false) : exec c s = .next (s.engFaultAt e 2) := by
  rw [hx, onMatrix_up _ h.1, hg, memory_bad k h hm]

theorem inLocal_outside {s : State} {e base n : Nat} (store : Bool) (h : 0x10000 < base + n) : s.inLocal e base n store = false := by
  simp only [State.inLocal, decide_eq_false (Nat.not_le_of_lt h), Bool.false_and]

theorem inLocal_code {s : State} {e base n : Nat} (h : base < s.codeTop e ∨ 0x10000 < base + n) : s.inLocal e base n true = false := by
  rcases h with h | h
  · simp only [State.inLocal, decide_eq_false (Nat.not_le_of_lt h), Bool.not_true, Bool.or_false, Bool.and_false]
  · exact inLocal_outside true h

theorem undefinedEncoding_faults {e : Fin 256} {s : State} (hm : s.matrixUp = true) (hi : s.canIssue e = true) :
    exec (.undefinedEncoding e) s = .next (s.engFaultAt e 1) := by
  refine (onMatrix_up (undefinedEncoding e) hm).trans ?_
  rw [undefinedEncoding, hi]; rfl

/-- What `ENG_FAULT` shows of a fault (R225, R240). -/
def faultWord (s : State) (e code tag : Nat) : Word := BitVec.ofNat 32 (code * 2 ^ 28 + tag * 2 ^ 16 + (s.eng e).pc / 8 % 2 ^ 13)

/-- A fault is recorded and reported, and then the job ends. -/
def State.faulted (s : State) (e code tag : Nat) : State :=
  (s.wr (Reg.engFault e) (faultWord s e code tag)).raise .engFault e (engData false e tag (code * 2 ^ 24))

theorem engFaultAt_eq {s : State} {e : Nat} {j : Rec} (code : Nat) (hj : (s.eng e).job = some j) (hc : (s.eng e).cut = none) :
    s.engFaultAt e code = (s.faulted e code (Desc.ofRec j).tag).endJob e 2 0 := by
  rw [State.engFaultAt, hj]
  simp only [hc, Option.isSome_none, Bool.false_eq_true, if_false]
  rfl

theorem keeps_faulted (s : State) (e code tag : Nat) : keeps State.tasks (fun a => a = Reg.engFault e ∨ dropCounter a) s (s.faulted e code tag) :=
  (keeps_wr quiet_tasks s _ (.inl rfl)).trans (keeps_raise quiet_tasks (fun _ h => .inr h) _ _ _ _)

theorem faulted_rd (s : State) (e code tag : Nat) {a : Nat} (h : 0x80000 ≤ a) (ha : a ≠ Reg.engFault e) :
    (s.faulted e code tag).rd a = s.rd a :=
  (keeps_faulted s e code tag).rd fun h' => h'.elim ha (notDrop (.inr h))

theorem faulted_fault (s : State) {e : Nat} (code tag : Nat) : (s.faulted e code tag).rd (Reg.engFault e) = faultWord s e code tag := by
  have h : ¬ dropCounter (Reg.engFault e) := notDrop (.inr (by simp only [Reg.engFault]; omega))
  exact (State.raise_rd _ _ _ _ h).trans (s.rd_wr_self _ _)

theorem faulted_doneQ (s : State) {e : Nat} (code tag : Nat) (x : Flight) : (s.faulted e code tag).doneQ x = s.doneQ x := by
  refine State.doneQ_congr x (fun n => faulted_rd s e code tag ?_ ?_) (fun n => faulted_rd s e code tag ?_ ?_)
    (fun r => faulted_rd s e code tag ?_ ?_) <;> simp only [Reg.engQcfg, Reg.crwHostq, Reg.manifestWord, Reg.engFault] <;> omega

/-- A fault leaves the engine able to end its job. -/
theorem faulted_mayEnd {s : State} {e : Nat} {j : Rec} {x : Flight} (h : s.mayEnd e j x) (code tag : Nat) :
    (s.faulted e code tag).mayEnd e j x := by
  obtain ⟨hj, hcut, hpar, hfl, hcfg, hopen⟩ := h
  have hk := keeps_faulted s e code tag
  have hq := s.doneQ_lt x
  refine ⟨by rw [hk.eng, hj], by rw [hk.eng, hcut], ?_, by rw [hk.flight, hfl], ?_, ?_⟩
  · rw [← hpar, State.parentOf, State.parentOf, hk.crews]
  · rw [faulted_doneQ s, faulted_rd]
    · exact hcfg
    all_goals simp only [Reg.queCfg, Reg.engFault]; omega
  · rw [faulted_doneQ s, queueOpen_congr (hk.queue _) (faulted_rd s e code tag ?_ ?_), hopen]
    all_goals simp only [Reg.queSize, Reg.engFault]; omega

/-- Settles O22: every such instruction comes to `engFaultAt`, and a recorded fault leaves the engine able to end its job. -/
theorem engineFaultsEndTheJob : Obligations.EngineFaultsEndTheJob := by
  refine ⟨fun e s hm hi => undefinedEncoding_faults hm hi, ?_, ?_, ?_, ?_, ?_, ?_⟩
  · intro e s x hm hi hcut d hpar hfl hcfg hopen
    have hsome : (s.eng e).job.isSome = true := by
      simp only [State.canIssue, Bool.and_eq_true] at hi; exact hi.1.1
    obtain ⟨j, hj⟩ := Option.isSome_iff_exists.1 hsome
    have hd : d = Desc.ofRec j := by simp only [d, State.jobDesc, hj, Option.getD_some]
    rw [hd] at hpar hfl ⊢
    have hend := endJob_leaves e.isLt (faulted_mayEnd ⟨hj, hcut, hpar, hfl, hcfg, hopen⟩ 1 (Desc.ofRec j).tag) 2 0
    have hk := keeps_faulted s e 1 (Desc.ofRec j).tag
    obtain ⟨hnone, -, hother, -, hfault, hfree, -, hheld⟩ := hend
    refine completes_of_exec ((undefinedEncoding_faults hm hi).trans (congrArg _ (engFaultAt_eq 1 hj hcut)))
      ⟨hnone, fun k hk' => (hother k hk').trans (hk.eng k), hfault.trans (faulted_fault s 1 _), hfree, ?_, ?_⟩
    · rw [faulted_doneQ s, hk.queue] at hheld
      exact hheld
    · rw [← engFaultAt_eq 1 hj hcut]
      exact kept_sameMemory (State.engFaultAt_kept s e 1)
  · intro e f s hm hc hi p hp
    simp only [List.mem_cons, List.not_mem_nil, or_false] at hp
    rcases hp with rfl | rfl | rfl | rfl | rfl | rfl | rfl | rfl | rfl | rfl | rfl | rfl | rfl | rfl | rfl | rfl | rfl | rfl | rfl | rfl |
      rfl | rfl | rfl | rfl | rfl | rfl | rfl | rfl | rfl | rfl | rfl | rfl | rfl | rfl | rfl | rfl | rfl | rfl | rfl | rfl | rfl | rfl |
      rfl | rfl <;> exact issue_faults rfl (by simp only [hm, hc, Bool.and_self]) rfl hi
  · exact fun e f s h hb => memory_faults h rfl rfl (inLocal_code hb)
  · exact fun e f s h hb => memory_faults h rfl rfl (inLocal_code hb)
  · exact fun e f s h hb => memory_faults h rfl rfl (inLocal_outside false hb)
  · exact fun e f s h hb => memory_faults h rfl rfl (inLocal_outside false hb)

end Sys2Proof.Machine
end

section
/-! PROOF. What a waiting engine receives (R254 to R257): where the statement on arrivals fails. -/

namespace Sys2Proof.Machine

/-- A write of one word to slip 0 with a push to a queue number past the 4,096 queues, whose registers are those of bank counters. -/
def strayPost : Posted := { slip := 0, slot := 0, line := 0, off := 0, words := [0], queue := 0xBE20, descs := [0] }

/-- Engine 0 has posted `strayPost`; the queue it names is full, by a size that is the count of beats of bank 1. -/
def strayQueue : State :=
  ((running [(Reg.fstSlipCfg 0, 0x00010000), (Reg.fstSlipGeom 0, 0x2010), (Reg.fstBankBeats 0, 1), (Reg.fstBankBeats 1, 1)]).onEng 0 fun x =>
    { x with posted := [strayPost] }).onQueue 0xBE20 fun q => { q with held := [0] }

/-- Refutes O25: a posted write may name a queue above 4,095, which no `QOUT` does (its field has 12 bits). The size register of queue
0xBE20 would be the beat counter of bank 1, so that the write's own beat opens the queue, and its push enters. -/
theorem not_arrivalsReleaseTheEngine : ¬ Obligations.ArrivalsReleaseTheEngine := by
  intro h
  have hup : strayQueue.fabricUp := by constructor <;> decide +kernel
  obtain ⟨-, -, -, hheld, -⟩ := h 0 { d := 0, a := 0, b := 0, c := 0, sgn := false, sat := false, hlf := false, msk := false, var := 0, imm := 0 }
    strayQueue hup
  have hleft := completes_left (hheld strayPost (by decide +kernel) (by decide +kernel) (by decide +kernel) (by decide +kernel))
  obtain ⟨-, hque, -⟩ := hleft
  exact absurd hque (by decide +kernel)

end Sys2Proof.Machine
end

section
/-! PROOF. Instructions that wait, and the events they wait for (R254 to R257, R260). -/

namespace Sys2Proof.Machine

/-! ### Changes of one engine -/

theorem engineOnly.trans {e : Nat} {x y : EngSt} {s t u : State} (h : engineOnly e x s t) (h2 : engineOnly e y t u) : engineOnly e y s u := by
  obtain ⟨-, hk, ht⟩ := h
  obtain ⟨hy, hk2, hu⟩ := h2
  refine ⟨hy, fun k hne => (hk2 k hne).trans (hk k hne), ?_⟩
  rw [hu, ht]

theorem engineOnly.eng {e : Nat} {x : EngSt} {s t : State} (h : engineOnly e x s t) : t.eng e = x := h.1

/-- The engine with what it waits for replaced. -/
def EngSt.waitFor (x : EngSt) (w : Option EngWait) : EngSt := { x with wait := w }

theorem EngSt.waitFor_none {x : EngSt} (h : x.wait = none) : x.waitFor none = x := by
  obtain ⟨⟩ := x
  cases h
  rfl

theorem canIssue_wait {s : State} {e : Nat} (h : s.canIssue e = true) : (s.eng e).wait = none := by
  simp only [State.canIssue, Bool.and_eq_true, Option.isNone_iff_eq_none] at h
  exact h.1.2

theorem issues_job {s : State} {e : Nat} {op : EngOp} {f : EngFields} (h : s.issues e op f) : ∃ j, (s.eng e).job = some j := by
  obtain ⟨-, hi, -, -⟩ := h
  simp only [State.canIssue, Bool.and_eq_true] at hi
  exact Option.isSome_iff_exists.1 hi.1.1

/-- An engine that has not stopped waits as the instruction says. -/
theorem EngSt.waiting_running {x : EngSt} (w : EngWait) (h : x.stopped = false) : x.waiting w = x.waitFor (some w) := by
  unfold EngSt.waiting
  rw [if_neg (by rw [h]; decide)]; rfl

theorem exec_issued {c : Instr} {s : State} {e : Nat} {op : EngOp} {f : EngFields} {g k : State → State} (hc : s.coreUp = true)
    (h : s.issues e op f) (hx : exec c s = onCore g s) (hg : g s = s.issue e op f k) : exec c s = .next (k s) := by
  rw [hx, onCore_up _ h.1 hc, hg, issue_ok _ h]

/-! ### `LDP` -/

/-- The word of the parameter block that `LDP` reads (R257). -/
def ldpWord (s : State) (e : Nat) (f : EngFields) : Word :=
  BitVec.ofNat 32 (leNat (readBytes zeroByte (if (s.jobDesc e).space = 0 then s.fstore else s.work)
    (16 * (s.jobDesc e).addr + 4 * bf f.imm 11 0) 4))

theorem ldpWordArrive_eq {s : State} {e : Nat} {f : EngFields} (h : (s.eng e).wait = some (.ldp (engWord .ldp f))) : ldpWordArrive e s =
    ((s.onEng e fun x => { x with wait := none }).setS e f.d.toNat (ldpWord s e f)).advance e := by
  simp only [ldpWordArrive, h, engFieldsOf_engWord]; rfl

/-- The word that arrives is written to Sd, and the engine goes on as if it had not waited. -/
theorem scalarOnly_ldpWordArrive {s t : State} {e : Nat} {f : EngFields} (hi : (s.eng e).wait = none)
    (ht : engineOnly e ((s.eng e).waitFor (some (.ldp (engWord .ldp f)))) s t) :
    scalarOnly e f.d.toNat (ldpWord s e f) s (ldpWordArrive e t) := by
  have hw : (t.eng e).wait = some (.ldp (engWord .ldp f)) := by rw [ht.1]; rfl
  have hword : ldpWord t e f = ldpWord s e f := by
    have hdesc : t.jobDesc e = s.jobDesc e := by rw [State.jobDesc, State.jobDesc, ht.1]; rfl
    have hst : t.fstore = s.fstore := by rw [ht.2.2]
    have hwk : t.work = s.work := by rw [ht.2.2]
    rw [ldpWord, ldpWord, hdesc, hst, hwk]
  have hfree : engineOnly e (s.eng e) s (t.onEng e fun x => { x with wait := none }) := by
    have h := ht.trans (engineOnly_onEng t e fun x => { x with wait := none })
    rw [ht.1] at h
    exact (EngSt.waitFor_none hi) ▸ h
  rw [ldpWordArrive_eq hw, hword]
  obtain ⟨hd, hr, honly⟩ := scalarOnly_setS (t.onEng e fun x => { x with wait := none }) e f.d.toNat (ldpWord s e f)
  refine ⟨hd, fun r hne => (hr r hne).trans ?_, ?_⟩
  · rw [State.sreg, State.sreg, hfree.1]
  · rw [hfree.1] at honly
    exact hfree.trans honly

/-! ### Posted writes -/

theorem storeLine_keeps (s : State) (k j l i : Nat) (bs : List Byte) :
    keeps (fun s => (s.que, s.jik, s.work)) (fun _ => True) s (s.storeLine k j l i bs) := by
  unfold State.storeLine State.moveBeats
  refine .trans ?_ (keeps_forAll _ _ (fun b _ t => keeps_wr (fun _ _ _ => rfl) _ _ trivial) _)
  exact ⟨rfl, fun _ h => absurd trivial h⟩

/-- A line write touches neither queues, nor engines, nor working memory. -/
theorem putLine_keeps (s : State) (k j l off : Nat) (ws : List Lane) :
    keeps (fun s => (s.que, s.jik, s.work)) (fun _ => True) s (s.putLine k j l off ws) := by
  unfold State.putLine
  split
  · exact keeps.refl s
  · split
    · exact keeps_forAll (ws.zipIdx off) (fun w t => _) (fun w _ t => storeLine_keeps t k j l _ _) s
    · split
      · exact keeps.refl s
      · unfold State.placeBlocks
        exact keeps_forAll _ _ (fun e _ t => ⟨(storeLine_keeps t k j l (16 * blockGranules (s.slot k j).comp * e.2)
          ((upto (16 * blockGranules (s.slot k j).comp)).map (Config.codecByte (s.slot k j).comp e.1))).1, fun _ h => absurd trivial h⟩) s

/-- Posted writes without pushes land one after another. -/
theorem landOne_keeps (s : State) (e : Nat) {p : Posted} (hp : p.descs = []) :
    keeps (fun s => (s.que, s.jik, s.work)) (fun _ => True) s (s.landOne e p) := by
  unfold State.landOne
  rw [hp]
  exact putLine_keeps s _ _ _ _ _

theorem land_keeps (s : State) (e : Nat) (h : ∀ p ∈ (s.eng e).posted, p.descs = []) :
    keeps (fun s => (s.que, s.jik, s.work)) (fun _ => True) (s.onEng e fun x => { x with posted := [] }) (s.land e) :=
  keeps_forAll _ _ (fun p hp t => landOne_keeps t e (h p hp)) _

/-- `QWAIT` goes on once all that the engine has posted has landed. -/
theorem postedWritesLanded_qwait {s t : State} {e : Nat} (hi : (s.eng e).wait = none) (ht : engineOnly e ((s.eng e).waitFor (some .qwait)) s t)
    (hd : ∀ p ∈ (s.eng e).posted, p.descs = []) :
    let u := postedWritesLanded e t
    u.eng e = { (s.eng e).onwards with posted := [] } ∧ (∀ k, k ≠ e → u.eng k = s.eng k) ∧ u.work = s.work ∧ u.que = s.que := by
  have hk := land_keeps t e (by rw [ht.1]; exact hd)
  have hjik : (t.land e).jik = (t.onEng e fun x => { x with posted := [] }).jik := (Prod.mk.inj (Prod.mk.inj hk.1).2).1
  have heng (k : Nat) : (t.land e).eng k = (t.onEng e fun x => { x with posted := [] }).eng k := by rw [State.eng, State.eng, hjik]
  have hself : (t.land e).eng e = { (s.eng e).waitFor (some .qwait) with posted := [] } := by
    rw [heng, State.eng_onEng_self, ht.1]
  have hu : postedWritesLanded e t = ((t.land e).onEng e fun x => { x with wait := none }).advance e := by
    simp only [postedWritesLanded, hself, EngSt.waitFor, ne_eq, not_true_eq_false, if_false]
  have honly := engineOnly_advance (t.land e) e fun x => { x with wait := none }
  rw [← hu, hself] at honly
  obtain ⟨he, hother, hrest⟩ := honly
  have hwork : (t.land e).work = s.work := by
    have h1 : (t.land e).work = t.work := (Prod.mk.inj (Prod.mk.inj hk.1).2).2
    have h2 : t.work = s.work := by rw [ht.2.2]
    rw [h1, h2]
  have hque : (t.land e).que = s.que := by
    have h1 : (t.land e).que = t.que := (Prod.mk.inj hk.1).1
    have h2 : t.que = s.que := by rw [ht.2.2]
    rw [h1, h2]
  refine ⟨he.trans ?_, fun k hne => ?_, ?_, ?_⟩
  · exact congrArg (fun x : EngSt => { x.onwards with posted := [] }) (EngSt.waitFor_none hi)
  · rw [hother k hne, heng, State.eng_onEng_ne _ _ hne, ht.2.1 k hne]
  · rw [← hwork, hrest]
  · rw [← hque, hrest]

/-! ### `QIN` -/

/-- The state in which a `QIN` has placed a descriptor's words. -/
def State.placed (s : State) (e sa : Nat) (ws : List Lane) : State := { s with work := putWords s.work (localAt e sa) ws 0 }

theorem State.pop_cons {s : State} {q : Nat} {r : Rec} {rest : List Rec} (h : (s.queue q).held = r :: rest) :
    s.pop q = (some r, s.onQueue q fun x => { x with held := rest }) := by
  rw [State.pop, h]

/-- A `QIN` that does not gather and finds a good descriptor is complete with it (R254). -/
theorem qinDataArrive_good {s p : State} {e : Nat} {f : EngFields} {r : Rec}
    (hw : (s.eng e).wait = some (.qin (engWord .qin f) 0 false 0)) (hvar : f.var = 0) (hpop : s.pop (s.dataQ false e) = (some r, p))
    (hk : (Desc.ofRec r).dkind = 0) (hp : (Desc.ofRec r).poison = false)
    (hn : serialNewer 16 (p.jobDesc e).stroke (Desc.ofRec r).stroke = false)
    (hl : p.inLocal e (s.address e f.a 0 16) (packedBytes (min (Desc.ofRec r).len 5760)) true = true) :
    let ws := (p.descWords (Desc.ofRec r)).take 5760
    qinDataArrive e s = (((p.placed e (s.address e f.a 0 16) ws).onEng e fun x => { x with wait := none }).setS e f.d.toNat
      (BitVec.ofNat 32 ((Desc.ofRec r).eof.toNat * 2 ^ 30 + ws.length * 2 ^ 16 + (Desc.ofRec r).first.toNat * 2 ^ 15
        + (Desc.ofRec r).last.toNat * 2 ^ 14 + (Desc.ofRec r).line))).advance e := by
  have hdrop : p.qinDrops e 0 false (Desc.ofRec r) = false := by simp [State.qinDrops, hk, hn]
  have hstart : qinStart 0 0 (Desc.ofRec r) = 0 := rfl
  have hstatus (n : Nat) : qinStatus 0 (Desc.ofRec r) n true = BitVec.ofNat 32 ((Desc.ofRec r).eof.toNat * 2 ^ 30 + n * 2 ^ 16
      + (Desc.ofRec r).first.toNat * 2 ^ 15 + (Desc.ofRec r).last.toNat * 2 ^ 14 + (Desc.ofRec r).line) := by
    simp [qinStatus, hp, bit]
  have hzero : f.var.toNat = 0 := by rw [hvar]; rfl
  simp only [qinDataArrive, hw, engFieldsOf_engWord, hzero, State.qinRun, hpop, hdrop, hp, hstart, hl, Nat.zero_add, Nat.sub_zero,
    Bool.not_true, Bool.not_false, Bool.false_eq_true, and_false, if_false, State.qinTake, hstatus, decide_true, Bool.true_or, if_true]
  rfl

/-- What a `QIN` that has waited leaves, said of the state in which it issued (R254). -/
theorem qin_arrives {s t : State} {e : Nat} {f : EngFields} {r : Rec} {rest : List Rec}
    (ht : engineOnly e ((s.eng e).waitFor (some (.qin (engWord .qin f) 0 false 0))) s t) (hvar : f.var = 0)
    (hheld : (s.queue (s.dataQ false e)).held = r :: rest) (hk : (Desc.ofRec r).dkind = 0) (hp : (Desc.ofRec r).poison = false)
    (hn : serialNewer 16 (s.jobDesc e).stroke (Desc.ofRec r).stroke = false)
    (hl : s.inLocal e (s.address e f.a 0 16) (packedBytes (min (Desc.ofRec r).len 5760)) true = true) :
    let ws := (s.descWords (Desc.ofRec r)).take 5760
    let u := qinDataArrive e t
    u.work = putWords s.work (localAt e (s.address e f.a 0 16)) ws 0 ∧ (u.queue (s.dataQ false e)).held = rest ∧
      (u.eng e).wait = none ∧ (u.eng e).pc = (s.eng e).onwards.pc ∧
      u.sreg e f.d.toNat = BitVec.ofNat 32 ((Desc.ofRec r).eof.toNat * 2 ^ 30 + ws.length * 2 ^ 16 + (Desc.ofRec r).first.toNat * 2 ^ 15
        + (Desc.ofRec r).last.toNat * 2 ^ 14 + (Desc.ofRec r).line) := by
  obtain ⟨heng, -, hrest⟩ := ht
  have hdesc : t.jobDesc e = s.jobDesc e := by rw [State.jobDesc, State.jobDesc, heng]; rfl
  have haddr : t.address e f.a 0 16 = s.address e f.a 0 16 := by rw [State.address, State.address, State.sreg, State.sreg, heng]; rfl
  have hq : t.dataQ false e = s.dataQ false e := by rw [hrest]; rfl
  have hqueue : t.queue (s.dataQ false e) = s.queue (s.dataQ false e) := by rw [hrest]; rfl
  have hwork : t.work = s.work := by rw [hrest]
  have hlocal : t.inLocal e (s.address e f.a 0 16) (packedBytes (min (Desc.ofRec r).len 5760)) true = true := by rw [hrest]; exact hl
  have hws : t.descWords (Desc.ofRec r) = s.descWords (Desc.ofRec r) := by rw [hrest]; rfl
  intro ws u
  have hu := qinDataArrive_good (s := t) (e := e) (f := f) (r := r) (by rw [heng]; rfl) hvar
    (State.pop_cons (by rw [hq, hqueue]; exact hheld)) hk hp (by rw [← hdesc] at hn; exact hn) (by rw [haddr]; exact hlocal)
  rw [haddr, hq] at hu
  have hws' : ((t.onQueue (s.dataQ false e) fun x => { x with held := rest }).descWords (Desc.ofRec r)).take 5760 = ws :=
    congrArg (List.take 5760) hws
  rw [hws'] at hu
  obtain ⟨hd, -, he, -, hfrom⟩ := scalarOnly_setS (((t.onQueue (s.dataQ false e) fun x => { x with held := rest }).placed e
    (s.address e f.a 0 16) ws).onEng e fun x => { x with wait := none }) e f.d.toNat (BitVec.ofNat 32 ((Desc.ofRec r).eof.toNat * 2 ^ 30
    + ws.length * 2 ^ 16 + (Desc.ofRec r).first.toNat * 2 ^ 15 + (Desc.ofRec r).last.toNat * 2 ^ 14 + (Desc.ofRec r).line))
  rw [← hu] at hd he hfrom
  rw [State.eng_onEng_self] at he
  have hpe : (State.placed (t.onQueue (s.dataQ false e) fun x => { x with held := rest }) e (s.address e f.a 0 16) ws).eng e =
      (s.eng e).waitFor (some (.qin (engWord .qin f) 0 false 0)) := heng
  rw [hpe] at he
  refine ⟨?_, ?_, ?_, ?_, hd⟩
  · exact (congrArg State.work hfrom).trans (congrArg (fun m => putWords m (localAt e (s.address e f.a 0 16)) ws 0) hwork)
  · exact (congrArg (fun v : State => (v.queue (s.dataQ false e)).held) hfrom).trans
      (congrArg QueSt.held (t.queue_onQueue_self (s.dataQ false e) fun x => { x with held := rest }))
  · exact (congrArg EngSt.wait he :)
  · exact (congrArg EngSt.pc he :)

/-! ### `TSIG` and `QOUT` -/

/-- The descriptor that `TSIG` pushes (R251). -/
def tsigDesc (s : State) (e : Nat) (f : EngFields) : Rec :=
  ({ dkind := 3, space := 0, addr := 0, len := 0, stream := 0, line := 0, stroke := (s.jobDesc e).stroke, tag := (s.jobDesc e).tag,
     dflags := 0, arg := (s.sreg e f.a.toNat).toNat } : Desc).toRec

theorem tsigDesc_fields (s : State) (e : Nat) (f : EngFields) : (Desc.ofRec (tsigDesc s e f)).dkind = 3 ∧
    (Desc.ofRec (tsigDesc s e f)).tag = (s.jobDesc e).tag ∧ (Desc.ofRec (tsigDesc s e f)).stroke = (s.jobDesc e).stroke ∧
    (Desc.ofRec (tsigDesc s e f)).arg = (s.sreg e f.a.toNat).toNat := by
  rw [tsigDesc, ofRec_toRec]
  refine ⟨rfl, Nat.mod_eq_of_lt (rf_lt _ 47 38), Nat.mod_eq_of_lt (rf_lt _ 63 48), Nat.mod_eq_of_lt (s.sreg e f.a.toNat).isLt⟩

/-- `TSIG` puts its descriptor into its queue and goes on. -/
theorem tsigPush_leaves (s : State) (e : Nat) (f : EngFields) :
    let t := s.tsigPush e f
    t.eng e = { (s.eng e).onwards with wait := none } ∧ (∀ k, k ≠ e → t.eng k = s.eng k) ∧ sameMemory s t ∧
      (∀ k, k ≠ bf f.imm 11 0 → t.queue k = s.queue k) ∧
      (t.queue (bf f.imm 11 0)).held = (s.queue (bf f.imm 11 0)).held ++ [tsigDesc s e f] := by
  have hjik := State.append_jik (s.onEng e fun x => { x with wait := none }) (bf f.imm 11 0) (tsigDesc s e f)
  have heng (k : Nat) : ((s.onEng e fun x => { x with wait := none }).append (bf f.imm 11 0) (tsigDesc s e f)).eng k =
      (s.onEng e fun x => { x with wait := none }).eng k := by rw [State.eng, State.eng, hjik]
  refine ⟨?_, fun k hk => ?_, kept_sameMemory (by simp), fun k hk => ?_, ?_⟩
  · exact (State.eng_advance_self _ e).trans (congrArg EngSt.onwards ((heng e).trans (s.eng_onEng_self e _)))
  · exact (State.eng_advance_ne _ hk).trans ((heng k).trans (s.eng_onEng_ne _ hk))
  · exact State.append_queue_ne (s.onEng e fun x => { x with wait := none }) _ hk
  · exact State.append_held (s.onEng e fun x => { x with wait := none }) _ _

/-- What `QOUT` posts (R255). -/
def qoutPosted (s : State) (e : Nat) (f : EngFields) (k j : Nat) : Posted :=
  let sb := s.sreg e f.b.toNat
  let ws := s.localWords e (s.address e f.a 0 16) (min 5760 (bf sb 28 16))
  { slip := k, slot := j, line := bf sb 12 0, off := bf f.imm 12 0, words := ws, queue := bf f.imm 27 16
    descs := if f.var = 1 then s.postedDescs e k j (bf sb 12 0) (bf f.imm 12 0) ws else [] }

theorem qoutPost_posts {s : State} {e : Nat} {f : EngFields} {k j : Nat} (hs : s.outSlot e = some (k, j))
    (hl : s.inLocal e (s.address e f.a 0 16) (packedBytes (min 5760 (bf (s.sreg e f.b.toNat) 28 16))) false = true) :
    s.qoutPost e f = (s.onEng e fun x => { x with posted := x.posted ++ [qoutPosted s e f k j], wait := none }).advance e := by
  simp only [State.qoutPost, hs, hl, Bool.not_true, Bool.false_eq_true, if_false]
  rfl

theorem qoutPost_none {s : State} {e : Nat} (f : EngFields) (hs : s.outSlot e = none) : s.qoutPost e f = s.engFaultAt e 3 := by
  rw [State.qoutPost, hs]

/-! ### The statement -/

/-- An instruction that waits, and nothing else. -/
theorem completes_waiting {c : Instr} {s : State} {e : Nat} {op : EngOp} {f : EngFields} {g k : State → State} {P : State → Prop}
    (w : EngWait) (hc : s.coreUp = true) (h : s.issues e op f) (hx : exec c s = onCore g s) (hg : g s = s.issue e op f k)
    (hk : k s = s.onEng e fun x => x.waiting w) (hP : ∀ t, engineOnly e ((s.eng e).waiting w) s t → P t) : completes c s P := by
  refine completes_of_exec (exec_issued hc h hx hg) (hP _ ?_)
  rw [hk]
  exact engineOnly_onEng s e _

theorem fabric_of_engineOnly {s t : State} {e : Nat} {x : EngSt} (ht : engineOnly e x s t) (h : s.fabricUp) : t.fabricUp := by
  obtain ⟨-, -, ht⟩ := ht
  rw [ht]
  exact h

theorem jend_ends {e : Fin 256} {f : EngFields} {s : State} {x : Flight} (hc : s.coreUp = true) (h : s.issues e .jend f)
    (hposted : (s.eng e).posted = []) (hcut : (s.eng e).cut = none) (hpar : s.parentOf false e (s.jobDesc e).tag = none)
    (hfl : nfind (s.jobDesc e).tag s.jik.flight = some x) (hcfg : s.rd (Reg.queCfg (s.doneQ x)) ≠ 0)
    (hopen : s.queueOpen (s.doneQ x) = true) : completes (.jend e f) s fun t => (t.eng e).job = none ∧ (t.eng e).wait = none ∧
      (∀ k, k ≠ e.val → t.eng k = s.eng k) ∧ t.rd (Reg.engStat e) = 0 ∧ nfind (s.jobDesc e).tag t.jik.flight = none ∧ sameMemory s t ∧
      (t.queue (s.doneQ x)).held = (s.queue (s.doneQ x)).held ++ [doneDesc x.desc 0 x.throttled (bf (s.sreg e f.a.toNat) 26 0)] := by
  obtain ⟨j, hj⟩ := issues_job h
  have hd : s.jobDesc e = Desc.ofRec j := by simp only [State.jobDesc, hj, Option.getD_some]
  rw [hd] at hpar hfl ⊢
  have hr : (s.sreg e f.a.toNat).toNat % 2 ^ 27 = bf (s.sreg e f.a.toNat) 26 0 := by
    rw [bf, BitVec.extractLsb'_toNat]; rfl
  obtain ⟨hjob, hwait, hother, hstat, -, hfree, hmem, hheld⟩ :=
    endJob_leaves e.isLt ⟨hj, hcut, hpar, hfl, hcfg, hopen⟩ 0 (bf (s.sreg e f.a.toNat) 26 0)
  refine completes_of_exec ((exec_issued (g := engJend e f) hc h rfl rfl).trans ?_) ⟨hjob, hwait, hother, hstat, hfree, hmem, hheld⟩
  rw [if_pos hposted, hr]

/-- Settles O24: each instruction waits, or has its effect, as its event has come or not. -/
theorem waitingInstructionsWaitForTheirEvent : Obligations.WaitingInstructionsWaitForTheirEvent := by
  intro e f s hc d waits sa
  refine ⟨fun h => ?_, fun h hposted => ?_, fun h hposted => ?_, fun h hposted hcut hpar x hfl hcfg hopen => ?_, fun h hposted => ?_,
    fun h => ?_, fun h => ?_, fun h => ?_⟩
  · refine completes_waiting (.ldp (engWord .ldp f)) hc h rfl rfl rfl fun t ht => ⟨ht, fun hrun => ?_⟩
    rw [EngSt.waiting_running _ hrun] at ht
    have hup := fabric_of_engineOnly ht ⟨h.1, hc⟩
    exact completes_of_exec (onCore_fabric _ hup) (scalarOnly_ldpWordArrive (canIssue_wait h.2.1) ht)
  · refine completes_of_exec ((exec_issued (g := engQwait e f) hc h rfl rfl).trans ?_) (engineOnly_of_advance s e)
    rw [if_pos hposted]
  · refine completes_waiting .qwait hc h rfl rfl (if_neg hposted) fun t ht => ⟨ht, fun hrun hdescs => ?_⟩
    rw [EngSt.waiting_running _ hrun] at ht
    have hup := fabric_of_engineOnly ht ⟨h.1, hc⟩
    exact completes_of_exec (onCore_fabric _ hup) (postedWritesLanded_qwait (canIssue_wait h.2.1) ht hdescs)
  · exact jend_ends hc h hposted hcut hpar hfl hcfg hopen
  · have hr : (s.sreg e f.a.toNat).toNat % 2 ^ 27 = bf (s.sreg e f.a.toNat) 26 0 := by
      rw [bf, BitVec.extractLsb'_toNat]; rfl
    refine completes_waiting (.jend (bf (s.sreg e f.a.toNat) 26 0)) hc h rfl rfl ?_ fun t ht => ht
    dsimp only
    rw [if_neg hposted, hr]
  · intro q
    refine ⟨fun hq => ?_, fun hq => ?_⟩
    · refine completes_waiting (.qin (engWord .qin f) 0 false 0) hc h rfl rfl (if_pos hq) fun t ht => ⟨ht, ?_⟩
      intro r rest hrun hvar hheld b ws hk hp hn hl
      rw [EngSt.waiting_running _ hrun] at ht
      have hup := fabric_of_engineOnly ht ⟨h.1, hc⟩
      exact completes_of_exec (onCore_fabric _ hup) (qin_arrives ht hvar hheld hk hp hn hl)
    · refine (exec_issued (g := engQin e f) hc h rfl rfl).trans ?_
      rw [if_neg hq]
  · intro q
    refine ⟨fun hq => ?_, fun hq hcl => ?_, fun hq hcl => ?_⟩
    · refine (exec_issued (g := engTsig e f) hc h rfl rfl).trans ?_
      simp only [hq, q, Bool.not_false, if_true]
    · refine completes_waiting (.tsig (engWord .tsig f)) hc h rfl rfl ?_ fun t ht => ht
      simp only [q] at hq hcl
      simp only [hq, hcl, Bool.not_true, Bool.false_eq_true, if_false, if_true]
    · obtain ⟨heng, hother, hmem, hqueues, hheld⟩ := tsigPush_leaves s e f
      obtain ⟨hkind, htag, hstroke, harg⟩ := tsigDesc_fields s e f
      refine completes_of_exec ((exec_issued (g := engTsig e f) hc h rfl rfl).trans ?_)
        ⟨heng.trans (EngSt.waitFor_none (canIssue_wait h.2.1)), hother, hmem, hqueues, _, hheld, hkind, htag, hstroke, harg⟩
      simp only [q] at hq hcl
      simp only [hq, hcl, Bool.not_true, Bool.false_eq_true, if_false]
  · intro q sb n
    refine ⟨fun hvar hq => ?_, fun hs hq => ?_, fun k j hs hl hq => ?_⟩
    · refine (exec_issued (g := engQout e f) hc h rfl rfl).trans ?_
      simp only [q] at hq
      simp only [hvar, hq, Bool.not_false, and_self, if_true]
    · refine (exec_issued (g := engQout e f) hc h rfl rfl).trans ?_
      have hpush : ¬ (f.var = 1 ∧ (!s.mayPush e (bf f.imm 27 16)) = true) := fun hv => by simp [hq hv.1, q] at hv
      have hclosed : ¬ (f.var = 1 ∧ (s.outSlot e).isSome = true ∧ s.queueClosed (bf f.imm 27 16) = true) := by simp [hs]
      simp only [if_neg hpush, if_neg hclosed, qoutPost_none f hs]
    · have hpush : ¬ (f.var = 1 ∧ (!s.mayPush e (bf f.imm 27 16)) = true) := fun hv => by simp [(hq hv.1).1, q] at hv
      have hclosed : ¬ (f.var = 1 ∧ (s.outSlot e).isSome = true ∧ s.queueClosed (bf f.imm 27 16) = true) := fun hv => by
        simp [(hq hv.1).2, q] at hv
      have honly := engineOnly_advance s e fun x => { x with posted := x.posted ++ [qoutPosted s e f k j], wait := none }
      refine completes_of_exec (t := (s.onEng e fun x => { x with posted := x.posted ++ [qoutPosted s e f k j], wait := none }).advance e)
        ((exec_issued (g := engQout e f) hc h rfl rfl).trans ?_) ?_
      · simp only [if_neg hpush, if_neg hclosed, qoutPost_posts hs hl]
      · exact (EngSt.waitFor_none (canIssue_wait h.2.1)) ▸ honly

end Sys2Proof.Machine
end

section
/-! PROOF. Crews, the dispatcher and the deadline (R227 to R234). -/

namespace Sys2Proof.Machine

/-! ### Pushes leave the dispatcher's state -/

/-- Engines, crews and tags in flight, with what the dispatcher has run. -/
def State.duty (s : State) : NMap EngSt × NMap CrwSt × NMap Flight × List Nat := (s.jik.engs, s.jik.crews, s.jik.flight, s.jik.ran)

theorem hold_duty (s : State) (q : Nat) (r : Rec) (o : PushFrom) : (s.hold q r o).duty = s.duty := rfl

theorem append_duty (s : State) (q : Nat) (r : Rec) : (s.append q r).duty = s.duty := by
  rw [State.duty, State.append_jik]; rfl

theorem pushOr_duty (s : State) (q : Nat) (r : Rec) (o : PushFrom) : (s.pushOr q r o).duty = s.duty := by
  unfold State.pushOr
  split
  · rfl
  · split
    · exact append_duty s q r
    · exact hold_duty s q r o

theorem countErr_jik (s : State) (a n k : Nat) : (s.countErr a n k).jik = s.jik :=
  (keeps_countErr (π := State.jik) (R := fun _ => True) (fun _ _ _ => rfl) (fun _ _ => trivial) s n k trivial).1

theorem dropDesc_duty (s : State) (q : Nat) : (s.dropDesc q).duty = s.duty := by
  refine (onlyIf_field State.duty _ _ _ ?_).trans (congrArg (fun j : JikSt => (j.engs, j.crews, j.flight, j.ran)) (countErr_jik s _ _ _))
  simp only [State.duty, State.raise_jik]

theorem pushDone_duty (s : State) (q : Nat) (r : Rec) : (s.pushDone q r).duty = s.duty := by
  unfold State.pushDone State.pushFree
  split
  · exact pushOr_duty s q r _
  · split
    · rfl
    · split
      · exact dropDesc_duty s q
      · exact append_duty s q r

/-! ### Crews (R227, R228) -/

theorem State.crew_onCrew_self (s : State) (c : Nat) (g : CrwSt → CrwSt) : (s.onCrew c g).crew c = g (s.crew c) := by
  simp only [State.crew, State.onCrew, nget_nset_self]

theorem State.crew_onCrew_ne (s : State) {k c : Nat} (g : CrwSt → CrwSt) (h : k ≠ c) : (s.onCrew c g).crew k = s.crew k := by
  simp only [State.crew, State.onCrew, nget_nset_ne _ _ _ h]

theorem frontJob_found {s : State} {q : Nat} {before rest : List Rec} {j : Rec} (h : (s.queue q).held = before ++ j :: rest)
    (hb : ∀ x ∈ before, (Desc.ofRec x).dkind ≠ 4) (hj : (Desc.ofRec j).dkind = 4) : s.frontJob q = some j := by
  rw [State.frontJob, h, List.find?_append, List.find?_eq_none.2 fun x hx => by simp [hb x hx], List.find?_cons_of_pos (by simp [hj])]
  rfl

theorem erase_front {before rest : List Rec} {j : Rec} (hb : ∀ x ∈ before, (Desc.ofRec x).dkind ≠ 4) (hj : (Desc.ofRec j).dkind = 4) :
    (before ++ j :: rest).erase j = before ++ rest := by
  have hnot : j ∉ before := fun h => hb j h hj
  rw [List.erase_append_right _ hnot, List.erase_cons_head]

/-- The registers that a crew writes as it takes a job. -/
def crewReg (c a : Nat) : Prop := a = Reg.engLateCnt ∨ a = Reg.crwJobs c ∨ a = Reg.crwStat c

/-- A crew with a job and its parts, none reported yet. -/
def crewWith (j : Rec) (parts : List (Bool × Nat × Nat × Nat)) : CrwSt :=
  { job := some j, parts := parts, left := parts.map fun p => (p.1, p.2.1), done := [], due := false }

/-- A crew holds the job it has taken, before it passes its parts on. -/
def State.crewHolds (s : State) (c : Nat) (j : Rec) : State :=
  let d := Desc.ofRec j
  let s := (s.takeJob (s.jobQ true c) j).jobStarts d.tag (s.parentOf true c d.tag).isSome
  let s := s.onCrew c fun _ => crewWith j (s.divide c d.line d.lines)
  (s.countPerf (Reg.crwJobs c) 31 1).showCrew c

/-- A part goes to its member's queue. -/
def State.passPart (j : Rec) (p : Bool × Nat × Nat × Nat) (t : State) : State :=
  t.pushOr (t.jobQ p.1 p.2.1) (subJob j p.2.2.1 p.2.2.2) .crew

theorem jobStarts_keeps (s : State) (tag : Nat) (part : Bool) :
    keeps (fun s => (s.que, s.jik.crews)) (fun a => a = Reg.engLateCnt) s (s.jobStarts tag part) := by
  unfold State.jobStarts
  split
  · exact keeps.refl s
  · next x _ =>
    have h := fun b : Bool => keeps_onlyIf (π := fun s => (s.que, s.jik.crews)) (R := fun a => a = Reg.engLateCnt) b
      (fun t => t.countPerf Reg.engLateCnt 31 1) (keeps_wr (fun _ _ _ => rfl) s _ rfl)
    exact ⟨(h _).1, (h _).2⟩

theorem divide_congr {s t : State} {c : Nat} (hc : t.rd (Reg.crwCfg c) = s.rd (Reg.crwCfg c))
    (hm : ∀ m < 32, t.rd (Reg.crwMember c m) = s.rd (Reg.crwMember c m)) (first lines : Nat) :
    t.divide c first lines = s.divide c first lines := by
  have hn : t.f (Reg.crwCfg c) 28 24 = s.f (Reg.crwCfg c) 28 24 := by rw [State.f, State.f, hc]
  have hms : (upto (s.f (Reg.crwCfg c) 28 24)).map (t.member c) = (upto (s.f (Reg.crwCfg c) 28 24)).map (s.member c) := by
    refine List.map_congr_left fun m hlt => ?_
    have : m < 32 := Nat.lt_trans (List.mem_range.1 hlt) (bf_lt _ 28 24)
    rw [State.member, State.member, hm m this]
  simp only [State.divide, hn, hms]

/-- The state in which a crew has taken a job off its queue. -/
def State.crewTook (s : State) (c : Nat) (j : Rec) : State :=
  (s.takeJob (s.jobQ true c) j).jobStarts (Desc.ofRec j).tag ((s.takeJob (s.jobQ true c) j).parentOf true c (Desc.ofRec j).tag).isSome

theorem crewTook_rd (s : State) (c : Nat) (j : Rec) {a : Nat} (ha : a ≠ Reg.engLateCnt) : (s.crewTook c j).rd a = s.rd a :=
  (jobStarts_keeps _ _ _).rd ha

theorem crewTook_que (s : State) (c : Nat) (j : Rec) : (s.crewTook c j).que = (s.takeJob (s.jobQ true c) j).que :=
  (Prod.mk.inj (jobStarts_keeps (s.takeJob (s.jobQ true c) j) (Desc.ofRec j).tag _).1).1

theorem crewTook_crews (s : State) (c : Nat) (j : Rec) : (s.crewTook c j).jik.crews = s.jik.crews :=
  (Prod.mk.inj (jobStarts_keeps (s.takeJob (s.jobQ true c) j) (Desc.ofRec j).tag _).1).2

theorem crewTook_divide (s : State) (c : Nat) (j : Rec) (first lines : Nat) :
    (s.crewTook c j).divide c first lines = s.divide c first lines := by
  refine divide_congr (crewTook_rd s c j ?_) (fun m _ => crewTook_rd s c j ?_) _ _
  · simp only [Reg.crwCfg, Reg.engLateCnt]; omega
  · simp only [Reg.crwMember, Reg.engLateCnt]; omega

theorem crewHolds_eq (s : State) (c : Nat) (j : Rec) : s.crewHolds c j =
    (((s.crewTook c j).onCrew c fun _ => crewWith j (s.divide c (Desc.ofRec j).line (Desc.ofRec j).lines)).countPerf (Reg.crwJobs c) 31 1).showCrew c := by
  rw [← crewTook_divide s c j]; rfl

/-- What a crew that has taken a job holds. -/
theorem crewHolds_crew (s : State) (c : Nat) (j : Rec) :
    (s.crewHolds c j).crew c = crewWith j (s.divide c (Desc.ofRec j).line (Desc.ofRec j).lines) := by
  rw [crewHolds_eq]
  exact (s.crewTook c j).crew_onCrew_self c fun _ => crewWith j (s.divide c (Desc.ofRec j).line (Desc.ofRec j).lines)

theorem crewHolds_crew_ne (s : State) {c k : Nat} (j : Rec) (hk : k ≠ c) : (s.crewHolds c j).crew k = s.crew k := by
  rw [crewHolds_eq]
  refine ((s.crewTook c j).crew_onCrew_ne (fun _ => crewWith j (s.divide c (Desc.ofRec j).line (Desc.ofRec j).lines)) hk).trans ?_
  rw [State.crew, State.crew, crewTook_crews]

theorem crewHolds_rd (s : State) (c : Nat) (j : Rec) {a : Nat} (ha : ¬ crewReg c a) : (s.crewHolds c j).rd a = s.rd a := by
  rw [crewHolds_eq]
  refine (State.rd_wr_ne _ _ fun h => ha (.inr (.inr h))).trans ((State.rd_wr_ne _ _ fun h => ha (.inr (.inl h))).trans ?_)
  exact crewTook_rd s c j fun h => ha (.inl h)

theorem crewHolds_queue_self (s : State) {c : Nat} {j : Rec} {before rest : List Rec}
    (h : (s.queue (s.jobQ true c)).held = before ++ j :: rest) (hb : ∀ x ∈ before, (Desc.ofRec x).dkind ≠ 4) (hj : (Desc.ofRec j).dkind = 4) :
    ((s.crewHolds c j).queue (s.jobQ true c)).held = before ++ rest := by
  rw [crewHolds_eq]
  refine (congrArg QueSt.held ((State.queue_congr (crewTook_que s c j) _).trans (s.queue_onQueue_self _ _))).trans ?_
  rw [h]
  exact erase_front hb hj

theorem crewHolds_queue_ne (s : State) {c k : Nat} (j : Rec) (hk : k ≠ s.jobQ true c) : (s.crewHolds c j).queue k = s.queue k := by
  rw [crewHolds_eq]
  exact (State.queue_congr (crewTook_que s c j) _).trans (s.queue_onQueue_ne _ hk)

/-- A crew takes the oldest job of its queue, and passes its parts on. -/
theorem crewTakeJob_takes {s : State} {c : Nat} {j : Rec} (hidle : (s.crew c).job = none) (hg : s.jik.guard = false)
    (hclk : s.engClock = true) (hon : s.b (Reg.crwCfg c) 31 = true) (hf : s.frontJob (s.jobQ true c) = some j) :
    crewTakeJob c s = forAll (s.divide c (Desc.ofRec j).line (Desc.ofRec j).lines) (State.passPart j) (s.crewHolds c j) := by
  rw [← crewTook_divide s c j, crewTakeJob, if_neg (by simp [hidle, hg, hclk, hon]), hf]
  rfl

/-- The registers that a crew writes as it takes a job and passes its parts on. -/
def partReg (c a : Nat) : Prop := crewReg c a ∨ ∃ q, pushReg q a

theorem jobQ_congr {s t : State} {c : Nat} (h : ∀ a, ¬ partReg c a → t.rd a = s.rd a) (crew : Bool) (n : Nat) :
    t.jobQ crew n = s.jobQ crew n := by
  unfold State.jobQ State.f
  rw [h (Reg.crwQcfg n), h (Reg.engCfg n)]
  all_goals
    rintro ((h | h | h) | ⟨q, h | h | h⟩)
    · simp only [Reg.crwQcfg, Reg.engCfg, Reg.engLateCnt] at h; omega
    · simp only [Reg.crwQcfg, Reg.engCfg, Reg.crwJobs] at h; omega
    · simp only [Reg.crwQcfg, Reg.engCfg, Reg.crwStat] at h; omega
    · simp only [Reg.crwQcfg, Reg.engCfg, Reg.quePushes] at h; omega
    · simp only [Reg.crwQcfg, Reg.engCfg, Reg.queHwm] at h; omega
    · exact notDrop (.inr (by simp only [Reg.crwQcfg, Reg.engCfg]; omega)) h

theorem pushOr_rd (s : State) (q : Nat) (r : Rec) (o : PushFrom) {a : Nat} (ha : ¬ pushReg q a) : (s.pushOr q r o).rd a = s.rd a := by
  unfold State.pushOr
  split
  · rfl
  · split
    · exact s.append_rd q r ha
    · rfl

theorem hold_queue_ne (s : State) {q k : Nat} (r : Rec) (o : PushFrom) (hk : k ≠ q) : (s.hold q r o).queue k = s.queue k :=
  s.queue_onQueue_ne (fun x => { x with waits := x.waits ++ [{ desc := r, order := s.jik.pushes, by_ := o }] }) hk

theorem pushOr_queue_ne (s : State) {q k : Nat} (r : Rec) (o : PushFrom) (hk : k ≠ q) : (s.pushOr q r o).queue k = s.queue k := by
  unfold State.pushOr
  split
  · rfl
  · split
    · exact s.append_queue_ne r hk
    · exact hold_queue_ne s r o hk

/-- Passing parts on changes no crew, and no queue but those of the members. -/
theorem passParts_keep {s : State} {c : Nat} (j : Rec) (parts : List (Bool × Nat × Nat × Nat)) :
    let t := forAll parts (State.passPart j) (s.crewHolds c j)
    (∀ k, t.crew k = (s.crewHolds c j).crew k) ∧
      ∀ q, (∀ p ∈ parts, s.jobQ p.1 p.2.1 ≠ q) → t.queue q = (s.crewHolds c j).queue q := by
  have hrd : ∀ a, ¬ partReg c a → (s.crewHolds c j).rd a = s.rd a := fun a ha => crewHolds_rd s c j fun h => ha (.inl h)
  have hstep (p : Bool × Nat × Nat × Nat) (t : State) (h : ∀ a, ¬ partReg c a → t.rd a = s.rd a) :
      ∀ a, ¬ partReg c a → (t.passPart j p).rd a = s.rd a :=
    fun a ha => (pushOr_rd t _ _ _ fun h' => ha (.inr ⟨_, h'⟩)).trans (h a ha)
  refine ⟨fun k => ?_, fun q hq => ?_⟩
  · refine forAll_field (fun t => t.crew k) (State.passPart j) parts (fun p _ t => ?_) _
    exact congrArg (fun d => nget (fun _ => CrwSt.init) d.2.1 k) (pushOr_duty t _ _ _)
  · have h := forAll_keeps (fun t => (∀ a, ¬ partReg c a → t.rd a = s.rd a) ∧ t.queue q = (s.crewHolds c j).queue q) (State.passPart j) parts
      (s.crewHolds c j) (fun p hp t ht => ⟨hstep p t ht.1, ?_⟩) ⟨hrd, rfl⟩
    · exact h.2
    · have hne : q ≠ t.jobQ p.1 p.2.1 := by rw [jobQ_congr ht.1]; exact (hq p hp).symm
      exact (pushOr_queue_ne t _ _ hne).trans ht.2

theorem queReg_not_crewReg (c q : Nat) : ¬ crewReg c (Reg.queCfg q) ∧ ¬ crewReg c (Reg.queSize q) := by
  constructor <;> rintro (h | h | h) <;> simp only [Reg.queCfg, Reg.queSize, Reg.engLateCnt, Reg.crwJobs, Reg.crwStat] at h <;> omega

/-- A single part enters its member's queue while it is open. -/
theorem passPart_single {s : State} {c : Nat} (j : Rec) {p : Bool × Nat × Nat × Nat} (hne : s.jobQ p.1 p.2.1 ≠ s.jobQ true c)
    (hcfg : s.rd (Reg.queCfg (s.jobQ p.1 p.2.1)) ≠ 0) (hopen : s.queueOpen (s.jobQ p.1 p.2.1) = true) :
    (((s.crewHolds c j).passPart j p).queue (s.jobQ p.1 p.2.1)).held =
      (s.queue (s.jobQ p.1 p.2.1)).held ++ [subJob j p.2.2.1 p.2.2.2] := by
  obtain ⟨hr1, hr2⟩ := queReg_not_crewReg c (s.jobQ p.1 p.2.1)
  have hq : (s.crewHolds c j).jobQ p.1 p.2.1 = s.jobQ p.1 p.2.1 :=
    jobQ_congr (c := c) (fun a ha => crewHolds_rd s c j fun h => ha (.inl h)) _ _
  have hopen' := (queueOpen_congr (crewHolds_queue_ne s j hne) (crewHolds_rd s c j hr2)).trans hopen
  rw [State.passPart, hq, State.pushOr_open _ _ ((crewHolds_rd s c j hr1).trans_ne hcfg) hopen', State.append_held, crewHolds_queue_ne s j hne]

/-! ### The manifest (R231) -/

theorem bf_pair_ne_zero (w : Word) : (bf w 3 2 ≠ 0) ↔ (bit w 2 || bit w 3) = true := by
  have h0 : (w.extractLsb' 2 2).getLsbD 0 = w.getLsbD 2 := by simp
  have h1 : (w.extractLsb' 2 2).getLsbD 1 = w.getLsbD 3 := by simp
  unfold bf bit
  rw [← h0, ← h1]
  generalize w.extractLsb' 2 (3 + 1 - 2) = v
  revert v
  decide

/-- A record's start is noted. -/
def State.noteRan (s : State) (r : Nat) : State := s.onJik fun y => { y with ran := y.ran ++ [r] }

theorem manifestRecordStart_not {r : Nat} {s : State} (h : s.recRuns r = false ∨ r ∈ s.jik.ran) : manifestRecordStart r s = s := by
  rw [manifestRecordStart, if_pos]
  rcases h with h | h
  · simp [h]
  · simp [h]

/-- A record is late, throttled away, or finds the engines stopped or in the guard interval (R231, R237, R239). -/
def State.recBarred (s : State) (r : Nat) : Bool :=
  ((bit (s.recWord r 0) 2 || bit (s.recWord r 0) 3) && s.thm.inForce) || !s.engClock || s.jik.guard ||
    decide (s.deadlineNs ≤ (s.recWord r 2).toNat)

theorem noteRan_recBarred (s : State) (r : Nat) : (s.noteRan r).recBarred r = s.recBarred r := rfl

theorem manifestRecordStart_barred {r : Nat} {s : State} (hr : s.recRuns r = true) (hn : r ∉ s.jik.ran) (h : s.recBarred r = true) :
    manifestRecordStart r s = (s.noteRan r).recSkip r := by
  rw [← noteRan_recBarred] at h
  rw [manifestRecordStart, if_neg (by simp [hr, hn])]
  exact if_pos h

/-- A record with no input stopped and no output slot to claim pushes its job. -/
theorem manifestRecordStart_runs {r : Nat} {s : State} (hr : s.recRuns r = true) (hn : r ∉ s.jik.ran) (h : s.recBarred r = false)
    (hin : bit (s.recWord r 7) 11 = false) (hout : (bf (s.recWord r 5) 31 16).testBit 10 = false) :
    manifestRecordStart r s = (s.noteRan r).recPush r none := by
  rw [← noteRan_recBarred] at h
  have hin' : bit ((s.noteRan r).recWord r 7) 11 = false := hin
  have hout' : (bf ((s.noteRan r).recWord r 5) 31 16).testBit 10 = false := hout
  rw [manifestRecordStart, if_neg (by simp [hr, hn])]
  refine (if_neg (ne_true_of_eq_false h)).trans ((if_neg fun hc => ?_).trans (if_neg fun hc => ?_))
  · exact Bool.false_ne_true (hin'.symm.trans (Bool.and_eq_true_iff.1 hc).1)
  · exact Bool.false_ne_true (hout'.symm.trans (Bool.and_eq_true_iff.1 hc).1)

theorem manifestRecordStart_skips {r : Nat} {s : State} (hr : s.recRuns r = true) (hn : r ∉ s.jik.ran)
    (h : s.engClock = false ∨ s.deadlineNs ≤ (s.recWord r 2).toNat ∨ (s.thm.inForce = true ∧ bf (s.recWord r 0) 3 2 ≠ 0)) :
    manifestRecordStart r s = (s.noteRan r).recSkip r := by
  refine manifestRecordStart_barred hr hn ?_
  rw [State.recBarred]
  rcases h with h | h | ⟨h, hw⟩
  · rw [h, Bool.not_false, Bool.or_true, Bool.true_or, Bool.true_or]
  · rw [decide_eq_true h, Bool.or_true]
  · rw [h, (bf_pair_ne_zero _).1 hw, Bool.and_self, Bool.true_or, Bool.true_or, Bool.true_or]

theorem testBit_output (w : Word) : (bf w 31 16).testBit 10 = bit w 26 := by
  unfold bf bit
  rw [← BitVec.getLsbD, BitVec.getLsbD_extractLsb']
  simp

theorem manifestRecordStart_pushes {r : Nat} {s : State} (hr : s.recRuns r = true) (hn : r ∉ s.jik.ran) (hclk : s.engClock = true)
    (hg : s.jik.guard = false) (hd : (s.recWord r 2).toNat < s.deadlineNs) (hth : s.thm.inForce = false ∨ bf (s.recWord r 0) 3 2 = 0)
    (hin : bit (s.recWord r 7) 11 = false) (hout : bit (s.recWord r 5) 26 = false) :
    manifestRecordStart r s = (s.noteRan r).recPush r none := by
  refine manifestRecordStart_runs hr hn ?_ hin ((testBit_output _).trans hout)
  have hrun : ((bit (s.recWord r 0) 2 || bit (s.recWord r 0) 3) && s.thm.inForce) = false := by
    rcases hth with h | h
    · rw [h, Bool.and_false]
    · have : (bit (s.recWord r 0) 2 || bit (s.recWord r 0) 3) = false := by
        rw [← Bool.not_eq_true, ← bf_pair_ne_zero]; exact not_not_intro h
      rw [this, Bool.false_and]
  rw [State.recBarred, hrun, hclk, hg, decide_eq_false (Nat.not_le.2 hd)]
  rfl

/-- The fields of a record's `JOB` (R230, R231). -/
theorem recJob_fields (s : State) (r : Nat) : let d := Desc.ofRec (s.recJob r none)
    d.dkind = 4 ∧ d.tag = bf (s.recWord r 1) 9 0 ∧ d.stroke = s.clock.stroke.toNat % 65536 ∧ d.line = bf (s.recWord r 4) 12 0 ∧
      d.lines = bf (s.recWord r 4) 28 16 ∧ d.kernel = bf (s.recWord r 1) 27 16 ∧ d.addr = bf (s.recWord r 6) 23 0 := by
  have h1 := bf_lt (s.recWord r 1) 9 0
  have h2 := bf_lt (s.recWord r 4) 12 0
  have h3 := bf_lt (s.recWord r 4) 28 16
  have h4 := bf_lt (s.recWord r 1) 27 16
  have h5 := bf_lt (s.recWord r 6) 23 0
  simp only [State.recJob, ofRec_toRec, Desc.cut, Desc.lines, Desc.kernel, State.stroke16]
  refine ⟨trivial, ?_, ?_, ?_, ?_, ?_, ?_⟩ <;> omega

/-- A record's flight as its job is pushed. -/
def recFlight (s : State) (r : Nat) : Flight :=
  { crew := bit (s.recWord r 0) 1, target := bf (s.recWord r 0) 23 16, desc := s.recJob r none, record := some r, out := none
    throttled := false, behind := s.targetBusy (bit (s.recWord r 0) 1) (bf (s.recWord r 0) 23 16), ran := false }

theorem recPush_open {s : State} {r : Nat} (hcfg : s.rd (Reg.queCfg (s.jobQ (bit (s.recWord r 0) 1) (bf (s.recWord r 0) 23 16))) ≠ 0)
    (hopen : s.queueOpen (s.jobQ (bit (s.recWord r 0) 1) (bf (s.recWord r 0) 23 16)) = true) : s.recPush r none =
    (s.onJik fun y => { y with flight := nput (bf (s.recWord r 1) 9 0) (recFlight s r) y.flight }).append
      (s.jobQ (bit (s.recWord r 0) 1) (bf (s.recWord r 0) 23 16)) (s.recJob r none) := by
  unfold State.recPush
  dsimp only
  rw [if_neg hcfg]
  exact State.pushOr_open (s := s.onJik fun y => { y with flight := nput (bf (s.recWord r 1) 9 0) (recFlight s r) y.flight }) _ _ hcfg hopen

/-! ### The deadline (R234) -/

theorem ndel_of_not_found {α : Type} {k : Nat} {m : NMap α} (h : nfind k m = none) : ndel k m = m := by
  induction m with
  | nil => rfl
  | cons p m ih =>
    rw [nfind] at h
    rw [ndel]
    split at h
    · cases h
    · next hne => rw [if_neg hne, ih h]

theorem not_mem_ndel {α : Type} (k : Nat) (m : NMap α) : ∀ p ∈ ndel k m, p.1 ≠ k := by
  induction m with
  | nil => simp [ndel]
  | cons q m ih =>
    rw [ndel]
    split
    · exact ih
    · next hne => exact List.forall_mem_cons.2 ⟨hne, ih⟩

theorem foldl_ndel_nil {α : Type} (ks : List Nat) (m : NMap α) (h : ∀ p ∈ m, p.1 ∈ ks) : ks.foldl (fun m k => ndel k m) m = [] := by
  induction ks generalizing m with
  | nil =>
    cases m with
    | nil => rfl
    | cons p m => exact absurd (h p List.mem_cons_self) (List.not_mem_nil)
  | cons k ks ih =>
    refine ih _ fun p hp => ?_
    rcases List.mem_cons.1 (h p (mem_ndel hp)) with hk | hk
    · exact absurd hk (not_mem_ndel k m p hp)
    · exact hk

theorem jobDone_flight (s : State) (tag status result : Nat) : (s.jobDone tag status result).jik.flight = ndel tag s.jik.flight := by
  unfold State.jobDone
  split
  · next h => exact (ndel_of_not_found h).symm
  · next x _ =>
    exact (congrArg (fun d => d.2.2.1) (pushDone_duty (((s.jobOver x status).freeTag tag)) _ _)).trans
      (congrArg (ndel tag) (keeps_jobOver s x status).flight)

theorem cancelJob_flight (s : State) (tag : Nat) : (s.cancelJob tag).jik.flight = ndel tag s.jik.flight := by
  unfold State.cancelJob
  split
  · next h => exact (ndel_of_not_found h).symm
  · have hlast (b : Bool) (t : State) : (onlyIf b (fun t => t.countErr Reg.engOvrThrCnt 24 1) t).jik = t.jik :=
      onlyIf_field State.jik b _ t (countErr_jik _ _ _ _)
    dsimp only
    rw [hlast, countErr_jik, State.raise_jik]
    exact jobDone_flight s tag _ 0

theorem forAll_cancel_flight (tags : List Nat) (s : State) :
    (forAll tags (fun tag t => t.cancelJob tag) s).jik.flight = tags.foldl (fun m k => ndel k m) s.jik.flight := by
  induction tags generalizing s with
  | nil => rfl
  | cons tag tags ih => rw [forAll_cons, ih, cancelJob_flight, List.foldl_cons]

theorem cancelAll_flight (s : State) : (forAll (s.jik.flight.map (·.1)) (fun tag t => t.cancelJob tag) s).jik.flight = [] :=
  (forAll_cancel_flight _ s).trans (foldl_ndel_nil _ _ fun _ hp => List.mem_map_of_mem hp)

theorem vacateCrew_flight (s : State) (c : Nat) : (s.vacate true c).jik.flight = s.jik.flight :=
  (keeps_releaseCrew (R := fun _ => True) (fun _ _ => trivial) ((s.onCrew c fun _ => CrwSt.init).showCrew c) c).flight

/-- The state in which the deadline has cancelled every job in flight. -/
def State.cancelledAll (s : State) : State :=
  let s := forAll (s.que.map (·.1)) (fun q t => t.letGo q) s
  let s := forAll (s.jik.engs.map (·.1)) (fun e t => t.cutEngine e) s
  let s := forAll (s.que.map (·.1)) (fun q t => t.dropJobs q) s
  forAll (s.jik.flight.map (·.1)) (fun tag t => t.cancelJob tag) s

/-- Every crew holds its job no more. -/
def State.vacateCrews (s : State) : State := forAll (s.jik.crews.map (·.1)) (fun c t => t.vacate true c) s

/-- The slots of cancelled and faulted jobs become EMPTY. -/
def State.emptyVoid (s : State) : State := forAll s.jik.void (fun p t => (t.onSlot p.1 p.2 SlotSt.emptied).showSlip p.1) s

theorem deadline_eq (s : State) :
    deadline s = s.cancelledAll.vacateCrews.emptyVoid.onJik fun y => { y with void := [], guard := true } := rfl

theorem cancelledAll_flight (s : State) : s.cancelledAll.jik.flight = [] := cancelAll_flight _

theorem vacateCrews_flight (s : State) : s.vacateCrews.jik.flight = s.jik.flight :=
  forAll_field (fun t => t.jik.flight) _ _ (fun c _ t => vacateCrew_flight t c) s

theorem emptyVoid_flight (s : State) : s.emptyVoid.jik.flight = s.jik.flight :=
  forAll_field (fun t => t.jik.flight) _ _ (fun (q : Nat × Nat) _ t =>
    (keeps_showSlip (R := fun _ => True) (fun _ _ => trivial) (t.onSlot q.1 q.2 SlotSt.emptied) q.1).flight) s

/-- After the deadline no tag is in flight, no slot is void, and the guard interval has begun. -/
theorem deadline_leaves (s : State) : (deadline s).jik.flight = [] ∧ (deadline s).jik.void = [] ∧ (deadline s).jik.guard = true := by
  simp only [deadline_eq, State.onJik, and_true]
  exact (emptyVoid_flight _).trans ((vacateCrews_flight _).trans (cancelledAll_flight s))

/-! ### Lines (R228) -/

/-- The line's stroke is not the job's: the crew holds no job, or one of a later stroke (R228). -/
def State.lineOld (s : State) (c : Nat) (d : Desc) : Bool :=
  match (s.crew c).job with | some j => serialNewer 16 (Desc.ofRec j).stroke d.stroke | none => true

/-- The data queues that a line is routed to (R228). -/
def State.lineDests (s : State) (c l : Nat) : List Nat :=
  ((s.lineMembers c l).map fun m => s.dataQ m.1 m.2).filter fun k => s.rd (Reg.queCfg k) != 0

theorem crewLineRoute_line {s : State} {c : Nat} {r : Rec} {rest : List Rec} (hheld : (s.queue (s.dataQ true c)).held = r :: rest)
    (hclk : s.engClock = true) : crewLineRoute c s =
      if (Desc.ofRec r).dkind ≠ 0 then (s.pop (s.dataQ true c)).2
      else if s.lineOld c (Desc.ofRec r) || (s.lineMembers c (Desc.ofRec r).line).isEmpty then (s.pop (s.dataQ true c)).2.stale (s.dataQ true c)
      else if (s.lineDests c (Desc.ofRec r).line).all s.queueOpen then
        forAll (s.lineDests c (Desc.ofRec r).line) (fun k t => t.append k r) (s.pop (s.dataQ true c)).2
      else s := by
  rw [crewLineRoute, hheld]
  exact if_neg (by rw [hclk]; decide)

/-! ### The statement -/

theorem recPush_leaves {s : State} {r : Nat} (hcfg : s.rd (Reg.queCfg (s.jobQ (bit (s.recWord r 0) 1) (bf (s.recWord r 0) 23 16))) ≠ 0)
    (hopen : s.queueOpen (s.jobQ (bit (s.recWord r 0) 1) (bf (s.recWord r 0) 23 16)) = true) :
    let q := s.jobQ (bit (s.recWord r 0) 1) (bf (s.recWord r 0) 23 16)
    let t := (s.noteRan r).recPush r none
    (t.queue q).held = (s.queue q).held ++ [s.recJob r none] ∧ (∀ k, k ≠ q → t.queue k = s.queue k) ∧
      (nfind (bf (s.recWord r 1) 9 0) t.jik.flight).map (fun x => (x.desc, x.record, x.throttled)) = some (s.recJob r none, some r, false) ∧
      t.jik.ran = s.jik.ran ++ [r] ∧ t.jik.crews = s.jik.crews ∧ t.jik.engs = s.jik.engs ∧ sameMemory s t := by
  intro q t
  have ht : t = ((s.noteRan r).onJik fun y => { y with flight := nput (bf (s.recWord r 1) 9 0) (recFlight (s.noteRan r) r) y.flight }).append q
      (s.recJob r none) := recPush_open (s := s.noteRan r) hcfg hopen
  have hjik : t.jik = ((s.noteRan r).onJik fun y =>
      { y with flight := nput (bf (s.recWord r 1) 9 0) (recFlight (s.noteRan r) r) y.flight }).jik := by rw [ht, State.append_jik]
  refine ⟨?_, fun k hk => ?_, ?_, ?_, ?_, ?_, kept_sameMemory ?_⟩
  · rw [ht, State.append_held]; rfl
  · rw [ht, State.append_queue_ne _ _ hk]; rfl
  · rw [hjik]
    exact congrArg _ (nfind_nput_self _ _ _)
  · rw [hjik]; rfl
  · rw [hjik]; rfl
  · rw [hjik]; rfl
  · rw [ht]; simp [State.noteRan]

/-- Settles O30: crews and the dispatcher leave other queues and all memory alone, and a job line with a clock is routed by its members' parts. -/
theorem crewsAndTheDispatcherHandleJobs : Obligations.CrewsAndTheDispatcherHandleJobs := by
  intro s hup
  refine ⟨fun c h => ?_, fun c j before rest hidle hg hclk hon hheld hb hj => ?_, fun c h => ?_, fun c r rest hheld hclk => ?_,
    fun r h => (onCore_fabric _ hup).trans (congrArg _ (manifestRecordStart_not h)),
    fun r hr hn h => (onCore_fabric _ hup).trans (congrArg _ (manifestRecordStart_skips hr hn h)),
    fun r hr hn hclk hg hd hth hin hout => ?_, completes_of_exec (onCore_fabric _ hup) (deadline_leaves s)⟩
  · refine (onCore_fabric _ hup).trans (congrArg _ (if_pos ?_))
    simpa using h
  · intro parts
    refine completes_of_exec ((onCore_fabric _ hup).trans (congrArg _ (crewTakeJob_takes hidle hg hclk hon (frontJob_found hheld hb hj)))) ?_
    obtain ⟨hcrew, hqueue⟩ := passParts_keep (s := s) (c := c) j parts
    have hself := (hcrew c).trans (crewHolds_crew s c j)
    refine ⟨?_, ?_, ?_, fun k hk => (hcrew k).trans (crewHolds_crew_ne s j hk), ?_, fun h => ?_, fun p hp hne hcfg hopen => ?_⟩
    · rw [hself]; rfl
    · rw [hself]; rfl
    · rw [hself]; rfl
    · exact kept_sameMemory ((congrArg State.kept (crewTakeJob_takes hidle hg hclk hon (frontJob_found hheld hb hj))).symm.trans
        (crewTakeJob_kept c s))
    · rw [hqueue _ h, crewHolds_queue_self s hheld hb hj]
    · exact (congrArg (fun l => ((forAll l (State.passPart j) (s.crewHolds c j)).queue (s.jobQ p.1 p.2.1)).held) hp).trans
        (passPart_single j hne hcfg hopen)
  · refine (onCore_fabric _ hup).trans (congrArg _ ?_)
    rcases h with h | h
    · rw [crewLineRoute, h]
    · cases hl : (s.queue (s.dataQ true c)).held with
      | nil => rw [crewLineRoute, hl]
      | cons r rest =>
        rw [crewLineRoute, hl]
        exact if_pos (by rw [h]; rfl)
  · intro d taken members dests old
    have hroute := crewLineRoute_line hheld hclk
    refine ⟨fun hk => ?_, fun hk h => ?_, fun hk ho hm hopen => ?_, fun hk ho hm hclosed => ?_⟩
    · exact (onCore_fabric _ hup).trans (congrArg _ (hroute.trans (if_pos hk)))
    · refine (onCore_fabric _ hup).trans (congrArg _ (hroute.trans ((if_neg (not_not_intro hk)).trans (if_pos ?_))))
      rcases h with h | h
      · exact (congrArg (· || members.isEmpty) h).trans (Bool.true_or _)
      · exact (congrArg (fun l => old || List.isEmpty l) h).trans (Bool.or_true _)
    · refine completes_of_exec ((onCore_fabric _ hup).trans (congrArg _ (hroute.trans ((if_neg (not_not_intro hk)).trans
        ((if_neg ?_).trans (if_pos (List.all_eq_true.2 hopen))))))) rfl
      exact fun h => (Bool.or_eq_true_iff.1 h).elim (fun h => Bool.false_ne_true (ho.symm.trans h)) fun h => hm (List.isEmpty_iff.1 h)
    · refine (onCore_fabric _ hup).trans (congrArg _ (hroute.trans ((if_neg (not_not_intro hk)).trans ((if_neg ?_).trans (if_neg ?_)))))
      · exact fun h => (Bool.or_eq_true_iff.1 h).elim (fun h => Bool.false_ne_true (ho.symm.trans h)) fun h => hm (List.isEmpty_iff.1 h)
      · obtain ⟨k, hmem, hk⟩ := hclosed
        exact fun h => Bool.false_ne_true (hk.symm.trans (List.all_eq_true.1 h k hmem))
  · intro q hcfg hopen j
    obtain ⟨hkind, htag, hstroke, hline, hlines, hkernel, haddr⟩ := recJob_fields s r
    obtain ⟨hq, hqs, hflight, hran, hcrews, hengs, hmem⟩ := recPush_leaves hcfg hopen
    exact completes_of_exec ((onCore_fabric _ hup).trans (congrArg _ (manifestRecordStart_pushes hr hn hclk hg hd hth hin hout)))
      ⟨hq, hqs, hkind, htag, hstroke, hline, hlines, hkernel, haddr, hflight, hran, hcrews, hengs, hmem⟩

end Sys2Proof.Machine
end

section
/-! PROOF. The chart loader's host commands: the key hash, flash operations, pushes and pulls (chapter 2). -/

namespace Sys2Proof.Machine

/-! ### Rules shared by the register commands -/

theorem completes_takes {c : Instr} {m : Master} {a : Nat} {w : Word} {s t : State} {P : State → Prop} (h : s.takesWrite m a w)
    (hc : exec c s = regCommand m a w s) (ht : s.regWrite m a w = t) (hp : P t) : completes c s P :=
  completes_of_exec (hc.trans ((regCommand_takes h).trans (congrArg _ ht))) hp

theorem exec_takes {c : Instr} {m : Master} {a : Nat} {w : Word} {s t : State} (h : s.takesWrite m a w)
    (hc : exec c s = regCommand m a w s) (ht : s.regWrite m a w = t) : exec c s = .next t :=
  hc.trans ((regCommand_takes h).trans (congrArg _ ht))

/-- A key written at `key` is still in time: at most 1 ms old (R34, R39). -/
def keyFresh (now : Nat) (key : Option Nat) : Bool := match key with | some t => decide (now ≤ t + 1000000) | none => false

theorem keyFresh_iff (now : Nat) (key : Option Nat) : keyFresh now key = true ↔ ∃ t, key = some t ∧ now ≤ t + 1000000 := by
  cases key <;> simp [keyFresh]

/-! ### The chart key hash (R34, R49) -/

theorem otpCtrlWrite_second {w : Word} (s : State) (h : bf w 31 16 = 0xC0DE) (hb : bit w 0 = true) : otpCtrlWrite w s =
    if keyFresh s.now s.loader.otpKeyAt = true ∧ s.loader.otpHash.isNone = true ∧ s.loader.otpData.length = 8 then
      { s with loader := { s.loader with
          otpKeyAt := none, otpHash := some (s.loader.otpData.flatMap fun v => leBytes 4 v.toNat), otpTest := bit w 1 } }
    else { s with loader := { s.loader with otpKeyAt := none } } := by
  rw [otpCtrlWrite]
  simp only [h, hb, true_and, State.onLoader]
  rfl

/-- The second write of the key sequence burns, or has no effect but to end the sequence. -/
theorem otp_burns {c : Instr} {m : Master} {w : Word} {s : State} (h : s.takesWrite m Reg.chtOtpCtrl w)
    (hc : exec c s = regCommand m Reg.chtOtpCtrl w s) (hk : bf w 31 16 = 0xC0DE) (hb : bit w 0 = true) :
    let inTime := ∃ t0, s.loader.otpKeyAt = some t0 ∧ s.now ≤ t0 + 1000000
    (inTime → s.loader.otpHash = none → s.loader.otpData.length = 8 →
      completes c s fun t => t = { s with loader := { s.loader with
        otpKeyAt := none, otpHash := some (s.loader.otpData.flatMap fun v => leBytes 4 v.toNat), otpTest := bit w 1 } }) ∧
    (¬ inTime ∨ s.loader.otpHash ≠ none ∨ s.loader.otpData.length ≠ 8 →
      exec c s = .next { s with loader := { s.loader with otpKeyAt := none } }) := by
  have hw := (regWrite_chtOtpCtrl s m w).trans (otpCtrlWrite_second s hk hb)
  constructor
  · intro ht hn hl
    exact completes_takes h hc (hw.trans (if_pos ⟨(keyFresh_iff ..).2 ht, Option.isNone_iff_eq_none.2 hn, hl⟩)) rfl
  · intro hor
    refine exec_takes h hc (hw.trans (if_neg fun ⟨ht, hn, hl⟩ => ?_))
    rcases hor with h' | h' | h'
    · exact h' ((keyFresh_iff ..).1 ht)
    · exact h' (Option.isNone_iff_eq_none.1 hn)
    · exact h' hl

/-- Settles O31: the key hash takes the value burnt only by a second key write in time, with eight words and no hash yet. -/
theorem theKeySequenceBurnsTheKeyHash : Obligations.TheKeySequenceBurnsTheKeyHash := by
  intro m s
  refine ⟨fun h => completes_takes h rfl (regWrite_chtOtpCtrl s m _) rfl, fun w h => ?_, fun h => ?_, fun h => ?_⟩
  · refine completes_takes h rfl (regWrite_chtOtpData s m w) ⟨rfl, fun hl => ?_, fun hl => ?_⟩
    · have : s.loader.otpData.length - 7 = 0 := by omega
      simp [otpDataWrite, State.onLoader, this]
    · simp [otpDataWrite, State.onLoader, hl, List.drop_append]
  · exact otp_burns h rfl (by decide) (by decide)
  · exact otp_burns h rfl (by decide) (by decide)

/-! ### Flash operations (R39, R49) -/

theorem nfind_filter_key {α : Type} (p : Nat → Bool) (m : NMap α) (k : Nat) :
    nfind k (m.filter fun e => p e.1) = if p k = true then nfind k m else none := by
  induction m with
  | nil => simp [nfind]
  | cons e m ih =>
    obtain ⟨i, v⟩ := e
    by_cases hi : i = k
    · subst hi
      by_cases hp : p i = true <;> simp [nfind, hp, ih]
    · by_cases hp : p i = true <;> simp [nfind, hp, ih, hi]

/-- The loader's key of a flash operation is used up. -/
def State.flashClosed (s : State) : State := { s with loader := { s.loader with flashKeyAt := none } }

theorem flashCtrlWrite_eq {w : Word} (s : State) (hk : bf w 31 16 ≠ 0xA11C) : flashCtrlWrite w s =
    if bf w 31 16 = 0x5E5E ∧ keyFresh s.now s.loader.flashKeyAt = true ∧ bit w 0 = true then s.flashClosed.flashOp (bf w 3 2) true
    else if bf w 31 16 = 0 ∧ (!bit w 0) = true then s.flashClosed.flashOp (bf w 3 2) false else s.flashClosed := by
  rw [flashCtrlWrite, if_neg hk]
  rfl

theorem flashCtrlWrite_op {w : Word} {golden : Bool} (s : State) (hk : bf w 31 16 = if golden then 0x5E5E else 0) (hb : bit w 0 = golden)
    (ht : golden = true → keyFresh s.now s.loader.flashKeyAt = true) : flashCtrlWrite w s = s.flashClosed.flashOp (bf w 3 2) golden := by
  cases golden
  · rw [flashCtrlWrite_eq s (by simp [hk]), if_neg (by simp [hk]), if_pos ⟨hk, by rw [hb]; rfl⟩]
  · rw [flashCtrlWrite_eq s (by simp [hk]), if_pos ⟨hk, ht rfl, hb⟩]

theorem flashOp_busy (s : State) {op : Nat} {golden : Bool} (ho : op = 1 ∨ op = 2) (h : s.loadingFrom golden = true) :
    s.flashOp op golden = s.raiseFree .chtFlashBusy 0 := by
  rw [State.flashOp, if_neg (by omega), if_pos h]

theorem flashOp_erase (s : State) {golden : Bool} (h : s.loadingFrom golden = false) :
    let a := slotBase golden + s.f Reg.chtFlashAddr 31 12 * 4096 % 0x4000000
    s.flashOp 1 golden = { s with
      cflash := s.cflash.filter fun e => e.1 < a || a + 4096 ≤ e.1, loader := { s.loader with flashOpen := none } } := by
  rw [State.flashOp, if_neg (by omega), if_neg (by simp [h])]
  rfl

theorem flashOp_program (s : State) {golden : Bool} (h : s.loadingFrom golden = false) :
    s.flashOp 2 golden = { s with loader := { s.loader with
      flashOpen := some (slotBase golden + s.f Reg.chtFlashAddr 31 12 * 4096 % 0x4000000) } } := by
  rw [State.flashOp, if_neg (by omega), if_neg (by simp [h])]
  rfl

theorem nget_erased (m : NMap Byte) (a x : Nat) : nget erasedByte (m.filter fun e => e.1 < a || a + 4096 ≤ e.1) x =
    if a ≤ x ∧ x < a + 4096 then 0xFF else nget erasedByte m x := by
  rw [nget, nfind_filter_key (fun k => k < a || a + 4096 ≤ k)]
  by_cases h : a ≤ x ∧ x < a + 4096
  · rw [if_neg (by simpa using h), if_pos h]; rfl
  · rw [if_pos (by simpa using (by omega : x < a ∨ a + 4096 ≤ x)), if_neg h]; rfl

/-- The fields of the word that erases a sector of a slot. -/
theorem flashErase_key (golden : Bool) : let w : Word := if golden then 0x5E5E0005 else 0x4
    bf w 31 16 = (if golden then 0x5E5E else 0) ∧ bit w 0 = golden ∧ bf w 3 2 = 1 := by
  cases golden <;> decide

/-- The fields of the word that opens a sector of a slot. -/
theorem flashProgram_key (golden : Bool) : let w : Word := if golden then 0x5E5E0009 else 0x8
    bf w 31 16 = (if golden then 0x5E5E else 0) ∧ bit w 0 = golden ∧ bf w 3 2 = 2 := by
  cases golden <;> decide

/-- Settles O32: an operation in time on a slot that is not being loaded erases or opens its sector; any other leaves the flash. -/
theorem flashOperationsKeepToTheirSector : Obligations.FlashOperationsKeepToTheirSector := by
  intro m s
  refine ⟨fun h => completes_takes h rfl (regWrite_chtFlashCtrl s m _) rfl, fun golden => ?_⟩
  have hw := fun w => regWrite_chtFlashCtrl s m w
  obtain ⟨he1, he2, he3⟩ := flashErase_key golden
  obtain ⟨hp1, hp2, hp3⟩ := flashProgram_key golden
  refine ⟨fun h ht hl => ?_, fun h ht hl => ?_, fun h ht hl => ?_, fun h hg ht => ?_⟩
  · have herase := (congrArg (fun o => s.flashClosed.flashOp o golden) he3).trans (flashOp_erase s.flashClosed hl)
    refine completes_takes h rfl ((hw _).trans ((flashCtrlWrite_op s he1 he2 fun hg => (keyFresh_iff ..).2 (ht hg)).trans herase)) ?_
    exact ⟨rfl, nget_erased _ _⟩
  · have hopen := (congrArg (fun o => s.flashClosed.flashOp o golden) hp3).trans (flashOp_program s.flashClosed hl)
    exact completes_takes h rfl ((hw _).trans ((flashCtrlWrite_op s hp1 hp2 fun hg => (keyFresh_iff ..).2 (ht hg)).trans hopen)) rfl
  · refine exec_takes h rfl ((hw _).trans ((flashCtrlWrite_op s he1 he2 fun hg => (keyFresh_iff ..).2 (ht hg)).trans ?_))
    exact (congrArg (fun o => s.flashClosed.flashOp o golden) he3).trans (flashOp_busy s.flashClosed (.inl rfl) hl)
  · subst hg
    refine exec_takes h rfl ((hw _).trans ?_)
    have hlate : keyFresh s.now s.loader.flashKeyAt = false := Bool.eq_false_iff.2 fun h' => ht ((keyFresh_iff ..).1 h')
    rw [flashCtrlWrite_eq s (by decide), if_neg fun h' => Bool.false_ne_true (hlate.symm.trans h'.2.1), if_neg (by decide)]
    rfl

/-! ### Pushes and pulls (R35, R36) -/

theorem pump_phase (l : LoaderSt) : l.pump.phase = l.phase := rfl

theorem pump_push_length (l : LoaderSt) : l.pump.push.length ≤ l.push.length := by
  simp only [LoaderSt.pump, List.length_drop]
  omega

theorem loadStart_rd (s : State) (slot : Nat) {a : Nat} (h : a ≠ Reg.chtState) : (s.loadStart slot).rd a = s.rd a :=
  ((s.setLoad 1).rd_setF_ne 7 4 slot h).trans (s.rd_setF_ne 2 0 1 h)

theorem loadStart_sameRegs (s : State) (slot : Nat) : sameRegs s (s.loadStart slot) [Reg.chtState] :=
  fun _ h => loadStart_rd s slot (List.ne_of_not_mem_cons h)

theorem loadStart_loadSlot (s : State) {slot : Nat} (h : slot < 16) : (s.loadStart slot).loadSlot = slot :=
  ((s.setLoad 1).f_setF_self Reg.chtState 7 4 slot (by decide) (by decide)).trans (Nat.mod_eq_of_lt h)

theorem loadStart_loadState (s : State) (slot : Nat) : (s.loadStart slot).loadState = 1 := by
  have h : (s.loadStart slot).rd Reg.chtState = setFld (setFld (s.rd Reg.chtState) 2 0 1) 7 4 slot :=
    ((s.setLoad 1).rd_setF_self _ 7 4 slot).trans (congrArg (setFld · 7 4 slot) (s.rd_setF_self _ 2 0 1))
  exact (congrArg (bf · 2 0) h).trans ((bf_setFld_ne _ _ _ _ _ _ (by decide) (by decide)).trans (bf_setFld_self _ _ _ _ (by decide) (by decide)))

theorem chtCtrlWrite_go (s : State) : chtCtrlWrite 1 s =
    if s.loadState = 0 ∧ s.pins.straps % 4 = 2 ∧ s.loader.phase = .waiting then s.loadStart 4 else s := by
  rw [chtCtrlWrite, show bit (1 : Word) 0 = true by decide]
  simp only [Bool.true_and, Bool.and_eq_true, beq_iff_eq, decide_eq_true_eq, and_assoc]

/-- What a pushed word may leave: the loader's part, no memory, no register but the loader's state. -/
theorem pushData_leaves (w : Word) (qspi : Bool) (s : State) (h : s.loader.push.length + 4 ≤ 16384) :
    let t := pushData w qspi s
    t.loader.push.length ≤ 16384 ∧ sameMemory s t ∧ sameRegs s t [Reg.chtState] ∧
      (s.loader.amd = none → s.loader.phase ≠ .waiting → s.loadSlot ≠ 3 →
        t = { s with loader := { s.loader with push := s.loader.push ++ leBytes 4 w.toNat } }) := by
  have hlen : (s.loader.push ++ leBytes 4 w.toNat).length ≤ 16384 := by simpa [leBytes] using h
  have hsame : ∀ l, sameMemory s { s with loader := l } := fun _ => ⟨rfl, rfl, rfl, rfl, rfl⟩
  have hregs : ∀ l, sameRegs s { s with loader := l } [Reg.chtState] := fun _ _ _ => rfl
  intro t
  have ht : t = pushData w qspi s := rfl
  rw [pushData, if_neg (by omega)] at ht
  cases ha : s.loader.amd with
  | some a =>
    simp only [State.onLoader, ha] at ht
    split at ht <;> rw [ht]
    · exact ⟨Nat.zero_le _, hsame _, hregs _, nofun⟩
    · exact ⟨hlen, hsame _, hregs _, nofun⟩
  | none =>
    simp only [State.onLoader, ha] at ht
    by_cases hw : s.loader.phase = .waiting ∧ s.pins.straps % 4 = 1 ∧ qspi = true
    · rw [if_pos hw] at ht
      rw [ht]
      exact ⟨(pump_push_length _).trans hlen, ⟨rfl, rfl, rfl, rfl, rfl⟩, loadStart_sameRegs _ 3, fun _ h0 => absurd hw.1 h0⟩
    · rw [if_neg hw] at ht
      by_cases h3 : s.loadSlot = 3
      · rw [ht.trans (if_pos h3)]
        exact ⟨(pump_push_length _).trans hlen, hsame _, hregs _, fun _ _ h0 => absurd h3 h0⟩
      · rw [ht.trans (if_neg h3)]
        exact ⟨hlen, hsame _, hregs _, fun _ _ _ => by rw [← ha]⟩

/-- Settles O33: a pull starts a load in UNLOADED alone, and a pushed word stays within the buffer. -/
theorem pushAndPullFeedTheLoader : Obligations.PushAndPullFeedTheLoader := by
  intro m s
  refine ⟨fun h => ⟨fun h1 h2 h3 => ?_, fun hor => ?_⟩, fun k w h => ⟨fun hl => ?_, fun hl => ?_⟩⟩
  · refine completes_takes h rfl ((regWrite_chtCtrl s m 1).trans ((chtCtrlWrite_go s).trans (if_pos ⟨h1, h2, h3⟩))) ?_
    exact ⟨loadStart_loadState s 4, loadStart_loadSlot s (by decide), rfl, ⟨rfl, rfl, rfl, rfl, rfl⟩, loadStart_sameRegs s 4⟩
  · refine exec_takes h rfl ((regWrite_chtCtrl s m 1).trans ((chtCtrlWrite_go s).trans (if_neg ?_)))
    rintro ⟨h1, h2, h3⟩
    rcases hor with h' | h' | h'
    exacts [h' h1, h' h2, h' h3]
  · exact exec_takes h rfl ((regWrite_chtPushData s m k w k.isLt).trans (if_pos hl))
  · exact completes_takes h rfl (regWrite_chtPushData s m k w k.isLt) (pushData_leaves w _ s hl)

end Sys2Proof.Machine
end

section
/-! PROOF. What a load reads, checks and places, and amendments of a running chart (chapter 2). -/

namespace Sys2Proof.Machine

/-! ### Headers (R30, R41) -/

/-- What a header read delivers: the header's bytes, and the directory's under the header's count. -/
def State.headBytes (s : State) (got : Option (List Byte)) : List Byte :=
  match got with | some image => image.take 256 | none => s.chartBytes 0 256

def State.dirBytes (s : State) (got : Option (List Byte)) (n : Nat) : List Byte :=
  match got with
  | some image => (image.drop 256).take (16 * n)
  | none => if s.loadSlot = 3 then (s.loader.rx.drop 256).take (16 * n) else s.chartBytes 256 (16 * min 10 n)

/-- The first check of a header and its directory that fails: its reason, or 0. -/
def State.headReason (s : State) (head dir : List Byte) : Nat :=
  let h := Header.parse head
  let c0 := headerCheck head true
  let c1 := dirCheck h dir true (s.loadSlot == 1 || s.loadSlot == 2)
  if c0 ≠ 0 then c0 else if c1 ≠ 0 then c1 else if s.loader.otpHash.isSome = true ∧ h.signed = false then 8 else 0

/-- The load goes on from an accepted header to the segment of order 0. -/
def State.headTaken (s : State) (head dir : List Byte) : State :=
  let h := Header.parse head
  (s.onLoader fun l => ({ l with hdr := some h, head := head ++ dir, dir := parseDir h.segCount dir, phase := .reading 0, reread := false, rx := [] }).pump).setF
    Reg.chtState 15 8 0

theorem headerRead_idle {s : State} (got : Option (List Byte)) (h : s.loader.phase ≠ .header ∨ s.partHere = false) : headerRead got s = s := by
  rw [headerRead, if_pos (by simpa using h)]

theorem firstReason (a b c : Nat) : (if (if a ≠ 0 then a else b) ≠ 0 then (if a ≠ 0 then a else b) else c) =
    if a ≠ 0 then a else if b ≠ 0 then b else c := by
  by_cases h : a = 0 <;> simp [h]

theorem headerRead_due {s : State} (got : Option (List Byte)) (hp : s.loader.phase = .header) (hh : s.partHere = true) :
    headerRead got s =
      let head := s.headBytes got
      let dir := s.dirBytes got (Header.parse head).segCount
      if s.headReason head dir ≠ 0 then s.loadFail (s.headReason head dir) 0 else s.headTaken head dir := by
  rw [headerRead, if_neg (by simp [hp, hh])]
  cases got <;> simp only [State.headBytes, State.dirBytes, State.headReason, State.headTaken, Option.map_none, Option.map_some,
    Option.getD_none, Option.getD_some, Bool.and_eq_true, Bool.not_eq_true', firstReason] <;> rfl

theorem headTaken_leaves (s : State) (head dir : List Byte) :
    (s.headTaken head dir).loader.phase = .reading 0 ∧ (s.headTaken head dir).loader.hdr = some (Header.parse head) ∧
      (s.headTaken head dir).loader.dir = parseDir (Header.parse head).segCount dir ∧ sameMemory s (s.headTaken head dir) ∧
      sameRegs s (s.headTaken head dir) [Reg.chtState] :=
  ⟨rfl, rfl, rfl, ⟨rfl, rfl, rfl, rfl, rfl⟩, fun _ h => State.rd_setF_ne _ 15 8 0 (List.ne_of_not_mem_cons h)⟩

/-- Settles O34: a header due is refused with the reason of its first failing check, or the load goes on with its segments. -/
theorem headersAreCheckedInOrder : Obligations.HeadersAreCheckedInOrder := by
  intro s got hup head h dir c0 c1 c
  refine ⟨fun hi => (onCore_fabric _ hup).trans (congrArg _ (headerRead_idle got hi)), fun hp hh => ?_⟩
  have hdue := (onCore_fabric (headerRead got) hup).trans (congrArg _ (headerRead_due got hp hh))
  refine ⟨fun hc => hdue.trans (congrArg _ (if_pos hc)), fun hc => ?_⟩
  exact completes_of_exec (hdue.trans (congrArg _ (if_neg (not_not_intro hc)))) (headTaken_leaves s _ _)

/-! ### Segments (R30, R32 to R34) -/

theorem zipIdx_find?_of_any {α : Type} {d : List α} {p : α → Bool} (h : d.any p = true) (n : Nat) :
    ((d.zipIdx n).find? fun x => p x.1).map (·.2) = some (n + d.findIdx p) := by
  induction d generalizing n with
  | nil => cases h
  | cons a d ih =>
    cases ha : p a
    · rw [List.any_cons, ha, Bool.false_or] at h
      rw [List.zipIdx_cons, List.find?_cons_of_neg (by simp [ha]), ih h, List.findIdx_cons, ha]
      exact congrArg some (by simp only [cond_false]; omega)
    · rw [List.zipIdx_cons, List.find?_cons_of_pos (p := fun x : α × Nat => p x.1) ha, List.findIdx_cons, ha]
      rfl

/-- The bytes of a segment that its CRC covers. -/
def crcBytes (e : DirEntry) (bs : List Byte) : List Byte := if e.typ = 10 then bs.take 0x5C0 else bs

/-- The digest listed for the segment of order `o`. -/
def LoaderSt.digestOf (l : LoaderSt) (o : Nat) : Option (List Byte) :=
  l.digests[(l.dir.filter fun d => d.typ != 10).findIdx fun d => d.order == o]?

/-- What the check of `TRUST` says of a segment: 0 of any other. -/
def State.trustReason (s : State) (h : Header) (e : DirEntry) (bs : List Byte) : Nat :=
  if e.typ = 10 then s.loader.trustCheck h s.loader.head bs else 0

/-- The reason for which a segment with a right CRC is refused: 0 when it is taken. -/
def State.segReason (s : State) (o : Nat) (h : Header) (e : DirEntry) (bs : List Byte) (c : Option SegContent) : Nat :=
  if e.typ = 10 then (if 16 < bytesAt bs 0x44 4 then 0xD else 0)
  else if h.signed = true ∧ some (sha256 bs) ≠ s.loader.digestOf o then 0xC
  else if s.segmentOk e.typ c = true then 0 else 0xD

/-- A segment taken is placed next. -/
def State.segTaken (s : State) (o : Nat) (h : Header) (e : DirEntry) (bs : List Byte) (c : Option SegContent) : State :=
  s.onLoader fun l =>
    { l with
      phase := .placing o, reread := false, rx := [], content := if e.typ = 10 then none else c
      digests := if e.typ = 10 then trustDigests h bs else l.digests
      anchors := if e.typ = 10 then trustAnchors bs else l.anchors
      flRead := if e.typ = 1 then some (sha256 bs) else l.flRead }

section
variable {s : State} {o : Nat} {h : Header} {e : DirEntry} (bs : List Byte) (c : Option SegContent)

theorem segmentRead_due (hp : s.loader.phase = .reading o) (hh : s.loader.hdr = some h)
    (he : s.loader.dir.find? (fun d => d.order == o) = some e) (hp' : s.partHere = true) : segmentRead (some bs) c s =
      if s.trustReason h e bs ≠ 0 then s.loadFail (s.trustReason h e bs) e.typ
      else if crc32 (crcBytes e bs) ≠ e.crc then
        if s.loader.reread = true then s.loadFail 0xB e.typ
        else (s.countErr Reg.chtRetryCnt 16 1).onLoader fun l => { l with reread := true }
      else if s.segReason o h e bs c ≠ 0 then s.loadFail (s.segReason o h e bs c) e.typ
      else s.segTaken o h e bs c := by
  rw [segmentRead, hp, hh]
  simp only [he, hp', Bool.not_true, Bool.false_eq_true, if_false, Option.getD_some]
  by_cases ht : e.typ = 10
  · simp [ht, State.trustReason, State.segReason, State.segTaken, crcBytes]
  · have hany : (s.loader.dir.filter fun d => d.typ != 10).any (fun d => d.order == o) = true :=
      List.any_eq_true.2 ⟨e, List.mem_filter.2 ⟨List.mem_of_find?_eq_some he, by simpa using ht⟩,
        List.find?_some (p := fun d : DirEntry => d.order == o) he⟩
    have hk := zipIdx_find?_of_any hany 0
    rw [Nat.zero_add] at hk
    simp [ht, State.trustReason, State.segReason, State.segTaken, crcBytes, hk, LoaderSt.digestOf]
    rfl

end

theorem countErr_loader (s : State) (a n k : Nat) : (s.countErr a n k).loader = s.loader :=
  (keeps_countErr (R := fun _ => True) (π := State.loader) (fun _ _ _ => rfl) (fun _ _ => trivial) s n k trivial).1

/-- Settles O36: a segment read is refused with the reason of its first failing check, read again, or taken. -/
theorem segmentsAreCheckedAsTheyAreRead : Obligations.SegmentsAreCheckedAsTheyAreRead := by
  intro s o h e bs c hup hp hh he hp' crc trusted digested
  have hdue := (onCore_fabric (segmentRead (some bs) c) hup).trans (congrArg _ (segmentRead_due bs c hp hh he hp'))
  have htr : trusted → s.trustReason h e bs = 0 := fun ht => by
    unfold State.trustReason
    split
    · exact ht ‹_›
    · rfl
  have hpass : ∀ {x y z : State}, trusted → crc = e.crc → (if s.trustReason h e bs ≠ 0 then x else if crc ≠ e.crc then y else z) = z :=
    fun ht hc => (if_neg (not_not_intro (htr ht))).trans (if_neg (not_not_intro hc))
  have htn : e.typ ≠ 10 → trusted := fun hn ht => absurd ht hn
  refine ⟨fun ht => ?_, fun ht hc hr => ?_, fun ht hc hr => ?_, fun hc hd => ?_, fun hc hd hn hk => ?_, fun hc hd hn hk => ?_,
    fun hy ht hc hl => ?_⟩
  · obtain ⟨h10, hne⟩ := Classical.not_imp.1 ht
    have hreason : s.trustReason h e bs = s.loader.trustCheck h s.loader.head bs := if_pos h10
    exact hdue.trans (congrArg _ ((if_pos (hreason ▸ hne)).trans (congrArg (s.loadFail · e.typ) hreason)))
  · refine hdue.trans (congrArg _ ((if_neg (not_not_intro (htr ht))).trans ((if_pos hc).trans ((if_neg (by simp [hr])).trans ?_))))
    rw [State.onLoader, countErr_loader]
  · exact hdue.trans (congrArg _ ((if_neg (not_not_intro (htr ht))).trans ((if_pos hc).trans (if_pos hr))))
  · obtain ⟨hn, hd⟩ := Classical.not_imp.1 hd
    have hreason : s.segReason o h e bs c = 0xC := (if_neg hn).trans (if_pos ((Classical.not_imp.1 hd).imp_right Ne.symm))
    exact hdue.trans (congrArg _ ((hpass (htn hn) hc).trans (by rw [hreason]; rfl)))
  · have hreason : s.segReason o h e bs c = 0xD :=
      (if_neg hn).trans ((if_neg fun hb => hb.2 (hd hn hb.1).symm).trans (if_neg (by simp [hk])))
    exact hdue.trans (congrArg _ ((hpass (htn hn) hc).trans (by rw [hreason]; rfl)))
  · have hreason : s.segReason o h e bs c = 0 := (if_neg hn).trans ((if_neg fun hb => hb.2 (hd hn hb.1).symm).trans (if_pos hk))
    exact completes_of_exec (hdue.trans (congrArg _ ((hpass (htn hn) hc).trans (if_neg (not_not_intro hreason)))))
      ⟨rfl, rfl, if_neg hn, rfl⟩
  · have hreason : s.segReason o h e bs c = 0 := (if_pos hy).trans (if_neg (by omega))
    exact completes_of_exec (hdue.trans (congrArg _ ((hpass ht hc).trans (if_neg (not_not_intro hreason))))) ⟨rfl, if_pos hy, rfl⟩

/-! ### Placement (R38, R41) -/

/-- The load goes on after the segment of order `o`. -/
def State.loadOn (s : State) (o : Nat) : State :=
  if o + 1 < s.loader.dir.length then
    (s.onLoader fun l => ({ l with phase := .reading (o + 1) }).pump).setF Reg.chtState 15 8 (o + 1)
  else s.onLoader fun l => { l with phase := .lastPlaced }

/-- What the placement of a segment does to the device, its records used up. -/
def State.segPlaced (s : State) (e : DirEntry) (c : SegContent) : State :=
  (if e.typ = 10 then s else if e.typ ≠ 1 then (s.placeContent e.typ c).startClocks else if s.loadState ≠ 2 then s.enterFirstLight c
    else if s.loader.flRead = s.loader.flDigest then s
    else s.onLoader fun l => { l with flNext := some c, flDigest := l.flRead }).onLoader fun l => { l with content := none }

theorem segmentPlaced_due {s : State} {o : Nat} {e : DirEntry} {c : SegContent} (hp : s.loader.phase = .placing o)
    (hc : s.loader.content = some c) (he : s.loader.dir.find? (fun d => d.order == o) = some e) :
    segmentPlaced s = (s.segPlaced e c).loadOn o := by
  rw [segmentPlaced, hp, hc]
  simp only [he, Option.getD_some]
  have hu : (if e.typ = 1 then if s.loadState = 2 then
      (if s.loader.flRead = s.loader.flDigest then s else s.onLoader fun l => { l with flNext := some c, flDigest := l.flRead })
      else s.enterFirstLight c else if e.typ = 10 then s else (s.placeContent e.typ c).startClocks).onLoader
        (fun l => { l with content := none }) = s.segPlaced e c := by
    rw [State.segPlaced]
    by_cases h1 : e.typ = 1 <;> by_cases h2 : s.loadState = 2 <;> simp [h1, h2]
  rw [hu]
  rfl

theorem loadOn_leaves (u : State) (o : Nat) :
    (o + 1 < u.loader.dir.length → (u.loadOn o).loader.phase = .reading (o + 1) ∧ (u.loadOn o).f Reg.chtState 15 8 = (o + 1) % 256) ∧
      (u.loader.dir.length ≤ o + 1 → u.loadOn o = { u with loader := { u.loader with phase := .lastPlaced } }) ∧
      (u.loadOn o).loader.flNext = u.loader.flNext ∧ (u.loadOn o).loader.flDigest = u.loader.flDigest ∧
      sameRegs u (u.loadOn o) [Reg.chtState] ∧ sameMemory u (u.loadOn o) := by
  by_cases h : o + 1 < u.loader.dir.length
  · rw [State.loadOn, if_pos h]
    exact ⟨fun _ => ⟨rfl, State.f_setF_self _ _ _ _ _ (by decide) (by decide)⟩, fun h' => absurd h (by omega), rfl, rfl,
      fun _ ha => State.rd_setF_ne _ 15 8 _ (List.ne_of_not_mem_cons ha), rfl, rfl, rfl, rfl, rfl⟩
  · rw [State.loadOn, if_neg h]
    exact ⟨fun h' => absurd h' h, fun _ => rfl, rfl, rfl, fun _ _ => rfl, rfl, rfl, rfl, rfl, rfl⟩

/-- Settles O37: the segment's records take their place, then the load goes on with the next order or waits for the boundary. -/
theorem placedSegmentsMoveTheLoadOn : Obligations.PlacedSegmentsMoveTheLoadOn := by
  intro s o e c hup hp hc he golden u
  exact completes_of_exec ((onCore_fabric segmentPlaced hup).trans (congrArg _ (segmentPlaced_due hp hc he))) (loadOn_leaves (s.segPlaced e c) o)

/-! ### Amendments (R44 to R48) -/

theorem raise_loader (s : State) (e : Ev) (inst data : Nat) : (s.raise e inst data).loader = s.loader :=
  (keeps_raise (R := fun _ => True) (π := State.loader) (fun _ _ _ => rfl) (fun _ _ => trivial) s e inst data).1

theorem amdRefuse_status (s : State) (code : Nat) : (s.amdRefuse code).rd Reg.chtAmdStatus = BitVec.ofNat 32 (code * 65536 + 4) :=
  (State.raise_rd _ _ _ _ (notDrop (.inl (by decide)))).trans (s.rd_wr_self _ _)

theorem amdRefuse_amd (s : State) (code : Nat) : (s.amdRefuse code).loader.amd = none := by
  rw [State.amdRefuse, raise_loader]; rfl

/-- The amendment that a `GO` by `path` starts to stage. -/
def State.amdStarted (s : State) (path : Bool) : Amendment :=
  { path := path.toNat, take := (s.rd Reg.chtAmdTakeLo).toNat + s.f Reg.chtAmdTakeHi 15 0 * 2 ^ 32
    image := if path then s.loader.push else [], staged := false, reread := [], guard := 0, mtags := 0 }

theorem amdCtrlWrite_go {w : Word} {path : Bool} (s : State) (h0 : bit w 0 = true) (h1 : bit w 1 = false) (h2 : bit w 2 = path)
    (hp : bf w 2 2 = path.toNat) : amdCtrlWrite w s =
      if s.loader.amd.isSome = true then s.raise .chtAmdRefused 0 0x16
      else if (!s.running) = true then s.amdRefuse 0x17
      else (s.wr Reg.chtAmdStatus 1).onLoader fun l =>
        { l with amd := some (s.amdStarted path), push := if path = true then [] else l.push } := by
  rw [amdCtrlWrite]
  simp only [h0, h1, h2, hp, Bool.false_and, Bool.false_eq_true, if_false, Bool.not_true]
  rfl

theorem amdCtrlWrite_abort {w : Word} (s : State) (h0 : bit w 0 = false) (h1 : bit w 1 = true) : amdCtrlWrite w s =
    if s.loader.amd.isSome = true then { s.wr Reg.chtAmdStatus 0 with loader := { s.loader with amd := none } } else s := by
  rw [amdCtrlWrite]
  simp only [h0, h1, Bool.true_and, Bool.not_false, if_true]
  rfl

/-- Settles O38: one amendment at a time stages, from RUNNING, and `ABORT` discards it. -/
theorem amendmentsStageOneAtATime : Obligations.AmendmentsStageOneAtATime := by
  intro m path s
  refine ⟨fun h => ?_, fun h => ?_⟩
  · have hw := (regWrite_chtAmdCtrl s m (if path then 5 else 1)).trans (amdCtrlWrite_go (path := path) s (by cases path <;> decide)
      (by cases path <;> decide) (by cases path <;> decide) (by cases path <;> decide))
    refine ⟨fun x hx => exec_takes h rfl (hw.trans (if_pos (by rw [hx]; rfl))), fun hn hr => ?_, fun hn hr => ?_⟩
    · exact exec_takes h rfl (hw.trans ((if_neg (by simp [hn])).trans (if_pos (by simp [hr]))))
    · refine completes_takes h rfl (hw.trans ((if_neg (by simp [hn])).trans (if_neg (by simp [hr])))) ?_
      exact ⟨s.rd_wr_self Reg.chtAmdStatus 1, fun a ha => s.rd_wr_ne (a := Reg.chtAmdStatus) 1 (List.ne_of_not_mem_cons ha),
        ⟨rfl, rfl, rfl, rfl, rfl⟩, _, rfl, rfl, rfl, rfl⟩
  · have hw := (regWrite_chtAmdCtrl s m 2).trans (amdCtrlWrite_abort s (by decide) (by decide))
    refine ⟨fun hn => exec_takes h rfl (hw.trans (if_neg (by simp [hn]))), fun hn => ?_⟩
    exact completes_takes h rfl (hw.trans (if_pos (Option.isSome_iff_ne_none.2 hn))) rfl

/-- Settles O39: a staged image passes the checks in their order, and is then held for its take-stroke. -/
theorem stagedAmendmentsAreCheckedOrDiscarded : Obligations.StagedAmendmentsAreCheckedOrDiscarded := by
  intro s a image guard tags hup ha hs c wrong b
  have hdue : exec c s = .next (amdStaged (some image) guard tags s) := onCore_fabric _ hup
  have hst : amdStaged (some image) guard tags s =
      if s.amdFront image ≠ 0 then s.amdRefuse (s.amdFront image)
      else if wrong.any a.reread.contains then s.amdRefuse 0xB
      else if wrong ≠ [] then
        (s.countErr Reg.chtRetryCnt 16 wrong.length).onLoader fun l => { l with amd := some { a with reread := a.reread ++ wrong } }
      else if s.amdBack image guard tags ≠ 0 then s.amdRefuse (s.amdBack image guard tags)
      else if a.take ≠ 0 ∧ !serialNewer 48 a.take s.clock.stroke.toNat then s.amdRefuse 0x15
      else if !s.rolesIdle b then s.amdRefuse 0x12
      else (s.wr Reg.chtAmdStatus 2).onLoader fun l => { l with amd := some b } := by
    rw [amdStaged, ha]
    exact if_neg (by simp [hs])
  have hnone : (∀ x ∈ wrong, x ∉ a.reread) → ¬ (wrong.any a.reread.contains = true) := by simp
  rw [hdue, hst]
  refine ⟨fun hf => congrArg _ (if_pos hf), fun hf ⟨x, hx, hr⟩ => ?_, fun hf hne hno => ?_, fun hf hw => ⟨fun hb => ?_, fun hb => ⟨?_, ?_⟩⟩,
    fun code => ⟨amdRefuse_status s code, amdRefuse_amd s code⟩⟩
  · rw [if_neg (not_not_intro hf), if_pos (List.any_eq_true.2 ⟨x, hx, by simpa using hr⟩)]
  · rw [if_neg (not_not_intro hf), if_neg (hnone hno), if_pos hne, State.onLoader, countErr_loader]
  · rw [if_neg (not_not_intro hf), if_neg (by simp [hw]), if_neg (not_not_intro hw), if_pos hb]
  · intro ht hl
    rw [if_neg (not_not_intro hf), if_neg (by simp [hw]), if_neg (not_not_intro hw), if_neg (not_not_intro hb), if_pos ⟨ht, by simp [hl]⟩]
  · intro ht hi
    refine ⟨_, hdue.trans (congrArg _ hst), ?_⟩
    rw [if_neg (not_not_intro hf), if_neg (by simp [hw]), if_neg (not_not_intro hw), if_neg (not_not_intro hb), if_neg (by aesop),
      if_neg (by simp [hi])]
    rfl

end Sys2Proof.Machine
end

section
/-! PROOF. States on which statements about the Cox, ports and what runs over them fail. -/

namespace Sys2Proof.Machine

/-! ### The Cox's registers (R65) -/

/-- A slew target waits in its register, and the device's time has moved on since the slew was last brought up to it. -/
def slewWaiting : State := (running [(Reg.coxSlewTarget, 5)]).onClock fun c => { c with time := 7 }

/-- Refutes O43: a write of `COX_SLEW_CTRL` first brings the slew up to the present, so `slewAt` moves with the time too. -/
theorem not_coxWritesWaitForTheBoundary : ¬ Obligations.CoxWritesWaitForTheBoundary := by
  intro h
  have htakes : slewWaiting.takesWrite .loader Reg.coxSlewCtrl (0 ||| 0x10000) := by
    refine ⟨⟨by decide +kernel, by decide +kernel⟩, by decide +kernel, nofun, nofun, by decide +kernel⟩
  obtain ⟨-, -, -, -, -, hslew⟩ := h .loader 0 slewWaiting
  obtain ⟨hcox, -⟩ := completes_left (hslew htakes)
  exact absurd (congrArg CoxSt.slewAt hcox) (by decide +kernel)

/-! ### Bonds that disagree (R108) -/

/-- Port 3 says that it is bonded in a pair, whose lead is port 2; port 2 says that it is bonded in four, which it trains. -/
def oddBonds : State := running [(Reg.prtCfg 3, 0x01000000), (Reg.prtCfg 2, 0x02000000), (Reg.prtStat 2, 2)]

/-- Refutes O47: port 2 leads port 3, but belongs to the group of port 0; the lanes of port 2 are then those of port 0, and go on to
NEGOTIATE with the group that was to run alone. -/
theorem not_portsClimbTheLadder : ¬ Obligations.PortsClimbTheLadder := by
  intro h
  have hport := h 3 oddBonds (by decide +kernel)
  dsimp only at hport
  obtain ⟨-, -, -, -, htimeout, -⟩ := hport
  obtain ⟨-, hends⟩ := htimeout true
  have hends := hends (by decide +kernel) (by decide +kernel) (by decide +kernel)
  rw [if_pos (by decide +kernel)] at hends
  obtain ⟨-, -, hlanes⟩ := completes_left hends
  obtain ⟨-, hidle, -⟩ := hlanes 1 (by decide +kernel)
  exact absurd hidle (by decide +kernel)

/-- The same bonds, with port 0 running alone for its group of four; port 2's own transmitter idles. -/
def idleBonds : State :=
  ((running [(Reg.prtCfg 3, 0x01000000), (Reg.prtCfg 2, 0x02000000), (Reg.prtStat 2, 6)]).onPort 0 fun x => { x with alone := true }).onPort 2
    fun x => { x with txIdle := true }

/-- Refutes O48: port 2 leads port 3 and idles, but its only lane is port 0, which wakes and does not return to RUN. -/
theorem not_portsLoseLanesAndRest : ¬ Obligations.PortsLoseLanesAndRest := by
  intro h
  have hport := h .loader 3 idleBonds (by decide +kernel)
  dsimp only at hport
  obtain ⟨-, -, -, -, -, -, -, -, -, hexit, -⟩ := hport
  have htakes : idleBonds.takesWrite .loader (Reg.prtCtrl (3 : Fin 512)) 2 := by
    refine ⟨⟨by decide +kernel, by decide +kernel⟩, by decide +kernel, nofun, nofun, by decide +kernel⟩
  have hexit := hexit htakes
  rw [if_pos (by decide +kernel)] at hexit
  obtain ⟨-, hrun, -⟩ := completes_left hexit
  obtain ⟨hat, -⟩ := hrun (by decide +kernel) (by decide +kernel)
  exact absurd (hat 0 (by decide +kernel)) (by decide +kernel)

/-! ### What a stream sends (R130, R155) -/

/-- A pick of slot 0 of slip 0. -/
def anyPick : Pick := { slip := 0, newer := 0, older := 0, weight := 0, seq := 0, motion := false, vecs := 0, conf := 0 }

/-- Stream 0 is sent on port 0, which runs, from a crossing that is taken; it stands past the last part of its line. -/
def pastLine : State :=
  (State.onPort { running [(Reg.prtStat 0, 5), (Reg.streamEntryWord 0 1, 0xC0000000), (Reg.xtbEntryWord 0 1, 0x08000000)] with
      xtb := { XtbSt.init with ents := [(0, { EntSt.init with state := .taken })] } } 0 fun x => { x with txIdle := false }).onEgress 0 fun y =>
    { y with show_ := some anyPick, part := 1 }

/-- Refutes O50: a stream that stands past the last part of its line has no words to send, so no packet leaves. -/
theorem not_lonanCountsAndAnswersOnce : ¬ Obligations.LonanCountsAndAnswersOnce := by
  intro h
  obtain ⟨-, -, -, -, -, hsend⟩ := h
  obtain ⟨-, hpart⟩ := hsend 0 pastLine ⟨by decide +kernel, by decide +kernel⟩
  obtain ⟨hsends, -⟩ := completes_left (hpart 0 anyPick (by decide +kernel) (by decide +kernel))
  obtain ⟨bs, a, b, hout⟩ := hsends (by decide +kernel) ⟨by decide +kernel, by decide +kernel⟩
  have hnone : (left (.egressPacketSend 0) pastLine).out = [] := by decide +kernel
  rw [hnone] at hout
  simp at hout

/-! ### Words of an entry (R156, R163) -/

/-- Stream 5 is video of 100 by 50 from port 8; entry 9 has words 0 to 2 of a crossing of it to slip 0, the reserved bit 0 of word 0 set. -/
def reservedBit : State :=
  let s := running [(Reg.streamEntryWord 5 0, 0x06400000), (Reg.streamEntryWord 5 1, 0x80200190)]
  { s with xtb := { s.xtb with words := [(Reg.xtbEntryWord 9 0, 1), (Reg.xtbEntryWord 9 1, 0x10000000)] } }

/-- Refutes O52: the words 0 to 2 written before word 3 are kept whole, and the entry is judged with bit 0 of word 0, which is reserved
(R156); the table keeps that bit 0, so the entry that is PENDING is not the crossing that was written. -/
theorem not_crossingsAndQueuesFollowTheirCommands : ¬ Obligations.CrossingsAndQueuesFollowTheirCommands := by
  intro h
  have htakes : reservedBit.takesWrite .loader (Reg.xtbEntryWord (9 : Fin 32768) 3) 0x900A0000 := by
    refine ⟨⟨by decide +kernel, by decide +kernel⟩, by decide +kernel, nofun, nofun, by decide +kernel⟩
  obtain ⟨-, -, -, hempty, -⟩ := completes_left (h.1 .loader 9 0x900A0000 reservedBit htakes)
  obtain ⟨hcrossing, -⟩ := hempty (by decide +kernel) (by decide +kernel) (by decide +kernel)
  obtain ⟨hkept, -⟩ := hcrossing (by decide +kernel)
  exact absurd (congrArg Crossing.flags hkept) (by decide +kernel)

/-! ### Pages held when power fails (R390, R399) -/

/-- A write of `LEDGERS` has one page left, whose erase is held because `VDD_LD` was below 2.95 V (R390). -/
def heldPage : State :=
  { running [] with
    nvs := { NvsSt.init with cur := some { kind := .ledgers, left := [(8, 0, [0])], done := 8, plan := none }, held := true } }

/-- Refutes O57: a page whose erase has not started when the power-down is signalled is not in progress, so that nothing of its write is
left (R390). -/
theorem not_powerFailuresKeepTheKeepRam : ¬ Obligations.PowerFailuresKeepTheKeepRam := by
  intro h
  obtain ⟨-, -, hfails, -⟩ := h
  obtain ⟨⟨-, hlow⟩, -⟩ := hfails heldPage (by decide +kernel)
  obtain ⟨-, -, -, -, -, -, -, -, -, -, -, -, hcur⟩ := completes_left (hlow (by decide +kernel))
  obtain ⟨k, hk, hleft, -⟩ := hcur { kind := .ledgers, left := [(8, 0, [0])], done := 8, plan := none } rfl
  have hnone : (left .vddLdLow heldPage).nvs.cur.map (·.left) = some [] := by decide +kernel
  rw [hk, Option.map_some, hleft] at hnone
  simp at hnone

/-! ### Power-on hours at a power-good (R398, R427) -/

/-- One step of 50 ps after the power-on state, `PWR_EN_0` is high and its power-good is awaited. -/
def awaitsGood : State :=
  State.onClock { State.reset with pwr := { PwrSt.init with ld := .running, phase := .waitPg 0 } } fun c => { c with time := 1 }

/-- Refutes O56: a power-good input that changes brings the power-on hours of the keep RAM up to the present (R398), so that more than the
pins and the phase changes. -/
theorem not_suppliesRiseAndFallInOrder : ¬ Obligations.SuppliesRiseAndFallInOrder := by
  intro h
  obtain ⟨-, -, hgood, -⟩ := h awaitsGood (by decide +kernel)
  obtain ⟨-, hwait, -⟩ := hgood 0
  obtain ⟨hgood, -⟩ := hwait (by decide +kernel)
  have hsame := completes_left hgood
  exact absurd (congrArg (fun t => t.keep.pohFrom) hsame) (by decide +kernel)

/-! ### Page writes (R387, R389) -/

/-- A write has a byte left at offset 257 of page 0, of which a group of bytes was cut. -/
def pastPage : State :=
  { running [] with
    nvs := { NvsSt.init with cur := some { kind := .ledgers, left := [(0, 257, [1])], done := 0, plan := none }, unsure := [0] } }

theorem landPage_nvsMem_cut {p : Nat × Nat × List Byte} {s : State} (h : (s.nvs.unsure.any fun g => g / 16 == p.1) = true) :
    (s.landPage p).nvsMem = writeBytes erasedByte s.nvsMem (p.1 * 256) (s.pageBuffer p) := by
  rw [State.landPage, if_pos h]; rfl

theorem nvsPageDone_last_nvsMem {p : Nat × Nat × List Byte} {s : State} {j : NvsJob} (hcur : s.nvs.cur = some j) (hleft : j.left = [p])
    (hkind : j.kind = .ledgers) (hwait : s.nvs.waiting = []) : (nvsPageDone false s).nvsMem = (s.landPage p).nvsMem := by
  have hnext : (s.landPage p).nvs.waiting = [] := by
    rw [State.landPage]
    split <;> simpa [State.countPerf, State.wr, State.onNvs, State.nvRead] using hwait
  simp [nvsPageDone, hcur, hleft, forAll, State.jobEnd, hkind, State.nextJob, State.onNvs, hnext]

/-- Refutes O55: in a page with bytes cut, a write that starts past the page's end lands at the page's end, since the page buffer has no
bytes before it. -/
theorem not_storageCommandsAndPages : ¬ Obligations.StorageCommandsAndPages := by
  intro h
  obtain ⟨hpage, -⟩ := h.2 pastPage (by decide +kernel)
  obtain ⟨-, hlands⟩ := hpage false
  obtain ⟨-, houtside, -⟩ := completes_left (hlands { kind := .ledgers, left := [(0, 257, [1])], done := 0, plan := none } (0, 257, [1]) [] rfl rfl)
  have hkept := houtside 256 (Or.inl (by decide)) (Or.inl (by decide))
  have hleft : left (.nvsPageDone false) pastPage = nvsPageDone false pastPage := rfl
  have hmem : (nvsPageDone false pastPage).nvsMem = writeBytes erasedByte [] 0 (pastPage.pageBuffer (0, 257, [1])) :=
    (nvsPageDone_last_nvsMem rfl rfl rfl rfl).trans (landPage_nvsMem_cut (p := (0, 257, [1])) (by decide +kernel))
  have hlength : 256 < (pastPage.pageBuffer (0, 257, [1])).length := by decide +kernel
  have hbyte : (pastPage.pageBuffer (0, 257, [1]))[256]? = some 1 := by decide +kernel
  rw [hleft, hmem, ← Nat.zero_add 256, writeBytes_inside erasedByte _ [] 0 256 hlength,
    Option.some.inj ((List.getElem?_eq_getElem hlength).symm.trans hbyte)] at hkept
  exact absurd hkept (by decide +kernel)

/-! ### Writes into the data of a cancelled job's engine (R218, R234) -/

/-- In RUNNING engine 0 retires the last bundle of a job that the deadline has cancelled; the PCIe link is up and channel 0 is busy. -/
def cancelledJob : State :=
  (running [(Reg.chtState, 3), (Reg.quayPcieStat, 0x80000000), (Reg.dmaStat 0, 0x80000000)]).onEng 0 fun x =>
    { x with job := some (Desc.toRec (Desc.ofRec 0)), cut := some none }

/-- Refutes O59: the job of an engine that the deadline has cut short is held no more, so that a host's write into its data region lands at
once, though the engine still shows the job. -/
theorem not_hostRequestsTakeEffectInTheirTargets : ¬ Obligations.HostRequestsTakeEffectInTheirTargets := by
  intro h
  obtain ⟨-, hpcie, -⟩ := h
  obtain ⟨-, -, hlink, -⟩ := hpcie true 0x6000000 [1] 0 false cancelledJob
  obtain ⟨-, -, hwrite, -⟩ := hlink (by decide +kernel) ⟨by decide +kernel, by decide +kernel⟩
  obtain ⟨hwork, -⟩ := completes_left (hwrite (by decide +kernel) (by decide)) 0
  obtain ⟨hwritten, -⟩ := hwork (by decide +kernel) (by decide +kernel)
  exact absurd (hwritten 0) (by decide +kernel)

/-- Refutes O60: the part of a DMA burst already accepted lands in the data region of such an engine as well. -/
theorem not_dmaAndEventRingsMoveTheirData : ¬ Obligations.DmaAndEventRingsMoveTheirData := by
  intro h
  obtain ⟨-, habort, -⟩ := h
  have htakes : cancelledJob.takesWrite .loader (Reg.dmaCtrl (0 : Fin 8)) 2 := by
    refine ⟨⟨by decide +kernel, by decide +kernel⟩, by decide +kernel, nofun, nofun, by decide +kernel⟩
  obtain ⟨-, hcut⟩ := habort .loader 0 0x20000000 [1] cancelledJob htakes
  obtain ⟨-, hwritten, -⟩ := completes_left (hcut 0 (by decide) (by decide +kernel) (by decide +kernel))
  exact absurd (hwritten 0) (by decide +kernel)

end Sys2Proof.Machine
end

section
/-! PROOF. Synthesizers (chapter 4): what sets a synthesizer's state, and what leaves it. -/

namespace Sys2Proof.Machine

/-! ### Reading a field after another effect -/

theorem State.b_setB_ne (s : State) (a : Nat) {i j : Nat} (v : Bool) (h : j ≠ i) : (s.setB a i v).b a j = s.b a j := by
  rw [State.b, State.rd_setB_self, bit_setBit_ne _ _ h, State.b]

theorem State.b_setF_outside (s : State) (a hi lo v : Nat) {j : Nat} (h : j < lo ∨ hi < j) (hl : lo ≤ hi) :
    (s.setF a hi lo v).b a j = s.b a j := by
  rw [State.b, State.rd_setF_self, bit_setFld_outside _ _ _ _ h hl, State.b]

theorem State.f_setF_outside (s : State) (a hi lo v : Nat) {h2 l2 : Nat} (h : h2 < lo ∨ hi < l2) (hl : lo ≤ hi) :
    (s.setF a hi lo v).f a h2 l2 = s.f a h2 l2 := by
  rw [State.f, State.rd_setF_self, bf_setFld_ne _ _ _ _ _ _ hl h, State.f]

theorem State.f_setB_outside (s : State) (a : Nat) {i h2 l2 : Nat} (v : Bool) (h : h2 < i ∨ i < l2) :
    (s.setB a i v).f a h2 l2 = s.f a h2 l2 := by
  rw [State.f, State.rd_setB_self, setBit, bf_setFld_ne _ _ _ _ _ _ (Nat.le_refl i) h, State.f]

theorem State.f_of_rd {s t : State} {a : Nat} (h : t.rd a = s.rd a) (hi lo : Nat) : t.f a hi lo = s.f a hi lo := by rw [State.f, State.f, h]

theorem State.b_of_rd {s t : State} {a : Nat} (h : t.rd a = s.rd a) (i : Nat) : t.b a i = s.b a i := by rw [State.b, State.b, h]

/-! ### A synthesizer's state (R92) -/

/-- The registers in which a synthesizer's state shows. -/
def synReg (k a : Nat) : Prop := a = Reg.synStat k ∨ a = Reg.synLockSum (k / 32) ∨ a = Reg.synCoastSum (k / 32)

theorem synStat_notDrop (k : Nat) (h : k < 136) : ¬ dropCounter (Reg.synStat k) := notDrop (.inl (by simp only [Reg.synStat]; omega))

theorem setSynState_stat (s : State) (k v : Nat) : (s.setSynState k v).rd (Reg.synStat k) = setFld (s.rd (Reg.synStat k)) 2 0 v := by
  have hlock : Reg.synStat k ≠ Reg.synLockSum (k / 32) := by simp only [Reg.synStat, Reg.synLockSum]; omega
  have hcoast : Reg.synStat k ≠ Reg.synCoastSum (k / 32) := by simp only [Reg.synStat, Reg.synCoastSum]; omega
  rw [State.setSynState, State.rd_setB_ne _ _ _ hcoast, State.rd_setB_ne _ _ _ hlock, State.rd_setF_self]

theorem setSynState_rd (s : State) (k v : Nat) {a : Nat} (h : ¬ synReg k a) : (s.setSynState k v).rd a = s.rd a := by
  rw [State.setSynState, State.rd_setB_ne _ _ _ fun e => h (.inr (.inr e)), State.rd_setB_ne _ _ _ fun e => h (.inr (.inl e)),
    State.rd_setF_ne _ _ _ _ fun e => h (.inl e)]

/-- A code of a state is what the register then shows. -/
theorem synState_setSynState (s : State) (k : Nat) {v : Nat} (hv : v < 8) : (s.setSynState k v).synState k = v := by
  rw [State.synState, State.f, setSynState_stat s k v, bf_setFld_self _ _ _ _ (by decide) (by decide)]
  exact Nat.mod_eq_of_lt hv

theorem synState_of_rd {s t : State} {k : Nat} (h : t.rd (Reg.synStat k) = s.rd (Reg.synStat k)) : t.synState k = s.synState k :=
  State.f_of_rd h 2 0

theorem setSynState_bit (s : State) (k v : Nat) {j : Nat} (hj : 2 < j) :
    (s.setSynState k v).b (Reg.synStat k) j = s.b (Reg.synStat k) j := by
  rw [State.b, setSynState_stat s k v, bit_setFld_outside _ _ _ _ (.inr hj) (by decide), State.b]

/-- The check of the band's range leaves the state. -/
theorem synStaleCheck_leaves (s : State) {k : Nat} (h : k < 136) : (s.synStaleCheck k).synState k = s.synState k ∧
    (s.synStaleCheck k).b (Reg.synStat k) 21 = s.b (Reg.synStat k) 21 ∧ ((s.synStaleCheck k).synOf k).relock = (s.synOf k).relock := by
  have hset : ∀ (t : State) v, (t.setB (Reg.synStat k) 20 v).synState k = t.synState k ∧
      (t.setB (Reg.synStat k) 20 v).b (Reg.synStat k) 21 = t.b (Reg.synStat k) 21 := fun t v =>
    ⟨t.f_setB_outside _ v (.inl (by decide)), t.b_setB_ne _ v (by decide)⟩
  unfold State.synStaleCheck
  split
  · dsimp only
    split
    · have hrd := State.raise_rd (State.onSyn (s.setB (Reg.synStat k) 20 (!inRange s.synTemp (s.synOf k).range)) k fun x => { x with stale := true })
        .synBandStale k k (synStat_notDrop k h)
      refine ⟨(synState_of_rd hrd).trans (hset s _).1, (State.b_of_rd hrd 21).trans (hset s _).2, ?_⟩
      simp [State.synOf, State.onSyn]
    · exact ⟨(hset s _).1, (hset s _).2, rfl⟩
  · exact ⟨rfl, rfl, rfl⟩

theorem synAcquireOn_state (s : State) (i k b : Nat) (rg : Int × Int) : (s.synAcquireOn i k b rg).synState i = 1 :=
  synState_setSynState _ _ (by decide)

/-- A choice of band ends in ACQUIRE or NO_BAND (R82). -/
theorem synAcquire_state (s : State) {i : Nat} (h : i < 136) : (s.synAcquire i).synState i = 1 ∨ (s.synAcquire i).synState i = 5 := by
  unfold State.synAcquire
  split
  · exact .inl (synAcquireOn_state s _ _ _ _)
  · split
    · exact .inl (synAcquireOn_state s _ _ _ _)
    · exact .inr ((synState_of_rd (State.raise_rd _ _ _ _ (synStat_notDrop i h))).trans (synState_setSynState _ _ (by decide)))

/-! ### Loss of lock, the error in coast, lock, `RELOCK` (R84 to R90) -/

theorem synIndex_of {k : Nat} (h : k < 136) (h7 : k ≠ 7) : synIndex k = true := by simp [synIndex, h, h7]

/-- The loss of a reference shows in `REF_LOST` alone. -/
theorem refLost_leaves (s : State) (k : Nat) (lost : Bool) :
    let t := onlyIf lost (fun t => t.setB (Reg.synStat k) 21 true) s
    t.synState k = s.synState k ∧ (lost = true → t.b (Reg.synStat k) 21 = true) ∧ sameRegs s t [Reg.synStat k] := by
  cases lost
  · exact ⟨rfl, nofun, fun _ _ => rfl⟩
  · exact ⟨s.f_setB_outside _ true (.inl (by decide)), fun _ => State.b_setB_self _ _ _ _ (by decide),
      fun a ha => s.rd_setB_ne _ _ (by simpa using ha)⟩

theorem synLockLoss_leaves (s : State) {k : Nat} (h : k < 136) (h7 : k ≠ 7) (lost : Bool) :
    (s.synState k = 2 → (synLockLoss k lost s).synState k = 3) ∧
      (s.synState k ≠ 2 → (synLockLoss k lost s).synState k = s.synState k ∧ sameRegs s (synLockLoss k lost s) [Reg.synStat k]) ∧
      (lost = true → (synLockLoss k lost s).b (Reg.synStat k) 21 = true) := by
  obtain ⟨hstate, hlost, hregs⟩ := refLost_leaves s k lost
  simp only [synLockLoss, synIndex_of h h7, Bool.not_true, Bool.false_eq_true, if_false]
  generalize onlyIf lost (fun t => t.setB (Reg.synStat k) 21 true) s = u at hstate hlost hregs ⊢
  have hcnt : Reg.synStat k ≠ Reg.synLossCnt k := by simp only [Reg.synStat, Reg.synLossCnt]; omega
  by_cases h2 : u.synState k = 2
  · have hrd : (((u.setSynState k 3).countErr (Reg.synLossCnt k) 16 1).raise .synLockLost k k).rd (Reg.synStat k)
        = (u.setSynState k 3).rd (Reg.synStat k) :=
      (State.raise_rd _ _ _ _ (synStat_notDrop k h)).trans (State.countErr_rd _ _ _ (synStat_notDrop k h) hcnt)
    rw [if_pos h2]
    exact ⟨fun _ => (synState_of_rd hrd).trans (synState_setSynState _ _ (by decide)), fun hn => absurd (hstate ▸ h2) hn,
      fun hl => (State.b_of_rd hrd 21).trans ((setSynState_bit _ _ _ (by decide)).trans (hlost hl))⟩
  · rw [if_neg h2]
    exact ⟨fun hs => absurd (hstate.trans hs) h2, fun _ => ⟨hstate, hregs⟩, hlost⟩

/-- `SYN_CORE` beyond its error limit stops the fabric, and `FAULT_N` is asserted (R88). -/
theorem synFerr_core {s : State} {err : Int} (h3 : s.synState 0 = 3) (he : 50000 < err.natAbs) : (synFerrMeasure 0 err s).synState 0 = 4 ∧
    (synFerrMeasure 0 err s).coreUp = false ∧ (synFerrMeasure 0 err s).pwr.fault = true := by
  simp only [synFerrMeasure, h3, he, State.stopDomains, synIndex, if_true]
  refine ⟨(synState_of_rd (State.raise_rd _ _ _ _ (synStat_notDrop 0 (by decide)))).trans (synState_setSynState _ _ (by decide)), ?_, ?_⟩
  · simp [State.coreUp, State.synOf, State.onSyn, State.onPwr]
  · simp [State.onPwr]

/-- The synthesizer once it has declared lock (R85, R86). -/
def State.synLocked (s : State) (k : Nat) : State :=
  ((s.setSynState k 2).setB (Reg.synStat k) 21 false).onSyn k fun x => { x with relock := false, halted := x.halted && k != 0, again := x.halted }

/-- The lock is reported, as a re-lock where it is one (R93). -/
def State.synReported (s : State) (k : Nat) : State :=
  if s.synState k ≠ 1 ∨ (s.synOf k).relock = true then (s.synLocked k).raise .synRelocked k k else s.synLocked k

theorem synReported_eq (s : State) (k : Nat) :
    onlyIf (s.synState k != 1 || (s.synOf k).relock) (fun t => t.raise .synRelocked k k) (s.synLocked k) = s.synReported k := by
  unfold State.synReported onlyIf
  simp only [Bool.or_eq_true, bne_iff_ne, ne_eq]

theorem synReported_leaves (s : State) {k : Nat} (h : k < 136) : (s.synReported k).synState k = 2 ∧
    (s.synReported k).b (Reg.synStat k) 21 = false ∧ ((s.synReported k).synOf k).relock = false := by
  have hregs : (s.synLocked k).regs = ((s.setSynState k 2).setB (Reg.synStat k) 21 false).regs := rfl
  have hstate : (s.synLocked k).synState k = 2 := by
    rw [State.synState, State.f_congr hregs, State.f_setB_outside _ _ _ (.inl (by decide))]
    exact synState_setSynState s k (by decide)
  have hlost : (s.synLocked k).b (Reg.synStat k) 21 = false := by
    rw [State.b_congr hregs, State.b_setB_self _ _ _ _ (by decide)]
  have hrelock : ((s.synLocked k).synOf k).relock = false := by
    rw [State.synLocked, State.synOf, State.onSyn, nget_nset_self]
  unfold State.synReported
  split
  · have hrd := State.raise_rd (s.synLocked k) .synRelocked k k (synStat_notDrop k h)
    refine ⟨(synState_of_rd hrd).trans hstate, (State.b_of_rd hrd 21).trans hlost, ?_⟩
    rw [State.synOf, State.raise_syn]
    exact hrelock
  · exact ⟨hstate, hlost, hrelock⟩

theorem synLock_locks (s : State) {k : Nat} (h : k < 136) (h7 : k ≠ 7)
    (hst : s.synState k = 1 ∨ s.synState k = 3 ∨ s.synState k = 4) (h0 : ¬ (k = 0 ∧ s.synState k = 4)) :
    synLock k s = State.synStaleCheck (if synVid k then (s.synReported k).timingCleared k
      else if 8 ≤ k then (s.synReported k).wakePorts k else s.synReported k) k := by
  have hgo : (!synIndex k || !(s.synState k == 1 || s.synState k == 3 || s.synState k == 4) || (k == 0 && s.synState k == 4)) = false := by
    simp only [synIndex_of h h7, Bool.not_true, Bool.false_or, Bool.or_eq_false_iff, Bool.not_eq_false', Bool.or_eq_true, beq_iff_eq,
      Bool.and_eq_false_iff, beq_eq_false_iff_ne]
    exact ⟨or_assoc.2 hst, not_and_or.1 h0⟩
  rw [← synReported_eq, synLock]
  simp only [hgo, Bool.false_eq_true, if_false]
  rfl

/-- A synthesizer that declares lock again does nothing, nor does a stopped `SYN_CORE` (R90). -/
theorem synLock_idle (s : State) {k : Nat}
    (hst : ¬ (s.synState k = 1 ∨ s.synState k = 3 ∨ s.synState k = 4) ∨ (k = 0 ∧ s.synState 0 = 4)) : synLock k s = s := by
  unfold synLock
  dsimp only
  rw [if_pos]
  simp only [Bool.or_eq_true, Bool.not_eq_true', Bool.and_eq_true, Bool.or_eq_false_iff, beq_iff_eq, beq_eq_false_iff_ne]
  rcases hst with hst | ⟨rfl, h4⟩
  · exact .inl (.inr ⟨⟨fun e => hst (.inl e), fun e => hst (.inr (.inl e))⟩, fun e => hst (.inr (.inr e))⟩)
  · exact .inr ⟨rfl, h4⟩

theorem synRelock_ignored (s : State) {k : Nat} (h : (s.running = true ∧ s.feedsWatch k = true) ∨ (k = 0 ∧ s.synState 0 = 4)) :
    synRelock k 1 s = s := by
  unfold synRelock
  rw [if_pos]
  simpa only [Bool.or_eq_true, Bool.and_eq_true, beq_iff_eq, or_assoc] using Or.inr (Or.inr h)

theorem synRelock_acquires (s : State) {k : Nat} (hk : k < 136) (h7 : k ≠ 7)
    (h : ¬ ((s.running = true ∧ s.feedsWatch k = true) ∨ (k = 0 ∧ s.synState 0 = 4))) :
    (synRelock k 1 s).synState k = 1 ∨ (synRelock k 1 s).synState k = 5 := by
  unfold synRelock
  rw [if_neg]
  · exact synAcquire_state _ hk
  · simpa only [Bool.or_eq_true, Bool.and_eq_true, beq_iff_eq, or_assoc, synIndex_of hk h7, Bool.not_true, Bool.false_eq_true, false_or,
      show bit (1 : Word) 0 = true from rfl] using h

/-- Settles O46, one command after another, by what each leaves of the synthesizer's state. -/
theorem synthesizersLockCoastAndStop : Obligations.SynthesizersLockCoastAndStop := by
  intro k s hup h7'
  have hk := k.isLt
  have h7 : k.val ≠ 7 := fun e => h7' (Fin.ext e)
  refine ⟨fun lost => ?_, fun err => ⟨fun hs => ?_, fun hs he => ?_, fun hs he => ⟨?_, fun h0 => ?_⟩⟩, fun h => ?_, fun h hcore => ?_,
    fun h h0 => ?_, fun m ht => ⟨fun h => ?_, fun h => ?_⟩⟩
  · obtain ⟨hlocked, hother, hlost⟩ := synLockLoss_leaves s hk h7 lost
    exact completes_of_exec (onMatrix_up (synLockLoss k lost) hup) ⟨hlocked, hother, hlost, kept_sameMemory (synLockLoss_kept _ _ _)⟩
  · refine (onMatrix_up (synFerrMeasure k err) hup).trans (congrArg _ ?_)
    simp [synFerrMeasure, hs]
  · refine (onMatrix_up (synFerrMeasure k err) hup).trans (congrArg _ ?_)
    simp [synFerrMeasure, hs, synIndex_of hk h7, Nat.not_lt.2 he]
  · refine (onMatrix_up (synFerrMeasure k err) hup).trans (congrArg _ ?_)
    simp [synFerrMeasure, hs, synIndex_of hk h7, he]
  · subst h0
    exact completes_of_exec (onMatrix_up (synFerrMeasure 0 err) hup) (synFerr_core hs he)
  · refine (onMatrix_up (synLock k) hup).trans (congrArg _ (synLock_idle s ?_))
    exact h.imp_right fun ⟨hz, h4⟩ => ⟨congrArg Fin.val hz, h4⟩
  · have hst : s.synState k = 1 ∨ s.synState k = 3 ∨ s.synState k = 4 := h.imp_right (Or.imp_right And.left)
    have h0 : ¬ (k.val = 0 ∧ s.synState k = 4) := fun ⟨hz, h4⟩ => by
      rcases h with h | h | ⟨-, h⟩
      · omega
      · omega
      · exact h (Fin.ext hz)
    have hplain : synVid k = false ∧ ¬ 8 ≤ k.val := by rcases hcore with rfl | rfl | rfl <;> decide
    have hleaves := synLock_locks s hk h7 hst h0
    rw [hplain.1, if_neg (by decide), if_neg hplain.2] at hleaves
    obtain ⟨hstate, hlost, hrelock⟩ := synStaleCheck_leaves (s.synReported k) hk
    obtain ⟨hstate', hlost', hrelock'⟩ := synReported_leaves s hk
    refine completes_of_exec (onMatrix_up (synLock k) hup) ⟨?_, ?_, ?_, kept_sameMemory (synLock_kept _ _)⟩
    · rw [hleaves, hstate, hstate']
    · rw [hleaves, hlost, hlost']
    · rw [hleaves, hrelock, hrelock']
  · have hz : (k != 0) = (k.val != 0) := by rw [Bool.eq_iff_iff, bne_iff_ne, bne_iff_ne, ne_eq, ne_eq, Fin.ext_iff, Fin.val_zero]
    rw [hz]
    exact (onMatrix_up (synLock k) hup).trans (congrArg _ (synLock_locks s hk h7 h fun ⟨hz, _⟩ => h0 (Fin.ext hz)))
  · exact exec_takes ht rfl ((regWrite_synCtrl s m k 1 hk h7).trans (synRelock_ignored s (h.imp_right fun ⟨hz, h4⟩ => ⟨congrArg Fin.val hz, h4⟩)))
  · refine completes_takes ht rfl (regWrite_synCtrl s m k 1 hk h7) (synRelock_acquires s hk h7 fun hn => h ?_)
    exact hn.imp_right fun ⟨hz, h4⟩ => ⟨Fin.ext hz, h4⟩

end Sys2Proof.Machine
end
section
/-! PROOF. The winner of R62: the best reference is kept by an invariant of the fold over the references. -/

namespace Sys2Proof.Machine

/-- Reference `w` ranks at least as high as `n` (R62). -/
def State.ranks (s : State) (w n : Nat) : Prop :=
  s.ql n < s.ql w ∨ (s.ql n = s.ql w ∧
    (s.f (Reg.coxRefCfg w) 6 4 < s.f (Reg.coxRefCfg n) 6 4 ∨ (s.f (Reg.coxRefCfg w) 6 4 = s.f (Reg.coxRefCfg n) 6 4 ∧ w ≤ n)))

/-- `best` is the best qualified reference below `k`, or none when there is none. -/
def State.bestBelow (s : State) (k : Nat) (best : Option Nat) : Prop :=
  (best = none ↔ ∀ n < k, s.qualified n = false) ∧
  ∀ w, best = some w → w < k ∧ s.qualified w = true ∧ ∀ n < k, s.qualified n = true → s.ranks w n

/-- One step of the choice among the references. -/
def State.better (s : State) (best : Option Nat) (r : Nat) : Option Nat :=
  if !s.qualified r then best
  else match best with
    | none => some r
    | some b =>
      if s.ql b < s.ql r ∨ (s.ql r = s.ql b ∧ s.f (Reg.coxRefCfg r) 6 4 < s.f (Reg.coxRefCfg b) 6 4)
      then some r else some b

theorem State.bestRef_eq (s : State) : s.bestRef = (List.range 8).foldl s.better none := rfl

theorem State.bestBelow_better {s : State} {k : Nat} {best : Option Nat} (h : s.bestBelow k best) :
    s.bestBelow (k + 1) (s.better best k) := by
  obtain ⟨hnone, hsome⟩ := h
  cases hq : s.qualified k with
  | false =>
    have hk : s.better best k = best := by simp [State.better, hq]
    rw [hk]
    refine ⟨hnone.trans ⟨fun h n hn => ?_, fun h n hn => h n (by omega)⟩, fun w hw => ?_⟩
    · rcases Nat.lt_succ_iff_lt_or_eq.1 hn with h' | rfl
      · exact h n h'
      · exact hq
    · obtain ⟨hlt, hwq, hall⟩ := hsome w hw
      refine ⟨by omega, hwq, fun n hn hnq => ?_⟩
      rcases Nat.lt_succ_iff_lt_or_eq.1 hn with h' | rfl
      · exact hall n h' hnq
      · rw [hq] at hnq; cases hnq
  | true =>
    have hnot : ¬ ∀ n < k + 1, s.qualified n = false := fun h => by simp [h k (by omega)] at hq
    cases best with
    | none =>
      have hk : s.better none k = some k := by simp [State.better, hq]
      rw [hk]
      refine ⟨⟨nofun, fun h => absurd h hnot⟩, fun w hw => ?_⟩
      obtain rfl : k = w := Option.some.inj hw
      refine ⟨by omega, hq, fun n hn hnq => ?_⟩
      rcases Nat.lt_succ_iff_lt_or_eq.1 hn with h' | rfl
      · rw [hnone.1 rfl n h'] at hnq; cases hnq
      · exact .inr ⟨rfl, .inr ⟨rfl, le_rfl⟩⟩
    | some b =>
      obtain ⟨hlt, hbq, hall⟩ := hsome b rfl
      by_cases hbetter : s.ql b < s.ql k ∨ (s.ql k = s.ql b ∧ s.f (Reg.coxRefCfg k) 6 4 < s.f (Reg.coxRefCfg b) 6 4)
      · have hk : s.better (some b) k = some k := by simp [State.better, hq, hbetter]
        rw [hk]
        refine ⟨⟨nofun, fun h => absurd h hnot⟩, fun w hw => ?_⟩
        obtain rfl : k = w := Option.some.inj hw
        refine ⟨by omega, hq, fun n hn hnq => ?_⟩
        rcases Nat.lt_succ_iff_lt_or_eq.1 hn with h' | rfl
        · have := hall n h' hnq
          unfold State.ranks at this ⊢
          omega
        · exact .inr ⟨rfl, .inr ⟨rfl, le_rfl⟩⟩
      · have hk : s.better (some b) k = some b := by simp [State.better, hq, hbetter]
        rw [hk]
        refine ⟨⟨nofun, fun h => absurd h hnot⟩, fun w hw => ?_⟩
        obtain rfl : b = w := Option.some.inj hw
        refine ⟨by omega, hbq, fun n hn hnq => ?_⟩
        rcases Nat.lt_succ_iff_lt_or_eq.1 hn with h' | rfl
        · exact hall n h' hnq
        · unfold State.ranks
          omega

theorem State.bestBelow_range (s : State) (k : Nat) : s.bestBelow k ((List.range k).foldl s.better none) := by
  induction k with
  | zero => exact ⟨by simp, fun w hw => by cases hw⟩
  | succ k ih => rw [List.range_succ, List.foldl_append]; exact State.bestBelow_better ih

theorem State.bestBelow_bestRef (s : State) : s.bestBelow 8 s.bestRef := by
  rw [State.bestRef_eq]
  exact s.bestBelow_range 8

/-- Settles O40: with the manual choice not qualified the winner is the best reference, which the fold over the eight references keeps. -/
theorem theWinnerIsTheManualChoiceOrTheBest : Obligations.TheWinnerIsTheManualChoiceOrTheBest := by
  intro s
  refine ⟨fun hq => by simp [State.coxWinner, hq], fun hq => ?_⟩
  have hw : s.coxWinner = s.bestRef := by simp [State.coxWinner, hq]
  rw [hw]
  exact s.bestBelow_bestRef

end Sys2Proof.Machine
end
section
/-! PROOF. The register space: the gates of R480 and the latches of R477. -/

namespace Sys2Proof.Machine

/-! ### Gates -/

theorem exec_registerWrite (m : Master) (a : BitVec 26) (w : Word) {s : State} (h : s.fabricUp) :
    exec (.registerWrite m a w) s = .next (hostWrite m (a.toNat / 4 * 4) w s) := onCore_fabric _ h

theorem State.earlyWrite_early (s : State) : s.earlyWrite.loader.early = true := by
  unfold State.earlyWrite
  split
  · assumption
  · rw [State.raiseFree_loader]; rfl

theorem regWrite_of_row {s : State} {m : Master} {a : Nat} {w : Word} {r : RegRow} {i : List Nat} (hlo : 0x300000 ≤ a)
    (hhi : a < 0x400000) (hr : regRow? a = some (r, i)) : s.regWrite m a w = s.plainWrite r a w := by
  simp only [State.regWrite, hr]
  rw [if_neg (by omega), if_neg (by omega), if_neg (by omega), if_neg (by omega), if_pos hhi]

theorem regWrite_reserved {s : State} {m : Master} {a : Nat} {w : Word} (hr : regRow? a = none) : s.regWrite m a w = s := by
  simp only [State.regWrite, hr]

theorem plainWrite_rw {s : State} {r : RegRow} {a : Nat} {w : Word} (h : r.acc = .rw) :
    s.plainWrite r a w = s.wr a (mergeMask (BitVec.ofNat 32 r.rw) (s.rd a) w) := by simp [State.plainWrite, h]

theorem plainWrite_unwritable {s : State} {r : RegRow} {a : Nat} {w : Word} (h : r.acc = .ro ∨ r.acc = .wo) :
    s.plainWrite r a w = s := by
  rcases h with h | h <;> simp [State.plainWrite, h]

/-- Settles O9: each gate of R480 in its place of the order, and the engines' block whose rows have no rule of their own. -/
theorem registerWritesPassTheGatesInOrder : Obligations.RegisterWritesPassTheGatesInOrder := by
  refine ⟨fun m a w s h => ?_, fun m a w s h => ?_⟩
  · exact onCore_down _ (by simpa [State.fabricUp, imp_iff_not_or] using h)
  · have hx := exec_registerWrite m a w h
    refine ⟨fun hr => ?_, fun hr hh hrun hearly => ?_, fun hr hh hrun hlock => ?_, fun hr hrun hlock hund => ?_, fun ht => ?_⟩
    · rw [hx]; simp [hostWrite, hr]
    · rw [hx]
      refine ⟨by simp [hostWrite, hr, hh, hrun, hearly], s.earlyWrite_early, fun he => by simp [State.earlyWrite, he]⟩
    · rw [hx]; simp [hostWrite, hr, hrun, hlock, hh]
    · rw [hx]
      rcases hrun with hrun | hearly
      · simp [hostWrite, hr, hrun, hlock, hund]
      · simp [hostWrite, hr, hearly, hlock, hund]
    · have hw : exec (.registerWrite m a w) s = .next (s.regWrite m (a.toNat / 4 * 4) w) := exec_takes ht rfl rfl
      refine ⟨hw, fun hr => hw.trans (congrArg _ (regWrite_reserved hr)), fun r i hlo hhi hr => ?_⟩
      rw [regWrite_of_row hlo hhi hr] at hw
      refine ⟨fun hro => hw.trans (congrArg _ (plainWrite_unwritable hro)), fun hrw => ?_⟩
      rw [plainWrite_rw hrw] at hw
      exact completes_of_exec hw ⟨State.rd_wr_self .., rfl, fun b hb => State.rd_wr_ne _ _ (by simpa using hb)⟩

/-! ### Latches -/

theorem mem_of_findRow {a : Nat} {rs : List RegRow} {r : RegRow} {i : List Nat} (h : findRow a rs = some (r, i)) : r ∈ rs := by
  induction rs with
  | nil => cases h
  | cons x xs ih =>
    unfold findRow at h
    split at h
    · obtain ⟨rfl, rfl⟩ := Prod.mk.inj (Option.some.inj h)
      exact List.mem_cons_self
    · exact List.mem_cons_of_mem _ (ih h)

theorem mem_of_rowsOf {a : Nat} {bs : List (Nat × Nat × List RegRow)} {r : RegRow} (h : r ∈ rowsOf a bs) :
    ∃ b ∈ bs, a ≤ b.2.1 ∧ r ∈ b.2.2 := by
  induction bs with
  | nil => cases h
  | cons x xs ih =>
    obtain ⟨lo, hi, rs⟩ := x
    unfold rowsOf at h
    split at h
    · exact ⟨_, List.mem_cons_self, by simp_all⟩
    · obtain ⟨b, hb, hab⟩ := ih h
      exact ⟨b, List.mem_cons_of_mem _ hb, hab⟩

/-- The blocks that hold a 64-bit register end below the queues. -/
theorem loBlocks_low : regBlocks.all (fun b => decide (b.2.1 < 0x400000) || b.2.2.all fun r => !loBases.contains r.base) = true := by
  decide +kernel

theorem lt_of_isLo {a : Nat} (h : isLo a = true) : a < 0x400000 := by
  unfold isLo at h
  split at h
  next r i hr =>
    unfold regRow? at hr
    split at hr
    · cases hr
    · obtain ⟨b, hb, hab, hrb⟩ := mem_of_rowsOf (mem_of_findRow hr)
      have hall := List.all_eq_true.1 loBlocks_low b hb
      rcases Bool.or_eq_true_iff.1 hall with hlt | hrows
      · have := of_decide_eq_true hlt
        omega
      · have := List.all_eq_true.1 hrows r hrb
        rw [h] at this
        cases this
  · cases h

/-- A word read where nothing moves by itself. -/
theorem regRead_still {s : State} (m : Master) {a : Nat} (ha : a % 4 = 0) (hlt : a < 0xFE2000) (hmove : s.moving a = none) :
    s.regRead m a =
      if isLo a then (s.hostRead a, s.onQuay fun q => { q with latches := nput m.num (a, s.hostRead (a + 4)) q.latches })
      else match nfind m.num s.quay.latches with
        | some (lo, hi) =>
          if a = lo + 4 then (hi, s)
          else if 0x400000 ≤ a ∧ a < 0x500000 ∧ a % 0x100 = 0x5C then (s.hostRead a, quePop ((a - 0x400000) / 0x100) s)
            else (s.hostRead a, s)
        | none =>
          if 0x400000 ≤ a ∧ a < 0x500000 ∧ a % 0x100 = 0x5C then (s.hostRead a, quePop ((a - 0x400000) / 0x100) s)
          else (s.hostRead a, s) := by
  have h4 : a / 4 * 4 = a := by omega
  have hbank : s.bankCount a = s := by unfold State.bankCount; rw [if_neg (by omega)]
  simp only [State.regRead, h4, hmove, hbank]
  rfl

theorem regRead_lo (s : State) (m : Master) {a : Nat} (ha : a % 4 = 0) (hlo : isLo a = true) (hmove : s.moving a = none) :
    s.regRead m a = (s.hostRead a, s.onQuay fun q => { q with latches := nput m.num (a, s.hostRead (a + 4)) q.latches }) := by
  have := lt_of_isLo hlo
  rw [regRead_still m ha (by omega) hmove, if_pos hlo]

theorem regRead_hi (s : State) (m : Master) {a : Nat} {hi : Word} (ha : a % 4 = 0) (hlo : isLo (a + 4) = false) (hlt : a < 0x400000)
    (hmove : s.moving (a + 4) = none) (hlatch : nfind m.num s.quay.latches = some (a, hi)) : s.regRead m (a + 4) = (hi, s) := by
  rw [regRead_still m (by omega) (by omega) hmove, if_neg (by simp [hlo]), hlatch]
  exact if_pos rfl

theorem exec_loRead (m : Master) (a : BitVec 26) {s : State} (h : s.fabricUp) {v : Word} {t : State} (hr : s.regRead m a.toNat = (v, t)) :
    exec (.loRead m a) s = .next (t.send (.answer m (leBytes 4 v.toNat))) := by
  have hx : exec (.loRead m a) s = .next (readAndAnswer m a.toNat s) := onCore_fabric _ h
  rw [hx]
  simp [readAndAnswer, hr]

theorem loRead_hi {s : State} (m : Master) {a : Nat} {hi : Word} (hup : s.fabricUp) (ha : a % 4 = 0) (hlo : isLo (a + 4) = false)
    (hlt : a < 0x400000) (hmove : s.moving (a + 4) = none) (hlatch : nfind m.num s.quay.latches = some (a, hi)) :
    completes (.loRead m (BitVec.ofNat 26 (a + 4))) s fun t => t = { s with out := s.out ++ [.answer m (leBytes 4 hi.toNat)] } := by
  have hadr : (BitVec.ofNat 26 (a + 4)).toNat = a + 4 := Nat.mod_eq_of_lt (by omega)
  have hread := regRead_hi s m ha hlo hlt hmove hlatch
  rw [← hadr] at hread
  exact completes_of_exec (exec_loRead m _ hup hread) rfl

/-- Settles O10: the read of a `_LO` register only writes its own latch, and the `_HI` answers from it. -/
theorem sixtyFourBitReadsGoThroughTheLatch : Obligations.SixtyFourBitReadsGoThroughTheLatch := by
  intro m a s hup hlo hmove
  have hA : a.toNat / 4 * 4 % 4 = 0 := by omega
  have hlt := lt_of_isLo hlo
  have hword : s.regRead m a.toNat = s.regRead m (a.toNat / 4 * 4) := by
    have : a.toNat / 4 * 4 / 4 * 4 = a.toNat / 4 * 4 := by omega
    simp only [State.regRead, this]
  generalize a.toNat / 4 * 4 = A at *
  refine completes_of_exec (exec_loRead m a hup (hword.trans (regRead_lo s m hA hlo hmove)))
    ⟨rfl, nfind_nput_self _ _ _, fun n hn => nfind_nput_ne _ _ hn, rfl, fun hhi hmove' => ?_⟩
  exact loRead_hi m ⟨hup.1, hup.2⟩ hA hhi hlt hmove' (nfind_nput_self _ _ _)

end Sys2Proof.Machine
end
section
/-! PROOF. Bits of registers that an effect spares, and the Cox's selection (R57 to R63, R66). -/

namespace Sys2Proof.Machine

/-! ### Bits that an effect spares -/

/-- From `s` to `t` every bit of a register outside `M` is the same. -/
def spares (M : Nat → Nat → Prop) (s t : State) : Prop := ∀ a i, ¬ M a i → t.b a i = s.b a i

section
variable {M : Nat → Nat → Prop} {s t u : State}

theorem spares.refl (s : State) : spares M s s := fun _ _ _ => rfl

theorem spares.trans (h : spares M s t) (h2 : spares M t u) : spares M s u := fun a i hm => (h2 a i hm).trans (h a i hm)

theorem spares.mono {M' : Nat → Nat → Prop} (h : spares M s t) (hM : ∀ a i, M a i → M' a i) : spares M' s t :=
  fun a i hm => h a i fun h' => hm (hM a i h')

theorem spares.f (h : spares M s t) {a hi lo : Nat} (hm : ∀ i, lo ≤ i → i ≤ hi → ¬ M a i) : t.f a hi lo = s.f a hi lo :=
  bf_congr_bits fun i hlo hhi => h a i (hm i hlo hhi)

theorem spares.rd (h : spares M s t) {a : Nat} (hm : ∀ i, ¬ M a i) : t.rd a = s.rd a :=
  BitVec.eq_of_getLsbD_eq fun i _ => h a i (hm i)

theorem spares_of_rd (h : ∀ a, (∃ i, ¬ M a i) → t.rd a = s.rd a) : spares M s t := fun a i hm => State.b_of_rd (h a ⟨i, hm⟩) i

theorem spares_of_regs (h : t.regs = s.regs) : spares M s t := fun a i _ => State.b_congr h a i

theorem spares_wr (s : State) {a : Nat} (v : Word) (hm : ∀ i, M a i) : spares M s (s.wr a v) :=
  spares_of_rd fun _ ⟨i, hi⟩ => s.rd_wr_ne v fun e => hi (e ▸ hm i)

theorem spares_setB (s : State) {a i : Nat} (v : Bool) (hm : M a i) : spares M s (s.setB a i v) := fun b j hj => by
  by_cases hb : b = a
  · subst hb
    exact s.b_setB_ne b v fun e => hj (e ▸ hm)
  · exact State.b_of_rd (s.rd_setB_ne i v hb) j

theorem spares_setF (s : State) {a hi lo : Nat} (v : Nat) (hl : lo ≤ hi) (hm : ∀ i, lo ≤ i → i ≤ hi → M a i) :
    spares M s (s.setF a hi lo v) := fun b j hj => by
  by_cases hb : b = a
  · subst hb
    by_cases hin : lo ≤ j ∧ j ≤ hi
    · exact absurd (hm j hin.1 hin.2) hj
    · exact s.b_setF_outside b hi lo v (by omega) hl
  · exact State.b_of_rd (s.rd_setF_ne hi lo v hb) j

theorem spares_onlyIf (c : Bool) (g : State → State) (h : spares M s (g s)) : spares M s (onlyIf c g s) := by
  cases c
  · exact spares.refl s
  · exact h

theorem spares_forAll {α : Type} (l : List α) (g : α → State → State) (h : ∀ a ∈ l, ∀ t, spares M t (g a t)) (s : State) :
    spares M s (forAll l g s) :=
  forAll_keeps (fun t => spares M s t) g l s (fun a ha t ht => ht.trans (h a ha t)) (spares.refl s)

/-- The registers of the event writer's block, which hold the drop counters. -/
theorem dropCounter_range {a : Nat} (h : dropCounter a) : 0x70000 ≤ a ∧ a < 0x80000 := by
  by_contra hn
  exact notDrop (by omega) h

theorem spares_events (hM : ∀ a i, 0x70000 ≤ a → a < 0x80000 → M a i) (h : eventsOnly s t) : spares M s t :=
  spares_of_rd fun a ⟨i, hi⟩ => h.2 a fun hd => hi (hM a i (dropCounter_range hd).1 (dropCounter_range hd).2)

theorem eventsOnly_cox (h : eventsOnly s t) : t.cox = s.cox := by rw [h.1]

end

/-! ### The Cox's notes and selection -/

/-- The event writer's block, and `COX_HIST`. -/
def noteMark (a _i : Nat) : Prop := a = 0x20030 ∨ (0x70000 ≤ a ∧ a < 0x80000)

/-- The wait-to-restore bits, of the Cox and of its references. -/
def wtrMark (a i : Nat) : Prop := (a = 0x20000 ∧ i = 10) ∨ (0x20108 ≤ a ∧ a % 0x20 = 8 ∧ i = 8)

theorem spares_onCox {M : Nat → Nat → Prop} (s : State) (g : CoxSt → CoxSt) : spares M s (s.onCox g) := spares_of_regs rfl

theorem spares_onRef {M : Nat → Nat → Prop} (s : State) (n : Nat) (g : RefSt → RefSt) : spares M s (s.onRef n g) := spares_of_regs rfl

theorem raiseFree_spares (s : State) (e : Ev) (inst : Nat) : spares noteMark s (s.raiseFree e inst) :=
  spares_of_rd fun _ ⟨_, hi⟩ => State.raiseFree_rd s e inst fun hd => hi (.inr (dropCounter_range hd))

theorem coxNote_spares (s : State) (i : Nat) (e : Ev) : spares noteMark s (s.coxNote i e) :=
  (spares_setB s true (.inl rfl)).trans
    (spares_onlyIf _ _ (raiseFree_spares _ _ _))

theorem coxNote_cox (s : State) (i : Nat) (e : Ev) : (s.coxNote i e).cox = s.cox :=
  onlyIf_field State.cox _ _ _ (State.raiseFree_cox _ e 0)

theorem onlyIf_coxNote_cox (c : Bool) (s : State) (i : Nat) (e : Ev) : (onlyIf c (fun u => u.coxNote i e) s).cox = s.cox :=
  onlyIf_field State.cox _ _ _ (coxNote_cox _ _ _)

theorem wtrStop_spares (s : State) : spares wtrMark s s.wtrStop := by
  unfold State.wtrStop
  split
  · exact spares.refl s
  next n hn =>
    exact (spares_setB (s.onCox _) false (.inl ⟨rfl, rfl⟩)).trans
      (spares_setB _ false (.inr ⟨by unfold Reg.coxRefStat; omega, by unfold Reg.coxRefStat; omega, rfl⟩))

theorem wtrStop_refs (s : State) : s.wtrStop.cox = { s.cox with wtr := none } := by
  unfold State.wtrStop
  split
  next hn => rw [← hn]
  next => rfl

theorem wtrStart_spares (s : State) (n : Nat) : spares wtrMark s (s.wtrStart n) :=
  (wtrStop_spares s).trans ((spares_setB (s.wtrStop.onCox _) true (.inl ⟨rfl, rfl⟩)).trans
    (spares_setB _ true (.inr ⟨by unfold Reg.coxRefStat; omega, by unfold Reg.coxRefStat; omega, rfl⟩)))

/-- What the selection decides: the timer of the wait, and what is due. -/
theorem coxJudge_spares (s : State) (sel fell : Bool) : spares wtrMark s (s.coxJudge sel fell) := by
  unfold State.coxJudge
  have hdue : ∀ d, spares wtrMark s (s.wtrStop.onCox fun c => { c with due := d }) := fun d =>
    (wtrStop_spares s).trans (spares_of_regs rfl)
  split
  · exact spares.refl s
  · split
    · exact wtrStop_spares s
    · split
      · exact hdue _
      · dsimp only
        split
        · exact hdue _
        · split
          · exact hdue _
          · split
            · exact spares.refl s
            · split
              · exact spares.refl s
              · exact wtrStart_spares s _

theorem coxJudge_cox (s : State) (sel fell : Bool) : (s.coxJudge sel fell).cox = { s.cox with
    wtr := (s.coxJudge sel fell).cox.wtr, due := (s.coxJudge sel fell).cox.due } := by
  have hstop := wtrStop_refs s
  unfold State.coxJudge
  split
  · rfl
  · split
    · rw [hstop]
    · split
      · simp only [State.onCox, hstop]
      · dsimp only
        split
        · simp only [State.onCox, hstop]
        · split
          · simp only [State.onCox, hstop]
          · split
            · rfl
            · split
              · rfl
              · simp only [State.wtrStart, State.onCox, State.setB, State.wr, hstop]

theorem coxJudge_ref (s : State) (sel fell : Bool) (n : Nat) : (s.coxJudge sel fell).ref n = s.ref n := by
  rw [State.ref, coxJudge_cox, State.ref]

/-- A reference's loss of qualification. -/
def lossMark (n a i : Nat) : Prop := (a = 0x20108 + n * 0x20 ∧ i = 3) ∨ noteMark a i

theorem disqualify_spares (s : State) (n : Nat) : spares (lossMark n) s (s.disqualify n) := by
  unfold State.disqualify
  dsimp only
  split
  · exact ((spares_onRef s n _).trans (spares_onCox _ _)).trans ((spares_setB _ false (.inl ⟨rfl, rfl⟩)).trans
      ((coxNote_spares _ _ _).mono fun _ _ => .inr))
  · exact (spares_onRef s n _).trans (spares_onCox _ _)

theorem disqualify_lost (s : State) {n : Nat} (hn : n < 8) : (s.disqualify n).b (Reg.coxRefStat n) 3 = false := by
  unfold State.disqualify
  dsimp only
  split
  · exact ((coxNote_spares _ 5 .coxDisqualified) _ 3 (by unfold noteMark Reg.coxRefStat; omega)).trans (State.b_setB_self _ _ 3 false (by decide))
  next h => exact Bool.eq_false_iff.2 h

/-- The total correction writes `COX_CTRL_VAL`. -/
theorem coxTotal_spares (s : State) : spares (fun a i => a = 0x20040 ∨ noteMark a i) s s.coxTotal := by
  unfold State.coxTotal
  split
  · exact (spares_wr s _ fun _ => .inl rfl).trans (spares_onCox _ _)
  · exact ((spares_wr s _ fun _ => .inl rfl).trans (spares_onCox _ _)).trans
      (spares_onlyIf _ _ ((coxNote_spares _ _ _).mono fun _ _ => .inr))

theorem coxTotal_cox (s : State) : ∃ c, s.coxTotal.cox = { s.cox with clipped := c } := by
  unfold State.coxTotal
  split
  · exact ⟨false, rfl⟩
  · dsimp only
    rw [onlyIf_coxNote_cox]
    exact ⟨_, rfl⟩

/-! ### Gates (R57 to R60) -/

/-- The soft alarm of a gate (R58). -/
def State.gateSoft (s : State) (n : Nat) (o : Int) : State :=
  let st := Reg.coxRefStat n
  if decide (s.softWindow < o.natAbs) then
    if s.b st 1 then s.onRef n fun r => { r with softOk := 0 }
    else (((s.setB st 1 true).onRef n fun r => { r with softOk := 0 })).coxNote 4 .coxSoftAlarm
  else if s.b st 1 then
    if 2 ≤ (s.ref n).softOk + 1 then (s.setB st 1 false).onRef n fun r => { r with softOk := 0 }
    else s.onRef n fun r => { r with softOk := r.softOk + 1 }
  else s

/-- The qualification that a gate gives or takes (R59, R60). -/
def State.gateQualify (s : State) (n : Nat) (hard : Bool) : State :=
  let st := Reg.coxRefStat n
  if hard then s.disqualify n
  else if s.b st 3 then s
  else if (s.ref n).gateOk && s.b st 0 && decide (1 ≤ s.ql n) then
    if 2 ≤ (s.ref n).clean + 1 then
      let t := (s.setB st 3 true).onRef n fun r => { r with clean := 0 }
      onlyIf (t.b Reg.coxHistEn 5) (fun u => u.raise .coxQualified 0 n) t
    else s.onRef n fun r => { r with clean := r.clean + 1 }
  else s.onRef n fun r => { r with clean := 0 }

theorem gateRef_measured {s : State} {n : Nat} (o : Int) (h : s.refOn n = true) : ∃ g : RefSt → RefSt, s.gateRef n (some o) =
    ((((s.setI32 (Reg.coxRefFofs n) o).gateSoft n o).setB (Reg.coxRefStat n) 2 (decide (9200000 < o.natAbs))).gateQualify n
      (decide (9200000 < o.natAbs))).onRef n g := by
  refine ⟨fun r => { r with gateOk := ((((s.setI32 (Reg.coxRefFofs n) o).gateSoft n o).setB (Reg.coxRefStat n) 2
      (decide (9200000 < o.natAbs))).gateQualify n (decide (9200000 < o.natAbs))).b (Reg.coxRefStat n) 0 }, ?_⟩
  unfold State.gateRef
  rw [h]
  rfl

/-- The bits that a gate of reference `n` writes. -/
def gateMark (n a i : Nat) : Prop := a = 0x2010C + n * 0x20 ∨ (a = 0x20108 + n * 0x20 ∧ 1 ≤ i ∧ i ≤ 3) ∨ noteMark a i

/-- The soft alarm and its note. -/
def softMark (n a i : Nat) : Prop := (a = 0x20108 + n * 0x20 ∧ i = 1) ∨ noteMark a i

theorem gateSoft_spares (s : State) (n : Nat) (o : Int) : spares (softMark n) s (s.gateSoft n o) := by
  have hset : ∀ v, spares (softMark n) s (s.setB (Reg.coxRefStat n) 1 v) := fun v => spares_setB s v (.inl ⟨rfl, rfl⟩)
  unfold State.gateSoft
  dsimp only
  split
  · split
    · exact spares_onRef _ _ _
    · exact ((hset true).trans (spares_onRef _ _ _)).trans ((coxNote_spares _ _ _).mono fun _ _ => .inr)
  · split
    · split
      · exact (hset false).trans (spares_onRef _ _ _)
      · exact spares_onRef _ _ _
    · exact spares.refl s

theorem gateQualify_spares (s : State) (n : Nat) (hard : Bool) : spares (lossMark n) s (s.gateQualify n hard) := by
  unfold State.gateQualify
  dsimp only
  split
  · exact disqualify_spares s n
  · split
    · exact spares.refl s
    · split
      · split
        · exact ((spares_setB s true (.inl ⟨rfl, rfl⟩)).trans (spares_onRef _ _ _)).trans
            (spares_onlyIf _ _ (spares_events (fun _ _ h1 h2 => .inr (.inr ⟨h1, h2⟩)) (State.raise_only _ _ _ _)))
        · exact spares_onRef _ _ _
      · exact spares_onRef _ _ _

/-- A gate shows the offset and the hard alarm, and a hard alarm takes the qualification. -/
theorem gateRef_shows {s : State} {n : Nat} (o : Int) (hn : n < 8) (h : s.refOn n = true) :
    (s.gateRef n (some o)).rd (Reg.coxRefFofs n) = BitVec.ofInt 32 o ∧
    (s.gateRef n (some o)).b (Reg.coxRefStat n) 2 = decide (9200000 < o.natAbs) ∧
    (9200000 < o.natAbs → (s.gateRef n (some o)).b (Reg.coxRefStat n) 3 = false) := by
  obtain ⟨g, hg⟩ := gateRef_measured o h
  rw [hg]
  set u := (s.setI32 (Reg.coxRefFofs n) o).gateSoft n o with hu
  set v := u.setB (Reg.coxRefStat n) 2 (decide (9200000 < o.natAbs)) with hv
  have hqual := gateQualify_spares v n (decide (9200000 < o.natAbs))
  refine ⟨?_, ?_, fun hard => ?_⟩
  · calc (v.gateQualify n _).rd (Reg.coxRefFofs n)
        = v.rd (Reg.coxRefFofs n) := hqual.rd fun i => by unfold lossMark noteMark Reg.coxRefFofs; omega
      _ = u.rd (Reg.coxRefFofs n) := u.rd_setB_ne _ _ (by unfold Reg.coxRefFofs Reg.coxRefStat; omega)
      _ = BitVec.ofInt 32 o := ((gateSoft_spares _ n o).rd fun i => by unfold softMark noteMark Reg.coxRefFofs; omega).trans
          (s.rd_setI32_self _ _)
  · exact (hqual _ 2 (by unfold lossMark noteMark Reg.coxRefStat; omega)).trans (State.b_setB_self _ _ _ _ (by decide))
  · rw [decide_eq_true hard]
    exact disqualify_lost v hn

theorem gateRef_spares (s : State) (n : Nat) (o : Option Int) : spares (gateMark n) s (s.gateRef n o) := by
  cases h : s.refOn n with
  | false => unfold State.gateRef; rw [h]; exact spares.refl s
  | true =>
    cases o with
    | none => unfold State.gateRef; rw [h]; exact spares_onRef s n fun r => { r with clean := 0, softOk := 0, gateOk := s.b (Reg.coxRefStat n) 0 }
    | some o =>
      obtain ⟨g, hg⟩ := gateRef_measured o h
      rw [hg]
      have hloss : ∀ a i, lossMark n a i → gateMark n a i := fun a i h => by unfold lossMark noteMark at h; unfold gateMark noteMark; omega
      have hsoft : ∀ a i, softMark n a i → gateMark n a i := fun a i h => by unfold softMark noteMark at h; unfold gateMark noteMark; omega
      exact ((spares_wr s _ fun _ => .inl rfl).trans (((gateSoft_spares _ n o).mono hsoft).trans
        ((spares_setB _ _ (.inr (.inl ⟨rfl, by decide, by decide⟩))).trans ((gateQualify_spares _ n _).mono hloss)))).trans
        (spares_onRef _ _ _)

theorem gateRef_disabled {s : State} {n : Nat} (o : Option Int) (h : s.refOn n = false) : s.gateRef n o = s := by
  unfold State.gateRef; rw [h]; rfl

end Sys2Proof.Machine
end
section
/-! PROOF. The Cox's gates, its pins' messages and its timers (R53 to R74). -/

namespace Sys2Proof.Machine

/-! ### One reference of a run over all of them -/

/-- A run over distinct elements is the run before one of them, that one's, and the run after it. -/
theorem forAll_split {α : Type} {l : List α} (hl : l.Nodup) {n : α} (hn : n ∈ l) (g : α → State → State) (s : State) :
    ∃ l1 l2, n ∉ l1 ∧ n ∉ l2 ∧ forAll l g s = forAll l2 g (g n (forAll l1 g s)) := by
  obtain ⟨l1, l2, rfl⟩ := List.append_of_mem hn
  rw [List.nodup_append] at hl
  obtain ⟨-, h2, hdisj⟩ := hl
  refine ⟨l1, l2, fun h1 => hdisj n h1 n List.mem_cons_self rfl, (List.nodup_cons.1 h2).1, ?_⟩
  simp [forAll]

/-- The registers of reference `n`. -/
theorem gateMark_other {m n a i : Nat} (hn : n < 8) (hne : m ≠ n) (ha : a = 0x2010C + n * 0x20 ∨ a = 0x20108 + n * 0x20 ∨ a = 0x20100 + n * 0x20) :
    ¬ gateMark m a i := by
  unfold gateMark noteMark; omega

theorem gates_spare {l : List Nat} {n : Nat} (hn : n < 8) (hmem : n ∉ l) (off : Nat → Option Int) (s : State) :
    spares (fun a _ => ¬ (a = 0x2010C + n * 0x20 ∨ a = 0x20108 + n * 0x20 ∨ a = 0x20100 + n * 0x20)) s
      (forAll l (fun k t => t.gateRef k (off k)) s) :=
  spares_forAll l _ (fun m hm t => (gateRef_spares t m (off m)).mono fun _ _ hg ha =>
    gateMark_other hn (fun e => hmem (e ▸ hm)) ha hg) s

/-- What a gate of every reference does to one of them. -/
theorem gates_at {s : State} {n : Nat} (hn : n < 8) (off : Nat → Option Int) : ∃ u : State,
    (∀ i, u.b (Reg.coxRefCfg n) i = s.b (Reg.coxRefCfg n) i) ∧ (∀ i, u.b (Reg.coxRefStat n) i = s.b (Reg.coxRefStat n) i) ∧
    (forAll (upto 8) (fun k t => t.gateRef k (off k)) s).rd (Reg.coxRefFofs n) = (u.gateRef n (off n)).rd (Reg.coxRefFofs n) ∧
    (∀ i, (forAll (upto 8) (fun k t => t.gateRef k (off k)) s).b (Reg.coxRefStat n) i = (u.gateRef n (off n)).b (Reg.coxRefStat n) i) := by
  obtain ⟨l1, l2, h1, h2, heq⟩ := forAll_split List.nodup_range (List.mem_range.2 hn) (fun k t => State.gateRef t k (off k)) s
  have hbefore := gates_spare hn h1 off s
  have hafter := gates_spare hn h2 off ((forAll l1 (fun k t => t.gateRef k (off k)) s).gateRef n (off n))
  refine ⟨forAll l1 (fun k t => t.gateRef k (off k)) s, fun i => hbefore _ i ?_, fun i => hbefore _ i ?_, ?_, fun i => ?_⟩
  · simp [Reg.coxRefCfg]
  · simp [Reg.coxRefStat]
  · exact (congrArg (State.rd · _) heq).trans (hafter.rd fun i => by simp [Reg.coxRefFofs])
  · exact (congrArg (State.b · _ i) heq).trans (hafter _ i (by simp [Reg.coxRefStat]))

/-- The bits that a gate writes besides those of its references. -/
def gateRestMark (a i : Nat) : Prop := a = 0x2002C ∨ a = 0x20040 ∨ wtrMark a i ∨ noteMark a i

/-- What a gate does to the loop's own numbers (R64, R68, R70). -/
def State.gateLoop (s : State) (g : GateIn) : State :=
  let s := onlyIf ((s.coxState == 1 || s.coxState == 2) && s.cox.switch.isNone && !s.cox.held)
    (fun t => t.onCox fun c => { c with ctrl := g.ctrl }) s
  let good := decide (g.phaseErr.natAbs ≤ 2000) && decide (g.freqErr.natAbs ≤ 50000)
  if s.coxState = 1 then s.onCox fun c => { c with lockGates := if good then c.lockGates + 1 else 0 }
  else if s.coxState = 2 then s.onCox fun c => { c with history := (c.ctrl :: c.history).take 62 }
  else s

theorem coxGate_eq (g : GateIn) (s : State) : coxGate g s =
    ((((forAll (upto 8) (fun n t => t.gateRef n (gateOffset g n)) s).setI32 Reg.coxPhaseErr g.phaseErr).gateLoop g).coxTotal).coxJudge
      false false := rfl

theorem gateLoop_regs (s : State) (g : GateIn) : (s.gateLoop g).regs = s.regs := by
  have hctrl := onlyIf_field State.regs ((s.coxState == 1 || s.coxState == 2) && s.cox.switch.isNone && !s.cox.held)
    (fun t => t.onCox fun c => { c with ctrl := g.ctrl }) s rfl
  unfold State.gateLoop
  dsimp only
  split
  · exact hctrl
  · split
    · exact hctrl
    · exact hctrl

/-- The part of a gate after its references: the phase error, the loop, and the selection. -/
theorem coxGate_rest (g : GateIn) (s : State) :
    spares gateRestMark (forAll (upto 8) (fun n t => t.gateRef n (gateOffset g n)) s) (coxGate g s) ∧
      (coxGate g s).rd Reg.coxPhaseErr = BitVec.ofInt 32 g.phaseErr := by
  rw [coxGate_eq]
  set u := forAll (upto 8) (fun n t => State.gateRef t n (gateOffset g n)) s
  have hloop := gateLoop_regs (u.setI32 Reg.coxPhaseErr g.phaseErr) g
  have htotal := coxTotal_spares ((u.setI32 Reg.coxPhaseErr g.phaseErr).gateLoop g)
  have hjudge := coxJudge_spares (((u.setI32 Reg.coxPhaseErr g.phaseErr).gateLoop g).coxTotal) false false
  refine ⟨(((spares_wr u _ fun _ => .inl rfl).trans (spares_of_regs hloop)).trans (htotal.mono fun a i h => ?_)).trans
    (hjudge.mono fun _ _ h => .inr (.inr (.inl h))), ?_⟩
  · exact h.elim (fun h => .inr (.inl h)) fun h => .inr (.inr (.inr h))
  · exact (hjudge.rd fun i => by unfold wtrMark Reg.coxPhaseErr; omega).trans
      ((htotal.rd fun i => by unfold noteMark Reg.coxPhaseErr; omega).trans ((State.rd_congr hloop _).trans (u.rd_setI32_self _ _)))

/-- The bits that a gate writes. -/
def gateAllMark (a i : Nat) : Prop := gateRestMark a i ∨ ∃ n < 8, gateMark n a i

theorem coxGate_spares (g : GateIn) (s : State) : spares gateAllMark s (coxGate g s) :=
  (spares_forAll (upto 8) _ (fun n hn t => (gateRef_spares t n (gateOffset g n)).mono fun _ _ h => .inr ⟨n, List.mem_range.1 hn, h⟩) s).trans
    ((coxGate_rest g s).1.mono fun _ _ => .inl)

theorem gateRestMark_ref {n i : Nat} (hn : n < 8) (hi : i ≠ 8) : ¬ gateRestMark (Reg.coxRefStat n) i := by
  unfold gateRestMark wtrMark noteMark Reg.coxRefStat; omega

/-- Settles O41: reference by reference of the gate; the loop, the total and the selection leave what the clauses name. -/
theorem gatesJudgeEveryReference : Obligations.GatesJudgeEveryReference := by
  intro g s hup
  obtain ⟨hrest, herr⟩ := coxGate_rest g s
  have hall := coxGate_spares g s
  refine completes_of_exec (onMatrix_up (coxGate g) hup) ⟨fun n hn o hon ho => ?_, fun n hn hoff => ?_, herr, ?_, ?_, ?_⟩
  · obtain ⟨u, hcfg, hstat, hfofs, hbits⟩ := gates_at (s := s) hn (gateOffset g)
    obtain ⟨hshow, halarm, hlost⟩ := gateRef_shows (s := u) o hn ((hcfg 31).trans hon)
    rw [ho] at hfofs hbits
    refine ⟨?_, ?_, fun hard => ?_⟩
    · exact (hrest.rd fun i => by unfold gateRestMark wtrMark noteMark Reg.coxRefFofs; omega).trans (hfofs.trans hshow)
    · exact (hrest _ 2 (gateRestMark_ref hn (by decide))).trans ((hbits 2).trans halarm)
    · rw [State.qualified, hrest _ 3 (gateRestMark_ref hn (by decide)), hbits 3, hlost hard, Bool.and_false]
  · obtain ⟨u, hcfg, hstat, hfofs, hbits⟩ := gates_at (s := s) hn (gateOffset g)
    rw [gateRef_disabled _ ((hcfg 31).trans hoff)] at hbits
    refine bf_congr_bits fun i hlo hhi => ?_
    exact (hrest _ i (gateRestMark_ref hn (by omega))).trans ((hbits i).trans (hstat i))
  · exact hall.f fun i hlo hhi => by
      rintro (h | ⟨n, hn, h⟩)
      · unfold gateRestMark wtrMark noteMark Reg.coxState at h; omega
      · unfold gateMark noteMark Reg.coxState at h; omega
  · exact hall.f fun i hlo hhi => by
      rintro (h | ⟨n, hn, h⟩)
      · unfold gateRestMark wtrMark noteMark Reg.coxState at h; omega
      · unfold gateMark noteMark Reg.coxState at h; omega
  · exact kept_sameMemory (coxGate_kept g s)

/-! ### Activity and quality (R53 to R55, R59) -/

theorem activityLoss_spares (s : State) (n : Nat) : spares (fun a i => wtrMark a i ∨ lossMark n a i)
    ((s.setB (Reg.coxRefStat n) 0 false).onRef n fun r => { r with gateOk := false }) (s.activityLoss n) :=
  ((disqualify_spares _ n).mono fun _ _ => .inr).trans ((coxJudge_spares _ _ _).mono fun _ _ => .inl)

theorem activityLoss_shows (s : State) {n : Nat} (hn : n < 8) : (s.activityLoss n).b (Reg.coxRefStat n) 0 = false ∧
    (s.activityLoss n).qualified n = false ∧ (s.activityLoss n).coxState = s.coxState := by
  have hall := activityLoss_spares s n
  refine ⟨?_, ?_, ?_⟩
  · exact (hall _ 0 (by unfold wtrMark lossMark noteMark Reg.coxRefStat; omega)).trans (s.b_setB_self _ _ _ (by decide))
  · have hlost := (coxJudge_spares (State.disqualify ((s.setB (Reg.coxRefStat n) 0 false).onRef n fun r => { r with gateOk := false }) n)
      false false (Reg.coxRefStat n) 3 (by unfold wtrMark; omega)).trans (disqualify_lost _ hn)
    exact (congrArg _ hlost).trans (Bool.and_false _)
  · exact (hall.f fun i hlo hhi => by unfold wtrMark lossMark noteMark Reg.coxState; omega).trans
      (State.f_of_rd (s.rd_setB_ne _ _ (by unfold Reg.coxState Reg.coxRefStat; omega)) _ _)

/-- A new QL in force, before what it brings about. -/
def State.qlShown (s : State) (n q src : Nat) : State := (s.setF (Reg.coxRefStat n) 15 12 q).setF (Reg.coxRefStat n) 11 10 src

theorem disqualify_cox (s : State) (n : Nat) : (s.disqualify n).cox = ((s.onRef n fun r => { r with clean := 0 }).onCox fun c =>
    { c with switch := c.switch.map fun w => if w.target = n then { w with fit := false } else w }).cox := by
  unfold State.disqualify
  dsimp only
  split
  · rw [coxNote_cox]; rfl
  · rfl

theorem disqualify_pinQl (s : State) (n : Nat) : ((s.disqualify n).ref n).pinQl = (s.ref n).pinQl := by
  rw [State.ref, disqualify_cox]
  simp only [State.onRef, State.onCox, nget_nset_self]

/-- A lowered QL of a reference is noted while a switch runs (R66). -/
def State.qlFall (s : State) (n : Nat) (c : Bool) : State :=
  onlyIf (c && s.cox.switch.isSome) (fun v => v.onCox fun c => { c with storedFall := n :: c.storedFall }) s

theorem qlFall_spares {M : Nat → Nat → Prop} (s : State) (n : Nat) (c : Bool) : spares M s (s.qlFall n c) :=
  spares_onlyIf _ _ (spares_onCox _ _)

theorem qlFall_ref (s : State) (n : Nat) (c : Bool) : (s.qlFall n c).ref n = s.ref n :=
  onlyIf_field (State.ref · n) _ _ _ rfl

theorem setQl_eq (s : State) (n q src : Nat) : s.setQl n q src =
    if s.ql n = q then s.qlShown n q src
    else ((if q = 0 then ((s.qlShown n q src).coxNote 7 .coxQlChange).disqualify n else (s.qlShown n q src).coxNote 7 .coxQlChange).qlFall n
      (decide (q < s.ql n))).coxJudge false (n == s.inUse && decide (q < s.ql n)) := rfl

/-- Besides the QL shown, a new QL in force writes the bits of a lost qualification and of the timer. -/
theorem setQl_spares (s : State) (n q src : Nat) :
    spares (fun a i => wtrMark a i ∨ lossMark n a i) (s.qlShown n q src) (s.setQl n q src) := by
  have hnote := (coxNote_spares (s.qlShown n q src) 7 .coxQlChange).mono (M' := fun a i => wtrMark a i ∨ lossMark n a i)
    fun _ _ h => .inr (.inr h)
  rw [setQl_eq]
  split
  · exact spares.refl _
  · refine spares.trans (spares.trans ?_ (qlFall_spares _ n _)) ((coxJudge_spares _ _ _).mono fun _ _ => .inl)
    split
    · exact hnote.trans ((disqualify_spares _ n).mono fun _ _ => .inr)
    · exact hnote

theorem setQl_pinQl (s : State) (n q src : Nat) : ((s.setQl n q src).ref n).pinQl = (s.ref n).pinQl := by
  have hnote : ((s.qlShown n q src).coxNote 7 .coxQlChange).ref n = s.ref n := by rw [State.ref, coxNote_cox]; rfl
  rw [setQl_eq]
  split
  · rfl
  · rw [coxJudge_ref, qlFall_ref]
    split
    · rw [disqualify_pinQl, hnote]
    · rw [hnote]

theorem setQl_shows (s : State) {n q src : Nat} (hn : n < 8) (hq : q < 16) (hsrc : src < 4) :
    (s.setQl n q src).ql n = q ∧ (s.setQl n q src).f (Reg.coxRefStat n) 11 10 = src := by
  have hrest := setQl_spares s n q src
  refine ⟨?_, ?_⟩
  · refine (hrest.f fun i hlo hhi => by unfold wtrMark lossMark noteMark Reg.coxRefStat; omega).trans ?_
    rw [State.qlShown, State.f_setF_outside _ _ _ _ _ (.inr (by decide)) (by decide),
      State.f_setF_self _ _ _ _ _ (by decide) (by decide)]
    exact Nat.mod_eq_of_lt hq
  · refine (hrest.f fun i hlo hhi => by unfold wtrMark lossMark noteMark Reg.coxRefStat; omega).trans ?_
    rw [State.qlShown, State.f_setF_self _ _ _ _ _ (by decide) (by decide)]
    exact Nat.mod_eq_of_lt hsrc

theorem refreshQl_pin {s : State} {n q : Nat} (hn : n < 6) (hpin : s.b (Reg.coxRefCfg n) 1 = true) (hq : (s.ref n).pinQl = some q) :
    s.refreshQl n = s.setQl n q 1 := by
  unfold State.refreshQl
  rw [if_neg (by omega), hpin, hq]

theorem refreshQl_register {s : State} {n : Nat} (hn : n < 6) (hq : (s.ref n).pinQl = none) :
    s.refreshQl n = s.setQl n (s.f (Reg.coxRefQl n) 3 0) 0 := by
  unfold State.refreshQl
  rw [if_neg (by omega), hq]
  split
  next h => cases h
  next => rfl

/-- A bad byte is counted. -/
theorem qlMessage_bad {s : State} {n : Nat} {byte : BitVec 8} {framed : Bool} (hn : n < 8) (hpin : s.b (Reg.coxRefCfg n) 1 = true)
    (hbad : framed = false ∨ byte.toNat / 16 ≠ 15 - byte.toNat % 16) :
    (qlMessage n byte framed s).f (Reg.coxRefStat n) 23 16 = min 255 (s.f (Reg.coxRefStat n) 23 16 + 1) ∧
      (qlMessage n byte framed s).ql n = s.ql n ∧ (qlMessage n byte framed s).cox = s.cox := by
  have heq : qlMessage n byte framed s = onlyIf (s.f (Reg.coxRefStat n) 23 16 == 254) (fun u => u.raise .cntSat 2 (Reg.coxRefStat n))
      (s.setF (Reg.coxRefStat n) 23 16 (min 255 (s.f (Reg.coxRefStat n) 23 16 + 1))) := by
    unfold qlMessage
    dsimp only
    rw [hpin, if_neg (by decide), if_pos (by simpa using hbad)]
  have hev : spares noteMark (s.setF (Reg.coxRefStat n) 23 16 (min 255 (s.f (Reg.coxRefStat n) 23 16 + 1))) (qlMessage n byte framed s) := by
    rw [heq]
    exact spares_onlyIf _ _ (spares_events (fun _ _ h1 h2 => .inr ⟨h1, h2⟩) (State.raise_only _ _ _ _))
  refine ⟨?_, ?_, ?_⟩
  · refine (hev.f fun i _ _ => by unfold noteMark Reg.coxRefStat; omega).trans ?_
    rw [State.f_setF_self _ _ _ _ _ (by decide) (by decide)]
    exact Nat.mod_eq_of_lt (by omega)
  · exact (hev.f fun i _ _ => by unfold noteMark Reg.coxRefStat; omega).trans
      (State.f_setF_outside _ _ _ _ _ (.inl (by decide)) (by decide))
  · rw [heq]
    exact onlyIf_field State.cox _ (fun u => u.raise .cntSat 2 (Reg.coxRefStat n)) _ (State.raise_cox _ _ _ _)

/-- A second valid byte puts its QL in force. -/
theorem qlMessage_second {s : State} {n : Nat} {byte : BitVec 8} (hpin : s.b (Reg.coxRefCfg n) 1 = true)
    (hn : n < 6) (hgood : byte.toNat / 16 = 15 - byte.toNat % 16) (hlast : (s.ref n).lastQl = byte.toNat % 16) (hrun : 0 < (s.ref n).qlRun) :
    ∃ u : State, qlMessage n byte true s = u.setQl n (byte.toNat % 16) 1 := by
  unfold qlMessage
  dsimp only
  rw [hpin, if_neg (by decide), if_neg (by simp [hgood]), if_pos (by rw [if_pos ⟨hlast, hrun⟩]; omega)]
  exact ⟨_, refreshQl_pin hn hpin (by simp only [State.ref, State.onRef, State.onCox, nget_nset_self])⟩

/-- With no message for 5 s the register's QL is in force. -/
theorem qlTimeout_eq {s : State} {n : Nat} (hn : n < 6) (hpin : s.b (Reg.coxRefCfg n) 1 = true) : ∃ u : State,
    qlTimeout n s = u.setQl n (s.f (Reg.coxRefQl n) 3 0) 0 ∧ (u.ref n).pinQl = none := by
  set u := (s.onRef n fun r => { r with pinQl := none, qlRun := 0 }).coxNote 8 .coxQlTimeout with hu
  have hpinQl : (u.ref n).pinQl = none := by
    rw [State.ref, hu, coxNote_cox]
    simp only [State.onRef, State.onCox, nget_nset_self]
  have hreg : u.f (Reg.coxRefQl n) 3 0 = s.f (Reg.coxRefQl n) 3 0 :=
    ((coxNote_spares _ _ _).f fun i _ _ => by unfold noteMark Reg.coxRefQl; omega)
  refine ⟨u, ?_, hpinQl⟩
  rw [← hreg, ← refreshQl_register hn hpinQl]
  unfold qlTimeout
  rw [hpin]
  rfl

/-- Settles O42: what a loss of activity and a QL in force write, and that the selection after them leaves both. -/
theorem activityAndQualityFollowThePins : Obligations.ActivityAndQualityFollowThePins := by
  intro n s hup
  refine ⟨?_, completes_of_exec (onMatrix_up (State.activityBack · n) hup) rfl, fun byte framed => ⟨fun hoff => ?_, fun hpin hbad => ?_,
    fun hn hpin hframed hgood hlast hrun => ?_⟩, fun hn hpin => ?_⟩
  · obtain ⟨hact, hqual, hstate⟩ := activityLoss_shows s n.isLt
    exact completes_of_exec (onMatrix_up (State.activityLoss · n) hup)
      ⟨hact, hqual, hstate, kept_sameMemory (State.activityLoss_kept s n)⟩
  · refine (onMatrix_up (qlMessage n byte framed) hup).trans (congrArg _ ?_)
    unfold qlMessage
    dsimp only
    rw [hoff]
    rfl
  · obtain ⟨hcount, hql, hcox⟩ := qlMessage_bad n.isLt hpin hbad
    exact completes_of_exec (onMatrix_up (qlMessage n byte framed) hup) ⟨hcount, hql, hcox, kept_sameMemory (qlMessage_kept _ _ _ s)⟩
  · obtain ⟨u, hu⟩ := qlMessage_second hpin hn hgood hlast hrun
    obtain ⟨hql, hsrc⟩ := setQl_shows u n.isLt (Nat.mod_lt _ (by decide)) (by decide : 1 < 4)
    subst hframed
    refine completes_of_exec (onMatrix_up (qlMessage n byte true) hup) ⟨?_, ?_, kept_sameMemory (qlMessage_kept _ _ _ s)⟩
    · rw [hu, hql]
    · rw [hu, hsrc]
  · obtain ⟨u, hu, hpinQl⟩ := qlTimeout_eq hn hpin
    obtain ⟨hql, hsrc⟩ := setQl_shows u n.isLt (bf_lt (s.rd (Reg.coxRefQl n)) 3 0) (by decide : 0 < 4)
    refine completes_of_exec (onMatrix_up (qlTimeout n) hup) ⟨?_, ?_, ?_, kept_sameMemory (qlTimeout_kept _ s)⟩
    · rw [hu]; exact hql
    · rw [hu]; exact hsrc
    · rw [hu, setQl_pinQl, hpinQl]

end Sys2Proof.Machine
end
section
/-! PROOF. The Cox's timers (R63, R65, R69, R72, R74). -/

namespace Sys2Proof.Machine

/-- The winner depends on the choice, the configurations and the bits that R62 names. -/
theorem coxWinner_of_spares {M : Nat → Nat → Prop} {s t : State} (h : spares M s t) (hsel : ∀ i ≤ 2, ¬ M Reg.coxSel i)
    (hcfg : ∀ n i, ¬ M (Reg.coxRefCfg n) i) (hstat : ∀ n i, i = 3 ∨ 12 ≤ i ∧ i ≤ 15 → ¬ M (Reg.coxRefStat n) i) :
    t.coxWinner = s.coxWinner := by
  have hq : t.qualified = s.qualified := funext fun n => by
    rw [State.qualified, State.refOn, h _ 31 (hcfg n 31), h _ 3 (hstat n 3 (.inl rfl)), State.qualified, State.refOn]
  have hql : t.ql = s.ql := funext fun n => h.f fun i hlo hhi => hstat n i (.inr ⟨hlo, hhi⟩)
  have hc : ∀ n, t.f (Reg.coxRefCfg n) 6 4 = s.f (Reg.coxRefCfg n) 6 4 := fun n => h.f fun i _ _ => hcfg n i
  have hs : t.f Reg.coxSel 2 0 = s.f Reg.coxSel 2 0 := h.f fun i _ hi => hsel i hi
  have hbetter : t.better = s.better := funext fun b => funext fun r => by simp only [State.better, hq, hql, hc]
  rw [State.coxWinner, State.coxWinner, hs, hq, State.bestRef_eq, State.bestRef_eq, hbetter]

theorem wtrStop_winner (s : State) : s.wtrStop.coxWinner = s.coxWinner :=
  coxWinner_of_spares (wtrStop_spares s) (fun _ _ => by unfold wtrMark Reg.coxSel; omega)
    (fun _ _ => by unfold wtrMark Reg.coxRefCfg; omega) (fun _ _ _ => by unfold wtrMark Reg.coxRefStat; omega)

theorem wtrStop_of_some {s : State} {n : Nat} (h : s.cox.wtr = some n) :
    s.wtrStop = ((s.onCox fun c => { c with wtr := none }).setB Reg.coxState 10 false).setB (Reg.coxRefStat n) 8 false := by
  unfold State.wtrStop; rw [h]

/-- A timer that ends is stopped, and makes the switch due when its reference still wins. -/
theorem wtrExpiry_shows {s : State} {n : Nat} (h : s.cox.wtr = some n) : (wtrExpiry n s).cox.wtr = none ∧
    (wtrExpiry n s).cox.due = (if s.coxWinner = some n then some n else s.cox.due) ∧ (wtrExpiry n s).regs = s.wtrStop.regs := by
  unfold wtrExpiry
  rw [if_pos h]
  dsimp only
  rw [wtrStop_winner]
  by_cases hw : s.coxWinner = some n
  · rw [if_pos hw, if_pos hw, wtrStop_of_some h]
    exact ⟨rfl, rfl, rfl⟩
  · rw [if_neg hw, if_neg hw, wtrStop_of_some h]
    exact ⟨rfl, rfl, rfl⟩

theorem tcompUpdate_broken {s : State} (h : (s.tcSensors.filter fun c => !s.b (sensorReg c) 31) = []) :
    tcompUpdate s = onlyIf (!s.cox.tcLost) (fun t => t.coxNote 10 .coxTcompLost) (s.onCox fun c => { c with tcLost := true }) := by
  simp only [tcompUpdate, h, List.isEmpty_nil, if_true]

/-- The state with the compensation recomputed, before the total correction. -/
def State.compensated (s : State) (comp : Int) : State := (s.setI32 Reg.coxTcomp comp).onCox fun c => { c with tcLost := false }

theorem tcompUpdate_good {s : State} {good : List Nat} (h : (s.tcSensors.filter fun c => !s.b (sensorReg c) 31) = good) (hne : good ≠ []) :
    tcompUpdate s = (s.compensated (tcPoly (s.i32 (Reg.coxTcC 0)) (s.i32 (Reg.coxTcC 1)) (s.i32 (Reg.coxTcC 2)) (s.i32 (Reg.coxTcC 3))
      (good.foldl (fun a c => a + tempOf (s.rd (sensorReg c))) 0 - 250 * good.length) (10 * good.length))).coxTotal := by
  have hempty : good.isEmpty = false := by cases good <;> simp_all
  simp only [tcompUpdate, h, hempty]
  rfl

/-- The total correction leaves the compensation. -/
theorem compensated_total (s : State) (comp : Int) : (s.compensated comp).coxTotal.rd Reg.coxTcomp = BitVec.ofInt 32 comp ∧
    (s.compensated comp).coxTotal.cox.tcLost = false := by
  refine ⟨((coxTotal_spares _).rd fun i => by unfold noteMark Reg.coxTcomp; omega).trans (s.rd_setI32_self _ _), ?_⟩
  obtain ⟨c, hc⟩ := coxTotal_cox (s.compensated comp)
  rw [hc]; rfl

/-- A note leaves the compensation. -/
theorem onlyIf_coxNote_tcomp (c : Bool) (s : State) (i : Nat) (e : Ev) :
    (onlyIf c (fun t => t.coxNote i e) s).rd Reg.coxTcomp = s.rd Reg.coxTcomp :=
  (spares_onlyIf c _ (coxNote_spares s i e)).rd fun i => by unfold noteMark Reg.coxTcomp; omega

theorem slewDone_idle {s : State} (h : s.b Reg.coxSlewCtrl 31 = false ∨ s.cox.switch ≠ none) : slewDone s = s := by
  unfold slewDone
  refine if_neg fun hc => ?_
  obtain ⟨hb, hs⟩ := Bool.and_eq_true_iff.1 hc
  rcases h with h | h
  · rw [h] at hb; cases hb
  · exact h (Option.isNone_iff_eq_none.1 hs)

theorem slewDone_runs {s : State} (h : s.b Reg.coxSlewCtrl 31 = true) (hs : s.cox.switch = none) : slewDone s =
    ((s.slewBy s.cox.slewLeft).onCox fun c => { c with slewLeft := 0, slewAcc := 0 }).setB Reg.coxSlewCtrl 31 false := by
  unfold slewDone
  exact if_pos (by rw [h, hs]; rfl)

/-- Settles O44: one clause per timer; the winner is judged after the timer's bits have been cleared, which it does not read. -/
theorem coxTimersHaveTheirEffect : Obligations.CoxTimersHaveTheirEffect := by
  intro s hup
  refine ⟨fun n => ⟨fun hw => ?_, fun hw => ?_⟩, ⟨fun hidle => ?_, fun hgo hsw => ?_⟩, completes_of_exec (onMatrix_up holdValid hup) rfl, ?_,
    fun n => ?_⟩
  · exact (onMatrix_up (wtrExpiry n) hup).trans (congrArg _ (if_neg hw))
  · obtain ⟨hwtr, hdue, hregs⟩ := wtrExpiry_shows hw
    rw [wtrStop_of_some hw] at hregs
    have hne : Reg.coxState ≠ Reg.coxRefStat n := by unfold Reg.coxState Reg.coxRefStat; omega
    refine completes_of_exec (onMatrix_up (wtrExpiry n) hup) ⟨hwtr, ?_, ?_, hdue, fun a ha => ?_⟩
    · rw [State.b_congr hregs, State.b_of_rd (State.rd_setB_ne _ _ _ hne)]
      exact State.b_setB_self _ _ _ _ (by decide)
    · exact (State.b_congr hregs _ _).trans (State.b_setB_self _ _ _ _ (by decide))
    · simp only [List.mem_cons, List.not_mem_nil, or_false, not_or] at ha
      exact (State.rd_congr hregs a).trans ((State.rd_setB_ne _ _ _ ha.2).trans (State.rd_setB_ne _ _ _ ha.1))
  · exact (onMatrix_up slewDone hup).trans (congrArg _ (slewDone_idle hidle))
  · refine completes_of_exec ((onMatrix_up slewDone hup).trans (congrArg _ (slewDone_runs hgo hsw)))
      ⟨?_, rfl, State.b_setB_self _ _ _ _ (by decide), Int.toNat_eq_max _ |>.trans (max_comm _ _), fun a ha => ?_, ⟨rfl, rfl, rfl, rfl, rfl⟩⟩
    · exact (State.rd_setB_ne _ _ _ (by decide)).trans (s.rd_setI32_self _ _)
    · simp only [List.mem_cons, List.not_mem_nil, or_false, not_or] at ha
      exact (State.rd_setB_ne _ _ _ ha.2).trans (s.rd_wr_ne _ ha.1)
  · refine completes_of_exec (onMatrix_up tcompUpdate hup) ⟨kept_sameMemory (tcompUpdate_kept s), ?_, fun hgood => ?_, fun hgood => ?_⟩
    · cases hgood : s.tcSensors.filter fun c => !s.b (sensorReg c) 31 with
      | nil => rw [tcompUpdate_broken hgood, onlyIf_coxNote_cox]; rfl
      | cons c cs => rw [tcompUpdate_good hgood (by simp)]; exact (compensated_total s _).2
    · rw [tcompUpdate_broken hgood, onlyIf_coxNote_tcomp]; rfl
    · rw [tcompUpdate_good rfl hgood]; exact (compensated_total s _).1
  · refine completes_of_exec (onMatrix_up (syncPulseEnd n) hup) ?_
    match n with
    | 0 => exact ⟨rfl, Bool.false_bne _, rfl⟩
    | 1 => exact ⟨rfl, Bool.false_bne _, rfl⟩

end Sys2Proof.Machine
end
section
/-! PROOF. The rate of the strokes (R522): what a stroke boundary does beside taking the chart's design rate leaves it. One lemma for each
operation, in the order of the model, as the laws about the boundary's number and moment have it. -/

namespace Sys2Proof.Machine

/-- The stroke rate in force, and the one that waits for the next boundary. -/
def State.rates (s : State) : Nat × Nat × Option (Nat × Nat) := (s.clock.rateNum, s.clock.rateDen, s.clock.rateNext)

@[simp] theorem forAll_rates {α : Type} (l : List α) (g : α → State → State) (s : State) (h : ∀ a ∈ l, ∀ t, (g a t).rates = t.rates) : (forAll l g s).rates = s.rates := forAll_field State.rates g l h s
@[simp] theorem foldl_rates {α : Type} (l : List α) (g : State → α → State) (s : State) (h : ∀ a ∈ l, ∀ t, (g t a).rates = t.rates) : (l.foldl g s).rates = s.rates := forAll_field State.rates (fun a t => g t a) l h s
@[simp] theorem ite_rates (c : Prop) [Decidable c] (a b : State) : (if c then a else b).rates = if c then a.rates else b.rates := by split <;> rfl
@[simp] theorem rates_with_fresh (s : State) (n : Nat) : ({ s with clock := { s.clock with free := n } } : State).rates = s.rates := rfl
@[simp] theorem rates_with_any (s : State) (a1 a2 a4 a5 a6 a7 a8 a9 a10 a11 a12 a13 a14 a15 a16 a17 a18 a19 a20 a21 a22 a23 a24 a25 a26 a27 a28 a29 a30) :
    ({ s with regs := a1, shadow := a2, pins := a4, loader := a5, cox := a6, syn := a7, prt := a8, xtb := a9, que := a10, slips := a11, jik := a12,
              hed := a13, egr := a14, aud := a15, lgt := a16, fld := a17, keep := a18, nvs := a19, thm := a20, pwr := a21, quay := a22,
              evt := a23, out := a24, fstore := a25, work := a26, nvsMem := a27, cflash := a28, hostMem := a29, pending := a30 } : State).rates = s.rates := rfl
@[simp] theorem onClock_rates (s : State) (g : Clock → Clock)
    (h : ((g s.clock).rateNum, (g s.clock).rateDen, (g s.clock).rateNext) = (s.clock.rateNum, s.clock.rateDen, s.clock.rateNext)) :
    (s.onClock g).rates = s.rates := h
@[simp] theorem State.wr_rates (s : State) (a : Nat) (v : Word) : (State.wr s a v).rates = s.rates := by
  simp [State.wr]
@[simp] theorem State.setF_rates (s : State) (a : Nat) (hi : Nat) (lo : Nat) (v : Nat) : (State.setF s a hi lo v).rates = s.rates := by
  simp [State.setF]
@[simp] theorem State.setB_rates (s : State) (a : Nat) (i : Nat) (v : Bool) : (State.setB s a i v).rates = s.rates := by
  simp [State.setB]
@[simp] theorem State.setI32_rates (s : State) (a : Nat) (v : Int) : (State.setI32 s a v).rates = s.rates := by
  simp [State.setI32]
@[simp] theorem State.reloadShadows_rates (s : State) (p : Nat → Bool) : (State.reloadShadows s p).rates = s.rates := by
  simp [State.reloadShadows]
@[simp] theorem State.takeShadows_rates (s : State) (p : Nat → Bool) : (State.takeShadows s p).rates = s.rates := by
  simp [State.takeShadows]
@[simp] theorem State.fresh_rates (s : State) (w : Nat) : (State.fresh s w).2.rates = s.rates := by
  simp [State.fresh]
@[simp] theorem onlyIf_rates (c : Bool) (g : State → State) (s : State) (h : (g s).rates = s.rates) : (onlyIf c g s).rates = s.rates := by
  cases c <;> simp [onlyIf, h]
@[simp] theorem State.setRing_rates (s : State) (r : Nat) (x : RingSt) : (State.setRing s r x).rates = s.rates := by
  simp [State.setRing]
@[simp] theorem State.satQuiet_rates (s : State) (a : Nat) (n : Nat) (k : Nat) : (State.satQuiet s a n k).rates = s.rates := by
  simp [State.satQuiet]
@[simp] theorem State.noteTail_rates (s : State) (k : Nat) : (State.noteTail s k).rates = s.rates := by
  simp [State.noteTail]
@[simp] theorem State.deliverQuiet_rates (s : State) (r : Nat) (x : Rec) : (State.deliverQuiet s r x).rates = s.rates := by
  simp [State.deliverQuiet]
@[simp] theorem State.dropSat_rates (s : State) (old : State) (a : Nat) : (State.dropSat s old a).rates = s.rates := by
  unfold State.dropSat
  (repeat' split) <;> simp
@[simp] theorem State.deliver_rates (s : State) (r : Nat) (x : Rec) : (State.deliver s r x).rates = s.rates := by
  simp [State.deliver]
@[simp] theorem State.raiseRaw_rates (s : State) (src : Nat) (code : Nat) (inst : Nat) (line : Nat) (data : Nat) : (State.raiseRaw s src code inst line data).rates = s.rates := by
  unfold State.raiseRaw
  (repeat' split) <;> simp
@[simp] theorem State.raise_rates (s : State) (e : Ev) (inst : Nat) (data : Nat) : (State.raise s e inst data).rates = s.rates := by
  simp [State.raise]
@[simp] theorem State.raiseFree_rates (s : State) (e : Ev) (inst : Nat) : (State.raiseFree s e inst).rates = s.rates := by
  simp [State.raiseFree]
@[simp] theorem State.countErr_rates (s : State) (a : Nat) (n : Nat) (k : Nat) : (State.countErr s a n k).rates = s.rates := by
  simp [State.countErr]
@[simp] theorem State.countPerf_rates (s : State) (a : Nat) (n : Nat) (k : Nat) : (State.countPerf s a n k).rates = s.rates := by
  simp [State.countPerf]
@[simp] theorem State.send_rates (s : State) (o : Out) : (State.send s o).rates = s.rates := by
  simp [State.send]
@[simp] theorem State.onPins_rates (s : State) (g : Pins → Pins) : (State.onPins s g).rates = s.rates := by
  simp [State.onPins]
@[simp] theorem State.onPort_rates (s : State) (p : Nat) (g : PortSt → PortSt) : (State.onPort s p g).rates = s.rates := by
  simp [State.onPort]
@[simp] theorem State.sendLane_rates (s : State) (p : Nat) (syms : List Sym) (masks : List (BitVec 10)) : (State.sendLane s p syms masks).rates = s.rates := by
  simp [State.sendLane]
@[simp] theorem State.sendFrame_rates (s : State) (l : Nat) (o : Out) (syms : List Sym) (masks : List (BitVec 10)) : (State.sendFrame s l o syms masks).rates = s.rates := by
  simp [State.sendFrame]
@[simp] theorem State.laneWake_rates (s : State) (p : Nat) : (State.laneWake s p).rates = s.rates := by
  simp [State.laneWake]
@[simp] theorem State.fillWith_rates (s : State) (l : Nat) (c : Sym) : (State.fillWith s l c).rates = s.rates := by
  simp [State.fillWith]
@[simp] theorem State.sendBuoys_rates (s : State) (stroke : Nat) : (State.sendBuoys s stroke).rates = s.rates := by
  simp [State.sendBuoys]
@[simp] theorem State.onCox_rates (s : State) (g : CoxSt → CoxSt) : (State.onCox s g).rates = s.rates := by
  simp [State.onCox]
@[simp] theorem State.onRef_rates (s : State) (n : Nat) (g : RefSt → RefSt) : (State.onRef s n g).rates = s.rates := by
  simp [State.onRef]
@[simp] theorem State.coxNote_rates (s : State) (i : Nat) (e : Ev) : (State.coxNote s i e).rates = s.rates := by
  simp [State.coxNote]
@[simp] theorem State.wtrStop_rates (s : State) : (State.wtrStop s).rates = s.rates := by
  unfold State.wtrStop
  (repeat' split) <;> simp
@[simp] theorem State.wtrStart_rates (s : State) (n : Nat) : (State.wtrStart s n).rates = s.rates := by
  simp [State.wtrStart]
@[simp] theorem State.coxJudge_rates (s : State) (sel : Bool) (fell : Bool) : (State.coxJudge s sel fell).rates = s.rates := by
  unfold State.coxJudge
  (repeat' split) <;> simp
@[simp] theorem State.disqualify_rates (s : State) (n : Nat) : (State.disqualify s n).rates = s.rates := by
  simp [State.disqualify]
@[simp] theorem State.coxTotal_rates (s : State) : (State.coxTotal s).rates = s.rates := by
  simp [State.coxTotal]
@[simp] theorem State.activityLoss_rates (s : State) (n : Nat) : (State.activityLoss s n).rates = s.rates := by
  simp [State.activityLoss]
@[simp] theorem State.addBuildout_rates (s : State) (d : Int) : (State.addBuildout s d).rates = s.rates := by
  simp [State.addBuildout]
@[simp] theorem State.slewBy_rates (s : State) (d : Int) : (s.slewBy d).rates = s.rates := by
  simp [State.slewBy]
@[simp] theorem State.slewUntil_rates (s : State) (t : Nat) : (State.slewUntil s t).rates = s.rates := by
  simp [State.slewUntil]
@[simp] theorem State.setInUse_rates (s : State) (n : Nat) : (State.setInUse s n).rates = s.rates := by
  simp [State.setInUse]
@[simp] theorem State.acquire_rates (s : State) (ps : List RefPhase) (n : Nat) : (s.acquire ps n).rates = s.rates := by
  have h : ((((s.setInUse n).setF Reg.coxState 1 0 1).wtrStop).onCox fun c => { c with lockGates := 0, due := none }).rates = s.rates := by simp
  unfold State.acquire
  dsimp only
  split
  · rw [State.coxNote_rates, onClock_rates _ _ rfl]; exact h
  · rw [State.addBuildout_rates]; exact h
@[simp] theorem State.coxLeave_rates (s : State) (dst : Nat) : (State.coxLeave s dst).rates = s.rates := by
  simp [State.coxLeave]
@[simp] theorem State.coxFall_rates (s : State) : (State.coxFall s).rates = s.rates := by
  simp [State.coxFall]
@[simp] theorem State.enterLocked_rates (s : State) : (State.enterLocked s).rates = s.rates := by
  simp [State.enterLocked]
@[simp] theorem State.startSwitch_rates (s : State) (n : Nat) : (State.startSwitch s n).rates = s.rates := by
  simp [State.startSwitch]
@[simp] theorem State.switchStep_rates (s : State) (ps : List RefPhase) (w : Switch) : (State.switchStep s ps w).rates = s.rates := by
  unfold State.switchStep
  dsimp only
  (repeat' split) <;> simp
@[simp] theorem State.switchDrop_rates (s : State) : (State.switchDrop s).rates = s.rates := by
  simp [State.switchDrop]
@[simp] theorem State.coxTransition_rates (s : State) (ps : List RefPhase) : (State.coxTransition s ps).rates = s.rates := by
  unfold State.coxTransition
  dsimp only
  (repeat' split) <;> simp
@[simp] theorem State.coxPins_rates (s : State) : (State.coxPins s).rates = s.rates := by
  simp [State.coxPins]
@[simp] theorem State.syncPin_rates (s : State) (n : Nat) (active : Bool) : (State.syncPin s n active).rates = s.rates := by
  simp [State.syncPin]
@[simp] theorem State.syncPulse_rates (s : State) (n : Nat) : (State.syncPulse s n).rates = s.rates := by
  simp [State.syncPulse]
@[simp] theorem State.onThm_rates (s : State) (g : ThmSt → ThmSt) : (State.onThm s g).rates = s.rates := by
  simp [State.onThm]
@[simp] theorem State.injected_rates (s : State) (p : Nat) (n : Nat) : (State.injected s p n).rates = s.rates := by
  simp [State.injected]
@[simp] theorem State.flipMasks_rates (n : Nat) : ∀ s : State, (s.flipMasks n).2.rates = s.rates := by
  induction n with
  | zero => exact fun _ => rfl
  | succ n ih => intro s; unfold State.flipMasks; simp [ih]
@[simp] theorem State.corrupted_rates (s : State) (p : Nat) (tx : Bool) (n : Nat) : (State.corrupted s p tx n).2.2.rates = s.rates := by
  unfold State.corrupted
  split
  · simp
  · rfl
@[simp] theorem State.transmit_rates (s : State) (p : Nat) (stream : Option Nat) (poison : Bool) (bs : List Byte) : (State.transmit s p stream poison bs).rates = s.rates := by
  simp [State.transmit]
@[simp] theorem State.sendMsg_rates (s : State) (p : Nat) (m : Msg) : (State.sendMsg s p m).rates = s.rates := by
  simp [State.sendMsg]
@[simp] theorem State.issueNow_rates (s : State) (p : Nat) (q : XactWait) : (State.issueNow s p q).rates = s.rates := by
  simp [State.issueNow]
@[simp] theorem State.issueWaits_rates (s : State) (p : Nat) : (s.issueWaits p).rates = s.rates := by
  unfold State.issueWaits
  exact foldl_proj State.rates _ _ _ fun t _ => by (repeat' split) <;> simp
@[simp] theorem State.request_rates (s : State) (p : Nat) (q : XactWait) : (State.request s p q).rates = s.rates := by
  simp [State.request]
@[simp] theorem State.writeBackFailed_rates (s : State) (u : Nat) : (State.writeBackFailed s u).rates = s.rates := by
  simp [State.writeBackFailed]
@[simp] theorem State.xactResult_rates (s : State) (p : Nat) (use : XactUse) (code : Nat) (data : List Byte) : (State.xactResult s p use code data).rates = s.rates := by
  unfold State.xactResult
  (repeat' split) <;> simp
@[simp] theorem State.xactFail_rates (s : State) (p : Nat) (code : Nat) (x : Xact) : (State.xactFail s p code x).rates = s.rates := by
  simp [State.xactFail]
@[simp] theorem State.linkDown_rates (s : State) (p : Nat) : (State.linkDown s p).rates = s.rates := by
  simp [State.linkDown]
@[simp] theorem State.corruptFill_rates (s : State) (l : Nat) (tx : Bool) : (State.corruptFill s l tx).rates = s.rates := by
  simp [State.corruptFill]
@[simp] theorem State.corruptFills_rates (s : State) : (State.corruptFills s).rates = s.rates := by
  simp [State.corruptFills]
@[simp] theorem State.refsSilent_rates (s : State) (p : Nat) : (State.refsSilent s p).rates = s.rates := by
  simp [State.refsSilent]
@[simp] theorem State.sendMarkers_rates (s : State) : (State.sendMarkers s).rates = s.rates := by
  simp [State.sendMarkers]
@[simp] theorem State.onSyn_rates (s : State) (i : Nat) (g : SynSt → SynSt) : (State.onSyn s i g).rates = s.rates := by
  simp [State.onSyn]
@[simp] theorem State.setLadder_rates (s : State) (l : Nat) (rung : Nat) : (State.setLadder s l rung).rates = s.rates := by
  simp [State.setLadder]
@[simp] theorem State.setRate_rates (s : State) (l : Nat) (r : Nat) : (State.setRate s l r).rates = s.rates := by
  simp [State.setRate]
@[simp] theorem State.showGood_rates (s : State) (l : Nat) : (State.showGood s l).rates = s.rates := by
  simp [State.showGood]
@[simp] theorem State.setLock_rates (s : State) (p : Nat) (on : Bool) : (State.setLock s p on).rates = s.rates := by
  simp [State.setLock]
@[simp] theorem State.onLanes_rates (s : State) (l : Nat) (g : PortSt → PortSt) : (State.onLanes s l g).rates = s.rates := by
  simp [State.onLanes]
@[simp] theorem State.enterDetect_rates (s : State) (l : Nat) : (State.enterDetect s l).rates = s.rates := by
  simp [State.enterDetect]
@[simp] theorem State.glassSetup_rates (s : State) (l : Nat) : (State.glassSetup s l).rates = s.rates := by
  simp [State.glassSetup]
@[simp] theorem State.enterRun_rates (s : State) (l : Nat) : (State.enterRun s l).rates = s.rates := by
  simp [State.enterRun]
@[simp] theorem State.offerStep_rates (s : State) (l : Nat) (r : Nat) : (State.offerStep s l r).rates = s.rates := by
  simp [State.offerStep]
@[simp] theorem State.stepBoundary_rates (s : State) (l : Nat) : (State.stepBoundary s l).rates = s.rates := by
  unfold State.stepBoundary
  (repeat' split) <;> simp
@[simp] theorem State.pullApply_rates (s : State) (l : Nat) (w : Word) : (State.pullApply s l w).rates = s.rates := by
  simp [State.pullApply]
@[simp] theorem State.pullJudge_rates (s : State) (l : Nat) : (State.pullJudge s l).rates = s.rates := by
  simp [State.pullJudge]
@[simp] theorem State.backTo_rates (s : State) (l : Nat) (i : Nat) : (State.backTo s l i).rates = s.rates := by
  simp [State.backTo]
@[simp] theorem State.backMove_rates (s : State) (l : Nat) : (State.backMove s l).rates = s.rates := by
  unfold State.backMove
  (repeat' split) <;> simp
@[simp] theorem State.offerStripe_rates (s : State) (l : Nat) (widen : Bool) (width : Nat) (mask : Nat) : (State.offerStripe s l widen width mask).rates = s.rates := by
  simp [State.offerStripe]
@[simp] theorem widen_rates (p : Nat) (s : State) : (widen p s).rates = s.rates := by
  simp [widen]
@[simp] theorem State.restripe_rates (s : State) (l : Nat) (o : Offer) : (State.restripe s l o).rates = s.rates := by
  simp [State.restripe]
@[simp] theorem State.stripeBoundary_rates (s : State) (l : Nat) : (State.stripeBoundary s l).rates = s.rates := by
  unfold State.stripeBoundary
  dsimp only
  (repeat' split) <;> simp
@[simp] theorem State.portBoundary_rates (s : State) (l : Nat) : (State.portBoundary s l).rates = s.rates := by
  simp [State.portBoundary]
@[simp] theorem State.portsBoundary_rates (s : State) : (State.portsBoundary s).rates = s.rates := by
  simp [State.portsBoundary]
@[simp] theorem retrain_rates (p : Nat) (s : State) : (retrain p s).rates = s.rates := by
  simp [retrain]
@[simp] theorem State.onSlip_rates (s : State) (k : Nat) (g : SlipSt → SlipSt) : (State.onSlip s k g).rates = s.rates := by
  simp [State.onSlip]
@[simp] theorem State.onSlot_rates (s : State) (k : Nat) (j : Nat) (g : SlotSt → SlotSt) : (State.onSlot s k j g).rates = s.rates := by
  simp [State.onSlot]
@[simp] theorem State.showSlip_rates (s : State) (k : Nat) : (State.showSlip s k).rates = s.rates := by
  unfold State.showSlip
  (repeat' split) <;> simp
@[simp] theorem State.pin_rates (s : State) (k : Nat) (j : Nat) (r : Nat) : (State.pin s k j r).rates = s.rates := by
  simp [State.pin]
@[simp] theorem State.unpin_rates (s : State) (k : Nat) (r : Nat) : (State.unpin s k r).rates = s.rates := by
  simp [State.unpin]
@[simp] theorem State.selectFrame_rates (s : State) (k : Nat) (x : Nat) (r : Nat) (last : Option Pick) : (State.selectFrame s k x r last).2.rates = s.rates := by
  unfold State.selectFrame
  (repeat' split) <;> simp
@[simp] theorem State.onHead_rates (s : State) (h : Nat) (g : HeadSt → HeadSt) : (State.onHead s h g).rates = s.rates := by
  simp [State.onHead]
@[simp] theorem State.onLay_rates (s : State) (h : Nat) (k : Nat) (g : LaySt → LaySt) : (State.onLay s h k g).rates = s.rates := by
  simp [State.onLay]
@[simp] theorem State.raiseHead_rates (s : State) (e : Ev) (h : Nat) (data : Nat) : (State.raiseHead s e h data).rates = s.rates := by
  simp [State.raiseHead]
@[simp] theorem State.newGroup_rates (s : State) (h : Nat) : (State.newGroup s h).rates = s.rates := by
  simp [State.newGroup]
@[simp] theorem State.layUnpin_rates (s : State) (h : Nat) (k : Nat) (keep : List LayShow) : (State.layUnpin s h k keep).rates = s.rates := by
  unfold State.layUnpin
  have hshow : ∀ (x : LayShow) (t : State), (match x with
      | .frame p _ => (((t.pin p.slip p.newer (layReader h k)).pin p.slip p.older (layReader h k))).showSlip p.slip
      | _ => t).rates = t.rates := fun x t => by cases x <;> simp
  exact (forAll_rates _ _ _ fun x _ t => hshow x t).trans (by simp)
@[simp] theorem State.showHeld_rates (s : State) (h : Nat) (k : Nat) (cause : Nat) : (State.showHeld s h k cause).rates = s.rates := by
  simp [State.showHeld]
@[simp] theorem State.flipLayer_rates (s : State) (h : Nat) (k : Nat) (cause : Nat) (off : Bool) : (State.flipLayer s h k cause off).rates = s.rates := by
  unfold State.flipLayer
  dsimp only
  split
  · simp
  · split
    · rw [onlyIf_rates _ _ _ (State.raiseHead_rates ..)]; simp
    · split
      · rfl
      next e he =>
        split
        · simp
        · split
          next n hn =>
            split
            all_goals
              next t hsel =>
                have hkeep := congrArg (fun p => p.2.rates) hsel
                simp only [State.selectFrame_rates] at hkeep
                simp [hkeep]
          · rfl
@[simp] theorem State.layPath_rates (s : State) (h : Nat) (k : Nat) : (State.layPath s h k).rates = s.rates := by
  unfold State.layPath
  (repeat' split) <;> simp
@[simp] theorem State.repeatLayer_rates (s : State) (h : Nat) (k : Nat) : (State.repeatLayer s h k).rates = s.rates := by
  simp [State.repeatLayer]
@[simp] theorem State.layMarkGone_rates (s : State) (h : Nat) (k : Nat) : (State.layMarkGone s h k).rates = s.rates := by
  unfold State.layMarkGone
  (repeat' split) <;> simp
@[simp] theorem State.flipHead_rates (s : State) (h : Nat) : (State.flipHead s h).rates = s.rates := by
  simp [State.flipHead]
@[simp] theorem State.copied_rates (s : State) (h : Nat) : (State.copied s h).rates = s.rates := by
  simp [State.copied]
@[simp] theorem State.judgeOutside_rates (s : State) (h : Nat) : (State.judgeOutside s h).rates = s.rates := by
  simp [State.judgeOutside]
@[simp] theorem State.applyCommit_rates (s : State) (h : Nat) (bad : List Nat) : (State.applyCommit s h bad).rates = s.rates := by
  simp [State.applyCommit]
@[simp] theorem State.reportCommit_rates (s : State) (h : Nat) (seq : Nat) (whole : Bool) (bad : List (Nat × Nat)) : (State.reportCommit s h seq whole bad).rates = s.rates := by
  simp [State.reportCommit]
@[simp] theorem State.commitHeads_rates (s : State) (hs : List Nat) (seq : Nat) (sync : Bool) : (State.commitHeads s hs seq sync).2.rates = s.rates := by
  simp [State.commitHeads]
@[simp] theorem State.closeZones_rates (s : State) (h : Nat) : (State.closeZones s h).rates = s.rates := by
  simp [State.closeZones]
@[simp] theorem State.layDrop_rates (s : State) (h : Nat) (k : Nat) : (State.layDrop s h k).rates = s.rates := by
  simp [State.layDrop]
@[simp] theorem State.judgeCovered_rates (s : State) (h : Nat) : (State.judgeCovered s h).rates = s.rates := by
  simp [State.judgeCovered]
@[simp] theorem State.releasePins_rates (s : State) (h : Nat) : (State.releasePins s h).rates = s.rates := by
  simp [State.releasePins]
@[simp] theorem State.takeCommit_rates (s : State) (h : Nat) : (State.takeCommit s h).rates = s.rates := by
  unfold State.takeCommit
  (repeat' split) <;> simp
@[simp] theorem State.stopDisabled_rates (s : State) (h : Nat) : (State.stopDisabled s h).rates = s.rates := by
  simp [State.stopDisabled]
@[simp] theorem State.takeIcons_rates (s : State) (h : Nat) : (State.takeIcons s h).rates = s.rates := by
  simp [State.takeIcons]
@[simp] theorem State.showFault_rates (s : State) : (State.showFault s).rates = s.rates := by
  simp [State.showFault]
@[simp] theorem State.levelTake_rates (s : State) (h : Nat) (level : Nat) (avail : Nat) : (State.levelTake s h level avail).rates = s.rates := by
  simp [State.levelTake]
@[simp] theorem State.final_rates (s : State) (h : Nat) (f : WFrame) : (State.final s h f).rates = s.rates := by
  simp [State.final]
@[simp] theorem State.settle_rates (n : Nat) : ∀ (s : State) (h : Nat), (State.settle n s h).rates = s.rates := by
  induction n with
  | zero => intros; rfl
  | succ n ih => intros; unfold State.settle; (repeat' split) <;> simp [ih]
@[simp] theorem State.settleAll_rates (s : State) (h : Nat) : (State.settleAll s h).rates = s.rates := by
  simp [State.settleAll]
@[simp] theorem State.showSigs_rates (s : State) (h : Nat) : (State.showSigs s h).rates = s.rates := by
  simp [State.showSigs]
@[simp] theorem State.showOn_rates (s : State) (h : Nat) : (State.showOn s h).rates = s.rates := by
  simp [State.showOn]
@[simp] theorem State.sigOpen_rates (s : State) (a : Nat) : (State.sigOpen s a).rates = s.rates := by
  simp [State.sigOpen]
@[simp] theorem State.showGlass_rates (s : State) (h : Nat) (mask : Nat) (crcs : Nat → Nat) : (State.showGlass s h mask crcs).rates = s.rates := by
  simp [State.showGlass]
@[simp] theorem State.showProof_rates (s : State) (h : Nat) (rb : List (Fin 16 × Option Word)) : (State.showProof s h rb).rates = s.rates := by
  unfold State.showProof
  have hregs : ∀ (r : Nat) (u : State), (match s.rbSig h r rb with
      | some w => u.wr (Reg.headLkRbSig h r) w
      | none => u.sigOpen (Reg.headLkRbSig h r)).rates = u.rates := fun r u => by split <;> simp
  have hrb := forAll_rates (s.regions h) _ s fun r _ u => hregs r u
  dsimp only
  split
  · rw [State.showGlass_rates]
    split
    · rfl
    · exact hrb
  · refine (forAll_rates _ _ _ fun _ _ _ => State.sigOpen_rates ..).trans ?_
    split
    · rfl
    · exact hrb
@[simp] theorem State.compareWatch_rates (s : State) (h : Nat) (rb : List (Fin 16 × Option Word)) : (State.compareWatch s h rb).rates = s.rates := by
  simp [State.compareWatch]
@[simp] theorem State.compareOther_rates (s : State) (h : Nat) : (State.compareOther s h).rates = s.rates := by
  simp [State.compareOther]
@[simp] theorem State.compareFrame_rates (s : State) (h : Nat) (cut : Bool) (rb : List (Fin 16 × Option Word)) : (State.compareFrame s h cut rb).rates = s.rates := by
  simp [State.compareFrame]
@[simp] theorem State.showLayers_rates (s : State) (h : Nat) : (State.showLayers s h).rates = s.rates := by
  simp [State.showLayers]
@[simp] theorem State.gateActions_rates (s : State) (h : Nat) (cut : Bool) (rb : List (Fin 16 × Option Word)) : (State.gateActions s h cut rb).rates = s.rates := by
  simp [State.gateActions]
@[simp] theorem State.cutFrame_rates (s : State) (h : Nat) : (State.cutFrame s h).rates = s.rates := by
  simp [State.cutFrame]
@[simp] theorem State.flipHeads_rates (s : State) : (State.flipHeads s).rates = s.rates := by
  simp [State.flipHeads]
@[simp] theorem State.glassLimit_rates (s : State) : (State.glassLimit s).rates = s.rates := by
  simp [State.glassLimit]
@[simp] theorem State.onFld_rates (s : State) (g : FldSt → FldSt) : (State.onFld s g).rates = s.rates := by
  simp [State.onFld]
@[simp] theorem State.setLedger_rates (s : State) (k : Nat) (l : Ledger) : (State.setLedger s k l).rates = s.rates := by
  simp [State.setLedger]
@[simp] theorem State.writeBack_rates (s : State) (u : Nat) : (State.writeBack s u).rates = s.rates := by
  unfold State.writeBack
  (repeat' split) <;> simp
@[simp] theorem State.onQuay_rates (s : State) (g : QuaySt → QuaySt) : (State.onQuay s g).rates = s.rates := by
  simp [State.onQuay]
@[simp] theorem State.newStroke_rates (s : State) : (State.newStroke s).rates = s.rates := by
  simp [State.newStroke]

end Sys2Proof.Machine
end
section
/-! PROOF. The stroke boundary (R14, R61, R69, R75, R88). -/

namespace Sys2Proof.Machine

/-! ### What comes before the Cox at a boundary keeps its pace -/

theorem State.sendBuoys_pace (s : State) (stroke : Nat) : (s.sendBuoys stroke).pace = s.pace := by
  refine forAll_pace _ _ _ fun l _ t => ?_
  refine (State.onPort_pace _ _ _).trans (forAll_pace _ _ _ fun e _ u => ?_)
  split
  · exact State.send_pace u _
  · rfl

theorem State.corruptFill_pace (s : State) (l : Nat) (tx : Bool) : (s.corruptFill l tx).pace = s.pace := by simp [State.corruptFill]

theorem State.corruptFills_pace (s : State) : s.corruptFills.pace = s.pace :=
  forAll_pace _ _ _ fun _ _ _ => (State.corruptFill_pace _ _ _).trans (State.corruptFill_pace _ _ _)

/-- The state on which the Cox's part of a boundary acts, with no rate to take. -/
theorem boundaryReady_pace (s : State) (k : Nat) : ((s.sendBuoys k).corruptFills).pace = s.pace :=
  (State.corruptFills_pace _).trans (s.sendBuoys_pace k)

theorem pace_cox {s t : State} (h : t.pace = s.pace) : t.cox = s.cox := (Prod.mk.inj h).1

theorem pace_clock {s t : State} (h : t.pace = s.pace) :
    t.clock.stroke = s.clock.stroke ∧ t.clock.boundary = s.clock.boundary ∧ t.clock.len = s.clock.len := by
  have hc := (Prod.mk.inj h).2
  exact ⟨(congrArg Clock.stroke hc :), (congrArg Clock.boundary hc :), (congrArg Clock.len hc :)⟩

/-! ### The Cox's part of a boundary -/

theorem slewUntil_spares (s : State) (k : Nat) : spares (fun a _ => a = Reg.coxBuildout) s (s.slewUntil k) := by
  unfold State.slewUntil
  dsimp only
  refine (spares_onlyIf _ _ ?_).trans (spares_onCox _ _)
  exact (spares_wr s _ fun _ => rfl).trans (spares_of_regs rfl)

theorem slewUntil_cox (s : State) (k : Nat) : (s.slewUntil k).cox.adopt = s.cox.adopt ∧ (s.slewUntil k).cox.adoptNum = s.cox.adoptNum ∧
    (s.slewUntil k).cox.failDue = s.cox.failDue ∧ (s.slewUntil k).cox.switch = s.cox.switch := by
  have hby : ∀ (c : Bool) (d : Int), (onlyIf c (State.slewBy · d) s).cox.adopt = s.cox.adopt ∧
      (onlyIf c (State.slewBy · d) s).cox.adoptNum = s.cox.adoptNum ∧ (onlyIf c (State.slewBy · d) s).cox.failDue = s.cox.failDue ∧
      (onlyIf c (State.slewBy · d) s).cox.switch = s.cox.switch := fun c d => by cases c <;> exact ⟨rfl, rfl, rfl, rfl⟩
  exact hby _ _

theorem slewUntil_clock (s : State) (k : Nat) : (s.slewUntil k).clk = s.clk ∧ (s.cox.slewLeft = 0 → (s.slewUntil k).clock.len = s.clock.len) := by
  refine ⟨State.slewUntil_clk s k, fun h => ?_⟩
  have hby : ∀ c : Bool, (onlyIf c (State.slewBy · 0) s).clock.len = s.clock.len := fun c => by
    cases c
    · rfl
    · exact (congrArg Int.toNat (add_zero _)).trans (Int.toNat_natCast _)
  unfold State.slewUntil
  simp only [h, Int.natAbs_zero, Nat.min_zero, Int.natCast_zero, neg_zero, ite_self]
  exact hby _

/-- The boundary has fallen and its number is known; the Cox has not judged it yet. -/
def State.coxMoved (s : State) : State :=
  let locked := s.coxState == 2
  let s := s.slewUntil (s.clock.boundary + s.clock.len)
  let ended := s.clock.len
  let adopt := s.cox.adopt && !s.running
  let num : Stroke := match s.cox.adoptNum with
    | some k => if adopt then k else s.clock.stroke + 1
    | none => s.clock.stroke + 1
  let s := s.onClock fun c =>
    { c with stroke := num, boundary := c.boundary + ended, time := max c.time (c.boundary + ended), len := c.owed / c.rateNum, acc := c.owed % c.rateNum }
  s.onCox fun c => { c with
    adopt := false, adoptNum := c.adoptNum.map (· + 1), lockedTime := c.lockedTime + if locked then ended else 0, slewAt := s.clock.boundary }

/-- What the Cox decides at the boundary. -/
def State.coxDecides (s : State) (ps : List RefPhase) : State :=
  if s.cox.failDue then (s.switchDrop).coxTransition ps
  else match s.cox.switch with
    | some w => s.switchStep ps w
    | none => s.coxTransition ps

theorem coxBoundary_eq (ps : List RefPhase) (s : State) :
    coxBoundary ps s = ((((s.coxMoved.coxDecides ps).coxTotal).coxPins).syncPulse 0).syncPulse 1 := rfl

theorem coxDecides_clk (s : State) (ps : List RefPhase) : (s.coxDecides ps).clk = s.clk := by
  unfold State.coxDecides
  split
  · rw [State.coxTransition_clk, State.switchDrop_clk]
  · split
    · exact State.switchStep_clk s ps _
    · exact State.coxTransition_clk s ps

theorem coxDecides_rates (s : State) (ps : List RefPhase) : (s.coxDecides ps).rates = s.rates := by
  unfold State.coxDecides
  split
  · rw [State.coxTransition_rates, State.switchDrop_rates]
  · split
    · exact State.switchStep_rates s ps _
    · exact State.coxTransition_rates s ps

theorem coxMoved_rates (s : State) : s.coxMoved.rates = s.rates :=
  (State.onCox_rates _ _).trans ((onClock_rates _ _ rfl).trans (State.slewUntil_rates s _))

theorem coxBoundary_rates (ps : List RefPhase) (s : State) : (coxBoundary ps s).rates = s.rates := by
  rw [coxBoundary_eq, State.syncPulse_rates, State.syncPulse_rates, State.coxPins_rates, State.coxTotal_rates, coxDecides_rates,
    coxMoved_rates]

theorem coxBoundary_clk (ps : List RefPhase) (s : State) : (coxBoundary ps s).clk = s.coxMoved.clk := by
  rw [coxBoundary_eq, State.syncPulse_clk, State.syncPulse_clk, State.coxPins_clk, State.coxTotal_clk, coxDecides_clk]

theorem running_of_spares {M : Nat → Nat → Prop} {s t : State} (h : spares M s t) (hm : ∀ i, ¬ M Reg.chtState i) : t.running = s.running := by
  rw [State.running, State.loadState, h.f fun i _ _ => hm i, State.running, State.loadState]

theorem slewUntil_running (s : State) (k : Nat) : (s.slewUntil k).running = s.running :=
  running_of_spares (slewUntil_spares s k) fun i => by decide

/-- The number of the boundary, with none adopted. -/
theorem coxMoved_next {s : State} (h : s.cox.adopt = false ∨ s.running = true ∨ s.cox.adoptNum = none) :
    s.coxMoved.clock.stroke = s.clock.stroke + 1 := by
  obtain ⟨hadopt, hnum, -, -⟩ := slewUntil_cox s (s.clock.boundary + s.clock.len)
  have hrun := slewUntil_running s (s.clock.boundary + s.clock.len)
  have hstroke : (s.slewUntil (s.clock.boundary + s.clock.len)).clock.stroke = s.clock.stroke :=
    (Prod.mk.inj (slewUntil_clock s _).1).1
  show (match (s.slewUntil (s.clock.boundary + s.clock.len)).cox.adoptNum with
    | some k => if (s.slewUntil (s.clock.boundary + s.clock.len)).cox.adopt && !(s.slewUntil (s.clock.boundary + s.clock.len)).running then k
      else (s.slewUntil (s.clock.boundary + s.clock.len)).clock.stroke + 1
    | none => (s.slewUntil (s.clock.boundary + s.clock.len)).clock.stroke + 1) = s.clock.stroke + 1
  rw [hadopt, hnum, hrun, hstroke]
  rcases h with h | h | h
  · rw [h]; split <;> rfl
  · rw [h, Bool.not_true, Bool.and_false]; split <;> rfl
  · rw [h]

/-- The number adopted before RUNNING. -/
theorem coxMoved_adopted {s : State} {k : Stroke} (ha : s.cox.adopt = true) (hr : s.running = false) (hk : s.cox.adoptNum = some k) :
    s.coxMoved.clock.stroke = k := by
  obtain ⟨hadopt, hnum, -, -⟩ := slewUntil_cox s (s.clock.boundary + s.clock.len)
  have hrun := slewUntil_running s (s.clock.boundary + s.clock.len)
  show (match (s.slewUntil (s.clock.boundary + s.clock.len)).cox.adoptNum with
    | some k => if (s.slewUntil (s.clock.boundary + s.clock.len)).cox.adopt && !(s.slewUntil (s.clock.boundary + s.clock.len)).running then k
      else (s.slewUntil (s.clock.boundary + s.clock.len)).clock.stroke + 1
    | none => (s.slewUntil (s.clock.boundary + s.clock.len)).clock.stroke + 1) = k
  rw [hadopt, hnum, hrun, ha, hr, hk]
  rfl

theorem coxMoved_boundary {s : State} (h : s.cox.slewLeft = 0) : s.coxMoved.clock.boundary = s.clock.boundary + s.clock.len := by
  obtain ⟨hclk, hlen⟩ := slewUntil_clock s (s.clock.boundary + s.clock.len)
  show (s.slewUntil (s.clock.boundary + s.clock.len)).clock.boundary + (s.slewUntil (s.clock.boundary + s.clock.len)).clock.len = _
  rw [hlen h, (Prod.mk.inj hclk).2]

/-! ### The Cox's state after a boundary -/

theorem coxLeave_state (s : State) {dst : Nat} (h : dst < 4) : (s.coxLeave dst).coxState = dst := by
  have hnote : ∀ (t : State) i e, (t.coxNote i e).coxState = t.coxState := fun t i e =>
    (coxNote_spares t i e).f fun i _ _ => by unfold noteMark Reg.coxState; omega
  unfold State.coxLeave
  split
  · assumption
  · dsimp only
    have hset : ∀ t : State, (t.setF Reg.coxState 1 0 dst).coxState = dst := fun t =>
      (State.f_setF_self _ _ _ _ _ (by decide) (by decide)).trans (Nat.mod_eq_of_lt h)
    split
    · rw [hnote, hset]
    · rw [hnote, hset]

/-- The total correction and the pins show the state and leave it. -/
theorem coxBoundary_shows (ps : List RefPhase) (s : State) :
    (coxBoundary ps s).coxState = (s.coxMoved.coxDecides ps).coxState ∧
    (coxBoundary ps s).pins.coxLock = ((coxBoundary ps s).coxState == 2) ∧ (coxBoundary ps s).pins.coxHold = ((coxBoundary ps s).coxState == 3) ∧
    (coxBoundary ps s).pins.coxSel = (if (coxBoundary ps s).coxState = 0 then 0 else (coxBoundary ps s).inUse) := by
  rw [coxBoundary_eq]
  set u := (s.coxMoved.coxDecides ps).coxTotal with hu
  have hpulse : ∀ (t : State) n, (t.syncPulse n).regs = t.regs ∧ (t.syncPulse n).pins.coxLock = t.pins.coxLock ∧
      (t.syncPulse n).pins.coxHold = t.pins.coxHold ∧ (t.syncPulse n).pins.coxSel = t.pins.coxSel := fun t n => by
    simp only [State.syncPulse, State.syncPin, State.onPins]
    split <;> simp
  obtain ⟨hr0, hl0, hh0, hs0⟩ := hpulse u.coxPins 0
  obtain ⟨hr1, hl1, hh1, hs1⟩ := hpulse (u.coxPins.syncPulse 0) 1
  have hregs := hr1.trans hr0
  have hstate : (((u.coxPins).syncPulse 0).syncPulse 1).coxState = u.coxState :=
    (State.f_congr hregs _ _ _).trans (State.f_setB_outside u _ _ (.inl (by decide)))
  have huse : (((u.coxPins).syncPulse 0).syncPulse 1).inUse = u.inUse :=
    (State.f_congr hregs _ _ _).trans (State.f_setB_outside u _ _ (.inl (by decide)))
  refine ⟨hstate.trans ((coxTotal_spares _).f fun i _ _ => by unfold noteMark Reg.coxState; omega), ?_, ?_, ?_⟩
  · rw [hl1, hl0, hstate]; rfl
  · rw [hh1, hh0, hstate]; rfl
  · rw [hs1, hs0, hstate, huse]; rfl

theorem coxMoved_regs (s : State) : s.coxMoved.regs = (s.slewUntil (s.clock.boundary + s.clock.len)).regs := rfl

theorem coxMoved_reads (s : State) : s.coxMoved.coxMode = s.coxMode ∧ s.coxMoved.b Reg.coxState 11 = s.b Reg.coxState 11 ∧
    s.coxMoved.cox.failDue = s.cox.failDue ∧ s.coxMoved.cox.switch = s.cox.switch := by
  have hall : spares (fun a _ => a = Reg.coxBuildout) s s.coxMoved := (slewUntil_spares s _).trans (spares_of_regs (coxMoved_regs s))
  obtain ⟨-, -, hfail, hsw⟩ := slewUntil_cox s (s.clock.boundary + s.clock.len)
  refine ⟨?_, hall _ _ (by decide), hfail, hsw⟩
  rw [State.coxMode, hall.f fun i _ _ => by decide, State.coxMode]

/-- With no switch and no failure the mode decides. -/
theorem coxDecides_mode {s : State} (ps : List RefPhase) (hs : s.cox.switch = none) (hf : s.cox.failDue = false) :
    (s.coxMode = 2 → s.coxMoved.coxDecides ps = s.coxMoved.coxLeave 0) ∧ (s.coxMode = 1 → s.coxMoved.coxDecides ps = s.coxMoved.coxFall) := by
  obtain ⟨hmode, -, hfail, hsw⟩ := coxMoved_reads s
  have hdec : s.coxMoved.coxDecides ps = s.coxMoved.coxTransition ps := by
    unfold State.coxDecides
    rw [hfail, hsw, hs, hf]
    rfl
  rw [hdec]
  refine ⟨fun h => ?_, fun h => ?_⟩
  · simp [State.coxTransition, hmode, h, hfail, hf]
  · simp [State.coxTransition, hmode, h, hfail, hf]

/-! ### The whole boundary -/

theorem boundaryStill_rates (s : State) (ps : List RefPhase) : (s.boundaryStill ps).rates = (s.takeRate s.clock.rateNext).rates := by
  unfold State.boundaryStill
  dsimp only
  rw [State.glassLimit_rates, State.portsBoundary_rates, State.flipHeads_rates, State.sendMarkers_rates, State.newStroke_rates,
    coxBoundary_rates, State.corruptFills_rates, State.sendBuoys_rates]

/-- The clock after the Cox's part, on a state that paces as `s` does. -/
theorem coxBoundary_paced (ps : List RefPhase) {s t : State} (h : t.pace = s.pace) (hadopt : s.cox.adopt = false ∨ s.cox.adoptNum = none)
    (hslew : s.cox.slewLeft = 0) : (coxBoundary ps t).clk = (s.clock.stroke + 1, s.clock.boundary + s.clock.len) := by
  obtain ⟨hstroke, hbound, hlen⟩ := pace_clock h
  have hcox := pace_cox h
  have hnum := coxMoved_next (s := t) (by rw [hcox]; exact hadopt.imp_right .inr)
  have hfall := coxMoved_boundary (s := t) (by rw [hcox]; exact hslew)
  rw [coxBoundary_clk, State.clk, hnum, hfall, hstroke, hbound, hlen]

theorem boundaryStill_steps {s : State} (ps : List RefPhase) (hrate : s.clock.rateNext = none)
    (hadopt : s.cox.adopt = false ∨ s.cox.adoptNum = none) (hslew : s.cox.slewLeft = 0) :
    (s.boundaryStill ps).clk = (s.clock.stroke + 1, s.clock.boundary + s.clock.len) := by
  rw [State.boundaryStill_clk, hrate]
  exact coxBoundary_paced ps (boundaryReady_pace s s.clock.len) hadopt hslew

theorem boundaryFirst_steps {s : State} (ps : List RefPhase) (hrate : s.clock.rateNext = none) (hfl : s.loader.flNext = none)
    (hadopt : s.cox.adopt = false ∨ s.cox.adoptNum = none) (hslew : s.cox.slewLeft = 0) :
    (s.boundaryFirst ps).clk = (s.clock.stroke + 1, s.clock.boundary + s.clock.len) := by
  refine (State.boundaryFirst_clk s ps).trans ?_
  rw [hrate]
  simp only [State.takeRate, hfl]
  exact coxBoundary_paced ps (boundaryReady_pace s s.clock.len) hadopt hslew

end Sys2Proof.Machine
end
section
/-! PROOF. The deadline (R234) leaves the loader, and the stroke boundary as a whole (R14, R88). -/

namespace Sys2Proof.Machine

/-! ### Jobs leave the loader and the guard interval -/

/-- The loader, and whether the guard interval runs. -/
def State.loading (s : State) : LoaderSt × Bool := (s.loader, s.jik.guard)

@[simp] theorem forAll_loading {α : Type} (l : List α) (g : α → State → State) (s : State) (h : ∀ a ∈ l, ∀ t, (g a t).loading = t.loading) : (forAll l g s).loading = s.loading := forAll_field State.loading g l h s
@[simp] theorem foldl_loading {α : Type} (l : List α) (g : State → α → State) (s : State) (h : ∀ a ∈ l, ∀ t, (g t a).loading = t.loading) : (l.foldl g s).loading = s.loading := forAll_field State.loading (fun a t => g t a) l h s
@[simp] theorem ite_loading (c : Prop) [Decidable c] (a b : State) : (if c then a else b).loading = if c then a.loading else b.loading := by split <;> rfl
@[simp] theorem loading_with_fresh (s : State) (n : Nat) : ({ s with clock := { s.clock with free := n } } : State).loading = s.loading := rfl
@[simp] theorem loading_with_any (s : State) (a1 a2 a3 a4 a5 a7 a8 a9 a10 a11 a13 a14 a15 a16 a17 a18 a19 a20 a21 a22 a23 a24 a25 a26 a27 a28 a29 a30) :
    ({ s with regs := a1, shadow := a2, pins := a4, clock := a3, cox := a5, syn := a7, prt := a8, xtb := a9, que := a10, slips := a11,
              hed := a13, egr := a14, aud := a15, lgt := a16, fld := a17, keep := a18, nvs := a19, thm := a20, pwr := a21, quay := a22,
              evt := a23, out := a24, fstore := a25, work := a26, nvsMem := a27, cflash := a28, hostMem := a29, pending := a30 } : State).loading = s.loading := rfl
@[simp] theorem loading_with_jik (s : State) (j : JikSt) (h : j.guard = s.jik.guard) : ({ s with jik := j } : State).loading = s.loading :=
  congrArg (Prod.mk s.loader) h
@[simp] theorem State.wr_loading (s : State) (a : Nat) (v : Word) : (State.wr s a v).loading = s.loading := by
  simp [State.wr]
@[simp] theorem State.setF_loading (s : State) (a : Nat) (hi : Nat) (lo : Nat) (v : Nat) : (State.setF s a hi lo v).loading = s.loading := by
  simp [State.setF]
@[simp] theorem State.setB_loading (s : State) (a : Nat) (i : Nat) (v : Bool) : (State.setB s a i v).loading = s.loading := by
  simp [State.setB]
@[simp] theorem State.fresh_loading (s : State) (w : Nat) : (State.fresh s w).2.loading = s.loading := by
  simp [State.fresh]
@[simp] theorem onlyIf_loading (c : Bool) (g : State → State) (s : State) (h : (g s).loading = s.loading) : (onlyIf c g s).loading = s.loading := by
  cases c <;> simp [onlyIf, h]
@[simp] theorem State.setRing_loading (s : State) (r : Nat) (x : RingSt) : (State.setRing s r x).loading = s.loading := by
  simp [State.setRing]
@[simp] theorem State.satQuiet_loading (s : State) (a : Nat) (n : Nat) (k : Nat) : (State.satQuiet s a n k).loading = s.loading := by
  simp [State.satQuiet]
@[simp] theorem State.noteTail_loading (s : State) (k : Nat) : (State.noteTail s k).loading = s.loading := by
  simp [State.noteTail]
@[simp] theorem State.deliverQuiet_loading (s : State) (r : Nat) (x : Rec) : (State.deliverQuiet s r x).loading = s.loading := by
  simp [State.deliverQuiet]
@[simp] theorem State.dropSat_loading (s : State) (old : State) (a : Nat) : (State.dropSat s old a).loading = s.loading := by
  unfold State.dropSat
  (repeat' split) <;> simp
@[simp] theorem State.deliver_loading (s : State) (r : Nat) (x : Rec) : (State.deliver s r x).loading = s.loading := by
  simp [State.deliver]
@[simp] theorem State.raiseRaw_loading (s : State) (src : Nat) (code : Nat) (inst : Nat) (line : Nat) (data : Nat) : (State.raiseRaw s src code inst line data).loading = s.loading := by
  unfold State.raiseRaw
  (repeat' split) <;> simp
@[simp] theorem State.raise_loading (s : State) (e : Ev) (inst : Nat) (data : Nat) : (State.raise s e inst data).loading = s.loading := by
  simp [State.raise]
@[simp] theorem State.countErr_loading (s : State) (a : Nat) (n : Nat) (k : Nat) : (State.countErr s a n k).loading = s.loading := by
  simp [State.countErr]
@[simp] theorem State.countPerf_loading (s : State) (a : Nat) (n : Nat) (k : Nat) : (State.countPerf s a n k).loading = s.loading := by
  simp [State.countPerf]
@[simp] theorem State.onSlip_loading (s : State) (k : Nat) (g : SlipSt → SlipSt) : (State.onSlip s k g).loading = s.loading := by
  simp [State.onSlip]
@[simp] theorem State.onSlot_loading (s : State) (k : Nat) (j : Nat) (g : SlotSt → SlotSt) : (State.onSlot s k j g).loading = s.loading := by
  simp [State.onSlot]
@[simp] theorem State.showSlip_loading (s : State) (k : Nat) : (State.showSlip s k).loading = s.loading := by
  unfold State.showSlip
  (repeat' split) <;> simp
@[simp] theorem State.completeFrame_loading (s : State) (k : Nat) (j : Nat) : (State.completeFrame s k j).loading = s.loading := by
  simp [State.completeFrame]
@[simp] theorem State.unpin_loading (s : State) (k : Nat) (r : Nat) : (State.unpin s k r).loading = s.loading := by
  simp [State.unpin]
@[simp] theorem State.releaseCrew_loading (s : State) (c : Nat) : (State.releaseCrew s c).loading = s.loading := by
  simp [State.releaseCrew]
@[simp] theorem State.onQueue_loading (s : State) (q : Nat) (g : QueSt → QueSt) : (State.onQueue s q g).loading = s.loading := by
  simp [State.onQueue]
@[simp] theorem State.onJik_loading (s : State) (g : JikSt → JikSt) (h : (g s.jik).guard = s.jik.guard) : (State.onJik s g).loading = s.loading :=
  loading_with_jik s _ h
@[simp] theorem State.onEng_loading (s : State) (e : Nat) (g : EngSt → EngSt) : (State.onEng s e g).loading = s.loading := by
  simp [State.onEng]
@[simp] theorem State.onCrew_loading (s : State) (c : Nat) (g : CrwSt → CrwSt) : (State.onCrew s c g).loading = s.loading := by
  simp [State.onCrew]
@[simp] theorem State.append_loading (s : State) (q : Nat) (d : Rec) : (State.append s q d).loading = s.loading := by
  simp [State.append]
@[simp] theorem State.dropDesc_loading (s : State) (q : Nat) : (State.dropDesc s q).loading = s.loading := by
  simp [State.dropDesc]
@[simp] theorem State.pushFree_loading (s : State) (q : Nat) (d : Rec) : (State.pushFree s q d).loading = s.loading := by
  simp [State.pushFree]
@[simp] theorem State.hold_loading (s : State) (q : Nat) (r : Rec) (origin : PushFrom) : (State.hold s q r origin).loading = s.loading := by
  rw [State.hold, State.onJik_loading _ _ rfl, State.onQueue_loading]
@[simp] theorem State.pushOr_loading (s : State) (q : Nat) (r : Rec) (origin : PushFrom) : (State.pushOr s q r origin).loading = s.loading := by
  simp [State.pushOr]
@[simp] theorem State.pushDone_loading (s : State) (q : Nat) (r : Rec) : (State.pushDone s q r).loading = s.loading := by
  simp [State.pushDone]
@[simp] theorem State.jobOver_loading (s : State) (x : Flight) (status : Nat) : (State.jobOver s x status).loading = s.loading := by
  unfold State.jobOver
  (repeat' split) <;> simp
@[simp] theorem State.freeTag_loading (s : State) (tag : Nat) : (State.freeTag s tag).loading = s.loading := by
  simp [State.freeTag]
@[simp] theorem State.jobDone_loading (s : State) (tag : Nat) (status : Nat) (result : Nat) : (State.jobDone s tag status result).loading = s.loading := by
  unfold State.jobDone
  (repeat' split) <;> simp
@[simp] theorem State.showCrew_loading (s : State) (c : Nat) : (State.showCrew s c).loading = s.loading := by
  simp [State.showCrew]
@[simp] theorem State.countBusy_loading (s : State) (e : Nat) : (State.countBusy s e).loading = s.loading := by
  simp [State.countBusy]
@[simp] theorem State.freeEngine_loading (s : State) (e : Nat) : (State.freeEngine s e).loading = s.loading := by
  simp [State.freeEngine]
@[simp] theorem State.vacate_loading (s : State) (isCrew : Bool) (n : Nat) : (State.vacate s isCrew n).loading = s.loading := by
  simp [State.vacate]
@[simp] theorem State.cancelJob_loading (s : State) (tag : Nat) : (State.cancelJob s tag).loading = s.loading := by
  unfold State.cancelJob
  (repeat' split) <;> simp
@[simp] theorem State.cutEngine_loading (s : State) (e : Nat) : (State.cutEngine s e).loading = s.loading := by
  unfold State.cutEngine
  (repeat' split) <;> simp
@[simp] theorem State.dropJobs_loading (s : State) (q : Nat) : (State.dropJobs s q).loading = s.loading := by
  simp [State.dropJobs]
@[simp] theorem State.letGo_loading (s : State) (q : Nat) : (State.letGo s q).loading = s.loading := by
  unfold State.letGo
  refine (State.onQueue_loading ..).trans (forAll_loading _ _ _ fun w _ t => ?_)
  split <;> simp
theorem deadline_loader (s : State) : (deadline s).loader = s.loader := by
  have h : s.cancelledAll.vacateCrews.emptyVoid.loading = s.loading := by
    simp [State.cancelledAll, State.vacateCrews, State.emptyVoid]
  exact (congrArg Prod.fst h :)

theorem pastDeadline_loader (s : State) : s.pastDeadline.loader = s.loader := by
  unfold State.pastDeadline
  split
  · rfl
  · exact deadline_loader s

theorem pastDeadline_steps {s : State} (ps : List RefPhase) (hrate : s.clock.rateNext = none) (hfl : s.loader.flNext = none)
    (hadopt : s.cox.adopt = false ∨ s.cox.adoptNum = none) (hslew : s.cox.slewLeft = 0) :
    (s.pastDeadline.boundaryFirst ps).clk = (s.clock.stroke + 1, s.clock.boundary + s.clock.len) := by
  have hpace := State.pastDeadline_pace s
  have hcox := pace_cox hpace
  have hclock := (Prod.mk.inj hpace).2
  have hload : s.pastDeadline.loader.flNext = s.loader.flNext := congrArg LoaderSt.flNext (pastDeadline_loader s)
  obtain ⟨hstroke, hbound, hlen⟩ := pace_clock hpace
  rw [boundaryFirst_steps ps ((congrArg Clock.rateNext hclock :).trans hrate) (hload.trans hfl)
    (hcox ▸ hadopt) (hcox ▸ hslew), hstroke, hbound, hlen]

/-! ### The boundary as a whole -/

@[simp] theorem State.enterJob_loading (s : State) (q : Nat) (r : Rec) : (State.enterJob s q r).loading = s.loading := by
  unfold State.enterJob
  (repeat' split) <;> simp
@[simp] theorem quePushRelease_loading (q : Nat) (s : State) : (quePushRelease q s).loading = s.loading := by
  unfold quePushRelease
  dsimp only
  (repeat' split) <;> simp

theorem guardEntries_guard (s : State) : s.guardEntries.jik.guard = s.jik.guard :=
  congrArg Prod.snd (forAll_loading _ _ s fun q _ t => quePushRelease_loading q t)

theorem lightStep_shows (s : State) : s.lightStep.jik = s.jik ∧ s.lightStep.lgt.inFlight.isSome = true := by
  refine ⟨?_, rfl⟩
  unfold State.lightStep
  dsimp only
  rw [State.onLgt_jik]
  exact forAll_field State.jik _ _ (fun c _ t => State.setB_jik t _ _ _) s

/-- Settles O45. The number and the moment of the boundary are the Cox's doing, which the laws of the clock say of the other steps; the rate is
nobody's but that of the first step. -/
theorem strokeBoundariesStepTheCox : Obligations.StrokeBoundariesStepTheCox := by
  intro ps s hup
  have hx : exec (.strokeBoundary ps) s = .next (strokeBoundary ps s) := onMatrix_up (strokeBoundary ps) hup
  have hon : s.coreUp = true → exec (.strokeBoundary ps) s =
      .next ((s.pastDeadline.boundaryFirst ps).boundaryMiddle.jikNewStroke.guardEntries).lightStep := fun h =>
    hx.trans (congrArg _ (if_pos h))
  have hoff : s.coreUp = false → exec (.strokeBoundary ps) s = .next (s.boundaryStill ps) := fun h =>
    hx.trans (congrArg _ (if_neg (by rw [h]; decide)))
  obtain ⟨hstate, hlock, hhold, hsel⟩ := coxBoundary_shows ps s
  have hclk := coxBoundary_clk ps s
  obtain ⟨hnum, hmoment⟩ := Prod.mk.inj hclk
  refine ⟨hon, hoff, fun h hrate hadopt hslew => ?_, fun n d h hrate => ?_, fun h hfl hrate hadopt hslew => ?_,
    fun h => hnum.trans (coxMoved_next h), fun k ha hr hk => hnum.trans (coxMoved_adopted ha hr hk),
    fun h => hmoment.trans (coxMoved_boundary h), fun hs hf hm => ?_, fun hs hf hm => ?_, hlock, hhold, hsel,
    kept_sameMemory (coxBoundary_kept ps s)⟩
  · exact completes_of_exec (hoff h) (Prod.mk.inj (boundaryStill_steps ps hrate hadopt hslew))
  · have hrates := boundaryStill_rates s ps
    rw [hrate] at hrates
    obtain ⟨h1, h2⟩ := Prod.mk.inj hrates
    exact completes_of_exec (hoff h) ⟨h1, (Prod.mk.inj h2).1, (Prod.mk.inj h2).2⟩
  · have hsteps := pastDeadline_steps ps hrate hfl hadopt hslew
    have hclk := (State.lightStep_clk ((s.pastDeadline.boundaryFirst ps).boundaryMiddle.jikNewStroke.guardEntries)).trans
      ((State.guardEntries_clk _).trans ((State.jikNewStroke_clk _).trans ((State.boundaryMiddle_clk _).trans hsteps)))
    obtain ⟨hjik, hlgt⟩ := lightStep_shows ((s.pastDeadline.boundaryFirst ps).boundaryMiddle.jikNewStroke.guardEntries)
    refine completes_of_exec (hon h) ⟨(Prod.mk.inj hclk).1, (Prod.mk.inj hclk).2, ?_, hlgt⟩
    rw [hjik]
    exact guardEntries_guard _
  · rw [hstate, (coxDecides_mode ps hs hf).1 hm, coxLeave_state _ (by decide)]
  · rw [hstate, (coxDecides_mode ps hs hf).2 hm, State.coxFall, (coxMoved_reads s).2.1, coxLeave_state _ (by split <;> decide)]

end Sys2Proof.Machine
end
section
/-! PROOF. Resets that keep the supplies, the watchdog and the thresholds (R10, R411, R412, R436 to R440). -/

namespace Sys2Proof.Machine

/-! ### What a reset of the matrix die leaves -/

theorem rd_filterRegs (s : State) (p : Nat → Bool) (a : Nat) :
    ({ s with regs := s.regs.filter fun e => p e.1 } : State).rd a = if p a = true then s.rd a else regReset a := by
  simp only [State.rd, nget, nfind_filter_key]
  split <;> rfl

theorem nvsMatrixReset_leaves (s : State) : ∃ n, s.nvsMatrixReset = { s with nvs := n } := by
  unfold State.nvsMatrixReset
  dsimp only
  split
  · exact ⟨_, rfl⟩
  · exact ⟨_, rfl⟩

/-- What every reset of the matrix die does to the parts that the statement names, and what it leaves. -/
def State.anew (s t : State) : Prop :=
  t.xtb = XtbSt.init ∧ t.jik = JikSt.init ∧ t.que = [] ∧ t.clock.stroke = 0 ∧ t.shadow = [] ∧ t.pins.pwrEn = s.pins.pwrEn ∧
    t.pins.resetN = s.pins.resetN ∧ t.pins.wake = s.pins.wake ∧ t.keep = s.keep ∧
    t.pwr = { s.pwr with sleepPend := false, stayHeld := false, warmKeyAt := none, wdtWarned := false }

/-- A reset of the matrix die, before what a host warm reset writes back. -/
def State.resetCore (s : State) (warm : Bool) : State :=
  let s := ((s.wipe fun _ => true).resetRegs warm).nvsMatrixReset
  { s with
    shadow := []
    clock  := { s.clock with stroke := 0, rateNum := 60, rateDen := 1, rateNext := none, len := 333333333, acc := 20 }
    pins   := s.pins.matrixReset
    loader := { LoaderSt.init with otpHash := s.loader.otpHash, otpTest := s.loader.otpTest }
    cox    := CoxSt.init
    syn    := []
    prt    := PrtSt.init
    xtb    := XtbSt.init
    que    := []
    slips  := []
    jik    := JikSt.init
    hed    := HedSt.init
    egr    := []
    aud    := AudSt.init
    lgt    := LgtSt.init
    fld    := FldSt.init
    thm    := s.thm.matrixReset
    quay   := QuaySt.init
    evt    := { EvtSt.init with deferred := s.evt.deferred }
    pwr    := { s.pwr with sleepPend := false, stayHeld := false, warmKeyAt := none, wdtWarned := false } }

theorem resetMatrix_eq (s : State) (warm : Bool) :
    s.resetMatrix warm = if warm then s.warmKept (s.resetCore warm) else s.resetCore warm := rfl

theorem resetCore_anew (s : State) (warm : Bool) : s.anew (s.resetCore warm) ∧
    ∀ a, (s.resetCore warm).rd a = if (lightDieRegs.contains a || (warm && rwsRegs.contains a)) = true then s.rd a else regReset a := by
  obtain ⟨n, hn⟩ := nvsMatrixReset_leaves ((s.wipe fun _ => true).resetRegs warm)
  unfold State.resetCore State.anew
  dsimp only
  rw [hn]
  exact ⟨⟨rfl, rfl, rfl, rfl, rfl, rfl, rfl, rfl, rfl, rfl⟩,
    rd_filterRegs s (fun a => lightDieRegs.contains a || (warm && rwsRegs.contains a))⟩

/-- The registers that a host warm reset writes back. -/
def warmRegs : List Nat := [Reg.synStat 0, Reg.synStat 6, Reg.quayPcieStat, Reg.synLockSum 0, Reg.synCoastSum 0]

theorem warmKept_leaves (s t : State) : (s.warmKept t) = { t with regs := (s.warmKept t).regs, syn := (s.warmKept t).syn } ∧
    (∀ a, a ∉ warmRegs → (s.warmKept t).rd a = t.rd a) ∧ (s.warmKept t).rd (Reg.synStat 0) = s.rd (Reg.synStat 0) := by
  refine ⟨rfl, fun a ha => ?_, ?_⟩
  · simp only [warmRegs, List.mem_cons, List.not_mem_nil, or_false, not_or] at ha
    obtain ⟨h0, h6, hp, hl, hc⟩ := ha
    refine (State.rd_wr_ne _ _ hc).trans ((State.rd_wr_ne _ _ hl).trans ?_)
    exact (State.rd_wr_ne _ _ hp).trans ((State.rd_wr_ne _ _ h6).trans (State.rd_wr_ne _ _ h0))
  · refine (State.rd_wr_ne _ _ (by decide)).trans ((State.rd_wr_ne _ _ (by decide)).trans ?_)
    exact (State.rd_wr_ne _ _ (by decide)).trans ((State.rd_wr_ne _ _ (by decide)).trans (State.rd_wr_self ..))

theorem resetMatrix_anew (s : State) (warm : Bool) : s.anew (s.resetMatrix warm) := by
  have hcore := (resetCore_anew s warm).1
  cases warm
  · exact hcore
  · rw [resetMatrix_eq, if_pos rfl, (warmKept_leaves s _).1]
    exact hcore

/-- A reset other than the host's own: the registers that the light die holds stay, every other takes its reset value. -/
theorem resetMatrix_cold_rd (s : State) (a : Nat) :
    (s.resetMatrix false).rd a = if a ∈ lightDieRegs then s.rd a else regReset a := by
  have h := (resetCore_anew s false).2 a
  rw [Bool.false_and, Bool.or_false] at h
  rw [resetMatrix_eq, if_neg (by decide)]
  simpa only [List.contains_iff_mem] using h

/-- The host's warm reset keeps the `RWS` registers and the state of `SYN_CORE` besides. -/
theorem resetMatrix_warm_rd (s : State) : (∀ a, a ∈ lightDieRegs ∨ a ∈ rwsRegs → (s.resetMatrix true).rd a = s.rd a) ∧
    (s.resetMatrix true).rd (Reg.synStat 0) = s.rd (Reg.synStat 0) := by
  obtain ⟨-, hregs, hstat⟩ := warmKept_leaves s (s.resetCore true)
  refine ⟨fun a ha => ?_, hstat⟩
  have hapart : ∀ b ∈ lightDieRegs ++ rwsRegs, b ∉ warmRegs := by decide
  rw [resetMatrix_eq, if_pos rfl, hregs a (hapart a (List.mem_append.2 ha)), (resetCore_anew s true).2 a, if_pos]
  simpa only [Bool.true_and, Bool.or_eq_true, List.contains_iff_mem] using ha

/-- A reset that keeps the supplies. -/
theorem keepSupplyReset_shows (s : State) (cause : Nat) (warm exit : Bool) :
    let t := (s.keepSupplyReset cause warm).onPwr fun p => { p with exitDue := exit }
    t.matrixUp = false ∧ t.pwr.phase = .inReset ∧ t.pwr.causes.testBit cause = true ∧ t.xtb = XtbSt.init ∧ t.jik = JikSt.init ∧ t.que = [] ∧
      t.clock.stroke = 0 ∧ t.shadow = [] ∧ (∀ a ∈ lightDieRegs, t.rd a = s.rd a) ∧ t.pins.pwrEn = s.pins.pwrEn ∧ t.pwr.exitDue = exit ∧
      t.pins.resetN = s.pins.resetN ∧ t.keep = s.keep := by
  obtain ⟨hxtb, hjik, hque, hstroke, hshadow, hen, hrst, hwake, hkeep, hpwr⟩ := resetMatrix_anew s warm
  have hrd : ∀ a ∈ lightDieRegs, (s.resetMatrix warm).rd a = s.rd a := fun a ha => by
    cases warm
    · rw [resetMatrix_cold_rd, if_pos ha]
    · exact (resetMatrix_warm_rd s).1 a (.inl ha)
  unfold State.keepSupplyReset
  generalize s.resetMatrix warm = u at *
  exact ⟨Bool.and_false _, rfl, by simp [State.addCause, State.onPwr], hxtb, hjik, hque, hstroke, hshadow, hrd, hen, rfl, hrst, hkeep⟩

theorem keepSupplyReset_rd (s : State) (cause : Nat) (warm exit : Bool) (a : Nat) :
    ((s.keepSupplyReset cause warm).onPwr fun p => { p with exitDue := exit }).rd a = (s.resetMatrix warm).rd a := rfl

theorem keepSupplyReset_wiped (s : State) (cause : Nat) (exit : Bool) {a : Nat} (ha : a ∉ lightDieRegs) :
    ((s.keepSupplyReset cause false).onPwr fun p => { p with exitDue := exit }).rd a = regReset a := by
  rw [keepSupplyReset_rd, resetMatrix_cold_rd, if_neg ha]

/-! ### The watchdog -/

theorem wdtExpire_runs {s : State} (hup : s.matrixUp = true) (hen : s.b Reg.pwrWdtCfg 31 = true) :
    wdtExpire s = ((s.holdHist 1).keepSupplyReset 2 false).onPwr fun p => { p with exitDue := true } := by
  unfold wdtExpire
  exact if_pos (by rw [hup, hen]; rfl)

theorem wdtExpire_idle {s : State} (h : ¬ (s.matrixUp = true ∧ s.b Reg.pwrWdtCfg 31 = true)) : wdtExpire s = s := by
  unfold wdtExpire
  exact if_neg (by rw [Bool.and_eq_true]; exact h)

theorem wdtKickWrite_bad {s : State} {w : Word} (hen : s.b Reg.pwrWdtCfg 31 = true) (hw : bf w 15 0 ≠ 0xC0A5) :
    wdtKickWrite w s = wdtExpire s := by
  unfold wdtKickWrite
  rw [if_neg (by rw [hen]; decide), if_neg hw]

theorem wdtKickWrite_off {s : State} (w : Word) (hen : s.b Reg.pwrWdtCfg 31 = false) : wdtKickWrite w s = s := by
  unfold wdtKickWrite
  rw [if_pos (by rw [hen]; rfl)]

theorem bf_setWidth_half (v : BitVec 16) : bf (v.setWidth 32) 15 0 = v.toNat := by
  simp only [bf, BitVec.extractLsb'_toNat, BitVec.toNat_setWidth, Nat.shiftRight_zero]
  have := v.isLt
  omega

/-! ### Thresholds -/

theorem regWrite_threshold (s : State) (m : Master) (x : Threshold) (w : Word) : s.regWrite m (thresholdReg x) w = thresholdWrite x w s := by
  cases x
  · exact regWrite_thmWarn s m w
  · exact regWrite_thmThrot s m w
  · exact regWrite_thmShdn s m w

theorem takeThreshold_writes (s : State) (x : Threshold) (v : Word) : (s.takeThreshold x v).regs = (s.wr (thresholdReg x) v).regs := by
  cases x <;> rfl

/-- Four samples in a row assert or release a threshold (R412). -/
theorem thrSample_cases (k : ThrSt) (temp thr rel : Int) :
    (k.on = false → temp < thr → k.sample temp thr rel = { k with up := 0 }) ∧
    (k.on = false → thr ≤ temp → k.up = 3 → k.sample temp thr rel = { up := 0, down := 0, on := true }) ∧
    (k.on = true → rel ≤ temp → k.sample temp thr rel = { k with down := 0 }) ∧
    (k.on = true → temp < rel → k.down = 3 → k.sample temp thr rel = { up := 0, down := 0, on := false }) ∧
    ((k.sample temp thr rel).on ≠ k.on → (k.on = false ∧ k.up = 3 ∧ thr ≤ temp) ∨ (k.on = true ∧ k.down = 3 ∧ temp < rel)) := by
  refine ⟨fun hon ht => ?_, fun hon ht hu => ?_, fun hon ht => ?_, fun hon ht hd => ?_, fun hne => ?_⟩
  · simp [ThrSt.sample, hon, ht]
  · simp [ThrSt.sample, hon, ht, hu]
  · simp [ThrSt.sample, hon, not_lt.2 ht]
  · simp [ThrSt.sample, hon, ht, hd]
  · unfold ThrSt.sample at hne
    cases hon : k.on with
    | true =>
      simp only [hon, if_true] at hne
      split at hne
      next ht =>
        split at hne
        next hd => exact .inr ⟨rfl, by omega, ht⟩
        next => exact absurd rfl hne
      next => exact absurd rfl hne
    | false =>
      simp only [hon] at hne
      split at hne
      next h => cases h
      next =>
        split at hne
        next ht =>
          split at hne
          next hu => exact .inl ⟨rfl, by omega, ht⟩
          next => exact absurd rfl hne
        next => exact absurd rfl hne

end Sys2Proof.Machine
end
section
/-! PROOF. The release of the matrix die from reset (R35, R427, R437, R438, R442, R468). -/

namespace Sys2Proof.Machine

/-! ### What the steps of a release leave -/

/-- The sequencer, the pins, the stroke's number, the events that wait for a release, and the recorded causes are as they were. -/
def State.restedOn (s t : State) : Prop :=
  t.pwr = s.pwr ∧ t.pins = s.pins ∧ t.clock.stroke = s.clock.stroke ∧ t.evt.deferred = s.evt.deferred ∧
    t.rd Reg.pwrRstCause = s.rd Reg.pwrRstCause

section
variable {s t u : State}

theorem restedOn_refl (s : State) : s.restedOn s := ⟨rfl, rfl, rfl, rfl, rfl⟩

theorem State.restedOn.trans (h : s.restedOn t) (h2 : t.restedOn u) : s.restedOn u :=
  ⟨h2.1.trans h.1, h2.2.1.trans h.2.1, h2.2.2.1.trans h.2.2.1, h2.2.2.2.1.trans h.2.2.2.1, h2.2.2.2.2.trans h.2.2.2.2⟩

theorem State.restedOn.up (h : s.restedOn t) (hup : s.matrixUp = true) : t.matrixUp = true := by
  rw [State.matrixUp, h.1]; exact hup

theorem restedOn_wr (s : State) {a : Nat} (v : Word) (h : Reg.pwrRstCause ≠ a) : s.restedOn (s.wr a v) :=
  ⟨rfl, rfl, rfl, rfl, s.rd_wr_ne v h⟩

theorem restedOn_onlyIf (c : Bool) (g : State → State) (h : s.restedOn (g s)) : s.restedOn (onlyIf c g s) := by
  cases c
  · exact restedOn_refl s
  · exact h

theorem restedOn_events (h : eventsOnly s t) (hd : t.evt.deferred = s.evt.deferred) : s.restedOn t :=
  ⟨by rw [h.1], by rw [h.1], by rw [h.1], hd, h.2 _ (notDrop (.inl (by decide)))⟩

end

theorem deliverQuiet_deferred (s : State) (r : Nat) (x : Rec) : (s.deliverQuiet r x).evt.deferred = s.evt.deferred := by
  unfold State.deliverQuiet
  dsimp only
  split
  · split <;> rfl
  · split <;> rfl

theorem dropSat_deferred (s old : State) (a : Nat) : (s.dropSat old a).evt.deferred = s.evt.deferred := by
  unfold State.dropSat
  split
  · split
    · exact deliverQuiet_deferred _ _ _
    · rfl
  · rfl

theorem raiseRaw_deferred (s : State) (src code inst line data : Nat) :
    (s.raiseRaw src code inst line data).evt.deferred = s.evt.deferred := by
  unfold State.raiseRaw
  split
  · exact (dropSat_deferred _ _ _).trans ((dropSat_deferred _ _ _).trans (deliverQuiet_deferred _ _ _))
  · rfl

/-- While the matrix die is up no event waits for a release. -/
theorem restedOn_raise {s : State} (hup : s.matrixUp = true) (e : Ev) (inst data : Nat) : s.restedOn (s.raise e inst data) := by
  refine restedOn_events (s.raise_only e inst data) ?_
  rw [State.raise, if_pos hup]
  exact raiseRaw_deferred _ _ _ _ _ _

theorem restedOn_fresh (s : State) (n : Nat) : s.restedOn (s.fresh n).2 := ⟨rfl, rfl, rfl, rfl, rfl⟩

theorem restedOn_raiseFree {s : State} (hup : s.matrixUp = true) (e : Ev) (inst : Nat) : s.restedOn (s.raiseFree e inst) :=
  (restedOn_fresh s 32).trans (restedOn_raise ((restedOn_fresh s 32).up hup) e inst _)

theorem restedOn_onSyn (s : State) (i : Nat) (g : SynSt → SynSt) : s.restedOn (s.onSyn i g) := ⟨rfl, rfl, rfl, rfl, rfl⟩

theorem restedOn_setSynState (s : State) {i : Nat} (hi : i < 136) (v : Nat) : s.restedOn (s.setSynState i v) :=
  (restedOn_wr s _ (by unfold Reg.pwrRstCause Reg.synStat; omega)).trans
    ((restedOn_wr _ _ (by unfold Reg.pwrRstCause Reg.synLockSum; omega)).trans
      (restedOn_wr _ _ (by unfold Reg.pwrRstCause Reg.synCoastSum; omega)))

theorem restedOn_synAcquireOn (s : State) {i : Nat} (hi : i < 136) (k b : Nat) (rg : Int × Int) : s.restedOn (s.synAcquireOn i k b rg) := by
  have hne : Reg.pwrRstCause ≠ Reg.synStat i := by unfold Reg.pwrRstCause Reg.synStat; omega
  have hfields : s.restedOn (((s.setF (Reg.synStat i) 19 16 k).setF (Reg.synStat i) 13 8 b).setB (Reg.synStat i) 20 false) :=
    ((restedOn_wr s _ hne).trans (restedOn_wr _ _ hne)).trans (restedOn_wr _ _ hne)
  unfold State.synAcquireOn
  dsimp only
  generalize ((s.setF (Reg.synStat i) 19 16 k).setF (Reg.synStat i) 13 8 b).setB (Reg.synStat i) 20 false = v at hfields ⊢
  exact (hfields.trans (restedOn_onSyn v i _)).trans (restedOn_setSynState _ hi 1)

theorem restedOn_synAcquire {s : State} (hup : s.matrixUp = true) {i : Nat} (hi : i < 136) : s.restedOn (s.synAcquire i) := by
  unfold State.synAcquire
  split
  · exact restedOn_synAcquireOn s hi _ _ _
  · split
    · exact restedOn_synAcquireOn s hi _ _ _
    · have hstate : s.restedOn ((s.onSyn i fun x => { x with stale := false }).setSynState i 5) :=
        (restedOn_onSyn s i _).trans (restedOn_setSynState _ hi 5)
      exact hstate.trans (restedOn_raise (hstate.up hup) _ _ _)

theorem restedOn_loaderRelease (s : State) : s.restedOn s.loaderRelease := by
  have hload : s.restedOn (s.loadStart 1) :=
    ((restedOn_wr s _ (by decide)).trans (restedOn_wr (s.setLoad 1) _ (by decide))).trans ⟨rfl, rfl, rfl, rfl, rfl⟩
  unfold State.loaderRelease
  split
  · exact hload
  · exact ⟨rfl, rfl, rfl, rfl, rfl⟩
  · exact ⟨rfl, rfl, rfl, rfl, rfl⟩

/-! ### The release, step by step -/

/-- The straps and the causes are recorded. -/
def State.releaseRecord (s : State) (straps : BitVec 4) : State :=
  let causes := s.pwr.causes
  let s := s.onPwr fun p => { p with phase := .running, causes := 0, exitDue := false, fault := false }
  let s := s.onPins fun p => { p with straps := straps.toNat }
  let s := s.onClock fun c => { c with boundary := c.time, stroke := 0, len := 333333333, acc := 20 }
  let s := s.wr Reg.pwrRstCause (BitVec.ofNat 32 causes)
  let s := s.wr Reg.pwrWakeTime (BitVec.ofNat 32 (min 65535 ((s.now - s.pwr.wakeAt) / 10000)))
  let s := s.wr Reg.pwrHist (BitVec.ofNat 32 s.keep.pwrHist)
  let s := s.wr Reg.thmHist (BitVec.ofNat 32 s.keep.thmHist)
  let s := { s with keep := { s.keep with pwrHist := 0, thmHist := 0 } }
  s.onNvs fun n => { n with powerDown := false, snapshot := none, flushDone := false }

/-- The events that the light die kept, and what it has to say about temperatures. -/
def State.releaseReports (s : State) : State :=
  let s := s.raiseDeferred
  let s := onlyIf s.thm.sayRestart (fun t => t.raise .thmRestarted 0 (min 65535 t.keep.restarts)) s
  let s := onlyIf s.thm.sayLockout (fun t => t.raiseFree .thmLockout 0) s
  { s with thm := { s.thm with sayRestart := false, sayLockout := false } }

/-- The boot synthesizers and the loader start. -/
def State.releaseStarts (s : State) (warm : Bool) (causes : Nat) (srisClock : Bool) : State :=
  let s := if warm then s else ((s.setB Reg.quayPcieStat 30 srisClock).synAcquire 0).synAcquire 6
  (s.raise .pwrRestarted 0 causes).loaderRelease

theorem release_eq (s : State) (straps : BitVec 4) (sris : Bool) : s.release straps sris =
    (((s.releaseRecord straps).releaseReports.releaseStarts (decide (s.pwr.causes = 1)) s.pwr.causes sris).onPwr fun p =>
      { p with sleepPend := !((s.releaseRecord straps).releaseReports.releaseStarts (decide (s.pwr.causes = 1)) s.pwr.causes sris).pins.wake }) :=
  rfl

theorem releaseRecord_shows (s : State) (straps : BitVec 4) :
    (s.releaseRecord straps).pwr = { s.pwr with phase := .running, causes := 0, exitDue := false, fault := false } ∧
    (s.releaseRecord straps).pins = { s.pins with straps := straps.toNat } ∧ (s.releaseRecord straps).clock.stroke = 0 ∧
    (s.releaseRecord straps).rd Reg.pwrRstCause = BitVec.ofNat 32 s.pwr.causes := by
  refine ⟨rfl, rfl, rfl, ?_⟩
  refine (State.rd_wr_ne _ _ (by decide)).trans ((State.rd_wr_ne _ _ (by decide)).trans ((State.rd_wr_ne _ _ (by decide)).trans ?_))
  exact State.rd_wr_self ..

/-- The kept events have all been raised. -/
theorem raiseDeferred_leaves (s : State) : ({ s with evt := { s.evt with deferred := [] } } : State).restedOn s.raiseDeferred := by
  have hone : ∀ (d : Nat × Nat × Nat × Nat) (t : State), t.restedOn (t.inOrder.raiseRaw d.1 d.2.1 d.2.2.1 t.strokeLine d.2.2.2) := fun d t =>
    State.restedOn.trans (t := t.inOrder) ⟨rfl, rfl, rfl, rfl, rfl⟩
      (restedOn_events (State.raiseRaw_only _ _ _ _ _ _) (raiseRaw_deferred _ _ _ _ _ _))
  have hall := forAll_keeps (fun t => ({ s with evt := { s.evt with deferred := [] } } : State).restedOn t)
    (fun d t => t.inOrder.raiseRaw d.1 d.2.1 d.2.2.1 t.strokeLine d.2.2.2) s.evt.deferred _ (fun d _ t ht => ht.trans (hone d t)) (restedOn_refl _)
  exact hall.trans ⟨rfl, rfl, rfl, rfl, rfl⟩

theorem releaseReports_leaves {s : State} (hup : s.matrixUp = true) :
    ({ s with evt := { s.evt with deferred := [] } } : State).restedOn s.releaseReports := by
  have h1 := raiseDeferred_leaves s
  have hup1 : s.raiseDeferred.matrixUp = true := h1.up hup
  have h2 := h1.trans (restedOn_onlyIf s.raiseDeferred.thm.sayRestart
    (fun t => t.raise .thmRestarted 0 (min 65535 t.keep.restarts)) (restedOn_raise hup1 _ _ _))
  unfold State.releaseReports
  dsimp only
  generalize onlyIf s.raiseDeferred.thm.sayRestart (fun t => t.raise .thmRestarted 0 (min 65535 t.keep.restarts)) s.raiseDeferred = v at h2 ⊢
  have h3 := h2.trans (restedOn_onlyIf v.thm.sayLockout (fun t => t.raiseFree .thmLockout 0) (restedOn_raiseFree (h2.up hup) _ _))
  generalize onlyIf v.thm.sayLockout (fun t => t.raiseFree .thmLockout 0) v = x at h3 ⊢
  exact h3.trans ⟨rfl, rfl, rfl, rfl, rfl⟩

theorem releaseStarts_leaves {s : State} (hup : s.matrixUp = true) (warm : Bool) (causes : Nat) (sris : Bool) :
    s.restedOn (s.releaseStarts warm causes sris) := by
  have hboot : s.restedOn (if warm then s else ((s.setB Reg.quayPcieStat 30 sris).synAcquire 0).synAcquire 6) := by
    split
    · exact restedOn_refl s
    · have h1 : s.restedOn (s.setB Reg.quayPcieStat 30 sris) := restedOn_wr s _ (by decide)
      have h2 := h1.trans (restedOn_synAcquire (h1.up hup) (i := 0) (by decide))
      exact h2.trans (restedOn_synAcquire (h2.up hup) (by decide))
  unfold State.releaseStarts
  dsimp only
  exact (hboot.trans (restedOn_raise (hboot.up hup) _ _ _)).trans (restedOn_loaderRelease _)

/-- What a release shows. -/
theorem release_shows {s : State} (straps : BitVec 4) (sris : Bool) (hld : s.pwr.ld = .running) :
    (s.release straps sris).matrixUp = true ∧ (s.release straps sris).pwr.causes = 0 ∧
    (s.release straps sris).rd Reg.pwrRstCause = BitVec.ofNat 32 s.pwr.causes ∧ (s.release straps sris).pins.straps = straps.toNat ∧
    (s.release straps sris).clock.stroke = 0 ∧ (s.release straps sris).evt.deferred = [] ∧
    (s.release straps sris).pwr.sleepPend = !s.pins.wake := by
  obtain ⟨hpwr, hpins, hstroke, hcause⟩ := releaseRecord_shows s straps
  have hup : (s.releaseRecord straps).matrixUp = true := by rw [State.matrixUp, hpwr, hld]; rfl
  have hrep := releaseReports_leaves hup
  have hall := hrep.trans (releaseStarts_leaves (hrep.up hup) (decide (s.pwr.causes = 1)) s.pwr.causes sris)
  rw [release_eq]
  generalize (s.releaseRecord straps).releaseReports.releaseStarts (decide (s.pwr.causes = 1)) s.pwr.causes sris = t at hall ⊢
  obtain ⟨h1, h2, h3, h4, h5⟩ := hall
  have hpwr' : t.pwr = { s.pwr with phase := .running, causes := 0, exitDue := false, fault := false } := h1.trans hpwr
  have hpins' : t.pins = { s.pins with straps := straps.toNat } := h2.trans hpins
  refine ⟨?_, ?_, h5.trans hcause, ?_, h3.trans hstroke, h4, ?_⟩
  · simp only [State.matrixUp, State.onPwr, hpwr', hld]; rfl
  · simp only [State.onPwr, hpwr']
  · simp only [State.onPwr, hpins']
  · simp only [State.onPwr, hpins']

end Sys2Proof.Machine
end
section
/-! PROOF. Samples of temperature and the offsets of the groups (R408 to R412, R415), and the resets and temperatures as a whole. -/

namespace Sys2Proof.Machine

/-! ### The flush of a power-down leaves the sequencer -/

/-- The sequencer, as the laws below name it. -/
def State.phasing (s : State) : PwrSt := s.pwr

@[simp] theorem forAll_phasing {α : Type} (l : List α) (g : α → State → State) (s : State) (h : ∀ a ∈ l, ∀ t, (g a t).phasing = t.phasing) : (forAll l g s).phasing = s.phasing := forAll_field State.phasing g l h s
@[simp] theorem foldl_phasing {α : Type} (l : List α) (g : State → α → State) (s : State) (h : ∀ a ∈ l, ∀ t, (g t a).phasing = t.phasing) : (l.foldl g s).phasing = s.phasing := forAll_field State.phasing (fun a t => g t a) l h s
@[simp] theorem ite_phasing (c : Prop) [Decidable c] (a b : State) : (if c then a else b).phasing = if c then a.phasing else b.phasing := by split <;> rfl
@[simp] theorem phasing_with_any (s : State) (a1 a2 a3 a4 a5 a6 a7 a8 a9 a10 a11 a12 a13 a14 a15 a16 a17 a18 a19 a20 a22 a23 a24 a25 a26 a27 a28 a29 a30) :
    ({ s with regs := a1, shadow := a2, pins := a4, clock := a3, cox := a5, loader := a6, syn := a7, prt := a8, xtb := a9, que := a10, slips := a11, jik := a12,
              hed := a13, egr := a14, aud := a15, lgt := a16, fld := a17, keep := a18, nvs := a19, thm := a20, quay := a22,
              evt := a23, out := a24, fstore := a25, work := a26, nvsMem := a27, cflash := a28, hostMem := a29, pending := a30 } : State).phasing = s.phasing := rfl
@[simp] theorem State.wr_phasing (s : State) (a : Nat) (v : Word) : (State.wr s a v).phasing = s.phasing := by
  simp [State.wr]
@[simp] theorem State.setF_phasing (s : State) (a : Nat) (hi : Nat) (lo : Nat) (v : Nat) : (State.setF s a hi lo v).phasing = s.phasing := by
  simp [State.setF]
@[simp] theorem State.setB_phasing (s : State) (a : Nat) (i : Nat) (v : Bool) : (State.setB s a i v).phasing = s.phasing := by
  simp [State.setB]
@[simp] theorem onlyIf_phasing (c : Bool) (g : State → State) (s : State) (h : (g s).phasing = s.phasing) : (onlyIf c g s).phasing = s.phasing := by
  cases c <;> simp [onlyIf, h]
@[simp] theorem State.setRing_phasing (s : State) (r : Nat) (x : RingSt) : (State.setRing s r x).phasing = s.phasing := by
  simp [State.setRing]
@[simp] theorem State.satQuiet_phasing (s : State) (a : Nat) (n : Nat) (k : Nat) : (State.satQuiet s a n k).phasing = s.phasing := by
  simp [State.satQuiet]
@[simp] theorem State.noteTail_phasing (s : State) (k : Nat) : (State.noteTail s k).phasing = s.phasing := by
  simp [State.noteTail]
@[simp] theorem State.deliverQuiet_phasing (s : State) (r : Nat) (x : Rec) : (State.deliverQuiet s r x).phasing = s.phasing := by
  simp [State.deliverQuiet]
@[simp] theorem State.dropSat_phasing (s : State) (old : State) (a : Nat) : (State.dropSat s old a).phasing = s.phasing := by
  unfold State.dropSat
  (repeat' split) <;> simp
@[simp] theorem State.deliver_phasing (s : State) (r : Nat) (x : Rec) : (State.deliver s r x).phasing = s.phasing := by
  simp [State.deliver]
@[simp] theorem State.raiseRaw_phasing (s : State) (src : Nat) (code : Nat) (inst : Nat) (line : Nat) (data : Nat) : (State.raiseRaw s src code inst line data).phasing = s.phasing := by
  unfold State.raiseRaw
  (repeat' split) <;> simp
@[simp] theorem State.raise_phasing (s : State) (e : Ev) (inst : Nat) (data : Nat) : (State.raise s e inst data).phasing = s.phasing := by
  simp [State.raise]
@[simp] theorem State.countErr_phasing (s : State) (a : Nat) (n : Nat) (k : Nat) : (State.countErr s a n k).phasing = s.phasing := by
  simp [State.countErr]
@[simp] theorem State.onNvs_phasing (s : State) (g : NvsSt → NvsSt) : (State.onNvs s g).phasing = s.phasing := by
  simp [State.onNvs]
@[simp] theorem State.nvRead_phasing (s : State) : (State.nvRead s).phasing = s.phasing := by
  simp [State.nvRead]
@[simp] theorem State.noteTorn_phasing (s : State) (v : SlotView) (a : Nat) : (State.noteTorn s v a).phasing = s.phasing := by
  simp [State.noteTorn]
@[simp] theorem State.readRecord_phasing (s : State) (a : Nat) (b : Nat) (pages : Nat) (dev : Option Nat) (who : Nat) : (State.readRecord s a b pages dev who).1.phasing = s.phasing := by
  unfold State.readRecord
  dsimp only
  (repeat' split) <;> simp
@[simp] theorem State.beginJob_phasing (s : State) (j : NvsJob) : (State.beginJob s j).phasing = s.phasing := by
  unfold State.beginJob
  dsimp only
  (repeat' split) <;> simp
@[simp] theorem State.startJob_phasing (s : State) (j : NvsJob) : (State.startJob s j).phasing = s.phasing := by
  unfold State.startJob
  (repeat' split) <;> simp
@[simp] theorem State.writeKeep_phasing (s : State) (k : KeepRam) : (State.writeKeep s k).phasing = s.phasing := by
  simp [State.writeKeep]
@[simp] theorem State.nvsEnd_phasing (s : State) (code : Nat) (extra : Nat) : (State.nvsEnd s code extra).phasing = s.phasing := by
  simp [State.nvsEnd]
@[simp] theorem State.jobEnd_phasing (s : State) (j : NvsJob) : (State.jobEnd s j).phasing = s.phasing := by
  unfold State.jobEnd
  (repeat' split) <;> simp
@[simp] theorem State.cutJob_phasing (s : State) (kind : NvsJobKind → NvsJobKind) : (State.cutJob s kind).phasing = s.phasing := by
  simp [State.cutJob]
@[simp] theorem State.abortHost_phasing (s : State) : (State.abortHost s).phasing = s.phasing := by
  simp [State.abortHost]
@[simp] theorem State.signalPowerDown_phasing (s : State) (src : Nat) : (State.signalPowerDown s src).phasing = s.phasing := by
  simp [State.signalPowerDown]

theorem signalPowerDown_pwr (s : State) (src : Nat) : (s.signalPowerDown src).pwr = s.pwr := State.signalPowerDown_phasing s src

/-- A thermal shutdown that is not one already under way takes the matrix die down. -/
theorem thermalShutdown_cases (s : State) : s.thermalShutdown = s ∨ s.thermalShutdown.matrixUp = false := by
  unfold State.thermalShutdown
  split
  · exact .inl rfl
  · refine .inr ?_
    dsimp only
    generalize (((s.abortHost.resetMatrix false).lightsOff).addCause 4) = u
    rw [State.matrixUp, signalPowerDown_pwr]
    exact Bool.and_false _

/-! ### Readings -/

theorem signed_range (n : Nat) : -32768 ≤ signed 16 n ∧ signed 16 n < 32768 := by
  unfold signed
  split <;> omega

/-- The bits that the readings of a sample write. -/
def readMark (a i : Nat) : Prop :=
  (0x40100 ≤ a ∧ a < 0x401D0) ∨ a = 0x40018 ∨ a = 0x4001C ∨ (a = 0x40000 ∧ 16 ≤ i ∧ i ≤ 23) ∨ a = 0x40014 ∨ (0x70000 ≤ a ∧ a < 0x80000)

/-- The thresholds' counts are as they were, and every bit outside the readings. -/
def State.readOn (s t : State) : Prop := spares readMark s t ∧ t.thm.warn = s.thm.warn ∧ t.thm.throt = s.thm.throt

theorem readOn_refl (s : State) : s.readOn s := ⟨spares.refl s, rfl, rfl⟩

theorem State.readOn.trans {s t u : State} (h : s.readOn t) (h2 : t.readOn u) : s.readOn u :=
  ⟨h.1.trans h2.1, h2.2.1.trans h.2.1, h2.2.2.trans h.2.2⟩

theorem sensorReg_range {c : Nat} (h : c < 52) : 0x40100 ≤ sensorReg c ∧ sensorReg c < 0x401D0 := by
  unfold sensorReg Reg.thmTs Reg.thmAn
  split <;> omega

theorem readOn_setB (s : State) {a i : Nat} (v : Bool) (h : readMark a i) : s.readOn (s.setB a i v) := ⟨spares_setB s v h, rfl, rfl⟩

theorem takeReading_readOn (s : State) {c : Nat} (hc : c < 52) (temp : Int) : s.readOn (s.takeReading c temp) :=
  ⟨(spares_of_regs rfl).trans (spares_setF (s.onThm _) _ (by decide) fun i _ _ => .inl (sensorReg_range hc)), rfl, rfl⟩

theorem readOn_raise (s : State) (e : Ev) (inst data : Nat) : s.readOn (s.raise e inst data) :=
  ⟨spares_events (fun a i h1 h2 => by unfold readMark; omega) (s.raise_only e inst data), by rw [State.raise_thm], by rw [State.raise_thm]⟩

theorem markBroken_readOn (s : State) {c : Nat} (hc : c < 52) : s.readOn (s.markBroken c) := by
  have h1 : s.readOn (s.setB (sensorReg c) 31 true) := readOn_setB s true (.inl (sensorReg_range hc))
  have h2 : ∀ t : State, t.readOn (if c < 32 then t.setB Reg.thmBrokenLo c true
      else if c < 48 then t.setB Reg.thmBrokenHi (c - 32) true else t.setB Reg.thmBrokenHi (c - 32) true) := fun t => by
    split
    · exact readOn_setB t true (.inr (.inl rfl))
    · split <;> exact readOn_setB t true (.inr (.inr (.inl rfl)))
  have h3 : ∀ t : State, t.readOn ((t.setF Reg.thmStat 23 16 (t.f Reg.thmStat 23 16 + 1)).setB Reg.thmHist 2 true) := fun t =>
    State.readOn.trans ⟨spares_setF t _ (by decide) fun i h1 h2 => .inr (.inr (.inr (.inl ⟨rfl, h1, h2⟩))), rfl, rfl⟩
      (readOn_setB _ true (.inr (.inr (.inr (.inr (.inl rfl))))))
  exact ((h1.trans (h2 _)).trans (h3 _)).trans (readOn_raise _ _ _ _)

theorem crossCheck_readOn (s v : State) {c : Nat} (hc : c < 52) : s.readOn (s.crossCheck v c) := by
  have hoff : ∀ k, s.readOn (s.onThm fun t => { t with off := nset (fun _ => 0) t.off c k }) := fun k => ⟨spares_of_regs rfl, rfl, rfl⟩
  unfold State.crossCheck
  split
  · exact readOn_refl s
  · dsimp only
    generalize (if v.disagrees c = true then nget (fun _ => 0) s.thm.off c + 1 else 0) = k
    have hk := hoff k
    generalize s.onThm (fun t => { t with off := nset (fun _ => 0) t.off c k }) = u at hk ⊢
    split
    · exact hk.trans (markBroken_readOn u hc)
    · exact hk

/-- Every sensor has been read, and checked against the others. -/
def State.thmRead (s : State) (temps : List Sensed) : State :=
  let s := forAll (temps.filter fun x => x.code.val < 52) (fun x t => t.takeReading x.code.val x.temp) s
  forAll matrixSensors (fun c t => t.crossCheck s c) s

theorem thmRead_readOn (s : State) (temps : List Sensed) : s.readOn (s.thmRead temps) := by
  have h1 := forAll_keeps (fun t => s.readOn t) (fun (x : Sensed) t => State.takeReading t x.code.val x.temp)
    (temps.filter fun x => x.code.val < 52) s
    (fun x hx t ht => ht.trans (takeReading_readOn t (of_decide_eq_true (List.mem_filter.1 hx).2) x.temp)) (readOn_refl s)
  exact h1.trans (forAll_keeps (fun t => State.readOn _ t) _ _ _
    (fun c hc t ht => ht.trans (crossCheck_readOn t _ (List.mem_range.1 hc))) (readOn_refl _))

/-- Whether every sensor, and every anchor, is broken is shown (R409). -/
def State.thmMarked (s : State) : State :=
  (s.setB Reg.thmStat 3 (matrixSensors.all s.broken)).setB Reg.thmStat 2 ([48, 49, 50, 51].all s.broken)

/-- The governing temperature is shown (R410). -/
def State.thmShown (s : State) : State :=
  s.wr Reg.thmTmax (setFld (BitVec.ofNat 32 (encode 16 s.governing.2)) 21 16 s.governing.1)

/-- The thresholds are judged by the governing temperature (R411, R412, R415). -/
def State.thmJudge (s : State) (code : Nat) (temp : Int) : State :=
  let lw := levels (s.rd Reg.thmWarn) 11
  let lt := levels (s.rd Reg.thmThrot) 11
  let ls := levels (s.rd Reg.thmShdn) 12
  let w := s.thm.warn.sample temp lw.1 lw.2
  let t := s.thm.throt.sample temp lt.1 lt.2
  let d := s.thm.shdn.sample temp ls.1 ls.2
  let wOn := w.on && !s.thm.warn.on
  let wOff := !w.on && s.thm.warn.on
  let tOn := t.on && !s.thm.throt.on
  let tOff := !t.on && s.thm.throt.on
  let sub := s.thm.thrSub + (if t.on then (if s.b Reg.thmStat 8 then 1 else 16) else 0)
  let s := (s.onThm fun x => { x with warn := w, throt := t, shdn := d, thrSub := sub % 16 }).countPerf Reg.thmThrMs 31 (sub / 16)
  let s := s.setB Reg.thmStat 8 (nearLevel w temp lw || nearLevel t temp lt || nearLevel d temp ls)
  let s := s.setB Reg.thmStat 0 w.on
  let s := onlyIf wOn (fun x => (x.setB Reg.thmHist 0 true).raise .thmWarning 0 code) s
  let s := onlyIf wOff (fun x => x.raiseFree .thmWarningClr 0) s
  let s := s.showThrottle t.on
  let s := onlyIf tOn (fun x => (x.setB Reg.thmHist 1 true).raise .thmThrottle 0 code) s
  onlyIf tOff (fun x => x.raiseFree .thmThrottleClr 0) s

/-- The shutdown's threshold is reached. -/
def State.thmOver (s : State) (temp : Int) : Bool :=
  (s.thm.shdn.sample temp (levels (s.rd Reg.thmShdn) 12).1 (levels (s.rd Reg.thmShdn) 12).2).on

/-- A sample of the monitor on the readings `s`. -/
def State.thmDecide (s : State) : State :=
  let u := s.thmShown.thmJudge s.governing.1 s.governing.2
  if s.thmShown.thmOver s.governing.2 then u.thermalShutdown else u

theorem thmSample_eq (temps : List Sensed) (s : State) : thmSample temps s = (s.thmRead temps).thmMarked.thmDecide := by
  unfold thmSample
  rfl

theorem thmMarked_broken (s : State) {c : Nat} (hc : c < 52) : s.thmMarked.broken c = s.broken c := by
  have hne : sensorReg c ≠ Reg.thmStat := fun e => by have := sensorReg_range hc; rw [e] at this; exact absurd this (by decide)
  exact State.b_of_rd ((State.rd_setB_ne _ _ _ hne).trans (State.rd_setB_ne _ _ _ hne)) 31

/-- The hottest of a list of readings of 16 bits is one. -/
theorem hottest_range (l : List (Nat × Int)) (hl : ∀ x ∈ l, -32768 ≤ x.2 ∧ x.2 < 32768) :
    -32768 ≤ ((hottest l).getD (0, 0)).2 ∧ ((hottest l).getD (0, 0)).2 < 32768 := by
  have hfold : ∀ (l : List (Nat × Int)) (b : Option (Nat × Int)), (∀ x ∈ l, -32768 ≤ x.2 ∧ x.2 < 32768) →
      (∀ x, b = some x → -32768 ≤ x.2 ∧ x.2 < 32768) → ∀ x, l.foldl (fun b x => match b with
        | none => some x
        | some y => if y.2 < x.2 then some x else some y) b = some x → -32768 ≤ x.2 ∧ x.2 < 32768 := by
    intro l
    induction l with
    | nil => exact fun b _ hb => hb
    | cons y ys ih =>
      intro b hl hb
      refine ih _ (fun x hx => hl x (List.mem_cons_of_mem _ hx)) fun x hx => ?_
      have hy := hl y List.mem_cons_self
      cases b with
      | none => exact Option.some.inj hx ▸ hy
      | some z =>
        have hz := hb z rfl
        dsimp only at hx
        split at hx
        · exact Option.some.inj hx ▸ hy
        · exact Option.some.inj hx ▸ hz
  cases hh : hottest l with
  | none => exact ⟨by decide, by decide⟩
  | some x => exact hfold l none hl (fun _ h => nomatch h) x hh

/-- A sensor that is not broken governs, unless every one is. -/
theorem governing_range {s : State} (h : matrixSensors.all s.broken = false) : -32768 ≤ s.governing.2 ∧ s.governing.2 < 32768 := by
  have hvalid : (matrixSensors.filter fun c => !s.broken c).isEmpty = false := by
    obtain ⟨c, hc, hb⟩ := List.all_eq_false.1 h
    exact List.isEmpty_eq_false_iff_exists_mem.2 ⟨c, List.mem_filter.2 ⟨hc, by simpa using hb⟩⟩
  unfold State.governing
  dsimp only
  rw [hvalid]
  refine hottest_range _ fun x hx => ?_
  obtain ⟨c, -, rfl⟩ := List.mem_map.1 hx
  exact signed_range _

/-- The register of the governing temperature holds it. -/
theorem thmShown_tmax {s : State} (h : -32768 ≤ s.governing.2 ∧ s.governing.2 < 32768) :
    tempOf (s.thmShown.rd Reg.thmTmax) = s.governing.2 := by
  have hlt : encode 16 s.governing.2 < 65536 := encode_lt 16 _
  rw [State.thmShown, State.rd_wr_self, tempOf, bf_setFld_ne _ _ _ _ _ _ (by decide) (.inl (by decide))]
  have hbf : bf (BitVec.ofNat 32 (encode 16 s.governing.2)) 15 0 = encode 16 s.governing.2 := by
    simp only [bf, BitVec.extractLsb'_toNat, BitVec.toNat_ofNat, Nat.shiftRight_zero]
    omega
  rw [hbf, signed_encode (by decide) (by norm_num; exact h.1) (by norm_num; exact h.2)]

/-! ### Judging (R411, R412, R415) -/

/-- `THM_HIST` and a noted event. -/
def histMark (a i : Nat) : Prop := a = 0x40014 ∨ noteMark a i

/-- A change of a threshold's state is noted: bit `i` of `THM_HIST` with an event, or an event. -/
theorem thmNote_spares (c : Bool) (i : Nat) (e : Ev) (code : Nat) (s : State) :
    spares histMark s (onlyIf c (fun x => (x.setB Reg.thmHist i true).raise e 0 code) s) ∧
      (onlyIf c (fun x => (x.setB Reg.thmHist i true).raise e 0 code) s).thm = s.thm := by
  refine ⟨spares_onlyIf _ _ ((spares_setB s true (.inl rfl)).trans
    (spares_events (fun _ _ h1 h2 => .inr (.inr ⟨h1, h2⟩)) (State.raise_only _ _ _ _))), ?_⟩
  exact onlyIf_field State.thm c (fun x => (x.setB Reg.thmHist i true).raise e 0 code) s (State.raise_thm (s.setB Reg.thmHist i true) e 0 code)

theorem thmClear_spares (c : Bool) (e : Ev) (s : State) : spares histMark s (onlyIf c (fun x => x.raiseFree e 0) s) ∧
    (onlyIf c (fun x => x.raiseFree e 0) s).thm = s.thm :=
  ⟨spares_onlyIf _ _ ((raiseFree_spares s e 0).mono fun _ _ => .inr),
    onlyIf_field State.thm c (fun x => x.raiseFree e 0) s (State.raiseFree_thm s e 0)⟩

/-- Throttle shows in three registers. -/
theorem showThrottle_shows (s : State) (on : Bool) : (s.showThrottle on).b Reg.thmStat 1 = on ∧ (s.showThrottle on).b Reg.lgtState 30 = on ∧
    spares (fun a i => (a = 0x40000 ∧ i = 1) ∨ a = 0x300800 ∨ (a = 0x90000 ∧ i = 30)) s (s.showThrottle on) ∧
    (s.showThrottle on).thm = s.thm := by
  refine ⟨?_, State.b_setB_self _ _ _ _ (by decide), ?_, rfl⟩
  · exact (State.b_of_rd ((State.rd_setB_ne _ _ _ (by decide)).trans (State.rd_setB_ne _ _ _ (by decide))) 1).trans
      (State.b_setB_self _ _ _ _ (by decide))
  · exact ((spares_setB s on (.inl ⟨rfl, rfl⟩)).trans (spares_setB _ on (.inr (.inl rfl)))).trans (spares_setB _ on (.inr (.inr ⟨rfl, rfl⟩)))

theorem thmJudge_shows (s : State) (code : Nat) (temp : Int) :
    let t := s.thmJudge code temp
    t.thm.warn = s.thm.warn.sample temp (levels (s.rd Reg.thmWarn) 11).1 (levels (s.rd Reg.thmWarn) 11).2 ∧
    t.thm.throt = s.thm.throt.sample temp (levels (s.rd Reg.thmThrot) 11).1 (levels (s.rd Reg.thmThrot) 11).2 ∧
    t.b Reg.thmStat 0 = t.thm.warn.on ∧ t.b Reg.thmStat 1 = t.thm.throt.on ∧ t.b Reg.lgtState 30 = t.thm.throt.on ∧
    t.b Reg.thmStat 3 = s.b Reg.thmStat 3 ∧ t.rd Reg.thmTmax = s.rd Reg.thmTmax := by
  unfold State.thmJudge
  dsimp only
  set w := s.thm.warn.sample temp (levels (s.rd Reg.thmWarn) 11).1 (levels (s.rd Reg.thmWarn) 11).2
  set t := s.thm.throt.sample temp (levels (s.rd Reg.thmThrot) 11).1 (levels (s.rd Reg.thmThrot) 11).2
  set d := s.thm.shdn.sample temp (levels (s.rd Reg.thmShdn) 12).1 (levels (s.rd Reg.thmShdn) 12).2
  generalize s.thm.thrSub + (if t.on = true then if s.b Reg.thmStat 8 = true then 1 else 16 else 0) = sub
  generalize (nearLevel w temp (levels (s.rd Reg.thmWarn) 11) || nearLevel t temp (levels (s.rd Reg.thmThrot) 11) ||
    nearLevel d temp (levels (s.rd Reg.thmShdn) 12)) = near
  obtain ⟨a, ha⟩ : ∃ a, a = (((s.onThm fun x => { x with warn := w, throt := t, shdn := d, thrSub := sub % 16 }).countPerf Reg.thmThrMs 31
    (sub / 16)).setB Reg.thmStat 8 near).setB Reg.thmStat 0 w.on := ⟨_, rfl⟩
  have hwarn : a.thm.warn = w := by rw [ha]; rfl
  have hthrot : a.thm.throt = t := by rw [ha]; rfl
  have hstat0 : a.b Reg.thmStat 0 = w.on := by rw [ha]; exact State.b_setB_self _ _ _ _ (by decide)
  have hrest : spares (fun b i => b = 0x40024 ∨ (b = 0x40000 ∧ (i = 8 ∨ i = 0))) s a := by
    rw [ha]
    exact ((spares_wr (s.onThm _) _ fun _ => .inl rfl).trans (spares_setB _ near (.inr ⟨rfl, .inl rfl⟩))).trans
      (spares_setB _ _ (.inr ⟨rfl, .inr rfl⟩))
  rw [← ha]
  clear_value w t
  obtain ⟨hb, hbt⟩ := thmNote_spares (w.on && !s.thm.warn.on) 0 .thmWarning code a
  generalize onlyIf (w.on && !s.thm.warn.on) (fun x => (x.setB Reg.thmHist 0 true).raise .thmWarning 0 code) a = b at hb hbt ⊢
  obtain ⟨hc, hct⟩ := thmClear_spares (!w.on && s.thm.warn.on) .thmWarningClr b
  generalize onlyIf (!w.on && s.thm.warn.on) (fun x => x.raiseFree .thmWarningClr 0) b = c at hc hct ⊢
  obtain ⟨hthr, hlgt, hshow, hshowt⟩ := showThrottle_shows c t.on
  generalize c.showThrottle t.on = e at hthr hlgt hshow hshowt ⊢
  obtain ⟨hf, hft⟩ := thmNote_spares (t.on && !s.thm.throt.on) 1 .thmThrottle code e
  generalize onlyIf (t.on && !s.thm.throt.on) (fun x => (x.setB Reg.thmHist 1 true).raise .thmThrottle 0 code) e = f at hf hft ⊢
  obtain ⟨hg, hgt⟩ := thmClear_spares (!t.on && s.thm.throt.on) .thmThrottleClr f
  generalize onlyIf (!t.on && s.thm.throt.on) (fun x => x.raiseFree .thmThrottleClr 0) f = g at hg hgt ⊢
  have hthm : g.thm = a.thm := hgt.trans (hft.trans (hshowt.trans (hct.trans hbt)))
  have hnote : ∀ a i, a = 0x40000 ∨ a = 0x40004 ∨ a = 0x90000 → ¬ histMark a i := fun a i h => by unfold histMark noteMark; omega
  have hlast := hf.trans hg
  refine ⟨by rw [hthm, hwarn], by rw [hthm, hthrot], ?_, ?_, ?_, ?_, ?_⟩
  · rw [hthm, hwarn, hlast _ 0 (hnote _ _ (.inl rfl)), hshow _ 0 (by decide), hc _ 0 (hnote _ _ (.inl rfl)), hb _ 0 (hnote _ _ (.inl rfl)), hstat0]
  · rw [hthm, hthrot, hlast _ 1 (hnote _ _ (.inl rfl)), hthr]
  · rw [hthm, hthrot, hlast _ 30 (hnote _ _ (.inr (.inr rfl))), hlgt]
  · rw [hlast _ 3 (hnote _ _ (.inl rfl)), hshow _ 3 (by decide), hc _ 3 (hnote _ _ (.inl rfl)), hb _ 3 (hnote _ _ (.inl rfl)),
      hrest _ 3 (by decide)]
  · rw [hlast.rd fun i => hnote _ i (.inr (.inl rfl)), hshow.rd fun i => by omega, hc.rd fun i => hnote _ i (.inr (.inl rfl)),
      hb.rd fun i => hnote _ i (.inr (.inl rfl)), hrest.rd fun i => by omega]

/-! ### The sample with what hangs on it (R83, R91, R238) -/

/-- The bits that the synthesizers and the engines write after a sample. -/
def tailMark (a _i : Nat) : Prop := (0x3010C ≤ a ∧ a < 0x40000) ∨ 0x300000 ≤ a ∨ (0x70000 ≤ a ∧ a < 0x80000)

theorem countBusy_tail (s : State) (e : Nat) : spares tailMark s (s.countBusy e) ∧ (s.countBusy e).thm = s.thm := by
  have hk := (countBusy_keeps s e).1
  refine ⟨spares_of_rd fun a ⟨i, hi⟩ => hk.rd fun hm => hi (.inr (.inl ?_)), ?_⟩
  · rcases hm with rfl | rfl | rfl
    · unfold Reg.engBusyLo; omega
    · unfold Reg.engBusyHi; omega
    · unfold Reg.engStat; omega
  · rw [State.countBusy_eq]
    split
    · exact onlyIf_field State.thm _ _ _ rfl
    · rfl

theorem bankBusy_tail (s : State) : spares tailMark s s.bankBusy ∧ s.bankBusy.thm = s.thm :=
  ⟨spares_forAll _ _ (fun e _ t => (countBusy_tail t e).1) s, forAll_field State.thm _ _ (fun e _ t => (countBusy_tail t e).2) s⟩

theorem synStaleCheck_tail (s : State) {i : Nat} (hi : i < 136) : spares tailMark s (s.synStaleCheck i) ∧ (s.synStaleCheck i).thm = s.thm := by
  have hset : ∀ v, spares tailMark s (s.setB (Reg.synStat i) 20 v) := fun v =>
    spares_setB s v (.inl (by unfold Reg.synStat; omega))
  unfold State.synStaleCheck
  split
  · dsimp only
    split
    · refine ⟨(hset _).trans ((spares_of_regs (t := (s.setB (Reg.synStat i) 20 (!inRange s.synTemp (s.synOf i).range)).onSyn i
        fun x => { x with stale := true }) rfl).trans (spares_events (fun _ _ h1 h2 => .inr (.inr ⟨h1, h2⟩)) (State.raise_only _ _ _ _))), ?_⟩
      rw [State.raise_thm]
      rfl
    · exact ⟨hset _, rfl⟩
  · exact ⟨spares.refl s, rfl⟩

theorem synStaleAll_tail (s : State) : spares tailMark s s.synStaleAll ∧ s.synStaleAll.thm = s.thm :=
  ⟨spares_forAll _ _ (fun _ hi t => (synStaleCheck_tail t (List.mem_range.1 (List.mem_filter.1 hi).1)).1) s,
    forAll_field State.thm _ _ (fun _ hi t => (synStaleCheck_tail t (List.mem_range.1 (List.mem_filter.1 hi).1)).2) s⟩

/-- What follows a sample leaves what it shows. -/
theorem thmSampleAll_tail (temps : List Sensed) (s : State) :
    (thmSampleAll temps s = thmSample temps s ∧ (thmSample temps s).matrixUp = false) ∨
      (spares tailMark (thmSample temps s) (thmSampleAll temps s) ∧ (thmSampleAll temps s).thm = (thmSample temps s).thm ∧
        (thmSample temps s).matrixUp = true) := by
  unfold thmSampleAll
  dsimp only
  generalize thmSample temps s = t
  cases hup : t.matrixUp with
  | false => exact .inl ⟨rfl, rfl⟩
  | true =>
    refine .inr ?_
    have hbank : spares tailMark t (onlyIf (t.throttled != (t.synOf 1).half) State.bankBusy t) ∧
        (onlyIf (t.throttled != (t.synOf 1).half) State.bankBusy t).thm = t.thm :=
      ⟨spares_onlyIf _ _ (bankBusy_tail t).1, onlyIf_field State.thm _ _ _ (bankBusy_tail t).2⟩
    rw [if_neg (by decide)]
    generalize onlyIf (t.throttled != (t.synOf 1).half) State.bankBusy t = u at hbank ⊢
    obtain ⟨hstale, hstalet⟩ := synStaleAll_tail u
    generalize u.synStaleAll = v at hstale hstalet ⊢
    have hall : spares tailMark t (v.engDivider u.throttled) := (hbank.1.trans hstale).trans (spares_of_regs rfl)
    split
    · exact ⟨hall.trans (spares_of_regs rfl), hstalet.trans hbank.2, rfl⟩
    · exact ⟨hall, hstalet.trans hbank.2, rfl⟩

theorem thmDecide_up {s : State} (h : s.thmDecide.matrixUp = true) : s.thmDecide = s.thmShown.thmJudge s.governing.1 s.governing.2 := by
  revert h
  unfold State.thmDecide
  dsimp only
  split
  · rcases thermalShutdown_cases (s.thmShown.thmJudge s.governing.1 s.governing.2) with hsame | hdown
    · exact fun _ => hsame
    · exact fun h => by rw [hdown] at h; cases h
  · exact fun _ => rfl

/-- What a reading leaves for the judgement. -/
theorem thmRead_marked (s : State) (temps : List Sensed) : (s.thmRead temps).thmMarked.thmShown.rd Reg.thmWarn = s.rd Reg.thmWarn ∧
    (s.thmRead temps).thmMarked.thmShown.rd Reg.thmThrot = s.rd Reg.thmThrot ∧
    (s.thmRead temps).thmMarked.thmShown.b Reg.thmStat 3 = matrixSensors.all (s.thmRead temps).thmMarked.broken := by
  have hread := (thmRead_readOn s temps).1
  generalize s.thmRead temps = u at hread ⊢
  have hkeep : ∀ a, a ≠ Reg.thmStat → a ≠ Reg.thmTmax → u.thmMarked.thmShown.rd a = u.rd a := fun a h1 h2 =>
    (State.rd_wr_ne _ _ h2).trans ((State.rd_setB_ne _ _ _ h1).trans (State.rd_setB_ne _ _ _ h1))
  have hbroken : matrixSensors.all u.thmMarked.broken = matrixSensors.all u.broken := by
    rw [Bool.eq_iff_iff, List.all_eq_true, List.all_eq_true]
    exact forall₂_congr fun c hc => by rw [thmMarked_broken u (List.mem_range.1 hc)]
  refine ⟨?_, ?_, ?_⟩
  · exact (hkeep _ (by decide) (by decide)).trans (hread.rd fun i => by unfold readMark Reg.thmWarn; omega)
  · exact (hkeep _ (by decide) (by decide)).trans (hread.rd fun i => by unfold readMark Reg.thmThrot; omega)
  · rw [hbroken]
    exact (State.b_of_rd (State.rd_wr_ne _ _ (by decide)) 3).trans
      ((State.b_setB_ne _ _ _ (by decide)).trans (State.b_setB_self _ _ _ _ (by decide)))

/-- A sample while the matrix die stays up. -/
theorem thmSample_shows (temps : List Sensed) (s : State) (hup : (thmSampleAll temps s).matrixUp = true) :
    let t := thmSampleAll temps s
    (t.b Reg.thmStat 3 = false →
      t.thm.warn = s.thm.warn.sample (tempOf (t.rd Reg.thmTmax)) (levels (s.rd Reg.thmWarn) 11).1 (levels (s.rd Reg.thmWarn) 11).2 ∧
      t.thm.throt = s.thm.throt.sample (tempOf (t.rd Reg.thmTmax)) (levels (s.rd Reg.thmThrot) 11).1 (levels (s.rd Reg.thmThrot) 11).2) ∧
    t.b Reg.thmStat 0 = t.thm.warn.on ∧ t.b Reg.thmStat 1 = t.thm.throt.on ∧ t.b Reg.lgtState 30 = t.thm.throt.on := by
  intro t
  rcases thmSampleAll_tail temps s with ⟨heq, hdown⟩ | ⟨htail, hthm, hrun⟩
  · rw [heq, hdown] at hup; cases hup
  · obtain ⟨hwarnReg, hthrotReg, hstat⟩ := thmRead_marked s temps
    obtain ⟨-, hreadWarn, hreadThrot⟩ := thmRead_readOn s temps
    rw [thmSample_eq] at htail hthm hrun
    rw [thmDecide_up hrun] at htail hthm
    have hgov := governing_range (s := (s.thmRead temps).thmMarked)
    have htmax := thmShown_tmax (s := (s.thmRead temps).thmMarked)
    have hkeepWarn : (s.thmRead temps).thmMarked.thmShown.thm = (s.thmRead temps).thm := rfl
    generalize (s.thmRead temps).thmMarked = m at *
    obtain ⟨hw, ht, h0, h1, h30, h3, hT⟩ := thmJudge_shows m.thmShown m.governing.1 m.governing.2
    rw [hkeepWarn, hreadWarn, hwarnReg] at hw
    rw [hkeepWarn, hreadThrot, hthrotReg] at ht
    have hnot : ∀ a i, a < 0x3010C ∨ 0x40000 ≤ a ∧ a < 0x70000 ∨ 0x80000 ≤ a ∧ a < 0x300000 → ¬ tailMark a i := fun a i h => by
      unfold tailMark; omega
    refine ⟨fun hvalid => ?_, ?_, ?_, ?_⟩
    · have hall : matrixSensors.all m.broken = false := by
        rw [← hstat, ← h3, ← htail _ 3 (hnot _ _ (.inr (.inl (by decide))))]
        exact hvalid
      have htemp : tempOf (t.rd Reg.thmTmax) = m.governing.2 := by
        rw [show t.rd Reg.thmTmax = _ from htail.rd fun i => hnot _ i (.inr (.inl (by decide))), hT]
        exact htmax (hgov hall)
      rw [htemp]
      exact ⟨(congrArg ThmSt.warn hthm).trans hw, (congrArg ThmSt.throt hthm).trans ht⟩
    · exact (htail _ 0 (hnot _ _ (.inr (.inl (by decide))))).trans (h0.trans (congrArg (fun x : ThmSt => x.warn.on) hthm).symm)
    · exact (htail _ 1 (hnot _ _ (.inr (.inl (by decide))))).trans (h1.trans (congrArg (fun x : ThmSt => x.throt.on) hthm).symm)
    · exact (htail _ 30 (hnot _ _ (.inr (.inr (by decide))))).trans (h30.trans (congrArg (fun x : ThmSt => x.throt.on) hthm).symm)

/-! ### The offsets of the groups (R408) -/

/-- The offset of group `k`, as one second changes it. -/
def State.offsetStep (v : State) (k : Nat) (t : State) : State :=
  let ps := (partners k).filter fun c => !v.broken c
  if v.broken (48 + k) || ps.isEmpty then t
  else
    let mean := ps.foldl (fun a c => a + nget (fun _ => 0) v.thm.raw c) 0 / (ps.length : Int)
    let target := 10 * v.reading (48 + k) - mean
    let o := v.groupOffset k
    t.setF (Reg.thmOfs k) 15 0 (encode 16 (o + clampI (-25) 25 (target - o)))

theorem thmOffsetUpdate_eq (s : State) : thmOffsetUpdate s = forAll (upto 4) s.offsetStep s := rfl

theorem offsetStep_rd (v t : State) {k a : Nat} (h : a ≠ Reg.thmOfs k) : (v.offsetStep k t).rd a = t.rd a := by
  unfold State.offsetStep
  dsimp only
  split
  · rfl
  · exact State.rd_setF_ne _ _ _ _ h

theorem offsetStep_shows (v t : State) (k : Nat) (hsame : t.groupOffset k = v.groupOffset k) :
    (v.broken (48 + k) = true → (v.offsetStep k t).groupOffset k = v.groupOffset k) ∧
    (-32000 ≤ v.groupOffset k → v.groupOffset k ≤ 32000 → ((v.offsetStep k t).groupOffset k - v.groupOffset k).natAbs ≤ 25) := by
  unfold State.offsetStep
  dsimp only
  refine ⟨fun hb => by rw [hb, Bool.true_or, if_pos rfl, hsame], fun hlo hhi => ?_⟩
  split
  · rw [hsame, sub_self]; decide
  · generalize 10 * v.reading (48 + k) - _ - v.groupOffset k = d
    have hclamp : -25 ≤ clampI (-25) 25 d ∧ clampI (-25) 25 d ≤ 25 := by unfold clampI; omega
    have hnew : ∀ x : Int, -32768 ≤ x → x < 32768 → (t.setF (Reg.thmOfs k) 15 0 (encode 16 x)).groupOffset k = x := fun x h0 h1 => by
      rw [State.groupOffset, State.f_setF_self _ _ _ _ _ (by decide) (by decide), Nat.mod_eq_of_lt (encode_lt 16 x)]
      exact signed_encode (by decide) (by norm_num; exact h0) (by norm_num; exact h1)
    rw [hnew _ (by omega) (by omega)]
    omega

theorem thmOffsetUpdate_shows (s : State) {k : Nat} (hk : k < 4) :
    (s.broken (48 + k) = true → (thmOffsetUpdate s).groupOffset k = s.groupOffset k) ∧
    (-32000 ≤ s.groupOffset k → s.groupOffset k ≤ 32000 → ((thmOffsetUpdate s).groupOffset k - s.groupOffset k).natAbs ≤ 25) := by
  obtain ⟨l1, l2, h1, h2, heq⟩ := forAll_split List.nodup_range (List.mem_range.2 hk) s.offsetStep s
  have hrun : ∀ (l : List Nat) (t : State), k ∉ l → (forAll l s.offsetStep t).groupOffset k = t.groupOffset k := fun l t hl =>
    forAll_field (State.groupOffset · k) _ l (fun m hm t => by
      have hne : Reg.thmOfs k ≠ Reg.thmOfs m := fun e => hl (by unfold Reg.thmOfs at e; rwa [show k = m by omega])
      rw [State.groupOffset, State.f_of_rd (offsetStep_rd s t hne), State.groupOffset]) t
  have hfin : (thmOffsetUpdate s).groupOffset k = (s.offsetStep k (forAll l1 s.offsetStep s)).groupOffset k := by
    rw [thmOffsetUpdate_eq]
    exact (congrArg (State.groupOffset · k) heq).trans (hrun l2 _ h2)
  rw [hfin]
  exact offsetStep_shows s _ k (hrun l1 s h1)

end Sys2Proof.Machine
end
section
/-! PROOF. Resets by the pins, the watchdog, a mismatch and the host, and temperatures as a whole (R408 to R442). -/

namespace Sys2Proof.Machine

theorem resetPinAssert_resets {s : State} (h : s.pwr.phase = .running ∨ s.pwr.phase = .inReset) : resetPinAssert s =
    ((s.onPins fun p => { p with resetN := false }).keepSupplyReset 3 false).onPwr fun p => { p with exitDue := false } := by
  have hphase : (s.onPins fun p => { p with resetN := false }).pwr.phase = s.pwr.phase := rfl
  unfold resetPinAssert
  dsimp only
  rw [hphase]
  rcases h with h | h <;> rw [h]

theorem resetPinAssert_only {s : State} (h1 : s.pwr.phase ≠ .running) (h2 : s.pwr.phase ≠ .inReset) :
    resetPinAssert s = s.onPins fun p => { p with resetN := false } := by
  have hphase : (s.onPins fun p => { p with resetN := false }).pwr.phase = s.pwr.phase := rfl
  unfold resetPinAssert
  dsimp only
  rw [hphase]
  split
  · exact absurd ‹_› h1
  · exact absurd ‹_› h2
  · rfl

/-- `RESET_N` low while the matrix die runs, or is in a reset already. -/
theorem resetPinAssert_shows {s : State} (hld : s.pwr.ld = .running) (h : s.pwr.phase = .running ∨ s.pwr.phase = .inReset) :
    completes .resetPinAssert s fun t => (t.matrixUp = false ∧ t.pwr.phase = .inReset ∧ t.pwr.causes.testBit 3 = true ∧
      t.xtb = XtbSt.init ∧ t.jik = JikSt.init ∧ t.que = [] ∧ t.clock.stroke = 0 ∧ t.shadow = [] ∧
      (∀ a ∈ lightDieRegs, t.rd a = s.rd a) ∧ t.pins.pwrEn = s.pins.pwrEn) ∧ (∀ a, a ∉ lightDieRegs → t.rd a = regReset a) ∧
      t.pwr.exitDue = false ∧ t.pins.resetN = false := by
  refine completes_of_exec ((onPin_up (fun p => { p with resetN := false }) resetPinAssert hld).trans
    (congrArg _ (resetPinAssert_resets h))) ?_
  obtain ⟨hup, hphase, hcause, hxtb, hjik, hque, hstroke, hshadow, hrd, hen, hexit, hrst, -⟩ :=
    keepSupplyReset_shows (s.onPins fun p => { p with resetN := false }) 3 false false
  exact ⟨⟨hup, hphase, hcause, hxtb, hjik, hque, hstroke, hshadow, hrd, hen⟩, fun a ha => keepSupplyReset_wiped _ 3 false ha, hexit, hrst⟩

theorem resetPinRelease_eq (s : State) : exec .resetPinRelease s = .next { s with
      pins := { s.pins with resetN := true }
      pwr := if s.pwr.ld = .running ∧ s.pwr.phase = .inReset then { s.pwr with exitDue := true } else s.pwr } := by
  have hx : exec .resetPinRelease s = onPin (fun p => { p with resetN := true }) resetPinRelease s := rfl
  rw [hx]
  by_cases hld : s.pwr.ld = .running
  · rw [onPin_up _ _ hld]
    refine congrArg _ ?_
    unfold resetPinRelease
    dsimp only [State.onPins]
    split
    next h => rw [if_pos ⟨hld, h⟩]; rfl
    next h => rw [if_neg fun hc => h hc.2]
  · rw [if_neg fun h => hld h.1, onPin, if_neg (by simpa using hld)]
    rfl

/-- The watchdog's expiry. -/
theorem wdtExpire_shows {s : State} (hup : s.matrixUp = true) (hen : s.b Reg.pwrWdtCfg 31 = true) :
    ((wdtExpire s).matrixUp = false ∧ (wdtExpire s).pwr.phase = .inReset ∧ (wdtExpire s).pwr.causes.testBit 2 = true ∧
      (wdtExpire s).xtb = XtbSt.init ∧ (wdtExpire s).jik = JikSt.init ∧ (wdtExpire s).que = [] ∧ (wdtExpire s).clock.stroke = 0 ∧
      (wdtExpire s).shadow = [] ∧ (∀ a ∈ lightDieRegs, (wdtExpire s).rd a = s.rd a) ∧ (wdtExpire s).pins.pwrEn = s.pins.pwrEn) ∧
    (∀ a, a ∉ lightDieRegs → (wdtExpire s).rd a = regReset a) ∧ (wdtExpire s).pwr.exitDue = true ∧
    (wdtExpire s).keep.pwrHist.testBit 1 = true := by
  rw [wdtExpire_runs hup hen]
  obtain ⟨hdown, hphase, hcause, hxtb, hjik, hque, hstroke, hshadow, hrd, hpins, hexit, -, hkeep⟩ :=
    keepSupplyReset_shows (s.holdHist 1) 2 false true
  refine ⟨⟨hdown, hphase, hcause, hxtb, hjik, hque, hstroke, hshadow, hrd, hpins⟩, fun a ha => keepSupplyReset_wiped _ 2 true ha, hexit, ?_⟩
  rw [hkeep]
  show (s.keep.pwrHist ||| 2 ^ 1).testBit 1 = true
  rw [Nat.testBit_or, Nat.testBit_two_pow_self, Bool.or_true]

theorem lockstepMismatch_shows {s : State} (hup : s.matrixUp = true) :
    ((lockstepMismatch s).matrixUp = false ∧ (lockstepMismatch s).pwr.phase = .inReset ∧ (lockstepMismatch s).pwr.causes.testBit 1 = true ∧
      (lockstepMismatch s).xtb = XtbSt.init ∧ (lockstepMismatch s).jik = JikSt.init ∧ (lockstepMismatch s).que = [] ∧
      (lockstepMismatch s).clock.stroke = 0 ∧ (lockstepMismatch s).shadow = [] ∧
      (∀ a ∈ lightDieRegs, (lockstepMismatch s).rd a = s.rd a) ∧ (lockstepMismatch s).pins.pwrEn = s.pins.pwrEn) ∧
    (∀ a, a ∉ lightDieRegs → (lockstepMismatch s).rd a = regReset a) ∧ (lockstepMismatch s).pwr.exitDue = true := by
  have h : lockstepMismatch s = (s.keepSupplyReset 1 false).onPwr fun p => { p with exitDue := true } := if_pos hup
  rw [h]
  obtain ⟨hdown, hphase, hcause, hxtb, hjik, hque, hstroke, hshadow, hrd, hpins, hexit, -, -⟩ := keepSupplyReset_shows s 1 false true
  exact ⟨⟨hdown, hphase, hcause, hxtb, hjik, hque, hstroke, hshadow, hrd, hpins⟩, fun a ha => keepSupplyReset_wiped _ 1 true ha, hexit⟩

/-- The two keys of a host warm reset (R439). -/
theorem pwrResetWrite_cases (s : State) :
    (s.pwr.warmKeyAt = none → pwrResetWrite 0x7A3E0000 s = s.onPwr fun p => { p with warmKeyAt := some s.now }) ∧
    (s.pwr.warmKeyAt = none → pwrResetWrite 0x3E7A0001 s = s) ∧
    (∀ k, s.pwr.warmKeyAt = some k → k + 1000000 < s.now → pwrResetWrite 0x3E7A0001 s = s.onPwr fun p => { p with warmKeyAt := none }) ∧
    (∀ k, s.pwr.warmKeyAt = some k → s.now ≤ k + 1000000 → pwrResetWrite 0x3E7A0001 s =
      (s.keepSupplyReset 0 true).onPwr fun p => { p with exitDue := true }) := by
  refine ⟨fun h => ?_, fun h => ?_, fun k h ht => ?_, fun k h ht => ?_⟩
  · unfold pwrResetWrite; rw [h]; rfl
  · unfold pwrResetWrite; rw [h]; rfl
  · unfold pwrResetWrite
    rw [h]
    dsimp only
    rw [if_neg fun hc => absurd hc.2 (by omega), if_neg fun hc => absurd hc.2 (by decide)]
  · unfold pwrResetWrite
    rw [h]
    dsimp only
    rw [if_pos ⟨rfl, by omega⟩]

theorem warmReset_shows (s : State) : let t := (s.keepSupplyReset 0 true).onPwr fun p => { p with exitDue := true }
    (t.matrixUp = false ∧ t.pwr.phase = .inReset ∧ t.pwr.causes.testBit 0 = true ∧ t.xtb = XtbSt.init ∧ t.jik = JikSt.init ∧ t.que = [] ∧
      t.clock.stroke = 0 ∧ t.shadow = [] ∧ (∀ a ∈ lightDieRegs, t.rd a = s.rd a) ∧ t.pins.pwrEn = s.pins.pwrEn) ∧ t.pwr.exitDue = true ∧
    (∀ a ∈ rwsRegs, t.rd a = s.rd a) ∧ t.rd (Reg.synStat 0) = s.rd (Reg.synStat 0) := by
  obtain ⟨hdown, hphase, hcause, hxtb, hjik, hque, hstroke, hshadow, hrd, hpins, hexit, -, -⟩ := keepSupplyReset_shows s 0 true true
  obtain ⟨hkept, hsyn⟩ := resetMatrix_warm_rd s
  exact ⟨⟨hdown, hphase, hcause, hxtb, hjik, hque, hstroke, hshadow, hrd, hpins⟩, hexit, fun a ha => hkept a (.inr ha), hsyn⟩

theorem wdtCfgWrite_shows (s : State) (w : Word) (hoff : s.b Reg.pwrWdtCfg 31 = false) :
    let t := wdtCfgWrite (w ||| 0x80000000) s
    t.b Reg.pwrWdtCfg 31 = true ∧ t.f Reg.pwrWdtCfg 15 0 = bf w 15 0 ∧ t.pwr.wdtWarned = false ∧ sameRegs s t [Reg.pwrWdtCfg] := by
  have ht : wdtCfgWrite (w ||| 0x80000000) s =
      (s.wr Reg.pwrWdtCfg (mergeMask 0x8000FFFF (s.rd Reg.pwrWdtCfg) (w ||| 0x80000000))).onPwr fun p => { p with wdtWarned := false } := by
    unfold wdtCfgWrite
    rw [if_neg (by rw [hoff]; decide)]
  intro t
  have hrd : t.rd Reg.pwrWdtCfg = mergeMask 0x8000FFFF (s.rd Reg.pwrWdtCfg) (w ||| 0x80000000) := by
    simp only [t, ht]
    exact State.rd_wr_self ..
  refine ⟨?_, ?_, by simp only [t, ht]; rfl, fun a ha => by simp only [t, ht]; exact State.rd_wr_ne _ _ (by simpa using ha)⟩
  · rw [State.b, hrd]
    simp [bit, mergeMask]
  · rw [State.f, hrd]
    refine bf_congr_bits fun i _ hi => ?_
    interval_cases i <;> simp [mergeMask]

theorem putThreshold_cases (s : State) (x : Threshold) (w : Word) :
    let v := w &&& (if x = .shdn then 0x1FFF else 0xFFF)
    let thr := fun y => if y = x then bf v 7 0 else s.f (thresholdReg y) 7 0
    (thresholdFits x v = true ∧ thr .warn < thr .throt ∧ thr .throt < thr .shdn → s.putThreshold x w = s.takeThreshold x v) ∧
    (¬ (thresholdFits x v = true ∧ thr .warn < thr .throt ∧ thr .throt < thr .shdn) → s.putThreshold x w = s.setB Reg.thmHist 6 true) := by
  refine ⟨fun h => if_pos ?_, fun h => if_neg fun hc => h ?_⟩
  · rw [Bool.and_eq_true, decide_eq_true_eq]; exact h
  · rw [Bool.and_eq_true, decide_eq_true_eq] at hc; exact hc

theorem addCause_testBit (s : State) (i : Nat) : (s.addCause i).pwr.causes.testBit i = true := by
  show (s.pwr.causes ||| 2 ^ i).testBit i = true
  rw [Nat.testBit_or, Nat.testBit_two_pow_self, Bool.or_true]

theorem resetRelease_idle {straps : BitVec 4} {sris : Bool} {s : State} (h : s.pwr.phase ≠ .hold) : resetRelease straps sris s = s := by
  unfold resetRelease
  split
  · exact absurd ‹_› h
  · rfl

theorem resetRelease_hold (straps : BitVec 4) (sris : Bool) {s : State} (h : s.pwr.phase = .hold) :
    resetRelease straps sris s = if s.pins.resetN then s.release straps sris else s.addCause 3 := by
  unfold resetRelease
  rw [h]

theorem resetExit_eq (straps : BitVec 4) (sris : Bool) (s : State) : resetExit straps sris s =
    if s.pwr.phase = .inReset ∧ s.pwr.exitDue = true ∧ s.pins.resetN = true then s.release straps sris else s := by
  unfold resetExit
  split
  next h => simp only [h, true_and, Bool.and_eq_true]
  next h => rw [if_neg fun hc => h hc.1]

theorem resetPinAssert_noReset {s : State} (h : s.pwr.ld ≠ .running ∨ (s.pwr.phase ≠ .running ∧ s.pwr.phase ≠ .inReset)) :
    exec .resetPinAssert s = .next { s with pins := { s.pins with resetN := false } } := by
  have hx : exec .resetPinAssert s = onPin (fun p => { p with resetN := false }) resetPinAssert s := rfl
  rw [hx]
  by_cases hld : s.pwr.ld = .running
  · obtain ⟨h1, h2⟩ := h.resolve_left (not_not_intro hld)
    rw [onPin_up _ _ hld, resetPinAssert_only h1 h2]
    rfl
  · rw [onPin, if_neg (by simpa using hld)]
    rfl

theorem regWrite_pwrReset_host (s : State) {m : Master} (hm : m.isHost = true) (w : Word) :
    s.regWrite m Reg.pwrReset w = pwrResetWrite w s := (regWrite_pwrReset s m w).trans (if_pos hm)

/-- The watchdog: kicks, the warning and the expiry. -/
theorem watchdog_shows (m : Master) (v : BitVec 16) (s : State) :
    let expires := fun (t : State) => (t.matrixUp = false ∧ t.pwr.phase = .inReset ∧ t.pwr.causes.testBit 2 = true ∧
      t.xtb = XtbSt.init ∧ t.jik = JikSt.init ∧ t.que = [] ∧ t.clock.stroke = 0 ∧ t.shadow = [] ∧
      (∀ a ∈ lightDieRegs, t.rd a = s.rd a) ∧ t.pins.pwrEn = s.pins.pwrEn) ∧ (∀ a, a ∉ lightDieRegs → t.rd a = regReset a) ∧
      t.pwr.exitDue = true ∧ t.keep.pwrHist.testBit 1 = true
    (s.takesWrite m Reg.pwrWdtKick 0xC0A5 →
      (s.b Reg.pwrWdtCfg 31 = false → exec (.wdtKick m) s = .next s) ∧
      (s.b Reg.pwrWdtCfg 31 = true → completes (.wdtKick m) s fun t => t = { s with pwr := { s.pwr with wdtWarned := false } })) ∧
    (s.takesWrite m Reg.pwrWdtKick (v.setWidth 32) → v ≠ 0xC0A5 →
      if s.b Reg.pwrWdtCfg 31 then completes (.wdtBadKick m v) s expires else exec (.wdtBadKick m v) s = .next s) ∧
    (s.pwr.ld = .running →
      (if s.b Reg.pwrWdtCfg 31 = true ∧ s.pwr.wdtWarned = false then completes .wdtWarn s fun t => t.pwr = { s.pwr with wdtWarned := true }
        else exec .wdtWarn s = .next s) ∧
      (if s.matrixUp = true ∧ s.b Reg.pwrWdtCfg 31 = true then completes .wdtExpiry s expires else exec .wdtExpiry s = .next s)) ∧
    (s.fabricUp → completes .lockstepMismatch s fun t => (t.matrixUp = false ∧ t.pwr.phase = .inReset ∧ t.pwr.causes.testBit 1 = true ∧
      t.xtb = XtbSt.init ∧ t.jik = JikSt.init ∧ t.que = [] ∧ t.clock.stroke = 0 ∧ t.shadow = [] ∧
      (∀ a ∈ lightDieRegs, t.rd a = s.rd a) ∧ t.pins.pwrEn = s.pins.pwrEn) ∧ (∀ a, a ∉ lightDieRegs → t.rd a = regReset a) ∧
      t.pwr.exitDue = true) := by
  intro expires
  refine ⟨fun h => ⟨fun hoff => ?_, fun hon => ?_⟩, fun h hv => ?_, fun hld => ⟨?_, ?_⟩, fun h => ?_⟩
  · exact exec_takes h rfl ((regWrite_pwrWdtKick s m _).trans (wdtKickWrite_off _ hoff))
  · refine completes_takes h rfl ((regWrite_pwrWdtKick s m _).trans ?_) rfl
    unfold wdtKickWrite
    rw [if_neg (by rw [hon]; decide), if_pos (by decide)]
    rfl
  · have hbad : bf (v.setWidth 32) 15 0 ≠ 0xC0A5 := fun e => hv (BitVec.eq_of_toNat_eq ((bf_setWidth_half v).symm.trans e))
    split
    next hon => exact completes_takes h rfl ((regWrite_pwrWdtKick s m _).trans (wdtKickWrite_bad hon hbad)) (wdtExpire_shows h.1.1 hon)
    next hoff => exact exec_takes h rfl ((regWrite_pwrWdtKick s m _).trans (wdtKickWrite_off _ (Bool.eq_false_iff.2 hoff)))
  · have hx := onLightDie_up wdtWarn hld
    split
    next hc =>
      refine completes_of_exec hx ?_
      unfold wdtWarn
      rw [if_pos (by rw [hc.1, hc.2]; rfl), State.raiseFree_pwr]
      rfl
    next hc =>
      refine hx.trans (congrArg _ (if_neg fun h => hc ?_))
      rw [Bool.and_eq_true, Bool.not_eq_true'] at h
      exact h
  · have hx := onLightDie_up wdtExpire hld
    split
    next hc => exact completes_of_exec hx (wdtExpire_shows hc.1 hc.2)
    next hc => exact hx.trans (congrArg _ (wdtExpire_idle hc))
  · exact completes_of_exec (onCore_fabric lockstepMismatch h) (lockstepMismatch_shows h.1)

/-- A write of a threshold's register. -/
theorem threshold_shows {m : Master} {x : Threshold} {w : Word} {s : State} (h : s.takesWrite m (thresholdReg x) w) :
    let v := w &&& (if x = .shdn then 0x1FFF else 0xFFF)
    let thr := fun y => if y = x then bf v 7 0 else s.f (thresholdReg y) 7 0
    (x = .shdn → s.running = true → exec (.thresholdWrite m x w) s = .next s) ∧
    (x ≠ .shdn ∨ s.running = false →
      if thresholdFits x v = true ∧ thr .warn < thr .throt ∧ thr .throt < thr .shdn then
        completes (.thresholdWrite m x w) s fun t => t.rd (thresholdReg x) = v ∧ sameRegs s t [thresholdReg x]
      else exec (.thresholdWrite m x w) s = .next (s.setB Reg.thmHist 6 true)) := by
  intro v thr
  refine ⟨fun hx hrun => ?_, fun hx => ?_⟩
  · exact exec_takes h rfl ((regWrite_threshold s m x w).trans (if_pos ⟨hx, hrun⟩))
  · have hput : s.regWrite m (thresholdReg x) w = s.putThreshold x w := (regWrite_threshold s m x w).trans (if_neg fun hc => by
      rcases hx with hx | hx
      · exact hx hc.1
      · rw [hc.2] at hx; cases hx)
    obtain ⟨hfits, hnot⟩ := putThreshold_cases s x w
    split
    next hc =>
      refine completes_takes h rfl (hput.trans (hfits hc)) ⟨?_, fun a ha => ?_⟩
      · exact (State.rd_congr (takeThreshold_writes s x v) _).trans (s.rd_wr_self _ _)
      · exact (State.rd_congr (takeThreshold_writes s x v) _).trans (s.rd_wr_ne _ (by simpa using ha))
    next hc => exact exec_takes h rfl (hput.trans (hnot hc))

/-- Settles O58: resets clause by clause from what a reset leaves, the release from its steps, a sample from its readings and its judgement. -/
theorem resetsAndTemperatures : Obligations.ResetsAndTemperatures := by
  refine ⟨fun straps sris s hld => ⟨fun hp => ?_, fun hp => ?_, ?_⟩, fun s => ⟨fun hld hp => resetPinAssert_shows hld (.inl hp),
    fun hld hp => resetPinAssert_shows hld (.inr hp), fun h => ?_, completes_of_exec (resetPinRelease_eq s) rfl⟩,
    fun m s hm => ⟨fun h hk => ?_, fun h => ⟨fun hk => ?_, fun k hk ht => ?_, fun k hk ht => ?_⟩⟩, fun m w s h => ⟨fun hon => ?_, fun hoff => ?_⟩,
    fun m v s => ?_, fun m x w s h => ?_, thrSample_cases, fun s hup => ⟨fun temps => ?_, ?_⟩⟩
  · exact (onLightDie_up (resetRelease straps sris) hld).trans (congrArg _ (resetRelease_idle hp))
  · have hx := onLightDie_up (resetRelease straps sris) hld
    rw [resetRelease_hold straps sris hp] at hx
    split
    next hr =>
      rw [if_pos hr] at hx
      exact completes_of_exec hx (release_shows straps sris hld)
    next hr =>
      rw [if_neg hr] at hx
      exact completes_of_exec hx ⟨hp, addCause_testBit s 3⟩
  · have hx := onLightDie_up (resetExit straps sris) hld
    rw [resetExit_eq] at hx
    split
    next hr =>
      rw [if_pos hr] at hx
      exact completes_of_exec hx (release_shows straps sris hld)
    next hr =>
      rw [if_neg hr] at hx
      exact hx
  · exact resetPinAssert_noReset h
  · exact completes_takes h rfl (regWrite_pwrReset_host s hm _) ((pwrResetWrite_cases s).1 hk)
  · exact exec_takes h rfl ((regWrite_pwrReset_host s hm _).trans ((pwrResetWrite_cases s).2.1 hk))
  · exact exec_takes h rfl ((regWrite_pwrReset_host s hm _).trans ((pwrResetWrite_cases s).2.2.1 k hk ht))
  · exact completes_takes h rfl ((regWrite_pwrReset_host s hm _).trans ((pwrResetWrite_cases s).2.2.2 k hk ht)) (warmReset_shows s)
  · exact exec_takes h rfl ((regWrite_pwrWdtCfg s m _).trans (if_pos hon))
  · exact completes_takes h rfl (regWrite_pwrWdtCfg s m _) (wdtCfgWrite_shows s w hoff)
  · exact watchdog_shows m v s
  · exact threshold_shows h
  · exact completes_of_exec (onMatrix_up (thmSampleAll temps) hup) fun h => thmSample_shows temps s h
  · exact completes_of_exec (onMatrix_up thmOffsetUpdate hup) fun k hk => thmOffsetUpdate_shows s hk

end Sys2Proof.Machine
end
section
/-! PROOF. What a failed load undoes leaves the loader's own notes and `CHT_REASON` (R37, R38). One lemma for each operation, in the order of
the model, as the laws about what is kept have it. -/

namespace Sys2Proof.Machine

/-- The loader's state, and the register in which a failure is shown. -/
def State.charting (s : State) : LoaderSt × Word := (s.loader, s.rd Reg.chtReason)

/-- The address is not that of `CHT_REASON`. -/
def chtFree (a : Nat) : Prop := a ≠ Reg.chtReason

@[simp] theorem chtFree_coxHist : chtFree Reg.coxHist := by unfold chtFree; decide
@[simp] theorem chtFree_coxHistEn : chtFree Reg.coxHistEn := by unfold chtFree; decide
@[simp] theorem chtFree_coxRefCfg (i : Nat) : chtFree (Reg.coxRefCfg i) := by unfold chtFree Reg.chtReason Reg.coxRefCfg; omega
@[simp] theorem chtFree_coxRefQl (i : Nat) : chtFree (Reg.coxRefQl i) := by unfold chtFree Reg.chtReason Reg.coxRefQl; omega
@[simp] theorem chtFree_coxRefStat (i : Nat) : chtFree (Reg.coxRefStat i) := by unfold chtFree Reg.chtReason Reg.coxRefStat; omega
@[simp] theorem chtFree_coxSel : chtFree Reg.coxSel := by unfold chtFree; decide
@[simp] theorem chtFree_coxState : chtFree Reg.coxState := by unfold chtFree; decide
@[simp] theorem chtFree_coxSyncOut (i : Nat) : chtFree (Reg.coxSyncOut i) := by unfold chtFree Reg.chtReason Reg.coxSyncOut; omega
@[simp] theorem chtFree_engStatus : chtFree Reg.engStatus := by unfold chtFree; decide
@[simp] theorem chtFree_evtBootDrop : chtFree Reg.evtBootDrop := by unfold chtFree; decide
@[simp] theorem chtFree_evtRingCfg (i : Nat) : chtFree (Reg.evtRingCfg i) := by unfold chtFree Reg.chtReason Reg.evtRingCfg; omega
@[simp] theorem chtFree_evtRingDrop (i : Nat) : chtFree (Reg.evtRingDrop i) := by unfold chtFree Reg.chtReason Reg.evtRingDrop; omega
@[simp] theorem chtFree_fldUnitLedger (i : Nat) : chtFree (Reg.fldUnitLedger i) := by unfold chtFree Reg.chtReason Reg.fldUnitLedger; omega
@[simp] theorem chtFree_fldUnitStat (i : Nat) : chtFree (Reg.fldUnitStat i) := by unfold chtFree Reg.chtReason Reg.fldUnitStat; omega
@[simp] theorem chtFree_fstSlipCapOfs (i : Nat) : chtFree (Reg.fstSlipCapOfs i) := by unfold chtFree Reg.chtReason Reg.fstSlipCapOfs; omega
@[simp] theorem chtFree_fstSlipCapStroke (i : Nat) : chtFree (Reg.fstSlipCapStroke i) := by unfold chtFree Reg.chtReason Reg.fstSlipCapStroke; omega
@[simp] theorem chtFree_fstSlipComp (i : Nat) : chtFree (Reg.fstSlipComp i) := by unfold chtFree Reg.chtReason Reg.fstSlipComp; omega
@[simp] theorem chtFree_fstSlipGeom (i : Nat) : chtFree (Reg.fstSlipGeom i) := by unfold chtFree Reg.chtReason Reg.fstSlipGeom; omega
@[simp] theorem chtFree_fstSlipPitch (i : Nat) : chtFree (Reg.fstSlipPitch i) := by unfold chtFree Reg.chtReason Reg.fstSlipPitch; omega
@[simp] theorem chtFree_fstSlipStat (i : Nat) : chtFree (Reg.fstSlipStat i) := by unfold chtFree Reg.chtReason Reg.fstSlipStat; omega
@[simp] theorem chtFree_headWatchZones (i : Nat) (j : Nat) : chtFree (Reg.headWatchZones i j) := by unfold chtFree Reg.chtReason Reg.headWatchZones; omega
@[simp] theorem chtFree_lgtState : chtFree Reg.lgtState := by unfold chtFree; decide
@[simp] theorem chtFree_prtCfg (i : Nat) : chtFree (Reg.prtCfg i) := by unfold chtFree Reg.chtReason Reg.prtCfg; omega
@[simp] theorem chtFree_prtHxData (i : Nat) (j : Nat) : chtFree (Reg.prtHxData i j) := by unfold chtFree Reg.chtReason Reg.prtHxData; omega
@[simp] theorem chtFree_prtHxStat (i : Nat) : chtFree (Reg.prtHxStat i) := by unfold chtFree Reg.chtReason Reg.prtHxStat; omega
@[simp] theorem chtFree_prtRwStat (i : Nat) : chtFree (Reg.prtRwStat i) := by unfold chtFree Reg.chtReason Reg.prtRwStat; omega
@[simp] theorem chtFree_prtXactFail (i : Nat) : chtFree (Reg.prtXactFail i) := by unfold chtFree Reg.chtReason Reg.prtXactFail; omega
@[simp] theorem chtFree_synBandHi (i : Nat) (j : Nat) : chtFree (Reg.synBandHi i j) := by unfold chtFree Reg.chtReason Reg.synBandHi; omega
@[simp] theorem chtFree_synBandLo (i : Nat) (j : Nat) : chtFree (Reg.synBandLo i j) := by unfold chtFree Reg.chtReason Reg.synBandLo; omega
@[simp] theorem chtFree_synCoastSum (i : Nat) : chtFree (Reg.synCoastSum i) := by unfold chtFree Reg.chtReason Reg.synCoastSum; omega
@[simp] theorem chtFree_synLockSum (i : Nat) : chtFree (Reg.synLockSum i) := by unfold chtFree Reg.chtReason Reg.synLockSum; omega
@[simp] theorem chtFree_synStat (i : Nat) : chtFree (Reg.synStat i) := by unfold chtFree Reg.chtReason Reg.synStat; omega
@[simp] theorem chtFree_thmShdn : chtFree Reg.thmShdn := by unfold chtFree; decide
@[simp] theorem chtFree_thmStat : chtFree Reg.thmStat := by unfold chtFree; decide
@[simp] theorem chtFree_thmThrot : chtFree Reg.thmThrot := by unfold chtFree; decide
@[simp] theorem chtFree_thmWarn : chtFree Reg.thmWarn := by unfold chtFree; decide

@[simp] theorem forAll_charting {α : Type} (l : List α) (g : α → State → State) (s : State) (h : ∀ a ∈ l, ∀ t, (g a t).charting = t.charting) : (forAll l g s).charting = s.charting := forAll_field State.charting g l h s
@[simp] theorem foldl_charting {α : Type} (l : List α) (g : State → α → State) (s : State) (h : ∀ a ∈ l, ∀ t, (g t a).charting = t.charting) : (l.foldl g s).charting = s.charting := forAll_field State.charting (fun a t => g t a) l h s
@[simp] theorem ite_charting (c : Prop) [Decidable c] (a b : State) : (if c then a else b).charting = if c then a.charting else b.charting := by split <;> rfl
@[simp] theorem charting_with_any (s : State) (a2 a3 a4 a5 a7 a8 a9 a10 a11 a12 a13 a14 a15 a16 a17 a18 a19 a20 a21 a22 a23 a24 a25 a26 a27 a28 a29 a30) :
    ({ s with shadow := a2, pins := a4, clock := a3, cox := a5, syn := a7, prt := a8, xtb := a9, que := a10, slips := a11, jik := a12,
              hed := a13, egr := a14, aud := a15, lgt := a16, fld := a17, keep := a18, nvs := a19, thm := a20, pwr := a21, quay := a22,
              evt := a23, out := a24, fstore := a25, work := a26, nvsMem := a27, cflash := a28, hostMem := a29, pending := a30 } : State).charting = s.charting := rfl
@[simp] theorem State.wr_charting (s : State) (a : Nat) (v : Word) (h : chtFree a) : (State.wr s a v).charting = s.charting :=
  congrArg (Prod.mk s.loader) (s.rd_wr_ne v (Ne.symm h))
@[simp] theorem State.setF_charting (s : State) (a hi lo v : Nat) (h : chtFree a) : (State.setF s a hi lo v).charting = s.charting :=
  congrArg (Prod.mk s.loader) (s.rd_setF_ne hi lo v (Ne.symm h))
@[simp] theorem State.setB_charting (s : State) (a i : Nat) (v : Bool) (h : chtFree a) : (State.setB s a i v).charting = s.charting :=
  congrArg (Prod.mk s.loader) (s.rd_setB_ne i v (Ne.symm h))
@[simp] theorem onlyIf_charting (c : Bool) (g : State → State) (s : State) (h : (g s).charting = s.charting) : (onlyIf c g s).charting = s.charting := by
  cases c <;> simp [onlyIf, h]
theorem filterRegs_charting (s : State) (p : Nat → Bool) (h : p Reg.chtReason = true) :
    ({ s with regs := s.regs.filter fun e => p e.1 } : State).charting = s.charting :=
  congrArg (Prod.mk s.loader) ((rd_filterRegs s p _).trans (if_pos h))
@[simp] theorem State.clearRegs_charting (s : State) (a b : Nat) (h : Reg.chtReason < a) : (s.clearRegs a b).charting = s.charting :=
  filterRegs_charting s (fun x => x < a || b ≤ x) (by simp [of_decide_eq_true, h])
@[simp] theorem State.fresh_charting (s : State) (w : Nat) : (State.fresh s w).2.charting = s.charting := by
  simp [State.fresh]
@[simp] theorem State.setRing_charting (s : State) (r : Nat) (x : RingSt) : (State.setRing s r x).charting = s.charting := by
  simp [State.setRing]
@[simp] theorem State.satQuiet_charting (s : State) (a : Nat) (n : Nat) (k : Nat) (h : chtFree a) : (State.satQuiet s a n k).charting = s.charting := by
  simp [State.satQuiet, h]
@[simp] theorem State.noteTail_charting (s : State) (k : Nat) : (State.noteTail s k).charting = s.charting := by
  simp [State.noteTail]
@[simp] theorem State.deliverQuiet_charting (s : State) (r : Nat) (x : Rec) : (State.deliverQuiet s r x).charting = s.charting := by
  simp [State.deliverQuiet]
@[simp] theorem State.dropSat_charting (s : State) (old : State) (a : Nat) : (State.dropSat s old a).charting = s.charting := by
  unfold State.dropSat
  (repeat' split) <;> simp
@[simp] theorem State.deliver_charting (s : State) (r : Nat) (x : Rec) : (State.deliver s r x).charting = s.charting := by
  simp [State.deliver]
@[simp] theorem State.raiseRaw_charting (s : State) (src : Nat) (code : Nat) (inst : Nat) (line : Nat) (data : Nat) : (State.raiseRaw s src code inst line data).charting = s.charting := by
  unfold State.raiseRaw
  (repeat' split) <;> simp
@[simp] theorem State.raise_charting (s : State) (e : Ev) (inst : Nat) (data : Nat) : (State.raise s e inst data).charting = s.charting := by
  simp [State.raise]
@[simp] theorem State.raiseFree_charting (s : State) (e : Ev) (inst : Nat) : (State.raiseFree s e inst).charting = s.charting := by
  simp [State.raiseFree]
@[simp] theorem State.countErr_charting (s : State) (a : Nat) (n : Nat) (k : Nat) (h : chtFree a) : (State.countErr s a n k).charting = s.charting := by
  simp [State.countErr, h]
@[simp] theorem State.send_charting (s : State) (o : Out) : (State.send s o).charting = s.charting := by
  simp [State.send]
@[simp] theorem State.onPins_charting (s : State) (g : Pins → Pins) : (State.onPins s g).charting = s.charting := by
  simp [State.onPins]
@[simp] theorem State.onPort_charting (s : State) (p : Nat) (g : PortSt → PortSt) : (State.onPort s p g).charting = s.charting := by
  simp [State.onPort]
@[simp] theorem State.sendLane_charting (s : State) (p : Nat) (syms : List Sym) (masks : List (BitVec 10)) : (State.sendLane s p syms masks).charting = s.charting := by
  simp [State.sendLane]
@[simp] theorem State.sendFrame_charting (s : State) (l : Nat) (o : Out) (syms : List Sym) (masks : List (BitVec 10)) : (State.sendFrame s l o syms masks).charting = s.charting := by
  simp [State.sendFrame]
@[simp] theorem State.laneIdle_charting (s : State) (p : Nat) : (State.laneIdle s p).charting = s.charting := by
  simp [State.laneIdle]
@[simp] theorem State.onCox_charting (s : State) (g : CoxSt → CoxSt) : (State.onCox s g).charting = s.charting := by
  simp [State.onCox]
@[simp] theorem State.onRef_charting (s : State) (n : Nat) (g : RefSt → RefSt) : (State.onRef s n g).charting = s.charting := by
  simp [State.onRef]
@[simp] theorem State.coxNote_charting (s : State) (i : Nat) (e : Ev) : (State.coxNote s i e).charting = s.charting := by
  simp [State.coxNote]
@[simp] theorem State.wtrStop_charting (s : State) : (State.wtrStop s).charting = s.charting := by
  unfold State.wtrStop
  (repeat' split) <;> simp
@[simp] theorem State.wtrStart_charting (s : State) (n : Nat) : (State.wtrStart s n).charting = s.charting := by
  simp [State.wtrStart]
@[simp] theorem State.coxJudge_charting (s : State) (sel : Bool) (fell : Bool) : (State.coxJudge s sel fell).charting = s.charting := by
  unfold State.coxJudge
  (repeat' split) <;> simp
@[simp] theorem State.disqualify_charting (s : State) (n : Nat) : (State.disqualify s n).charting = s.charting := by
  simp [State.disqualify]
@[simp] theorem State.setQl_charting (s : State) (n : Nat) (q : Nat) (src : Nat) : (State.setQl s n q src).charting = s.charting := by
  simp [State.setQl]
@[simp] theorem State.refreshQl_charting (s : State) (n : Nat) : (State.refreshQl s n).charting = s.charting := by
  unfold State.refreshQl
  (repeat' split) <;> simp
@[simp] theorem State.refreshClip_charting (s : State) (n : Nat) : (State.refreshClip s n).charting = s.charting := by
  simp [State.refreshClip]
@[simp] theorem State.refCfgWritten_charting (s : State) (n : Nat) : (State.refCfgWritten s n).charting = s.charting := by
  simp [State.refCfgWritten]
@[simp] theorem State.activityLoss_charting (s : State) (n : Nat) : (State.activityLoss s n).charting = s.charting := by
  simp [State.activityLoss]
@[simp] theorem State.syncPin_charting (s : State) (n : Nat) (active : Bool) : (State.syncPin s n active).charting = s.charting := by
  simp [State.syncPin]
@[simp] theorem syncOutWrite_charting (n : Nat) (w : Word) (s : State) : (syncOutWrite n w s).charting = s.charting := by
  simp [syncOutWrite]
@[simp] theorem State.showThrottle_charting (s : State) (on : Bool) : (State.showThrottle s on).charting = s.charting := by
  simp [State.showThrottle]
@[simp] theorem State.injected_charting (s : State) (p : Nat) (n : Nat) : (State.injected s p n).charting = s.charting := by
  simp [State.injected]
@[simp] theorem State.flipMasks_charting (n : Nat) : ∀ s : State, (s.flipMasks n).2.charting = s.charting := by
  induction n with
  | zero => exact fun _ => rfl
  | succ n ih => intro s; unfold State.flipMasks; simp [ih]
@[simp] theorem State.corrupted_charting (s : State) (p : Nat) (tx : Bool) (n : Nat) : (State.corrupted s p tx n).2.2.charting = s.charting := by
  unfold State.corrupted
  split
  · simp
  · rfl
@[simp] theorem State.transmit_charting (s : State) (p : Nat) (stream : Option Nat) (poison : Bool) (bs : List Byte) : (State.transmit s p stream poison bs).charting = s.charting := by
  simp [State.transmit]
@[simp] theorem State.sendMsg_charting (s : State) (p : Nat) (m : Msg) : (State.sendMsg s p m).charting = s.charting := by
  simp [State.sendMsg]
@[simp] theorem State.issueNow_charting (s : State) (p : Nat) (q : XactWait) : (State.issueNow s p q).charting = s.charting := by
  simp [State.issueNow]
@[simp] theorem State.issueWaits_charting (s : State) (p : Nat) : (s.issueWaits p).charting = s.charting := by
  unfold State.issueWaits
  exact foldl_proj State.charting _ _ _ fun t _ => by (repeat' split) <;> simp
@[simp] theorem State.request_charting (s : State) (p : Nat) (q : XactWait) : (State.request s p q).charting = s.charting := by
  simp [State.request]
@[simp] theorem State.writeBackFailed_charting (s : State) (u : Nat) : (State.writeBackFailed s u).charting = s.charting := by
  simp [State.writeBackFailed]
@[simp] theorem State.xactResult_charting (s : State) (p : Nat) (use : XactUse) (code : Nat) (data : List Byte) : (State.xactResult s p use code data).charting = s.charting := by
  unfold State.xactResult
  (repeat' split) <;> simp
@[simp] theorem State.xactFail_charting (s : State) (p : Nat) (code : Nat) (x : Xact) : (State.xactFail s p code x).charting = s.charting := by
  simp [State.xactFail]
@[simp] theorem State.linkDown_charting (s : State) (p : Nat) : (State.linkDown s p).charting = s.charting := by
  simp [State.linkDown]
@[simp] theorem State.refsSilent_charting (s : State) (p : Nat) : (State.refsSilent s p).charting = s.charting := by
  simp [State.refsSilent]
@[simp] theorem State.onSyn_charting (s : State) (i : Nat) (g : SynSt → SynSt) : (State.onSyn s i g).charting = s.charting := by
  simp [State.onSyn]
@[simp] theorem State.setSynState_charting (s : State) (i : Nat) (v : Nat) : (State.setSynState s i v).charting = s.charting := by
  simp [State.setSynState]
@[simp] theorem State.settleSyn_charting (s : State) (p : Nat) : (State.settleSyn s p).charting = s.charting := by
  simp [State.settleSyn]
@[simp] theorem State.bandPlaced_charting (s : State) (a : Nat) : (State.bandPlaced s a).charting = s.charting := by
  simp [State.bandPlaced]
@[simp] theorem State.onSlip_charting (s : State) (k : Nat) (g : SlipSt → SlipSt) : (State.onSlip s k g).charting = s.charting := by
  simp [State.onSlip]
@[simp] theorem State.onSlot_charting (s : State) (k : Nat) (j : Nat) (g : SlotSt → SlotSt) : (State.onSlot s k j g).charting = s.charting := by
  simp [State.onSlot]
@[simp] theorem State.slipCoding_charting (s : State) (k : Nat) : (State.slipCoding s k).charting = s.charting := by
  simp [State.slipCoding]
@[simp] theorem State.showSlip_charting (s : State) (k : Nat) : (State.showSlip s k).charting = s.charting := by
  unfold State.showSlip
  (repeat' split) <;> simp
@[simp] theorem State.pin_charting (s : State) (k : Nat) (j : Nat) (r : Nat) : (State.pin s k j r).charting = s.charting := by
  simp [State.pin]
@[simp] theorem State.unpin_charting (s : State) (k : Nat) (r : Nat) : (State.unpin s k r).charting = s.charting := by
  simp [State.unpin]
@[simp] theorem State.onHead_charting (s : State) (h : Nat) (g : HeadSt → HeadSt) : (State.onHead s h g).charting = s.charting := by
  simp [State.onHead]
@[simp] theorem State.onLay_charting (s : State) (h : Nat) (k : Nat) (g : LaySt → LaySt) : (State.onLay s h k g).charting = s.charting := by
  simp [State.onLay]
@[simp] theorem State.layUnpin_charting (s : State) (h : Nat) (k : Nat) (keep : List LayShow) : (State.layUnpin s h k keep).charting = s.charting := by
  unfold State.layUnpin
  have hshow : ∀ (x : LayShow) (t : State), (match x with
      | .frame p _ => (((t.pin p.slip p.newer (layReader h k)).pin p.slip p.older (layReader h k))).showSlip p.slip
      | _ => t).charting = t.charting := fun x t => by cases x <;> simp
  exact (forAll_charting _ _ _ fun x _ t => hshow x t).trans (by simp)
@[simp] theorem State.layDrop_charting (s : State) (h : Nat) (k : Nat) : (State.layDrop s h k).charting = s.charting := by
  simp [State.layDrop]
@[simp] theorem State.haltHead_charting (s : State) (h : Nat) : (State.haltHead s h).charting = s.charting := by
  simp [State.haltHead]
@[simp] theorem State.clearZones_charting (s : State) : (State.clearZones s).charting = s.charting :=
  filterRegs_charting s (fun x => x < 0x200000 || 0x300000 ≤ x || x % 0x4000 < Reg.headWatchZones 0 0 % 0x4000 ||
    Reg.headWatchZones 0 16 % 0x4000 ≤ x % 0x4000) (by decide)
@[simp] theorem State.onFld_charting (s : State) (g : FldSt → FldSt) : (State.onFld s g).charting = s.charting := by
  simp [State.onFld]
@[simp] theorem State.setUnit_charting (s : State) (u : Nat) (x : UnitSt) : (State.setUnit s u x).charting = s.charting := by
  simp [State.setUnit]
@[simp] theorem State.setLedger_charting (s : State) (k : Nat) (l : Ledger) : (State.setLedger s k l).charting = s.charting := by
  simp [State.setLedger]
@[simp] theorem State.writeBack_charting (s : State) (u : Nat) : (State.writeBack s u).charting = s.charting := by
  unfold State.writeBack
  (repeat' split) <;> simp
@[simp] theorem State.dropLedger_charting (s : State) (u : Nat) : (State.dropLedger s u).charting = s.charting := by
  unfold State.dropLedger
  (repeat' split) <;> simp
@[simp] theorem State.dropLedgers_charting (s : State) : (State.dropLedgers s).charting = s.charting := by
  simp [State.dropLedgers]
@[simp] theorem State.portOff_charting (s : State) (p : Nat) : (State.portOff s p).charting = s.charting := by
  have hreg : Reg.chtReason < Reg.prtCfg p := by unfold Reg.prtCfg Reg.chtReason; omega
  have hclear := State.clearRegs_charting (((s.laneIdle p).linkDown p).refsSilent p) (Reg.prtCfg p) (Reg.prtCfg p + 0x400) hreg
  exact (State.onPort_charting ..).trans (hclear.trans (by simp))
@[simp] theorem State.synOff_charting (s : State) (i : Nat) : (State.synOff s i).charting = s.charting := by
  have hreg : Reg.chtReason < Reg.synStat i := by unfold Reg.synStat Reg.chtReason; omega
  simp [State.synOff, State.clearRegs_charting _ _ _ hreg]
@[simp] theorem State.bandsPlaced_charting (s : State) : (State.bandsPlaced s).charting = s.charting := by
  simp [State.bandsPlaced]
theorem State.loader_of_charting {s t : State} (h : t.charting = s.charting) : t.loader = s.loader := congrArg Prod.fst h
theorem syncOutWrite_loader (n : Nat) (w : Word) (s : State) : (syncOutWrite n w s).loader = s.loader :=
  congrArg Prod.fst (syncOutWrite_charting n w s)
@[simp] theorem State.undoWord_charting (s : State) (a : Nat) (h : chtFree a) : (State.undoWord s a).charting = s.charting := by
  simp [State.undoWord, h]
theorem State.undoWord_loader (s : State) (a : Nat) : (State.undoWord s a).loader = s.loader := by
  unfold State.undoWord
  split
  · exact syncOutWrite_loader ..
  · split
    · exact syncOutWrite_loader ..
    · rfl
@[simp] theorem State.refsUndone_charting (s : State) (drop : List (Nat × Nat × Word)) : (State.refsUndone s drop).charting = s.charting := by
  simp [State.refsUndone]
theorem State.storeWord_loader (s : State) (a : Nat) (w : Word) : (State.storeWord s a w).loader = s.loader := by
  unfold State.storeWord
  split
  · rfl
  next r is hr =>
    dsimp only
    split
    · rfl
    split
    · exact (State.loader_of_charting (State.bandPlaced_charting ..)).trans rfl
    split
    · exact (State.loader_of_charting (State.settleSyn_charting ..)).trans rfl
    split
    · exact syncOutWrite_loader ..
    split
    · exact (State.loader_of_charting (State.slipCoding_charting ..)).trans rfl
    · rfl

end Sys2Proof.Machine

end
section
/-! PROOF. A load that fails (R37, R38). -/

namespace Sys2Proof.Machine

/-! ### What a load had placed is undone -/

/-- Undoing takes apart what runs, then the words, then the memory that segments filled, and last the loader's notes of them. -/
theorem State.unplace_form (s : State) (keep : Bool) : ∃ u : State, u.charting = s.charting ∧ u.kept = s.kept ∧
    let drop := s.loader.placed.filter fun e => !(keep && e.1 == 1)
    let stay := s.loader.placed.filter fun e => keep && e.1 == 1
    s.unplace keep = (((onlyIf (!keep) State.clearZones (State.refsUndone (forAll (stay.filter fun e => drop.any fun d => d.2.1 == e.2.1)
        (fun e t => t.storeWord e.2.1 e.2.2) (forAll drop (fun e t => t.undoWord e.2.1) u)) drop)).wipe fun typ => !(keep && typ == 1)).onLoader
      fun l => { l with placed := stay, crossWait := [], anchors := [], digests := [], content := none
                        flStages := if keep then l.flStages else [] }).bandsPlaced := by
  refine ⟨_, ?_, ?_, rfl⟩
  · have h8 : Reg.chtReason < 0x80000 := by decide
    have h3 : Reg.chtReason < 0x300000 := by decide
    have hf : chtFree Reg.glbFault := by unfold chtFree; decide
    simp [h8, h3, hf]
  · simp

/-- Before the memory is cleared: the loader's notes and the memories as they were, and `CHT_REASON` where all is undone and none of it is that
register. -/
theorem State.unplace_before (s : State) (keep : Bool) : ∃ v : State, v.loader = s.loader ∧ v.kept = s.kept ∧
    (keep = false → (∀ e ∈ s.loader.placed, chtFree e.2.1) → v.rd Reg.chtReason = s.rd Reg.chtReason) ∧
    ∃ g : LoaderSt → LoaderSt, s.unplace keep = ((v.wipe fun typ => !(keep && typ == 1)).onLoader g).bandsPlaced := by
  obtain ⟨u, hc, hk, he⟩ := s.unplace_form keep
  refine ⟨_, ?_, ?_, ?_, _, he⟩
  · calc _ = (State.refsUndone _ _).loader := State.loader_of_charting (onlyIf_charting _ _ _ (State.clearZones_charting _))
      _ = (forAll _ _ (forAll _ _ u)).loader := State.loader_of_charting (State.refsUndone_charting ..)
      _ = (forAll _ _ u).loader := forAll_field State.loader _ _ (fun _ _ t => State.storeWord_loader t _ _) _
      _ = u.loader := forAll_field State.loader _ _ (fun _ _ t => State.undoWord_loader t _) _
      _ = s.loader := State.loader_of_charting hc
  · simp [hk]
  · rintro rfl hfree
    have hundo : ∀ l : List (Nat × Nat × Word), (∀ e ∈ l, e ∈ s.loader.placed) →
        (forAll l (fun e t => t.undoWord e.2.1) u).charting = u.charting := fun l hl =>
      forAll_charting _ _ _ fun e he t => t.undoWord_charting _ (hfree e (hl e he))
    refine congrArg Prod.snd (?_ : State.charting _ = State.charting s)
    rw [onlyIf_charting _ _ _ (State.clearZones_charting _), State.refsUndone_charting]
    simp only [Bool.false_and, List.filter_false, List.filter_nil]
    exact (hundo _ fun e he => List.mem_of_mem_filter he).trans hc

/-! ### Memory that segments filled -/

/-- Clearing the ranges of one memory, as `wipe` does it. -/
theorem nget_cleared (gone : List (Nat × Bool × Nat × Nat)) (store : Bool) (m : NMap Byte) (x : Nat) :
    nget zeroByte (if gone.any fun e => e.2.1 == store then
        m.filter fun b => !gone.any fun e => e.2.1 == store && e.2.2.1 ≤ b.1 && b.1 < e.2.2.1 + e.2.2.2 else m) x =
      if ∃ e ∈ gone, e.2.1 = store ∧ e.2.2.1 ≤ x ∧ x < e.2.2.1 + e.2.2.2 then 0 else nget zeroByte m x := by
  have hin : (gone.any fun e => e.2.1 == store && e.2.2.1 ≤ x && x < e.2.2.1 + e.2.2.2) = true ↔
      ∃ e ∈ gone, e.2.1 = store ∧ e.2.2.1 ≤ x ∧ x < e.2.2.1 + e.2.2.2 := by
    simp only [List.any_eq_true, Bool.and_eq_true, beq_iff_eq, decide_eq_true_eq, and_assoc]
  by_cases hany : gone.any fun e => e.2.1 == store
  · rw [if_pos hany]
    simp only [nget, nfind_filter_key (fun k => !gone.any fun e => e.2.1 == store && e.2.2.1 ≤ k && k < e.2.2.1 + e.2.2.2)]
    by_cases hx : ∃ e ∈ gone, e.2.1 = store ∧ e.2.2.1 ≤ x ∧ x < e.2.2.1 + e.2.2.2
    · rw [if_pos hx, if_neg (by rw [hin.mpr hx]; decide)]
      rfl
    · rw [if_neg hx, if_pos (by rw [Bool.eq_false_iff.mpr fun h => hx (hin.mp h)]; rfl)]
  · rw [if_neg hany, if_neg]
    rintro ⟨e, he, hs, -⟩
    exact hany (List.any_eq_true.mpr ⟨e, he, by simp [hs]⟩)

/-- The address of one memory lies in what a segment filled and what is undone: with `keep` all but the first-light state. -/
def State.undoneAt (s : State) (keep store : Bool) (x : Nat) : Prop :=
  ∃ e ∈ s.loader.filled, ¬ (keep = true ∧ e.1 = 1) ∧ e.2.1 = store ∧ e.2.2.1 ≤ x ∧ x < e.2.2.1 + e.2.2.2

/-- From `s` to `t` what segments had placed in memory is cleared, and no other byte of a memory has changed. -/
def State.clearedTo (s : State) (keep : Bool) (t : State) : Prop := t.nvsMem = s.nvsMem ∧ t.cflash = s.cflash ∧ t.hostMem = s.hostMem ∧ ∀ x,
  (s.undoneAt keep false x → nget zeroByte t.work x = 0) ∧ (¬ s.undoneAt keep false x → nget zeroByte t.work x = nget zeroByte s.work x) ∧
  (s.undoneAt keep true x → nget zeroByte t.fstore x = 0) ∧ (¬ s.undoneAt keep true x → nget zeroByte t.fstore x = nget zeroByte s.fstore x)

theorem undoneAt_filter (s : State) (keep store : Bool) (x : Nat) :
    (∃ e ∈ s.loader.filled.filter fun e => !(keep && e.1 == 1), e.2.1 = store ∧ e.2.2.1 ≤ x ∧ x < e.2.2.1 + e.2.2.2) ↔ s.undoneAt keep store x := by
  have hsel : ∀ e : Nat × Bool × Nat × Nat, (!(keep && e.1 == 1)) = true ↔ ¬ (keep = true ∧ e.1 = 1) := fun e => by cases keep <;> simp
  simp only [State.undoneAt, List.mem_filter, hsel, and_assoc]

theorem nget_wipe_work {s v : State} (hl : v.loader = s.loader) (hw : v.work = s.work) (keep : Bool) (x : Nat) :
    (s.undoneAt keep false x → nget zeroByte (v.wipe fun typ => !(keep && typ == 1)).work x = 0) ∧
    (¬ s.undoneAt keep false x → nget zeroByte (v.wipe fun typ => !(keep && typ == 1)).work x = nget zeroByte s.work x) := by
  have h := nget_cleared (v.loader.filled.filter fun e => !(keep && e.1 == 1)) false v.work x
  rw [hl, hw] at h
  rw [State.wipe, hl, hw]
  exact ⟨fun hx => h.trans (if_pos ((undoneAt_filter ..).mpr hx)), fun hx => h.trans (if_neg fun hg => hx ((undoneAt_filter ..).mp hg))⟩

theorem nget_wipe_fstore {s v : State} (hl : v.loader = s.loader) (hw : v.fstore = s.fstore) (keep : Bool) (x : Nat) :
    (s.undoneAt keep true x → nget zeroByte (v.wipe fun typ => !(keep && typ == 1)).fstore x = 0) ∧
    (¬ s.undoneAt keep true x → nget zeroByte (v.wipe fun typ => !(keep && typ == 1)).fstore x = nget zeroByte s.fstore x) := by
  have h := nget_cleared (v.loader.filled.filter fun e => !(keep && e.1 == 1)) true v.fstore x
  rw [hl, hw] at h
  rw [State.wipe, hl, hw]
  exact ⟨fun hx => h.trans (if_pos ((undoneAt_filter ..).mpr hx)), fun hx => h.trans (if_neg fun hg => hx ((undoneAt_filter ..).mp hg))⟩

theorem State.clearedTo.sameMemory {s t u : State} {keep : Bool} (h : s.clearedTo keep t) (hm : Machine.sameMemory t u) : s.clearedTo keep u := by
  obtain ⟨h1, h2, h3, h4, h5⟩ := hm
  rw [State.clearedTo, h1, h2, h3, h4, h5]
  exact h

theorem bandsPlaced_sameMemory (s : State) : sameMemory s s.bandsPlaced := kept_sameMemory (State.bandsPlaced_kept s)

/-- What undoing does to memories, and to `CHT_REASON` where all is undone. -/
theorem unplace_clears (s : State) (keep : Bool) : s.clearedTo keep (s.unplace keep) ∧
    (keep = false → (∀ e ∈ s.loader.placed, chtFree e.2.1) → (s.unplace keep).rd Reg.chtReason = s.rd Reg.chtReason) := by
  obtain ⟨v, hl, hk, hr, g, he⟩ := s.unplace_before keep
  simp only [State.kept, Prod.mk.injEq] at hk
  obtain ⟨⟨hf, hw, hn, hc, hh, -⟩, -⟩ := hk
  rw [he]
  have hreg : ((v.wipe fun typ => !(keep && typ == 1)).onLoader g).bandsPlaced.rd Reg.chtReason = v.rd Reg.chtReason :=
    congrArg Prod.snd (State.bandsPlaced_charting ..)
  refine ⟨State.clearedTo.sameMemory (t := v.wipe fun typ => !(keep && typ == 1)) ⟨hn, hc, hh, fun x => ?_⟩ ?_, fun hkeep hfree =>
    hreg.trans (hr hkeep hfree)⟩
  · obtain ⟨hw1, hw2⟩ := nget_wipe_work hl hw keep x
    obtain ⟨hf1, hf2⟩ := nget_wipe_fstore hl hf keep x
    exact ⟨hw1, hw2, hf1, hf2⟩
  · exact bandsPlaced_sameMemory ((v.wipe fun typ => !(keep && typ == 1)).onLoader g)

/-! ### PRIMARY's failure starts GOLDEN -/

/-- `CHT_REASON` as PRIMARY's failure leaves it: `FALLBACK`, PRIMARY's reason, and neither `CODE` nor `SEG_TYPE`. -/
theorem fallbackReason_fields : ∀ code < 32, bit (BitVec.ofNat 32 (2 ^ 31 + code * 2 ^ 16)) 31 = true ∧
    bf (BitVec.ofNat 32 (2 ^ 31 + code * 2 ^ 16)) 20 16 = code ∧ bf (BitVec.ofNat 32 (2 ^ 31 + code * 2 ^ 16)) 15 0 = 0 := by
  decide

theorem loadFail_primary (s : State) (code typ : Nat) (hcode : code < 32) (h : s.loadSlot = 1) :
    (s.loadFail code typ).loadSlot = 2 ∧ (s.loadFail code typ).loader.phase = .header ∧ (s.loadFail code typ).b Reg.chtReason 31 = true ∧
      (s.loadFail code typ).f Reg.chtReason 20 16 = code ∧ (s.loadFail code typ).f Reg.chtReason 15 0 = 0 ∧
      s.clearedTo (s.loadState == 2) (s.loadFail code typ) := by
  rw [State.loadFail, if_pos h]
  dsimp only
  obtain ⟨hclear, -⟩ := unplace_clears s (decide (s.loadState = 2))
  generalize s.unplace (decide (s.loadState = 2)) = u at hclear
  obtain ⟨w, hw⟩ : ∃ w, w = ((u.wr Reg.chtReason (BitVec.ofNat 32 (2 ^ 31 + code * 2 ^ 16))).setF Reg.chtState 7 4 2).onLoader fun l =>
    { l with phase := .header, hdr := none, dir := [], reread := false, rx := [], flRead := none } := ⟨_, rfl⟩
  rw [← hw]
  have hreason : (w.raiseFree .chtFallback 0).rd Reg.chtReason = BitVec.ofNat 32 (2 ^ 31 + code * 2 ^ 16) := by
    rw [State.raiseFree_rd _ _ _ (notDrop (by decide)), hw]
    exact (State.rd_setF_ne _ _ _ _ (by decide)).trans (State.rd_wr_self ..)
  have hslot : (w.raiseFree .chtFallback 0).f Reg.chtState 7 4 = 2 := by
    rw [State.f_of_rd (State.raiseFree_rd _ _ _ (notDrop (by decide))), hw]
    exact State.f_setF_self _ _ _ _ _ (by decide) (by decide)
  have hmem : sameMemory u (w.raiseFree .chtFallback 0) := by
    have h1 : sameMemory w (w.raiseFree .chtFallback 0) := kept_sameMemory (State.raiseFree_kept ..)
    rw [hw] at h1 ⊢
    exact h1
  refine ⟨hslot, ?_, ?_, ?_, ?_, ?_⟩
  · rw [State.raiseFree_loader, hw]
    rfl
  · rw [State.b, hreason]
    exact (fallbackReason_fields code hcode).1
  · rw [State.f, hreason]
    exact (fallbackReason_fields code hcode).2.1
  · rw [State.f, hreason]
    exact (fallbackReason_fields code hcode).2.2
  · exact hclear.sameMemory hmem

/-! ### FAILED -/

theorem bf_ne_zero_of_bit {w : Word} {i : Nat} (hi : i < 3) (h : bit w i = true) : bf w 2 0 ≠ 0 := by
  intro h0
  have hz : w.extractLsb' 0 3 = 0#3 := BitVec.eq_of_toNat_eq h0
  have hbit := congrArg (fun v : BitVec 3 => v.getLsbD i) hz
  simp [hi] at hbit
  exact Bool.false_ne_true (hbit.symm.trans h)

theorem enterFailed_shows (s : State) (code typ : Nat) (hcode : code < 32) (htyp : typ < 11)
    (hfree : ∀ e ∈ s.loader.placed, chtFree e.2.1) :
    (s.enterFailed code typ).loadState = 4 ∧ (s.enterFailed code typ).loader.phase = .ended ∧
      (s.enterFailed code typ).f Reg.chtReason 7 0 = code ∧ (s.enterFailed code typ).f Reg.chtReason 15 8 = typ ∧
      (s.enterFailed code typ).faultAsserted = true ∧ s.clearedTo false (s.enterFailed code typ) := by
  rw [State.enterFailed]
  obtain ⟨r, hr⟩ : ∃ r, r = (s.setF Reg.chtReason 7 0 code).setF Reg.chtReason 15 8 typ := ⟨_, rfl⟩
  obtain ⟨v, hv⟩ : ∃ v, v = forAll (r.hed.heads.map (·.1)) (fun h t => t.haltHead h) r := ⟨_, rfl⟩
  rw [← hr, ← hv]
  have hchart : v.charting = r.charting := hv ▸ forAll_charting _ _ _ fun _ _ _ => State.haltHead_charting ..
  have hload : v.loader = s.loader := (State.loader_of_charting hchart).trans (hr ▸ rfl)
  have hkept : v.kept = s.kept := by
    rw [hv, forAll_kept _ _ _ fun _ _ _ => State.haltHead_kept .., hr, State.setF_kept, State.setF_kept]
  obtain ⟨hclear, hreg⟩ := unplace_clears v false
  have hreason := (hreg rfl fun e he => hfree e (hload ▸ he)).trans (congrArg Prod.snd hchart)
  generalize v.unplace false = u at hclear hreason
  obtain ⟨w, hw⟩ : ∃ w, w = (((u.setLoad 4).setB Reg.glbFault 0 true).onLoader fun l => { l with phase := .ended, flNext := none, hdr := none }).onCox
      fun c => { c with failDue := true } := ⟨_, rfl⟩
  rw [← hw]
  have hshown : (w.raiseFree .chtFailed 0).rd Reg.chtReason = r.rd Reg.chtReason := by
    rw [State.raiseFree_rd _ _ _ (notDrop (by decide)), hw]
    exact ((State.rd_setB_ne _ _ _ (by decide)).trans (State.rd_setF_ne _ _ _ _ (by decide))).trans hreason
  have hmem : sameMemory u (w.raiseFree .chtFailed 0) := by
    have h1 : sameMemory w (w.raiseFree .chtFailed 0) := kept_sameMemory (State.raiseFree_kept ..)
    rw [hw] at h1 ⊢
    exact h1
  refine ⟨?_, ?_, ?_, ?_, ?_, ?_⟩
  · rw [State.loadState, State.f_of_rd (State.raiseFree_rd _ _ _ (notDrop (by decide))), hw]
    exact (State.f_of_rd (State.rd_setB_ne _ _ _ (by decide)) 2 0).trans (State.f_setF_self _ _ _ _ _ (by decide) (by decide))
  · rw [State.raiseFree_loader, hw]
    rfl
  · rw [State.f_of_rd hshown, hr, State.f_setF_outside _ _ _ _ _ (by decide) (by decide),
      State.f_setF_self _ _ _ _ _ (by decide) (by decide)]
    omega
  · rw [State.f_of_rd hshown, hr, State.f_setF_self _ _ _ _ _ (by decide) (by decide)]
    omega
  · have hbit : (w.raiseFree .chtFailed 0).b Reg.glbFault 0 = true := by
      rw [State.b_of_rd (State.raiseFree_rd _ _ _ (notDrop (by decide))), hw]
      exact State.b_setB_self _ _ _ _ (by decide)
    have hne := bf_ne_zero_of_bit (by decide) hbit
    simp [State.faultAsserted, State.f, hne]
  · simp only [State.kept, Prod.mk.injEq] at hkept
    obtain ⟨⟨hf, hwk, hn, hc, hh, -⟩, -⟩ := hkept
    have hs : s.clearedTo false u := by
      simpa only [State.clearedTo, State.undoneAt, hload, hf, hwk, hn, hc, hh] using hclear
    exact hs.sameMemory hmem

/-- Settles O35: undoing leaves `CHT_REASON`, and clears what the segments filled. -/
theorem aFailedLoadFallsBackOrFails : Obligations.AFailedLoadFallsBackOrFails := by
  unfold Obligations.AFailedLoadFallsBackOrFails
  intro s code typ hcode htyp
  refine ⟨fun h => loadFail_primary s code typ hcode h, fun h hfree => ?_⟩
  rw [State.loadFail, if_neg h]
  exact enterFailed_shows s code typ hcode htyp hfree

end Sys2Proof.Machine

end
section
/-! PROOF. Lighting: what a PWM period and a neighbour test leave (R352 to R368). One lemma for each operation, in the order of the model. -/

namespace Sys2Proof.Machine

/-- The lighting half without its strings, lamps, duties and temperatures. -/
def LgtSt.still (g : LgtSt) : LgtSt := { g with strings := [], fades := [], lampNow := [], ons := [], duties := [], derated := [] }

@[simp] theorem LgtSt.still_with (g : LgtSt) (a1 : NMap StringSt) (a2 : NMap Fade) (a3 : NMap Nat) (a4 : NMap (Nat × Nat)) (a5 : NMap (Nat × Nat)) (a6 : List Nat) :
    LgtSt.still { g with strings := a1, fades := a2, lampNow := a3, ons := a4, duties := a5, derated := a6 } = g.still := by cases g; rfl

/-- What strings, lamps, duties and temperatures do not show of the lighting half, with the boost's settings and the count of tests. -/
def State.glow (s : State) : LgtSt × Word × Word :=
  (s.lgt.still, s.rd Reg.lgtBstCfg, s.rd Reg.lgtTests)

/-- The address is neither that of `LGT_BST_CFG` nor that of `LGT_TESTS`. -/
def glowFree (a : Nat) : Prop := a ≠ 0x90008 ∧ a ≠ 0x9003C

@[simp] theorem glowFree_evtBootDrop : glowFree Reg.evtBootDrop := by unfold glowFree; decide
@[simp] theorem glowFree_evtRingDrop (i : Nat) : glowFree (Reg.evtRingDrop i) := by unfold glowFree  Reg.evtRingDrop; omega
@[simp] theorem glowFree_glbFault : glowFree Reg.glbFault := by unfold glowFree; decide
@[simp] theorem glowFree_lgtChAmp (i : Nat) : glowFree (Reg.lgtChAmp i) := by unfold glowFree  Reg.lgtChAmp; omega
@[simp] theorem glowFree_lgtChCfg (i : Nat) : glowFree (Reg.lgtChCfg i) := by unfold glowFree  Reg.lgtChCfg; omega
@[simp] theorem glowFree_lgtChDuty (i : Nat) : glowFree (Reg.lgtChDuty i) := by unfold glowFree  Reg.lgtChDuty; omega
@[simp] theorem glowFree_lgtChFaultCnt (i : Nat) : glowFree (Reg.lgtChFaultCnt i) := by unfold glowFree  Reg.lgtChFaultCnt; omega
@[simp] theorem glowFree_lgtChStat (i : Nat) : glowFree (Reg.lgtChStat i) := by unfold glowFree  Reg.lgtChStat; omega
@[simp] theorem glowFree_lgtFaultHi : glowFree Reg.lgtFaultHi := by unfold glowFree; decide
@[simp] theorem glowFree_lgtFaultLo : glowFree Reg.lgtFaultLo := by unfold glowFree; decide
@[simp] theorem glowFree_lgtHist : glowFree Reg.lgtHist := by unfold glowFree; decide
@[simp] theorem glowFree_lgtLampCfg (i : Nat) : glowFree (Reg.lgtLampCfg i) := by unfold glowFree  Reg.lgtLampCfg; omega
@[simp] theorem glowFree_lgtLineFault : glowFree Reg.lgtLineFault := by unfold glowFree; decide
theorem glowFree_lgtNtc {i : Nat} (h : i < 7) : glowFree (Reg.lgtNtc i) := by unfold glowFree Reg.lgtNtc; omega
@[simp] theorem glowFree_lgtStr (i : Nat) : glowFree (Reg.lgtStr i) := by unfold glowFree  Reg.lgtStr; omega
@[simp] theorem forAll_glow {α : Type} (l : List α) (g : α → State → State) (s : State) (h : ∀ a ∈ l, ∀ t, (g a t).glow = t.glow) : (forAll l g s).glow = s.glow := forAll_field State.glow g l h s
@[simp] theorem foldl_glow {α : Type} (l : List α) (g : State → α → State) (s : State) (h : ∀ a ∈ l, ∀ t, (g t a).glow = t.glow) : (l.foldl g s).glow = s.glow := forAll_field State.glow (fun a t => g t a) l h s
@[simp] theorem ite_glow (c : Prop) [Decidable c] (a b : State) : (if c then a else b).glow = if c then a.glow else b.glow := by split <;> rfl
@[simp] theorem glow_with_any (s : State) (a0 a1 a2 a3 a4 a5 a6 a7 a8 a9 a10 a11 a12 a13 a14 a15 a16 a17 a18 a19 a20 a21 a22 a23 a24 a25 a26 a27) :
    ({ s with shadow := a0, pins := a1, clock := a2, cox := a3, loader := a4, syn := a5, prt := a6, xtb := a7, que := a8, slips := a9, jik := a10, hed := a11, egr := a12, aud := a13, fld := a14, keep := a15, nvs := a16, thm := a17, pwr := a18, quay := a19, evt := a20, out := a21, fstore := a22, work := a23, nvsMem := a24, cflash := a25, hostMem := a26, pending := a27 } : State).glow = s.glow := rfl
@[simp] theorem State.wr_glow (s : State) (a : Nat) (v : Word) (h : glowFree a) : (State.wr s a v).glow = s.glow := by
  simp only [State.glow, State.wr_lgt, s.rd_wr_ne v (Ne.symm h.1), s.rd_wr_ne v (Ne.symm h.2)]
@[simp] theorem State.setF_glow (s : State) (a hi lo v : Nat) (h : glowFree a) : (State.setF s a hi lo v).glow = s.glow :=
  State.wr_glow s a _ h
@[simp] theorem State.setB_glow (s : State) (a i : Nat) (v : Bool) (h : glowFree a) : (State.setB s a i v).glow = s.glow :=
  State.wr_glow s a _ h
@[simp] theorem State.onLgt_glow (s : State) (g : LgtSt → LgtSt) (h : (g s.lgt).still = s.lgt.still) : (State.onLgt s g).glow = s.glow :=
  congrArg (fun x => (x, s.rd Reg.lgtBstCfg, s.rd Reg.lgtTests)) h
@[simp] theorem onlyIf_glow (c : Bool) (g : State → State) (s : State) (h : (g s).glow = s.glow) : (onlyIf c g s).glow = s.glow := by
  cases c <;> simp [onlyIf, h]
@[simp] theorem State.fresh_glow (s : State) (w : Nat) : (State.fresh s w).2.glow = s.glow := by
  simp [State.fresh]
@[simp] theorem State.setRing_glow (s : State) (r : Nat) (x : RingSt) : (State.setRing s r x).glow = s.glow := by
  simp [State.setRing]
@[simp] theorem State.satQuiet_glow (s : State) (a : Nat) (n : Nat) (k : Nat) (h : glowFree a) : (State.satQuiet s a n k).glow = s.glow := by
  simp [State.satQuiet, h]
@[simp] theorem State.noteTail_glow (s : State) (k : Nat) : (State.noteTail s k).glow = s.glow := by
  simp [State.noteTail]
@[simp] theorem State.deliverQuiet_glow (s : State) (r : Nat) (x : Rec) : (State.deliverQuiet s r x).glow = s.glow := by
  simp [State.deliverQuiet]
@[simp] theorem State.dropSat_glow (s : State) (old : State) (a : Nat) : (State.dropSat s old a).glow = s.glow := by
  unfold State.dropSat
  (repeat' split) <;> simp
@[simp] theorem State.deliver_glow (s : State) (r : Nat) (x : Rec) : (State.deliver s r x).glow = s.glow := by
  simp [State.deliver]
@[simp] theorem State.raiseRaw_glow (s : State) (src : Nat) (code : Nat) (inst : Nat) (line : Nat) (data : Nat) : (State.raiseRaw s src code inst line data).glow = s.glow := by
  unfold State.raiseRaw
  (repeat' split) <;> simp
@[simp] theorem State.raise_glow (s : State) (e : Ev) (inst : Nat) (data : Nat) : (State.raise s e inst data).glow = s.glow := by
  simp [State.raise]
@[simp] theorem State.countErr_glow (s : State) (a : Nat) (n : Nat) (k : Nat) (h : glowFree a) : (State.countErr s a n k).glow = s.glow := by
  simp [State.countErr, h]
@[simp] theorem State.refreshAmps_glow (s : State) : (State.refreshAmps s).glow = s.glow := by
  unfold State.refreshAmps
  refine forAll_glow _ _ _ fun n _ t => ?_
  split
  · exact State.wr_glow _ _ _ (glowFree_lgtChAmp n)
  · rfl
@[simp] theorem State.lampLevel_glow (s : State) (old : Option LightMsg) (m : LightMsg) (l : Nat) : (State.lampLevel s old m l).glow = s.glow := by
  simp [State.lampLevel]
@[simp] theorem State.fadeStep_glow (s : State) : (State.fadeStep s).glow = s.glow := by
  simp [State.fadeStep]
@[simp] theorem State.showStr_glow (s : State) (c : Nat) (x : StringSt) : (State.showStr s c x).glow = s.glow := by
  simp [State.showStr]
@[simp] theorem State.showLampFault_glow (s : State) : (State.showLampFault s).glow = s.glow := by
  simp [State.showLampFault]
@[simp] theorem State.setStr_glow (s : State) (c : Nat) (x : StringSt) : (State.setStr s c x).glow = s.glow := by
  unfold State.setStr
  (repeat' split) <;> simp
@[simp] theorem State.measure_glow (s : State) (m : StringMeas) : (State.measure s m).glow = s.glow := by
  simp [State.measure]
@[simp] theorem State.unmeasured_glow (s : State) (c : Nat) : (State.unmeasured s c).glow = s.glow := by
  simp [State.unmeasured]
@[simp] theorem State.countPeriod_glow (s : State) (c : Nat) (pulse : Bool) : (State.countPeriod s c pulse).glow = s.glow := by
  simp [State.countPeriod]
@[simp] theorem State.spreadShorts_glow (s : State) : (State.spreadShorts s).glow = s.glow := by
  unfold State.spreadShorts
  refine (forAll_glow _ _ _ fun c _ t => ?_).trans (forAll_glow _ _ _ fun l _ t => State.setB_glow _ _ _ _ glowFree_lgtLineFault)
  dsimp only
  split
  · rfl
  · exact State.setStr_glow ..
@[simp] theorem State.raiseString_glow (s : State) (e : Ev) : (State.raiseString s e).glow = s.glow := by
  simp [State.raiseString]
theorem State.takeNtc_glow (s : State) {n : Nat} (v : Option Int) (hn : n < 7) : (State.takeNtc s n v).glow = s.glow := by
  have hreg := glowFree_lgtNtc hn
  unfold State.takeNtc
  dsimp only
  (repeat' split) <;> simp [hreg, -State.setF_lgt, -State.setB_lgt]
@[simp] theorem State.drive_glow (s : State) (ms : List StringMeas) (start : Nat) (c : Nat) : (State.drive s ms start c).glow = s.glow := by
  have hm : ∀ (b : Bool) (x : Option StringMeas) (t : State), t.glow = s.glow →
      (if b = true then (match x with | some m => t.measure m | none => t) else t.unmeasured c).glow = s.glow := by
    intro b x t ht
    cases b
    · exact (State.unmeasured_glow ..).trans ht
    · cases x
      · exact ht
      · exact (State.measure_glow ..).trans ht
  unfold State.drive
  dsimp only
  by_cases hu : (!s.strUsed c) = true
  · rw [if_pos hu]
  · rw [if_neg hu]
    exact hm _ _ _ (by simp)

end Sys2Proof.Machine

end
section
/-! PROOF. Field units: what reports, messages to ports and the lamps' amplitudes leave (R362, R372 to R382). One lemma for each operation, in
the order of the model. -/

namespace Sys2Proof.Machine

/-- The lighting half, the units, the keep RAM, and the registers of the field units' block. -/
def State.housed (s : State) : LgtSt × NMap UnitSt × KeepRam × (Nat → Word) :=
  (s.lgt, s.fld.units, s.keep, fun a => if 0xB0000 ≤ a ∧ a < 0xC0000 then s.rd a else 0)

/-- The address lies outside the field units' block. -/
def farFree (a : Nat) : Prop := a < 0xB0000 ∨ 0xC0000 ≤ a

@[simp] theorem farFree_nvsConflictCnt : farFree Reg.nvsConflictCnt := by unfold farFree; decide
@[simp] theorem farFree_nvsRecSeq : farFree Reg.nvsRecSeq := by unfold farFree; decide
@[simp] theorem farFree_nvsTornCnt : farFree Reg.nvsTornCnt := by unfold farFree; decide
@[simp] theorem farFree_prtHxStat (i : Nat) : farFree (Reg.prtHxStat i) := by unfold farFree  Reg.prtHxStat; omega
@[simp] theorem farFree_prtRwStat (i : Nat) : farFree (Reg.prtRwStat i) := by unfold farFree  Reg.prtRwStat; omega
@[simp] theorem forAll_housed {α : Type} (l : List α) (g : α → State → State) (s : State) (h : ∀ a ∈ l, ∀ t, (g a t).housed = t.housed) : (forAll l g s).housed = s.housed := forAll_field State.housed g l h s
@[simp] theorem foldl_housed {α : Type} (l : List α) (g : State → α → State) (s : State) (h : ∀ a ∈ l, ∀ t, (g t a).housed = t.housed) : (l.foldl g s).housed = s.housed := forAll_field State.housed (fun a t => g t a) l h s
@[simp] theorem ite_housed (c : Prop) [Decidable c] (a b : State) : (if c then a else b).housed = if c then a.housed else b.housed := by split <;> rfl
@[simp] theorem housed_with_any (s : State) (a0 a1 a2 a3 a4 a5 a6 a7 a8 a9 a10 a11 a12 a13 a14 a15 a16 a17 a18 a19 a20 a21 a22 a23 a24 a25) :
    ({ s with shadow := a0, pins := a1, clock := a2, cox := a3, loader := a4, syn := a5, prt := a6, xtb := a7, que := a8, slips := a9, jik := a10, hed := a11, egr := a12, aud := a13, nvs := a14, thm := a15, pwr := a16, quay := a17, evt := a18, out := a19, fstore := a20, work := a21, nvsMem := a22, cflash := a23, hostMem := a24, pending := a25 } : State).housed = s.housed := rfl
theorem housed_mk {s t : State} (hl : t.lgt = s.lgt) (hu : t.fld.units = s.fld.units) (hk : t.keep = s.keep)
    (hr : ∀ a, 0xB0000 ≤ a → a < 0xC0000 → t.rd a = s.rd a) : t.housed = s.housed := by
  have hf : (fun a => if 0xB0000 ≤ a ∧ a < 0xC0000 then t.rd a else 0) = fun a => if 0xB0000 ≤ a ∧ a < 0xC0000 then s.rd a else 0 :=
    funext fun a => by
      split
      next h => exact hr a h.1 h.2
      next => rfl
  rw [State.housed, State.housed, hl, hu, hk, hf]
@[simp] theorem State.wr_housed (s : State) (a : Nat) (v : Word) (h : farFree a) : (State.wr s a v).housed = s.housed :=
  housed_mk rfl rfl rfl fun b hlo hhi => s.rd_wr_ne v (by unfold farFree at h; omega)
@[simp] theorem State.setF_housed (s : State) (a hi lo v : Nat) (h : farFree a) : (State.setF s a hi lo v).housed = s.housed :=
  State.wr_housed s a _ h
@[simp] theorem State.setB_housed (s : State) (a i : Nat) (v : Bool) (h : farFree a) : (State.setB s a i v).housed = s.housed :=
  State.wr_housed s a _ h
@[simp] theorem housed_with_fld (s : State) (w : List Nat) (p : NMap (List Byte)) (g : List Nat) :
    ({ s with fld := { s.fld with writing := w, pages := p, gone := g } } : State).housed = s.housed := by cases s; rfl
@[simp] theorem State.raise_housed (s : State) (e : Ev) (inst data : Nat) : (s.raise e inst data).housed = s.housed := by
  obtain ⟨h, hr⟩ := s.raise_only e inst data
  refine housed_mk (by rw [h]) (by rw [h]) (by rw [h]) fun a hlo _ => hr a (notDrop (by omega))
@[simp] theorem onlyIf_housed (c : Bool) (g : State → State) (s : State) (h : (g s).housed = s.housed) : (onlyIf c g s).housed = s.housed := by
  cases c <;> simp [onlyIf, h]
@[simp] theorem State.fresh_housed (s : State) (w : Nat) : (State.fresh s w).2.housed = s.housed := by
  simp [State.fresh]
@[simp] theorem State.countErr_housed (s : State) (a : Nat) (n : Nat) (k : Nat) (h : farFree a) : (State.countErr s a n k).housed = s.housed := by
  simp [State.countErr, h]
@[simp] theorem State.send_housed (s : State) (o : Out) : (State.send s o).housed = s.housed := by
  simp [State.send]
@[simp] theorem State.onPort_housed (s : State) (p : Nat) (g : PortSt → PortSt) : (State.onPort s p g).housed = s.housed := by
  simp [State.onPort]
@[simp] theorem State.sendLane_housed (s : State) (p : Nat) (syms : List Sym) (masks : List (BitVec 10)) : (State.sendLane s p syms masks).housed = s.housed := by
  simp [State.sendLane]
@[simp] theorem State.sendFrame_housed (s : State) (l : Nat) (o : Out) (syms : List Sym) (masks : List (BitVec 10)) : (State.sendFrame s l o syms masks).housed = s.housed := by
  simp [State.sendFrame]
@[simp] theorem State.onNvs_housed (s : State) (g : NvsSt → NvsSt) : (State.onNvs s g).housed = s.housed := by
  simp [State.onNvs]
@[simp] theorem State.nvRead_housed (s : State) : (State.nvRead s).housed = s.housed := by
  simp [State.nvRead]
@[simp] theorem State.noteTorn_housed (s : State) (v : SlotView) (a : Nat) : (State.noteTorn s v a).housed = s.housed := by
  simp [State.noteTorn]
@[simp] theorem State.readRecord_housed (s : State) (a : Nat) (b : Nat) (pages : Nat) (dev : Option Nat) (who : Nat) : (State.readRecord s a b pages dev who).1.housed = s.housed := by
  unfold State.readRecord
  dsimp only
  (repeat' split) <;> simp
@[simp] theorem State.beginJob_housed (s : State) (j : NvsJob) : (State.beginJob s j).housed = s.housed := by
  unfold State.beginJob
  dsimp only
  (repeat' split) <;> simp
@[simp] theorem State.startJob_housed (s : State) (j : NvsJob) : (State.startJob s j).housed = s.housed := by
  unfold State.startJob
  (repeat' split) <;> simp
@[simp] theorem State.writeLedgers_housed (s : State) : (State.writeLedgers s).housed = s.housed := by
  simp [State.writeLedgers]
@[simp] theorem State.refreshAmps_housed (s : State) : (State.refreshAmps s).housed = s.housed := by
  unfold State.refreshAmps
  refine forAll_housed _ _ _ fun n hn t => ?_
  have hlt : n < 48 := List.mem_range.mp hn
  split
  · exact State.wr_housed _ _ _ (.inl (by unfold Reg.lgtChAmp; omega))
  · rfl
@[simp] theorem State.injected_housed (s : State) (p : Nat) (n : Nat) : (State.injected s p n).housed = s.housed := by
  simp [State.injected]
@[simp] theorem State.flipMasks_housed (n : Nat) : ∀ s : State, (s.flipMasks n).2.housed = s.housed := by
  induction n with
  | zero => exact fun _ => rfl
  | succ n ih => intro s; unfold State.flipMasks; simp [ih]
@[simp] theorem State.corrupted_housed (s : State) (p : Nat) (tx : Bool) (n : Nat) : (State.corrupted s p tx n).2.2.housed = s.housed := by
  unfold State.corrupted
  split
  · simp
  · rfl
@[simp] theorem State.transmit_housed (s : State) (p : Nat) (stream : Option Nat) (poison : Bool) (bs : List Byte) : (State.transmit s p stream poison bs).housed = s.housed := by
  simp [State.transmit]
@[simp] theorem State.sendMsg_housed (s : State) (p : Nat) (m : Msg) : (State.sendMsg s p m).housed = s.housed := by
  simp [State.sendMsg]
@[simp] theorem State.issueNow_housed (s : State) (p : Nat) (q : XactWait) : (State.issueNow s p q).housed = s.housed := by
  simp [State.issueNow]
@[simp] theorem State.issueWaits_housed (s : State) (p : Nat) : (s.issueWaits p).housed = s.housed := by
  unfold State.issueWaits
  exact foldl_proj State.housed _ _ _ fun t _ => by (repeat' split) <;> simp
@[simp] theorem State.request_housed (s : State) (p : Nat) (q : XactWait) : (State.request s p q).housed = s.housed := by
  simp [State.request]
@[simp] theorem State.writeBackFailed_housed (s : State) (u : Nat) : (State.writeBackFailed s u).housed = s.housed := by
  simp [State.writeBackFailed]

end Sys2Proof.Machine

end
section
/-! PROOF. Lighting commands (R352 to R368). -/

namespace Sys2Proof.Machine

/-! ### Strings -/

theorem setStr_lgt (s : State) (c : Nat) (x : StringSt) :
    (s.setStr c x).lgt = { s.lgt with strings := nset (fun _ => StringSt.init) s.lgt.strings c x } := by
  have hcount : ∀ (t : State) (a : Nat), (t.countErr a 16 1).lgt = t.lgt := fun t a =>
    onlyIf_field State.lgt _ (fun t => t.raise .cntSat (srcOfAddr a) a) _ (State.raise_lgt ..)
  unfold State.setStr
  dsimp only
  refine (onlyIf_field State.lgt _ (fun t => t.raise .lampInferred c c) _ (State.raise_lgt ..)).trans ?_
  refine (forAll_field State.lgt (fun k t => (t.countErr (Reg.lgtChFaultCnt (sinkOf c)) 16 1).raise .lampFault c (c + k * 2 ^ 12)) _
    (fun k _ t => (State.raise_lgt ..).trans (hcount t _)) _).trans ?_
  split <;> split <;> rfl

theorem setStr_str_self (s : State) (c : Nat) (x : StringSt) : (s.setStr c x).str c = x := by
  rw [State.str, setStr_lgt, nget_nset_self]

theorem setStr_str_ne (s : State) {c k : Nat} (x : StringSt) (h : k ≠ c) : (s.setStr c x).str k = s.str k := by
  rw [State.str, setStr_lgt, nget_nset_ne _ _ _ h, State.str]

/-! ### Messages and the boost (R355, R357, R358) -/

/-- The boost's controller writes its output within `VMAX` where it was, and none while it is off. -/
theorem boostStep_lgt (s : State) : ∃ run mv, s.boostStep.lgt = { s.lgt with spareRun := run, boostMv := mv } ∧
    (s.lgt.boostOn = false → mv = s.lgt.boostMv) ∧ (s.lgt.boostMv ≤ s.boostCfg.2.2 → mv ≤ s.boostCfg.2.2) := by
  unfold State.boostStep
  split
  next hoff => exact ⟨_, _, rfl, fun _ => rfl, id⟩
  next hon =>
    have hon' : s.lgt.boostOn ≠ false := by simpa using hon
    split
    · exact ⟨_, _, rfl, fun h => absurd h hon', id⟩
    next c h hl =>
      refine ⟨_, _, onlyIf_field State.lgt _ (fun t => t.raise .lgtHeadroomLow c c) _ (State.raise_lgt ..), fun h => absurd h hon', fun hv => ?_⟩
      split
      · exact min_le_left ..
      · exact le_trans (by split_ifs <;> omega) hv

theorem raiseString_only (s : State) (e : Ev) : eventsOnly (s.fresh 10).2 (s.raiseString e) := State.raise_only ..

theorem boostOvervoltage_shows (s : State) (h : s.lgt.boostOn = true) :
    (boostOvervoltage s).lgt = { s.lgt with boostOn := false, restart := true, spareRun := 0 } ∧
      (boostOvervoltage s).b Reg.lgtState 29 = false ∧ (boostOvervoltage s).b Reg.lgtHist 2 = true := by
  rw [boostOvervoltage, if_pos h]
  obtain ⟨u, hu⟩ : ∃ u, u = ((s.onLgt fun g => { g with boostOn := false, restart := true, spareRun := 0 }).setB Reg.lgtHist 2 true).setB
    Reg.lgtState 29 false := ⟨_, rfl⟩
  rw [← hu]
  obtain ⟨heq, hrd⟩ := raiseString_only u .lgtBoostFault
  refine ⟨by rw [heq, hu]; rfl, ?_, ?_⟩
  · rw [State.b_of_rd (hrd _ (notDrop (by decide))), hu]
    exact State.b_setB_self _ _ _ _ (by decide)
  · rw [State.b_of_rd (hrd _ (notDrop (by decide))), hu]
    exact (State.b_of_rd (State.rd_setB_ne _ _ _ (by decide)) 2).trans (State.b_setB_self _ _ _ _ (by decide))

theorem lightMessage_shows (s : State) (g : LightMsg) (h : s.lgt.inFlight = some g) : (lightMessage s).lgt.waiting = some g ∧
    (lightMessage s).lgt.inFlight = none ∧ (lightMessage s).lgt.lost = false ∧ (lightMessage s).lgt.msg = s.lgt.msg ∧
    (if s.lgt.lost = true ∧ s.lgt.placed = true ∧ s.lgt.testing = false then
        (lightMessage s).lgt.boostOn = (s.lgt.boostOn || !s.lgt.restart) ∧ (lightMessage s).b Reg.lgtState 31 = true
      else (lightMessage s).lgt.boostOn = s.lgt.boostOn ∧ (lightMessage s).regs = s.regs) := by
  unfold lightMessage
  rw [h]
  dsimp only
  by_cases hr : s.lgt.lost = true ∧ s.lgt.placed = true ∧ s.lgt.testing = false
  · obtain ⟨h1, h2, h3⟩ := hr
    simp only [h1, h2, h3, Bool.not_false, Bool.and_true, Bool.true_and, onlyIf, and_self, if_true]
    exact ⟨rfl, rfl, rfl, rfl, rfl, State.b_setB_self _ _ _ _ (by decide)⟩
  · have hf : (s.lgt.lost && s.lgt.placed && !s.lgt.testing) = false := by
      rw [Bool.eq_false_iff]
      intro hx
      simp only [Bool.and_eq_true, Bool.not_eq_true'] at hx
      exact hr ⟨hx.1.1, hx.1.2, hx.2⟩
    rw [if_neg hr, hf]
    simp only [onlyIf, Bool.false_and, Bool.or_false]
    exact ⟨rfl, rfl, rfl, rfl, rfl, rfl⟩

theorem lightMsgTimeout_shows (s : State) (h : s.lgt.placed = true) :
    (lightMsgTimeout s).lgt = { s.lgt with lost := true, boostOn := false, ons := [], pre := [], spareRun := 0 } ∧
      (lightMsgTimeout s).b Reg.lgtState 31 = false ∧ (lightMsgTimeout s).b Reg.lgtState 29 = false ∧
      (lightMsgTimeout s).b Reg.lgtHist 3 = true ∧ sameRegs s (lightMsgTimeout s) [Reg.lgtState, Reg.lgtHist] := by
  rw [lightMsgTimeout, if_pos h]
  refine ⟨rfl, ?_, ?_, State.b_setB_self _ _ _ _ (by decide), fun a ha => ?_⟩
  · rw [State.b_of_rd (State.rd_setB_ne _ _ _ (by decide)), State.b_setB_ne _ _ _ (by decide)]
    exact State.b_setB_self _ _ _ _ (by decide)
  · rw [State.b_of_rd (State.rd_setB_ne _ _ _ (by decide))]
    exact State.b_setB_self _ _ _ _ (by decide)
  · simp only [List.mem_cons, List.not_mem_nil, or_false, not_or] at ha
    exact ((State.rd_setB_ne _ _ _ ha.2).trans (State.rd_setB_ne _ _ _ ha.1)).trans (State.rd_setB_ne _ _ _ ha.1)

/-! ### A PWM period (R352) -/

/-- The message that waits is applied. -/
def State.takeMessage (s : State) : State :=
  match s.lgt.waiting with
  | some w => forAll (upto 16) (fun l t => t.lampLevel s.lgt.msg w l) (s.onLgt fun g => { g with msg := some w, waiting := none })
  | none => s

/-- The period's number, lines and pre-charge. -/
def State.nextPeriod (s : State) : State :=
  let lines (x : Nat) : Nat := max 1 (min 16 (s.f (Reg.lgtMatCfg x) 28 24))
  s.onLgt fun g => { g with
    ons := [], period := (g.period + 1) % 2 ^ s.f Reg.lgtPwmCfg 2 0, lineA := (g.lineA + 1) % lines 0, lineB := (g.lineB + 1) % lines 1
    pre := [(0, s.preCharge 0 g.lineA ((g.lineA + 1) % lines 0)), (1, s.preCharge 1 g.lineB ((g.lineB + 1) % lines 1))] }

/-- Fades, temperatures, amplitudes and the strings that the period drives. -/
def State.driveAll (s : State) (x : PwmIn) : State :=
  let t := forAll x.ntc (fun p t => t.takeNtc p.1.val p.2) s.fadeStep
  forAll t.driven (fun c u => u.drive x.strings (t.startCount t.activeDirect c) c) t.refreshAmps

theorem pwmPeriod_eq (x : PwmIn) (s : State) (h : s.b Reg.lgtState 31 = true) :
    pwmPeriod x s = (s.takeMessage.nextPeriod.driveAll x).boostStep.onLgt fun g => { g with window := [] } := by
  unfold pwmPeriod
  rw [if_neg (by simp [h])]
  rfl

theorem lampLevel_regs (s : State) (old : Option LightMsg) (m : LightMsg) (l : Nat) : (s.lampLevel old m l).regs = s.regs := by
  unfold State.lampLevel
  dsimp only
  (repeat' split) <;> rfl

theorem takeMessage_shows (s : State) : s.takeMessage.regs = s.regs ∧ s.takeMessage.lgt.still =
    { s.lgt.still with msg := if s.lgt.waiting.isSome then s.lgt.waiting else s.lgt.msg, waiting := none } := by
  unfold State.takeMessage
  cases hw : s.lgt.waiting with
  | none =>
    have h : s.lgt.still = { s.lgt.still with msg := s.lgt.msg, waiting := s.lgt.waiting } := rfl
    rw [hw] at h
    exact ⟨rfl, h⟩
  | some w =>
    exact ⟨forAll_field State.regs (fun l t => t.lampLevel s.lgt.msg w l) _ (fun l _ t => lampLevel_regs t s.lgt.msg w l) _,
      congrArg Prod.fst (forAll_glow _ _ _ fun l _ t => t.lampLevel_glow s.lgt.msg w l)⟩

theorem driveAll_glow (s : State) (x : PwmIn) : (s.driveAll x).glow = s.glow := by
  unfold State.driveAll
  rw [forAll_glow _ _ _ fun c _ u => u.drive_glow x.strings _ c, State.refreshAmps_glow,
    forAll_glow _ _ _ fun p _ t => t.takeNtc_glow p.2 (by omega), State.fadeStep_glow]

/-- What a period that begins takes and counts, before the boost's controller judges. -/
theorem driveAll_shows (x : PwmIn) (s : State) : let u := s.takeMessage.nextPeriod.driveAll x
    u.rd Reg.lgtBstCfg = s.rd Reg.lgtBstCfg ∧ u.lgt.period = (s.lgt.period + 1) % 2 ^ s.f Reg.lgtPwmCfg 2 0 ∧ u.lgt.waiting = none ∧
      u.lgt.msg = (if s.lgt.waiting.isSome then s.lgt.waiting else s.lgt.msg) ∧ u.lgt.boostOn = s.lgt.boostOn ∧
      u.lgt.boostMv = s.lgt.boostMv := by
  obtain ⟨hregs, hlgt⟩ := takeMessage_shows s
  have hglow := driveAll_glow s.takeMessage.nextPeriod x
  have hstill : (s.takeMessage.nextPeriod.driveAll x).lgt.still = s.takeMessage.nextPeriod.lgt.still := congrArg Prod.fst hglow
  have hreg : (s.takeMessage.nextPeriod.driveAll x).rd Reg.lgtBstCfg = s.takeMessage.nextPeriod.rd Reg.lgtBstCfg :=
    congrArg (fun g => g.2.1) hglow
  have hperiod : s.takeMessage.nextPeriod.lgt.period = (s.takeMessage.lgt.period + 1) % 2 ^ s.takeMessage.f Reg.lgtPwmCfg 2 0 := rfl
  generalize s.takeMessage.nextPeriod.driveAll x = u at *
  refine ⟨hreg.trans (State.rd_congr hregs _), ?_, ?_, ?_, ?_, ?_⟩
  · have h1 := congrArg LgtSt.period hstill
    have h2 := congrArg LgtSt.period hlgt
    calc u.lgt.period = s.takeMessage.nextPeriod.lgt.period := h1
      _ = (s.takeMessage.lgt.period + 1) % 2 ^ s.takeMessage.f Reg.lgtPwmCfg 2 0 := hperiod
      _ = (s.lgt.period + 1) % 2 ^ s.f Reg.lgtPwmCfg 2 0 := by
        rw [State.f_congr hregs]
        exact congrArg (fun n => (n + 1) % 2 ^ s.f Reg.lgtPwmCfg 2 0) h2
  · have h1 := congrArg LgtSt.waiting hstill
    exact h1.trans (congrArg LgtSt.waiting hlgt :)
  · have h1 := congrArg LgtSt.msg hstill
    exact h1.trans (congrArg LgtSt.msg hlgt :)
  · have h1 := congrArg LgtSt.boostOn hstill
    exact h1.trans (congrArg LgtSt.boostOn hlgt :)
  · have h1 := congrArg LgtSt.boostMv hstill
    exact h1.trans (congrArg LgtSt.boostMv hlgt :)

theorem pwmPeriod_shows (x : PwmIn) (s : State) (h : s.b Reg.lgtState 31 = true) :
    (pwmPeriod x s).lgt.period = (s.lgt.period + 1) % 2 ^ s.f Reg.lgtPwmCfg 2 0 ∧ (pwmPeriod x s).lgt.waiting = none ∧
      (pwmPeriod x s).lgt.msg = (if s.lgt.waiting.isSome then s.lgt.waiting else s.lgt.msg) ∧
      (pwmPeriod x s).lgt.boostOn = s.lgt.boostOn ∧ (s.lgt.boostOn = false → (pwmPeriod x s).lgt.boostMv = s.lgt.boostMv) ∧
      (s.lgt.boostMv ≤ s.boostCfg.2.2 → (pwmPeriod x s).lgt.boostMv ≤ s.boostCfg.2.2) := by
  rw [pwmPeriod_eq x s h]
  obtain ⟨hcfg, hper, hwait, hmsg, hon, hmv⟩ := driveAll_shows x s
  generalize s.takeMessage.nextPeriod.driveAll x = u at *
  obtain ⟨run, mv, hl, hoff, hmax⟩ := boostStep_lgt u
  have hlgt : (u.boostStep.onLgt fun g => { g with window := [] }).lgt = { u.lgt with spareRun := run, boostMv := mv, window := [] } := by
    rw [State.onLgt, hl]
  have hbst : u.boostCfg = s.boostCfg := by simp only [State.boostCfg, State.f, hcfg]
  rw [hlgt]
  refine ⟨hper, hwait, hmsg, hon, fun hb => (hoff (hon.trans hb)).trans hmv, fun hle => ?_⟩
  have h := hmax (by rw [hmv, hbst]; exact hle)
  rw [hbst] at h
  exact h

/-! ### The neighbour test (R368) -/

/-- The neighbours of pin `p`. -/
def pinsNear (nb : List (Nat × Nat)) (p : Nat) : List Nat :=
  nb.filterMap fun q => if q.1 = p then some q.2 else if q.2 = p then some q.1 else none

/-- The shorts known once pin `p` has been tested. -/
def shortsAfter (nb old : List (Nat × Nat)) (p : Nat) (high : List Nat) : List (Nat × Nat) :=
  (old.filter fun q => !(q.1 == p || q.2 == p)) ++ ((pinsNear nb p).filter high.contains).map fun n => (min p n, max p n)

theorem mem_pinsNear {nb : List (Nat × Nat)} {p n : Nat} (h : (p, n) ∈ nb ∨ (n, p) ∈ nb) : n ∈ pinsNear nb p := by
  obtain h | h := h
  · exact List.mem_filterMap.mpr ⟨_, h, if_pos rfl⟩
  · refine List.mem_filterMap.mpr ⟨_, h, ?_⟩
    by_cases hn : n = p
    · rw [if_pos hn, hn]
    · rw [if_neg hn, if_pos rfl]

theorem mem_shortsAfter_near {nb old : List (Nat × Nat)} {p n : Nat} {high : List Nat} (h : (p, n) ∈ nb ∨ (n, p) ∈ nb) :
    (min p n, max p n) ∈ shortsAfter nb old p high ↔ n ∈ high := by
  simp only [shortsAfter, List.mem_append, List.mem_filter, List.mem_map, Prod.mk.injEq, List.contains_iff_mem]
  constructor
  · rintro (⟨-, hp⟩ | ⟨k, ⟨-, hk⟩, h1, h2⟩)
    · have hor : min p n = p ∨ max p n = p := by omega
      obtain e | e := hor <;> simp [e] at hp
    · have e : k = n := by omega
      exact e ▸ hk
  · exact fun hn => .inr ⟨n, ⟨mem_pinsNear h, hn⟩, rfl, rfl⟩

theorem mem_shortsAfter_far {nb old : List (Nat × Nat)} {p : Nat} {high : List Nat} {q : Nat × Nat} (h1 : q.1 ≠ p) (h2 : q.2 ≠ p) :
    q ∈ shortsAfter nb old p high ↔ q ∈ old := by
  simp only [shortsAfter, List.mem_append, List.mem_filter, List.mem_map]
  constructor
  · rintro (⟨hq, -⟩ | ⟨k, -, rfl⟩)
    · exact hq
    · have hor : min p k = p ∨ max p k = p := by omega
      exact absurd hor (not_or.mpr ⟨h1, h2⟩)
  · exact fun hq => .inl ⟨hq, by simp [h1, h2]⟩

/-- What a pin's test finds, counted. -/
def State.pinNoted (s : State) (high : List Nat) : State :=
  (s.onLgt fun g => { g with
      shorts := shortsAfter s.lgt.cfg.neighbours s.lgt.shorts s.lgt.nextPin high
      nextPin := (s.lgt.nextPin + 1) % 80, testing := g.testing && !(s.lgt.testing && s.lgt.nextPin == 79)
      window := if s.b Reg.lgtState 31 then s.lgt.nextPin :: pinsNear s.lgt.cfg.neighbours s.lgt.nextPin else [] }).countPerf
    Reg.lgtTests 31 1

/-- A pin's test with the strings on shorted pins: all but the end of placement's first round. -/
def State.pinTested (s : State) (high : List Nat) : State := (s.pinNoted high).spreadShorts

theorem neighbourTest_eq (high : List Nat) (s : State) (h : s.lgt.placed = true) : neighbourTest high s =
    if s.lgt.testing && s.lgt.nextPin == 79 then
      ((((s.pinTested high).fresh 16).2.onLgt fun g => { g with
        boostOn := !g.lost, boostMv := ((s.pinTested high).fresh 16).1.toNat % (((s.pinTested high).fresh 16).2.boostCfg.2.2 + 1) }).setB
          Reg.lgtState 31 (!((s.pinTested high).fresh 16).2.lgt.lost))
    else s.pinTested high := by
  simp only [neighbourTest, State.pinTested, State.pinNoted, shortsAfter, pinsNear, h, Bool.not_true, Bool.false_eq_true, if_false]

theorem pinTested_shows (s : State) (high : List Nat) : let u := s.pinTested high
    u.lgt.nextPin = (s.lgt.nextPin + 1) % 80 ∧ u.rd Reg.lgtTests = ovfAdd 31 1 (s.rd Reg.lgtTests) ∧
      u.lgt.shorts = shortsAfter s.lgt.cfg.neighbours s.lgt.shorts s.lgt.nextPin high ∧
      u.lgt.testing = (s.lgt.testing && !(s.lgt.testing && s.lgt.nextPin == 79)) ∧ u.lgt.lost = s.lgt.lost ∧
      u.rd Reg.lgtBstCfg = s.rd Reg.lgtBstCfg := by
  have hglow : (s.pinTested high).glow = (s.pinNoted high).glow := State.spreadShorts_glow _
  obtain ⟨hpin, hshorts, htesting, hlost⟩ : (s.pinNoted high).lgt.nextPin = (s.lgt.nextPin + 1) % 80 ∧
      (s.pinNoted high).lgt.shorts = shortsAfter s.lgt.cfg.neighbours s.lgt.shorts s.lgt.nextPin high ∧
      (s.pinNoted high).lgt.testing = (s.lgt.testing && !(s.lgt.testing && s.lgt.nextPin == 79)) ∧
      (s.pinNoted high).lgt.lost = s.lgt.lost := ⟨rfl, rfl, rfl, rfl⟩
  have htests : (s.pinNoted high).rd Reg.lgtTests = ovfAdd 31 1 (s.rd Reg.lgtTests) := State.rd_wr_self ..
  have hbst : (s.pinNoted high).rd Reg.lgtBstCfg = s.rd Reg.lgtBstCfg := State.rd_wr_ne _ _ (by decide)
  generalize s.pinTested high = u at *
  generalize s.pinNoted high = v at *
  have hstill : u.lgt.still = v.lgt.still := congrArg Prod.fst hglow
  exact ⟨(congrArg LgtSt.nextPin hstill).trans hpin, (congrArg (fun g => g.2.2) hglow).trans htests,
    (congrArg LgtSt.shorts hstill).trans hshorts, (congrArg LgtSt.testing hstill).trans htesting,
    (congrArg LgtSt.lost hstill).trans hlost, (congrArg (fun g => g.2.1) hglow).trans hbst⟩

theorem neighbourTest_shows (high : List Nat) (s : State) (h : s.lgt.placed = true) :
    let t := neighbourTest high s
    let p := s.lgt.nextPin
    t.lgt.nextPin = (p + 1) % 80 ∧ t.rd Reg.lgtTests = ovfAdd 31 1 (s.rd Reg.lgtTests) ∧
      (∀ n, (p, n) ∈ s.lgt.cfg.neighbours ∨ (n, p) ∈ s.lgt.cfg.neighbours → ((min p n, max p n) ∈ t.lgt.shorts ↔ n ∈ high)) ∧
      (∀ q, q.1 ≠ p → q.2 ≠ p → (q ∈ t.lgt.shorts ↔ q ∈ s.lgt.shorts)) ∧
      (s.lgt.testing = true → p = 79 → t.lgt.testing = false ∧ t.lgt.boostOn = !s.lgt.lost ∧ t.b Reg.lgtState 31 = !s.lgt.lost ∧
        t.lgt.boostMv ≤ s.boostCfg.2.2) := by
  dsimp only
  rw [neighbourTest_eq high s h]
  obtain ⟨hpin, htests, hshorts, htesting, hlost, hbst⟩ := pinTested_shows s high
  generalize s.pinTested high = u at *
  have hcfg : u.boostCfg = s.boostCfg := by simp only [State.boostCfg, State.f, hbst]
  by_cases hfirst : (s.lgt.testing && s.lgt.nextPin == 79) = true
  · rw [if_pos hfirst]
    have hmod : (u.fresh 16).1.toNat % ((u.fresh 16).2.boostCfg.2.2 + 1) ≤ s.boostCfg.2.2 := by
      rw [show (u.fresh 16).2.boostCfg = s.boostCfg from hcfg]
      exact Nat.le_of_lt_succ (Nat.mod_lt _ (Nat.succ_pos _))
    refine ⟨hpin, (State.rd_setB_ne _ _ _ (by decide)).trans htests, fun n hn => ?_, fun q h1 h2 => ?_, fun ht _ => ⟨?_, ?_, ?_, hmod⟩⟩
    · exact hshorts ▸ mem_shortsAfter_near hn
    · exact hshorts ▸ mem_shortsAfter_far h1 h2
    · exact htesting.trans (by rw [hfirst, ht]; rfl)
    · exact congrArg (!·) hlost
    · exact (State.b_setB_self _ _ _ _ (by decide)).trans (congrArg (!·) hlost)
  · rw [if_neg hfirst]
    refine ⟨hpin, htests, fun n hn => ?_, fun q h1 h2 => ?_, fun ht hp => absurd (by simp [ht, hp]) hfirst⟩
    · exact hshorts ▸ mem_shortsAfter_near hn
    · exact hshorts ▸ mem_shortsAfter_far h1 h2

/-! ### Retests (R365) -/

theorem sinkStrings_nodup (n : Nat) : (sinkStrings n).Nodup := by
  unfold sinkStrings
  split
  · exact List.Nodup.map (fun a b hab => by omega) List.nodup_range
  · exact List.nodup_singleton _

/-- One string of a sink is tested anew. -/
def State.retested (s : State) (c : Nat) : State :=
  if (s.str c).open_ then s.setStr c { s.str c with open_ := false, lows := 0, headroom := none, untested := true } else s

theorem retested_str_ne (s : State) {c k : Nat} (h : k ≠ c) : (s.retested c).str k = s.str k := by
  unfold State.retested
  split
  · exact setStr_str_ne _ _ h
  · rfl

theorem retested_str_self (s : State) (c : Nat) : ((s.retested c).str c).open_ = false ∧
    ((s.str c).open_ = true → ((s.retested c).str c).untested = true ∧ ((s.retested c).str c).lows = 0) := by
  unfold State.retested
  split
  next ho =>
    rw [setStr_str_self]
    exact ⟨rfl, fun _ => ⟨rfl, rfl⟩⟩
  next ho => exact ⟨by simpa using ho, fun h => absurd h ho⟩

theorem forAll_retested_out (l : List Nat) (s : State) {k : Nat} (h : k ∉ l) : (forAll l (fun c t => t.retested c) s).str k = s.str k :=
  forAll_field (fun t => t.str k) (fun c t => t.retested c) l (fun _ hc t => retested_str_ne t fun e => h (e ▸ hc)) s

theorem forAll_retested_in {l : List Nat} (hn : l.Nodup) (s : State) {k : Nat} (h : k ∈ l) :
    ((forAll l (fun c t => t.retested c) s).str k).open_ = false ∧ ((s.str k).open_ = true →
      ((forAll l (fun c t => t.retested c) s).str k).untested = true ∧ ((forAll l (fun c t => t.retested c) s).str k).lows = 0) := by
  induction l generalizing s with
  | nil => cases h
  | cons c l ih =>
    obtain ⟨hc, hl⟩ := List.nodup_cons.mp hn
    rw [show forAll (c :: l) (fun c t => t.retested c) s = forAll l (fun c t => t.retested c) (s.retested c) from rfl]
    obtain rfl | hk := List.mem_cons.mp h
    · rw [forAll_retested_out l _ hc]
      exact retested_str_self s k
    · have hne : k ≠ c := fun e => hc (e ▸ hk)
      have h1 := ih hl (s.retested c) hk
      rw [retested_str_ne s hne] at h1
      exact h1

theorem retest_eq (n : Nat) (s : State) : retest n 1 s = forAll ((sinkStrings n).filter s.strUsed) (fun c t => t.retested c) s := rfl

theorem retest_shows (n : Nat) (s : State) :
    (∀ c ∈ sinkStrings n, s.strUsed c = true → ((retest n 1 s).str c).open_ = false ∧
      ((s.str c).open_ = true → ((retest n 1 s).str c).untested = true ∧ ((retest n 1 s).str c).lows = 0)) ∧
    (∀ c, c ∉ sinkStrings n → (retest n 1 s).str c = s.str c) := by
  rw [retest_eq]
  exact ⟨fun _ hc hu => forAll_retested_in ((sinkStrings_nodup n).filter _) s (List.mem_filter.mpr ⟨hc, hu⟩),
    fun _ hc => forAll_retested_out _ s fun h => hc (List.mem_of_mem_filter h)⟩

end Sys2Proof.Machine

end
section
/-! PROOF. Field units and their ledgers (R372 to R382). -/

namespace Sys2Proof.Machine

/-! ### What operations leave of a unit -/

section
variable {s t u : State}

theorem housed_lgt (h : t.housed = s.housed) : t.lgt = s.lgt := congrArg Prod.fst h
theorem housed_units (h : t.housed = s.housed) : t.fld.units = s.fld.units := congrArg (fun x => x.2.1) h
theorem housed_keep (h : t.housed = s.housed) : t.keep = s.keep := congrArg (fun x => x.2.2.1) h
theorem housed_rd (h : t.housed = s.housed) {a : Nat} (hlo : 0xB0000 ≤ a) (hhi : a < 0xC0000) : t.rd a = s.rd a := by
  have hf := congrFun (congrArg (fun x => x.2.2.2) h) a
  simpa only [State.housed, hlo, hhi, and_self, if_true] using hf

theorem State.unit_congr (h : t.fld.units = s.fld.units) (v : Nat) : t.unit v = s.unit v := by rw [State.unit, State.unit, h]

/-- From `s` to `t` unit `v` is as it was, and its record's presence and class show as they did. -/
def tends (v : Nat) (s t : State) : Prop := t.unit v = s.unit v ∧ t.b (Reg.fldUnitStat v) 31 = s.b (Reg.fldUnitStat v) 31 ∧
  t.f (Reg.fldUnitStat v) 30 29 = s.f (Reg.fldUnitStat v) 30 29

theorem tends.refl (v : Nat) (s : State) : tends v s s := ⟨rfl, rfl, rfl⟩

theorem tends.trans {v : Nat} (h : tends v s t) (h2 : tends v t u) : tends v s u :=
  ⟨h2.1.trans h.1, h2.2.1.trans h.2.1, h2.2.2.trans h.2.2⟩

theorem tends_of_rd {v : Nat} (hu : t.fld.units = s.fld.units) (hr : t.rd (Reg.fldUnitStat v) = s.rd (Reg.fldUnitStat v)) : tends v s t :=
  ⟨State.unit_congr hu v, State.b_of_rd hr _, State.f_of_rd hr _ _⟩

theorem tends_of_housed {v : Nat} (hv : v < 520) (h : t.housed = s.housed) : tends v s t :=
  tends_of_rd (housed_units h) (housed_rd h (by unfold Reg.fldUnitStat; omega) (by unfold Reg.fldUnitStat; omega))

theorem tends_onlyIf {v : Nat} (c : Bool) (g : State → State) (h : tends v s (g s)) : tends v s (onlyIf c g s) := by
  cases c
  · exact tends.refl v s
  · exact h

end

theorem tends_wr (v : Nat) (s : State) {a : Nat} (w : Word) (h : a ≠ Reg.fldUnitStat v) : tends v s (s.wr a w) :=
  tends_of_rd rfl (s.rd_wr_ne w h.symm)

theorem unitLedger_ne_stat (v w : Nat) : Reg.fldUnitLedger w ≠ Reg.fldUnitStat v := by unfold Reg.fldUnitLedger Reg.fldUnitStat; omega

/-- A status bit of a ledger shows neither presence nor class, nor another unit. -/
theorem tends_setB (v w : Nat) (s : State) {i : Nat} (b : Bool) (hi : i < 29) : tends v s (s.setB (Reg.fldUnitStat w) i b) := by
  by_cases hw : v = w
  · subst hw
    exact ⟨rfl, State.b_setB_ne _ _ _ (by omega), State.f_setB_outside _ _ _ (by omega)⟩
  · exact tends_of_rd rfl (State.rd_setB_ne _ _ _ (by unfold Reg.fldUnitStat; omega))

theorem unit_setUnit_self (s : State) (v : Nat) (x : UnitSt) : (s.setUnit v x).unit v = x := by
  rw [State.unit, State.setUnit, State.onFld, nget_nset_self]

theorem unit_setUnit_ne (s : State) {v w : Nat} (x : UnitSt) (h : v ≠ w) : (s.setUnit w x).unit v = s.unit v := by
  rw [State.unit, State.setUnit, State.onFld, nget_nset_ne _ _ _ h, State.unit]

/-! ### A ledger is dropped (R373, R380) -/

theorem dropLedger_none (s : State) {v : Nat} (h : (s.unit v).entry = none) : s.dropLedger v = s := by rw [State.dropLedger, h]

theorem dropLedger_tends (s : State) {v w : Nat} (h : w = v → (s.unit v).entry = none) : tends v s (s.dropLedger w) := by
  unfold State.dropLedger
  cases he : (s.unit w).entry with
  | none => exact tends.refl v s
  | some k =>
    have hne : v ≠ w := fun e => by rw [← e, h e.symm] at he; cases he
    have hset : tends v s ((s.setUnit w { s.unit w with entry := none }).onFld fun f => { f with gone := f.gone.filter (· ≠ k) ++ [k] }) :=
      ⟨unit_setUnit_ne s _ hne, rfl, rfl⟩
    exact (((hset.trans (tends_setB v w _ _ (by decide))).trans (tends_setB v w _ _ (by decide))).trans (tends_setB v w _ _ (by decide))).trans
      (tends_wr v _ _ (unitLedger_ne_stat v w))

theorem dropLedger_keeps (s : State) (v : Nat) : (s.dropLedger v).keep = s.keep ∧ (s.dropLedger v).fld.writing = s.fld.writing := by
  unfold State.dropLedger
  split <;> exact ⟨rfl, rfl⟩

theorem refreshAmps_fld (s : State) : s.refreshAmps.fld = s.fld := by
  unfold State.refreshAmps
  refine forAll_field State.fld _ _ (fun n _ t => ?_) s
  split <;> rfl

/-! ### Lamp boards (R372, R381, R382) -/

theorem lampBoardPoll_shows (n : Nat) (v : Nat) (s : State) (hn : n < 8) (hp : s.lgt.placed = true)
    (hv : (s.unit (512 + n)).record = [] ∨ v ≠ le (s.unit (512 + n)).record 8 8) :
    let t := lampBoardPoll n (some v) s
    t.unit (512 + n) = UnitSt.init ∧ t.rd (Reg.fldUnitStat (512 + n)) = 0 ∧ t.rd (Reg.fldUnitLedger (512 + n)) = 0 ∧
      512 + n ∉ t.fld.writing ∧ t.keep = s.keep := by
  obtain ⟨x, hx⟩ : ∃ x, x = (((((s.dropLedger (512 + n)).setUnit (512 + n) UnitSt.init).onFld fun f =>
      { f with writing := f.writing.filter (· ≠ 512 + n), pages := ndel (512 + n) f.pages }).wr (Reg.fldUnitStat (512 + n)) 0).wr
        (Reg.fldUnitLedger (512 + n)) 0) := ⟨_, rfl⟩
  have ht : lampBoardPoll n (some v) s = x.refreshAmps := by
    unfold lampBoardPoll
    dsimp only
    rw [if_neg, hx]
    simp only [hp, Bool.not_true, Bool.false_eq_true, false_or, not_and]
    exact fun h e => hv.elim h (fun h2 => h2 e)
  have hh := x.refreshAmps_housed
  rw [ht]
  refine ⟨?_, ?_, ?_, ?_, ?_⟩
  · rw [State.unit_congr (housed_units hh), hx]
    exact (State.unit_congr rfl _).trans (unit_setUnit_self (s.dropLedger (512 + n)) (512 + n) UnitSt.init)
  · rw [housed_rd hh (by unfold Reg.fldUnitStat; omega) (by unfold Reg.fldUnitStat; omega), hx,
      State.rd_wr_ne _ _ (unitLedger_ne_stat _ _).symm, State.rd_wr_self]
  · rw [housed_rd hh (by unfold Reg.fldUnitLedger; omega) (by unfold Reg.fldUnitLedger; omega), hx, State.rd_wr_self]
  · rw [refreshAmps_fld, hx]
    exact fun hm => by simpa using (List.mem_filter.mp hm).2
  · rw [housed_keep hh, hx]
    exact (dropLedger_keeps s _).1

theorem lampBoardWriteDone_ok (n : Nat) (s : State) (page : List Byte) (hw : 512 + n ∈ s.fld.writing)
    (hp : nfind (512 + n) s.fld.pages = some page) : lampBoardWriteDone n true s =
      (s.onFld fun f => { f with pages := ndel (512 + n) f.pages }).send (.lampWrite n 0xB0 page) := by
  unfold lampBoardWriteDone
  dsimp only
  rw [if_neg (by simp [hw]), if_neg (by decide), hp]

theorem lampBoardWriteDone_ends (n : Nat) (ok : Bool) (s : State) (hw : 512 + n ∈ s.fld.writing)
    (h : ok = false ∨ nfind (512 + n) s.fld.pages = none) :
    (lampBoardWriteDone n ok s).fld.writing = s.fld.writing.filter (· ≠ 512 + n) ∧ (lampBoardWriteDone n ok s).out = s.out ∧
      (lampBoardWriteDone n ok s).keep = s.keep := by
  unfold lampBoardWriteDone
  dsimp only
  rw [if_neg (by simp [hw])]
  cases ok with
  | false => exact ⟨congrArg FldSt.writing (State.raise_fld ..), State.raise_out .., State.raise_keep ..⟩
  | true =>
    rw [if_neg (by decide), h.resolve_left (by decide)]
    exact ⟨rfl, rfl, rfl⟩

/-! ### Ledgers advance (R377 to R381) -/

/-- From `s` to `t` only ledger entries that `K` holds age, and none goes back; beside them the keep RAM's wakes, the units and the lighting
half are as they were. -/
def agedBy (K : Nat → Prop) (s t : State) : Prop := t.lgt = s.lgt ∧ t.fld.units = s.fld.units ∧ t.keep.wakes = s.keep.wakes ∧
  ∀ k, (t.keep.entry k).serial = (s.keep.entry k).serial ∧ (¬ K k → t.keep.entry k = s.keep.entry k) ∧
    ((s.keep.entry k).hours ≤ 0xFFFFFFFF → (s.keep.entry k).hours ≤ (t.keep.entry k).hours ∧ (t.keep.entry k).hours ≤ 0xFFFFFFFF)

section
variable {K : Nat → Prop} {s t u : State}

theorem agedBy_of_keep (hl : t.lgt = s.lgt) (hu : t.fld.units = s.fld.units) (hk : t.keep = s.keep) : agedBy K s t := by
  rw [agedBy, hk]
  exact ⟨hl, hu, rfl, fun _ => ⟨rfl, fun _ => rfl, fun h => ⟨le_rfl, h⟩⟩⟩

theorem agedBy_of_housed (h : t.housed = s.housed) : agedBy K s t := agedBy_of_keep (housed_lgt h) (housed_units h) (housed_keep h)

theorem agedBy.trans (h : agedBy K s t) (h2 : agedBy K t u) : agedBy K s u := by
  obtain ⟨hl, hu, hw, hk⟩ := h
  obtain ⟨hl2, hu2, hw2, hk2⟩ := h2
  refine ⟨hl2.trans hl, hu2.trans hu, hw2.trans hw, fun k => ?_⟩
  obtain ⟨hs, he, hh⟩ := hk k
  obtain ⟨hs2, he2, hh2⟩ := hk2 k
  exact ⟨hs2.trans hs, fun h => (he2 h).trans (he h), fun h => ⟨(hh h).1.trans (hh2 (hh h).2).1, (hh2 (hh h).2).2⟩⟩

end

theorem entry_setEntry_self (r : KeepRam) (k : Nat) (l : Ledger) : (r.setEntry k l).entry k = l := by
  rw [KeepRam.entry, KeepRam.setEntry, nget_nset_self]

theorem entry_setEntry_ne (r : KeepRam) {j k : Nat} (l : Ledger) (h : j ≠ k) : (r.setEntry k l).entry j = r.entry j := by
  rw [KeepRam.entry, KeepRam.setEntry, nget_nset_ne _ _ _ h, KeepRam.entry]

/-- An entry that is held takes a state with the same serial and no fewer hours. -/
theorem agedBy_setLedger {K : Nat → Prop} (s : State) {k : Nat} {l : Ledger} (hk : K k) (hs : l.serial = (s.keep.entry k).serial)
    (hh : (s.keep.entry k).hours ≤ 0xFFFFFFFF → (s.keep.entry k).hours ≤ l.hours ∧ l.hours ≤ 0xFFFFFFFF) : agedBy K s (s.setLedger k l) := by
  refine ⟨rfl, rfl, rfl, fun j => ?_⟩
  by_cases hj : j = k
  · subst hj
    rw [show (s.setLedger j l).keep.entry j = l from entry_setEntry_self ..]
    exact ⟨hs, fun h => absurd hk h, hh⟩
  · rw [show (s.setLedger k l).keep.entry j = s.keep.entry j from entry_setEntry_ne _ _ hj]
    exact ⟨rfl, fun _ => rfl, fun h => ⟨le_rfl, h⟩⟩

/-- `CAPPED`, `WORN` and `SAT` are shown, and noted in the entry. -/
theorem ledgerShows_form (s : State) (u k : Nat) : ∃ (l : Ledger) (t : State) (a b c : Bool), t.housed = (s.setLedger k l).housed ∧
    l.serial = (s.keep.entry k).serial ∧ l.hours = (s.keep.entry k).hours ∧
    s.ledgerShows u k = ((t.setB (Reg.fldUnitStat u) 26 a).setB (Reg.fldUnitStat u) 25 b).setB (Reg.fldUnitStat u) 24 c := by
  obtain ⟨c, hc⟩ : ∃ c, c = lifeComp (s.unit u).record (s.keep.entry k).hours := ⟨_, rfl⟩
  obtain ⟨worn, hworn⟩ : ∃ b, b = decide (144 * le (s.unit u).record 0x60 4 ≤ 10 * (s.keep.entry k).hours) := ⟨_, rfl⟩
  obtain ⟨sat, hsat⟩ : ∃ b, b = decide ((s.keep.entry k).hours = 0xFFFFFFFF) := ⟨_, rfl⟩
  unfold State.ledgerShows
  dsimp only
  rw [← hc, ← hworn, ← hsat]
  obtain ⟨l, hl⟩ : ∃ l : Ledger, l = { s.keep.entry k with comp := c.1, worn := (s.keep.entry k).worn || worn, sat := (s.keep.entry k).sat || sat } :=
    ⟨_, rfl⟩
  rw [← hl]
  refine ⟨l, onlyIf (sat && !(s.keep.entry k).sat) (fun t => t.raise .lifeSat u u)
    (onlyIf (worn && !(s.keep.entry k).worn) (fun t => t.raise .life90 u u) (s.setLedger k l)), _, _, _, ?_, by rw [hl], by rw [hl], rfl⟩
  rw [onlyIf_housed _ (fun t => t.raise .lifeSat u u) _ (State.raise_housed ..),
    onlyIf_housed _ (fun t => t.raise .life90 u u) _ (State.raise_housed ..)]

theorem ledgerShows_aged {K : Nat → Prop} (s : State) (u : Nat) {k : Nat} (hk : K k) : agedBy K s (s.ledgerShows u k) := by
  obtain ⟨l, t, a, b, c, ht, hs, hh, he⟩ := ledgerShows_form s u k
  rw [he]
  exact ((agedBy_setLedger s hk hs fun h => ⟨hh.ge, hh.trans_le h⟩).trans (agedBy_of_housed ht)).trans (agedBy_of_keep rfl rfl rfl)

theorem ledgerShows_tends (s : State) {u : Nat} (hu : u < 520) (k : Nat) : tends u s (s.ledgerShows u k) := by
  obtain ⟨l, t, a, b, c, ht, hs, hh, he⟩ := ledgerShows_form s u k
  rw [he]
  have h1 : tends u s (s.setLedger k l) := tends_of_rd rfl rfl
  exact (((h1.trans (tends_of_housed hu ht)).trans (tends_setB u u _ _ (by decide))).trans (tends_setB u u _ _ (by decide))).trans
    (tends_setB u u _ _ (by decide))

/-- A write-back changes its unit's entry alone, and not its serial or hours. -/
theorem writeBack_form (s : State) (u : Nat) : s.writeBack u = s ∨ ∃ k l, (s.unit u).entry = some k ∧
    (s.writeBack u).housed = (s.setLedger k l).housed ∧ l.serial = (s.keep.entry k).serial ∧ l.hours = (s.keep.entry k).hours := by
  unfold State.writeBack
  cases he : (s.unit u).entry with
  | none => exact .inl rfl
  | some k =>
    dsimp only
    by_cases hw : s.fld.writing.contains u = true
    · exact .inl (if_pos hw)
    · rw [if_neg hw]
      refine .inr ⟨k, { s.keep.entry k with wseq := ((s.keep.entry k).wseq + 1) % 2 ^ 32, written := some (s.keep.entry k).hours }, rfl, ?_, rfl, rfl⟩
      split
      · exact (State.send_housed ..).trans (housed_with_fld ..)
      · split
        · exact (State.request_housed ..).trans (housed_with_fld ..)
        · exact State.writeBackFailed_housed ..

theorem writeBack_aged {K : Nat → Prop} (s : State) (u : Nat) (hK : ∀ k, (s.unit u).entry = some k → K k) : agedBy K s (s.writeBack u) := by
  obtain h | ⟨k, l, he, hh, hs, hl⟩ := writeBack_form s u
  · rw [h]
    exact agedBy_of_keep rfl rfl rfl
  · exact (agedBy_setLedger s (hK k he) hs fun h => ⟨hl.ge, hl.trans_le h⟩).trans (agedBy_of_housed hh)

theorem writeBack_tends (s : State) {u : Nat} (hu : u < 520) : tends u s (s.writeBack u) := by
  obtain h | ⟨k, l, he, hh, hs, hl⟩ := writeBack_form s u
  · rw [h]
    exact tends.refl u s
  · exact (show tends u s (s.setLedger k l) from tends_of_rd rfl rfl).trans (tends_of_housed hu hh)

theorem agedBy_onlyIf {K : Nat → Prop} {s : State} (c : Bool) (g : State → State) (h : agedBy K s (g s)) : agedBy K s (onlyIf c g s) := by
  cases c
  · exact agedBy_of_keep rfl rfl rfl
  · exact h

/-- One second of a unit ages only entries that units hold. -/
theorem ledgerSecond_aged {K : Nat → Prop} (s : State) (u : Nat) {k : Nat} (hk : K k) (hK : ∀ v j, (s.unit v).entry = some j → K j) :
    agedBy K s (s.ledgerSecond u k) := by
  unfold State.ledgerSecond
  dsimp only
  obtain ⟨d, hd⟩ : ∃ d, d = (s.keep.entry k).frac + ((s.unitStrings u).map (s.wear (s.unit u).record)).foldl max 0 := ⟨_, rfl⟩
  rw [← hd]
  have hset : agedBy K s (s.setLedger k { s.keep.entry k with
      hours := min ((s.keep.entry k).hours + d / (225 * 2 ^ 20)) 0xFFFFFFFF, frac := d % (225 * 2 ^ 20) }) :=
    agedBy_setLedger s hk rfl fun h => ⟨le_min (Nat.le_add_right ..) h, min_le_right ..⟩
  generalize s.setLedger k { s.keep.entry k with
      hours := min ((s.keep.entry k).hours + d / (225 * 2 ^ 20)) 0xFFFFFFFF, frac := d % (225 * 2 ^ 20) } = t at hset ⊢
  split
  · exact hset
  · have hshow : agedBy K s (t.ledgerShows u k).refreshAmps :=
      (hset.trans (ledgerShows_aged t u hk)).trans (agedBy_of_housed (State.refreshAmps_housed _))
    refine hshow.trans (agedBy_onlyIf _ (fun t => t.writeBack u) (writeBack_aged _ u fun j hj => hK u j ?_))
    rw [← hj, State.unit_congr hshow.2.1]

theorem nfind_mem {α : Type} {k : Nat} {m : NMap α} {x : α} (h : nfind k m = some x) : (k, x) ∈ m := by
  induction m with
  | nil => cases h
  | cons e m ih =>
    obtain ⟨i, v⟩ := e
    unfold nfind at h
    split at h
    next hi =>
      cases h
      exact hi ▸ List.mem_cons_self
    next => exact List.mem_cons_of_mem _ (ih h)

theorem ledgerAdvance_shows (s : State) (h : s.nvs.powerDown = false) : (ledgerAdvance s).lgt = { s.lgt with duties := [] } ∧
    (ledgerAdvance s).keep.wakes = s.keep.wakes ∧ ∀ k, ((ledgerAdvance s).keep.entry k).serial = (s.keep.entry k).serial ∧
      ((∀ p ∈ s.fld.units, p.2.entry ≠ some k) → (ledgerAdvance s).keep.entry k = s.keep.entry k) ∧
      ((s.keep.entry k).hours ≤ 0xFFFFFFFF → (s.keep.entry k).hours ≤ ((ledgerAdvance s).keep.entry k).hours ∧
        ((ledgerAdvance s).keep.entry k).hours ≤ 0xFFFFFFFF) := by
  rw [ledgerAdvance, if_neg (by simp [h])]
  have hheld : ∀ v j, (s.unit v).entry = some j → ∃ p ∈ s.fld.units, p.2.entry = some j := by
    intro v j hj
    rw [State.unit, nget] at hj
    cases hf : nfind v s.fld.units with
    | none =>
      rw [hf] at hj
      cases hj
    | some x =>
      rw [hf] at hj
      exact ⟨_, nfind_mem hf, hj⟩
  have haged : agedBy (fun k => ∃ p ∈ s.fld.units, p.2.entry = some k) s (forAll (s.fld.units.filterMap fun p => p.2.entry.map fun k => (p.1, k))
      (fun p t => t.ledgerSecond p.1 p.2) s) := by
    refine forAll_keeps (fun t => agedBy _ s t) _ _ s (fun p hp t ht => ?_) (agedBy_of_keep rfl rfl rfl)
    obtain ⟨q, hq, hqe⟩ := List.mem_filterMap.mp hp
    obtain ⟨k, hk, rfl⟩ := Option.map_eq_some_iff.mp hqe
    refine ht.trans (ledgerSecond_aged t _ ⟨q, hq, hk⟩ fun v j hj => hheld v j ?_)
    rw [← hj, State.unit_congr ht.2.1]
  obtain ⟨hl, hu, hw, hk⟩ := haged
  refine ⟨by rw [← hl]; rfl, hw, fun k => ⟨(hk k).1, fun hno => (hk k).2.1 fun ⟨p, hp, he⟩ => hno p hp he, (hk k).2.2⟩⟩

end Sys2Proof.Machine

end
section
/-! PROOF. A unit's record is read (R372 to R380), and lighting and field units as a whole. -/

namespace Sys2Proof.Machine

/-! ### A record keys its ledger (R380) -/

theorem dropLedgers_tends {s t : State} {u : Nat} (he : (s.unit u).entry = none) (h : tends u s t) (l : List Nat) :
    tends u s (forAll l (fun v x => x.dropLedger v) t) :=
  forAll_keeps (fun x => tends u s x) (fun v x => x.dropLedger v) l t
    (fun _ _ x hx => hx.trans (dropLedger_tends x fun _ => by rw [hx.1]; exact he)) h

/-- A unit is keyed to entry `k`, which takes the state `x`: other units lose it, a new entry and a full table are reported. -/
def State.keyedTo (s : State) (u : Nat) (bytes : List Byte) (k : Nat) (x : Ledger) (full new : Bool) : State :=
  let t := s.setLedger k x
  let t := forAll ((t.fld.units.filter fun p => p.2.entry == some k).map (·.1)) (fun v t => t.dropLedger v) t
  let t := onlyIf full (fun t => t.raise .fldTableFull u u) (t.onFld fun f => { f with gone := f.gone.filter (· ≠ k) })
  let t := onlyIf new (fun t => (onlyIf t.nvs.ledgersDone (·.writeLedgers) t).raise .fldUnitNew u u) t
  (t.setUnit u { record := bytes, entry := some k, seen := true }).wr (Reg.fldUnitLedger u) (BitVec.ofNat 32 (0x80 + k))

theorem keyLedger_form (s : State) (u : Nat) (bytes : List Byte) : ∃ k x full new first,
    s.keyLedger u bytes = onlyIf first (fun t => t.writeBack u) ((s.keyedTo u bytes k x full new).ledgerShows u k) := by
  unfold State.keyLedger
  dsimp only
  split <;> exact ⟨_, _, _, _, _, rfl⟩

theorem keyedTo_shows (s : State) {u : Nat} (hu : u < 520) (he : (s.unit u).entry = none) (bytes : List Byte) (k : Nat) (x : Ledger)
    (full new : Bool) : ((s.keyedTo u bytes k x full new).unit u).record = bytes ∧
      (s.keyedTo u bytes k x full new).b (Reg.fldUnitStat u) 31 = s.b (Reg.fldUnitStat u) 31 ∧
      (s.keyedTo u bytes k x full new).f (Reg.fldUnitStat u) 30 29 = s.f (Reg.fldUnitStat u) 30 29 := by
  unfold State.keyedTo
  dsimp only
  have hdrop := dropLedgers_tends he (tends_of_rd rfl rfl : tends u s (s.setLedger k x))
    (((s.setLedger k x).fld.units.filter fun p => p.2.entry == some k).map (·.1))
  generalize forAll _ (fun v t => t.dropLedger v) (s.setLedger k x) = d at hdrop ⊢
  have hgone : tends u s (d.onFld fun f => { f with gone := f.gone.filter (· ≠ k) }) := hdrop.trans (tends_of_rd rfl rfl)
  have hnew := (hgone.trans (tends_onlyIf full (fun t => t.raise .fldTableFull u u) (tends_of_housed hu (State.raise_housed ..)))).trans
    (tends_onlyIf new (fun t => (onlyIf t.nvs.ledgersDone (·.writeLedgers) t).raise .fldUnitNew u u)
      (tends_of_housed hu ((State.raise_housed ..).trans (onlyIf_housed _ _ _ (State.writeLedgers_housed _)))))
  generalize onlyIf new _ _ = v at hnew ⊢
  have hstat := State.rd_wr_ne (v.setUnit u { record := bytes, entry := some k, seen := true }) (BitVec.ofNat 32 (0x80 + k))
    (unitLedger_ne_stat u u).symm
  exact ⟨congrArg UnitSt.record (unit_setUnit_self v u _), (State.b_of_rd hstat _).trans hnew.2.1, (State.f_of_rd hstat _ _).trans hnew.2.2⟩

/-- A unit that is keyed has the record read; its class shows as before. -/
theorem keyLedger_shows (s : State) {u : Nat} (hu : u < 520) (he : (s.unit u).entry = none) (bytes : List Byte) :
    ((s.keyLedger u bytes).unit u).record = bytes ∧ (s.keyLedger u bytes).b (Reg.fldUnitStat u) 31 = s.b (Reg.fldUnitStat u) 31 ∧
      (s.keyLedger u bytes).f (Reg.fldUnitStat u) 30 29 = s.f (Reg.fldUnitStat u) 30 29 := by
  obtain ⟨k, x, full, new, first, hform⟩ := keyLedger_form s u bytes
  obtain ⟨hrec, hb, hf⟩ := keyedTo_shows s hu he bytes k x full new
  obtain ⟨h1, h2, h3⟩ := (ledgerShows_tends (s.keyedTo u bytes k x full new) hu k).trans
    (tends_onlyIf first (fun t => t.writeBack u) (writeBack_tends _ hu))
  rw [hform]
  exact ⟨by rw [h1, hrec], h2.trans hb, h3.trans hf⟩

/-! ### A record is read (R375, R376) -/

theorem classify_lt (anchors : List (List Byte)) (bytes : List Byte) : (classify anchors bytes).1 < 3 := by
  unfold classify
  dsimp only
  split
  · decide
  · split
    · exact Nat.lt_succ_self 2
    · exact Nat.one_lt_succ_succ 1

theorem bf_ofNat (n hi lo : Nat) : bf (BitVec.ofNat 32 n) hi lo = n % 2 ^ 32 / 2 ^ lo % 2 ^ (hi + 1 - lo) := by
  rw [bf, BitVec.extractLsb'_toNat, BitVec.toNat_ofNat, Nat.shiftRight_eq_div_pow]

/-- `FLD_UNIT_STAT` as a read leaves it shows that the record is there, and its class. -/
theorem unitStat_fields (present : Bool) {trust a b c : Nat} (ht : trust < 3) :
    bit (BitVec.ofNat 32 (present.toNat * 2 ^ 31 + trust * 2 ^ 29 + a % 4 * 2 ^ 27 + b % 16 * 2 ^ 20 + c % 4 * 2 ^ 18)) 31 = present ∧
      bf (BitVec.ofNat 32 (present.toNat * 2 ^ 31 + trust * 2 ^ 29 + a % 4 * 2 ^ 27 + b % 16 * 2 ^ 20 + c % 4 * 2 ^ 18)) 30 29 = trust := by
  have hp : present.toNat < 2 := Bool.toNat_lt present
  constructor
  · rw [bit, BitVec.getLsbD_ofNat, Nat.testBit_eq_decide_div_mod_eq]
    cases present <;> simp only [Bool.toNat_true, Bool.toNat_false] <;> simp <;> omega
  · rw [bf_ofNat]
    omega

/-- The status word of a unit just read (R375). -/
def unitStatOf (anchors : List (List Byte)) (r : Option (List Byte)) : Word :=
  BitVec.ofNat 32 (r.isSome.toNat * 2 ^ 31 + (classify anchors (r.getD [])).1 * 2 ^ 29 + le (r.getD []) 5 1 % 4 * 2 ^ 27 +
    (classify anchors (r.getD [])).2 % 16 * 2 ^ 20 + le (r.getD []) 4 1 % 4 * 2 ^ 18)

/-- A unit whose record has been read, before its class is reported and its ledger keyed. -/
def State.recordTaken (s : State) (u : Nat) (r : Option (List Byte)) : State :=
  (((s.dropLedger u).wr (Reg.fldUnitStat u) (unitStatOf s.loader.anchors r)).wr (Reg.fldUnitLedger u) 0).setUnit u
    { record := r.getD [], entry := none, seen := true }

/-- A unit that has a ledger is keyed to its entry, and amplitudes follow. -/
def State.recordKeyed (s : State) (u : Nat) (bytes : List Byte) : State := (if s.hasLedger u then s.keyLedger u bytes else s).refreshAmps

theorem unitRead_eq (s : State) (u : Nat) (r : Option (List Byte)) : s.unitRead u r =
    (onlyIf ((classify s.loader.anchors (r.getD [])).1 ≠ 2) (fun t => t.raise .fldUntrusted u u) (s.recordTaken u r)).recordKeyed u (r.getD []) :=
  rfl

theorem unitStatOf_fields (anchors : List (List Byte)) (r : Option (List Byte)) :
    bit (unitStatOf anchors r) 31 = r.isSome ∧ bf (unitStatOf anchors r) 30 29 = (classify anchors (r.getD [])).1 := by
  unfold unitStatOf
  exact unitStat_fields r.isSome (classify_lt anchors (r.getD []))

theorem recordTaken_shows (s : State) (u : Nat) (r : Option (List Byte)) :
    (s.recordTaken u r).unit u = { record := r.getD [], entry := none, seen := true } ∧
      (s.recordTaken u r).b (Reg.fldUnitStat u) 31 = r.isSome ∧
      (s.recordTaken u r).f (Reg.fldUnitStat u) 30 29 = (classify s.loader.anchors (r.getD [])).1 ∧
      (s.recordTaken u r).rd (Reg.fldUnitLedger u) = 0 ∧ (s.recordTaken u r).keep = s.keep := by
  unfold State.recordTaken
  obtain ⟨v, hv⟩ : ∃ v, v = ((s.dropLedger u).wr (Reg.fldUnitStat u) (unitStatOf s.loader.anchors r)).wr (Reg.fldUnitLedger u) 0 := ⟨_, rfl⟩
  rw [← hv]
  have hregs : ∀ a, (v.setUnit u { record := r.getD [], entry := none, seen := true }).rd a = v.rd a := State.rd_congr rfl
  have hstat : v.rd (Reg.fldUnitStat u) = unitStatOf s.loader.anchors r := by
    rw [hv, State.rd_wr_ne _ _ (unitLedger_ne_stat u u).symm, State.rd_wr_self]
  have hkeep : v.keep = s.keep := by rw [hv, State.wr_keep, State.wr_keep, (dropLedger_keeps s u).1]
  obtain ⟨h31, hclass⟩ := unitStatOf_fields s.loader.anchors r
  refine ⟨unit_setUnit_self v u _, ?_, ?_, ?_, hkeep⟩
  · rw [State.b, hregs, hstat, h31]
  · rw [State.f, hregs, hstat, hclass]
  · rw [hregs, hv, State.rd_wr_self]

theorem unitRead_shows (s : State) {u : Nat} (hu : u < 520) (r : Option (List Byte)) :
    (s.unitRead u r).b (Reg.fldUnitStat u) 31 = r.isSome ∧
      (s.unitRead u r).f (Reg.fldUnitStat u) 30 29 = (classify s.loader.anchors (r.getD [])).1 ∧
      ((s.unitRead u r).unit u).record = r.getD [] ∧
      ((classify s.loader.anchors (r.getD [])).1 ≠ 2 → ((s.unitRead u r).unit u).entry = none ∧
        (s.unitRead u r).rd (Reg.fldUnitLedger u) = 0 ∧ (s.unitRead u r).keep = s.keep) := by
  obtain ⟨hunit, hb, hf, hled, hkeep⟩ := recordTaken_shows s u r
  rw [unitRead_eq, State.recordKeyed]
  have hraise : (onlyIf ((classify s.loader.anchors (r.getD [])).1 ≠ 2) (fun t => t.raise .fldUntrusted u u) (s.recordTaken u r)).housed =
      (s.recordTaken u r).housed := onlyIf_housed _ _ _ (State.raise_housed ..)
  generalize onlyIf _ (fun t => t.raise Ev.fldUntrusted u u) (s.recordTaken u r) = t at hraise ⊢
  generalize s.recordTaken u r = v at hunit hb hf hled hkeep hraise
  have ht : tends u v t := tends_of_housed hu hraise
  by_cases hl : t.hasLedger u = true
  · rw [if_pos hl]
    have htrust : t.f (Reg.fldUnitStat u) 30 29 = 2 := by
      simp only [State.hasLedger, Bool.and_eq_true, beq_iff_eq] at hl
      exact hl.1.1
    obtain ⟨hrec, hb2, hf2⟩ := keyLedger_shows t hu (by rw [ht.1, hunit]) (r.getD [])
    obtain ⟨h1, h2, h3⟩ := tends_of_housed hu (State.refreshAmps_housed (t.keyLedger u (r.getD [])))
    exact ⟨((h2.trans hb2).trans ht.2.1).trans hb, ((h3.trans hf2).trans ht.2.2).trans hf, by rw [h1, hrec],
      fun hne => absurd ((hf.symm.trans ht.2.2.symm).trans htrust) hne⟩
  · rw [if_neg hl]
    have hh := (State.refreshAmps_housed t).trans hraise
    obtain ⟨h1, h2, h3⟩ := tends_of_housed hu hh
    exact ⟨h2.trans hb, h3.trans hf, by rw [h1, hunit], fun _ => ⟨by rw [h1, hunit],
      (housed_rd hh (by unfold Reg.fldUnitLedger; omega) (by unfold Reg.fldUnitLedger; omega)).trans hled, (housed_keep hh).trans hkeep⟩⟩

end Sys2Proof.Machine

end
section
/-! PROOF. Lighting and field units as a whole (chapters 14 and 15). -/

namespace Sys2Proof.Machine

/-- The four parts of a unit's record that its port gives, and the record they make. -/
def identParts (s : State) (u : Nat) : List (Option (List Byte)) := (upto 4).map fun k => nfind k (s.port (s.lead u)).ident
def identWhole (s : State) (u : Nat) : Option (List Byte) :=
  if ((identParts s u).map (·.getD [])).any (·.isEmpty) then none else some ((identParts s u).map (·.getD [])).flatten

theorem identRecordRead_board {u : Nat} (board : Option (List Byte)) (s : State) (hu : 512 ≤ u) :
    identRecordRead u board s = if s.lgt.placed then s.unitRead u board else s :=
  if_pos (decide_eq_true hu)

theorem identRecordRead_port {u : Nat} (board : Option (List Byte)) (s : State) (hu : u < 512) :
    identRecordRead u board s = if (identParts s u).all Option.isSome then s.unitRead u (identWhole s u) else s :=
  if_neg fun h => absurd (of_decide_eq_true h) (by omega)

theorem all_isSome_iff {α : Type} (l : List (Option α)) : l.all Option.isSome = true ↔ none ∉ l := by
  rw [List.all_eq_true]
  constructor
  · intro h hn
    exact absurd (h none hn) (by simp)
  · intro h x hx
    cases x with
    | none => exact absurd hx h
    | some => rfl

theorem lightMessages (s : State) (h : s.pwr.ld = .running) :
    (s.lgt.inFlight = none → exec .lightMessage s = .next s) ∧ (s.lgt.placed = false → exec .lightMsgTimeout s = .next s) ∧
    (s.lgt.boostOn = false → exec .boostOvervoltage s = .next s) ∧ (s.lgt.restart = false → exec .boostRestart s = .next s) ∧
    (s.lgt.restart = true → completes .boostRestart s fun t => t = { s with lgt := { s.lgt with boostOn := !s.lgt.lost, restart := false } }) := by
  refine ⟨fun hn => ?_, fun hn => ?_, fun hn => ?_, fun hn => ?_, fun hr => completes_of_exec (onLightDie_up boostRestart h) (if_pos hr)⟩
  · exact (onLightDie_up lightMessage h).trans (congrArg Host.Outcome.next (by rw [lightMessage, hn]))
  · exact (onLightDie_up lightMsgTimeout h).trans (congrArg Host.Outcome.next (if_neg (by simp [hn])))
  · exact (onLightDie_up boostOvervoltage h).trans (congrArg Host.Outcome.next (if_neg (by simp [hn])))
  · exact (onLightDie_up boostRestart h).trans (congrArg Host.Outcome.next (if_neg (by simp [hn])))

theorem identRecordRead_shows (u : Fin 520) (board : Option (List Byte)) (s : State) (h : s.pwr.ld = .running) :
    let read := if 512 ≤ u.val then board else identWhole s u
    let trust := (classify s.loader.anchors (read.getD [])).1
    ((512 ≤ u.val ∧ s.lgt.placed = false) ∨ (u.val < 512 ∧ none ∈ identParts s u) → exec (.identRecordRead u board) s = .next s) ∧
    ((512 ≤ u.val ∧ s.lgt.placed = true) ∨ (u.val < 512 ∧ none ∉ identParts s u) → completes (.identRecordRead u board) s fun t =>
      t.b (Reg.fldUnitStat u) 31 = read.isSome ∧ t.f (Reg.fldUnitStat u) 30 29 = trust ∧ (t.unit u).record = read.getD [] ∧
        (trust ≠ 2 → (t.unit u).entry = none ∧ t.rd (Reg.fldUnitLedger u) = 0 ∧ t.keep = s.keep)) := by
  have hexec : exec (.identRecordRead u board) s = .next (identRecordRead u board s) := onLightDie_up (identRecordRead u board) h
  dsimp only
  by_cases hb : 512 ≤ u.val
  · rw [if_pos hb]
    rw [identRecordRead_board board s hb] at hexec
    refine ⟨fun hc => hexec.trans ?_, fun hc => completes_of_exec hexec ?_⟩
    · rw [(hc.resolve_right fun hx => absurd hx.1 (by omega)).2]
      rfl
    · rw [(hc.resolve_right fun hx => absurd hx.1 (by omega)).2]
      exact unitRead_shows s u.isLt board
  · rw [if_neg hb]
    rw [identRecordRead_port board s (by omega)] at hexec
    refine ⟨fun hc => hexec.trans ?_, fun hc => completes_of_exec hexec ?_⟩
    · rw [if_neg fun ha => (all_isSome_iff _).mp ha (hc.resolve_left fun hx => hb hx.1).2]
    · rw [if_pos ((all_isSome_iff _).mpr (hc.resolve_left fun hx => hb hx.1).2)]
      exact unitRead_shows s u.isLt (identWhole s u)

/-- Settles O54: strings, lamps and temperatures leave the boost's settings; reports and write-backs leave a unit's class, and age its entry only. -/
theorem lightingAndFieldUnits : Obligations.LightingAndFieldUnits := by
  unfold Obligations.LightingAndFieldUnits
  refine ⟨fun s h => ?_, fun high s h => ⟨fun hn => ?_, fun hp => ?_⟩, fun m n s h => ?_, fun n s h => ?_,
    fun u board s h => identRecordRead_shows u board s h, fun s h => ⟨fun hd => ?_, fun hd => ?_⟩⟩
  · obtain ⟨hm, ht, ho, hr, hr2⟩ := lightMessages s h
    exact ⟨hm, fun g hg => completes_of_exec (onLightDie_up lightMessage h) (lightMessage_shows s g hg), ht,
      fun hp => completes_of_exec (onLightDie_up lightMsgTimeout h) (lightMsgTimeout_shows s hp),
      fun x => ⟨fun hx => (onLightDie_up (pwmPeriod x) h).trans (congrArg Host.Outcome.next (if_pos (by simp [hx]))),
        fun hx => completes_of_exec (onLightDie_up (pwmPeriod x) h) (pwmPeriod_shows x s hx)⟩, ho,
      fun hb => completes_of_exec (onLightDie_up boostOvervoltage h) (boostOvervoltage_shows s hb), hr, hr2⟩
  · exact (onLightDie_up (neighbourTest high) h).trans (congrArg Host.Outcome.next (if_pos (by simp [hn])))
  · exact completes_of_exec (onLightDie_up (neighbourTest high) h) (neighbourTest_shows high s hp)
  · exact completes_takes h rfl (regWrite_lgtChCtrl s m n 1 n.isLt) (retest_shows n s)
  · dsimp only
    refine ⟨onLightDie_up (lampBoardPoll n none) h, fun v hv => ?_, fun v hp hv => ?_, fun ok => ⟨fun hw => ?_, fun hw hok page hpage => ?_, fun hw he => ?_⟩⟩
    · refine (onLightDie_up (lampBoardPoll n (some v)) h).trans (congrArg Host.Outcome.next (if_pos ?_))
      simpa using hv
    · exact completes_of_exec (onLightDie_up (lampBoardPoll n (some v)) h) (lampBoardPoll_shows n v s n.isLt hp hv)
    · exact (onLightDie_up (lampBoardWriteDone n ok) h).trans (congrArg Host.Outcome.next (if_pos (by simpa using hw)))
    · subst hok
      refine completes_of_exec (onLightDie_up (lampBoardWriteDone n true) h) ?_
      rw [lampBoardWriteDone_ok n s page hw hpage]
      exact ⟨rfl, rfl, nfind_ndel_self _ _⟩
    · exact completes_of_exec (onLightDie_up (lampBoardWriteDone n ok) h) (lampBoardWriteDone_ends n ok s hw he)
  · exact (onLightDie_up ledgerAdvance h).trans (congrArg Host.Outcome.next (if_pos hd))
  · exact completes_of_exec (onLightDie_up ledgerAdvance h) (ledgerAdvance_shows s hd)

end Sys2Proof.Machine

end
section
/-! PROOF. A stroke's audio block closes (R331 to R337). -/

namespace Sys2Proof.Machine

/-! ### Mapping with the state threaded through -/

section
variable {α β : Type} (g : α → State → β × State)

theorem mapState_snd (l : List α) (s : State) : (mapState g l s).2 = forAll l (fun a t => (g a t).2) s := by
  induction l generalizing s with
  | nil => rfl
  | cons a l ih => exact ih (g a s).2

theorem mapState_length (l : List α) (s : State) : (mapState g l s).1.length = l.length := by
  induction l generalizing s with
  | nil => rfl
  | cons a l ih => exact congrArg Nat.succ (ih (g a s).2)

theorem mapState_map {f : β → α} (hf : ∀ a t, f (g a t).1 = a) (l : List α) (s : State) : (mapState g l s).1.map f = l := by
  induction l generalizing s with
  | nil => rfl
  | cons a l ih => exact congrArg₂ List.cons (hf a s) (ih (g a s).2)

theorem mem_mapState {l : List α} {s : State} {b : β} (h : b ∈ (mapState g l s).1) : ∃ a t, b = (g a t).1 := by
  induction l generalizing s with
  | nil => cases h
  | cons a l ih =>
    obtain h | h := List.mem_cons.mp h
    · exact ⟨a, s, h⟩
    · exact ih h

/-- A part that every step leaves is left. -/
theorem mapState_field {γ : Type} (π : State → γ) (h : ∀ a t, π (g a t).2 = π t) (l : List α) (s : State) : π (mapState g l s).2 = π s := by
  rw [mapState_snd]
  exact forAll_field π _ l (fun a _ t => h a t) s

end

/-! ### What gathering the inputs leaves -/

/-- The outputs' gains and ducking, the commit that waits, and the registers of what outputs mix with the count of blocks. -/
def State.mixing (s : State) : NMap Int × NMap Int × Option Nat × (Nat → Word) :=
  (s.aud.gains, s.aud.ducks, s.aud.pend, fun a => if (0x82000 ≤ a ∧ a < 0x8A000) ∨ a = 0x80014 then s.rd a else 0)

/-- The address is neither of the outputs' registers nor that of `AUD_BLOCKS`. -/
def mixFree (a : Nat) : Prop := (a < 0x82000 ∨ 0x8A000 ≤ a) ∧ a ≠ 0x80014

theorem mixing_mk {s t : State} (hg : t.aud.gains = s.aud.gains) (hd : t.aud.ducks = s.aud.ducks) (hp : t.aud.pend = s.aud.pend)
    (hr : ∀ a, ¬ mixFree a → t.rd a = s.rd a) : t.mixing = s.mixing := by
  have hf : (fun a => if (0x82000 ≤ a ∧ a < 0x8A000) ∨ a = 0x80014 then t.rd a else 0) =
      fun a => if (0x82000 ≤ a ∧ a < 0x8A000) ∨ a = 0x80014 then s.rd a else 0 :=
    funext fun a => by
      split
      next h => exact hr a (by unfold mixFree; omega)
      next => rfl
  rw [State.mixing, State.mixing, hg, hd, hp, hf]

theorem mixing_rd {s t : State} (h : t.mixing = s.mixing) {a : Nat} (ha : (0x82000 ≤ a ∧ a < 0x8A000) ∨ a = 0x80014) : t.rd a = s.rd a := by
  have hf := congrFun (congrArg (fun x => x.2.2.2) h) a
  simpa only [State.mixing, ha, if_true] using hf

theorem wr_mixing (s : State) {a : Nat} (v : Word) (h : mixFree a) : (s.wr a v).mixing = s.mixing :=
  mixing_mk rfl rfl rfl fun _ hb => s.rd_wr_ne v fun e => hb (e ▸ h)

theorem raise_mixing (s : State) (e : Ev) (inst data : Nat) : (s.raise e inst data).mixing = s.mixing := by
  obtain ⟨h, hr⟩ := s.raise_only e inst data
  refine mixing_mk (by rw [h]) (by rw [h]) (by rw [h]) fun a ha => hr a (notDrop ?_)
  unfold mixFree at ha
  omega

theorem onlyIf_mixing (c : Bool) (g : State → State) (s : State) (h : (g s).mixing = s.mixing) : (onlyIf c g s).mixing = s.mixing :=
  onlyIf_field State.mixing c g s h

theorem countErr_mixing (s : State) {a : Nat} (n k : Nat) (h : mixFree a) : (s.countErr a n k).mixing = s.mixing :=
  (onlyIf_mixing _ (fun t => t.raise .cntSat (srcOfAddr a) a) _ (raise_mixing ..)).trans (wr_mixing s _ h)

theorem pathFor_mixing (s : State) (i n : Nat) : (s.pathFor i n).2.mixing = s.mixing := by
  unfold State.pathFor
  split
  · split <;> rfl
  · rfl

theorem countZeros_mixing (s : State) (i n : Nat) : (s.countZeros i n).mixing = s.mixing := by
  unfold State.countZeros
  dsimp only
  split
  · split
    · rfl
    · exact countErr_mixing s _ _ (by unfold mixFree; decide)
  · rfl

theorem tdmIn_mixing (s : State) (n w : Nat) : (s.tdmIn n w).2.mixing = s.mixing := by
  unfold State.tdmIn
  have hd : (if bit (s.rd (Reg.audTdmCfg n)) 0 then s.dither n else (0, s)).2.mixing = s.mixing := by split <;> rfl
  dsimp only
  split
  · rfl
  · rfl
  · exact (onlyIf_mixing _ (fun t => t.countPerf (Reg.audTdmClips n) 31 1) _ (wr_mixing _ _ (by unfold mixFree Reg.audTdmClips; omega))).trans hd

theorem tdmLoss_mixing (s : State) (n k : Nat) (stop : Bool) : (s.tdmLoss n k stop).mixing = s.mixing := by
  unfold State.tdmLoss
  split
  · rfl
  · exact (raise_mixing ..).trans (wr_mixing (s.onAudIn (tdmSource k) fun y => { y with lost := stop, lostAt := some (n + 1) }) _
      (by unfold mixFree Reg.audTdmStat; omega))

theorem tdmBlock_mixing (s : State) (n k len : Nat) (raw : List (List (Bool × Bool))) : (s.tdmBlock n k len raw).2.mixing = s.mixing := by
  unfold State.tdmBlock
  dsimp only
  split
  · rfl
  · have h : ∀ l, (mapState (fun f t => mapState (fun w u => u.tdmIn k w) (t.tdmFrame k f) t) l s).2.mixing = s.mixing := fun l =>
      mapState_field _ State.mixing (fun f t => mapState_field _ State.mixing (fun w u => tdmIn_mixing u k w) _ t) l s
    split
    · exact h _
    · exact (tdmLoss_mixing ..).trans (h _)

theorem chimeBlock_mixing (s : State) (c n len : Nat) : (s.chimeBlock c n len).2.mixing = s.mixing := by
  unfold State.chimeBlock
  dsimp only
  split
  · rfl
  · exact wr_mixing (s.onChime c _) _ (by unfold mixFree Reg.audChimeStat; omega)

theorem mixOutputs_congr {s t : State} (h : t.mixing = s.mixing) : t.mixOutputs = s.mixOutputs := by
  have hg : t.aud.gains = s.aud.gains := congrArg Prod.fst h
  have hd : t.aud.ducks = s.aud.ducks := congrArg (fun x => x.2.1) h
  unfold State.mixOutputs
  refine List.filter_congr fun o ho => ?_
  have ho' : o < 512 := List.mem_range.mp ho
  rw [hd]
  have hold : ∀ k, t.oldGain (Reg.audOutSrc o k) = s.oldGain (Reg.audOutSrc o k) := fun k => by rw [State.oldGain, State.oldGain, hg]
  have hon : ∀ k < 8, t.b (Reg.audOutSrc o k) 31 = s.b (Reg.audOutSrc o k) 31 := fun k hk =>
    State.b_of_rd (mixing_rd h (by unfold Reg.audOutSrc; omega)) 31
  congr 1
  rw [Bool.eq_iff_iff, List.any_eq_true, List.any_eq_true]
  refine exists_congr fun k => and_congr_right fun hk => ?_
  rw [hold, hon k (List.mem_range.mp hk)]

/-! ### The matrix -/

theorem clamp20_fits (v : Int) : -524288 ≤ (clamp20 v).1 ∧ (clamp20 v).1 ≤ 524287 := by
  unfold clamp20 clampI
  dsimp only
  omega

/-- An output's block: its length, its samples' range, and what it leaves. -/
theorem mixOutput_shows (s : State) (o len : Nat) (input : Nat → List Int) (plays : Nat → Bool) :
    (s.mixOutput o len input plays).1.length = len ∧ (∀ v ∈ (s.mixOutput o len input plays).1, -524288 ≤ v ∧ v ≤ 524287) ∧
      (s.mixOutput o len input plays).2.2.aud.pend = s.aud.pend ∧
      (s.mixOutput o len input plays).2.2.rd Reg.audBlocks = s.rd Reg.audBlocks := by
  unfold State.mixOutput
  dsimp only
  refine ⟨by simp, fun v hv => ?_, rfl, State.rd_setB_ne _ _ _ (by unfold Reg.audOutStat Reg.audBlocks; omega)⟩
  obtain ⟨e, he, rfl⟩ := List.mem_map.mp hv
  obtain ⟨j, -, rfl⟩ := List.mem_map.mp he
  exact clamp20_fits _

/-- One output of the matrix, with its samples clipped counted. -/
def mixStep (len : Nat) (input : Nat → List Int) (plays : Nat → Bool) (o : Nat) (t : State) : (Nat × List Int) × State :=
  let (l, clips, t) := t.mixOutput o len input plays
  ((o, l), if clips = 0 then t else t.countPerf (Reg.audOutClips o) 31 clips)

theorem mixStep_leaves (len : Nat) (input : Nat → List Int) (plays : Nat → Bool) (o : Nat) (t : State) :
    ((mixStep len input plays o t).2.aud.pend, (mixStep len input plays o t).2.rd Reg.audBlocks) = (t.aud.pend, t.rd Reg.audBlocks) := by
  obtain ⟨-, -, hp, hr⟩ := mixOutput_shows t o len input plays
  unfold mixStep
  dsimp only
  split
  · rw [hp, hr]
  · exact Prod.ext hp ((State.rd_wr_ne _ _ (by unfold Reg.audOutClips Reg.audBlocks; omega)).trans hr)

/-- The inputs of a block: the state once every source, TDM port and chime slot has given its block. -/
def gathered (tdm : List (Fin 8 × List (List (Bool × Bool)))) (n : Nat) (s : State) :
    NMap (List (List Int)) × NMap (List (List Int)) × NMap (List Int) × State :=
  let len := s.blockLen n
  let (streams, s) := mapState (fun i t =>
    let (moved, t) := t.pathFor i n
    ((i, t.sourceBlock i n moved), t.countZeros i n)) s.audStreams s
  let (tdms, s) := mapState (fun k t =>
    let raw := match tdm.find? fun e => e.1.val == k with | some e => e.2 | none => []
    let (b, t) := t.tdmBlock n k len raw
    ((k, b), t)) (upto 8) s
  let (chimes, s) := mapState (fun c t => let (l, t) := t.chimeBlock c n len; ((c, l), t)) ((upto 32).filter fun c => s.b (Reg.audChimeCfg c) 31) s
  (streams, tdms, chimes, s)

theorem gathered_mixing (tdm : List (Fin 8 × List (List (Bool × Bool)))) (n : Nat) (s : State) : (gathered tdm n s).2.2.2.mixing = s.mixing := by
  unfold gathered
  dsimp only
  refine (mapState_field _ State.mixing ?_ _ _).trans ((mapState_field _ State.mixing ?_ _ _).trans (mapState_field _ State.mixing ?_ _ _))
  · exact fun c t => chimeBlock_mixing ..
  · exact fun k t => tdmBlock_mixing ..
  · exact fun i t => (countZeros_mixing ..).trans (pathFor_mixing ..)

/-- The block of the stroke before may close. -/
def State.blockDue (s : State) : Prop := s.audActive = true ∧ s.aud.start ≤ s.clock.stroke.toNat - 1 ∧ s.clock.stroke ≠ 0 ∧
  s.aud.closed ≠ some (s.clock.stroke.toNat - 1)

theorem audBlockClose_idle (tdm : List (Fin 8 × List (List (Bool × Bool)))) (s : State) (h : ¬ s.blockDue) : audBlockClose tdm s = s := by
  unfold audBlockClose
  refine if_pos ?_
  unfold State.blockDue at h
  simp only [Bool.or_eq_true, Bool.not_eq_true', decide_eq_true_eq, beq_iff_eq]
  by_contra hn
  simp only [not_or, Bool.not_eq_false, not_lt] at hn
  exact h ⟨hn.1.1.1, hn.1.1.2, hn.1.2, hn.2⟩

/-- The outputs mixed from the state `u`, and the state after it. -/
def mixedFrom (u : State) (len : Nat) (input : Nat → List Int) (plays : Nat → Bool) : List (Nat × List Int) × State :=
  mapState (mixStep len input plays) u.mixOutputs u

/-- A block that closes: the inputs are gathered, the matrix mixes them, and the paths are judged. -/
theorem audBlockClose_form (tdm : List (Fin 8 × List (List (Bool × Bool)))) (s : State) {n : Nat} (hn : n = s.clock.stroke.toNat - 1)
    (h : s.blockDue) : ∃ input plays ready, ∃ gains : AudSt → NMap Int, ∃ displaced : AudSt → List (Nat × List (Nat × Nat × Nat × Nat)),
    audBlockClose tdm s =
      ((forAll (mixedFrom (gathered tdm n s).2.2.2 (s.blockLen n) input plays).2.audStreams (fun i t => t.judgePath i n)
          (mixedFrom (gathered tdm n s).2.2.2 (s.blockLen n) input plays).2).onAud fun a => { a with
        closed := some n, mixed := (mixedFrom (gathered tdm n s).2.2.2 (s.blockLen n) input plays).1
        ready := ready, toSend := true, gains := gains a, displaced := displaced a }).countPerf Reg.audBlocks 31 1 := by
  have hdue : ¬ (!s.audActive || n < s.aud.start || s.clock.stroke = 0 || s.aud.closed == some n) = true := by
    obtain ⟨h1, h2, h3, h4⟩ := h
    rw [← hn] at h2 h4
    simp only [h1, h3, h4, Bool.or_eq_true, Bool.not_eq_true', decide_eq_true_eq, beq_iff_eq, not_or, not_lt]
    exact ⟨⟨⟨by decide, h2⟩, not_false⟩, not_false⟩
  unfold audBlockClose
  rw [← hn]
  dsimp only [gathered, mixedFrom, mixStep]
  rw [if_neg hdue]
  exact ⟨_, _, _, _, _, rfl⟩

theorem mixedFrom_leaves (u : State) (len : Nat) (input : Nat → List Int) (plays : Nat → Bool) :
    ((mixedFrom u len input plays).2.aud.pend, (mixedFrom u len input plays).2.rd Reg.audBlocks) = (u.aud.pend, u.rd Reg.audBlocks) := by
  unfold mixedFrom
  generalize u.mixOutputs = l
  exact mapState_field (mixStep len input plays) (fun t => (t.aud.pend, t.rd Reg.audBlocks)) (mixStep_leaves len input plays) l u

theorem audBlockClose_shows (tdm : List (Fin 8 × List (List (Bool × Bool)))) (s : State) {n : Nat} (hn : n = s.clock.stroke.toNat - 1)
    (h : s.blockDue) :
    let t := audBlockClose tdm s
    t.aud.closed = some n ∧ t.aud.toSend = true ∧ t.aud.pend = s.aud.pend ∧ t.rd Reg.audBlocks = ovfAdd 31 1 (s.rd Reg.audBlocks) ∧
      t.aud.mixed.map (·.1) = s.mixOutputs ∧ ∀ e ∈ t.aud.mixed, e.2.length = s.blockLen n ∧ ∀ v ∈ e.2, -524288 ≤ v ∧ v ≤ 524287 := by
  obtain ⟨input, plays, ready, gains, displaced, he⟩ := audBlockClose_form tdm s hn h
  have hmix := gathered_mixing tdm n s
  dsimp only
  rw [he]
  generalize (gathered tdm n s).2.2.2 = u at hmix ⊢
  have hleave := mixedFrom_leaves u (s.blockLen n) input plays
  have houts : (mixedFrom u (s.blockLen n) input plays).1.map (·.1) = u.mixOutputs := mapState_map _ (fun _ _ => rfl) _ _
  have hblock : ∀ e ∈ (mixedFrom u (s.blockLen n) input plays).1, e.2.length = s.blockLen n ∧ ∀ v ∈ e.2, -524288 ≤ v ∧ v ≤ 524287 := by
    intro e hm
    obtain ⟨o, t, rfl⟩ := mem_mapState _ hm
    obtain ⟨hl, hv, -, -⟩ := mixOutput_shows t o (s.blockLen n) input plays
    exact ⟨hl, hv⟩
  generalize mixedFrom u (s.blockLen n) input plays = m at houts hblock hleave ⊢
  have hjudge := forAll_field (fun t => (t.aud.pend, t.rd Reg.audBlocks)) (fun i t => t.judgePath i n) m.2.audStreams (fun _ _ _ => rfl) m.2
  obtain ⟨hpend, hblocks⟩ := Prod.mk.inj (hjudge.trans hleave)
  have hp : u.aud.pend = s.aud.pend := congrArg (fun x => x.2.2.1) hmix
  have hb : u.rd Reg.audBlocks = s.rd Reg.audBlocks := mixing_rd hmix (.inr rfl)
  generalize forAll m.2.audStreams (fun i t => t.judgePath i n) m.2 = w at hpend hblocks ⊢
  refine ⟨rfl, rfl, hpend.trans hp, (State.rd_wr_self ..).trans ?_, houts.trans (mixOutputs_congr hmix), hblock⟩
  rw [show (w.onAud _).rd Reg.audBlocks = w.rd Reg.audBlocks from rfl, hblocks, hb]

end Sys2Proof.Machine

end
section
/-! PROOF. A stroke's audio block leaves (R329, R339), and audio as a whole (R328 to R341). -/

namespace Sys2Proof.Machine

/-! ### What leaves -/

/-- From `s` to `t` records have left and none was taken back; the mix, the rate of the strokes and the TDM ports' settings are as they were. -/
def airs (s t : State) : Prop := (∃ l, t.out = s.out ++ l) ∧ t.aud.mixed = s.aud.mixed ∧ t.aud.toSend = s.aud.toSend ∧ t.rates = s.rates ∧
  ∀ k < 8, t.rd (Reg.audTdmCfg k) = s.rd (Reg.audTdmCfg k)

section
variable {s t u : State}

theorem airs.refl (s : State) : airs s s := ⟨⟨[], (List.append_nil _).symm⟩, rfl, rfl, rfl, fun _ _ => rfl⟩

theorem airs.trans (h : airs s t) (h2 : airs t u) : airs s u := by
  obtain ⟨⟨l, hl⟩, hm, ht, hr, hc⟩ := h
  obtain ⟨⟨l2, hl2⟩, hm2, ht2, hr2, hc2⟩ := h2
  exact ⟨⟨l ++ l2, by rw [hl2, hl, List.append_assoc]⟩, hm2.trans hm, ht2.trans ht, hr2.trans hr, fun k hk => (hc2 k hk).trans (hc k hk)⟩

theorem airs_of_regs (ho : t.out = s.out) (hm : t.aud.mixed = s.aud.mixed) (ht : t.aud.toSend = s.aud.toSend) (hr : t.rates = s.rates)
    (hc : t.regs = s.regs) : airs s t :=
  ⟨⟨[], ho.trans (List.append_nil _).symm⟩, hm, ht, hr, fun _ _ => State.rd_congr hc _⟩

theorem airs.blockLen (h : airs s t) (n : Nat) : t.blockLen n = s.blockLen n := by
  obtain ⟨-, -, -, hr, -⟩ := h
  simp only [State.rates, Prod.mk.injEq] at hr
  simp only [State.blockLen, State.sampleEdge, hr.1, hr.2.1]

theorem airs.mem (h : airs s t) {o : Out} (ho : o ∈ s.out) : o ∈ t.out := by
  obtain ⟨⟨l, hl⟩, -⟩ := h
  exact hl ▸ List.mem_append_left l ho

theorem airs_forAll {α : Type} (l : List α) (g : α → State → State) (h : ∀ a ∈ l, ∀ t, airs t (g a t)) (s : State) : airs s (forAll l g s) :=
  forAll_keeps (fun t => airs s t) g l s (fun a ha t ht => ht.trans (h a ha t)) (airs.refl s)

end

theorem airs_onlyIf {s : State} (c : Bool) (g : State → State) (h : airs s (g s)) : airs s (onlyIf c g s) := by
  cases c
  · exact airs.refl s
  · exact h

theorem airs_wr (s : State) {a : Nat} (v : Word) (h : ∀ k < 8, Reg.audTdmCfg k ≠ a) : airs s (s.wr a v) :=
  ⟨⟨[], (List.append_nil _).symm⟩, rfl, rfl, rfl, fun k hk => s.rd_wr_ne v (h k hk)⟩

theorem send_airs (s : State) (o : Out) : airs s (s.send o) := ⟨⟨[o], rfl⟩, rfl, rfl, rfl, fun _ _ => rfl⟩

theorem fresh_airs (s : State) (w : Nat) : airs s (s.fresh w).2 := airs_of_regs rfl rfl rfl rfl rfl

theorem onPort_airs (s : State) (p : Nat) (g : PortSt → PortSt) : airs s (s.onPort p g) := airs_of_regs rfl rfl rfl rfl rfl

theorem injected_airs (s : State) (p n : Nat) : airs s (s.injected p n) :=
  airs_wr s _ fun k hk => by unfold Reg.audTdmCfg Reg.prtRwStat; omega

theorem flipMasks_airs (n : Nat) : ∀ s : State, airs s (s.flipMasks n).2 := by
  induction n with
  | zero => exact airs.refl
  | succ n ih => exact fun s => (fresh_airs s 4).trans (ih _)

theorem corrupted_airs (s : State) (p : Nat) (tx : Bool) (n : Nat) : airs s (s.corrupted p tx n).2.2 := by
  unfold State.corrupted
  split
  · exact (flipMasks_airs n s).trans (injected_airs ..)
  · exact airs.refl s

theorem sendLane_airs (s : State) (p : Nat) (syms : List Sym) (masks : List (BitVec 10)) : airs s (s.sendLane p syms masks) :=
  ((fresh_airs s 1).trans (send_airs _ _)).trans (onPort_airs _ _ _)

theorem sendFrame_airs (s : State) (l : Nat) (o : Out) (syms : List Sym) (masks : List (BitVec 10)) : airs s (s.sendFrame l o syms masks) := by
  unfold State.sendFrame
  dsimp only
  split
  · refine (send_airs s o).trans (airs_forAll _ _ (fun e _ t => ?_) _)
    split
    · exact sendLane_airs ..
    · exact airs.refl t
  · exact airs.refl s

theorem transmit_airs (s : State) (p : Nat) (stream : Option Nat) (poison : Bool) (bs : List Byte) : airs s (s.transmit p stream poison bs) := by
  unfold State.transmit
  dsimp only
  split
  · exact ((onPort_airs _ _ _).trans (injected_airs _ _ _)).trans
      (airs_forAll _ _ (fun e _ t => (corrupted_airs ..).trans (sendFrame_airs ..)) _)
  · exact (corrupted_airs ..).trans (sendFrame_airs ..)

theorem sendPacket_airs (s : State) (i typ line : Nat) (first last : Bool) (flags : Nat) (ws : List Lane) :
    airs s (s.sendPacket i typ line first last flags ws) := by
  unfold State.sendPacket
  split
  · exact (onPort_airs _ _ _).trans (transmit_airs ..)
  · exact airs.refl s

theorem dither_airs (s : State) (n : Nat) : airs s (s.dither n).2 := airs_of_regs rfl rfl rfl rfl rfl

theorem tdmOut_airs (s : State) (n : Nat) (v : Int) : airs s (s.tdmOut n v).2 := by
  have hd : airs s (if bit (s.rd (Reg.audTdmCfg n)) 1 then s.dither n else (0, s)).2 := by
    split
    · exact dither_airs s n
    · exact airs.refl s
  unfold State.tdmOut
  dsimp only
  split
  · exact hd.trans (airs_onlyIf _ (fun t => t.countPerf (Reg.audTdmClips n) 31 1)
      (airs_wr _ _ fun k hk => by unfold Reg.audTdmCfg Reg.audTdmClips; omega))
  · exact airs.refl s
  · exact airs.refl s

theorem mapState_airs {α β : Type} (g : α → State → β × State) (h : ∀ a t, airs t (g a t).2) (l : List α) (s : State) : airs s (mapState g l s).2 := by
  rw [mapState_snd]
  exact airs_forAll l _ (fun a _ t => h a t) s

/-! ### The block leaves -/

/-- The block on its transmit audio streams. -/
def State.sendStreams (n : Nat) (s : State) : State :=
  forAll s.aud.ready (fun (e : Nat × List (List Int)) t =>
    let c := max 1 (t.streamWidth e.1)
    let per := 1024 / c
    let cs := chunks per e.2
    if !t.feature (t.lead (t.streamPort e.1)) 1 then t
    else forAll cs.zipIdx (fun (p : List (List Int) × Nat) u =>
      u.sendPacket e.1 2 (per * p.2) (p.2 == 0) (p.2 + 1 == cs.length) (n % 4 * 8)
        (p.1.flatMap fun f => f.map fun v => BitVec.ofInt 20 v)) t) s

/-- The block on TDM output `k`. -/
def sendTdm (n k : Nat) (t : State) : State :=
  let outs := t.boundOutputs.filter fun o => t.f (Reg.audOutDst o) 31 29 == 2 && t.f (Reg.audOutDst o) 26 16 == k
  let col := fun c => match outs.find? fun o => t.f (Reg.audOutDst o) 3 0 == c with
    | some o => nget (fun _ => []) t.aud.mixed o
    | none => []
  let (words, t) := mapState (fun j u => mapState (fun c v => v.tdmOut k ((col c).getD j 0)) (upto (t.tdmSlots k)) u) (upto (t.blockLen n)) t
  t.send (.tdm k (t.tdmSlotBits k) (t.tdmDelay k) (t.b (Reg.audTdmCfg k) 26) (t.b (Reg.audTdmCfg k) 30) words)

/-- The block on every enabled TDM output. -/
def State.sendTdms (n : Nat) (s : State) : State := forAll ((upto 8).filter fun k => s.b (Reg.audTdmCfg k) 31) (sendTdm n) s

theorem audBlockSend_eq (s : State) (ha : s.audActive = true) (hs : s.aud.toSend = true) : audBlockSend s =
    ((s.onAud fun a => { a with toSend := false }).sendStreams (s.aud.closed.getD 0)).sendTdms (s.aud.closed.getD 0) := by
  have h0 : ¬ (!s.audActive || !s.aud.toSend) = true := by simp [ha, hs]
  refine (if_neg h0).trans ?_
  unfold State.sendTdms State.sendStreams
  generalize s.onAud _ = v
  generalize s.aud.closed.getD 0 = n
  dsimp only
  generalize forAll v.aud.ready _ v = w
  refine congrArg (fun g => forAll _ g w) (funext fun k => funext fun t => ?_)
  unfold sendTdm
  dsimp only <;>
    (generalize upto (t.blockLen n) = times
     generalize upto (t.tdmSlots k) = slots
     generalize List.filter _ t.boundOutputs = outs
     rfl)

theorem sendStreams_airs (n : Nat) (s : State) : airs s (s.sendStreams n) := by
  unfold State.sendStreams
  refine airs_forAll _ _ (fun e _ t => ?_) s
  dsimp only
  split
  · exact airs.refl t
  · exact airs_forAll _ _ (fun p _ u => sendPacket_airs ..) t

theorem sendTdm_shows (n k : Nat) (t : State) : airs t (sendTdm n k t) ∧
    ∃ slot delay rising drives ws, Out.tdm k slot delay rising drives ws ∈ (sendTdm n k t).out ∧ ws.length = t.blockLen n := by
  unfold sendTdm
  dsimp only
  refine ⟨(mapState_airs _ (fun j u => mapState_airs _ (fun c v => tdmOut_airs ..) _ u) _ t).trans (send_airs _ _),
    _, _, _, _, _, List.mem_append_right _ (List.mem_singleton_self _), ?_⟩
  rw [mapState_length, List.length_range]

theorem forAll_sendTdm (n : Nat) (l : List Nat) (t : State) {k : Nat} (hk : k ∈ l) :
    ∃ slot delay rising drives ws, Out.tdm k slot delay rising drives ws ∈ (forAll l (sendTdm n) t).out ∧ ws.length = t.blockLen n := by
  induction l generalizing t with
  | nil => cases hk
  | cons j l ih =>
    have hcons : forAll (j :: l) (sendTdm n) t = forAll l (sendTdm n) (sendTdm n j t) := rfl
    have hrest : airs (sendTdm n j t) (forAll l (sendTdm n) (sendTdm n j t)) := airs_forAll _ _ (fun i _ u => (sendTdm_shows n i u).1) _
    rw [hcons]
    obtain rfl | hk := List.mem_cons.mp hk
    · obtain ⟨slot, delay, rising, drives, ws, hm, hl⟩ := (sendTdm_shows n k t).2
      exact ⟨slot, delay, rising, drives, ws, hrest.mem hm, hl⟩
    · rw [← (sendTdm_shows n j t).1.blockLen n]
      exact ih _ hk

theorem audBlockSend_shows (s : State) (ha : s.audActive = true) (hs : s.aud.toSend = true) :
    let t := audBlockSend s
    t.aud.toSend = false ∧ t.aud.mixed = s.aud.mixed ∧ (∃ l, t.out = s.out ++ l) ∧
      ∀ k < 8, s.b (Reg.audTdmCfg k) 31 = true → ∃ slot delay rising drives ws,
        Out.tdm k slot delay rising drives ws ∈ t.out ∧ ws.length = s.blockLen (s.aud.closed.getD 0) := by
  dsimp only
  rw [audBlockSend_eq s ha hs]
  obtain ⟨v, hv⟩ : ∃ v, v = s.onAud fun a => { a with toSend := false } := ⟨_, rfl⟩
  have hout : v.out = s.out ∧ v.aud.mixed = s.aud.mixed ∧ v.aud.toSend = false ∧ v.regs = s.regs ∧
      v.blockLen (s.aud.closed.getD 0) = s.blockLen (s.aud.closed.getD 0) := hv ▸ ⟨rfl, rfl, rfl, rfl, rfl⟩
  rw [← hv]
  obtain ⟨ho, hm, ht, hr, hb⟩ := hout
  generalize s.aud.closed.getD 0 = n at *
  have h1 := sendStreams_airs n v
  generalize v.sendStreams n = w at h1 ⊢
  have h2 : airs w (w.sendTdms n) :=
    airs_forAll _ _ (fun i _ u => (sendTdm_shows n i u).1) w
  obtain ⟨⟨l, hl⟩, hmix, hsend, -, hcfg⟩ := h1.trans h2
  refine ⟨hsend.trans ht, hmix.trans hm, ⟨l, by rw [hl, ho]⟩, fun k hk hon => ?_⟩
  rw [← hb, ← h1.blockLen n]
  refine forAll_sendTdm n _ w (List.mem_filter.mpr ⟨List.mem_range.mpr hk, ?_⟩)
  obtain ⟨-, -, -, -, hc1⟩ := h1
  rw [State.b_of_rd (hc1 k hk), State.b_congr hr, hon]

/-! ### Converters and TDM ports (R332, R339) -/

theorem asrcJudge_named (s : State) (u : Nat) (h : s.f (Reg.audAsrcCfg u) 30 29 ≠ 2) : ∃ was ok, ok = (match fsNominal[s.f (Reg.audAsrcStat u) 2 0]? with
      | some r => nearRate (s.f (Reg.audAsrcRate u) 23 0) r | none => false) ∧
    s.asrcJudge u = onlyIf was (fun t => t.raise .audAsrcUnlock u u) (s.setB (Reg.audAsrcStat u) 31 ok) := by
  unfold State.asrcJudge
  dsimp only
  rw [if_neg h]
  exact ⟨_, _, rfl, rfl⟩

theorem nearRate_iff (rate nominal : Nat) : nearRate rate nominal = true ↔ 999 * nominal ≤ 1000 * rate ∧ 1000 * rate ≤ 1001 * nominal := by
  simp only [nearRate, Bool.and_eq_true, decide_eq_true_eq]
  exact and_comm

theorem asrcLockChange_shows (u : Nat) (rate : BitVec 24) (s : State) (hu : u < 64) (hon : s.audActive = true ∧ s.b (Reg.audAsrcCfg u) 31 = true)
    (hkind : s.f (Reg.audAsrcCfg u) 30 29 ≠ 2) :
    let t := asrcLockChange u rate.toNat s
    t.f (Reg.audAsrcRate u) 23 0 = rate.toNat ∧ t.aud = s.aud ∧ t.f (Reg.audAsrcStat u) 2 0 = s.f (Reg.audAsrcStat u) 2 0 ∧
      ∀ k nominal, (k, nominal) ∈ [(0, 4800000), (1, 4410000), (2, 3200000), (3, 9600000)] → s.f (Reg.audAsrcStat u) 2 0 = k →
        (t.b (Reg.audAsrcStat u) 31 = true ↔ 999 * nominal ≤ 1000 * rate.toNat ∧ 1000 * rate.toNat ≤ 1001 * nominal) := by
  have hrs : Reg.audAsrcRate u ≠ Reg.audAsrcStat u := by unfold Reg.audAsrcRate Reg.audAsrcStat; omega
  have hrc : Reg.audAsrcRate u ≠ Reg.audAsrcCfg u := by unfold Reg.audAsrcRate Reg.audAsrcCfg; omega
  have hnd : ¬ dropCounter (Reg.audAsrcRate u) ∧ ¬ dropCounter (Reg.audAsrcStat u) :=
    ⟨notDrop (by unfold Reg.audAsrcRate; omega), notDrop (by unfold Reg.audAsrcStat; omega)⟩
  obtain ⟨v, hv⟩ : ∃ v, v = s.setF (Reg.audAsrcRate u) 23 0 (rate.toNat % 2 ^ 24) := ⟨_, rfl⟩
  have hrate : v.f (Reg.audAsrcRate u) 23 0 = rate.toNat := by
    rw [hv, State.f_setF_self _ _ _ _ _ (by decide) (by decide)]
    have := rate.isLt
    omega
  have hstat : v.f (Reg.audAsrcStat u) 2 0 = s.f (Reg.audAsrcStat u) 2 0 := hv ▸ State.f_of_rd (State.rd_setF_ne _ _ _ _ hrs.symm) 2 0
  have hcfg : v.f (Reg.audAsrcCfg u) 30 29 ≠ 2 := by rwa [hv, State.f_of_rd (State.rd_setF_ne _ _ _ _ hrc.symm)]
  obtain ⟨was, ok, hok, hj⟩ := asrcJudge_named v u hcfg
  have ht : asrcLockChange u rate.toNat s = onlyIf was (fun t => t.raise .audAsrcUnlock u u) (v.setB (Reg.audAsrcStat u) 31 ok) := by
    rw [asrcLockChange, if_pos (by simp [hon.1, hon.2]), ← hv, hj]
  have hraise : ∀ a, ¬ dropCounter a → (asrcLockChange u rate.toNat s).rd a = (v.setB (Reg.audAsrcStat u) 31 ok).rd a := fun a ha => by
    rw [ht]
    exact onlyIf_field (fun t => t.rd a) _ _ _ (State.raise_rd _ _ _ _ ha)
  refine ⟨?_, ?_, ?_, fun k nominal hk hfs => ?_⟩
  · rw [State.f_of_rd (hraise _ hnd.1), State.f_of_rd (State.rd_setB_ne _ _ _ hrs), hrate]
  · rw [ht]
    exact (onlyIf_field State.aud _ (fun t => t.raise .audAsrcUnlock u u) _ (State.raise_aud ..)).trans (hv ▸ rfl)
  · rw [State.f_of_rd (hraise _ hnd.2), State.f_setB_outside _ _ _ (by decide), hstat]
  · rw [State.b_of_rd (hraise _ hnd.2), State.b_setB_self _ _ _ _ (by decide), hok, hstat, hfs, hrate]
    simp only [List.mem_cons, Prod.mk.injEq, List.not_mem_nil, or_false] at hk
    obtain ⟨rfl, rfl⟩ | ⟨rfl, rfl⟩ | ⟨rfl, rfl⟩ | ⟨rfl, rfl⟩ := hk <;> exact nearRate_iff ..

theorem countErr_rd_self (s : State) {a : Nat} (n k : Nat) (h : ¬ dropCounter a) : (s.countErr a n k).rd a = (satAdd n k (s.rd a)).1 :=
  (onlyIf_field (fun t => t.rd a) _ (fun t => t.raise .cntSat (srcOfAddr a) a) _ (State.raise_rd _ _ _ _ h)).trans (State.rd_wr_self ..)

theorem countErr_aud (s : State) (a n k : Nat) : (s.countErr a n k).aud = s.aud :=
  (onlyIf_field State.aud _ (fun t => t.raise .cntSat (srcOfAddr a) a) _ (State.raise_aud ..)).trans rfl

theorem tdmFrameError_shows (n : Nat) (s : State) (hn : n < 8) (hon : s.audActive = true) (hcfg : s.b (Reg.audTdmCfg n) 31 = true) :
    let t := tdmFrameError n s
    t.rd (Reg.audTdmFrameErr n) = (satAdd 24 1 (s.rd (Reg.audTdmFrameErr n))).1 ∧ n ∈ t.aud.tdmTold ∧ (n ∈ s.aud.tdmTold → t.aud = s.aud) := by
  have hnd : ¬ dropCounter (Reg.audTdmFrameErr n) := notDrop (by unfold Reg.audTdmFrameErr; omega)
  have hcount := countErr_rd_self s 24 1 hnd
  have haud := countErr_aud s (Reg.audTdmFrameErr n) 24 1
  dsimp only
  rw [tdmFrameError, if_pos (by simp [hon, hcfg])]
  dsimp only
  generalize s.countErr (Reg.audTdmFrameErr n) 24 1 = u at hcount haud ⊢
  by_cases htold : n ∈ s.aud.tdmTold
  · rw [if_pos (by rw [haud]; simpa using htold)]
    exact ⟨hcount, haud ▸ htold, fun _ => haud⟩
  · rw [if_neg (by rw [haud]; simpa using htold)]
    refine ⟨(State.raise_rd _ _ _ _ hnd).trans hcount, ?_, fun h => absurd h htold⟩
    rw [State.raise_aud]
    exact List.mem_append_right _ (List.mem_singleton_self _)

theorem asrcSlip_shows (u : Nat) (s : State) (hon : s.audActive = true ∧ s.b (Reg.audAsrcCfg u) 31 = true) (hu : u < 64) :
    (asrcSlip u s).rd (Reg.audAsrcSlips u) = (satAdd 16 1 (s.rd (Reg.audAsrcSlips u))).1 ∧ (asrcSlip u s).aud = s.aud := by
  have hnd : ¬ dropCounter (Reg.audAsrcSlips u) := notDrop (by unfold Reg.audAsrcSlips; omega)
  rw [asrcSlip, if_pos (by simp [hon.1, hon.2])]
  exact ⟨(State.raise_rd _ _ _ _ hnd).trans (countErr_rd_self s 16 1 hnd), (State.raise_aud ..).trans (countErr_aud ..)⟩

theorem audCommit_shows (w : Word) (s : State) : audCommit (w ||| 0x80000000) s =
    (s.onAud fun a => { a with pend := some (bf w 15 0) }).setB Reg.audCommitStat 31 true := by
  have hgo : bit (w ||| 0x80000000) 31 = true := by simp [bit]
  have hseq : bf (w ||| 0x80000000) 15 0 = bf w 15 0 := bf_congr_bits fun i _ hi => by
    rw [BitVec.getLsbD_or]
    interval_cases i <;> simp
  rw [audCommit, if_pos hgo, hseq]

/-- Settles O53: gathering leaves what the matrix mixes from; packets leave the TDM ports' settings. -/
theorem audioBlocksCloseAndLeaveOnce : Obligations.AudioBlocksCloseAndLeaveOnce := by
  unfold Obligations.AudioBlocksCloseAndLeaveOnce
  refine ⟨fun tdm s h => ⟨fun hd => ?_, fun hd => ?_⟩, fun s h => ⟨fun hd => ?_, fun ha hs => ?_⟩, fun m w s h => ?_,
    fun n s h => ⟨fun hd => ?_, fun ha hc => ?_⟩, fun u s h => ⟨fun rate => ⟨fun hd => ?_, fun hon hk => ?_⟩, fun hd => ?_, fun hon => ?_⟩⟩
  · exact (onCore_fabric (audBlockClose tdm) h).trans (congrArg Host.Outcome.next (audBlockClose_idle tdm s hd))
  · exact completes_of_exec (onCore_fabric (audBlockClose tdm) h) (audBlockClose_shows tdm s rfl hd)
  · refine (onCore_fabric audBlockSend h).trans (congrArg Host.Outcome.next (if_pos ?_))
    simpa using hd
  · exact completes_of_exec (onCore_fabric audBlockSend h) (audBlockSend_shows s ha hs)
  · refine completes_takes h rfl ((regWrite_audCommit s m _).trans (audCommit_shows w s)) ⟨rfl, State.b_setB_self _ _ _ _ (by decide), fun a ha => ?_⟩
    exact State.rd_setB_ne _ _ _ (by simpa using ha)
  · refine (onCore_fabric (tdmFrameError n) h).trans (congrArg Host.Outcome.next (if_neg ?_))
    simp only [Bool.and_eq_true, not_and, Bool.not_eq_true]
    exact fun ha => hd.resolve_left (by simp [ha])
  · exact completes_of_exec (onCore_fabric (tdmFrameError n) h) (tdmFrameError_shows n s n.isLt ha hc)
  · exact (onCore_fabric (asrcLockChange u rate.toNat) h).trans (congrArg Host.Outcome.next (if_neg (by simpa using hd)))
  · exact completes_of_exec (onCore_fabric (asrcLockChange u rate.toNat) h) (asrcLockChange_shows u rate s u.isLt hon hk)
  · exact (onCore_fabric (asrcSlip u) h).trans (congrArg Host.Outcome.next (if_neg (by simpa using hd)))
  · exact completes_of_exec (onCore_fabric (asrcSlip u) h) (asrcSlip_shows u s hon u.isLt)

end Sys2Proof.Machine

end
section
/-! PROOF. What a lane's loss of lock leaves of the ladder (R101, R111, R114). -/

namespace Sys2Proof.Machine

/-! ### A lane out of lock stays out of it -/

/-- The lane waits in DETECT or trains. -/
def State.low (s : State) (p : Nat) : Prop := s.ladder p = 1 ∨ s.ladder p = 2

/-- From `s` to `t` lane `p` has not come into lock and, where it was in DETECT or TRAIN, has not left them; the pins, `RW_CTRL` and the
upper bits of `RW_STAT` are as they were. -/
def dims (p : Nat) (s t : State) : Prop :=
  t.pins = s.pins ∧ (s.b (Reg.prtStat p) 12 = false → t.b (Reg.prtStat p) 12 = false) ∧ (s.low p → t.low p) ∧
    t.rd (Reg.prtRwCtrl p) = s.rd (Reg.prtRwCtrl p) ∧ ∀ i, 29 < i → t.b (Reg.prtRwStat p) i = s.b (Reg.prtRwStat p) i

/-- The address is of none of the three registers of lane `p`. -/
def dimFree (p a : Nat) : Prop := Reg.prtStat p ≠ a ∧ Reg.prtRwCtrl p ≠ a ∧ Reg.prtRwStat p ≠ a

section
variable {p : Nat} {s t u : State}

theorem dims.refl (p : Nat) (s : State) : dims p s s := ⟨rfl, id, id, rfl, fun _ _ => rfl⟩

theorem dims.trans (h : dims p s t) (h2 : dims p t u) : dims p s u := by
  obtain ⟨hp, hb, hl, hc, hw⟩ := h
  obtain ⟨hp2, hb2, hl2, hc2, hw2⟩ := h2
  exact ⟨hp2.trans hp, hb2 ∘ hb, hl2 ∘ hl, hc2.trans hc, fun i hi => (hw2 i hi).trans (hw i hi)⟩

theorem low_of_rd (h : t.rd (Reg.prtStat p) = s.rd (Reg.prtStat p)) : s.low p → t.low p := by
  unfold State.low State.ladder
  rw [State.f_of_rd h]
  exact id

theorem dims_of_rd (hp : t.pins = s.pins) (h : ∀ a, ¬ dimFree p a → t.rd a = s.rd a) : dims p s t := by
  have hs := h (Reg.prtStat p) (by simp [dimFree])
  have hw := h (Reg.prtRwStat p) (by simp [dimFree])
  exact ⟨hp, fun hb => (State.b_of_rd hs 12).trans hb, low_of_rd hs, h _ (by simp [dimFree]), fun i _ => State.b_of_rd hw i⟩

theorem dims_of_regs (hp : t.pins = s.pins) (h : t.regs = s.regs) : dims p s t := dims_of_rd hp fun a _ => State.rd_congr h a

theorem dims_wr (s : State) {a : Nat} (v : Word) (h : dimFree p a) : dims p s (s.wr a v) :=
  dims_of_rd rfl fun _ hb => s.rd_wr_ne v fun e => hb (e ▸ h)

theorem dims_setB (s : State) {a : Nat} (i : Nat) (v : Bool) (h : dimFree p a) : dims p s (s.setB a i v) := dims_wr s _ h

theorem dims_setF (s : State) {a : Nat} (hi lo v : Nat) (h : dimFree p a) : dims p s (s.setF a hi lo v) := dims_wr s _ h

theorem dims_forAll {α : Type} (l : List α) (g : α → State → State) (h : ∀ a ∈ l, ∀ t, dims p t (g a t)) (s : State) :
    dims p s (forAll l g s) :=
  forAll_keeps (fun t => dims p s t) g l s (fun a ha t ht => ht.trans (h a ha t)) (dims.refl p s)

theorem dims_onlyIf (c : Bool) (g : State → State) (h : dims p s (g s)) : dims p s (onlyIf c g s) := by
  cases c
  · exact dims.refl p s
  · exact h

theorem dims_ite (c : Prop) [Decidable c] (h : dims p s t) (h2 : dims p s u) : dims p s (if c then t else u) := by
  split <;> assumption

theorem dims_of_spares {M : Nat → Nat → Prop} (hp : t.pins = s.pins) (h : spares M s t) (hs : ∀ i, i = 12 ∨ i ≤ 2 → ¬ M (Reg.prtStat p) i)
    (hc : ∀ i, ¬ M (Reg.prtRwCtrl p) i) (hw : ∀ i, 29 < i → ¬ M (Reg.prtRwStat p) i) : dims p s t := by
  refine ⟨hp, fun hb => (h _ _ (hs 12 (.inl rfl))).trans hb, fun hl => ?_, h.rd hc, fun i hi => h _ _ (hw i hi)⟩
  unfold State.low State.ladder at *
  rwa [h.f fun i _ hi => hs i (.inr hi)]

end

theorem dimFree_mod {p a : Nat} (h : a % 0x800 ≠ Reg.prtStat 0 % 0x800 ∧ a % 0x800 ≠ Reg.prtRwCtrl 0 % 0x800 ∧ a % 0x800 ≠ Reg.prtRwStat 0 % 0x800) :
    dimFree p a := by
  unfold dimFree Reg.prtStat Reg.prtRwCtrl Reg.prtRwStat at *
  omega

theorem raise_dims (p : Nat) (s : State) (e : Ev) (inst data : Nat) : dims p s (s.raise e inst data) :=
  dims_of_rd (s.raise_pins e inst data) fun a ha => s.raise_rd e inst data (notDrop (by
    unfold dimFree Reg.prtStat Reg.prtRwCtrl Reg.prtRwStat at ha
    omega))

theorem countErr_dims {p a : Nat} (s : State) (n k : Nat) (h : dimFree p a) : dims p s (s.countErr a n k) :=
  (dims_wr s _ h).trans (dims_onlyIf _ (fun t => t.raise .cntSat (srcOfAddr a) a) (raise_dims ..))

theorem onPort_dims (p : Nat) (s : State) (q : Nat) (g : PortSt → PortSt) : dims p s (s.onPort q g) := dims_of_regs rfl rfl

theorem onLanes_dims (p : Nat) (s : State) (l : Nat) (g : PortSt → PortSt) : dims p s (s.onLanes l g) :=
  dims_forAll _ _ (fun q _ t => onPort_dims p t q g) s

theorem send_dims (p : Nat) (s : State) (o : Out) : dims p s (s.send o) := dims_of_regs rfl rfl

theorem fillWith_dims (p : Nat) (s : State) (l : Nat) (c : Sym) : dims p s (s.fillWith l c) :=
  dims_forAll _ _ (fun q _ t => by
    split
    · exact send_dims ..
    · exact dims.refl p t) s

/-! ### `PRT_nnn_STAT` -/

theorem stat_inj {p q : Nat} (h : Reg.prtStat q = Reg.prtStat p) : q = p := by
  unfold Reg.prtStat at h
  omega

/-- A write of a lane's own status that takes neither lock nor a rung above TRAIN. -/
theorem dims_stat (p q : Nat) (s : State) (v : Word) (hb : bit v 12 = true → s.b (Reg.prtStat q) 12 = true)
    (hl : bf v 2 0 = 1 ∨ bf v 2 0 = 2 ∨ bf v 2 0 = s.ladder q) : dims p s (s.wr (Reg.prtStat q) v) := by
  by_cases h : q = p
  · subst h
    refine ⟨rfl, fun hs => ?_, fun hlow => ?_, s.rd_wr_ne v (by unfold Reg.prtStat Reg.prtRwCtrl; omega), fun i _ => ?_⟩
    · by_contra hn
      refine absurd (hb ?_) (by simp [hs])
      simpa [State.b] using hn
    · unfold State.low State.ladder State.f at *
      rw [State.rd_wr_self]
      omega
    · exact State.b_of_rd (s.rd_wr_ne v (by unfold Reg.prtStat Reg.prtRwStat; omega)) i
  · refine dims_wr s v ⟨fun e => h (stat_inj e.symm), ?_, ?_⟩
    · unfold Reg.prtStat Reg.prtRwCtrl; omega
    · unfold Reg.prtStat Reg.prtRwStat; omega

theorem dims_stat_bit (p q : Nat) (s : State) {i : Nat} {v : Bool} (hi : 2 < i) (hv : i = 12 → v = false) :
    dims p s (s.setB (Reg.prtStat q) i v) := by
  refine dims_stat p q s _ (fun h => ?_) (.inr (.inr ?_))
  · by_cases h12 : 12 = i
    · subst h12
      rw [hv rfl, bit_setBit_self _ _ _ (by omega)] at h
      exact absurd h (by decide)
    · rwa [bit_setBit_ne _ _ h12] at h
  · exact (congrArg (fun w => bf w 2 0) (State.rd_setB_self ..).symm).trans (s.f_setB_outside _ v (.inl hi))

theorem dims_stat_field (p q : Nat) (s : State) {hi lo v : Nat} (hlo : 2 < lo) (h : lo ≤ hi) (h12 : hi < 12 ∨ 12 < lo) :
    dims p s (s.setF (Reg.prtStat q) hi lo v) := by
  refine dims_stat p q s _ (fun hb => ?_) (.inr (.inr ?_))
  · rwa [bit_setFld_outside _ _ _ _ (by omega) h] at hb
  · exact bf_setFld_ne _ _ _ _ _ _ h (.inl hlo)

theorem dims_stat_rung (p q : Nat) (s : State) {r : Nat} (h : r = 1 ∨ r = 2) : dims p s (s.setF (Reg.prtStat q) 2 0 r) := by
  refine dims_stat p q s _ (fun hb => ?_) ?_
  · rwa [bit_setFld_outside _ _ _ _ (by omega) (by omega)] at hb
  · rw [bf_setFld_self _ _ _ _ (by omega) (by omega)]
    omega

/-! ### References, transactions and rungs -/

theorem wtrStop_pins (s : State) : s.wtrStop.pins = s.pins := by
  unfold State.wtrStop
  split <;> rfl

theorem coxJudge_pins (s : State) (sel fell : Bool) : (s.coxJudge sel fell).pins = s.pins := by
  have hstop := wtrStop_pins s
  unfold State.coxJudge
  split
  · rfl
  · split
    · exact hstop
    · split
      · exact hstop
      · dsimp only
        split
        · exact hstop
        · split
          · exact hstop
          · split
            · rfl
            · split
              · rfl
              · exact hstop

theorem coxNote_pins (s : State) (i : Nat) (e : Ev) : (s.coxNote i e).pins = s.pins :=
  onlyIf_field State.pins _ (fun t => t.raiseFree e 0) _ (State.raiseFree_pins ..)

theorem disqualify_pins (s : State) (n : Nat) : (s.disqualify n).pins = s.pins := by
  unfold State.disqualify
  dsimp only
  split
  · exact coxNote_pins ..
  · rfl

theorem activityLoss_dims (p : Nat) (s : State) {n : Nat} (hn : n < 8) : dims p s (s.activityLoss n) := by
  have hact : dims p s ((s.setB (Reg.coxRefStat n) 0 false).onRef n fun r => { r with gateOk := false }) :=
    dims_wr s _ (by unfold dimFree Reg.coxRefStat Reg.prtStat Reg.prtRwCtrl Reg.prtRwStat; omega)
  refine hact.trans (dims_of_spares ((coxJudge_pins ..).trans (disqualify_pins ..)) (activityLoss_spares s n) (fun i hi => ?_) (fun i => ?_) fun i hi => ?_)
  · unfold wtrMark lossMark noteMark Reg.prtStat; omega
  · unfold wtrMark lossMark noteMark Reg.prtRwCtrl; omega
  · unfold wtrMark lossMark noteMark Reg.prtRwStat; omega

theorem refsSilent_dims (p : Nat) (s : State) (q : Nat) : dims p s (s.refsSilent q) :=
  dims_forAll _ _ (fun n hn t => by
    split
    · exact activityLoss_dims p t (by simp only [List.mem_cons, List.not_mem_nil, or_false] at hn; omega)
    · exact dims.refl p t) s

theorem showGood_dims (p : Nat) (s : State) (l : Nat) : dims p s (s.showGood l) :=
  dims_onlyIf _ (fun t => t.setF (Reg.prtGrpStat l) 31 24 _) (dims_setF _ _ _ _ (dimFree_mod (by
    unfold Reg.prtGrpStat Reg.prtStat Reg.prtRwCtrl Reg.prtRwStat; omega)))

theorem setLock_lost (s : State) (q : Nat) : s.setLock q false = ((s.setB (Reg.prtStat q) 12 false).showGood (s.lead q)).refsSilent q := by
  unfold State.setLock
  exact if_neg Bool.false_ne_true

theorem setLock_dims (p : Nat) (s : State) (q : Nat) : dims p s (s.setLock q false) := by
  rw [setLock_lost]
  exact ((dims_stat_bit p q s (by omega) fun _ => rfl).trans (showGood_dims ..)).trans (refsSilent_dims ..)

theorem setLock_out (s : State) (q : Nat) : (s.setLock q false).b (Reg.prtStat q) 12 = false := by
  rw [setLock_lost]
  obtain ⟨-, hb, -⟩ := (showGood_dims q (s.setB (Reg.prtStat q) 12 false) (s.lead q)).trans (refsSilent_dims q _ q)
  exact hb (State.b_setB_self _ _ _ _ (by omega))

theorem raiseWriteBack_dims (p : Nat) (s : State) (u : Nat) : dims p s (s.writeBackFailed u) :=
  (dims_of_regs (t := { s with fld := { s.fld with writing := s.fld.writing.filter (· ≠ u), pages := ndel u s.fld.pages } }) rfl rfl).trans
    (raise_dims ..)

theorem dimFree_hxStat (p q : Nat) : dimFree p (Reg.prtHxStat q) :=
  dimFree_mod (by unfold Reg.prtHxStat Reg.prtStat Reg.prtRwCtrl Reg.prtRwStat; omega)

/-- The failure of a transaction, whose result carries no data. -/
theorem xactResult_dims (p : Nat) (s : State) (q : Nat) (use : XactUse) (code : Nat) : dims p s (s.xactResult q use code []) := by
  unfold State.xactResult
  split
  · exact (dims_setB s 31 false (dimFree_hxStat p q)).trans (dims_setF _ _ _ _ (dimFree_hxStat p q))
  · exact onPort_dims ..
  · split
    · exact dims_of_regs rfl rfl
    · exact raiseWriteBack_dims ..
  · split
    · refine ⟨rfl, fun h => ?_, low_of_rd ?_, ?_, fun i hi => ?_⟩
      · exact (State.b_of_rd (s.rd_setB_ne 29 true (by unfold Reg.prtStat Reg.prtRwStat; omega)) 12).trans h
      · exact s.rd_setB_ne 29 true (by unfold Reg.prtStat Reg.prtRwStat; omega)
      · exact s.rd_setB_ne 29 true (by unfold Reg.prtRwCtrl Reg.prtRwStat; omega)
      · by_cases h : p = q
        · subst h
          exact s.b_setB_ne _ true (by omega)
        · exact State.b_of_rd (s.rd_setB_ne 29 true (by unfold Reg.prtRwStat; omega)) i
    · exact dims.refl p s
  · exact dims.refl p s
  · exact dims.refl p s
  · exact dims.refl p s

theorem xactFail_dims (p : Nat) (s : State) (q code : Nat) (x : Xact) : dims p s (s.xactFail q code x) :=
  ((countErr_dims s 16 1 (dimFree_mod (by unfold Reg.prtXactFail Reg.prtStat Reg.prtRwCtrl Reg.prtRwStat; omega))).trans
    (raise_dims ..)).trans (xactResult_dims ..)

theorem linkDown_dims (p : Nat) (s : State) (q : Nat) : dims p s (s.linkDown q) := by
  unfold State.linkDown
  exact (((onPort_dims ..).trans (dims_onlyIf _ (fun t => t.xactResult q .host 5 []) (xactResult_dims ..))).trans
    (dims_forAll _ _ (fun x _ t => xactResult_dims ..) _)).trans (dims_forAll _ _ (fun x _ t => xactFail_dims ..) _)

theorem setLadder_dims (p : Nat) (s : State) (l : Nat) {r : Nat} (h : r = 1 ∨ r = 2) : dims p s (s.setLadder l r) :=
  dims_forAll _ _ (fun q _ t => dims_stat_rung p q t h) s

theorem setRate_dims (p : Nat) (s : State) (l r : Nat) : dims p s (s.setRate l r) :=
  dims_forAll _ _ (fun q _ t => dims_stat_field p q t (by omega) (by omega) (by omega)) s

theorem trainWith_dims (p : Nat) (s : State) (l : Nat) (retrain : Bool) (c : Sym) : dims p s (s.trainWith l retrain c) :=
  (((onLanes_dims ..).trans (setLadder_dims p _ l (.inr rfl))).trans (dims_forAll _ _ (fun _ _ _ => setLock_dims ..) _)).trans (fillWith_dims ..)

theorem relockTrain_dims (p : Nat) (s : State) (l : Nat) : dims p s (s.relockTrain l) := (trainWith_dims ..).trans (onPort_dims ..)

theorem detectStat_dims (p q : Nat) (s : State) :
    dims p s (s.wr (Reg.prtStat q) (setFld (setFld (setFld (setFld (s.rd (Reg.prtStat q)) 2 0 1) 5 4 0) 9 8 0) 15 12 0)) := by
  refine dims_stat p q s _ (fun h => ?_) (.inl ?_)
  · rw [bit, getLsbD_setFld, if_pos (by omega)] at h
    exact absurd h (by decide)
  · exact (bf_setFld_ne _ _ _ _ _ _ (by omega) (by omega)).trans ((bf_setFld_ne _ _ _ _ _ _ (by omega) (by omega)).trans
      ((bf_setFld_ne _ _ _ _ _ _ (by omega) (by omega)).trans (bf_setFld_self _ _ _ _ (by omega) (by omega))))

theorem enterDetect_dims (p : Nat) (s : State) (l : Nat) : dims p s (s.enterDetect l) := by
  unfold State.enterDetect
  dsimp only
  refine (((linkDown_dims p s l).trans (onLanes_dims ..)).trans (dims_forAll _ _ (fun q _ t => ?_) _)).trans ((dims_wr _ _ ?_).trans (fillWith_dims ..))
  · exact (detectStat_dims ..).trans (refsSilent_dims ..)
  · exact dimFree_mod (by unfold Reg.prtGrpStat Reg.prtStat Reg.prtRwCtrl Reg.prtRwStat; omega)

/-- A step that fails because a lane was lost trains again (R114). -/
theorem stepFail_dims (p : Nat) (s : State) (l : Nat) : dims p s (s.stepFail l true) := by
  unfold State.stepFail
  split
  · exact dims.refl p s
  · dsimp only
    have hfail : ∀ e i d n g, dims p s (((s.raise e i d).setF (Reg.prtStat l) 18 16 n).onPort l g) := fun e i d n g =>
      ((raise_dims ..).trans (dims_stat_field p l _ (by omega) (by omega) (by omega))).trans (onPort_dims ..)
    generalize hu : State.onPort _ l _ = u
    have hd : dims p s u := hu ▸ hfail ..
    rw [if_pos rfl]
    exact dims_ite _ (hd.trans ((dims_onlyIf _ (fun t => t.setRate l _) (setRate_dims ..)).trans (trainWith_dims ..)))
      (hd.trans (trainWith_dims ..))

theorem laneLockLoss_dims (p : Nat) (q : Nat) (s : State) : dims p s (laneLockLoss q s) := by
  have hlock : dims p s ((s.countErr (Reg.prtLockCnt q) 16 1).setLock q false) :=
    (countErr_dims s 16 1 (dimFree_mod (by unfold Reg.prtLockCnt Reg.prtStat Reg.prtRwCtrl Reg.prtRwStat; omega))).trans (setLock_dims ..)
  have hgrp : dimFree p (Reg.prtGrpStat (s.lead q)) := dimFree_mod (by unfold Reg.prtGrpStat Reg.prtStat Reg.prtRwCtrl Reg.prtRwStat; omega)
  have hlost : ∀ (u : State) (i : Nat) (e : Ev) (k d : Nat), dims p u (((u.setB (Reg.prtStat (s.lead q)) 15 false).setB
      (Reg.prtGrpStat (s.lead q)) i true).raise e k d) := fun u i e k d =>
    ((dims_stat_bit p _ u (by omega) (by omega)).trans (dims_setB _ _ true hgrp)).trans (raise_dims ..)
  unfold laneLockLoss
  dsimp only
  refine dims_ite _ (dims_ite _ ((hlock.trans (linkDown_dims ..)).trans (relockTrain_dims ..)) (dims_ite _ (dims.refl p s) ?_))
    (dims_ite _ ((setLock_dims ..).trans (stepFail_dims ..)) ((setLock_dims ..).trans ((onPort_dims ..).trans (onPort_dims ..))))
  exact dims_ite _ ((hlock.trans (hlost ..)).trans (enterDetect_dims ..)) ((hlock.trans (hlost ..)).trans (onPort_dims ..))

/-- A lane in DETECT or TRAIN is out of lock once it has lost it. -/
theorem laneLockLoss_low {p : Nat} {s : State} (h : s.low p) : (laneLockLoss p s).b (Reg.prtStat p) 12 = false := by
  have hlow : (s.setLock p false).low p := (setLock_dims p s p).2.2.1 h
  unfold State.low at h hlow
  unfold laneLockLoss
  dsimp only
  rw [if_neg (by omega), if_neg (by omega)]
  exact setLock_out s p

/-- So is a port by itself that loses lock in RUN. -/
theorem laneLockLoss_run {p : Nat} {s : State} (h : s.ladder p = 5) (hg : s.grouped (s.lead p) = false) :
    (laneLockLoss p s).b (Reg.prtStat p) 12 = false := by
  unfold laneLockLoss
  dsimp only
  rw [if_pos h, if_pos (by simp [hg])]
  exact ((linkDown_dims p _ _).trans (relockTrain_dims p _ _)).2.1 (setLock_out _ p)

/-! ### What the port sends -/

theorem fresh_dims (p : Nat) (s : State) (w : Nat) : dims p s (s.fresh w).2 := dims_of_regs rfl rfl

theorem injected_dims (p : Nat) (s : State) (q n : Nat) : dims p s (s.injected q n) := by
  refine ⟨rfl, fun h => ?_, low_of_rd ?_, ?_, fun i hi => ?_⟩
  · exact (State.b_of_rd (s.rd_setF_ne 23 0 _ (by unfold Reg.prtStat Reg.prtRwStat; omega)) 12).trans h
  · exact s.rd_setF_ne 23 0 _ (by unfold Reg.prtStat Reg.prtRwStat; omega)
  · exact s.rd_setF_ne 23 0 _ (by unfold Reg.prtRwCtrl Reg.prtRwStat; omega)
  · by_cases h : p = q
    · subst h
      exact s.b_setF_outside _ 23 0 _ (by omega) (by omega)
    · exact State.b_of_rd (s.rd_setF_ne 23 0 _ (by unfold Reg.prtRwStat; omega)) i

theorem flipMasks_dims (p n : Nat) : ∀ s : State, dims p s (s.flipMasks n).2 := by
  induction n with
  | zero => exact dims.refl p
  | succ n ih => exact fun s => (fresh_dims p s 4).trans (ih _)

theorem corrupted_dims (p : Nat) (s : State) (q : Nat) (tx : Bool) (n : Nat) : dims p s (s.corrupted q tx n).2.2 := by
  unfold State.corrupted
  split
  · exact (flipMasks_dims p n s).trans (injected_dims ..)
  · exact dims.refl p s

theorem sendFrame_dims (p : Nat) (s : State) (l : Nat) (o : Out) (syms : List Sym) (masks : List (BitVec 10)) :
    dims p s (s.sendFrame l o syms masks) := by
  unfold State.sendFrame
  dsimp only
  split
  · refine (send_dims p s o).trans (dims_forAll _ _ (fun e _ t => ?_) _)
    split
    · exact ((fresh_dims p t 1).trans (send_dims ..)).trans (onPort_dims ..)
    · exact dims.refl p t
  · exact dims.refl p s

theorem transmit_dims (p : Nat) (s : State) (q : Nat) (stream : Option Nat) (poison : Bool) (bs : List Byte) :
    dims p s (s.transmit q stream poison bs) := by
  unfold State.transmit
  dsimp only
  split
  · exact ((onPort_dims ..).trans (injected_dims ..)).trans
      (dims_forAll _ _ (fun e _ t => (corrupted_dims ..).trans (sendFrame_dims ..)) _)
  · exact (corrupted_dims ..).trans (sendFrame_dims ..)

theorem issueNow_dims (p : Nat) (s : State) (q : Nat) (x : XactWait) : dims p s (s.issueNow q x) := by
  unfold State.issueNow State.sendMsg
  dsimp only
  refine dims.trans (t := if x.use = .host then (s.onPort q fun y => _).setF (Reg.prtHxStat q) 7 0 _ else s.onPort q fun y => _) ?_ (transmit_dims ..)
  split
  · exact (onPort_dims ..).trans (dims_setF _ _ _ _ (dimFree_hxStat p q))
  · exact onPort_dims ..

theorem request_dims (p : Nat) (s : State) (q : Nat) (x : XactWait) : dims p s (s.request q x) := by
  unfold State.request State.issueWaits
  refine (onPort_dims ..).trans (dims_forAll (List.range 64) (fun _ t => _) (fun _ _ t => ?_) _)
  split
  · split
    · exact (onPort_dims ..).trans (issueNow_dims ..)
    · exact dims.refl p t
  · exact dims.refl p t

end Sys2Proof.Machine
end
section
/-! PROOF. Test units: PRBS, the eye monitors, the read-back receivers, the TAP, rough water (R115 to R119, R149, R150). -/

namespace Sys2Proof.Machine

/-! ### Registers that a write leaves alone -/

section
variable {s t u : State} {l : List Nat}

theorem sameRegs.refl (s : State) (l : List Nat) : sameRegs s s l := fun _ _ => rfl

theorem sameRegs.trans (h : sameRegs s t l) (h2 : sameRegs t u l) : sameRegs s u l := fun a ha => (h2 a ha).trans (h a ha)

theorem sameRegs_wr (s : State) {a : Nat} (v : Word) (h : a ∈ l) : sameRegs s (s.wr a v) l := fun _ hb => s.rd_wr_ne v fun e => hb (e ▸ h)

theorem sameRegs_setB (s : State) {a : Nat} (i : Nat) (v : Bool) (h : a ∈ l) : sameRegs s (s.setB a i v) l := sameRegs_wr s _ h

theorem sameRegs_of_regs (h : t.regs = s.regs) : sameRegs s t l := fun a _ => State.rd_congr h a

theorem sameRegs_onlyIf (c : Bool) (g : State → State) (h : sameRegs s (g s) l) : sameRegs s (onlyIf c g s) l := by
  cases c
  · exact sameRegs.refl s l
  · exact h

end

/-! ### Generators and checkers (R115) -/

theorem prbsCtrlWrite_refused {s : State} {p : Nat} {w : Word} (hon : (bit w 0 || bit w 4) = true) (h : s.portIdle p = false) :
    prbsCtrlWrite p w s = s.setB (Reg.prtStat p) 19 true :=
  if_pos (by simp [hon, h])

theorem prbsCtrlWrite_shows {s : State} {p : Nat} {w : Word} (h : (bit w 0 || bit w 4) = false ∨ s.portIdle p = true) :
    let t := prbsCtrlWrite p w s
    t.rd (Reg.prtPrbsCtrl p) = w ∧ ((bit w 0 || bit w 4) = true → t.b (Reg.prtStat p) 19 = false) ∧
      sameRegs s t [Reg.prtPrbsCtrl p, Reg.prtStat p, Reg.prtPrbsErr p] := by
  have hne : Reg.prtPrbsCtrl p ≠ Reg.prtStat p ∧ Reg.prtPrbsCtrl p ≠ Reg.prtPrbsErr p ∧ Reg.prtStat p ≠ Reg.prtPrbsErr p := by
    unfold Reg.prtPrbsCtrl Reg.prtStat Reg.prtPrbsErr; omega
  have hset : ∀ u, u = onlyIf (bit w 0 || bit w 4) (fun t => t.setB (Reg.prtStat p) 19 false) (s.wr (Reg.prtPrbsCtrl p) w) →
      u.rd (Reg.prtPrbsCtrl p) = w ∧ ((bit w 0 || bit w 4) = true → u.b (Reg.prtStat p) 19 = false) ∧
        sameRegs s u [Reg.prtPrbsCtrl p, Reg.prtStat p, Reg.prtPrbsErr p] := by
    rintro u rfl
    refine ⟨?_, fun hon => ?_, (sameRegs_wr s w (by simp)).trans (sameRegs_onlyIf _ (fun t => t.setB (Reg.prtStat p) 19 false)
      (sameRegs_setB _ _ _ (by simp)))⟩
    · exact (onlyIf_field (fun t => t.rd (Reg.prtPrbsCtrl p)) _ (fun t => t.setB (Reg.prtStat p) 19 false) _
        (State.rd_setB_ne _ _ _ hne.1)).trans (State.rd_wr_self ..)
    · rw [hon]
      exact State.b_setB_self _ _ _ _ (by omega)
  unfold prbsCtrlWrite
  dsimp only
  rw [if_neg (by rcases h with h | h <;> simp [h])]
  generalize hu : onlyIf (bit w 0 || bit w 4) _ _ = u
  obtain ⟨hrd, hst, hsame⟩ := hset u hu.symm
  split
  · exact ⟨(u.rd_setB_ne _ _ hne.2.1).trans hrd, fun hon => (State.b_of_rd (u.rd_setB_ne _ _ hne.2.2) 19).trans (hst hon),
      hsame.trans (sameRegs_setB u _ _ (by simp))⟩
  · exact ⟨hrd, hst, hsame⟩

theorem bf_satAdd_low (w : Word) (k : Nat) : bf (satAdd 30 k w).1 29 0 = min (2 ^ 30 - 1) (bf w 29 0 + k) := by
  unfold satAdd
  dsimp only
  split
  next h =>
    have hlt : bf w 29 0 + k < 2 ^ 30 - 1 := h
    have hself := bf_setFld_self w 29 0 (bf w 29 0 + k) (by omega) (by omega)
    rw [show 30 - 1 = 29 from rfl, hself]
    omega
  next h =>
    have hge : ¬ bf w 29 0 + k < 2 ^ 30 - 1 := h
    have hself := bf_setFld_self w 29 0 (2 ^ 30 - 1) (by omega) (by omega)
    rw [setBit, bf_setFld_ne _ _ _ _ _ _ (by omega) (by omega), show 30 - 1 = 29 from rfl, hself]
    omega

theorem bit_satAdd_mark (w : Word) (k : Nat) : bit (satAdd 30 k w).1 30 = bit w 30 := by
  unfold satAdd
  dsimp only
  split
  · exact bit_setFld_outside _ _ _ _ (by omega) (by omega)
  · rw [bit_setBit_ne _ _ (by omega)]
    exact bit_setFld_outside _ _ _ _ (by omega) (by omega)

theorem prbsCheckerSync_off {s : State} {p : Nat} (bits errs : Nat) (h : s.b (Reg.prtPrbsCtrl p) 4 = false) : prbsCheckerSync p bits errs s = s :=
  if_neg (by simp [h])

theorem prbsCheckerSync_shows {s : State} {p : Nat} (hp : p < 512) (bits errs : Nat) (h : s.b (Reg.prtPrbsCtrl p) 4 = true) :
    let t := prbsCheckerSync p bits errs s
    t.b (Reg.prtPrbsErr p) 30 = true ∧ t.f (Reg.prtPrbsErr p) 29 0 = min (2 ^ 30 - 1) (s.f (Reg.prtPrbsErr p) 29 0 + errs) ∧
      t.rd (Reg.prtPrbsBitsLo p) = s.rd (Reg.prtPrbsBitsLo p) + BitVec.ofNat 32 bits := by
  have hne : Reg.prtPrbsErr p ≠ Reg.prtPrbsBitsLo p ∧ Reg.prtPrbsErr p ≠ Reg.prtPrbsBitsHi p ∧ Reg.prtPrbsBitsLo p ≠ Reg.prtPrbsBitsHi p := by
    unfold Reg.prtPrbsErr Reg.prtPrbsBitsLo Reg.prtPrbsBitsHi; omega
  have hnd : ¬ dropCounter (Reg.prtPrbsErr p) ∧ ¬ dropCounter (Reg.prtPrbsBitsLo p) :=
    ⟨notDrop (by unfold Reg.prtPrbsErr; omega), notDrop (by unfold Reg.prtPrbsBitsLo; omega)⟩
  unfold prbsCheckerSync
  dsimp only
  rw [if_pos h]
  have herr0 := s.rd_setB_self (Reg.prtPrbsErr p) 30 true
  have hlo0 := s.rd_setB_ne 30 true hne.1.symm
  generalize s.setB (Reg.prtPrbsErr p) 30 true = u at herr0 hlo0 ⊢
  generalize htot : (u.rd (Reg.prtPrbsBitsLo p)).toNat + bits = tot
  have hcount : ∀ v, v = (if tot / 2 ^ 32 = 0 then u.wr (Reg.prtPrbsBitsLo p) (BitVec.ofNat 32 tot) else
      (u.wr (Reg.prtPrbsBitsLo p) (BitVec.ofNat 32 tot)).countPerf (Reg.prtPrbsBitsHi p) 31 (tot / 2 ^ 32)) →
      v.rd (Reg.prtPrbsErr p) = setBit (s.rd (Reg.prtPrbsErr p)) 30 true ∧
        v.rd (Reg.prtPrbsBitsLo p) = s.rd (Reg.prtPrbsBitsLo p) + BitVec.ofNat 32 bits := by
    rintro v rfl
    have hlo : BitVec.ofNat 32 tot = s.rd (Reg.prtPrbsBitsLo p) + BitVec.ofNat 32 bits := by
      rw [← htot, hlo0, BitVec.ofNat_add, BitVec.ofNat_toNat, BitVec.setWidth_eq]
    have herr := (u.rd_wr_ne (BitVec.ofNat 32 tot) hne.1).trans herr0
    have hself := (u.rd_wr_self (Reg.prtPrbsBitsLo p) (BitVec.ofNat 32 tot)).trans hlo
    split
    · exact ⟨herr, hself⟩
    · exact ⟨(State.rd_wr_ne _ _ hne.2.1).trans herr, (State.rd_wr_ne _ _ hne.2.2).trans hself⟩
  generalize hv : (if tot / 2 ^ 32 = 0 then _ else _) = v
  obtain ⟨herr, hlo⟩ := hcount v hv.symm
  have hmark : bit (setBit (s.rd (Reg.prtPrbsErr p)) 30 true) 30 = true := bit_setBit_self _ _ _ (by omega)
  have hlow : bf (setBit (s.rd (Reg.prtPrbsErr p)) 30 true) 29 0 = s.f (Reg.prtPrbsErr p) 29 0 := bf_setFld_ne _ _ _ _ _ _ (by omega) (by omega)
  split
  next h0 =>
    refine ⟨?_, ?_, hlo⟩
    · rw [State.b, herr, hmark]
    · have hlt : s.f (Reg.prtPrbsErr p) 29 0 < 2 ^ 30 := bf_lt ..
      rw [State.f, herr, hlow, h0]
      omega
  next =>
    have hc := countErr_rd_self v 30 errs hnd.1
    refine ⟨?_, ?_, (v.countErr_rd 30 errs hnd.2 hne.1.symm).trans hlo⟩
    · rw [State.b, hc, bit_satAdd_mark, herr, hmark]
    · rw [State.f, hc, bf_satAdd_low, herr, hlow]

theorem invalidSymbol_prt (s : State) (p : Nat) : (invalidSymbol p s).prt = s.prt :=
  onlyIf_field State.prt _ (fun t => t.raise .cntSat (srcOfAddr (Reg.prtCodeErr p)) (Reg.prtCodeErr p)) _ (State.raise_prt ..)

end Sys2Proof.Machine
end
section
/-! PROOF. Eye monitors, read-back receivers, the TAP and rough water, and the test units as a whole (R115 to R119, R149, R150). -/

namespace Sys2Proof.Machine

/-! ### Eye monitors (R116) -/

theorem eye_setEye (s : State) (o : Nat) (x : EyeSt) : (s.setEye o x).eye o = x := nget_nset_self ..

theorem scanWord_go (w : Word) : bit (w ||| 1) 0 = true ∧ bit ((w ||| 1) &&& 0x70001) 0 = true ∧ bf ((w ||| 1) &&& 0x70001) 18 16 = bf w 18 16 := by
  refine ⟨by simp [bit], by simp [bit], bf_congr_bits fun i hlo hhi => ?_⟩
  have hcases : i = 16 ∨ i = 17 ∨ i = 18 := by omega
  rcases hcases with rfl | rfl | rfl <;> simp

theorem eyeScan_shows (o : Nat) (w : Word) (s : State) :
    let t := eyeScan o (w ||| 1) s
    t.b (Reg.prtOctEyeCtrl o) 0 = true ∧ t.f (Reg.prtOctEyeCtrl o) 18 16 = bf w 18 16 ∧ t.b (Reg.prtOctEyeRes o) 31 = false ∧
      (t.eye o).scan = true ∧ sameRegs s t [Reg.prtOctEyeCtrl o, Reg.prtOctEyeRes o] := by
  have hne : Reg.prtOctEyeCtrl o ≠ Reg.prtOctEyeRes o := by unfold Reg.prtOctEyeCtrl Reg.prtOctEyeRes; omega
  obtain ⟨hgo, hgo2, hlane⟩ := scanWord_go w
  unfold eyeScan
  dsimp only
  rw [if_pos hgo]
  have hctrl := s.rd_wr_self (Reg.prtOctEyeCtrl o) ((w ||| 1) &&& 0x70001)
  have hsame : sameRegs s (s.wr (Reg.prtOctEyeCtrl o) ((w ||| 1) &&& 0x70001)) [Reg.prtOctEyeCtrl o, Reg.prtOctEyeRes o] :=
    sameRegs_wr s _ (by simp)
  generalize s.wr (Reg.prtOctEyeCtrl o) ((w ||| 1) &&& 0x70001) = u at hctrl hsame ⊢
  have hrd : ((u.setEye o { scan := true }).setB (Reg.prtOctEyeRes o) 31 false).rd (Reg.prtOctEyeCtrl o) = (w ||| 1) &&& 0x70001 :=
    (State.rd_setB_ne _ _ _ hne).trans ((State.rd_congr rfl _).trans hctrl)
  refine ⟨?_, ?_, State.b_setB_self _ _ _ _ (by omega), congrArg EyeSt.scan (eye_setEye u o _),
    hsame.trans ((sameRegs_of_regs rfl).trans (sameRegs_setB (u.setEye o _) _ _ (by simp)))⟩
  · rw [State.b, hrd, hgo2]
  · rw [State.f, hrd, hlane]

theorem eyeResult_fields (hgt wid : Nat) :
    let v := BitVec.ofNat 32 (2 ^ 31 + min 63 wid * 2 ^ 16 + min 1023 hgt)
    bit v 31 = true ∧ bf v 9 0 = min 1023 hgt ∧ bf v 21 16 = min 63 wid := by
  dsimp only
  rw [bf_ofNat, bf_ofNat, bit, BitVec.getLsbD_ofNat]
  refine ⟨?_, by omega, by omega⟩
  rw [Nat.testBit_eq_decide_div_mod_eq]
  simp only [Nat.reduceLT, decide_true, Bool.true_and, decide_eq_true_eq]
  omega

theorem eyeScanDone_shows {o : Nat} {s : State} (hgt wid : Nat) (h : (s.eye o).scan = true)
    (hfree : (upto 8).all (fun k => s.ladder (8 * o + k) != 4) = true) :
    let t := eyeScanDone o hgt wid s
    (t.eye o).scan = false ∧ t.b (Reg.prtOctEyeCtrl o) 0 = false ∧ t.b (Reg.prtOctEyeRes o) 31 = true ∧
      t.f (Reg.prtOctEyeRes o) 9 0 = min 1023 hgt ∧ t.f (Reg.prtOctEyeRes o) 21 16 = min 63 wid ∧
        sameRegs s t [Reg.prtOctEyeCtrl o, Reg.prtOctEyeRes o] := by
  have hne : Reg.prtOctEyeCtrl o ≠ Reg.prtOctEyeRes o := by unfold Reg.prtOctEyeCtrl Reg.prtOctEyeRes; omega
  obtain ⟨h31, hlow, hwide⟩ := eyeResult_fields hgt wid
  unfold eyeScanDone
  dsimp only
  rw [if_pos (by simp only [h, hfree, Bool.and_self])]
  generalize BitVec.ofNat 32 (2 ^ 31 + min 63 wid * 2 ^ 16 + min 1023 hgt) = v at h31 hlow hwide
  have hres := ((s.setEye o { scan := false }).setB (Reg.prtOctEyeCtrl o) 0 false).rd_wr_self (Reg.prtOctEyeRes o) v
  refine ⟨congrArg EyeSt.scan (eye_setEye s o _), ?_, ?_, ?_, ?_, (sameRegs_of_regs rfl).trans
    ((sameRegs_setB (s.setEye o _) _ _ (by simp)).trans (sameRegs_wr _ _ (by simp)))⟩
  · exact (State.b_of_rd (State.rd_wr_ne _ v hne) 0).trans (State.b_setB_self _ _ _ _ (by omega))
  · rw [State.b, hres, h31]
  · rw [State.f, hres, hlow]
  · rw [State.f, hres, hwide]

theorem eyeScanDone_waits {o : Nat} {s : State} (hgt wid : Nat)
    (h : ¬ ((s.eye o).scan = true ∧ (upto 8).all (fun k => s.ladder (8 * o + k) != 4) = true)) : eyeScanDone o hgt wid s = s :=
  if_neg (by rwa [Bool.and_eq_true])

/-! ### Read-back receivers (R117, R118) -/

theorem rbCfgWrite_locked {k : Nat} {s : State} (w : Word) (h : s.running = true ∧ k ∈ s.prt.rbLocked) :
    rbCfgWrite k w s = s.setB (Reg.prtRbStat k) 30 true :=
  if_pos (by simp [h.1, h.2])

theorem rbCfgWrite_free {k : Nat} {s : State} (w : Word) (h : ¬ (s.running = true ∧ k ∈ s.prt.rbLocked)) :
    rbCfgWrite k w s = (s.wr (Reg.prtRbCfg k) (w &&& 0x800001FF)).setB (Reg.prtRbStat k) 31 false :=
  if_neg (by simpa using h)

theorem rbSyncGained_shows (k : Nat) (s : State) :
    let t := rbSyncGained k s
    t.b (Reg.prtRbStat k) 31 = (s.b (Reg.prtRbCfg k) 31 || s.b (Reg.prtRbStat k) 31) ∧ sameRegs s t [Reg.prtRbStat k] := by
  unfold rbSyncGained
  dsimp only
  split
  next h => exact ⟨by rw [State.b_setB_self _ _ _ _ (by omega), h, Bool.true_or], sameRegs_setB s _ _ (by simp)⟩
  next h => exact ⟨by rw [Bool.not_eq_true] at h; rw [h, Bool.false_or], sameRegs.refl s _⟩

/-- A port's group is told by the ports' settings and by which groups run on lane 0 alone. -/
theorem lead_congr {s t : State} (h : ∀ q, t.rd (Reg.prtCfg q) = s.rd (Reg.prtCfg q)) (p : Nat) : t.lead p = s.lead p ∧ t.bondWidth p = s.bondWidth p := by
  have hw : t.bondWidth p = s.bondWidth p := congrArg (2 ^ ·) (State.f_of_rd (h p) 25 24)
  exact ⟨by rw [State.lead, State.lead, hw], hw⟩

theorem lanes_congr {s t : State} (h : ∀ q, t.rd (Reg.prtCfg q) = s.rd (Reg.prtCfg q)) (ha : ∀ q, (t.port q).alone = (s.port q).alone) (p : Nat) :
    t.lanes p = s.lanes p := by
  obtain ⟨hl, hw⟩ := lead_congr h p
  rw [State.lanes, State.lanes, hl, hw, ha]

/-- The lanes of a watch head's output do not depend on the status of a read-back receiver. -/
theorem outLanes_setB (s : State) {k : Nat} (hk : k < 32) (h i : Nat) (v : Bool) :
    (s.setB (Reg.prtRbStat k) i v).watchHeads = s.watchHeads ∧
      (s.setB (Reg.prtRbStat k) i v).lanes ((s.setB (Reg.prtRbStat k) i v).outPort h) = s.lanes (s.outPort h) := by
  have hhead : ∀ j, (s.setB (Reg.prtRbStat k) i v).rd (Reg.headCfg j) = s.rd (Reg.headCfg j) := fun j =>
    s.rd_setB_ne i v (by unfold Reg.headCfg Reg.prtRbStat; omega)
  have hcfg : ∀ q, (s.setB (Reg.prtRbStat k) i v).rd (Reg.prtCfg q) = s.rd (Reg.prtCfg q) := fun q =>
    s.rd_setB_ne i v (by unfold Reg.prtCfg Reg.prtRbStat; omega)
  have hstr : ∀ j m, (s.setB (Reg.prtRbStat k) i v).rd (Reg.streamEntryWord j m) = s.rd (Reg.streamEntryWord j m) := fun j m =>
    s.rd_setB_ne i v (by unfold Reg.streamEntryWord Reg.prtRbStat; omega)
  refine ⟨List.filter_congr fun j _ => ?_, ?_⟩
  · rw [State.headOn, State.headOn, State.watchHead, State.watchHead, State.b_of_rd (hhead j), State.b_of_rd (hhead j)]
  · rw [lanes_congr hcfg (fun _ => rfl)]
    refine congrArg s.lanes ?_
    rw [State.outPort, State.outPort, (lead_congr hcfg _).1, State.streamPort, State.streamPort, State.streamWord, State.streamWord, hstr,
      State.f_of_rd (hhead h)]

theorem rbSyncLost_shows {k : Nat} (hk : k < 32) (s : State) :
    let t := rbSyncLost k s
    t.b (Reg.prtRbStat k) 31 = false ∧ sameRegs s t [Reg.prtRbStat k] ∧
      ∀ h ∈ s.watchHeads, s.b (Reg.prtRbCfg k) 31 = true → s.f (Reg.prtRbCfg k) 8 0 ∈ s.lanes (s.outPort h) → (t.head h).rbOut = true := by
  have hcfg : ∀ i v, (s.setB (Reg.prtRbStat k) i v).rd (Reg.prtRbCfg k) = s.rd (Reg.prtRbCfg k) := fun i v =>
    s.rd_setB_ne i v (by unfold Reg.prtRbCfg Reg.prtRbStat; omega)
  have hheads := fun h => outLanes_setB s hk h 31 false
  have hst := s.b_setB_self (Reg.prtRbStat k) 31 false (by omega)
  have hsame : sameRegs s (s.setB (Reg.prtRbStat k) 31 false) [Reg.prtRbStat k] := sameRegs_setB s _ _ (by simp)
  have hcfg := hcfg 31 false
  unfold rbSyncLost
  dsimp only
  generalize s.setB (Reg.prtRbStat k) 31 false = u at *
  rw [State.b_of_rd hcfg]
  split
  next hon =>
    generalize hl : u.watchHeads.filter _ = heads
    have hnd : heads.Nodup := hl ▸ (List.nodup_range.filter _).filter _
    have hregs : (forAll heads (fun h t => t.onHead h fun x => { x with rbOut := true }) u).regs = u.regs :=
      forAll_field State.regs (fun h t => t.onHead h fun x => { x with rbOut := true }) _ (fun _ _ _ => rfl) u
    refine ⟨(State.b_congr hregs _ _).trans hst, hsame.trans (sameRegs_of_regs hregs), fun h hh _ hlane => ?_⟩
    have hmem : h ∈ heads := by
      rw [← hl, List.mem_filter, (hheads h).1, (hheads h).2]
      exact ⟨hh, List.contains_iff_mem.mpr hlane⟩
    obtain ⟨l1, l2, -, -, hsplit⟩ := forAll_split hnd hmem (fun h t => t.onHead h fun x => { x with rbOut := true }) u
    rw [hsplit]
    refine forAll_keeps (fun t => (t.head h).rbOut = true) _ l2 _ (fun j _ t ht => ?_) (congrArg HeadSt.rbOut (nget_nset_self ..))
    by_cases hj : h = j
    · subst hj
      exact congrArg HeadSt.rbOut (nget_nset_self ..)
    · exact (congrArg HeadSt.rbOut (nget_nset_ne _ _ _ hj)).trans ht
  next hoff => exact ⟨hst, hsame, fun h _ hon => absurd hon hoff⟩

/-! ### The TAP (R119) -/

theorem forAll_laneLockLoss_dims (p : Nat) (l : List Nat) (s : State) : dims p s (forAll l laneLockLoss s) :=
  dims_forAll l _ (fun q _ t => laneLockLoss_dims p q t) s

/-- The TAP takes the pads: a lane that was in DETECT or TRAIN is out of lock. -/
theorem forAll_laneLockLoss_low {p : Nat} (hp : p < 512) {s : State} (h : s.low p) :
    (forAll (upto 512) laneLockLoss s).b (Reg.prtStat p) 12 = false := by
  obtain ⟨l1, l2, -, -, hsplit⟩ := forAll_split (List.nodup_range (n := 512)) (List.mem_range.mpr hp) laneLockLoss s
  rw [show upto 512 = List.range 512 from rfl, hsplit]
  exact (forAll_laneLockLoss_dims p l2 _).2.1 (laneLockLoss_low ((forAll_laneLockLoss_dims p l1 s).2.2.1 h))

/-- The die has power: it is held, runs, or is in reset. -/
def State.powered (s : State) : Prop := s.pwr.phase = .hold ∨ s.pwr.phase = .running ∨ s.pwr.phase = .inReset

theorem extest_powered {s : State} (on : Bool) (h : s.powered) :
    extest on s = onlyIf (on && s.matrixUp) (forAll (upto 512) laneLockLoss) (s.onPins fun x => { x with extest := on }) := by
  unfold State.powered at h
  unfold extest
  rcases h with h | h | h <;> rw [h] <;> rfl

theorem extest_unpowered {s : State} (on : Bool) (h : ¬ s.powered) : extest on s = s := by
  unfold State.powered at h
  unfold extest
  cases hp : s.pwr.phase <;> simp_all

theorem powered_of_matrixUp {s : State} (h : s.matrixUp = true) : s.powered := by
  rw [State.matrixUp, Bool.and_eq_true, beq_iff_eq, beq_iff_eq] at h
  exact .inr (.inl h.2)

theorem extest_shows {s : State} (h : s.matrixUp = true) :
    let t := extest true s
    t.pins.extest = true ∧ sameMemory s t ∧ ∀ p : Fin 512, s.ladder p = 1 ∨ s.ladder p = 2 → t.b (Reg.prtStat p) 12 = false := by
  have hall : extest true s = forAll (upto 512) laneLockLoss (s.onPins fun x => { x with extest := true }) := by
    rw [extest_powered true (powered_of_matrixUp h), h]
    exact if_pos rfl
  dsimp only
  rw [hall]
  have hk : (s.onPins fun x => { x with extest := true }).kept = s.kept := rfl
  have hx : (s.onPins fun x => { x with extest := true }).pins.extest = true := rfl
  have hlow : ∀ p, (s.onPins fun x => { x with extest := true }).low p = s.low p := fun _ => rfl
  generalize (s.onPins fun x => { x with extest := true }) = u at hk hx hlow
  obtain ⟨hpins, -⟩ := forAll_laneLockLoss_dims 0 (upto 512) u
  exact ⟨(congrArg Pins.extest hpins).trans hx, kept_sameMemory ((forAll_kept _ _ _ fun q _ t => laneLockLoss_kept q t).trans hk),
    fun p hp => forAll_laneLockLoss_low p.isLt (cast (hlow p).symm hp)⟩

/-! ### Rough water (R149, R150) -/

theorem rwKey_first (p : Nat) (s : State) : rwKey p 0xB0A75EA5 s = s.onPort p fun x => { x with keyAt := some s.now } := by
  unfold rwKey
  exact if_pos rfl

theorem rwKey_second {p : Nat} {w : Word} {s : State} (hw : w ≠ 0xB0A75EA5)
    (h : w = 0x5EA5B0A7 ∧ s.running = true ∧ s.testChart = true ∧ s.watchPort p = false ∧
      ∃ k, (s.port p).keyAt = some k ∧ s.now ≤ k + 1000000) :
    (rwKey p w s).b (Reg.prtRwStat p) 31 = true ∧ ((rwKey p w s).port p).keyAt = none := by
  obtain ⟨rfl, hrun, htest, hwatch, k, hk, hk2⟩ := h
  have hnd : ¬ dropCounter (Reg.prtRwStat p) := notDrop (by unfold Reg.prtRwStat; omega)
  unfold rwKey
  dsimp only
  rw [if_neg hw, if_pos (by simp [hrun, htest, hwatch, hk, hk2])]
  refine ⟨(State.b_of_rd (State.raise_rd _ _ _ _ hnd) 31).trans (State.b_setB_self _ _ _ _ (by omega)), ?_⟩
  rw [State.port, State.raise_prt]
  exact congrArg PortSt.keyAt (nget_nset_self ..)

theorem rwKey_refused {p : Nat} {w : Word} {s : State} (hw : w ≠ 0xB0A75EA5)
    (h : ¬ (w = 0x5EA5B0A7 ∧ s.running = true ∧ s.testChart = true ∧ s.watchPort p = false ∧
      ∃ k, (s.port p).keyAt = some k ∧ s.now ≤ k + 1000000)) :
    rwKey p w s = s.onPort p fun x => { x with keyAt := none } := by
  unfold rwKey
  dsimp only
  rw [if_neg hw]
  refine if_neg fun hok => h ?_
  simp only [Bool.and_eq_true, beq_iff_eq, Bool.not_eq_true'] at hok
  obtain ⟨⟨⟨⟨rfl, hin⟩, hrun⟩, htest⟩, hwatch⟩ := hok
  refine ⟨rfl, hrun, htest, hwatch, ?_⟩
  split at hin
  next k hk => exact ⟨k, hk, of_decide_eq_true hin⟩
  next => exact absurd hin (by decide)

/-- What a write of `RW_CTRL` hands on: the row's bits, with `LOSS_GO` as the command says. -/
def rwWord (w : Word) (go : Bool) : Word :=
  if go then setFld (setFld w 23 23 1 &&& (BitVec.ofNat 32 0xE73FFFFE ||| 0x800000)) 23 23 1 else setFld w 23 23 0 &&& BitVec.ofNat 32 0xE73FFFFE

theorem regWrite_rwWord (s : State) (m : Master) (p : Fin 512) (w : Word) (go : Bool) :
    s.regWrite m (Reg.prtRwCtrl p) (setFld w 23 23 go.toNat) = rwCtrlWrite p (rwWord w go) s := by
  have hbit : bit (setFld w 23 23 go.toNat) 23 = go := by
    rw [bit, getLsbD_setFld, if_pos (by omega)]
    cases go <;> rfl
  rw [regWrite_prtRwCtrl _ _ _ _ p.isLt, hbit]
  cases go <;> rfl

theorem getLsbD_rwWord (w : Word) (go : Bool) {i : Nat} (h : i ≠ 23) :
    (rwWord w go).getLsbD i = (w.getLsbD i && (0xE73FFFFE#32).getLsbD i) := by
  have hmask : i < 32 → (BitVec.ofNat 32 0xE73FFFFE ||| 0x800000).getLsbD i = (0xE73FFFFE#32).getLsbD i := fun hi => by
    interval_cases i <;> simp_all
  by_cases hi : i < 32
  · cases go
    · rw [rwWord, if_neg (by simp), BitVec.getLsbD_and, getLsbD_setFld, if_neg (by omega)]
    · rw [rwWord, if_pos rfl, getLsbD_setFld, if_neg (by omega), BitVec.getLsbD_and, getLsbD_setFld, if_neg (by omega), hmask hi]
  · rw [BitVec.getLsbD_of_ge _ _ (by omega), BitVec.getLsbD_of_ge w _ (by omega), Bool.false_and]

theorem rwWord_fields (w : Word) (go : Bool) :
    setFld (rwWord w go) 23 23 0 = w &&& 0xE73FFFFE ∧ bit (rwWord w go) 31 = bit w 31 ∧ bit (rwWord w go) 29 = bit w 29 ∧
      bf (rwWord w go) 26 24 = bf w 26 24 ∧ (go = true → bit (rwWord w go) 23 = true) := by
  refine ⟨BitVec.eq_of_getLsbD_eq fun i hi => ?_, ?_, ?_, bf_congr_bits fun i hlo hhi => ?_, ?_⟩
  · rw [getLsbD_setFld, BitVec.getLsbD_and]
    by_cases h : i = 23
    · subst h
      simp
    · rw [if_neg (by omega), getLsbD_rwWord w go h]
      rfl
  · rw [bit, getLsbD_rwWord w go (by omega)]; simp [bit]
  · rw [bit, getLsbD_rwWord w go (by omega)]; simp [bit]
  · rw [getLsbD_rwWord w go (by omega)]
    have hcases : i = 24 ∨ i = 25 ∨ i = 26 := by omega
    rcases hcases with rfl | rfl | rfl <;> simp
  · rintro rfl
    rw [rwWord, if_pos rfl, bit, getLsbD_setFld, if_pos (by omega)]
    rfl

/-- A port with one lane, which leads itself. -/
theorem laneAt_single {s : State} {l : Nat} (h : s.lanes l = [l]) : s.laneAt l 0 = l ∧ s.lead l = l ∧ s.grouped (s.lead l) = false := by
  have hlead : s.lead l = l := by
    unfold State.lanes at h
    split at h
    · exact List.head_eq_of_cons_eq h
    · obtain ⟨n, hn⟩ : ∃ n, s.bondWidth l = n + 1 := Nat.exists_eq_succ_of_ne_zero (Nat.two_pow_pos _).ne'
      rw [hn, upto, List.range_succ_eq_map, List.map_cons] at h
      exact List.head_eq_of_cons_eq h
  refine ⟨?_, hlead, ?_⟩
  · rw [State.laneAt, h, List.find?_cons]
    split
    · rfl
    · rfl
  · rw [hlead, State.grouped, h]
    rfl

theorem roughWork_dims (p : Nat) (s : State) (q : Nat) (w : Word) : dims p s (s.roughWork q w) := by
  unfold State.roughWork
  dsimp only
  exact dims_ite _ (((onPort_dims ..).trans (injected_dims ..)).trans (laneLockLoss_dims ..)) (onPort_dims ..)

theorem onPort_alone (s : State) (p : Nat) (g : PortSt → PortSt) (h : ∀ x, (g x).alone = x.alone) (q : Nat) :
    ((s.onPort p g).port q).alone = (s.port q).alone := by
  by_cases hq : q = p
  · subst hq
    exact (congrArg PortSt.alone (nget_nset_self ..)).trans (h _)
  · exact congrArg PortSt.alone (nget_nset_ne _ _ _ hq)

/-- A port by itself in RUN loses lock, and the count of injections is not what decides it. -/
theorem lossInjected {s : State} {l : Nat} (p n : Nat) (hrun : s.ladder l = 5) (hone : s.lanes l = [l]) :
    (laneLockLoss (s.laneAt l 0) (s.injected p n)).b (Reg.prtStat l) 12 = false := by
  have hstat : (s.injected p n).rd (Reg.prtStat l) = s.rd (Reg.prtStat l) := s.rd_setF_ne 23 0 _ (by unfold Reg.prtStat Reg.prtRwStat; omega)
  have hcfg : ∀ q, (s.injected p n).rd (Reg.prtCfg q) = s.rd (Reg.prtCfg q) := fun q =>
    s.rd_setF_ne 23 0 _ (by unfold Reg.prtCfg Reg.prtRwStat; omega)
  rw [(laneAt_single hone).1]
  refine laneLockLoss_run ((State.f_of_rd hstat 2 0).trans hrun) (laneAt_single ?_).2.2
  rw [lanes_congr hcfg (fun _ => rfl), hone]

/-- `LOSS_GO` on a port by itself in RUN. -/
theorem roughWork_loss {s : State} {p : Nat} {w : Word} (hgo : bit w 23 = true) (hon : bit w 31 = true) (hrun : s.ladder (s.lead p) = 5)
    (hone : s.lanes (s.lead p) = [s.lead p]) (h0 : bf w 26 24 = 0) : (s.roughWork p w).b (Reg.prtStat (s.lead p)) 12 = false := by
  have hgroup : ∀ g : PortSt → PortSt, (∀ x, (g x).alone = x.alone) → (s.onPort p g).lanes (s.lead p) = [s.lead p] := fun g hg =>
    (lanes_congr (s := s) (t := s.onPort p g) (fun _ => rfl) (onPort_alone s p g hg) _).trans hone
  unfold State.roughWork
  dsimp only
  generalize hu : State.onPort s p _ = u
  have hlead : u.lead p = s.lead p := hu ▸ rfl
  have hlad : u.ladder (s.lead p) = 5 := hu ▸ hrun
  have hlanes : u.lanes (s.lead p) = [s.lead p] := hu ▸ hgroup _ fun _ => rfl
  rw [hlead, h0, if_pos ⟨hgo, hon, hlad, by rw [hlanes]; exact Nat.one_pos⟩]
  exact lossInjected p 1 hlad hlanes

theorem rwCtrlWrite_unarmed {p : Nat} (w : Word) {s : State} (h : s.b (Reg.prtRwStat p) 31 = false) :
    rwCtrlWrite p w s = s.setB (Reg.prtRwStat p) 30 true := by
  unfold rwCtrlWrite
  exact if_pos (by simp [h])

/-- What a write of rough-water control keeps of its word. -/
def rwKept (p : Nat) (w : Word) (s : State) : State :=
  onlyIf (!bit w 31) (fun t => t.setB (Reg.prtRwStat p) 31 false) ((s.wr (Reg.prtRwCtrl p) (setFld w 23 23 0)).setB (Reg.prtRwStat p) 30 false)

theorem rwKept_prt (p : Nat) (w : Word) (s : State) : (rwKept p w s).prt = s.prt :=
  (onlyIf_field State.prt _ (fun t => t.setB (Reg.prtRwStat p) 31 false) _ rfl).trans rfl

theorem rwKept_rd (p : Nat) (w : Word) (s : State) {a : Nat} (h : a ≠ Reg.prtRwCtrl p ∧ a ≠ Reg.prtRwStat p) : (rwKept p w s).rd a = s.rd a :=
  (onlyIf_field (fun t => t.rd a) _ (fun t => t.setB (Reg.prtRwStat p) 31 false) _ (State.rd_setB_ne _ _ _ h.2)).trans
    ((State.rd_setB_ne _ _ _ h.2).trans (s.rd_wr_ne _ h.1))

theorem rwKept_shows (p : Nat) (w : Word) {s : State} (h : s.b (Reg.prtRwStat p) 31 = true) :
    (rwKept p w s).rd (Reg.prtRwCtrl p) = setFld w 23 23 0 ∧ (rwKept p w s).b (Reg.prtRwStat p) 30 = false ∧
      (rwKept p w s).b (Reg.prtRwStat p) 31 = bit w 31 := by
  have hne : Reg.prtRwCtrl p ≠ Reg.prtRwStat p := by unfold Reg.prtRwCtrl Reg.prtRwStat; omega
  have hctrl : ((s.wr (Reg.prtRwCtrl p) (setFld w 23 23 0)).setB (Reg.prtRwStat p) 30 false).rd (Reg.prtRwCtrl p) = setFld w 23 23 0 :=
    (State.rd_setB_ne _ _ _ hne).trans (s.rd_wr_self _ _)
  have h30 := (s.wr (Reg.prtRwCtrl p) (setFld w 23 23 0)).b_setB_self (Reg.prtRwStat p) 30 false (by omega)
  have h31 : ((s.wr (Reg.prtRwCtrl p) (setFld w 23 23 0)).setB (Reg.prtRwStat p) 30 false).b (Reg.prtRwStat p) 31 = true :=
    (State.b_setB_ne _ _ _ (by omega)).trans ((State.b_of_rd (s.rd_wr_ne _ hne.symm) 31).trans h)
  unfold rwKept
  generalize (s.wr (Reg.prtRwCtrl p) (setFld w 23 23 0)).setB (Reg.prtRwStat p) 30 false = u at *
  cases hw : bit w 31
  · exact ⟨(u.rd_setB_ne _ _ hne).trans hctrl, (u.b_setB_ne _ _ (by omega)).trans h30, u.b_setB_self _ _ _ (by omega)⟩
  · exact ⟨hctrl, h30, h31⟩

theorem rwCtrlWrite_armed {p : Nat} (w : Word) {s : State} (h : s.b (Reg.prtRwStat p) 31 = true) : rwCtrlWrite p w s =
    if bit w 29 = false then (rwKept p w s).roughWork p w
    else if (rwKept p w s).feature p 5 then (rwKept p w s).request p { use := .roughWater, op := 1, addr := 0x30, len := 4, data := leBytes 4 w.toNat }
    else rwKept p w s := by
  have hoff : ¬ (!s.b (Reg.prtRwStat p) 31) = true := by simp [h]
  unfold rwCtrlWrite
  refine (if_neg hoff).trans ?_
  simp only [Bool.not_eq_true', rwKept]
  rfl

theorem rwCtrlWrite_dims (p : Nat) (w : Word) {s : State} (h : s.b (Reg.prtRwStat p) 31 = true) (q : Nat) :
    dims q (rwKept p w s) (rwCtrlWrite p w s) := by
  rw [rwCtrlWrite_armed w h]
  exact dims_ite _ (roughWork_dims ..) (dims_ite _ (request_dims ..) (dims.refl ..))

theorem rwCtrlWrite_shows (p : Nat) (w : Word) (go : Bool) {s : State} (h : s.b (Reg.prtRwStat p) 31 = true) :
    let t := rwCtrlWrite p (rwWord w go) s
    t.rd (Reg.prtRwCtrl p) = w &&& 0xE73FFFFE ∧ t.b (Reg.prtRwStat p) 30 = false ∧ t.b (Reg.prtRwStat p) 31 = bit w 31 ∧
      (bit w 29 = true → s.feature p 5 = false → t.prt = s.prt) ∧
      (go = true → bit w 31 = true → bit w 29 = false → s.ladder (s.lead p) = 5 → s.lanes (s.lead p) = [s.lead p] → bf w 26 24 = 0 →
        t.b (Reg.prtStat (s.lead p)) 12 = false) := by
  obtain ⟨hkeep, h31, h29, hlane, hgo⟩ := rwWord_fields w go
  obtain ⟨hctrl, hst30, hst31⟩ := rwKept_shows p (rwWord w go) h
  obtain ⟨-, -, -, hc, hs⟩ := rwCtrlWrite_dims p (rwWord w go) h p
  have hfree : ∀ {a}, a % 0x800 ≠ Reg.prtRwCtrl 0 % 0x800 ∧ a % 0x800 ≠ Reg.prtRwStat 0 % 0x800 → (rwKept p (rwWord w go) s).rd a = s.rd a := fun ha =>
    rwKept_rd p _ s (by unfold Reg.prtRwCtrl Reg.prtRwStat at *; omega)
  have hprt := rwKept_prt p (rwWord w go) s
  have hform := rwCtrlWrite_armed (rwWord w go) h
  dsimp only
  refine ⟨(hc.trans hctrl).trans hkeep, (hs 30 (by omega)).trans hst30, ((hs 31 (by omega)).trans hst31).trans h31, fun hr hf => ?_,
    fun hg hon hloc hrun hone h0 => ?_⟩
  · rw [hform, if_neg (by simp [h29, hr]), if_neg]
    · exact hprt
    · rw [State.feature, State.f_of_rd (hfree (by unfold Reg.prtLinkStat Reg.prtRwCtrl Reg.prtRwStat; omega)), ← State.feature, hf]
      exact Bool.false_ne_true
  · rw [hform, if_pos (h29.trans hloc)]
    have hcfg : ∀ q, (rwKept p (rwWord w go) s).rd (Reg.prtCfg q) = s.rd (Reg.prtCfg q) := fun q =>
      hfree (by unfold Reg.prtCfg Reg.prtRwCtrl Reg.prtRwStat; omega)
    have hstat : (rwKept p (rwWord w go) s).rd (Reg.prtStat (s.lead p)) = s.rd (Reg.prtStat (s.lead p)) :=
      hfree (by unfold Reg.prtStat Reg.prtRwCtrl Reg.prtRwStat; omega)
    have hlead := (lead_congr hcfg p).1
    have hlanes := lanes_congr hcfg (fun q => by rw [State.port, State.port, hprt]) (s.lead p)
    generalize rwKept p (rwWord w go) s = u at *
    rw [← hlead]
    exact roughWork_loss (hgo hg) (h31.trans hon) (by rw [hlead, State.ladder, State.f_of_rd hstat]; exact hrun)
      (by rw [hlead, hlanes, hone]) (hlane.trans h0)

/-! ### The test units -/

/-- Settles O49: each unit by what its own command shows; the TAP and `LOSS_GO` by what a lane's loss of lock cannot give back. -/
theorem testUnitsFollowTheirControls : Obligations.TestUnitsFollowTheirControls := by
  have hmask : ∀ (w : Word) (i : Nat), i = 0 ∨ i = 4 → bit (w &&& BitVec.ofNat 32 0x77) i = bit w i := by
    rintro w i (rfl | rfl) <;> simp [bit]
  refine ⟨fun m p w s ht => ⟨fun hon hi => ?_, fun h => ?_⟩, fun p bits errs s hm => ⟨fun hoff => ?_, fun hon => ?_, ?_⟩, fun m o w s ht => ?_,
    fun o hgt wid s hm => ?_, fun m k w s ht => ?_, fun k s hm => ⟨?_, ?_⟩, fun on s => ⟨fun h => ?_, fun h hor => ?_, fun hm => ?_⟩,
    fun m p w s ht => ⟨fun hw => ?_, fun hw => ?_⟩, fun m p w s => ⟨fun ht => ⟨fun h => ?_, fun h => ?_⟩, fun ht => ⟨fun h => ?_, fun h => ?_⟩⟩⟩
  · refine exec_takes ht rfl ((regWrite_prtPrbsCtrl _ _ _ _ p.isLt).trans (prbsCtrlWrite_refused ?_ hi))
    rw [hmask w 0 (.inl rfl), hmask w 4 (.inr rfl), hon]
  · have hshow := prbsCtrlWrite_shows (s := s) (p := p) (w := w &&& BitVec.ofNat 32 0x77)
    rw [hmask w 0 (.inl rfl), hmask w 4 (.inr rfl)] at hshow
    exact completes_takes ht rfl (regWrite_prtPrbsCtrl _ _ _ _ p.isLt) (hshow h)
  · exact (onMatrix_up _ hm).trans (congrArg _ (prbsCheckerSync_off bits errs hoff))
  · exact completes_of_exec (onMatrix_up _ hm) (prbsCheckerSync_shows p.isLt bits errs hon)
  · refine completes_of_exec (onMatrix_up _ hm) ⟨countErr_rd_self s 24 1 (notDrop ?_), invalidSymbol_prt s p⟩
    unfold Reg.prtCodeErr; omega
  · exact completes_takes ht rfl (regWrite_prtOctEyeCtrl _ _ _ _ o.isLt) (eyeScan_shows o w s)
  · split
    next h => exact completes_of_exec (onMatrix_up _ hm) (eyeScanDone_shows hgt wid h.1 h.2)
    next h => exact (onMatrix_up _ hm).trans (congrArg _ (eyeScanDone_waits hgt wid h))
  · have hne : Reg.prtRbCfg k ≠ Reg.prtRbStat k := by unfold Reg.prtRbCfg Reg.prtRbStat; omega
    split
    next h => exact exec_takes ht rfl ((regWrite_prtRbCfg _ _ _ _ k.isLt).trans (rbCfgWrite_locked w h))
    next h =>
      exact completes_takes ht rfl ((regWrite_prtRbCfg _ _ _ _ k.isLt).trans (rbCfgWrite_free w h))
        ⟨(State.rd_setB_ne _ _ _ hne).trans (s.rd_wr_self _ _), State.b_setB_self _ _ _ _ (by omega),
          (sameRegs_wr s _ (by simp)).trans (sameRegs_setB _ _ _ (by simp))⟩
  · exact completes_of_exec (onMatrix_up _ hm) (rbSyncGained_shows k s)
  · exact completes_of_exec (onMatrix_up _ hm) (rbSyncLost_shows k.isLt s)
  · exact congrArg Host.Outcome.next (extest_unpowered on h)
  · refine congrArg Host.Outcome.next ((extest_powered on h).trans ?_)
    rw [show (on && s.matrixUp) = false by rcases hor with hor | hor <;> simp [hor]]
    rfl
  · exact completes_of_exec rfl (extest_shows hm)
  · exact exec_takes ht rfl ((regWrite_prtRwKey _ _ _ _ p.isLt).trans (hw ▸ rwKey_first p s))
  · split
    next h => exact completes_takes ht rfl (regWrite_prtRwKey _ _ _ _ p.isLt) (rwKey_second hw h)
    next h => exact exec_takes ht rfl ((regWrite_prtRwKey _ _ _ _ p.isLt).trans (rwKey_refused hw h))
  · exact exec_takes ht rfl ((regWrite_rwWord s m p w false).trans (rwCtrlWrite_unarmed _ h))
  · exact completes_takes ht rfl (regWrite_rwWord s m p w false) (rwCtrlWrite_shows p w false h)
  · exact exec_takes ht rfl ((regWrite_rwWord s m p w true).trans (rwCtrlWrite_unarmed _ h))
  · exact completes_takes ht rfl (regWrite_rwWord s m p w true) (rwCtrlWrite_shows p w true h)

end Sys2Proof.Machine
end
section
/-! PROOF. What scanning leaves of a head (R269, R291, R298). -/

namespace Sys2Proof.Machine

/-! ### A frame in progress -/

/-- What of a head only its frame start, its gate line and its commands change. -/
def HeadSt.core (x : HeadSt) : Bool × Bool × Bool × Bool × Nat × List Nat × List (Nat × Nat) × Option Nat :=
  (x.scan, x.started, x.gated, x.mute, x.stroke, x.onIcons, x.due, x.pend)

/-- A register of head `h` that its scan leaves alone; `z` when the states of its icons are left out. -/
def scanFree (z : Bool) (h a : Nat) : Prop := h < 64 ∧
  (a = Reg.headCfg h ∨ a = Reg.headPos h ∨ a = Reg.headPhaseErr h ∨ a = Reg.headFrames h ∨ a = Reg.headCommitStatus h ∨
    (∃ i < 64, a = Reg.headTtCfg h i) ∨ (∃ j < 4, a = Reg.headTtReq h j) ∨ a = Reg.ttPinAcc ∨ (z = false ∧ ∃ i < 64, a = Reg.headTtState h i))

/-- From `s` to `t` head `h` has gone on with its frame: what scanning leaves alone is as it was, with `z` its zone statistics too. -/
def scans (z : Bool) (h : Nat) (s t : State) : Prop :=
  (t.head h).core = (s.head h).core ∧ t.hed.sync = s.hed.sync ∧ (∀ a, scanFree z h a → t.rd a = s.rd a) ∧
    (z = true → (t.head h).zones = (s.head h).zones)

section
variable {z : Bool} {h : Nat} {s t u : State}

theorem scans.refl (z : Bool) (h : Nat) (s : State) : scans z h s s := ⟨rfl, rfl, fun _ _ => rfl, fun _ => rfl⟩

theorem scans.trans (h1 : scans z h s t) (h2 : scans z h t u) : scans z h s u := by
  obtain ⟨hc, hs, hr, hz⟩ := h1
  obtain ⟨hc2, hs2, hr2, hz2⟩ := h2
  exact ⟨hc2.trans hc, hs2.trans hs, fun a ha => (hr2 a ha).trans (hr a ha), fun e => (hz2 e).trans (hz e)⟩

theorem scans_of_rd (hh : t.hed = s.hed) (hr : ∀ a, scanFree z h a → t.rd a = s.rd a) : scans z h s t :=
  ⟨by rw [State.head, State.head, hh], by rw [hh], hr, fun _ => by rw [State.head, State.head, hh]⟩

theorem scans_of_fields (hh : t.hed = s.hed) (hr : t.regs = s.regs) : scans z h s t := scans_of_rd hh fun a _ => State.rd_congr hr a

theorem scans_wr (s : State) {a : Nat} (v : Word) (ha : ¬ scanFree z h a) : scans z h s (s.wr a v) :=
  scans_of_rd rfl fun _ hb => s.rd_wr_ne v fun e => ha (e ▸ hb)

theorem scans_setB (s : State) {a : Nat} (i : Nat) (v : Bool) (ha : ¬ scanFree z h a) : scans z h s (s.setB a i v) := scans_wr s _ ha

theorem scans_setF (s : State) {a : Nat} (hi lo v : Nat) (ha : ¬ scanFree z h a) : scans z h s (s.setF a hi lo v) := scans_wr s _ ha

theorem scans_countPerf (s : State) {a : Nat} (n k : Nat) (ha : ¬ scanFree z h a) : scans z h s (s.countPerf a n k) := scans_wr s _ ha

theorem scans_onHead (s : State) (j : Nat) (g : HeadSt → HeadSt) (hc : ∀ x, (g x).core = x.core) (hz : z = true → ∀ x, (g x).zones = x.zones) :
    scans z h s (s.onHead j g) := by
  by_cases hj : h = j
  · subst hj
    have hself : (s.onHead h g).head h = g (s.head h) := nget_nset_self ..
    exact ⟨by rw [hself, hc], rfl, fun _ _ => rfl, fun e => by rw [hself, hz e]⟩
  · have hother : (s.onHead j g).head h = s.head h := nget_nset_ne _ _ _ hj
    exact ⟨by rw [hother], rfl, fun _ _ => rfl, fun _ => by rw [hother]⟩

theorem scans_onLay (s : State) (j k : Nat) (g : LaySt → LaySt) : scans z h s (s.onLay j k g) :=
  scans_onHead s j _ (fun _ => rfl) (fun _ _ => rfl)

theorem scans_forAll {α : Type} (l : List α) (g : α → State → State) (hg : ∀ a ∈ l, ∀ t, scans z h t (g a t)) (s : State) :
    scans z h s (forAll l g s) :=
  forAll_keeps (fun t => scans z h s t) g l s (fun a ha t ht => ht.trans (hg a ha t)) (scans.refl z h s)

theorem scans_onlyIf (c : Bool) (g : State → State) (hg : scans z h s (g s)) : scans z h s (onlyIf c g s) := by
  cases c
  · exact scans.refl z h s
  · exact hg

theorem scans_ite (c : Prop) [Decidable c] (h1 : scans z h s t) (h2 : scans z h s u) : scans z h s (if c then t else u) := by
  split <;> assumption

end

/-! ### Addresses -/

theorem far_scanFree {z : Bool} {h a : Nat} (ha : a < 0x200000 ∨ 0x300000 ≤ a) : ¬ scanFree z h a := by
  unfold scanFree Reg.headCfg Reg.headPos Reg.headPhaseErr Reg.headFrames Reg.headCommitStatus Reg.headTtCfg Reg.headTtReq Reg.ttPinAcc
    Reg.headTtState
  omega

/-- Registers of a head between its scan counters and its tell-tales. -/
theorem block_scanFree {z : Bool} {h a : Nat} (g o : Nat) (ha : a = 0x200000 + g * 0x4000 + o)
    (ho : (0x6C ≤ o ∧ o < 0xA0) ∨ (0x1000 ≤ o ∧ o < 0x3200)) : ¬ scanFree z h a := by
  unfold scanFree Reg.headCfg Reg.headPos Reg.headPhaseErr Reg.headFrames Reg.headCommitStatus Reg.headTtCfg Reg.headTtReq Reg.ttPinAcc
    Reg.headTtState
  omega

/-- What an icon shows. -/
theorem icon_scanFree {h a : Nat} (g i o : Nat) (hi : i < 64) (ha : a = 0x203200 + g * 0x4000 + i * 0x20 + o) (ho : o = 8 ∨ o = 0xC) :
    ¬ scanFree true h a := by
  unfold scanFree Reg.headCfg Reg.headPos Reg.headPhaseErr Reg.headFrames Reg.headCommitStatus Reg.headTtCfg Reg.headTtReq Reg.ttPinAcc
    Reg.headTtState
  simp only [Bool.true_eq_false, false_and, or_false]
  omega

theorem slotsOf_lt {s : State} {h k : Nat} (hk : k ∈ s.slotsOf h) : k < 16 := by
  have hlt : s.headLayers h < 2 ^ (27 + 1 - 24) := bf_lt ..
  have := List.mem_range.mp hk
  omega

/-! ### Events and counters -/

section
variable {z : Bool} {h : Nat}

theorem scans_events {s t : State} (he : eventsOnly s t) : scans z h s t := by
  obtain ⟨ht, hr⟩ := he
  exact scans_of_rd (by rw [ht]) fun a ha => hr a fun hd => absurd ha (far_scanFree (by
    have := dropCounter_range hd
    omega))

theorem raise_scans (s : State) (e : Ev) (inst data : Nat) : scans z h s (s.raise e inst data) := scans_events (s.raise_only e inst data)

theorem raiseHead_scans (s : State) (e : Ev) (j data : Nat) : scans z h s (s.raiseHead e j data) := scans_events (s.raiseRaw_only ..)

theorem raiseGated_scans (s : State) (e : Ev) (j b data : Nat) : scans z h s (s.raiseGated e j b data) :=
  scans_onlyIf _ (fun t => t.raiseHead e j data) (raiseHead_scans ..)

theorem lineMatch_scans (s : State) (j : Nat) : scans z h s (s.lineMatch j) := scans_ite _ (raiseGated_scans ..) (scans.refl z h s)

theorem countErr_scans (s : State) {a : Nat} (n k : Nat) (ha : ¬ scanFree z h a) : scans z h s (s.countErr a n k) :=
  (scans_wr s _ ha).trans (scans_onlyIf _ (fun t => t.raise .cntSat (srcOfAddr a) a) (raise_scans ..))

/-! ### What a line sends (R130, R279) -/

theorem fresh_scans (s : State) (w : Nat) : scans z h s (s.fresh w).2 := scans_of_fields rfl rfl

theorem send_scans (s : State) (o : Out) : scans z h s (s.send o) := scans_of_fields rfl rfl

theorem onPort_scans (s : State) (p : Nat) (g : PortSt → PortSt) : scans z h s (s.onPort p g) := scans_of_fields rfl rfl

theorem flipMasks_scans (n : Nat) : ∀ s : State, scans z h s (s.flipMasks n).2 := by
  induction n with
  | zero => exact scans.refl z h
  | succ n ih => exact fun s => (fresh_scans s 4).trans (ih _)

theorem injected_scans (s : State) {p : Nat} (n : Nat) (hp : p < 512) : scans z h s (s.injected p n) :=
  scans_setF s _ _ _ (far_scanFree (by unfold Reg.prtRwStat; omega))

theorem corrupted_scans (s : State) {p : Nat} (tx : Bool) (n : Nat) (hp : p < 512) : scans z h s (s.corrupted p tx n).2.2 := by
  unfold State.corrupted
  split
  · exact (flipMasks_scans n s).trans (injected_scans _ _ hp)
  · exact scans.refl z h s

theorem sendFrame_scans (s : State) (l : Nat) (o : Out) (syms : List Sym) (masks : List (BitVec 10)) : scans z h s (s.sendFrame l o syms masks) := by
  unfold State.sendFrame
  dsimp only
  refine scans_ite _ ((send_scans s o).trans (scans_forAll _ _ (fun e _ t => ?_) _)) (scans.refl z h s)
  split
  · exact ((fresh_scans t 1).trans (send_scans _ _)).trans (onPort_scans _ _ _)
  · exact scans.refl z h t

theorem transmit_scans (s : State) {p : Nat} (stream : Option Nat) (poison : Bool) (bs : List Byte) (hp : p < 512) :
    scans z h s (s.transmit p stream poison bs) := by
  unfold State.transmit
  dsimp only
  split
  · exact ((onPort_scans _ _ _).trans (injected_scans _ _ hp)).trans
      (scans_forAll _ _ (fun e _ t => (corrupted_scans _ _ _ hp).trans (sendFrame_scans ..)) _)
  · exact (corrupted_scans _ _ _ hp).trans (sendFrame_scans ..)

theorem lead_le (s : State) (p : Nat) : s.lead p ≤ p := Nat.div_mul_le_self ..

theorem sendPacket_scans (s : State) (i typ line : Nat) (first last : Bool) (flags : Nat) (ws : List Lane) :
    scans z h s (s.sendPacket i typ line first last flags ws) := by
  have hp : s.lead (s.streamPort i) < 512 := lt_of_le_of_lt (lead_le ..) (bf_lt _ 26 18)
  unfold State.sendPacket
  exact scans_ite _ ((onPort_scans _ _ _).trans (transmit_scans _ _ _ _ hp)) (scans.refl z h s)

theorem sendLine_scans (s : State) (i line frame : Nat) (eof : Bool) (ws : List Lane) : scans z h s (s.sendLine i line frame eof ws) :=
  scans_forAll _ _ (fun _ _ t => sendPacket_scans t ..) s

/-! ### Rows (R183, R276, R291, R292) -/

theorem fetchLine_scans (s : State) (k j l : Nat) : scans z h s (s.fetchLine k j l) :=
  scans_forAll _ _ (fun _ _ t => scans_countPerf t _ _ (far_scanFree (by unfold Reg.fstBankBeats; omega))) s

theorem fetchPick_scans (s : State) (p : Pick) (l : Nat) : scans z h s (s.fetchPick p l) := by
  unfold State.fetchPick
  exact scans_ite _ (fetchLine_scans ..) ((fetchLine_scans ..).trans (fetchLine_scans ..))

theorem fetchRow_scans (s : State) (j k : Nat) (p : Pick) (v : View) (need : List Nat) (l : Nat) : scans z h s (s.fetchRow j k p v need l) := by
  unfold State.fetchRow
  exact scans_ite _ (scans.refl z h s) ((fetchPick_scans ..).trans (scans_onLay ..))

theorem fetchRows_scans (s : State) (j k y : Nat) : scans z h s (s.fetchRows j k y) := by
  unfold State.fetchRows
  split
  · exact scans_forAll _ _ (fun _ _ t => fetchRow_scans t ..) s
  · exact scans.refl z h s

theorem fetchNext_scans (s : State) (j y : Nat) : scans z h s (s.fetchNext j y) :=
  scans_forAll _ _ (fun _ _ t => scans_ite _ (fetchRows_scans ..) (scans.refl z h t)) s

theorem prefetch_scans (s : State) (j : Nat) : scans z h s (s.prefetch j) := by
  refine scans_forAll _ _ (fun k _ t => ?_) s
  split
  · exact scans_ite _ ((scans_onLay ..).trans (fetchRows_scans ..)) (scans_onLay ..)
  · exact scans_ite _ (scans_onLay ..) (scans.refl z h t)
  · exact scans.refl z h t

theorem dropStale_scans (n q stroke : Nat) : ∀ s : State, scans z h s (s.dropStale n q stroke) := by
  induction n with
  | zero => exact scans.refl z h
  | succ n ih =>
    intro s
    have hpop : scans z h s (s.pop q).2 := by
      unfold State.pop
      split
      · exact scans.refl z h s
      · exact scans_of_fields rfl rfl
    unfold State.dropStale
    split
    · exact scans_ite _ (hpop.trans (ih _)) (scans_ite _
        ((hpop.trans (countErr_scans _ _ _ (far_scanFree (by unfold Reg.queStale; omega)))).trans (ih _)) (scans.refl z h s))
    · exact scans.refl z h s

end

end Sys2Proof.Machine
end
section
/-! PROOF. A line of a head (R291, R292, R297, R298). -/

namespace Sys2Proof.Machine

section
variable {z : Bool} {h : Nat}

/-! ### The rows of a line -/

theorem pop_scans (s : State) (q : Nat) : scans z h s (s.pop q).2 := by
  unfold State.pop
  split
  · exact scans.refl z h s
  · exact scans_of_fields rfl rfl

theorem takeLine_scans (s : State) (q stroke : Nat) (ok : Desc → Bool) : scans z h s (s.takeLine q stroke ok).2 := by
  unfold State.takeLine
  dsimp only
  split
  · split
    · exact (dropStale_scans ..).trans (pop_scans ..)
    · exact dropStale_scans ..
  · exact dropStale_scans ..

theorem descRow_scans (s : State) (j k e : Nat) (d : Desc) (ws : List Lane) : scans z h s (s.descRow j k e d ws) := scans_onLay ..

theorem headQueues_scans (s : State) (j : Nat) : scans z h s (s.headQueues j) := by
  refine scans_forAll _ _ (fun q _ t => ?_) s
  have htake := takeLine_scans (z := z) (h := h) t q (t.head j).stroke (fun _ => true)
  split
  next d u hu =>
    rw [hu] at htake
    refine htake.trans (scans_forAll _ _ (fun k _ v => ?_) u)
    split
    · exact scans_ite _ (descRow_scans ..) (scans.refl z h v)
    · exact scans.refl z h v
  next u hu =>
    rw [hu] at htake
    exact htake

theorem insertBy_mem {α : Type} (le : α → α → Bool) (a b : α) : ∀ l : List α, b ∈ insertBy le a l → b = a ∨ b ∈ l
  | [], hb => .inl (List.mem_singleton.mp hb)
  | c :: l, hb => by
    unfold insertBy at hb
    split at hb
    · exact List.mem_cons.mp hb
    · rcases List.mem_cons.mp hb with rfl | hb
      · exact .inr List.mem_cons_self
      · rcases insertBy_mem le a b l hb with rfl | hb
        · exact .inl rfl
        · exact .inr (List.mem_cons_of_mem _ hb)

theorem mem_of_mem_sortBy {α : Type} (le : α → α → Bool) (b : α) : ∀ l : List α, b ∈ sortBy le l → b ∈ l
  | [], hb => hb
  | a :: l, hb => by
    rcases insertBy_mem le a b _ hb with rfl | hb
    · exact List.mem_cons_self
    · exact List.mem_cons_of_mem _ (mem_of_mem_sortBy le b l hb)

theorem zOrder_lt {s : State} {j k : Nat} (hk : k ∈ s.zOrder j) : k < 16 :=
  slotsOf_lt (List.mem_filter.mp (mem_of_mem_sortBy _ _ _ hk)).1

/-- One layer crabs: it is marked and counted (R292). -/
def State.crabOne (s : State) (j k : Nat) : State :=
  ((s.onLay j k fun x => { x with crab := true }).countErr (Reg.headLayCrabCnt j k) 24 1).countErr (Reg.headUnderrunCnt j) 24 1

theorem crabOne_scans (s : State) (j : Nat) {k : Nat} (hk : k < 16) : scans z h s (s.crabOne j k) := by
  have hlay : ¬ scanFree z h (Reg.headLayCrabCnt j k) := block_scanFree j (0x102C + k * 0x80) (by unfold Reg.headLayCrabCnt; omega) (by omega)
  have hrun : ¬ scanFree z h (Reg.headUnderrunCnt j) := block_scanFree j 0x6C (by unfold Reg.headUnderrunCnt; omega) (by omega)
  exact ((scans_onLay ..).trans (countErr_scans _ 24 1 hlay)).trans (countErr_scans _ 24 1 hrun)

/-- The crabs of a frame are told once. -/
def State.tellCrabs (s : State) (j y : Nat) (ks : List Nat) : State :=
  if ks.isEmpty || (s.head j).crabTold then s
  else (s.onHead j fun x => { x with crabTold := true }).raiseGated .headUnderrun j 3 (ks.foldl (fun a k => a + 2 ^ (8 + k)) 0 + y * 2 ^ 16)

theorem tellCrabs_scans (s : State) (j y : Nat) (ks : List Nat) : scans z h s (s.tellCrabs j y ks) := by
  have htold : scans z h s (s.onHead j fun x => { x with crabTold := true }) := scans_onHead s j _ (fun _ => rfl) (fun _ _ => rfl)
  unfold State.tellCrabs
  generalize State.onHead s j _ = u at htold ⊢
  generalize List.foldl _ 0 ks + y * 2 ^ 16 = data
  exact scans_ite _ (scans.refl z h s) (htold.trans (raiseGated_scans u _ j 3 data))

theorem crabs_scans (s : State) (j y : Nat) (ks : List Nat) (hk : ∀ k ∈ ks, k < 16) : scans z h s (s.crabs j y ks) := by
  have hall := scans_forAll (z := z) (h := h) ks (fun k t => t.crabOne j k) (fun k hmem t => crabOne_scans t j (hk k hmem)) s
  exact hall.trans (tellCrabs_scans _ j y ks)

theorem rowsDue_scans (s : State) (j y : Nat) (fetch : List (Fin 8 × Nat)) : scans z h s (s.rowsDue j y fetch) := by
  have htide : ∀ (ks : List Nat) (g : State → Nat → LaySt → LaySt), scans z h s (forAll ks (fun k t => t.onLay j k (g t k)) s) := fun ks g =>
    scans_forAll _ _ (fun _ _ _ => scans_onLay ..) s
  unfold State.rowsDue
  dsimp only
  refine (htide _ fun t k x => _).trans (crabs_scans _ j y _ fun k hk => ?_)
  exact zOrder_lt (List.mem_filter.mp (List.mem_filter.mp (mem_of_mem_sortBy _ _ _ hk)).1).1

/-! ### The line goes out -/

theorem sigLine_scans (s : State) (j y : Nat) (ws : List Lane) : scans z h s (s.sigLine j y ws) :=
  scans_onHead s j _ (fun _ => rfl) (fun _ _ => rfl)

theorem zoneLine_scans (s : State) (j y : Nat) (l : List Pix) : scans false h s (s.zoneLine j y l) :=
  scans_onHead s j _ (fun _ => rfl) (fun e => absurd e Bool.false_ne_true)

theorem readBack_scans (s was : State) (j y parts : Nat) : scans z h s (s.readBack was j y parts) :=
  scans_onHead s j _ (fun _ => rfl) (fun _ _ => rfl)

theorem scanLine_scans (s : State) (j y : Nat) : scans false h s (s.scanLine j y) := by
  have hshow : ∀ (c : Prop) [Decidable c] (ks : List Nat) (ws : List Lane), scans false h s (if c then s else
      forAll ks (fun k t => t.onLay j k fun x => { x with shown := true }) (s.sigLine j y ws)) := fun c _ ks ws =>
    scans_ite c (scans.refl ..) ((sigLine_scans ..).trans (scans_forAll _ _ (fun _ _ _ => scans_onLay ..) _))
  unfold State.scanLine
  dsimp only
  have hsent := fun (c : Prop) [Decidable c] ks ws l i line f eof ws2 =>
    ((hshow c ks ws).trans (zoneLine_scans _ j y l)).trans (sendLine_scans _ i line f eof ws2)
  exact scans_ite _ ((hsent ..).trans (readBack_scans ..)) (hsent ..)

end

/-! ### A head stops (R88, R297) -/

section
variable {z : Bool} {h : Nat}

theorem showSlip_scans (s : State) (k : Nat) : scans z h s (s.showSlip k) := by
  have hst : ¬ scanFree z h (Reg.fstSlipStat k) := far_scanFree (by unfold Reg.fstSlipStat; omega)
  have hcs : ¬ scanFree z h (Reg.fstSlipCapStroke k) := far_scanFree (by unfold Reg.fstSlipCapStroke; omega)
  have hco : ¬ scanFree z h (Reg.fstSlipCapOfs k) := far_scanFree (by unfold Reg.fstSlipCapOfs; omega)
  unfold State.showSlip
  dsimp only
  split
  · exact scans_wr _ _ hst
  · exact ((scans_wr _ _ hst).trans (scans_wr _ _ hcs)).trans (scans_wr _ _ hco)

theorem onSlot_scans (s : State) (k j : Nat) (g : SlotSt → SlotSt) : scans z h s (s.onSlot k j g) := scans_of_fields rfl rfl

theorem unpin_scans (s : State) (k r : Nat) : scans z h s (s.unpin k r) :=
  (scans_forAll _ _ (fun _ _ _ => onSlot_scans ..) s).trans (showSlip_scans ..)

theorem layUnpin_scans (s : State) (j k : Nat) (keep : List LayShow) : scans z h s (s.layUnpin j k keep) := by
  refine (scans_forAll _ _ (fun i _ t => scans_ite _ (unpin_scans ..) (scans.refl z h t)) s).trans (scans_forAll _ _ (fun x _ t => ?_) _)
  split
  · exact ((onSlot_scans ..).trans (onSlot_scans ..)).trans (showSlip_scans ..)
  · exact scans.refl z h t

theorem layDrop_scans (s : State) (j k : Nat) : scans z h s (s.layDrop j k) := (scans_onLay ..).trans (layUnpin_scans ..)

end

theorem layDrop_out (s : State) (j k : Nat) : (s.layDrop j k).out = s.out := by
  have hshow : ∀ (t : State) i, (t.showSlip i).out = t.out := fun t i => by
    unfold State.showSlip
    dsimp only
    split <;> rfl
  have hunpin : ∀ (t : State) i r, (t.unpin i r).out = t.out := fun t i r =>
    (hshow _ i).trans (forAll_field State.out (fun m u => u.onSlot i m fun x => { x with pins := x.pins.filter (· ≠ r) }) _ (fun _ _ _ => rfl) t)
  refine Eq.trans (forAll_field State.out (fun i t => if (t.slots i).any fun m => (t.slot i m).pins.contains (layReader j k) then
    t.unpin i (layReader j k) else t) _ (fun i _ t => ?_) _) rfl
  split
  · exact hunpin ..
  · rfl

theorem haltHead_shows (s : State) (h : Nat) :
    ((s.haltHead h).head h).scan = false ∧ ((s.haltHead h).head h).due = [] ∧ (s.haltHead h).out = s.out := by
  unfold State.haltHead
  have hstop : ∀ g : HeadSt → HeadSt, (s.onHead h g).head h = g (s.head h) := fun _ => nget_nset_self ..
  generalize hu : s.onHead h (fun x => { x with scan := false, gated := false, started := false, due := [] }) = u
  have hscan : (u.head h).scan = false ∧ (u.head h).due = [] := by
    rw [← hu, hstop]
    exact ⟨rfl, rfl⟩
  have hout : u.out = s.out := hu ▸ rfl
  obtain ⟨hc, -⟩ := scans_forAll (z := false) (h := h) (s.slotsOf h) (fun k t => t.layDrop h k) (fun k _ t => layDrop_scans t h k) u
  simp only [HeadSt.core, Prod.mk.injEq] at hc
  obtain ⟨h1, -, -, -, -, -, h7, -⟩ := hc
  exact ⟨h1.trans hscan.1, h7.trans hscan.2, (forAll_field State.out _ _ (fun k _ t => layDrop_out t h k) u).trans hout⟩

end Sys2Proof.Machine
end
section
/-! PROOF. A head starts its frames and its lines (R269, R292, R317). -/

namespace Sys2Proof.Machine

/-! ### Words of the icon store read with an error (R304, R317) -/

/-- From `s` to `t` at most words of the icon store, notes of watch heads and events differ. -/
def glances (s t : State) : Prop := t.hed = s.hed ∧ t.out = s.out ∧ t.syn = s.syn ∧
  ∀ a, (a < 0x70000 ∨ ∃ g < 64, ∃ o < 0x80, a = 0x200000 + g * 0x4000 + o) → t.rd a = s.rd a

section
variable {s t u : State}

theorem glances.refl (s : State) : glances s s := ⟨rfl, rfl, rfl, fun _ _ => rfl⟩

theorem glances.trans (h : glances s t) (h2 : glances t u) : glances s u := by
  obtain ⟨hh, ho, hs, hr⟩ := h
  obtain ⟨hh2, ho2, hs2, hr2⟩ := h2
  exact ⟨hh2.trans hh, ho2.trans ho, hs2.trans hs, fun a ha => (hr2 a ha).trans (hr a ha)⟩

theorem glances_forAll {α : Type} (l : List α) (g : α → State → State) (hg : ∀ a ∈ l, ∀ t, glances t (g a t)) (s : State) :
    glances s (forAll l g s) :=
  forAll_keeps (fun t => glances s t) g l s (fun a ha t ht => ht.trans (hg a ha t)) (glances.refl s)

theorem glances_wr (s : State) {a : Nat} (v : Word) (ha : ∃ b, a = b ∧ (0x300000 ≤ b ∨ ∃ g, b = 0x200084 + g * 0x4000)) : glances s (s.wr a v) := by
  refine ⟨rfl, rfl, rfl, fun b hb => s.rd_wr_ne v ?_⟩
  rintro rfl
  obtain ⟨_, rfl, ha⟩ := ha
  rcases hb with hb | ⟨g, hg, o, ho, rfl⟩
  · omega
  · rcases ha with ha | ⟨g2, ha⟩ <;> omega

theorem raiseHead_glances (s : State) (e : Ev) (j data : Nat) : glances s (s.raiseHead e j data) := by
  obtain ⟨ht, hr⟩ := s.raiseRaw_only e.src e.code j (s.headLine j) (j + data)
  refine ⟨(congrArg State.hed ht :), (congrArg State.out ht :), (congrArg State.syn ht :), fun a ha => hr a fun hd => ?_⟩
  have := dropCounter_range hd
  omega

end

theorem storeError_glances (s : State) (m word : Nat) (v : Word) : glances s (s.storeError m word v) :=
  (glances_wr s v ⟨_, rfl, .inl (by unfold Reg.iconStoreWord; omega)⟩).trans (glances_forAll _ _ (fun g _ t =>
    (glances_wr t _ ⟨_, rfl, .inr ⟨g, rfl⟩⟩).trans (raiseHead_glances ..)) _)

theorem iconReads_glances (broken : List (Fin 256 × BitVec 19 × Word)) (s : State) : glances s (iconReads broken s) :=
  glances_forAll _ _ (fun _ _ t => storeError_glances t ..) s

/-- What decides a line stays as it was. -/
theorem glances.line {s t : State} {h : Nat} (hg : glances s t) (hh : h < 64) : t.head h = s.head h ∧ t.headLine h = s.headLine h ∧
    t.headClock h = s.headClock h ∧ t.vActive h = s.vActive h ∧ t.b (Reg.headCtrl h) 0 = s.b (Reg.headCtrl h) 0 ∧ t.out = s.out := by
  obtain ⟨hhed, hout, hsyn, hr⟩ := hg
  have hblk : ∀ o < 0x80, t.rd (0x200000 + h * 0x4000 + o) = s.rd (0x200000 + h * 0x4000 + o) := fun o ho => hr _ (.inr ⟨h, hh, o, ho, rfl⟩)
  have hcfg : t.rd (Reg.headCfg h) = s.rd (Reg.headCfg h) := hblk 0 (by omega)
  have hsynNo : t.headSyn h = s.headSyn h := congrArg (2 + ·) (State.f_of_rd hcfg 29 28)
  have hlt : s.headSyn h < 6 := by
    have : s.f (Reg.headCfg h) 29 28 < 2 ^ (29 + 1 - 28) := bf_lt ..
    unfold State.headSyn
    omega
  have hst : t.rd (Reg.synStat (s.headSyn h)) = s.rd (Reg.synStat (s.headSyn h)) := hr _ (.inl (by unfold Reg.synStat; omega))
  refine ⟨by rw [State.head, State.head, hhed], ?_, ?_, ?_, ?_, hout⟩
  · exact State.f_of_rd ((congrArg t.rd (by unfold Reg.headPos; omega)).trans ((hblk 0x58 (by omega)).trans
      (congrArg s.rd (by unfold Reg.headPos; omega)))) 28 16
  · simp only [State.headClock, State.synState, State.synOf, State.watchHead, hsynNo, hsyn, State.f_of_rd hst, State.b_of_rd hcfg]
  · exact State.f_of_rd ((congrArg t.rd (by unfold Reg.headVTiming; omega)).trans ((hblk 0x24 (by omega)).trans
      (congrArg s.rd (by unfold Reg.headVTiming; omega)))) 12 0
  · exact State.b_of_rd ((congrArg t.rd (by unfold Reg.headCtrl; omega)).trans ((hblk 0x4 (by omega)).trans
      (congrArg s.rd (by unfold Reg.headCtrl; omega)))) 0

/-! ### A line starts (R297, R298) -/

theorem headLineStart_idle {h : Nat} {s : State} (fetch : List (Fin 8 × Nat)) (hx : (s.head h).scan = false ∨ s.headClock h = false) :
    headLineStart h fetch s = s := by
  unfold headLineStart
  dsimp only
  exact if_pos (by rcases hx with hx | hx <;> simp [hx])

/-- The line that starts. -/
def State.nextLine (s : State) (h : Nat) : Nat := if (s.head h).started then s.headLine h + 1 else 0

theorem headLineStart_halts {h : Nat} {s : State} (fetch : List (Fin 8 × Nat)) (hs : (s.head h).scan = true) (hc : s.headClock h = true)
    (hend : (s.head h).lines ≤ s.nextLine h ∧ s.b (Reg.headCtrl h) 0 = false) : headLineStart h fetch s = s.haltHead h := by
  unfold headLineStart
  dsimp only
  exact (if_neg (by simp [hs, hc])).trans (if_pos (by simpa [State.nextLine] using hend))

/-- The line's number, and its events. -/
def State.lineEvents (s : State) (h y : Nat) : State :=
  let x := s.head h
  let s := (s.setF (Reg.headPos h) 28 16 (min 8191 y)).onHead h fun x => { x with started := true }
  let s := if y = s.vActive h ∧ !x.gated then (s.raiseGated .headFrameDone h 2 0).raiseGated .headBlankStart h 0 0 else s
  if y = s.gateLine_ h ∧ !x.gated then s else s.lineMatch h

/-- The line itself. -/
def State.lineScan (s : State) (h y : Nat) (mute : Bool) (fetch : List (Fin 8 × Nat)) : State :=
  if mute then s.scanLine h y else (((s.headQueues h).rowsDue h y fetch).scanLine h y).fetchNext h y

theorem headLineStart_scans {h : Nat} {s : State} (fetch : List (Fin 8 × Nat)) (hs : (s.head h).scan = true) (hc : s.headClock h = true)
    (hgo : ¬ ((s.head h).lines ≤ s.nextLine h ∧ s.b (Reg.headCtrl h) 0 = false)) : headLineStart h fetch s =
      if (s.lineEvents h (s.nextLine h)).vActive h ≤ s.nextLine h ∨ (s.head h).gated then s.lineEvents h (s.nextLine h)
      else (s.lineEvents h (s.nextLine h)).lineScan h (s.nextLine h) (s.head h).mute fetch := by
  unfold headLineStart
  dsimp only
  refine (if_neg (by simp [hs, hc])).trans ((if_neg (by simpa [State.nextLine] using hgo)).trans ?_)
  rfl

theorem lineScan_scans (s : State) (h j y : Nat) (mute : Bool) (fetch : List (Fin 8 × Nat)) : scans false h s (s.lineScan j y mute fetch) :=
  scans_ite _ (scanLine_scans ..) ((((headQueues_scans ..).trans (rowsDue_scans ..)).trans (scanLine_scans ..)).trans (fetchNext_scans ..))

theorem raiseGated_glances (s : State) (e : Ev) (j b data : Nat) : glances s (s.raiseGated e j b data) := by
  unfold State.raiseGated onlyIf
  split
  · exact raiseHead_glances ..
  · exact glances.refl s

theorem lineMatch_glances (s : State) (h : Nat) : glances s (s.lineMatch h) := by
  unfold State.lineMatch
  split
  · exact raiseGated_glances ..
  · exact glances.refl s

/-- The first step of a line: its number shows, and the frame has started. -/
theorem lineEvents_shows (s : State) {h : Nat} (hh : h < 64) (y : Nat) :
    let t := s.lineEvents h y
    (t.head h).started = true ∧ t.headLine h = min 8191 y ∧ t.out = s.out ∧ t.vActive h = s.vActive h := by
  unfold State.lineEvents
  dsimp only
  have hhead : ∀ (v : State) (g : HeadSt → HeadSt), (v.onHead h g).head h = g (v.head h) := fun _ _ => nget_nset_self ..
  have hline : (s.setF (Reg.headPos h) 28 16 (min 8191 y)).f (Reg.headPos h) 28 16 = min 8191 y := by
    rw [State.f_setF_self _ _ _ _ _ (by omega) (by omega)]
    omega
  have hv : (s.setF (Reg.headPos h) 28 16 (min 8191 y)).vActive h = s.vActive h :=
    State.f_of_rd (s.rd_setF_ne 28 16 _ (by unfold Reg.headVTiming Reg.headPos; omega)) 12 0
  generalize hu : (s.setF (Reg.headPos h) 28 16 (min 8191 y)).onHead h _ = u
  have hu4 : (u.head h).started = true ∧ u.headLine h = min 8191 y ∧ u.out = s.out ∧ u.vActive h = s.vActive h := by
    rw [← hu]
    exact ⟨by rw [hhead], hline, rfl, hv⟩
  have hevents : ∀ (c : Prop) [Decidable c], glances u (if c then (u.raiseGated .headFrameDone h 2 0).raiseGated .headBlankStart h 0 0 else u) := by
    intro c _
    split
    · exact (raiseGated_glances ..).trans (raiseGated_glances ..)
    · exact glances.refl u
  have hmatch : ∀ (c : Prop) [Decidable c] (v : State), glances v (if c then v else v.lineMatch h) := by
    intro c _ v
    split
    · exact glances.refl v
    · exact lineMatch_glances ..
  obtain ⟨h1, h2, h3, h4⟩ := hu4
  generalize hw : (if y = u.vActive h ∧ (!(s.head h).gated) = true then _ else u) = w
  have hline := ((hw ▸ hevents _ : glances u w).trans (hmatch (y = w.gateLine_ h ∧ (!(s.head h).gated) = true) w)).line hh
  obtain ⟨g1, g2, -, g4, -, g6⟩ := hline
  exact ⟨(congrArg HeadSt.started g1).trans h1, g2.trans h2, g6.trans h3, g4.trans h4⟩

theorem headLineStart_shows {s : State} {h : Nat} (hh : h < 64) (fetch : List (Fin 8 × Nat)) (hs : (s.head h).scan = true)
    (hc : s.headClock h = true) :
    let t := headLineStart h fetch s
    if (s.head h).lines ≤ s.nextLine h ∧ s.b (Reg.headCtrl h) 0 = false then (t.head h).scan = false ∧ (t.head h).due = [] ∧ t.out = s.out
    else (t.head h).started = true ∧ t.headLine h = min 8191 (s.nextLine h) ∧ (s.vActive h ≤ s.nextLine h ∨ (s.head h).gated = true → t.out = s.out) := by
  dsimp only
  split
  next hend =>
    rw [headLineStart_halts fetch hs hc hend]
    exact haltHead_shows s h
  next hgo =>
    rw [headLineStart_scans fetch hs hc hgo]
    obtain ⟨h1, h2, h3, h4⟩ := lineEvents_shows s hh (s.nextLine h)
    rw [h4]
    generalize s.lineEvents h (s.nextLine h) = u at *
    split
    next hblank => exact ⟨h1, h2, fun _ => h3⟩
    next hactive =>
      obtain ⟨hcore, -, hregs, -⟩ := lineScan_scans u h h (s.nextLine h) (s.head h).mute fetch
      simp only [HeadSt.core, Prod.mk.injEq] at hcore
      exact ⟨hcore.2.1.trans h1, (State.f_of_rd (hregs _ ⟨hh, .inr (.inl rfl)⟩) 28 16).trans h2, fun hb => absurd hb hactive⟩

end Sys2Proof.Machine
end
section
/-! PROOF. A head starts a frame (R269, R309). -/

namespace Sys2Proof.Machine

/-! ### The frame before has ended -/

/-- The heads' own states, in place of those of `s`. -/
def State.withHeads (s : State) (hd : HedSt) : State := { s with hed := hd }

/-- The frame in progress has reached its end, or there is none: its end changes nothing but the head's own note. -/
theorem cutFrame_done {s : State} {h : Nat} (hend : (s.head h).scan = false ∨ ((s.head h).gated = true ∧ (s.head h).lines ≤ s.headLine h + 1)) :
    ∃ hd b, s.cutFrame h = s.withHeads hd ∧ (s.withHeads hd).head h = { s.head h with scan := b } := by
  by_cases hscan : (s.head h).scan = false
  · refine ⟨s.hed, false, ?_, ?_⟩
    · unfold State.cutFrame
      exact if_pos (by simp [hscan])
    · rw [← hscan]
      rfl
  · obtain ⟨hgated, hlines⟩ := hend.resolve_left hscan
    refine ⟨(s.onHead h fun x => { x with scan := false }).hed, false, ?_, nget_nset_self ..⟩
    unfold State.cutFrame
    dsimp only
    rw [if_neg (by simpa using hscan), if_neg (by simp [hgated]), if_neg (by omega)]
    rfl

/-! ### What a frame start opens -/

/-- The trim of the divider's fraction (R269). -/
def State.trimmed (s : State) (h : Nat) (err : Int) : State :=
  if err = 0 then s else (s.fresh 7).2.onHead h fun x => { x with trim := clampI (-50) 50 (s.fresh 7).1.toInt }

/-- The frame opens, `d` its place in the schedule. -/
def State.openFrame (s : State) (h : Nat) (d : Nat × Nat) : State :=
  s.onHead h fun x => { x with
      scan := true, started := false, gated := false, mute := x.muteNext, muteNext := false, stroke := s.clock.stroke.toNat, lines := s.vTotal h,
      endAt := s.frameTime h (d.1, d.2 + 1)
      crabTold := false, sigs := [], zones := [], rbOut := !s.rbSynced h, rbMiss := [], glass := none, late := s.b (Reg.headWatchStat h) 30
      lays := (x.lays.map fun e => (e.1, { e.2 with now := e.2.next, crab := false, tide := false, shown := false, flipped := false })).filter fun e => decide (e.2 ≠ LaySt.init)
      onIcons := (s.icons h).filter fun i => s.iconOn h i
      gains := (s.lgt.gains.filter fun e => e.1 / 512 == h).map fun e => (e.1 % 512, e.2)
      blink := x.blinkNew.foldl (fun m i => nput i s.clock.stroke.toNat m) x.blink, blinkNew := [] }

/-- The frame counts, and its layers fetch their first rows. -/
def State.beginFrame (s : State) (h : Nat) : State :=
  let s := s.wr (Reg.headPos h) (BitVec.ofNat 32 ((s.f (Reg.headPos h) 15 0 + 1) % 65536))
  let s := s.countPerf (Reg.headFrames h) 31 1
  if (s.head h).mute then s else (s.countHeld h).prefetch h

theorem headFrameStart_idle {h : Nat} (err : Int) {s : State} (hx : s.headRuns h = false ∨ (s.head h).due = []) : headFrameStart h err s = s := by
  have hcut : ¬ (s.headRuns h && !(s.head h).due.isEmpty) = true := by rcases hx with hx | hx <;> simp [hx]
  unfold headFrameStart
  rw [if_neg hcut]
  dsimp only
  split
  · rfl
  next hr =>
    rw [hx.resolve_left (by simpa using hr)]

theorem headFrameStart_opens {h : Nat} (err : Int) {s : State} {hd : HedSt} {d : Nat × Nat} {due : List (Nat × Nat)} (hrun : s.headRuns h = true)
    (hne : (s.head h).due ≠ []) (hcut : s.cutFrame h = s.withHeads hd) (hdue : ((s.withHeads hd).head h).due = d :: due) :
    headFrameStart h err s = (((((s.withHeads hd).onHead h fun x => { x with due := due }).trimmed h err).setI32 (Reg.headPhaseErr h) err).openFrame
      h d).beginFrame h := by
  have hgo : (s.headRuns h && !(s.head h).due.isEmpty) = true := by simp [hrun, hne]
  have hrun2 : ¬ (!(s.withHeads hd).headRuns h) = true := by
    rw [show (s.withHeads hd).headRuns h = s.headRuns h from rfl, hrun]
    exact Bool.false_ne_true
  unfold headFrameStart
  rw [if_pos hgo, hcut]
  dsimp only
  rw [if_neg hrun2, hdue]
  rfl

/-! ### What the frame shows -/

/-- What an icon shows depends on its state, on the strokes and on its blink. -/
theorem iconOn_congr {s t : State} {h i : Nat} (hr : t.rd (Reg.headTtState h i) = s.rd (Reg.headTtState h i)) (hst : t.clock.stroke = s.clock.stroke)
    (hrates : t.rates = s.rates) (hb : (t.head h).blink = (s.head h).blink ∧ (t.head h).blinkNew = (s.head h).blinkNew) :
    t.iconOn h i = s.iconOn h i := by
  simp only [State.rates, Prod.mk.injEq] at hrates
  have hstate : t.iconState h i = s.iconState h i := State.f_of_rd hr 17 16
  have hperiod : ∀ a, t.blinkPeriod a = s.blinkPeriod a := fun a => by
    unfold State.blinkPeriod
    rw [hrates.1, hrates.2.1]
  unfold State.iconOn
  dsimp only
  rw [hstate, hperiod, hst, hb.1, hb.2]

theorem icons_congr {s t : State} {h : Nat} (hc : t.rd (Reg.headCfg h) = s.rd (Reg.headCfg h))
    (hi : ∀ i < 64, t.rd (Reg.headTtCfg h i) = s.rd (Reg.headTtCfg h i)) : t.icons h = s.icons h := by
  have hlist : (upto 64).filter (fun i => t.b (Reg.headTtCfg h i) 31) = (upto 64).filter fun i => s.b (Reg.headTtCfg h i) 31 :=
    List.filter_congr fun i hm => State.b_of_rd (hi i (List.mem_range.mp hm)) 31
  rw [State.icons, State.icons, State.watchHead, State.watchHead, State.b_of_rd hc, hlist]

theorem icons_lt {s : State} {h i : Nat} (hi : i ∈ s.icons h) : i < 64 := by
  unfold State.icons at hi
  split at hi
  · exact List.mem_range.mp (List.mem_filter.mp hi).1
  · exact absurd hi List.not_mem_nil

/-- What comes before the frame: the schedule moves on, the divider is trimmed, the phase error shows. -/
def State.scheduled (s : State) (h : Nat) (err : Int) (due : List (Nat × Nat)) : State :=
  ((s.onHead h fun x => { x with due := due }).trimmed h err).setI32 (Reg.headPhaseErr h) err

theorem scheduled_shows (s : State) (h : Nat) (err : Int) (due : List (Nat × Nat)) :
    let t := s.scheduled h err due
    (t.head h).due = due ∧ (t.head h).muteNext = (s.head h).muteNext ∧ (t.head h).blink = (s.head h).blink ∧
      (t.head h).blinkNew = (s.head h).blinkNew ∧ t.clock.stroke = s.clock.stroke ∧ t.rates = s.rates ∧
      t.rd (Reg.headPhaseErr h) = BitVec.ofInt 32 err ∧ ∀ a, a ≠ Reg.headPhaseErr h → t.rd a = s.rd a := by
  have hhead : ∀ (v : State) (g : HeadSt → HeadSt), (v.onHead h g).head h = g (v.head h) := fun _ _ => nget_nset_self ..
  have hset : ∀ v : State, (v.setI32 (Reg.headPhaseErr h) err).head h = v.head h := fun _ => rfl
  have hfresh : ∀ v : State, (v.fresh 7).2.head h = v.head h := fun _ => rfl
  unfold State.scheduled State.trimmed
  dsimp only
  split
  · rw [hset, hhead]
    exact ⟨rfl, rfl, rfl, rfl, rfl, rfl, State.rd_wr_self .., fun a ha => State.rd_wr_ne _ _ ha⟩
  · rw [hset, hhead, hfresh, hhead]
    exact ⟨rfl, rfl, rfl, rfl, rfl, rfl, State.rd_wr_self .., fun a ha => State.rd_wr_ne _ _ ha⟩

theorem countHeld_scans (s : State) (z : Bool) (h j : Nat) : scans z h s (s.countHeld j) :=
  scans_forAll _ _ (fun k hk t => scans_ite _ (countErr_scans _ _ _ (block_scanFree j (0x1028 + k * 0x80) (by unfold Reg.headLayHeldCnt; omega)
    (by have := slotsOf_lt hk; omega))) (scans.refl z h t)) s

theorem beginFrame_shows {h : Nat} (hh : h < 64) (s : State) :
    let t := s.beginFrame h
    (t.head h).core = (s.head h).core ∧ t.rd (Reg.headPos h) = BitVec.ofNat 32 ((s.f (Reg.headPos h) 15 0 + 1) % 65536) ∧
      t.rd (Reg.headFrames h) = ovfAdd 31 1 (s.rd (Reg.headFrames h)) ∧ t.rd (Reg.headPhaseErr h) = s.rd (Reg.headPhaseErr h) := by
  have hne : Reg.headPos h ≠ Reg.headFrames h ∧ Reg.headPhaseErr h ≠ Reg.headPos h ∧ Reg.headPhaseErr h ≠ Reg.headFrames h := by
    unfold Reg.headPos Reg.headFrames Reg.headPhaseErr; omega
  unfold State.beginFrame
  dsimp only
  generalize BitVec.ofNat 32 ((s.f (Reg.headPos h) 15 0 + 1) % 65536) = w
  generalize hu : (s.wr (Reg.headPos h) w).countPerf (Reg.headFrames h) 31 1 = u
  have hu4 : (u.head h).core = (s.head h).core ∧ u.rd (Reg.headPos h) = w ∧ u.rd (Reg.headFrames h) = ovfAdd 31 1 (s.rd (Reg.headFrames h)) ∧
      u.rd (Reg.headPhaseErr h) = s.rd (Reg.headPhaseErr h) := by
    rw [← hu]
    refine ⟨rfl, (State.rd_wr_ne _ _ hne.1).trans (s.rd_wr_self _ w), (State.rd_wr_self ..).trans ?_,
      (State.rd_wr_ne _ _ hne.2.2).trans (s.rd_wr_ne w hne.2.1)⟩
    rw [s.rd_wr_ne w hne.1.symm]
  have hscan : ∀ (c : Prop) [Decidable c], scans true h u (if c then u else (u.countHeld h).prefetch h) := fun c _ =>
    scans_ite c (scans.refl ..) ((countHeld_scans ..).trans (prefetch_scans ..))
  obtain ⟨hc, -, hr, -⟩ := hscan ((u.head h).mute = true)
  obtain ⟨h1, h2, h3, h4⟩ := hu4
  exact ⟨hc.trans h1, (hr _ ⟨hh, .inr (.inl rfl)⟩).trans h2, (hr _ ⟨hh, .inr (.inr (.inr (.inl rfl)))⟩).trans h3,
    (hr _ ⟨hh, .inr (.inr (.inl rfl))⟩).trans h4⟩

theorem openFrame_core (s : State) (h : Nat) (d : Nat × Nat) : ((s.openFrame h d).head h).core = (true, false, false, (s.head h).muteNext,
    s.clock.stroke.toNat, (s.icons h).filter (fun i => s.iconOn h i), (s.head h).due, (s.head h).pend) := by
  have hhead : ∀ g : HeadSt → HeadSt, (s.onHead h g).head h = g (s.head h) := fun _ => nget_nset_self ..
  unfold State.openFrame
  rw [hhead]
  rfl

theorem headFrameStart_shows {h : Nat} (hh : h < 64) (err : Int) {s : State} (hrun : s.headRuns h = true) (hne : (s.head h).due ≠ [])
    (hend : (s.head h).scan = false ∨ ((s.head h).gated = true ∧ (s.head h).lines ≤ s.headLine h + 1)) :
    let t := headFrameStart h err s
    (t.head h).due = (s.head h).due.drop 1 ∧ (t.head h).scan = true ∧ (t.head h).started = false ∧ (t.head h).gated = false ∧
      (t.head h).stroke = s.clock.stroke.toNat ∧ (t.head h).mute = (s.head h).muteNext ∧ (t.head h).onIcons = (s.icons h).filter (s.iconOn h) ∧
      t.rd (Reg.headPhaseErr h) = BitVec.ofInt 32 err ∧ t.rd (Reg.headPos h) = BitVec.ofNat 32 ((s.f (Reg.headPos h) 15 0 + 1) % 65536) ∧
      t.rd (Reg.headFrames h) = ovfAdd 31 1 (s.rd (Reg.headFrames h)) := by
  obtain ⟨d, due, hdue⟩ := List.exists_cons_of_ne_nil hne
  obtain ⟨hd, b, hcut, hx⟩ := cutFrame_done hend
  have hform := headFrameStart_opens err (due := due) hrun hne hcut (d := d) (by rw [hx]; exact hdue)
  obtain ⟨h1, h2, h3, h4, h5, h6, h7, h8⟩ := scheduled_shows (s.withHeads hd) h err due
  rw [hx] at h2 h3 h4
  unfold State.scheduled at h1 h2 h3 h4 h5 h6 h7 h8
  dsimp only
  rw [hform, hdue]
  generalize ((((s.withHeads hd).onHead h fun x => { x with due := due }).trimmed h err).setI32 (Reg.headPhaseErr h) err) = u at *
  obtain ⟨hc, hpos, hframes, herr⟩ := beginFrame_shows hh (u.openFrame h d)
  rw [openFrame_core] at hc
  simp only [HeadSt.core, Prod.mk.injEq] at hc
  obtain ⟨hscan, hstarted, hgated, hmute, hstroke, hicons, hdue2, -⟩ := hc
  have hrd : ∀ a, a ≠ Reg.headPhaseErr h → (u.openFrame h d).rd a = s.rd a := fun a ha => (h8 a ha)
  have hcfg : u.rd (Reg.headCfg h) = s.rd (Reg.headCfg h) := h8 _ (by unfold Reg.headCfg Reg.headPhaseErr; omega)
  have htt : ∀ i < 64, u.rd (Reg.headTtCfg h i) = s.rd (Reg.headTtCfg h i) := fun i _ => h8 _ (by unfold Reg.headTtCfg Reg.headPhaseErr; omega)
  have hon : ∀ i, u.iconOn h i = s.iconOn h i := fun i =>
    iconOn_congr (h8 _ (by unfold Reg.headTtState Reg.headPhaseErr; omega)) h5 h6 ⟨h3, h4⟩
  refine ⟨hdue2.trans h1, hscan, hstarted, hgated, hstroke.trans (by rw [h5]; rfl), hmute.trans h2, hicons.trans ?_, herr.trans h7, hpos.trans ?_,
    hframes.trans ?_⟩
  · rw [icons_congr hcfg htt]
    exact List.filter_congr fun i _ => hon i
  · rw [State.f_of_rd (hrd _ (by unfold Reg.headPos Reg.headPhaseErr; omega))]
  · rw [hrd _ (by unfold Reg.headFrames Reg.headPhaseErr; omega)]

end Sys2Proof.Machine
end
section
/-! PROOF. The comparison at a gate line (R311 to R316, R319). -/

namespace Sys2Proof.Machine

section
variable {z : Bool} {h : Nat}

/-! ### Addresses of a watch head -/

theorem watch_scanFree (g o : Nat) (ho : 0x80 ≤ o ∧ o < 0xA0) {a : Nat} (ha : a = 0x200000 + g * 0x4000 + o) : ¬ scanFree z h a :=
  block_scanFree g o ha (by omega)

theorem watchStat_scanFree (g : Nat) : ¬ scanFree z h (Reg.headWatchStat g) :=
  watch_scanFree g 0x84 (by omega) (by unfold Reg.headWatchStat; omega)

theorem layStat_scanFree (g : Nat) {k : Nat} (hk : k < 16) : ¬ scanFree z h (Reg.headLayStat g k) :=
  block_scanFree g (0x1020 + k * 0x80) (by unfold Reg.headLayStat; omega) (by omega)

/-- A register of a lookout region. -/
theorem region_scanFree (g o : Nat) {r : Nat} (hr : r < 16) (ho : o < 0x20) {a : Nat} (ha : a = 0x203000 + g * 0x4000 + r * 0x20 + o) :
    ¬ scanFree z h a :=
  block_scanFree g (0x3000 + r * 0x20 + o) (by omega) (by omega)

theorem missCnt_scanFree (g : Nat) {r : Nat} (hr : r < 16) : ¬ scanFree z h (Reg.headLkMissCnt g r) :=
  region_scanFree g 0x1C hr (by omega) (by unfold Reg.headLkMissCnt; omega)

theorem regions_lt {s : State} {g r : Nat} (hr : r ∈ s.regions g) : r < 16 := List.mem_range.mp (List.mem_filter.mp hr).1

/-! ### Verdicts (R314 to R316) -/

theorem levelTake_scans (s : State) (g level avail : Nat) : scans z h s (s.levelTake g level avail) := by
  have hset : ∀ (u : HeadSt → HeadSt) (n : Nat), (∀ x, (u x).core = x.core) → (∀ x, (u x).zones = x.zones) →
      scans z h s ((s.onHead g u).setF (Reg.headWatchStat g) 29 28 n) := fun u n hc hz =>
    (scans_onHead s g u hc fun _ => hz).trans (scans_setF _ _ _ _ (watchStat_scanFree g))
  unfold State.levelTake
  dsimp only
  generalize hu : State.setF _ (Reg.headWatchStat g) 29 28 _ = u
  have hd : scans z h s u := hu ▸ hset _ _ (fun _ => rfl) (fun _ => rfl)
  exact scans_ite _ (hd.trans ((scans_setB _ _ _ (watchStat_scanFree g)).trans (raiseHead_scans ..)))
    (scans_ite _ (hd.trans (raiseHead_scans ..)) hd)

theorem showFault_scans (s : State) : scans z h s s.showFault := scans_setB s _ _ (far_scanFree (by unfold Reg.glbFault; omega))

/-- The registers of a verdict. -/
def State.verdictRegs (s : State) (g : Nat) (f : WFrame) (avail last : Word) : State :=
  forAll ((upto 16).filter f.bad.testBit) (fun r t => t.countErr (Reg.headLkMissCnt g r) 16 1)
    (((((s.wr (Reg.headWatchAvail g) avail).wr (Reg.headWatchLast g) last).wr (Reg.headWatchLastMask g) (BitVec.ofNat 32 f.bad)).wr
      (Reg.headWatchCellLo g) (BitVec.ofNat 32 f.cells)).wr (Reg.headWatchCellHi g) (BitVec.ofNat 32 (f.cells / 2 ^ 32)))

theorem verdictRegs_scans (s : State) (g : Nat) (f : WFrame) (avail last : Word) : scans z h s (s.verdictRegs g f avail last) := by
  refine (((((scans_wr s avail ?_).trans (scans_wr _ last ?_)).trans (scans_wr _ _ ?_)).trans (scans_wr _ _ ?_)).trans (scans_wr _ _ ?_)).trans
    (scans_forAll _ _ (fun r hr t => countErr_scans t 16 1 (missCnt_scanFree g (List.mem_range.mp (List.mem_filter.mp hr).1))) _)
  · exact watch_scanFree g 0x88 (by omega) (by unfold Reg.headWatchAvail; omega)
  · exact watch_scanFree g 0x90 (by omega) (by unfold Reg.headWatchLast; omega)
  · exact watch_scanFree g 0x94 (by omega) (by unfold Reg.headWatchLastMask; omega)
  · exact watch_scanFree g 0x98 (by omega) (by unfold Reg.headWatchCellLo; omega)
  · exact watch_scanFree g 0x9C (by omega) (by unfold Reg.headWatchCellHi; omega)

/-- A BAD frame counts towards the fault (R316). -/
def State.badFrame (s : State) (g : Nat) (f : WFrame) : State :=
  let st := Reg.headWatchStat g
  let run := min (s.f st 27 24 + 1) 15
  let s := (((s.setF st 27 24 run).onHead g fun x => { x with clean := 0 }).countErr (Reg.headWatchBadCnt g) 16 1).setB st 1 true
  let s := s.raiseHead .lookoutBad g (f.bad * 2 ^ 16 + (f.cells != 0).toNat * 2 ^ 15 + f.timing.toNat * 2 ^ 14)
  if s.missLimit g ≤ run ∧ !s.b st 31 then (((s.setB st 31 true).setB st 0 true).raiseHead .watchMismatch g 0).showFault else s

/-- A good frame counts towards the end of the fault (R316). -/
def State.goodFrame (s : State) (g : Nat) : State :=
  let st := Reg.headWatchStat g
  let clean := min ((s.head g).clean + 1) 255
  let s := (s.setF st 27 24 0).onHead g fun x => { x with clean := clean }
  if s.b st 31 && !s.b (Reg.headWatch g) 30 && decide (8 ≤ clean) then (s.setB st 31 false).showFault else s

theorem badFrame_scans (s : State) (g : Nat) (f : WFrame) : scans z h s (s.badFrame g f) := by
  have hst : ¬ scanFree z h (Reg.headWatchStat g) := watchStat_scanFree g
  have hbad : ¬ scanFree z h (Reg.headWatchBadCnt g) := watch_scanFree g 0x8C (by omega) (by unfold Reg.headWatchBadCnt; omega)
  have hcount : ∀ (run : Nat) (u : HeadSt → HeadSt) (d : Nat), (∀ x, (u x).core = x.core) → (∀ x, (u x).zones = x.zones) →
      scans z h s (((((s.setF (Reg.headWatchStat g) 27 24 run).onHead g u).countErr (Reg.headWatchBadCnt g) 16 1).setB
        (Reg.headWatchStat g) 1 true).raiseHead .lookoutBad g d) := fun run u d hc hz =>
    ((((scans_setF s 27 24 run hst).trans (scans_onHead _ g u hc fun _ => hz)).trans (countErr_scans _ 16 1 hbad)).trans
      (scans_setB _ 1 true hst)).trans (raiseHead_scans ..)
  unfold State.badFrame
  dsimp only
  generalize hu : State.raiseHead _ Ev.lookoutBad g _ = u
  have hd : scans z h s u := hu ▸ hcount _ _ _ (fun _ => rfl) (fun _ => rfl)
  exact scans_ite _ (hd.trans ((((scans_setB _ 31 true hst).trans (scans_setB _ 0 true hst)).trans (raiseHead_scans ..)).trans (showFault_scans _))) hd

theorem goodFrame_scans (s : State) (g : Nat) : scans z h s (s.goodFrame g) := by
  have hst : ¬ scanFree z h (Reg.headWatchStat g) := watchStat_scanFree g
  unfold State.goodFrame
  dsimp only
  generalize hu : State.onHead _ g _ = u
  have hd : scans z h s u := hu ▸ (scans_setF s 27 24 0 hst).trans (scans_onHead _ g _ (fun _ => rfl) (fun _ _ => rfl))
  exact scans_ite _ (hd.trans ((scans_setB _ 31 false hst).trans (showFault_scans _))) hd

theorem final_scans (s : State) (g : Nat) (f : WFrame) : scans z h s (s.final g f) := by
  have hregs : ∀ avail last, scans z h s (s.verdictRegs g f avail last) := fun avail last => verdictRegs_scans ..
  have hbad := fun u : State => badFrame_scans (z := z) (h := h) u g f
  have hgood := fun u : State => goodFrame_scans (z := z) (h := h) u g
  unfold State.verdictRegs at hregs
  unfold State.badFrame at hbad
  unfold State.goodFrame at hgood
  unfold State.final
  dsimp only at hbad hgood ⊢
  generalize hu : forAll _ _ (State.wr _ (Reg.headWatchCellHi g) _) = u
  have hd : scans z h s u := hu ▸ hregs ..
  exact (scans_ite _ (hd.trans (hbad u)) (hd.trans (hgood u))).trans (levelTake_scans ..)

theorem settle_scans (n g : Nat) : ∀ s : State, scans z h s (s.settle n g) := by
  induction n with
  | zero => exact scans.refl z h
  | succ n ih =>
    intro s
    unfold State.settle
    split
    · exact scans.refl z h s
    next f r hf =>
      have hdrop : scans z h s (s.onHead g fun x => { x with frames := r }) := scans_onHead s g _ (fun _ => rfl) (fun _ _ => rfl)
      generalize (s.onHead g fun x => { x with frames := r }) = u at hdrop ⊢
      have hnext := (hdrop.trans (final_scans u g f)).trans (ih (u.final g f))
      exact scans_ite _ (scans.refl z h s) hnext

end

end Sys2Proof.Machine
end
section
/-! PROOF. What a head does before it takes a commit at its gate line (R280, R298, R308, R311 to R313). -/

namespace Sys2Proof.Machine

section
variable {z : Bool} {h : Nat}

/-! ### The comparison (R311 to R313, R319) -/

theorem sigOpen_scans (s : State) {a : Nat} (ha : ¬ scanFree z h a) : scans z h s (s.sigOpen a) := (fresh_scans s 32).trans (scans_wr _ _ ha)

theorem glassSig_scanFree (g : Nat) {r : Nat} (hr : r < 16) : ¬ scanFree z h (Reg.headLkGlassSig g r) :=
  region_scanFree g 0x18 hr (by omega) (by unfold Reg.headLkGlassSig; omega)

theorem rbSig_scanFree (g : Nat) {r : Nat} (hr : r < 16) : ¬ scanFree z h (Reg.headLkRbSig g r) :=
  region_scanFree g 0x14 hr (by omega) (by unfold Reg.headLkRbSig; omega)

theorem showGlass_scans (s : State) (g mask : Nat) (crcs : Nat → Nat) : scans z h s (s.showGlass g mask crcs) :=
  scans_forAll _ _ (fun _ hr t => scans_wr t _ (glassSig_scanFree g (regions_lt (List.mem_filter.mp hr).1))) s

theorem showProof_scans (s : State) (g : Nat) (rb : List (Fin 16 × Option Word)) : scans z h s (s.showProof g rb) := by
  have hread : scans z h s (if (s.receivers (s.outPort g)).isEmpty then s else forAll (s.regions g) (fun r u => match s.rbSig g r rb with
      | some w => u.wr (Reg.headLkRbSig g r) w
      | none => u.sigOpen (Reg.headLkRbSig g r)) s) := by
    refine scans_ite _ (scans.refl z h s) (scans_forAll _ _ (fun r hr t => ?_) s)
    have hfree : ¬ scanFree z h (Reg.headLkRbSig g r) := rbSig_scanFree g (regions_lt hr)
    split
    · exact scans_wr t _ hfree
    · exact sigOpen_scans t hfree
  unfold State.showProof
  dsimp only
  generalize hu : (if (s.receivers (s.outPort g)).isEmpty then s else _) = u
  have hd : scans z h s u := hu ▸ hread
  split
  · exact hd.trans (showGlass_scans ..)
  · exact hd.trans (scans_forAll _ _ (fun _ hr t => sigOpen_scans t (glassSig_scanFree g (regions_lt (List.mem_filter.mp hr).1))) u)

theorem settleAll_scans (s : State) (g : Nat) : scans z h s (s.settleAll g) := settle_scans (s.head g).frames.length g s

theorem compareWatch_scans (s : State) (g : Nat) (rb : List (Fin 16 × Option Word)) : scans z h s (s.compareWatch g rb) := by
  have hform : ∃ (f : WFrame), s.compareWatch g rb =
      ((s.showProof g rb).onHead g fun x => { x with frames := x.frames ++ [f], seen := some (x.stroke % 65536) }).settleAll g := by
    unfold State.compareWatch
    exact ⟨_, rfl⟩
  obtain ⟨f, hform⟩ := hform
  rw [hform]
  have hframe := scans_onHead (z := z) (h := h) (s.showProof g rb) g (fun x => { x with frames := x.frames ++ [f], seen := some (x.stroke % 65536) })
    (fun _ => rfl) (fun _ _ => rfl)
  exact ((showProof_scans ..).trans hframe).trans (settleAll_scans _ g)

theorem compareOther_scans (s : State) (g : Nat) : scans z h s (s.compareOther g) := by
  have hcount := fun n : Nat => scans_forAll (z := z) (h := h) ((upto 16).filter n.testBit) (fun r t => t.countErr (Reg.headLkMissCnt g r) 16 1)
    (fun _ hr t => countErr_scans t 16 1 (missCnt_scanFree g (List.mem_range.mp (List.mem_filter.mp hr).1))) s
  unfold State.compareOther
  dsimp only
  generalize s.fixedBad g = bad
  exact (hcount bad).trans (scans_onlyIf _ (fun t => t.raiseHead .lookoutBad g (bad * 2 ^ 16)) (raiseHead_scans ..))

theorem showSigs_scans (s : State) (g : Nat) : scans true h s (s.showSigs g) := by
  refine (scans_forAll _ _ (fun r hr t => scans_wr t _ (region_scanFree g 0x10 (regions_lt hr) (by omega) (by unfold Reg.headLkSig; omega))) s).trans
    (scans_forAll _ _ (fun i hi t => ?_) _)
  exact (scans_wr t _ (icon_scanFree g i 0xC (icons_lt hi) (by unfold Reg.headTtSig; omega) (.inr rfl))).trans
    (scans_setB _ 30 _ (icon_scanFree g i 8 (icons_lt hi) (by unfold Reg.headTtState; omega) (.inl rfl)))

theorem compareFrame_scans (s : State) (g : Nat) (cut : Bool) (rb : List (Fin 16 × Option Word)) : scans true h s (s.compareFrame g cut rb) := by
  unfold State.compareFrame
  exact scans_ite _ (scans.refl true h s) (scans_ite _ ((showSigs_scans ..).trans (compareWatch_scans ..)) ((showSigs_scans ..).trans (compareOther_scans ..)))

/-! ### What shows, and what goes (R280, R300) -/

theorem showLayers_scans (s : State) (g : Nat) : scans z h s (s.showLayers g) :=
  scans_forAll _ _ (fun _ hk t => scans_setB t 31 _ (layStat_scanFree g (slotsOf_lt hk))) s

theorem showOn_scans (s : State) (g : Nat) : scans true h s (s.showOn g) :=
  scans_forAll _ _ (fun i hi t => scans_setB t 31 _ (icon_scanFree g i 8 (icons_lt hi) (by unfold Reg.headTtState; omega) (.inl rfl))) s

theorem withPrt_scans (s : State) (p : PrtSt) : scans z h s { s with prt := p } := scans_of_fields rfl rfl

theorem rbCounts_scans (s : State) {k : Nat} (hk : k < 32) (mism inval : Nat) : scans z h s (s.rbCounts k mism inval) := by
  have hm : ¬ scanFree z h (Reg.prtRbMismatch k) := far_scanFree (by unfold Reg.prtRbMismatch; omega)
  have hi : ¬ scanFree z h (Reg.prtRbCodeErr k) := far_scanFree (by unfold Reg.prtRbCodeErr; omega)
  unfold State.rbCounts
  dsimp only
  generalize hu : (if inval = 0 then _ else _) = u
  have hd : scans z h s u := by
    rw [← hu]
    exact scans_ite _ (scans_ite _ (scans.refl z h s) (countErr_scans s 24 mism hm))
      ((scans_ite _ (scans.refl z h s) (countErr_scans s 24 mism hm)).trans (countErr_scans _ 24 inval hi))
  have htold := fun (p : PrtSt) (d e : Nat) => (hd.trans (withPrt_scans u p)).trans (raise_scans _ .portRbMismatch d e)
  exact scans_ite _ hd (htold ..)

theorem symbolCounts_scans (sym : List (Fin 32 × Nat × Nat)) (s : State) : scans z h s (symbolCounts sym s) :=
  scans_forAll _ _ (fun x _ t => rbCounts_scans t x.1.isLt ..) s

theorem releasePins_scans (s : State) (g : Nat) : scans z h s (s.releasePins g) :=
  scans_forAll _ _ (fun _ _ _ => layUnpin_scans ..) s

theorem judgeCovered_scans (s : State) (g : Nat) : scans z h s (s.judgeCovered g) := by
  refine scans_forAll _ _ (fun k hk t => ?_) s
  have hset := fun v : Bool => scans_setB (z := z) (h := h) t 30 v (layStat_scanFree g (slotsOf_lt hk))
  exact scans_ite _ ((hset _).trans (layDrop_scans ..)) (hset _)

theorem stopDisabled_scans (s : State) (g : Nat) : scans z h s (s.stopDisabled g) :=
  scans_ite _ (scans.refl z h s) (scans_forAll _ _ (fun _ _ _ => layDrop_scans ..) s)

end

/-! ### The zone statistics close (R280) -/

theorem closeZones_head (s : State) (h : Nat) : (s.closeZones h).head h = { s.head h with zones := [] } ∧ (s.closeZones h).hed.sync = s.hed.sync := by
  have hhed := fun (zs : NMap (Nat × Nat × Nat)) => forAll_field State.hed (fun (e : Nat × Nat × Nat × Nat) t =>
    t.wr (Reg.headZone h e.1) (BitVec.ofNat 32 (e.2.1 * 2 ^ 16 + (openDiv 16 e.2.2.1 (max 1 e.2.2.2)).toNat))) zs (fun _ _ _ => rfl) s
  have hhed := hhed (s.head h).zones
  unfold State.closeZones
  dsimp only
  generalize forAll _ _ s = u at hhed ⊢
  refine ⟨(nget_nset_self ..).trans ?_, (congrArg HedSt.sync hhed :)⟩
  rw [State.head, State.head, hhed]

theorem closeZones_rd {s : State} {h : Nat} (hz : ∀ e ∈ (s.head h).zones, e.1 < 1024) {a : Nat} (ha : scanFree false h a) :
    (s.closeZones h).rd a = s.rd a := by
  unfold State.closeZones
  refine forAll_keeps (fun t => t.rd a = s.rd a) (fun (e : Nat × Nat × Nat × Nat) t =>
    t.wr (Reg.headZone h e.1) (BitVec.ofNat 32 (e.2.1 * 2 ^ 16 + (openDiv 16 e.2.2.1 (max 1 e.2.2.2)).toNat))) (s.head h).zones s (fun e he t ht => ?_) rfl
  have hfree : ¬ scanFree false h (Reg.headZone h e.1) :=
    block_scanFree h (0x2000 + e.1 * 4) (by unfold Reg.headZone; omega) (by have := hz e he; omega)
  refine (t.rd_wr_ne _ ?_).trans ht
  rintro rfl
  exact hfree ha

/-! ### The icons take their states (R306, R308) -/

theorem iconAsked_congr {s t : State} {h i : Nat} (hh : h < 64) (hi : i < 64) (hr : ∀ a, scanFree true h a → t.rd a = s.rd a) :
    t.iconAsked h i = s.iconAsked h i := by
  have hcfg := hr _ ⟨hh, .inr (.inr (.inr (.inr (.inr (.inl ⟨i, hi, rfl⟩)))))⟩
  have hreq := hr _ ⟨hh, .inr (.inr (.inr (.inr (.inr (.inr (.inl ⟨i / 16, by omega, rfl⟩))))))⟩
  have hpin := hr _ ⟨hh, .inr (.inr (.inr (.inr (.inr (.inr (.inr (.inl rfl)))))))⟩
  unfold State.iconAsked
  dsimp only
  rw [hcfg, State.f_of_rd hreq, State.b_of_rd hpin]

theorem iconAsked_lt (s : State) (h i : Nat) : s.iconAsked h i < 4 := by
  have hreq : s.f (Reg.headTtReq h (i / 16)) (2 * (i % 16) + 1) (2 * (i % 16)) < 4 :=
    lt_of_lt_of_eq (bf_lt _ (2 * (i % 16) + 1) (2 * (i % 16))) (congrArg (2 ^ ·) (by omega : 2 * (i % 16) + 1 + 1 - 2 * (i % 16) = 2))
  have hpin : (if s.b Reg.ttPinAcc (bf (s.rd (Reg.headTtCfg h i)) 25 21) then bf (s.rd (Reg.headTtCfg h i)) 28 27 else 0) < 4 := by
    have := bf_lt (s.rd (Reg.headTtCfg h i)) 28 27
    split <;> omega
  unfold State.iconAsked
  dsimp only
  split
  · exact hpin
  · exact max_lt hreq hpin
  · exact hreq

/-- Icon `i` takes the state that its sources ask for. -/
def State.takeIcon (s : State) (h i : Nat) : State :=
  let a := s.iconAsked h i
  let new := decide (2 ≤ a) && a != s.iconState h i
  (s.setF (Reg.headTtState h i) 17 16 a).onHead h fun x =>
    { x with blinkNew := if new then (if x.blinkNew.contains i then x.blinkNew else x.blinkNew ++ [i])
               else if a < 2 then x.blinkNew.filter (· ≠ i) else x.blinkNew }

theorem takeIcons_eq (s : State) (h : Nat) : s.takeIcons h = forAll (s.icons h) (fun i t => t.takeIcon h i) s := rfl

theorem takeIcon_scans (s : State) {z : Bool} {h i : Nat} (hfree : ¬ scanFree z h (Reg.headTtState h i)) : scans z h s (s.takeIcon h i) := by
  unfold State.takeIcon
  dsimp only
  exact (scans_setF s 17 16 _ hfree).trans (scans_onHead _ h _ (fun _ => rfl) (fun _ _ => rfl))

theorem takeIcon_free (s : State) {h i : Nat} (hi : i < 64) : scans true h s (s.takeIcon h i) :=
  takeIcon_scans s (icon_scanFree h i 8 hi (by unfold Reg.headTtState; omega) (.inl rfl))

theorem takeIcons_scans (s : State) (h : Nat) : scans true h s (s.takeIcons h) :=
  scans_forAll _ _ (fun _ hi t => takeIcon_free t (icons_lt hi)) s

theorem takeIcon_state (s : State) (h i : Nat) : (s.takeIcon h i).iconState h i = s.iconAsked h i := by
  unfold State.takeIcon
  dsimp only
  refine (State.f_congr (t := s.setF (Reg.headTtState h i) 17 16 (s.iconAsked h i)) rfl _ 17 16).trans ?_
  rw [State.f_setF_self _ _ _ _ _ (by omega) (by omega)]
  exact Nat.mod_eq_of_lt (iconAsked_lt s h i)

theorem takeIcon_other (s : State) {h i j : Nat} (hij : i ≠ j) : (s.takeIcon h j).iconState h i = s.iconState h i :=
  State.f_of_rd (s.rd_setF_ne 17 16 _ (by unfold Reg.headTtState; omega)) 17 16

theorem forAll_takeIcon_state {h i : Nat} (hh : h < 64) : ∀ (l : List Nat) (s : State), l.Nodup → (∀ j ∈ l, j < 64) → i ∈ l →
    (forAll l (fun i t => t.takeIcon h i) s).iconState h i = s.iconAsked h i
  | [], _, _, _, hi => absurd hi List.not_mem_nil
  | j :: l, s, hnd, hlt, hi => by
    obtain ⟨hj, hl⟩ := List.nodup_cons.mp hnd
    rw [forAll_cons]
    by_cases hij : i = j
    · subst hij
      refine forAll_keeps (fun t => t.iconState h i = s.iconAsked h i) _ l _ (fun k hk t ht => ?_) (takeIcon_state s h i)
      exact (takeIcon_other t (ne_of_mem_of_not_mem hk hj).symm).trans ht
    · have hmem : i ∈ l := (List.mem_cons.mp hi).resolve_left hij
      rw [forAll_takeIcon_state hh l _ hl (fun k hk => hlt k (List.mem_cons_of_mem _ hk)) hmem]
      exact iconAsked_congr hh (hlt i hi) (takeIcon_free s (hlt j List.mem_cons_self)).2.2.1

theorem takeIcons_states {s : State} {h i : Nat} (hh : h < 64) (hi : i ∈ s.icons h) : (s.takeIcons h).iconState h i = s.iconAsked h i := by
  have hnd : (s.icons h).Nodup := by
    unfold State.icons
    split
    · exact List.nodup_range.filter _
    · exact List.nodup_nil
  exact forAll_takeIcon_state hh _ s hnd (fun j hj => icons_lt hj) hi

end Sys2Proof.Machine
end
section
/-! PROOF. A head takes a commit at its gate line (R281 to R284, R298). -/

namespace Sys2Proof.Machine

/-! ### A commit leaves the frame in progress -/

/-- From `s` to `t` head `h` scans as before, its gate line passed or not as before. -/
def poised (h : Nat) (s t : State) : Prop := (t.head h).scan = (s.head h).scan ∧ (t.head h).gated = (s.head h).gated

section
variable {h : Nat} {s t u : State}

theorem poised.refl (h : Nat) (s : State) : poised h s s := ⟨rfl, rfl⟩

theorem poised.trans (h1 : poised h s t) (h2 : poised h t u) : poised h s u := ⟨h2.1.trans h1.1, h2.2.trans h1.2⟩

theorem poised_of_heads (hh : t.hed.heads = s.hed.heads) : poised h s t := by
  unfold poised State.head
  rw [hh]
  exact ⟨rfl, rfl⟩

theorem poised_onHead (s : State) (j : Nat) (g : HeadSt → HeadSt) (hg : ∀ x, (g x).scan = x.scan ∧ (g x).gated = x.gated) : poised h s (s.onHead j g) := by
  by_cases hj : h = j
  · subst hj
    have hself : (s.onHead h g).head h = g (s.head h) := nget_nset_self ..
    exact ⟨by rw [hself, (hg _).1], by rw [hself, (hg _).2]⟩
  · have hother : (s.onHead j g).head h = s.head h := nget_nset_ne _ _ _ hj
    exact ⟨by rw [hother], by rw [hother]⟩

theorem poised_forAll {α : Type} (l : List α) (g : α → State → State) (hg : ∀ a ∈ l, ∀ t, poised h t (g a t)) (s : State) : poised h s (forAll l g s) :=
  forAll_keeps (fun t => poised h s t) g l s (fun a ha t ht => ht.trans (hg a ha t)) (poised.refl h s)

theorem poised_ite (c : Prop) [Decidable c] (h1 : poised h s t) (h2 : poised h s u) : poised h s (if c then t else u) := by
  split <;> assumption

end

section
variable {h : Nat}

theorem raiseHead_hed (s : State) (e : Ev) (j data : Nat) : (s.raiseHead e j data).hed = s.hed :=
  (congrArg State.hed (s.raiseRaw_only e.src e.code j (s.headLine j) (j + data)).1 :)

theorem copied_hed (s : State) (j : Nat) : (s.copied j).hed = s.hed := by
  have hwr : ∀ (l : List (Nat × Word)) (t : State), (l.foldl (fun t e => t.wr e.1 e.2) t).hed = t.hed := fun l t =>
    forAll_field State.hed (fun (e : Nat × Word) t => t.wr e.1 e.2) l (fun _ _ _ => rfl) t
  exact hwr _ s

theorem judgeOutside_hed (s : State) (j : Nat) : (s.judgeOutside j).hed = s.hed :=
  forAll_field State.hed (fun k t => t.setB (Reg.headLayStat j k) 28 (t.layOn j k && !t.geomOk j k)) _ (fun _ _ _ => rfl) s

theorem applyCommit_poised (s : State) (j : Nat) (bad : List Nat) : poised h s (s.applyCommit j bad) := by
  unfold State.applyCommit
  dsimp only
  have hcopy : ∀ m : NMap Word, poised h s { s.copied j with regs := m } := fun m => poised_of_heads (congrArg HedSt.heads (copied_hed s j))
  generalize hn : ({ s.copied j with regs := _ } : State) = n
  have hd : poised h s n := hn ▸ hcopy _
  refine poised.trans ?_ (poised_of_heads (congrArg HedSt.heads (judgeOutside_hed _ j)))
  exact poised_ite _ (hd.trans (poised_onHead n j _ fun _ => ⟨rfl, rfl⟩)) hd

/-- The result of a commit, before the events that tell of it. -/
def State.commitResult (s : State) (j : Nat) (st lo hi : Word) (bad : List (Nat × Nat)) : State :=
  forAll bad (fun e t => t.setF (Reg.headLayStat j e.1) 7 0 e.2)
    (((s.wr (Reg.headCommitStatus j) st).wr (Reg.headCommitStrokeLo j) lo).wr (Reg.headCommitStrokeHi j) hi)

theorem commitResult_shows (s : State) (j : Nat) (st lo hi : Word) (bad : List (Nat × Nat)) :
    (s.commitResult j st lo hi bad).hed = s.hed ∧ (s.commitResult j st lo hi bad).rd (Reg.headCommitStatus j) = st := by
  refine ⟨forAll_field State.hed (fun (e : Nat × Nat) t => t.setF (Reg.headLayStat j e.1) 7 0 e.2) bad (fun _ _ _ => rfl) _, ?_⟩
  refine (forAll_field (fun t => t.rd (Reg.headCommitStatus j)) (fun (e : Nat × Nat) t => t.setF (Reg.headLayStat j e.1) 7 0 e.2) bad
    (fun e _ t => t.rd_setF_ne 7 0 _ ?_) _).trans ?_
  · unfold Reg.headCommitStatus Reg.headLayStat; omega
  · rw [State.rd_wr_ne _ _ (by unfold Reg.headCommitStatus Reg.headCommitStrokeHi; omega),
      State.rd_wr_ne _ _ (by unfold Reg.headCommitStatus Reg.headCommitStrokeLo; omega), State.rd_wr_self]

/-- The events of a commit, and its end. -/
def State.commitTold (s : State) (j : Nat) (whole : Bool) (mask : Nat) : State :=
  (onlyIf (mask != 0) (fun t => t.raiseHead .geometryRefused j (mask * 2 ^ 8)) (onlyIf whole (fun t => t.raiseHead .headModeRefused j 0) s)).onHead j
    fun x => { x with pend := none }

theorem commitTold_shows (s : State) (j : Nat) (whole : Bool) (mask : Nat) :
    poised h s (s.commitTold j whole mask) ∧ ((s.commitTold j whole mask).head j).pend = none ∧
      (j < 64 → (s.commitTold j whole mask).rd (Reg.headCommitStatus j) = s.rd (Reg.headCommitStatus j)) := by
  have h1 : scans true j s (onlyIf whole (fun t => t.raiseHead .headModeRefused j 0) s) := scans_onlyIf _ (fun t => t.raiseHead .headModeRefused j 0) (raiseHead_scans ..)
  have h2 := fun u : State => scans_onlyIf (z := true) (h := j) (s := u) (mask != 0) (fun t => t.raiseHead .geometryRefused j (mask * 2 ^ 8)) (raiseHead_scans ..)
  have hhed : (onlyIf (mask != 0) (fun t => t.raiseHead .geometryRefused j (mask * 2 ^ 8)) (onlyIf whole (fun t => t.raiseHead .headModeRefused j 0) s)).hed = s.hed :=
    (onlyIf_field State.hed _ (fun t => t.raiseHead .geometryRefused j (mask * 2 ^ 8)) _ (raiseHead_hed ..)).trans
      (onlyIf_field State.hed _ (fun t => t.raiseHead .headModeRefused j 0) _ (raiseHead_hed ..))
  have hall := h1.trans (h2 _)
  unfold State.commitTold
  generalize onlyIf (mask != 0) _ _ = u at hhed hall ⊢
  exact ⟨(poised_of_heads (congrArg HedSt.heads hhed)).trans (poised_onHead u j _ fun _ => ⟨rfl, rfl⟩),
    congrArg HeadSt.pend (nget_nset_self ..), fun hj => hall.2.2.1 _ ⟨hj, .inr (.inr (.inr (.inr (.inl rfl))))⟩⟩

/-- What `COMMIT_STATUS` then reads. -/
def commitWord (st : Word) (seq : Nat) (whole : Bool) (mask : Nat) : Word :=
  setFld (setFld (setBit (setBit st 31 false) 29 whole) 23 16 mask) 15 0 seq

theorem commitWord_fields (st : Word) (seq : Nat) (whole : Bool) (mask : Nat) :
    bit (commitWord st seq whole mask) 31 = false ∧ bf (commitWord st seq whole mask) 15 0 = seq % 65536 := by
  unfold commitWord
  refine ⟨?_, bf_setFld_self _ 15 0 seq (by omega) (by omega)⟩
  rw [bit_setFld_outside _ _ _ _ (by omega) (by omega), bit_setFld_outside _ _ _ _ (by omega) (by omega), bit_setBit_ne _ _ (by omega),
    bit_setBit_self _ _ _ (by omega)]

theorem reportCommit_eq (s : State) (j seq : Nat) (whole : Bool) (bad : List (Nat × Nat)) : ∃ mask lo hi, s.reportCommit j seq whole bad =
    (s.commitResult j (commitWord (s.rd (Reg.headCommitStatus j)) seq whole mask) lo hi bad).commitTold j whole mask := by
  unfold State.reportCommit
  exact ⟨_, _, _, rfl⟩

theorem reportCommit_poised (s : State) (j seq : Nat) (whole : Bool) (bad : List (Nat × Nat)) : poised h s (s.reportCommit j seq whole bad) := by
  obtain ⟨mask, lo, hi, heq⟩ := reportCommit_eq s j seq whole bad
  rw [heq]
  obtain ⟨hhed, -⟩ := commitResult_shows s j (commitWord (s.rd (Reg.headCommitStatus j)) seq whole mask) lo hi bad
  exact (poised_of_heads (congrArg HedSt.heads hhed)).trans (commitTold_shows _ j whole mask).1

theorem reportCommit_shows (s : State) {j : Nat} (hj : j < 64) (seq : Nat) (whole : Bool) (bad : List (Nat × Nat)) :
    ((s.reportCommit j seq whole bad).head j).pend = none ∧ (s.reportCommit j seq whole bad).b (Reg.headCommitStatus j) 31 = false ∧
      (s.reportCommit j seq whole bad).f (Reg.headCommitStatus j) 15 0 = seq % 65536 := by
  obtain ⟨mask, lo, hi, heq⟩ := reportCommit_eq s j seq whole bad
  rw [heq]
  obtain ⟨-, hrd⟩ := commitResult_shows s j (commitWord (s.rd (Reg.headCommitStatus j)) seq whole mask) lo hi bad
  obtain ⟨-, h2, h3⟩ := commitTold_shows (h := j) (s.commitResult j (commitWord (s.rd (Reg.headCommitStatus j)) seq whole mask) lo hi bad) j whole mask
  obtain ⟨hbit, hfld⟩ := commitWord_fields (s.rd (Reg.headCommitStatus j)) seq whole mask
  refine ⟨h2, ?_, ?_⟩
  · rw [State.b, h3 hj, hrd, hbit]
  · rw [State.f, h3 hj, hrd, hfld]

/-- What one head of a commit does. -/
def State.commitOne (s : State) (j seq : Nat) (c : Bool × List (Nat × Nat)) (whole : Bool) : State :=
  (if whole then s.reloadShadows (headAddr j) else s.applyCommit j (c.2.map (·.1))).reportCommit j seq c.1 c.2

theorem commitOne_poised (s : State) (j seq : Nat) (c : Bool × List (Nat × Nat)) (whole : Bool) : poised h s (s.commitOne j seq c whole) := by
  have hreload : poised h s (s.reloadShadows (headAddr j)) := poised_of_heads rfl
  have happly : poised h s (s.applyCommit j (c.2.map (·.1))) := applyCommit_poised ..
  unfold State.commitOne
  generalize s.reloadShadows (headAddr j) = u at hreload ⊢
  generalize s.applyCommit j (c.2.map (·.1)) = v at happly ⊢
  exact (poised_ite (whole = true) hreload happly).trans (reportCommit_poised _ j seq c.1 c.2)

theorem commitHeads_eq (s : State) (hs : List Nat) (seq : Nat) (sync : Bool) : ∃ (chk : Nat → Bool × List (Nat × Nat)) (refused : Bool),
    (s.commitHeads hs seq sync).2 = forAll (hs.map fun j => (j, chk j)) (fun r t => t.commitOne r.1 seq r.2 (r.2.1 || (sync && refused))) s := by
  unfold State.commitHeads
  exact ⟨_, _, rfl⟩

theorem commitHeads_poised (s : State) (hs : List Nat) (seq : Nat) (sync : Bool) : poised h s (s.commitHeads hs seq sync).2 := by
  obtain ⟨chk, refused, heq⟩ := commitHeads_eq s hs seq sync
  rw [heq]
  exact poised_forAll _ _ (fun r _ t => commitOne_poised t r.1 seq r.2 _) s

theorem commitHeads_one (s : State) {j : Nat} (hj : j < 64) (seq : Nat) : ((s.commitHeads [j] seq false).2.head j).pend = none ∧
    (s.commitHeads [j] seq false).2.b (Reg.headCommitStatus j) 31 = false ∧ (s.commitHeads [j] seq false).2.f (Reg.headCommitStatus j) 15 0 = seq % 65536 := by
  obtain ⟨chk, refused, heq⟩ := commitHeads_eq s [j] seq false
  rw [heq]
  exact reportCommit_shows _ hj seq (chk j).1 (chk j).2

end

end Sys2Proof.Machine
end
section
/-! PROOF. The gate line, the head's other commands, and heads as a whole (R269 to R317). -/

namespace Sys2Proof.Machine

/-! ### The gate line (R298) -/

theorem takeCommit_poised (s : State) (h j : Nat) : poised h s (s.takeCommit j) := by
  have hone : poised h s (match (s.head j).pend with | some q => (s.commitHeads [j] q false).2 | none => s) := by
    split
    · exact commitHeads_poised ..
    · exact poised.refl h s
  unfold State.takeCommit
  split
  next hs hsync =>
    have hset : ∀ w seq, poised h s ((State.commitHeads { s with hed := { s.hed with sync := none, ready := [] } } hs seq true).2.wr Reg.hedSyncStat w) :=
      fun w seq => ((poised_of_heads rfl : poised h s { s with hed := { s.hed with sync := none, ready := [] } }).trans
        (commitHeads_poised ..)).trans (poised_of_heads rfl)
    have hready : ∀ r, poised h s { s with hed := { s.hed with ready := r } } := fun r => poised_of_heads rfl
    dsimp only
    exact poised_ite _ (poised_ite _ (hset ..) (hready _)) hone
  next => exact hone

theorem takeCommit_one {s : State} {h q : Nat} (hs : s.hed.sync = none) (hp : (s.head h).pend = some q) : s.takeCommit h = (s.commitHeads [h] q false).2 := by
  unfold State.takeCommit
  rw [hs, hp]

theorem takeCommit_none {s : State} {h : Nat} (hs : s.hed.sync = none) (hp : (s.head h).pend = none) : s.takeCommit h = s := by
  unfold State.takeCommit
  rw [hs, hp]

/-- Steps 1 and 2 of the gate line: the frame is compared, its statistics close. -/
def State.gatePassed (s : State) (h : Nat) (cut : Bool) (rb : List (Fin 16 × Option Word)) : State :=
  ((((s.showLayers h).showOn h).compareFrame h cut rb).closeZones h).onHead h fun x => { x with gated := true }

/-- Its last step: the layers of the heads that took a commit are judged anew. -/
def State.gateClosed (s : State) (h : Nat) (hs : List Nat) : State := (forAll hs (fun g t => (t.judgeCovered g).stopDisabled g) s).lineMatch h

theorem gateLine_eq {s : State} {h : Nat} (rb : List (Fin 16 × Option Word)) (hs : (s.head h).scan = true) (hg : (s.head h).gated = false) :
    ∃ l, gateLine h rb s = (((((s.gatePassed h false rb).releasePins h).takeCommit h).takeIcons h).gateClosed h l) := by
  refine ⟨(s.gatePassed h false rb).commitSet h, ?_⟩
  unfold gateLine
  exact if_pos (by simp [hs, hg])

theorem gateClosed_scans (s : State) (z : Bool) (h j : Nat) (l : List Nat) : scans z h s (s.gateClosed j l) :=
  (scans_forAll _ _ (fun _ _ _ => (judgeCovered_scans ..).trans (stopDisabled_scans ..)) s).trans (lineMatch_scans ..)

theorem gatePassed_head (s : State) (h : Nat) (cut : Bool) (rb : List (Fin 16 × Option Word)) :
    ((s.gatePassed h cut rb).head h).scan = (s.head h).scan ∧ ((s.gatePassed h cut rb).head h).gated = true ∧
      ((s.gatePassed h cut rb).head h).pend = (s.head h).pend ∧ (s.gatePassed h cut rb).hed.sync = s.hed.sync := by
  have hcmp : scans true h s (((s.showLayers h).showOn h).compareFrame h cut rb) :=
    ((showLayers_scans ..).trans (showOn_scans ..)).trans (compareFrame_scans ..)
  unfold State.gatePassed
  generalize ((s.showLayers h).showOn h).compareFrame h cut rb = u at hcmp ⊢
  obtain ⟨hc, hs, -, -⟩ := hcmp
  obtain ⟨hz, hzs⟩ := closeZones_head u h
  simp only [HeadSt.core, Prod.mk.injEq] at hc
  obtain ⟨hscan, -, -, -, -, -, -, hpend⟩ := hc
  have hself : ((u.closeZones h).onHead h fun x => { x with gated := true }).head h = { (u.closeZones h).head h with gated := true } := nget_nset_self ..
  rw [hself, hz]
  exact ⟨hscan, rfl, hpend, hzs.trans hs⟩

theorem gatePassed_rd {s : State} {h : Nat} (cut : Bool) (rb : List (Fin 16 × Option Word)) (hz : ∀ e ∈ (s.head h).zones, e.1 < 1024)
    {a : Nat} (ha : scanFree true h a) : (s.gatePassed h cut rb).rd a = s.rd a := by
  have hcmp : scans true h s (((s.showLayers h).showOn h).compareFrame h cut rb) :=
    ((showLayers_scans ..).trans (showOn_scans ..)).trans (compareFrame_scans ..)
  unfold State.gatePassed
  generalize ((s.showLayers h).showOn h).compareFrame h cut rb = u at hcmp ⊢
  obtain ⟨-, -, hr, hzones⟩ := hcmp
  have hfree : scanFree false h a := by
    obtain ⟨hh, ha⟩ := ha
    refine ⟨hh, ?_⟩
    simp only [Bool.true_eq_false, false_and, or_false] at ha
    exact ha.imp_right (Or.imp_right (Or.imp_right (Or.imp_right (Or.imp_right (Or.imp_right (Or.imp_right Or.inl))))))
  exact (closeZones_rd (by rw [hzones rfl]; exact hz) hfree).trans (hr a ha)

/-- What the gate line shows, once its counters are in. -/
theorem gateLine_shows {s : State} {h : Nat} (hh : h < 64) (rb : List (Fin 16 × Option Word)) (hs : (s.head h).scan = true) (hg : (s.head h).gated = false) :
    let t := gateLine h rb s
    (t.head h).gated = true ∧ (t.head h).scan = true ∧
      (∀ q, s.hed.sync = none → (s.head h).pend = some q →
        (t.head h).pend = none ∧ t.b (Reg.headCommitStatus h) 31 = false ∧ t.f (Reg.headCommitStatus h) 15 0 = q % 65536) ∧
      (s.hed.sync = none → (s.head h).pend = none → (∀ e ∈ (s.head h).zones, e.1 < 1024) → ∀ i ∈ s.icons h, t.iconState h i = s.iconAsked h i) := by
  obtain ⟨l, heq⟩ := gateLine_eq rb hs hg
  obtain ⟨hscan, hgated, hpend, hsync⟩ := gatePassed_head s h false rb
  have hrd := fun hz a ha => gatePassed_rd (s := s) (h := h) false rb hz (a := a) ha
  dsimp only
  rw [heq]
  generalize s.gatePassed h false rb = u at *
  have hpins := releasePins_scans (z := true) (h := h) u h
  generalize u.releasePins h = v at *
  obtain ⟨hvc, hvs, hvr, -⟩ := hpins
  simp only [HeadSt.core, Prod.mk.injEq] at hvc
  obtain ⟨hv1, -, hv3, -, -, -, -, hv8⟩ := hvc
  have htaken := takeCommit_poised v h h
  have hend : ∀ w : State, scans true h w ((w.takeIcons h).gateClosed h l) := fun w => (takeIcons_scans w h).trans (gateClosed_scans ..)
  have hendc := fun w : State => (hend w).1
  simp only [HeadSt.core, Prod.mk.injEq] at hendc
  refine ⟨?_, ?_, fun q hno hq => ?_, fun hno hq hz i hi => ?_⟩
  · exact (hendc _).2.2.1.trans (htaken.2.trans (hv3.trans hgated))
  · exact (hendc _).1.trans (htaken.1.trans (hv1.trans (hscan.trans hs)))
  · rw [takeCommit_one (hvs.trans (hsync.trans hno)) (hv8.trans (hpend.trans hq))]
    obtain ⟨h1, h2, h3⟩ := commitHeads_one v hh q
    generalize (v.commitHeads [h] q false).2 = w at *
    have hst := (hend w).2.2.1 (Reg.headCommitStatus h) ⟨hh, .inr (.inr (.inr (.inr (.inl rfl))))⟩
    exact ⟨(hendc w).2.2.2.2.2.2.2.trans h1, (State.b_of_rd hst 31).trans h2, (State.f_of_rd hst 15 0).trans h3⟩
  · rw [takeCommit_none (hvs.trans (hsync.trans hno)) (hv8.trans (hpend.trans hq))]
    have hall : ∀ a, scanFree true h a → v.rd a = s.rd a := fun a ha => (hvr a ha).trans (hrd hz a ha)
    have hlt := icons_lt hi
    have hmem : i ∈ v.icons h := by
      rwa [icons_congr (hall _ ⟨hh, .inl rfl⟩) fun j hj => hall _ ⟨hh, .inr (.inr (.inr (.inr (.inr (.inl ⟨j, hj, rfl⟩)))))⟩]
    have hst := (gateClosed_scans (v.takeIcons h) false h h l).2.2.1 (Reg.headTtState h i)
      ⟨hh, .inr (.inr (.inr (.inr (.inr (.inr (.inr (.inr ⟨rfl, i, hlt, rfl⟩)))))))⟩
    exact (State.f_of_rd hst 17 16).trans ((takeIcons_states hh hmem).trans (iconAsked_congr hh hlt hall))

end Sys2Proof.Machine
end
section
/-! PROOF. Commits, gangways, tell-tale pins and the timing of watch heads, and heads as a whole (R269 to R317). -/

namespace Sys2Proof.Machine

/-! ### Commits (R281, R284) -/

theorem goWord (w : Word) : bit (w ||| 0x80000000) 31 = true ∧ bf (w ||| 0x80000000) 15 0 = bf w 15 0 := by
  refine ⟨by simp [bit], bf_congr_bits fun i _ hi => ?_⟩
  rw [BitVec.getLsbD_or]
  have hclear : (0x80000000 : Word).getLsbD i = false := by interval_cases i <;> rfl
  rw [hclear, Bool.or_false]

theorem headCommit_shows {s : State} {h : Nat} (w : Word) (hon : s.headOn h = true) :
    let t := headCommit h (w ||| 0x80000000) s
    (t.head h).pend = some (bf w 15 0) ∧ sameRegs s t [Reg.headCommitStatus h] ∧
      if (s.head h).pend = none then t.b (Reg.headCommitStatus h) 31 = true ∧ t.b (Reg.headCommitStatus h) 30 = (s.head h).gated
      else t.rd (Reg.headCommitStatus h) = s.rd (Reg.headCommitStatus h) := by
  obtain ⟨hgo, hseq⟩ := goWord w
  have hself : ∀ g : HeadSt → HeadSt, (s.onHead h g).head h = g (s.head h) := fun _ => nget_nset_self ..
  unfold headCommit
  dsimp only
  rw [hgo, hon, if_neg (by decide), hseq]
  have hpend : ((s.onHead h fun x => { x with pend := some (bf w 15 0) }).head h).pend = some (bf w 15 0) := by rw [hself]
  have hgated : ((s.onHead h fun x => { x with pend := some (bf w 15 0) }).head h).gated = (s.head h).gated := by rw [hself]
  have hregs : (s.onHead h fun x => { x with pend := some (bf w 15 0) }).regs = s.regs := rfl
  generalize (s.onHead h fun x => { x with pend := some (bf w 15 0) }) = u at hpend hgated hregs ⊢
  cases hp : (s.head h).pend with
  | some q =>
    rw [if_pos (by simp), if_neg (by simp)]
    exact ⟨hpend, sameRegs_of_regs hregs, State.rd_congr hregs _⟩
  | none =>
    rw [if_neg (by simp), if_pos rfl]
    refine ⟨hpend, (sameRegs_of_regs hregs).trans ((sameRegs_setB u _ _ (by simp)).trans (sameRegs_setB _ _ _ (by simp))), ?_, ?_⟩
    · exact (State.b_setB_ne _ _ _ (by omega)).trans (u.b_setB_self _ _ _ (by omega))
    · exact (State.b_setB_self _ _ _ _ (by omega)).trans hgated

/-- The timing registers of R284, which the heads of a synchronised commit share. -/
def syncAgree (s : State) : Prop :=
  ∀ a ∈ s.syncHeads, ∀ b ∈ s.syncHeads, ∀ r ∈ [Reg.headHTiming 0, Reg.headVTiming 0, Reg.headRatio 0, Reg.headOffset 0, Reg.headGate 0],
    s.rd (r + 0x4000 * a) = s.rd (r + 0x4000 * b)

/-- The same, as the command judges it: the first head against the others. -/
def State.syncSame (s : State) : Bool :=
  match s.syncHeads with
  | [] => false
  | g :: r => r.all fun h => [Reg.headHTiming 0, Reg.headVTiming 0, Reg.headRatio 0, Reg.headOffset 0, Reg.headGate 0].all fun a =>
      s.rd (a + 0x4000 * h) == s.rd (a + 0x4000 * g)

theorem syncSame_iff (s : State) : s.syncSame = true ↔ s.syncHeads ≠ [] ∧ syncAgree s := by
  unfold State.syncSame syncAgree
  cases hl : s.syncHeads with
  | nil => simp
  | cons g r =>
    have hfirst : (∀ h ∈ r, ∀ x ∈ [Reg.headHTiming 0, Reg.headVTiming 0, Reg.headRatio 0, Reg.headOffset 0, Reg.headGate 0],
        s.rd (x + 0x4000 * h) = s.rd (x + 0x4000 * g)) ↔ ∀ a ∈ g :: r, ∀ b ∈ g :: r,
        ∀ x ∈ [Reg.headHTiming 0, Reg.headVTiming 0, Reg.headRatio 0, Reg.headOffset 0, Reg.headGate 0], s.rd (x + 0x4000 * a) = s.rd (x + 0x4000 * b) := by
      refine ⟨fun hall a ha b hb x hx => ?_, fun hall h hh x hx => hall h (List.mem_cons_of_mem _ hh) g List.mem_cons_self x hx⟩
      have hg : ∀ c ∈ g :: r, s.rd (x + 0x4000 * c) = s.rd (x + 0x4000 * g) := fun c hc => by
        rcases List.mem_cons.mp hc with rfl | hc
        · rfl
        · exact hall c hc x hx
      exact (hg a ha).trans (hg b hb).symm
    rw [← hfirst]
    simp only [List.all_eq_true, beq_iff_eq, ne_eq, reduceCtorEq, not_false_eq_true, true_and]

theorem hedSyncCommit_eq (w : Word) (s : State) : hedSyncCommit (w ||| 0x80000000) s =
    if s.syncSame then
      { forAll s.syncHeads (fun h t => t.setB (Reg.headCommitStatus h) 30 (t.head h).gated) s with hed :=
        { (forAll s.syncHeads (fun h t => t.setB (Reg.headCommitStatus h) 30 (t.head h).gated) s).hed with sync := some s.syncHeads, ready := [] } }.wr
          Reg.hedSyncStat (BitVec.ofNat 32 (2 ^ 31 + bf w 15 0))
    else { s with hed := { s.hed with sync := none, ready := [] } }.wr Reg.hedSyncStat (BitVec.ofNat 32 (2 ^ 30 + bf w 15 0)) := by
  obtain ⟨hgo, hseq⟩ := goWord w
  unfold hedSyncCommit State.syncSame
  dsimp only
  rw [hgo, if_neg (by decide), hseq] <;> rfl

theorem hedSyncCommit_agreed {s : State} (w : Word) (hne : s.syncHeads ≠ []) (ha : syncAgree s) :
    let t := hedSyncCommit (w ||| 0x80000000) s
    t.hed.sync = some s.syncHeads ∧ t.hed.ready = [] ∧ t.rd Reg.hedSyncStat = BitVec.ofNat 32 (2 ^ 31 + bf w 15 0) := by
  dsimp only
  rw [hedSyncCommit_eq, if_pos ((syncSame_iff s).mpr ⟨hne, ha⟩)]
  exact ⟨rfl, rfl, State.rd_wr_self ..⟩

theorem hedSyncCommit_refused {s : State} (w : Word) (hx : s.syncHeads = [] ∨ ¬ syncAgree s) :
    let t := hedSyncCommit (w ||| 0x80000000) s
    t.hed.sync = none ∧ t.rd Reg.hedSyncStat = BitVec.ofNat 32 (2 ^ 30 + bf w 15 0) ∧ sameRegs s t [Reg.hedSyncStat] := by
  dsimp only
  rw [hedSyncCommit_eq, if_neg fun h => by
    obtain ⟨hne, ha⟩ := (syncSame_iff s).mp h
    exact hx.elim hne fun hn => hn ha]
  exact ⟨rfl, State.rd_wr_self .., (sameRegs_of_regs rfl).trans (sameRegs_wr { s with hed := { s.hed with sync := none, ready := [] } } _ (by simp))⟩

/-! ### Tell-tale pins (R307) -/

theorem ttPinAccept_shows (p : Nat) (hp : p < 32) (s : State) :
    let t := ttPinAccept p s
    t.b Reg.ttPinAcc p = s.b Reg.ttPinRaw p ∧ (∀ i, i ≠ p → t.b Reg.ttPinAcc i = s.b Reg.ttPinAcc i) ∧ sameRegs s t [Reg.ttPinAcc] := by
  unfold ttPinAccept
  dsimp only
  split
  next heq => exact ⟨heq, fun _ _ => rfl, sameRegs.refl s _⟩
  next => exact ⟨s.b_setB_self _ _ _ hp, fun i hi => s.b_setB_ne _ _ hi, sameRegs_setB s _ _ (by simp)⟩

theorem ttPinChange_shows (p : Nat) (hp : p < 32) (level : Bool) (s : State) :
    let t := ttPinChange p level s
    t.b Reg.ttPinRaw p = (level != s.b Reg.ttPinPol p) ∧ sameRegs s t [Reg.ttPinRaw, Reg.ttPinAcc] ∧
      t.b Reg.ttPinAcc p = if s.f Reg.ttFilter 3 0 = 0 then (level != s.b Reg.ttPinPol p) else s.b Reg.ttPinAcc p := by
  have hraw := s.b_setB_self Reg.ttPinRaw p (level != s.b Reg.ttPinPol p) hp
  have hfil : (s.setB Reg.ttPinRaw p (level != s.b Reg.ttPinPol p)).f Reg.ttFilter 3 0 = s.f Reg.ttFilter 3 0 :=
    State.f_of_rd (s.rd_setB_ne p _ (by decide)) 3 0
  have hacc : (s.setB Reg.ttPinRaw p (level != s.b Reg.ttPinPol p)).b Reg.ttPinAcc p = s.b Reg.ttPinAcc p :=
    State.b_of_rd (s.rd_setB_ne p _ (by decide)) p
  have hsame : sameRegs s (s.setB Reg.ttPinRaw p (level != s.b Reg.ttPinPol p)) [Reg.ttPinRaw, Reg.ttPinAcc] := sameRegs_setB s _ _ (by simp)
  unfold ttPinChange
  dsimp only
  rw [hfil]
  generalize s.setB Reg.ttPinRaw p (level != s.b Reg.ttPinPol p) = u at *
  split
  · obtain ⟨h1, -, h3⟩ := ttPinAccept_shows p hp u
    have hrest : sameRegs u (ttPinAccept p u) [Reg.ttPinRaw, Reg.ttPinAcc] := fun a ha => h3 a fun hm => ha (by simp_all)
    exact ⟨(State.b_of_rd (h3 _ (by decide)) p).trans hraw, hsame.trans hrest, h1.trans hraw⟩
  · exact ⟨hraw, hsame, hacc⟩

end Sys2Proof.Machine
end
section
/-! PROOF. The timing of a watch head, gangways, and heads as a whole (R269 to R317). -/

namespace Sys2Proof.Machine

/-! ### A watch head's synthesizer out of its window (R89, R317) -/

/-- From `s` to `t` what watch head `h` says of its timing stays. -/
def tardy (h : Nat) (s t : State) : Prop := t.b (Reg.headWatchStat h) 30 = s.b (Reg.headWatchStat h) 30 ∧ (t.head h).late = (s.head h).late

section
variable {h : Nat} {s t u : State}

theorem tardy.refl (h : Nat) (s : State) : tardy h s s := ⟨rfl, rfl⟩

theorem tardy.trans (h1 : tardy h s t) (h2 : tardy h t u) : tardy h s u := by
  obtain ⟨hb, hl⟩ := h1
  obtain ⟨hb2, hl2⟩ := h2
  exact ⟨hb2.trans hb, hl2.trans hl⟩

theorem tardy_wr (s : State) {a : Nat} (v : Word) (ha : Reg.headWatchStat h ≠ a) : tardy h s (s.wr a v) := ⟨State.b_of_rd (s.rd_wr_ne v ha) 30, rfl⟩

theorem tardy_setB (s : State) (a : Nat) {i : Nat} (v : Bool) (hi : i ≠ 30) : tardy h s (s.setB a i v) := by
  refine ⟨?_, rfl⟩
  by_cases ha : Reg.headWatchStat h = a
  · exact ha ▸ s.b_setB_ne _ v hi.symm
  · exact State.b_of_rd (s.rd_setB_ne i v ha) 30

theorem tardy_setF (s : State) {hi lo : Nat} (v : Nat) (hr : 30 < lo ∨ hi < 30) (hl : lo ≤ hi) : tardy h s (s.setF (Reg.headWatchStat h) hi lo v) :=
  ⟨s.b_setF_outside _ hi lo v hr hl, rfl⟩

theorem tardy_onHead (s : State) (g : HeadSt → HeadSt) (hg : ∀ x, (g x).late = x.late) : tardy h s (s.onHead h g) :=
  ⟨rfl, (congrArg HeadSt.late (nget_nset_self ..)).trans (hg _)⟩

theorem tardy_events (he : eventsOnly s t) : tardy h s t := by
  obtain ⟨ht, hr⟩ := he
  refine ⟨State.b_of_rd (hr _ fun hd => ?_) 30, by rw [ht]; rfl⟩
  have := dropCounter_range hd
  unfold Reg.headWatchStat at this
  omega

theorem tardy_forAll {α : Type} (l : List α) (g : α → State → State) (hg : ∀ a ∈ l, ∀ t, tardy h t (g a t)) (s : State) : tardy h s (forAll l g s) :=
  forAll_keeps (fun t => tardy h s t) g l s (fun a ha t ht => ht.trans (hg a ha t)) (tardy.refl h s)

theorem tardy_ite (c : Prop) [Decidable c] (h1 : tardy h s t) (h2 : tardy h s u) : tardy h s (if c then t else u) := by
  split <;> assumption

theorem raiseHead_tardy (s : State) (e : Ev) (j data : Nat) : tardy h s (s.raiseHead e j data) := tardy_events (s.raiseRaw_only ..)

theorem countErr_tardy (s : State) {a : Nat} (n k : Nat) (ha : Reg.headWatchStat h ≠ a) : tardy h s (s.countErr a n k) := by
  unfold State.countErr
  dsimp only
  refine (tardy_wr s (satAdd n k (s.rd a)).1 ha).trans ?_
  unfold onlyIf
  exact tardy_ite _ (tardy_events (State.raise_only ..)) (tardy.refl h _)

theorem showFault_tardy (s : State) : tardy h s s.showFault := tardy_setB s _ _ (by omega)

theorem levelTake_tardy (s : State) (level avail : Nat) : tardy h s (s.levelTake h level avail) := by
  have hset : ∀ (g : HeadSt → HeadSt) (n : Nat), (∀ x, (g x).late = x.late) → tardy h s ((s.onHead h g).setF (Reg.headWatchStat h) 29 28 n) :=
    fun g n hg => (tardy_onHead s g hg).trans (tardy_setF _ n (.inr (by omega)) (by omega))
  unfold State.levelTake
  dsimp only
  generalize hu : State.setF _ (Reg.headWatchStat h) 29 28 _ = u
  have hd : tardy h s u := hu ▸ hset _ _ fun _ => rfl
  exact tardy_ite _ (hd.trans ((tardy_setB _ _ true (by omega)).trans (raiseHead_tardy ..))) (tardy_ite _ (hd.trans (raiseHead_tardy ..)) hd)

theorem verdictRegs_tardy (s : State) (f : WFrame) (avail last : Word) : tardy h s (s.verdictRegs h f avail last) := by
  refine (((((tardy_wr s avail ?_).trans (tardy_wr _ last ?_)).trans (tardy_wr _ _ ?_)).trans (tardy_wr _ _ ?_)).trans (tardy_wr _ _ ?_)).trans
    (tardy_forAll _ _ (fun r _ t => countErr_tardy t 16 1 ?_) _)
  · unfold Reg.headWatchStat Reg.headWatchAvail; omega
  · unfold Reg.headWatchStat Reg.headWatchLast; omega
  · unfold Reg.headWatchStat Reg.headWatchLastMask; omega
  · unfold Reg.headWatchStat Reg.headWatchCellLo; omega
  · unfold Reg.headWatchStat Reg.headWatchCellHi; omega
  · unfold Reg.headWatchStat Reg.headLkMissCnt; omega

theorem badFrame_tardy (s : State) (f : WFrame) : tardy h s (s.badFrame h f) := by
  have hcount : ∀ (run : Nat) (g : HeadSt → HeadSt) (d : Nat), (∀ x, (g x).late = x.late) →
      tardy h s (((((s.setF (Reg.headWatchStat h) 27 24 run).onHead h g).countErr (Reg.headWatchBadCnt h) 16 1).setB
        (Reg.headWatchStat h) 1 true).raiseHead .lookoutBad h d) := fun run g d hg =>
    ((((tardy_setF s run (.inr (by omega)) (by omega)).trans (tardy_onHead _ g hg)).trans
      (countErr_tardy _ 16 1 (by unfold Reg.headWatchStat Reg.headWatchBadCnt; omega))).trans (tardy_setB _ _ true (by omega))).trans (raiseHead_tardy ..)
  unfold State.badFrame
  dsimp only
  generalize hu : State.raiseHead _ Ev.lookoutBad h _ = u
  have hd : tardy h s u := hu ▸ hcount _ _ _ fun _ => rfl
  exact tardy_ite _ (hd.trans ((((tardy_setB _ _ true (by omega)).trans (tardy_setB _ _ true (by omega))).trans (raiseHead_tardy ..)).trans
    (showFault_tardy _))) hd

theorem goodFrame_tardy (s : State) : tardy h s (s.goodFrame h) := by
  unfold State.goodFrame
  dsimp only
  generalize hu : State.onHead _ h _ = u
  have hd : tardy h s u := hu ▸ (tardy_setF s 0 (.inr (by omega)) (by omega)).trans (tardy_onHead _ _ fun _ => rfl)
  exact tardy_ite _ (hd.trans ((tardy_setB _ _ false (by omega)).trans (showFault_tardy _))) hd

theorem final_tardy (s : State) (f : WFrame) : tardy h s (s.final h f) := by
  have hregs : ∀ avail last, tardy h s (s.verdictRegs h f avail last) := fun avail last => verdictRegs_tardy ..
  have hbad := fun u : State => badFrame_tardy (h := h) u f
  have hgood := fun u : State => goodFrame_tardy (h := h) u
  unfold State.verdictRegs at hregs
  unfold State.badFrame at hbad
  unfold State.goodFrame at hgood
  unfold State.final
  dsimp only at hbad hgood ⊢
  generalize hu : forAll _ _ (State.wr _ (Reg.headWatchCellHi h) _) = u
  have hd : tardy h s u := hu ▸ hregs ..
  exact (tardy_ite _ (hd.trans (hbad u)) (hd.trans (hgood u))).trans (levelTake_tardy ..)

theorem settle_tardy (n h : Nat) : ∀ s : State, tardy h s (s.settle n h) := by
  induction n with
  | zero => exact tardy.refl h
  | succ n ih =>
    intro s
    unfold State.settle
    split
    · exact tardy.refl h s
    next f r _ =>
      have hdrop : tardy h s (s.onHead h fun x => { x with frames := r }) := tardy_onHead s _ fun _ => rfl
      generalize (s.onHead h fun x => { x with frames := r }) = u at hdrop ⊢
      exact tardy_ite _ (tardy.refl h s) ((hdrop.trans (final_tardy u f)).trans (ih (u.final h f)))

end

theorem watchTiming_idle {h : Nat} {s : State} (hx : ¬ (s.headOn h = true ∧ s.watchHead h = true ∧ s.b (Reg.headWatchStat h) 30 = false)) :
    watchTiming h s = s := by
  unfold watchTiming
  refine if_neg fun hc => hx ?_
  simpa only [Bool.and_eq_true, Bool.not_eq_true', and_assoc] using hc

theorem watchTiming_shows {h : Nat} {s : State} (hx : s.headOn h = true ∧ s.watchHead h = true ∧ s.b (Reg.headWatchStat h) 30 = false) :
    (watchTiming h s).b (Reg.headWatchStat h) 30 = true ∧ ((watchTiming h s).head h).late = true := by
  have hnote : ∀ g : HeadSt → HeadSt, (∀ x, (g x).late = true) →
      (((s.setB (Reg.headWatchStat h) 30 true).onHead h g).raiseHead .watchTiming h 0).b (Reg.headWatchStat h) 30 = true ∧
        ((((s.setB (Reg.headWatchStat h) 30 true).onHead h g).raiseHead .watchTiming h 0).head h).late = true := fun g hg => by
    obtain ⟨hb, hl⟩ := raiseHead_tardy (h := h) ((s.setB (Reg.headWatchStat h) 30 true).onHead h g) .watchTiming h 0
    have hself : ((s.setB (Reg.headWatchStat h) 30 true).onHead h g).head h = g (s.head h) := nget_nset_self ..
    exact ⟨hb.trans (s.b_setB_self (Reg.headWatchStat h) 30 true (by omega)), hl.trans ((congrArg HeadSt.late hself).trans (hg _))⟩
  obtain ⟨hon, hw, hin⟩ := hx
  unfold watchTiming
  rw [if_pos (by simp [hon, hw, hin])]
  dsimp only
  generalize hu : State.raiseHead _ Ev.watchTiming h 0 = u
  obtain ⟨hb, hl⟩ : u.b (Reg.headWatchStat h) 30 = true ∧ (u.head h).late = true := hu ▸ hnote _ fun _ => rfl
  obtain ⟨hb2, hl2⟩ := settle_tardy (u.head h).frames.length h u
  exact ⟨hb2.trans hb, hl2.trans hl⟩

/-! ### Gangways (R286) -/

theorem gangwayWrite_refused {h : Nat} (k : Nat) (w : Word) {s : State} (hx : s.running = true ∧ s.watchHead h = true) : gangwayWrite h k w s = s := by
  obtain ⟨hr, hw⟩ := hx
  unfold gangwayWrite
  exact if_pos (by simp [hr, hw])

theorem gangwayWrite_takes {h : Nat} (k : Nat) (w : Word) {s : State} (hx : ¬ (s.running = true ∧ s.watchHead h = true)) :
    gangwayWrite h k w s = s.wr (Reg.headLayGangway h k) (w &&& 0xFFFFF) := by
  unfold gangwayWrite
  exact if_neg fun hc => hx (by simpa only [Bool.and_eq_true] using hc)

/-! ### A gate line with the counts of its symbols -/

theorem gateLine_idle {h : Nat} (rb : List (Fin 16 × Option Word)) {s : State} (hx : (s.head h).scan = false ∨ (s.head h).gated = true) :
    gateLine h rb s = s := by
  unfold gateLine
  refine if_neg fun hc => ?_
  obtain ⟨hs, hg⟩ := Bool.and_eq_true_iff.mp hc
  rcases hx with hx | hx
  · exact Bool.false_ne_true (hx.symm.trans hs)
  · rw [hx] at hg
    exact Bool.false_ne_true hg

theorem gateLine_counted {s : State} {h : Nat} (hh : h < 64) (rb : List (Fin 16 × Option Word)) (sym : List (Fin 32 × Nat × Nat))
    (hs : (s.head h).scan = true) (hg : (s.head h).gated = false) :
    let t := gateLine h rb (symbolCounts sym s)
    (t.head h).gated = true ∧ (t.head h).scan = true ∧
      (∀ q, s.hed.sync = none → (s.head h).pend = some q →
        (t.head h).pend = none ∧ t.b (Reg.headCommitStatus h) 31 = false ∧ t.f (Reg.headCommitStatus h) 15 0 = q % 65536) ∧
      (s.hed.sync = none → (s.head h).pend = none → (∀ e ∈ (s.head h).zones, e.1 < 1024) → ∀ i ∈ s.icons h, t.iconState h i = s.iconAsked h i) := by
  obtain ⟨hcore, hsync, hregs, hzones⟩ := symbolCounts_scans (z := true) (h := h) sym s
  simp only [HeadSt.core, Prod.mk.injEq] at hcore
  obtain ⟨hscan, -, hgated, -, -, -, -, hpend⟩ := hcore
  generalize symbolCounts sym s = u at *
  obtain ⟨h1, h2, h3, h4⟩ := gateLine_shows hh rb (hscan.trans hs) (hgated.trans hg)
  refine ⟨h1, h2, fun q hno hq => h3 q (hsync.trans hno) (hpend.trans hq), fun hno hq hz i hi => ?_⟩
  have hicons : u.icons h = s.icons h := icons_congr (hregs _ ⟨hh, .inl rfl⟩) fun j hj =>
    hregs _ ⟨hh, .inr (.inr (.inr (.inr (.inr (.inl ⟨j, hj, rfl⟩)))))⟩
  have hlast := h4 (hsync.trans hno) (hpend.trans hq) (by rw [hzones rfl]; exact hz) i (by rw [hicons]; exact hi)
  exact hlast.trans (iconAsked_congr hh (icons_lt hi) hregs)

/-! ### A line with the reads of its icons -/

theorem headLineStart_read {s : State} {h : Nat} (hh : h < 64) (fetch : List (Fin 8 × Nat)) (broken : List (Fin 256 × BitVec 19 × Word))
    (hs : (s.head h).scan = true) (hc : s.headClock h = true) :
    let t := headLineStart h fetch (iconReads broken s)
    let y := if (s.head h).started then s.headLine h + 1 else 0
    if (s.head h).lines ≤ y ∧ s.b (Reg.headCtrl h) 0 = false then (t.head h).scan = false ∧ (t.head h).due = [] ∧ t.out = s.out
    else (t.head h).started = true ∧ t.headLine h = min 8191 y ∧ (s.vActive h ≤ y ∨ (s.head h).gated = true → t.out = s.out) := by
  obtain ⟨hhead, hline, hclock, hact, hon, hout⟩ := (iconReads_glances broken s).line hh
  have hshow := headLineStart_shows (s := iconReads broken s) hh fetch (by rw [hhead]; exact hs) (hclock.trans hc)
  unfold State.nextLine at hshow
  rw [hhead, hline, hact, hon, hout] at hshow
  exact hshow

/-- Settles O51: each command of a head by the lemma of its own operation, with the gate's comparison, its counters and the icons' reads
shown to leave alone what the next step looks at. -/
theorem headsScanAndCommitAtTheirGateLine : Obligations.HeadsScanAndCommitAtTheirGateLine := by
  unfold Obligations.HeadsScanAndCommitAtTheirGateLine
  refine ⟨fun h err s hm => ⟨fun hx => ?_, fun hrun hne hend => ?_⟩, fun h fetch broken s hm => ⟨fun hx => ?_, fun hs hc => ?_⟩,
    fun h rb sym s hm => ⟨fun hx => ?_, fun hs hg => ?_⟩, fun m h w s ht hon => ?_, fun m w s ht => ⟨fun hne ha => ?_, fun hx => ?_⟩,
    fun m h k w s ht => ⟨fun hx => ?_, fun hx => ?_⟩, fun p s hm => ⟨?_, fun level => ?_⟩, fun h s hm => ?_⟩
  · exact (onMatrix_up _ hm).trans (congrArg _ (headFrameStart_idle err hx))
  · exact completes_of_exec (onMatrix_up _ hm) (headFrameStart_shows h.isLt err hrun hne hend)
  · exact (onMatrix_up _ hm).trans (congrArg _ (headLineStart_idle fetch hx))
  · exact completes_of_exec (onMatrix_up _ hm) (headLineStart_read h.isLt fetch broken hs hc)
  · exact (onMatrix_up _ hm).trans (congrArg _ (gateLine_idle rb hx))
  · exact completes_of_exec (onMatrix_up _ hm) (gateLine_counted h.isLt rb sym hs hg)
  · exact completes_takes ht rfl (regWrite_headCommit s m h _ h.isLt) (headCommit_shows w hon)
  · exact completes_takes ht rfl (regWrite_hedSyncCommit s m _) (hedSyncCommit_agreed w hne ha)
  · exact completes_takes ht rfl (regWrite_hedSyncCommit s m _) (hedSyncCommit_refused w hx)
  · exact exec_takes ht rfl ((regWrite_headLayGangway s m h k w h.isLt k.isLt).trans (gangwayWrite_refused k w hx))
  · exact completes_takes ht rfl (regWrite_headLayGangway s m h k w h.isLt k.isLt) (gangwayWrite_takes k w hx)
  · exact completes_of_exec (onMatrix_up _ hm) (ttPinAccept_shows p p.isLt s)
  · exact completes_of_exec (onMatrix_up _ hm) (ttPinChange_shows p p.isLt level s)
  · split
    next hx =>
      obtain ⟨hb, hl⟩ := watchTiming_shows hx
      exact completes_of_exec (onMatrix_up _ hm) ⟨hb, hl, kept_sameMemory (watchTiming_kept h s)⟩
    next hx => exact (onMatrix_up _ hm).trans (congrArg _ (watchTiming_idle hx))

end Sys2Proof.Machine
end
